-- ==== Sys2Proof/Word.lean ====
section
/-! DEFINITION. The word types of the spec: bytes, the 32-bit register words of R12 and the 40-bit package addresses of R17. -/

namespace Sys2Proof

/-- One byte of a packet, a payload, a record or a memory. -/
abbrev Byte := BitVec 8

/-- A byte string, first byte first. -/
abbrev Bytes := List Byte

/-- A register word (R12). -/
abbrev Word := BitVec 32

/-- A package address (R17). -/
abbrev Addr := BitVec 40

end Sys2Proof
end

