-- ==== Sys2Proof/Syntax.lean ====
section
/-! DEFINITION. The commands of the block: one constructor of `Instr` for each row of spec/opcode_table.json, with the operands its rule
gives it. An operand brings what comes from outside the part (packet bytes, an index, the outcome of a measurement). -/

namespace Sys2Proof

/-- A tile index (R19). -/
abbrev Tile := Fin 8
/-- A local camera port of a tile (R19). -/
abbrev Port := Fin 2
/-- A Cerette link interface of a tile (R28). -/
abbrev Link := Fin 3
/-- A tile-local lane (R19). -/
abbrev Lane := Fin 6
/-- A sub-stream of a port (R19). -/
abbrev Sub := Fin 4
/-- A stitch group (R19). -/
abbrev Group := Fin 8
/-- A cluster of a tile (R19). -/
abbrev Cluster := Fin 8
/-- An Ethernet port: 0 is A, 1 is B (R3). -/
abbrev EthPort := Fin 2

/-- The origin of a register access (R13): an LCP session, the structure image loader, the management firmware. -/
inductive Origin where
  | session (n : Fin 8)
  | image
  | firmware
  deriving DecidableEq, Repr

/-- A PLL of a tile (R41, R44). -/
inductive Pll where
  | core | sys | d2d | eth | aux | refc
  deriving DecidableEq, Repr

/-- A stage instance that the deadline logic watches (R57, R58). -/
inductive StageInst where
  /-- Statistics of one sub-stream of a local port (class 1). -/
  | stats (p : Port) (s : Sub)
  /-- The tile's part of a stitch group (class 2). -/
  | stitch (g : Group)
  /-- The registration solve of a group (class 3). -/
  | solve (g : Group)
  /-- The tile's segmentation of a group (class 4). -/
  | seg (g : Group)
  /-- Instance `i` of engines alone (R57, R241). -/
  | engines (i : Fin 32)
  /-- The collector, on tile 0 (class 6). -/
  | collector
  deriving DecidableEq, Repr

/-- An engine by tile and tile-local number (R19). -/
structure EngineId where
  tile : Tile
  t : Fin 128
  deriving DecidableEq, Repr

/-- A scalar register of an engine (R237). -/
abbrev SReg := Fin 16
/-- A vector register of an engine (R237). -/
abbrev VReg := Fin 32
/-- An accumulator of an engine (R237). -/
abbrev AccReg := Fin 4
/-- A predicate register of an engine (R237). -/
abbrev PReg := Fin 8

/-- The fields of a vector instruction beside its registers (R251): predicate enable P and register pg, mode M, constant k. -/
structure VCtl where
  p : Bool
  pg : PReg
  m : Fin 4
  k : Fin 32
  deriving DecidableEq, Repr

/-- The source of an LCP message, to which a session is bound (R340). -/
inductive LcpSource where
  | l2 (mac : BitVec 48)
  | udp4 (ip : BitVec 32) (port : BitVec 16)
  | udp6 (ip : BitVec 128) (port : BitVec 16)
  deriving DecidableEq, Repr

/-- What a well-formed LCP request carries beside its operation and payload (R339). -/
structure LcpHdr where
  port : EthPort
  src : LcpSource
  mac : BitVec 48
  dst : Fin 64
  ttl : Fin 256
  session : Fin 8
  noreply : Bool
  seq : BitVec 16
  deriving DecidableEq, Repr

/-- An ALIGN block that a lane has seen (R77, R80): the block time of its arrival, and its bytes 1 to 3. -/
structure AlignMark where
  time : Nat
  idx : Nat
  lanes : Nat
  counter : Nat
  deriving DecidableEq, Repr

/-- What one lane of the bond has brought in a training phase: signal at its detector and its CDR in lock (R85), the eye width and height
at each CTLE step from 0 on (R83, R431), the frequency offset in 0.01 ppm (R84), the ALIGN blocks seen in DESKEW, oldest first (R80), and
the last 58 scrambled bits (R76). -/
structure LaneMeas where
  lane : Lane
  signal : Bool
  cdr : Bool
  eyes : List (Fin 65 × Fin 1024)
  ppm : Int
  rounds : List AlignMark
  tail : BitVec 58
  deriving DecidableEq, Repr

/-- What one lane of the bond has received (R76): its blocks, bit 0 of each sent first, the blocks by which it stands behind the earliest lane
of the bond (R80) and its frequency offset in 0.01 ppm (R84). -/
structure LaneRx where
  blocks : List (BitVec 66)
  delay : Nat
  ppm : Int
  deriving DecidableEq, Repr

/-- One frame read from an absolute encoder (R293), as it stands on the wire: the value bits, the BiSS-C error and warning bits and
CRC-6, whether the start bit came in time and whether the data line was high before the first clock. -/
structure AbsFrame where
  raw : BitVec 64
  nE : Bool
  nW : Bool
  crc6 : BitVec 6
  start : Bool
  idleHigh : Bool
  deriving DecidableEq, Repr

/-- A received PTP message (R314): port, domainNumber, sourcePortIdentity, sequenceId, twoStepFlag, logMessageInterval, correctionField in
2⁻¹⁶ ns, the timestamp it carries in ns, its receive stamp in TB0 ns and the requestingPortIdentity. -/
structure PtpMsg where
  port : EthPort
  domain : Fin 256
  srcId : BitVec 80
  seq : BitVec 16
  twoStep : Bool
  interval : BitVec 8
  corr : BitVec 64
  ts : BitVec 64
  rx : BitVec 64
  req : BitVec 80
  deriving DecidableEq, Repr

/-- What an Announce message adds (R317): the dataset of its grandmaster and the announce interval. -/
structure AnnounceData where
  prio1 : BitVec 8
  cls : BitVec 8
  accuracy : BitVec 8
  variance : BitVec 16
  prio2 : BitVec 8
  gmId : BitVec 64
  steps : BitVec 16
  deriving DecidableEq, Repr

/-- The two copies of a queue's head cell, tail cell and item count (R396). -/
structure PtrCopies where
  headA : BitVec 16
  headB : BitVec 16
  tailA : BitVec 16
  tailB : BitVec 16
  countA : BitVec 16
  countB : BitVec 16
  deriving DecidableEq, Repr


/-- The commands and events of the block, in the order of spec/opcode_table.json. -/
inductive Instr where
  /-- REGISTER_WRITE (R39): A write to a register or window word that has no row of its own takes effect under its access code. -/
  | registerWrite (o : Origin) (a : BitVec 40) (v : BitVec 32)
  /-- CERETTE_PACKET (R32): A packet arrives on a Cerette link and its CRC-32C is checked. -/
  | cerettePacket (t : Tile) (l : Link) (pkt : Bytes)
  /-- RETRAIN_COMPLETE (R32): A Cerette retraining ends, bringing the link UP or counting a retraining failure. -/
  | retrainComplete (t : Tile) (l : Link) (up : Bool)
  /-- D2D_RETRAIN (R45): A write of D2D_Ln_CTRL.RETRAIN retrains the link at the next packet boundary and clears FAILED. -/
  | d2dRetrain (t : Tile) (l : Link)
  /-- REMOTE_ACCESS_TIMEOUT (R34): A remote register access that has waited 100 µs for a retraining link completes with a link error. -/
  | remoteAccessTimeout
  /-- D2D_CLR_CRC_ERR (R45): A write of D2D_Ln_CLR.CRC_ERR clears the link's CRC error counter. -/
  | d2dClrCrcErr (t : Tile) (l : Link)
  /-- D2D_CLR_REPLAY (R45): A write of D2D_Ln_CLR.REPLAY clears the link's replay counter. -/
  | d2dClrReplay (t : Tile) (l : Link)
  /-- D2D_CLR_TX_FLITS (R45): A write of D2D_Ln_CLR.TX_FLITS clears the link's flit counter. -/
  | d2dClrTxFlits (t : Tile) (l : Link)
  /-- PLL_LOSS (R42): A PLL that is not fused off loses lock, so CLK_LOSS and SYS_ERR.PLL_LOSS are set, bands go blind and READY falls. -/
  | pllLoss (t : Tile) (p : Pll)
  /-- PLL_LOCK (R42): A PLL regains lock and its clock domains run again. -/
  | pllLock (t : Tile) (p : Pll)
  /-- ENCODER_EDGE (R290): A filtered A or B edge of an incremental channel is decoded into a count that moves COUNT and TRAVEL. The levels of A and B
  in one sample, how many ns each holds that is new, and whether the sample is the second of the two in the 2 ns of a TB0 step. -/
  | encoderEdge (c : Fin 4) (a b : Bool) (heldA heldB : Nat) (odd : Bool)
  /-- TB_SCHEDULE_TICK (R48): With SRC = 1 the selected time base reaches the next exact time of the schedule and issues a source tick. -/
  | tbScheduleTick
  /-- HELD_TICK_RELEASE (R49): The rate limiter's minimum period ends and the held source tick is accepted as a line tick. -/
  | heldTickRelease
  /-- IDLE_TIMEOUT (R56): No line tick for BND_IDLE_TIMEOUT closes the open band short and starts the drain. -/
  | idleTimeout
  /-- DRAIN_TICK (R56): The drain period expires and a drain tick opens an empty band, ending the drain when all bands are released. -/
  | drainTick
  /-- RUN_SET (R47): A write of BND_CTRL.RUN = 1 checks the configuration and starts the band clock, clearing counters and totals. -/
  | runSet (o : Origin) (v : BitVec 32)
  /-- RUN_CLEAR (R56): A write of RUN = 0 closes any open band short, drains and then stops the clock. -/
  | runClear (o : Origin) (v : BitVec 32)
  /-- FLUSH (R56): A write of BND_CTRL.FLUSH closes the open band short and starts the drain. -/
  | flush
  /-- DEADLINE_MISS (R58): At band tick n + D a stage instance without its done flag is aborted, its band-local state dropped and a blind token emitted. -/
  | deadlineMiss (t : Tile) (i : StageInst)
  /-- BLIND_TOKEN_ARRIVAL (R63): A blind token reaches the ledger and joins the span lists, or forms its own record if the band's lists are closed. -/
  | blindTokenArrival
  /-- RELEASE (R60): At band tick n + D_total + 1 the held results of band n are released to the queues in order. -/
  | release
  /-- BLIND_RECORD_SEND (R69): A held blind record is sent when the queue has room again. -/
  | blindRecordSend
  /-- BND_MISS_CLR (R72): A write of BND_MISS_CLR clears the selected deadline-miss counters. -/
  | bndMissClr (t : Tile) (clr : BitVec 8)
  /-- PORT_ENABLE (R85): A write of LNK_PORTp_CTRL.ENABLE = 1 checks the port configuration and starts training. -/
  | portEnable (t : Tile) (p : Port)
  /-- PORT_DISABLE (R91): A write of ENABLE = 0 puts the port in DISABLED with its lanes in L2. -/
  | portDisable (t : Tile) (p : Port)
  /-- PORT_RETRAIN (R91): A write of LNK_PORTp_CTRL.RETRAIN restarts training from SIGNAL_DETECT according to the port state. -/
  | portRetrain (t : Tile) (p : Port)
  /-- PSTATE (R92): A write of LNK_PORTp_CTRL.PSTATE moves the bond lanes to L0, L1 or L2. -/
  | pstate (t : Tile) (p : Port) (v : Fin 4)
  /-- LNK_TEST (R107): A write of LNK_PORTp_CTRL.TEST enters or leaves TEST for PRBS checking. -/
  | lnkTest (t : Tile) (p : Port) (on : Bool)
  /-- PHASE_COMPLETE (R85): Every bond lane meets the condition of the current training phase and the port enters the next state. -/
  | phaseComplete (t : Tile) (p : Port) (m : List LaneMeas)
  /-- TRAINING_FAILURE (R87): A training phase times out, so the port counts a failure, notifies and enters BACKOFF. -/
  | trainingFailure (t : Tile) (p : Port) (m : List LaneMeas)
  /-- BACKOFF_EXPIRY (R87): The backoff interval expires and the port returns to SIGNAL_DETECT. -/
  | backoffExpiry (t : Tile) (p : Port)
  /-- BACKOFF_RESET (R87): A port that has held UP for 1 s has its backoff interval returned to 10 ms. -/
  | backoffReset (t : Tile) (p : Port)
  /-- LOSS_OF_SIGNAL (R89): A bond lane loses signal, returning the port to SIGNAL_DETECT and discarding any packet in progress. -/
  | lossOfSignal (t : Tile) (n : Lane)
  /-- BLOCK_LOCK_LOSS (R86): Sixteen invalid sync headers within 64 blocks lose block lock and take the port out of UP. -/
  | blockLockLoss (t : Tile) (n : Lane) (blocks : List (BitVec 66))
  /-- ALIGNMENT_LOSS (R80): Two consecutive missing or misplaced alignment rounds take the port out of UP. -/
  | alignmentLoss (t : Tile) (p : Port)
  /-- SLIP_DWELL (R86): The 10 µs dwell of firmware slipping ends and an unlocked lane slips one bit. -/
  | slipDwell (t : Tile) (n : Lane)
  /-- SLIP (R86): A write of LNK_LANEn_CTRL.SLIP slips a manual lane by one bit in ALIGN. -/
  | slip (t : Tile) (n : Lane)
  /-- SLIP_MANUAL (R86): A change of SLIP_MANUAL stops or resumes firmware slipping and may restart the ALIGN timeout. -/
  | slipManual (t : Tile) (n : Lane) (on : Bool)
  /-- INJECT (R107): A write of LNK_PORTp_BC_CTRL.INJECT inverts one bit of the PRBS generator. -/
  | inject (t : Tile) (p : Port)
  /-- BC_DISABLE (R105): Disabling the back channel, or putting it in PRBS mode, loses every queued and partly sent message. -/
  | bcDisable (t : Tile) (p : Port) (v : BitVec 32)
  /-- LINE_PACKET (R97): A camera packet completes on a port and is checked for framing, CRC, type and format. -/
  | linePacket (t : Tile) (p : Port) (rx : List LaneRx)
  /-- ACK_PACKET (R105): An ACK packet completes a pending CMD or is discarded as unsolicited. -/
  | ackPacket (t : Tile) (p : Port) (rx : List LaneRx)
  /-- SEND (R105): A write of FXL_PORTp_CMD_CTRL.SEND queues a CMD and sets PENDING. -/
  | send (t : Tile) (p : Port) (v : BitVec 32)
  /-- CMD_TIMEOUT (R105): No matching ACK within FXL_PORTp_CMD_TMO makes the CMD state TIMEOUT. -/
  | cmdTimeout (t : Tile) (p : Port)
  /-- EXPSET_MESSAGE (R104): A committed EXPSET message starts on the back channel once the band's TRIG and earlier messages are sent. -/
  | expsetMessage (t : Tile) (p : Port)
  /-- CMD_MESSAGE (R105): A queued CMD message is sent on the back channel after any earlier message. -/
  | cmdMessage (t : Tile) (p : Port)
  /-- LNK_LANE_CLR_SYNC_ERR (R108): A write of LNK_LANEn_CLR.SYNC_ERR clears the lane's sync error counter. -/
  | lnkLaneClrSyncErr (t : Tile) (n : Lane)
  /-- LNK_LANE_CLR_PRBS (R108): A write of LNK_LANEn_CLR.PRBS clears the PRBS error and bit counts. -/
  | lnkLaneClrPrbs (t : Tile) (n : Lane)
  /-- LNK_PORT_CLR_FAILS (R108): A write of LNK_PORTp_CLR.FAILS clears the training failure counter. -/
  | lnkPortClrFails (t : Tile) (p : Port)
  /-- LNK_PORT_CLR_DROPS (R108): A write of LNK_PORTp_CLR.DROPS clears the drop counter. -/
  | lnkPortClrDrops (t : Tile) (p : Port)
  /-- FXL_CLR_LINES (R109): A write of FXL_PORTp_CLR.LINES clears the four line counters. -/
  | fxlClrLines (t : Tile) (p : Port)
  /-- FXL_CLR_CRC_ERR (R109): A write of FXL_PORTp_CLR.CRC_ERR clears the CRC error counter. -/
  | fxlClrCrcErr (t : Tile) (p : Port)
  /-- FXL_CLR_FRAME_ERR (R109): A write of FXL_PORTp_CLR.FRAME_ERR clears the framing error counter. -/
  | fxlClrFrameErr (t : Tile) (p : Port)
  /-- FXL_CLR_DISCARD (R109): A write of FXL_PORTp_CLR.DISCARD clears the discard counter. -/
  | fxlClrDiscard (t : Tile) (p : Port)
  /-- FXL_CLR_TRIG (R109): A write of FXL_PORTp_CLR.TRIG clears the TRIG counter. -/
  | fxlClrTrig (t : Tile) (p : Port)
  /-- LINE_WAIT_EXPIRY (R113): At line tick C, lines up to C − WAIT that have not arrived count as missing and E moves past them. -/
  | lineWaitExpiry (t : Tile) (p : Port) (sub : Sub)
  /-- PIPELINE_TAKE (R116): The correction pipeline takes the next staged line, by lowest line number, when its input stage is free. -/
  | pipelineTake (t : Tile) (p : Port)
  /-- CORRECTED_LINE (R119): A corrected line completes and goes to every consumer mapped to its sub-stream. -/
  | correctedLine (t : Tile) (p : Port)
  /-- LINE_PATH_DEADLINE (R118): At band tick n + 2, lines of band n still staged or uncorrected are dropped as LINE_DROP. -/
  | linePathDeadline (t : Tile) (p : Port)
  /-- GAIN_SWAP (R124): A write of GAIN_CTRL.SWAP requests a fade to the other gain bank, queued or latched. -/
  | gainSwap (t : Tile) (p : Port) (sub : Sub)
  /-- FADE_START (R123): A waiting or latched gain fade starts at its band tick or at the end of the previous fade. -/
  | fadeStart (t : Tile) (p : Port) (sub : Sub)
  /-- ING_CLR_COUNTERS (R131): A write of ING_PORTp_CLR.COUNTERS clears the port's sub-stream counters. -/
  | ingClrCounters (t : Tile) (p : Port)
  /-- COMMIT (R133): A write of EXP_PORTp_SET_CTRL.COMMIT requests a hand-over of the shadow exposure set. -/
  | commit (t : Tile) (p : Port)
  /-- EXP_HAND_OVER (R134): At the band tick an exposure set is handed over, recorded and queued for the back channel. -/
  | expHandOver (t : Tile) (p : Port)
  /-- STATISTICS_COMPLETE (R141): The statistics of a band complete after its last included line leaves correction. -/
  | statisticsComplete (t : Tile) (p : Port) (sub : Sub)
  /-- STATISTICS_RELEASE (R141): At band tick n + D1 the band's statistics records are released or, if incomplete, discarded. -/
  | statisticsRelease (t : Tile)
  /-- AE_DISABLE (R151): A write of AE_EN = 0 stops the loop and discards any pending loop set. -/
  | aeDisable (t : Tile) (p : Port)
  /-- EXP_CLR_COUNTERS (R153): A write of EXP_CLR.COUNTERS clears MIXED, DROPPED and AE_COMMITS. -/
  | expClrCounters (t : Tile)
  /-- STITCH_LINE_START (R167): The stitcher starts a segment line as soon as every source line it needs is present. -/
  | stitchLineStart (t : Tile)
  /-- STITCH_LINE_COMPLETE (R168): A stitched segment line completes and goes to its consumers and to the decimated copy. -/
  | stitchLineComplete (t : Tile)
  /-- IMPORTED_LINE (R158): A delayed source line arrives at an importing tile through an import window. -/
  | importedLine (t : Tile) (i : Fin 4)
  /-- IMPORT_LATE (R167): An import not present WAIT line ticks after tick n is left out and counted late. -/
  | importLate (t : Tile) (i : Fin 4)
  /-- TRIM_COMMIT (R169): A write of STI_TRIM_CTRL.COMMIT requests a hand-over of the trim group. -/
  | trimCommit (t : Tile)
  /-- TRIM_HAND_OVER (R169): At the band tick the trims of software or registration tracking take effect. -/
  | trimHandOver (t : Tile)
  /-- STI_CLR_COUNTERS (R172): A write of STI_CLR.COUNTERS clears LINES, SINGLE and IMPi_LATE. -/
  | stiClrCounters (t : Tile)
  /-- REF (R348): A reference packet is assembled into a stripe on its port's tile. -/
  | lcpRef (h : LcpHdr) (payload : Bytes)
  /-- STRIPE_STORE (R181): A stripe reaches a tile and is stored in its ring, decoded into the coarse copy and counted toward the horizon. -/
  | stripeStore (t : Tile)
  /-- LEAD_CHECK (R184): At band tick n − REF_LEAD_MIN the horizon is checked, making band n REF_LATE when it falls short. -/
  | leadCheck (g : Group)
  /-- SOLUTION_ITEM (R250): A registration solution item arrives and REF applies the outcome rules, trims and residual. -/
  | solutionItem (g : Group)
  /-- WARP_START (R197): The warp of band m starts when its solution has arrived, feeding segmentation. -/
  | warpStart (t : Tile) (g : Group)
  /-- LEARN_START (R198): A write of REF_GRPg_LEARN.START requests learning of the reference. -/
  | learnStart (t : Tile) (g : Group)
  /-- LEARNING_BEGIN (R198): At the first repeat boundary after the request, learning starts capturing repeats. -/
  | learningBegin (g : Group)
  /-- MEDIAN_COMPLETE (R199): After K good repeats the median computation of the learned reference completes. -/
  | medianComplete (t : Tile) (g : Group)
  /-- LEARNED_EFFECT (R200): The learned reference takes effect at the first repeat boundary after the median completes. -/
  | learnedEffect (g : Group)
  /-- REF_CLR_COUNTERS (R206): A write of REF_CLR.COUNTERS clears REF_DISCARD, LATE and FAILS. -/
  | refClrCounters (t : Tile)
  /-- VERDICT (R218): A classification verdict arrives and sets the class of its bramble or drops it. -/
  | verdict (t : Tile) (g : Group)
  /-- COLLECTOR_SERVE (R224): From band tick n + D5 the collector serves each tile's full slot in turn order and merges, orders, caps and stamps. -/
  | collectorServe
  /-- COL_RECORD_SEND (R228): A held defect or saturated record is sent when the queue has room. -/
  | colRecordSend
  /-- MARKER_INSERT (R306): A marker position is converted to a count and inserted in order into the marker compare ring. -/
  | markerInsert
  /-- SEG_CLR_COUNTERS (R235): A write of SEG_CLR.COUNTERS clears every group counter. -/
  | segClrCounters (t : Tile)
  /-- COL_CLR_COUNTERS (R236): A write of COL_CLR.COUNTERS clears every COL counter. -/
  | colClrCounters
  /-- INIT_ENTRY (R242): An engine assigned only in SHADOW starts its INIT entry once the image load completes. -/
  | initEntry (e : EngineId)
  /-- BAND_ENTRY (R243): An engine starts its BAND entry at the later of its start lag and the end of its previous entry. -/
  | bandEntry (e : EngineId)
  /-- ABORT_HUNG (R244): An ABORT entry without DONE within 4,096 cycles is ended by force. -/
  | abortHung (e : EngineId)
  /-- BARRIER_RELEASE (R256): Every barrier member has arrived or is not running, so waiting engines resume. -/
  | barrierRelease (t : Tile) (c : Cluster)
  /-- NOP (R254): Engine instruction doing nothing. -/
  | engNop (e : EngineId)
  /-- ADD (R254): Engine scalar 32-bit add. -/
  | engAdd (e : EngineId) (d a b : SReg)
  /-- SUB (R254): Engine scalar 32-bit subtract. -/
  | engSub (e : EngineId) (d a b : SReg)
  /-- AND (R254): Engine scalar bitwise AND. -/
  | engAnd (e : EngineId) (d a b : SReg)
  /-- OR (R254): Engine scalar bitwise OR. -/
  | engOr (e : EngineId) (d a b : SReg)
  /-- XOR (R254): Engine scalar bitwise XOR. -/
  | engXor (e : EngineId) (d a b : SReg)
  /-- SHL (R254): Engine scalar shift left. -/
  | engShl (e : EngineId) (d a b : SReg)
  /-- SHR (R254): Engine scalar logical shift right. -/
  | engShr (e : EngineId) (d a b : SReg)
  /-- SRA (R254): Engine scalar arithmetic shift right. -/
  | engSra (e : EngineId) (d a b : SReg)
  /-- MUL (R254): Engine scalar multiply, low 32 bits. -/
  | engMul (e : EngineId) (d a b : SReg)
  /-- MULH (R254): Engine scalar multiply, high 32 bits. -/
  | engMulh (e : EngineId) (d a b : SReg)
  /-- DIV (R254): Engine scalar signed divide, setting DIV0 on division by zero. -/
  | engDiv (e : EngineId) (d a b : SReg)
  /-- SLT (R254): Engine scalar signed set-less-than. -/
  | engSlt (e : EngineId) (d a b : SReg)
  /-- SLTU (R254): Engine scalar unsigned set-less-than. -/
  | engSltu (e : EngineId) (d a b : SReg)
  /-- ADDI (R254): Engine scalar add of a sign-extended immediate. -/
  | engAddi (e : EngineId) (d a : SReg) (imm : BitVec 18)
  /-- ANDI (R254): Engine scalar AND with a zero-extended immediate. -/
  | engAndi (e : EngineId) (d a : SReg) (imm : BitVec 18)
  /-- ORI (R254): Engine scalar OR with a zero-extended immediate. -/
  | engOri (e : EngineId) (d a : SReg) (imm : BitVec 18)
  /-- LUI (R254): Engine scalar load of an upper immediate. -/
  | engLui (e : EngineId) (d : SReg) (imm : BitVec 18)
  /-- BEQ (R254): Engine branch when equal. -/
  | engBeq (e : EngineId) (a b : SReg) (imm : BitVec 14)
  /-- BNE (R254): Engine branch when not equal. -/
  | engBne (e : EngineId) (a b : SReg) (imm : BitVec 14)
  /-- BLT (R254): Engine branch when signed less than. -/
  | engBlt (e : EngineId) (a b : SReg) (imm : BitVec 14)
  /-- BGE (R254): Engine branch when signed greater or equal. -/
  | engBge (e : EngineId) (a b : SReg) (imm : BitVec 14)
  /-- JMP (R254): Engine jump to target. -/
  | engJmp (e : EngineId) (target : BitVec 11)
  /-- JAL (R254): Engine jump and link into s15. -/
  | engJal (e : EngineId) (target : BitVec 11)
  /-- JR (R254): Engine jump to a register address. -/
  | engJr (e : EngineId) (a : SReg)
  /-- BEND (R254): Engine waits for an input entry and branches on a band mark, consuming it. -/
  | engBend (e : EngineId) (port : Fin 2) (target : BitVec 11)
  /-- DONE (R241): Engine ends its entry, setting its done flag in a BAND entry. -/
  | engDone (e : EngineId)
  /-- LDS (R254): Engine load of a data store word. -/
  | engLds (e : EngineId) (d a : SReg) (imm : BitVec 18)
  /-- STS (R254): Engine store of a data store word. -/
  | engSts (e : EngineId) (d a : SReg) (imm : BitVec 18)
  /-- LDC (R239): Engine load of a cluster memory word. -/
  | engLdc (e : EngineId) (d a : SReg) (imm : BitVec 18)
  /-- STC (R239): Engine store of a cluster memory word. -/
  | engStc (e : EngineId) (d a : SReg) (imm : BitVec 18)
  /-- PIP (R257): Engine raises a cluster source line. -/
  | engPip (e : EngineId) (n : Fin 4)
  /-- WAITP (R257): Engine waits for its pip latch, then clears it. -/
  | engWaitp (e : EngineId) (n : Fin 4)
  /-- BAR (R256): Engine waits at the cluster barrier. -/
  | engBar (e : EngineId)
  /-- SRDS (R254): Engine reads the next word of an input port. -/
  | engSrds (e : EngineId) (d b : SReg) (port : Fin 2)
  /-- SWRS (R254): Engine writes a word to its output port. -/
  | engSwrs (e : EngineId) (a : SReg) (last : Bool)
  /-- VLD (R254): Engine vector load from the data store. -/
  | engVld (e : EngineId) (v : VReg) (a : SReg) (imm : BitVec 17)
  /-- VST (R254): Engine vector store to the data store. -/
  | engVst (e : EngineId) (v : VReg) (a : SReg) (imm : BitVec 17)
  /-- VLDC (R254): Engine vector load from cluster memory. -/
  | engVldc (e : EngineId) (v : VReg) (a : SReg) (imm : BitVec 17)
  /-- VSTC (R254): Engine vector store to cluster memory. -/
  | engVstc (e : EngineId) (v : VReg) (a : SReg) (imm : BitVec 17)
  /-- SRDV (R254): Engine reads the next beat of an input port. -/
  | engSrdv (e : EngineId) (d : VReg) (x : VCtl)
  /-- SWRV (R254): Engine writes a beat to its output port. -/
  | engSwrv (e : EngineId) (a : VReg) (x : VCtl)
  /-- VADD (R254): Engine lane-wise vector add. -/
  | engVadd (e : EngineId) (d a b : VReg) (x : VCtl)
  /-- VSUB (R254): Engine lane-wise vector subtract. -/
  | engVsub (e : EngineId) (d a b : VReg) (x : VCtl)
  /-- VMUL (R254): Engine lane-wise multiply with shift and narrowing. -/
  | engVmul (e : EngineId) (d a b : VReg) (x : VCtl)
  /-- VMAC (R254): Engine lane-wise multiply-accumulate into an accumulator. -/
  | engVmac (e : EngineId) (d : AccReg) (a b : VReg) (x : VCtl)
  /-- VMIN (R254): Engine lane-wise minimum. -/
  | engVmin (e : EngineId) (d a b : VReg) (x : VCtl)
  /-- VMAX (R254): Engine lane-wise maximum. -/
  | engVmax (e : EngineId) (d a b : VReg) (x : VCtl)
  /-- VABSD (R254): Engine lane-wise absolute difference. -/
  | engVabsd (e : EngineId) (d a b : VReg) (x : VCtl)
  /-- VSHL (R254): Engine lane-wise shift left. -/
  | engVshl (e : EngineId) (d a : VReg) (x : VCtl)
  /-- VSHR (R254): Engine lane-wise shift right. -/
  | engVshr (e : EngineId) (d a : VReg) (x : VCtl)
  /-- VSAT (R254): Engine lane-wise clamp to k + 1 bits. -/
  | engVsat (e : EngineId) (d a : VReg) (x : VCtl)
  /-- VCMP (R254): Engine lane-wise compare into a predicate. -/
  | engVcmp (e : EngineId) (d : PReg) (a b : VReg) (x : VCtl)
  /-- VSEL (R254): Engine lane-wise select by predicate. -/
  | engVsel (e : EngineId) (d a b : VReg) (x : VCtl)
  /-- PLOG (R254): Engine logic operation on predicates. -/
  | engPlog (e : EngineId) (d a b : PReg) (x : VCtl)
  /-- VSLIDE (R254): Engine slide across a 32-lane vector pair. -/
  | engVslide (e : EngineId) (d a b : VReg) (x : VCtl)
  /-- VBCAST (R254): Engine broadcast of one lane to every lane. -/
  | engVbcast (e : EngineId) (d a : VReg) (x : VCtl)
  /-- VMOVS (R254): Engine broadcast of a scalar to every lane. -/
  | engVmovs (e : EngineId) (d : VReg) (a : SReg) (x : VCtl)
  /-- VEXT (R254): Engine extract of one lane into a scalar. -/
  | engVext (e : EngineId) (d : SReg) (a : VReg) (x : VCtl)
  /-- VRED (R254): Engine reduction of a vector's lanes into a scalar. -/
  | engVred (e : EngineId) (d : SReg) (a : VReg) (x : VCtl)
  /-- ACCOP_CLR (R254): Engine clears an accumulator. -/
  | engAccopClr (e : EngineId) (d : AccReg) (x : VCtl)
  /-- ACCOP_RD (R254): Engine reads an accumulator into a vector with shift and narrowing. -/
  | engAccopRd (e : EngineId) (d : VReg) (a : AccReg) (b : Fin 32) (x : VCtl)
  /-- ACCOP_RED (R254): Engine sums an accumulator's lanes into lane 0. -/
  | engAccopRed (e : EngineId) (d a : AccReg) (x : VCtl)
  /-- ACCOP_XLO (R254): Engine extracts bits [31:0] of accumulator lane 0 into a scalar. -/
  | engAccopXlo (e : EngineId) (d : SReg) (a : AccReg) (x : VCtl)
  /-- ACCOP_XHI (R254): Engine extracts bits [47:32] of accumulator lane 0 into a scalar. -/
  | engAccopXhi (e : EngineId) (d : SReg) (a : AccReg) (x : VCtl)
  /-- SORT8 (R254): Engine sorts each half of a vector ascending. -/
  | engSort8 (e : EngineId) (d a : VReg) (x : VCtl)
  /-- HISTADD (R254): Engine adds lane values into a histogram in the data store. -/
  | engHistadd (e : EngineId) (a : VReg) (x : VCtl)
  /-- HALT (R259): A write of ENG_Et_DBG.HALT = 1 stops issue after instructions in flight. -/
  | halt (o : Origin) (e : EngineId)
  /-- RESUME (R259): A write of HALT = 0 abandons the halted entry, runs ABORT and resumes bands. -/
  | resume (o : Origin) (e : EngineId)
  /-- STEP (R259): A write of DBG.STEP while halted issues one instruction or pair. -/
  | step (o : Origin) (e : EngineId)
  /-- DBG_DATA (R259): An access of ENG_Et_DBG_DATA reads or writes the register named by DBG_SEL while halted. -/
  | dbgData (o : Origin) (e : EngineId) (w : Option (BitVec 32))
  /-- ENG_CLR_COUNTERS (R262): A write of ENG_CLR.COUNTERS clears every engine counter and CYCLES_MAX. -/
  | engClrCounters (t : Tile)
  /-- IMAGE_OPEN (R278): LCP IMAGE_OPEN opens a structure image load, copying ACTIVE into SHADOW. -/
  | imageOpen (h : LcpHdr) (payload : Bytes)
  /-- IMAGE_DATA (R342): LCP IMAGE_DATA applies image bytes in order, checking and applying sections. -/
  | imageData (h : LcpHdr) (payload : Bytes)
  /-- IMAGE_ABORT (R342): LCP IMAGE_ABORT aborts the load as CFG_CTRL.ABORT does. -/
  | imageAbort (h : LcpHdr) (payload : Bytes)
  /-- CFG_ABORT (R278): A write of CFG_CTRL.ABORT refuses the load in progress with code 0x0E. -/
  | cfgAbort
  /-- VERIFY_COMPLETE (R278): Image verification ends and SHADOW becomes READY or INVALID. -/
  | verifyComplete
  /-- LOAD_TIMEOUT (R278): No image byte for 1 s refuses the load with code 0x0E. -/
  | loadTimeout
  /-- ARM (R281): A write of CFG_SWAP_CTRL.ARM arms the swap, or swaps at once with MODE 1. -/
  | arm (v : BitVec 32)
  /-- DISARM (R281): A write of CFG_SWAP_CTRL.DISARM returns ARMED to READY. -/
  | disarm
  /-- SWAP (R280): At the first band tick whose first line reaches SWAP_POS, SHADOW becomes the structure of new bands. -/
  | swap
  /-- INDEX_EVENT (R292): An accepted rising Z edge captures or resets the counter and may give a repeat boundary. The level of Z in one sample, how
  many ns it holds, and the sample. -/
  | indexEvent (c : Fin 4) (z : Bool) (heldNs : Nat) (odd : Bool)
  /-- ABS_FRAME (R294): An absolute channel frame is read and moves the counters or counts an error. -/
  | absFrame (a : Fin 2) (f : AbsFrame)
  /-- STANDSTILL (R296): No valid edge for POS_STANDSTILL ms puts the channel at standstill. -/
  | standstill (c : Fin 6)
  /-- COMPARE_PULSE_END (R304): A compare unit's output pulse width expires and the output falls. -/
  | comparePulseEnd (u : Fin 16)
  /-- TRIGGER_PULSE_END (R299): A trigger output's pulse width expires and the output falls. -/
  | triggerPulseEnd (n : Fin 16)
  /-- RESTART (R300): A write of POS_CMPu_CTRL.RESTART resets the current entry index. -/
  | restart (u : Fin 16)
  /-- COMPARE_ENABLE (R300): Setting POS_CMPu_CTRL.EN checks the list and sets the current entry. -/
  | compareEnable (u : Fin 16) (v : BitVec 32)
  /-- CMP_WR_WRITE (R300): A write of POS_CMPu_WR advances the ring producer and makes an entry current. -/
  | cmpWrWrite (u : Fin 16) (v : BitVec 32)
  /-- COUNT_WRITE (R302): A software write of POS_CHc_COUNT jumps COUNT without firing entries. -/
  | countWrite (c : Fin 4) (v : BitVec 64)
  /-- POS_CLR_COUNTERS (R309): A write of POS_CLR.COUNTERS clears every POS counter. -/
  | posClrCounters
  /-- SYNC (R317): A received Sync message feeds the domain servo, which may adjust RATE or step. -/
  | sync (m : PtpMsg)
  /-- FOLLOW_UP (R314): A received Follow_Up message completes a two-step Sync. -/
  | followUp (m : PtpMsg)
  /-- DELAY_REQ (R314): The unit sends a Delay_Req to measure the path delay. -/
  | delayReq (p : EthPort) (d : Fin 2)
  /-- DELAY_RESP (R314): A received Delay_Resp completes a delay measurement. -/
  | delayResp (m : PtpMsg)
  /-- PDELAY_REQ (R314): A received Pdelay_Req is answered with Pdelay_Resp. -/
  | pdelayReq (m : PtpMsg)
  /-- PDELAY_RESP (R314): A received Pdelay_Resp feeds the link delay measurement. -/
  | pdelayResp (m : PtpMsg)
  /-- PDELAY_RESP_FOLLOW_UP (R314): A received Pdelay_Resp_Follow_Up completes a two-step peer delay measurement. -/
  | pdelayRespFollowUp (m : PtpMsg)
  /-- ANNOUNCE (R317): A received Announce message enters the best-master comparison. -/
  | announce (m : PtpMsg) (n : AnnounceData)
  /-- ANNOUNCE_TIMEOUT (R317): An announce receipt timeout loses the domain's quality and may switch TB1. -/
  | announceTimeout (d : Fin 2)
  /-- REVERT (R319): The primary has been locked for REVERT_S seconds and TB1 returns to PRIMARY. -/
  | revert
  /-- TB3_STEP (R323): A write of the high word of TIM_TB3_STEP steps TB3. -/
  | tb3Step (v : BitVec 64)
  /-- TB3_SET (R323): A write of the high word of TIM_TB3_SET sets TB3. -/
  | tb3Set (v : BitVec 64)
  /-- TB3_RATE (R323): A write of TIM_TB3_RATE changes the rate of TB3. -/
  | tb3Rate (v : BitVec 32)
  /-- SLOT_ARM (R324): A write of TIM_ACTs_CTRL.ARM arms a scheduled-action slot, executing at once if late. -/
  | slotArm (t : Tile) (n : Fin 64) (v : BitVec 32)
  /-- SLOT_DISARM (R324): A write of TIM_ACTs_CTRL.DISARM ends PENDING. -/
  | slotDisarm (t : Tile) (n : Fin 64)
  /-- SLOT_FIRE (R325): A pending slot's base reaches its firing point and the action executes. -/
  | slotFire (t : Tile) (n : Fin 64)
  /-- FRAME_LAUNCH (R325): A prepared launch buffer frame is launched to reach the MDI at T. -/
  | frameLaunch (p : EthPort)
  /-- WHOLE_SECOND (R361): TB1 passes a whole second and raises its pip. -/
  | wholeSecond
  /-- FRAME_RECEIVE (R334): A frame arrives on an Ethernet port and is forwarded to the internal port, the other port or both. -/
  | frameReceive (p : EthPort) (frame : Bytes)
  /-- ARP (R333): An ARP request for CHN_IPV4 is answered by the firmware. -/
  | arp (p : EthPort) (senderMac : BitVec 48) (senderIp targetIp : BitVec 32)
  /-- NDP (R333): An NDP solicitation for CHN_IPV6 is answered by the firmware. -/
  | ndp (p : EthPort) (senderMac : BitVec 48) (senderIp targetIp : BitVec 128)
  /-- OPEN (R340): LCP OPEN opens a session bound to the request's source. -/
  | lcpOpen (h : LcpHdr) (payload : Bytes)
  /-- CLOSE (R340): LCP CLOSE closes the session. -/
  | lcpClose (h : LcpHdr) (payload : Bytes)
  /-- KEEPALIVE (R342): LCP KEEPALIVE keeps the session alive. -/
  | lcpKeepalive (h : LcpHdr) (payload : Bytes)
  /-- READ (R342): LCP READ returns COUNT words from consecutive addresses. -/
  | lcpRead (h : LcpHdr) (payload : Bytes)
  /-- WRITE (R342): LCP WRITE writes N words to consecutive addresses. -/
  | lcpWrite (h : LcpHdr) (payload : Bytes)
  /-- MODIFY (R342): LCP MODIFY writes a masked value and returns the old one. -/
  | lcpModify (h : LcpHdr) (payload : Bytes)
  /-- READ_LIST (R342): LCP READ_LIST returns the words at a list of addresses. -/
  | lcpReadList (h : LcpHdr) (payload : Bytes)
  /-- NOTIFY (R344): The unit sends the next queued notification to the subscriber. -/
  | lcpNotify
  /-- NOTIFY_RESEND (R344): No NOTIFY_ACK within 10 ms resends the notification, giving up after 8 sends. -/
  | lcpNotifyResend
  /-- NOTIFY_ACK (R342): LCP NOTIFY_ACK acknowledges a notification. -/
  | lcpNotifyAck (h : LcpHdr) (payload : Bytes)
  /-- SUBSCRIBE (R342): LCP SUBSCRIBE makes the session the notification subscriber. -/
  | lcpSubscribe (h : LcpHdr) (payload : Bytes)
  /-- ENUMERATE (R345): LCP ENUMERATE assigns or checks the chain address, replies and forwards with HOP + 1. -/
  | lcpEnumerate (h : LcpHdr) (payload : Bytes)
  /-- IDENTIFY (R346): LCP IDENTIFY returns the identity of matching units. -/
  | lcpIdentify (h : LcpHdr) (payload : Bytes)
  /-- RESET (R342): LCP RESET replies and then resets the unit with cause SOFT. -/
  | lcpReset (h : LcpHdr) (payload : Bytes)
  /-- SESSION_TIMEOUT (R340): No frame from a session's source for TMO seconds closes the session. -/
  | sessionTimeout (n : Fin 8)
  /-- SESS_CLOSE (R340): A write of CHN_SESS_CLOSE closes the selected sessions. -/
  | sessClose (v : BitVec 32)
  /-- ETH_LINK_UP (R331): An Ethernet link comes up and ETH_LINK is notified. -/
  | ethLinkUp (p : EthPort) (rate200 : Bool)
  /-- ETH_LINK_DOWN (R355): An Ethernet link goes down, losing a frame in flight, and ETH_LINK is notified. -/
  | ethLinkDown (p : EthPort) (inFlight : Bool)
  /-- MODE_TRY (R331): With MODE 2, each 500 ms without link switches between 400G and 200G. -/
  | modeTry (p : EthPort)
  /-- TRANSMIT (R337): At a frame boundary a port starts the frame at the head of its highest non-empty queue. -/
  | transmit (p : EthPort)
  /-- RECORD_POP (R349): A record sender pops the head item of its queue into its datagram when it can pack it. -/
  | recordPop (r : Fin 8)
  /-- DATAGRAM_HOLD (R349): HOLD_US after its first record with the queue empty, a datagram is closed and queued. -/
  | datagramHold (r : Fin 8)
  /-- DATAGRAM_LAUNCH (R349): A TIMED datagram is launched at its release time plus DELAY, or at once with LATE. -/
  | datagramLaunch (r : Fin 8)
  /-- ETH_CLR_COUNTERS (R357): A write of ETH_CLR.COUNTERS clears every ETH counter. -/
  | ethClrCounters (p : EthPort)
  /-- CHN_CLR_COUNTERS (R358): A write of CHN_CLR.COUNTERS clears every CHN counter. -/
  | chnClrCounters
  /-- OUT_CLR_COUNTERS (R359): A write of OUT_CLR.COUNTERS clears every OUT counter. -/
  | outClrCounters
  /-- SW_PIP (R361): A write of EVT_SW_PIP raises software sources that pass channels to consumers. -/
  | swPip (t : Tile) (mask : BitVec 16)
  /-- RELAY_RAISE (R367): A relay's DELAY expires and it raises its source. -/
  | relayRaise (t : Tile) (k : Fin 16)
  /-- CHANNEL_CLAIM (R372): A write of EVT_CHc_ATTR with OWNER claims or releases a session channel. -/
  | channelClaim (o : Origin) (t : Tile) (c : Fin 64) (v : BitVec 32)
  /-- RELAY_CLAIM (R372): A write of EVT_RELAYk with OWNER claims or releases a session relay. -/
  | relayClaim (o : Origin) (t : Tile) (k : Fin 16) (v : BitVec 32)
  /-- DMA_START (R376): A write of DMA_CHc_CTRL.START starts a DMA copy. -/
  | dmaStart (t : Tile) (c : Fin 32)
  /-- DMA_ABORT (R381): A write of DMA_CHc_CTRL.ABORT stops the channel at its next beat boundary. -/
  | dmaAbort (t : Tile) (c : Fin 32) (written : Nat)
  /-- DMA_COMPLETE (R382): A DMA copy writes its last byte, fetching the next descriptor or entering DONE with its pip. -/
  | dmaComplete (t : Tile) (c : Fin 32)
  /-- DMA_BUS_TIMEOUT (R375): No response within 4,096 NOCC cycles halts the channel with BUS_ERR. -/
  | dmaBusTimeout (t : Tile) (c : Fin 32) (a : BitVec 40) (written : Nat)
  /-- POP (R392): A write of QUE_POP_CTRL.POP copies the head item into QUE_POP_BUF. -/
  | pop (t : Tile) (v : BitVec 32)
  /-- PUSH (R393): A write of QUE_PUSH_CTRL.PUSH commits the words of QUE_PUSH_BUF as an item. -/
  | push (t : Tile) (v : BitVec 32)
  /-- QUEUE_FLUSH (R395): A write of QUE_Qq_CTRL.FLUSH empties the queue and poisons partial items. -/
  | queueFlush (t : Tile) (q : Fin 256)
  /-- POINTER_MISMATCH (R396): A mismatch of a queue's duplicated pointers resets the queue and emits a type 0x06 record. -/
  | pointerMismatch (t : Tile) (q : Fin 256) (m : PtrCopies)
  /-- QUE_CLR_COUNTERS (R407): A write of QUE_CLR.COUNTERS clears every QUE counter. -/
  | queClrCounters (t : Tile)
  /-- CHK_START (R401): A write of CHK_CHn_CTRL.START loads the CRC initial value. -/
  | chkStart (t : Tile) (n : Fin 64)
  /-- CHK_FINISH (R401): A write of CHK_CHn_CTRL.FINISH makes RESULT and compares it with EXPECT. -/
  | chkFinish (t : Tile) (n : Fin 64)
  /-- ALIVE_RESET (R402): A write of CHK_CHn_CTRL.ALIVE_RESET restarts the alive check. -/
  | aliveReset (t : Tile) (n : Fin 64)
  /-- ALIVE_CHECK (R402): A write of CHK_CHn_CTRL.ALIVE_CHECK checks the written alive value. -/
  | aliveCheck (t : Tile) (n : Fin 64) (v : BitVec 8)
  /-- CHK_DATA (R401): A write of CHK_CHn_DATA feeds bytes into the channel's CRC. -/
  | chkData (t : Tile) (n : Fin 64) (v : BitVec 32)
  /-- FIR_INPUT (R412): An input sample enters a filter channel's cascade, producing outputs and threshold tests. -/
  | firInput (t : Tile) (f : Fin 16)
  /-- FIR_SYNC (R415): A write of FIR_CHf_CTRL.SYNC requests a synchronising reset at the next input boundary. -/
  | firSync (t : Tile) (f : Fin 16)
  /-- FIR_SWAP (R417): A write of FIR_CHf_CTRL.SWAP requests a coefficient bank swap at the next input boundary. -/
  | firSwap (t : Tile) (f : Fin 16)
  /-- FIR_CLR_COUNTERS (R422): A write of FIR_CLR.COUNTERS clears every FIR counter. -/
  | firClrCounters (t : Tile)
  /-- SENSOR_READ (R423): The thermal sensors are read each millisecond, which may request a recalibration or raise a warning. -/
  | sensorRead (t : Tile) (r : List Int)
  /-- CAL (R427): A write of CAL_CTRL.CAL requests a recalibration, started or deferred. -/
  | cal (t : Tile) (force : Bool)
  /-- ST (R430): A write of CAL_CTRL.ST requests the self-test of CAL_ST_CFG. -/
  | st (t : Tile) (force : Bool)
  /-- CANCEL (R427): A write of CAL_CTRL.CANCEL removes pending unforced work. -/
  | cancel (t : Tile)
  /-- WORK_START (R428): Deferred recalibration or self-test starts at an idle window, the gap or a forced band tick. -/
  | workStart (t : Tile)
  /-- CAL_RUN_END (R425): A recalibration run ends when its ports are UP or failed, raising source 221. -/
  | calRunEnd (t : Tile)
  /-- SELFTEST_END (R434): A self-test ends and records its result. -/
  | selftestEnd (t : Tile) (fails : Nat) (firstFail : BitVec 40)
  /-- GAP_ARM (R428): A write of CAL_GAP_CTRL.ARM arms the gap. -/
  | gapArm
  /-- GAP_DISARM (R428): A write of CAL_GAP_CTRL.DISARM disarms the gap. -/
  | gapDisarm
  /-- QUALITY_UPDATE (R435): Once per second tile 0 updates the PTP and stitch quality figures. -/
  | qualityUpdate
  /-- LCS_MBOX_WRITE (R442): A write of LCS_MBOX claims the mailbox for a session or is refused. -/
  | lcsMboxWrite (o : Origin) (w : Fin 256) (v : BitVec 32)
  /-- PROVISION (R444): LCS PROVISION fuses owner slot 0 and moves BLANK to PROVISIONED. -/
  | provision (o : Origin)
  /-- ADD_OWNER (R444): LCS ADD_OWNER fuses a new owner slot hash. -/
  | addOwner (o : Origin)
  /-- LOAD_OWNER_KEY (R444): LCS LOAD_OWNER_KEY loads an owner key matching its slot hash. -/
  | loadOwnerKey (o : Origin)
  /-- REVOKE (R446): LCS REVOKE blows a slot's REVOKED fuse and drops its job keys. -/
  | revoke (o : Origin)
  /-- COMMISSION (R444): LCS COMMISSION moves PROVISIONED to FIELD. -/
  | commission (o : Origin)
  /-- RETURN (R453): LCS RETURN stops inspection, blows the RETURN fuses, erases keys and memory and resets. -/
  | lcsReturn (o : Origin)
  /-- INSTALL_JOB_KEY (R449): LCS INSTALL_JOB_KEY unwraps a job key into key RAM. -/
  | installJobKey (o : Origin)
  /-- DROP_JOB_KEY (R444): LCS DROP_JOB_KEY clears a job key entry. -/
  | dropJobKey (o : Origin)
  /-- DEBUG_OPEN (R452): LCS DEBUG_OPEN checks a vendor token and opens a vendor debug session. -/
  | debugOpen (o : Origin)
  /-- DEBUG_CLOSE (R452): LCS DEBUG_CLOSE ends the vendor debug session. -/
  | debugClose (o : Origin)
  /-- DEBUG_EXPIRY (R452): The vendor debug session's DURATION expires and the session ends. -/
  | debugExpiry
  /-- ATTEST (R454): LCS ATTEST returns a signed statement of the part's identity and state. -/
  | attest (o : Origin)
  /-- INTERNAL_SCAN_ENTRY (R451): Entering internal scan clears key RAM and zero-fills sealed granules first. -/
  | internalScanEntry
  /-- PORST_N_FALL (R464): PORST_N goes low and the part enters HOLD for a power-on reset. -/
  | porstNFall
  /-- PORST_N_RISE (R464): PORST_N is released and the part leaves HOLD into FUSE. -/
  | porstNRise
  /-- SUPPLY (R463): A rail leaves its tolerance, setting PWR_SUPPLY_ERR and notifying SUPPLY. -/
  | supply (k : Fin 7) (mv : BitVec 16)
  /-- RAIL_IN_TOLERANCE (R464): Every rail is within tolerance and the part leaves OFF. -/
  | railInTolerance
  /-- WATCHDOG (R465): The management watchdog expires and asserts an internal reset. -/
  | watchdog
  /-- HOLD_END (R465): The 1 ms HOLD of an internal reset ends, or the sensors fall below 95 °C after a trip. -/
  | holdEnd
  /-- FUSE_DONE (R464): The fuses are read and checked, ending FUSE and entering CLOCK. -/
  | fuseDone
  /-- CLOCK_DONE (R464): Every PLL that is not fused off locks, ending CLOCK and entering BOOT. -/
  | clockDone
  /-- BOOT_DONE (R472): The firmware runs on every tile with links UP, ending BOOT and queuing BOOTED. -/
  | bootDone
  /-- FLASH_READ (R476): PWR_FLASH_CTRL READ copies flash bytes into PWR_FLASH_BUF. -/
  | flashRead (o : Origin)
  /-- FLASH_PROGRAM (R476): PWR_FLASH_CTRL PROGRAM writes the buffer into one flash page. -/
  | flashProgram (o : Origin)
  /-- FLASH_ERASE (R476): PWR_FLASH_CTRL ERASE clears the 64 KiB sector holding ADDR. -/
  | flashErase (o : Origin)
  /-- FLASH_OP_DONE (R476): A flash operation finishes, clearing BUSY and setting DONE. -/
  | flashOpDone
  /-- BLOCK_LOCK_GAIN (R86): A receive lane sees 64 consecutive valid sync headers, gains block lock and stops firmware slipping. -/
  | blockLockGain (t : Tile) (n : Lane) (blocks : List (BitVec 66))
  /-- PRBS_CHECKER_LOCK (R107): A lane's PRBS checker in TEST sees 64 consecutive correct bits, locks and starts counting errors and bits. -/
  | prbsCheckerLock (t : Tile) (n : Lane) (bits : List Bool)
  /-- PRBS_CHECKER_LOSS (R107): A locked PRBS checker sees 32 errors within 64 bits, loses lock and sets PRBS_STATUS.LOST. -/
  | prbsCheckerLoss (t : Tile) (n : Lane) (bits : List Bool)
  /-- SELFTEST_DWELL_END (R432): The DWELL of a near-end or far-end loopback self-test expires, the port leaves TEST and starts to train back to UP. -/
  | selftestDwellEnd (t : Tile) (p : Port)
  /-- SLEW_END (R320): A slewed difference between TB1 and its new source falls to 2 ns or less and SLEWING clears. -/
  | slewEnd
  /-- PDELAY_REQ_SEND (R314): The firmware sends its own Pdelay_Req on a port at the peer-delay interval to measure the link delay under P2P or 802.1AS. -/
  | pdelayReqSend (p : EthPort)
  /-- LCS_COMMAND_END (R441): A running life-cycle command finishes its verification and fuse programming, sets RESULT and DONE, clears BUSY and releases the mailbox. -/
  | lcsCommandEnd (fuseFail : Bool)
  deriving DecidableEq, Repr

end Sys2Proof
end

