-- ==== Sys2Proof/Decode.lean ====
section
/-! DEFINITION. The commands of this block are no words of a program: no row of spec/opcode_table.json gives its bits. -/

namespace Sys2Proof

/-- The command that a word spells by the table's bits: the table gives no row any bits, so no word spells one. -/
def decodeTableWord (_nbits _w : Nat) : Option Instr := none

end Sys2Proof
end

