-- ==== Sys2Proof/Config.lean ====
section
/-! DEFINITION. What the spec leaves open, and the cryptography that it takes from other standards. Every constant here has no body: no
proof can see a value of it, so a statement holds whatever the value is. -/

namespace Sys2Proof

/-- A free value: the n-th value that the spec leaves open in a run. -/
opaque Config.free : Nat → Nat

/-- The phase of a tile's LTXC against TB0, in 0.1 ns modulo 80: the spec states none (R100, R101; log 42). -/
opaque Config.ltxcPhase : (tile : Nat) → Nat

/-- SHA-384 of a byte string, as a number of 48 bytes, first byte lowest (R277, R443, R446; log 2). -/
opaque Config.sha384 : Bytes → Nat

/-- An ECDSA P-384 signature (r then s) verifies over a digest with a public key (x then y) (R277, R443, R452, R473; log 2). -/
opaque Config.ecdsaOk : (key : Bytes) → (digest : Nat) → (sig : Bytes) → Bool

/-- The signature that the part with a die identifier makes over a digest with its identity key, given fresh entropy (R454; log 2). -/
opaque Config.ecdsaSign : (die : Nat) → (digest : Nat) → (entropy : Nat) → Nat

/-- The public identity key of the part with a die identifier (R454; log 2). -/
opaque Config.identityKey : (die : Nat) → Nat

/-- The x-coordinate of the identity private key times a point, none where the point is not on the curve (R448; log 2). -/
opaque Config.dhX : (die : Nat) → (point : Bytes) → Option Nat

/-- AES-256-GCM decryption: none where the tag does not match (R276, R448; log 2). -/
opaque Config.gcmOpen : (key nonce aad cipher tag : Bytes) → Option Bytes

end Sys2Proof
end

