-- ==== Sys2Proof/Machine/Bits.lean ====
section
/-! DEFINITION. Bit fields, rounding and saturation (R8, R9), little-endian byte strings (R10), the CRCs of R399 and sparse maps in one
canonical form. -/

namespace Sys2Proof.Machine

/-! Bit fields of natural numbers. -/

/-- Bits [hi:lo] of `x`. -/
def bitsOf (x hi lo : Nat) : Nat := (x >>> lo) % 2 ^ (hi + 1 - lo)

/-- `x` with bits [hi:lo] replaced by the low bits of `v`. -/
def withBits (x hi lo v : Nat) : Nat :=
  let w := hi + 1 - lo
  (x >>> (hi + 1)) <<< (hi + 1) ||| ((v % 2 ^ w) <<< lo ||| x % 2 ^ lo)

/-- The number of ones among the low `n` bits. -/
def popCount (n x : Nat) : Nat := (List.range n).countP (x.testBit ·)

/-- The indices of the ones among the low `n` bits, in rising order. -/
def onesOf (n x : Nat) : List Nat := (List.range n).filter (x.testBit ·)

/-- The number with exactly the bits of the list set. -/
def ofOnes (l : List Nat) : Nat := l.foldl (fun a i => a ||| 2 ^ i) 0

/-- One bit as a number. -/
def bitN (b : Bool) : Nat := if b then 1 else 0

/-- Integer from two's complement of `n` bits. -/
def sInt (n x : Nat) : Int :=
  let y := x % 2 ^ n
  if 2 * y < 2 ^ n then (y : Int) else (y : Int) - (2 ^ n : Nat)

/-- Two's complement of `n` bits of an integer. -/
def uNat (n : Nat) (x : Int) : Nat := (x % ((2 ^ n : Nat) : Int)).toNat

/-! Rounding and narrowing (R9). -/

/-- The quotient rounded to nearest, ties away from zero (R9). -/
def roundDiv (x : Int) (d : Nat) : Int :=
  if 0 ≤ x then (2 * x + d) / (2 * d) else -((2 * -x + d) / (2 * d))

/-- The division by a power of two under R9. -/
def roundShr (x : Int) (n : Nat) : Int := roundDiv x (2 ^ n)

/-- Saturation at two limits (R9). -/
def clampI (lo hi x : Int) : Int := if x < lo then lo else if hi < x then hi else x

/-- Saturation to `n` unsigned bits. -/
def satU (n : Nat) (x : Int) : Int := clampI 0 (2 ^ n - 1) x

/-- Saturation to `n` bits of two's complement. -/
def satS (n : Nat) (x : Int) : Int := clampI (-(2 ^ (n - 1))) (2 ^ (n - 1) - 1) x

/-- Saturation of a natural number. -/
def clampN (lo hi x : Nat) : Nat := if x < lo then lo else if hi < x then hi else x

/-- The ceiling of a quotient. -/
def ceilDiv (a b : Nat) : Nat := (a + b - 1) / b

/-! Little-endian byte strings (R10). -/

/-- `n` bytes of `x`, least significant first. -/
def leBytes : Nat → Nat → Bytes
  | 0, _ => []
  | n + 1, x => BitVec.ofNat 8 x :: leBytes n (x / 256)

/-- The number a byte string stands for, least significant byte first. -/
def leNat : Bytes → Nat
  | [] => 0
  | b :: bs => b.toNat + 256 * leNat bs

/-- `n` bytes of `x`, most significant first: the network order of R10. -/
def beBytes (n x : Nat) : Bytes := (leBytes n x).reverse

/-- The number a byte string stands for, most significant byte first. -/
def beNat (bs : Bytes) : Nat := leNat bs.reverse

/-- Byte `i`, 0 beyond the end. -/
def byteAt (bs : Bytes) (i : Nat) : Nat := (bs.getD i 0).toNat

/-- The little-endian number of `n` bytes at offset `o`. -/
def leAt (bs : Bytes) (o n : Nat) : Nat := leNat ((bs.drop o).take n)

/-- The big-endian number of `n` bytes at offset `o`. -/
def beAt (bs : Bytes) (o n : Nat) : Nat := beNat ((bs.drop o).take n)

/-- The little-endian two's complement number of `n` bytes at offset `o`. -/
def leIntAt (bs : Bytes) (o n : Nat) : Int := sInt (8 * n) (leAt bs o n)

/-- `n` zero bytes. -/
def zeros (n : Nat) : Bytes := List.replicate n 0

/-- The 32-bit words of a byte string, least significant byte first. -/
def wordsOf : Nat → Bytes → List Nat
  | 0, _ => []
  | n + 1, bs => leAt bs 0 4 :: wordsOf n (bs.drop 4)

/-- The bytes of a list of 32-bit words. -/
def bytesOfWords (ws : List Nat) : Bytes := ws.flatMap (leBytes 4)

/-! The CRCs of R399. -/

/-- A row of the table of R399. -/
structure CrcKind where
  poly : Nat
  width : Nat
  init : Nat
  reflected : Bool
  xorout : Nat
  deriving DecidableEq, Repr

def crc32cKind : CrcKind := ⟨0x1EDC6F41, 32, 0xFFFFFFFF, true, 0xFFFFFFFF⟩
def crc32Kind : CrcKind := ⟨0x04C11DB7, 32, 0xFFFFFFFF, true, 0xFFFFFFFF⟩
def crc24Kind : CrcKind := ⟨0x5D6DCB, 24, 0xFEDCBA, false, 0⟩
def crc16Kind : CrcKind := ⟨0x1021, 16, 0xFFFF, false, 0⟩

/-- The definition that SEL names (R399). -/
def crcKind (sel : Nat) : CrcKind :=
  match sel with
  | 0 => crc32cKind
  | 1 => crc32Kind
  | 2 => crc24Kind
  | _ => crc16Kind

/-- Bit reversal of the low `n` bits. -/
def bitRev : Nat → Nat → Nat
  | 0, _ => 0
  | n + 1, x => (x % 2) * 2 ^ n + bitRev n (x / 2)

/-- The eight shifts of one byte in R399. -/
def crcShift (k : CrcKind) : Nat → Nat → Nat
  | 0, r => r
  | n + 1, r =>
    let s := (r * 2) % 2 ^ k.width
    crcShift k n (if r.testBit (k.width - 1) then s ^^^ k.poly else s)

/-- One byte of the pseudocode of R399. -/
def crcByte (k : CrcKind) (r : Nat) (b : Nat) : Nat :=
  let b' := if k.reflected then bitRev 8 b else b
  crcShift k 8 (r ^^^ b' * 2 ^ (k.width - 8))

/-- The running register after a byte string. -/
def crcFeed (k : CrcKind) (r : Nat) (bs : Bytes) : Nat := bs.foldl (fun a b => crcByte k a b.toNat) r

/-- The result made from the running register. -/
def crcResult (k : CrcKind) (r : Nat) : Nat := (if k.reflected then bitRev k.width r else r) ^^^ k.xorout

/-- A CRC of R399 over a byte string. -/
def crcOf (k : CrcKind) (bs : Bytes) : Nat := crcResult k (crcFeed k k.init bs)

/-- CRC-32C over a byte string (R399). -/
def crc32c (bs : Bytes) : Nat := crcOf crc32cKind bs

/-- A byte string followed by its CRC-32C. -/
def withCrc (bs : Bytes) : Bytes := bs ++ leBytes 4 (crc32c bs)

/-- The last four bytes are the CRC-32C of those before them. -/
def crcGood (bs : Bytes) : Bool := decide (4 ≤ bs.length) && leNat (bs.drop (bs.length - 4)) == crc32c (bs.take (bs.length - 4))

/-! Sparse maps: lists of keys and values, keys strictly rising, no entry at its default. -/

/-- The value at a key, `d` where none is listed. -/
def smGet (d : α) (k : Nat) : List (Nat × α) → α
  | [] => d
  | (j, v) :: m => if j = k then v else smGet d k m

/-- The map without an entry at `k`. -/
def smErase (k : Nat) (m : List (Nat × α)) : List (Nat × α) := m.filter fun x => x.1 != k

/-- The map with `v` entered at `k`, in order. -/
def smInsert (k : Nat) (v : α) : List (Nat × α) → List (Nat × α)
  | [] => [(k, v)]
  | (j, w) :: m => if j < k then (j, w) :: smInsert k v m else if j = k then (k, v) :: m else (k, v) :: (j, w) :: m

/-- The map with the value `v` at `k`: no entry where `v` is the default `d`. -/
def smSet [DecidableEq α] (d : α) (k : Nat) (v : α) (m : List (Nat × α)) : List (Nat × α) :=
  if v = d then smErase k m else smInsert k v m

/-- The map with the value at `k` changed by `f`. -/
def smUpd [DecidableEq α] (d : α) (k : Nat) (f : α → α) (m : List (Nat × α)) : List (Nat × α) :=
  smSet d k (f (smGet d k m)) m

/-- The canonical form: keys strictly rising, no entry at the default that `d` gives its key. -/
def smOk [DecidableEq α] (d : Nat → α) : List (Nat × α) → Bool
  | [] => true
  | [(k, v)] => decide (v ≠ d k)
  | (k, v) :: (j, w) :: m => decide (v ≠ d k) && decide (k < j) && smOk d ((j, w) :: m)

/-! Lists. -/

/-- The list with entry `i` replaced by `v`; unchanged where there is none. -/
def setAt : List α → Nat → α → List α
  | [], _, _ => []
  | _ :: l, 0, v => v :: l
  | x :: l, i + 1, v => x :: setAt l i v

/-- Insertion into a sorted list, behind the entries not after it. -/
def insertBy (le : α → α → Bool) (x : α) : List α → List α
  | [] => [x]
  | y :: l => if le y x then y :: insertBy le x l else x :: y :: l

/-- A stable insertion sort. -/
def sortBy (le : α → α → Bool) (l : List α) : List α := l.foldl (fun a x => insertBy le x a) []

/-- The sum of a list of integers. -/
def sumI (l : List Int) : Int := l.foldl (· + ·) 0

/-- The sum of a list of natural numbers. -/
def sumN (l : List Nat) : Nat := l.foldl (· + ·) 0

end Sys2Proof.Machine
end

