-- ==== Sys2Proof/Machine/Coding.lean ====
section
/-! DEFINITION. Line coding of the camera links as functions of bits: 66-bit blocks, scrambler and block types of the forward lanes (R76, R77), the
8b/10b characters of the back channel (R100) and the PRBS patterns (R107). -/

namespace Sys2Proof.Machine

/-! Forward blocks (R76, R77). -/

/-- The low 58 bits. -/
def m58 : Nat := 2 ^ 58 - 1

/-- 64 scrambled bits after the 58 that came before them, oldest bit lowest: the content and the 58 bits to remember (R76). -/
def descramble (prev c : Nat) : Nat × Nat :=
  let h := prev + c * 2 ^ 58
  ((c ^^^ h / 2 ^ 19 ^^^ h) % 2 ^ 64, h / 2 ^ 64)

/-- A sync header is that of a data or of a control block; bit 0 is sent first (R76). -/
def headData : Nat := 2
def headCtrl : Nat := 1

/-- What a descrambled block is (R76, R77). -/
inductive BlockKind where
  /-- The sync header is invalid. -/
  | badHead
  | data (bs : Bytes)
  | idle
  | align (idx lanes counter : Nat)
  | start (bs : Bytes)
  | term (bs : Bytes)
  /-- The block type is unknown. -/
  | unknown
  deriving DecidableEq, Repr

/-- The kind of a block with header `h` and descrambled content `c` (R76, R77). -/
def blockKind (h c : Nat) : BlockKind :=
  let bs := leBytes 8 c
  if h = headData then .data bs
  else if h = headCtrl then
    let ty := byteAt bs 0
    if ty = 0x1E then .idle
    else if ty = 0x2D then .align (byteAt bs 1) (byteAt bs 2) (byteAt bs 3)
    else if ty = 0x78 then .start (bs.drop 1)
    else if 0x80 ≤ ty ∧ ty ≤ 0x87 then .term ((bs.drop 1).take (ty - 0x80))
    else .unknown
  else .badHead

/-! Packets from blocks (R78, R97). -/

/-- The assembly of a packet: none is open, one is open with the bytes so far, or the rest of a discarded one is still passing. -/
inductive PacketAsm where
  | idle
  | opened (bs : Bytes)
  | rest
  deriving DecidableEq, Repr

/-- What a block does to the assembly: the assembly after it, whether a packet is discarded for a framing error, and the packet it completes. -/
structure AsmStep where
  asm : PacketAsm
  error : Bool
  packet : Option Bytes
  deriving DecidableEq, Repr

/-- The longest packet (R95, R97). -/
def maxPacket : Nat := 73748

/-- A packet grows by some bytes: beyond the greatest length it is discarded as it is received (R97). -/
def PacketAsm.grow (bs more : Bytes) : AsmStep :=
  if maxPacket < bs.length + more.length then ⟨.rest, true, none⟩ else ⟨.opened (bs ++ more), false, none⟩

/-- One block of the stream (R78, R97). What follows a discarded packet up to its TERM or the next START belongs to it and counts no more
(DESIGN CHOICE, log 203); ALIGN blocks that stand in no alignment round are passed over. -/
def PacketAsm.step (a : PacketAsm) (b : BlockKind) : AsmStep :=
  match a, b with
  | _, .align _ _ _ => ⟨a, false, none⟩
  | .opened _, .start bs => ⟨.opened bs, true, none⟩
  | _, .start bs => ⟨.opened bs, false, none⟩
  | .opened p, .data bs => PacketAsm.grow p bs
  | .opened p, .term bs =>
    if maxPacket < p.length + bs.length then ⟨.idle, true, none⟩ else ⟨.idle, false, some (p ++ bs)⟩
  | .opened _, _ => ⟨.rest, true, none⟩
  | .idle, .idle => ⟨.idle, false, none⟩
  | .idle, .badHead => ⟨.idle, false, none⟩
  | .idle, .term _ => ⟨.idle, true, none⟩
  | .idle, _ => ⟨.rest, true, none⟩
  | .rest, .term _ => ⟨.idle, false, none⟩
  | .rest, _ => ⟨.rest, false, none⟩

/-- A packet is in progress (R89). -/
def PacketAsm.isOpen (a : PacketAsm) : Bool :=
  match a with
  | .opened _ => true
  | _ => false

/-! Sync headers (R86). -/

/-- The validity of the last 64 headers, newest first, with one more. -/
def headPush (l : List Bool) (ok : Bool) : List Bool := (ok :: l).take 64

/-- 64 consecutive valid headers. -/
def headsGain (l : List Bool) : Bool := decide (l.length = 64) && l.all id

/-- Sixteen invalid headers within 64 blocks. -/
def headsLose (l : List Bool) : Bool := decide (16 ≤ l.countP (!·))

/-- The header of a block is valid. -/
def headOk (h : Nat) : Bool := h == headData || h == headCtrl

/-! 8b/10b (R100; PRESUMED: the tables of IEEE 802.3 Clause 36, log 204). A code group is written `abcdei fghj`, `a` highest and sent first. -/

/-- The 5b/6b code of the low five bits of an octet at negative running disparity. -/
def code6 (x : Nat) : Nat :=
  [0b100111, 0b011101, 0b101101, 0b110001, 0b110101, 0b101001, 0b011001, 0b111000,
   0b111001, 0b100101, 0b010101, 0b110100, 0b001101, 0b101100, 0b011100, 0b010111,
   0b011011, 0b100011, 0b010011, 0b110010, 0b001011, 0b101010, 0b011010, 0b111010,
   0b110011, 0b100110, 0b010110, 0b110110, 0b001110, 0b101110, 0b011110, 0b101011].getD x 0

/-- The 3b/4b code of the high three bits of a data octet at negative running disparity. -/
def code4 (y : Nat) : Nat := [0b1011, 0b1001, 0b0101, 0b1100, 0b1101, 0b1010, 0b0110, 0b1110].getD y 0

/-- The set bits of a code of `n` bits. -/
def bitsSet (n x : Nat) : Nat := (onesOf n x).length

/-- A code of `n` bits at running disparity `rd` (true: positive), from its form at negative disparity: complemented where it is unbalanced
or one of the balanced codes that alternate. -/
def codeAt (n : Nat) (rd alt : Bool) (x : Nat) : Nat :=
  if rd && (alt || decide (2 * bitsSet n x ≠ n)) then 2 ^ n - 1 - x else x

/-- The running disparity after a code of `n` bits. -/
def rdAfter (n : Nat) (rd : Bool) (x : Nat) : Bool := if 2 * bitsSet n x = n then rd else decide (n < 2 * bitsSet n x)

/-- The alternative code of x.7 is taken to avoid runs. -/
def altSeven (rd : Bool) (x : Nat) : Bool := if rd then [11, 13, 14].contains x else [17, 18, 20].contains x

/-- The 3b/4b code of a character K.y at the running disparity before it. -/
def kCode4 (rd : Bool) (y : Nat) : Nat :=
  let x := match y with
    | 1 => 0b0110
    | 5 => 0b0101
    | _ => 0b0111
  if rd then 15 - x else x

/-- One character: its code group and the running disparity after it (R100). -/
def encode10 (rd k : Bool) (o : Nat) : Nat × Bool :=
  let x := o % 32
  let y := o / 32
  let a := if k && x == 28 then codeAt 6 rd true 0b001111 else codeAt 6 rd (x == 7) (code6 x)
  let rd := rdAfter 6 rd a
  let b := if k then kCode4 rd y
    else if y = 7 ∧ altSeven rd x then codeAt 4 rd true 0b0111
    else codeAt 4 rd (y == 3) (code4 y)
  (a * 16 + b, rdAfter 4 rd b)

/-! PRBS (R107). -/

/-- The exponents of a pattern: 1 PRBS7 to 5 PRBS31. -/
def prbsTaps (p : Nat) : Nat × Nat :=
  match p with
  | 1 => (7, 6)
  | 2 => (9, 5)
  | 3 => (15, 14)
  | 4 => (23, 18)
  | _ => (31, 28)

/-- The bit that follows a history whose newest bit is bit 0. -/
def prbsNext (p h : Nat) : Bool := h.testBit ((prbsTaps p).1 - 1) != h.testBit ((prbsTaps p).2 - 1)

/-- A history with one more bit. -/
def prbsPush (p h : Nat) (b : Bool) : Nat := (2 * h + bitN b) % 2 ^ (prbsTaps p).1

/-- What a checker keeps (R107): the bits it predicts from, newest lowest, and how many they are; the length of the present run of correct
bits; and while locked which of the last 64 bits were in error, newest first. -/
structure PrbsState where
  hist : Nat
  have_ : Nat
  run : Nat
  errs : List Bool
  deriving DecidableEq, Repr

def PrbsState.idle : PrbsState := ⟨0, 0, 0, []⟩

/-- What a checker has found: whether it is locked, whether it has lost lock, and the counts while locked. -/
structure PrbsTally where
  st : PrbsState
  locked : Bool
  lost : Bool
  bits : Nat
  errors : Nat
  deriving DecidableEq, Repr

/-- One received bit of pattern `p` (R107): before lock the prediction is made from the received bits; locked, from the pattern that runs on by
itself, so that one wrong bit counts once (DESIGN CHOICE, log 205). -/
def prbsBit (p : Nat) (x : PrbsTally) (b : Bool) : PrbsTally :=
  let e := prbsNext p x.st.hist
  if x.locked then
    let bad := b != e
    let errs := (bad :: x.st.errs).take 64
    let x := { x with bits := x.bits + 1, errors := x.errors + bitN bad, st := { x.st with hist := prbsPush p x.st.hist e, errs := errs } }
    if 32 ≤ errs.countP id then { x with locked := false, lost := true, st := .idle } else x
  else
    let full := decide ((prbsTaps p).1 ≤ x.st.have_)
    let run := if full && b == e then x.st.run + 1 else 0
    let st : PrbsState := ⟨prbsPush p x.st.hist b, x.st.have_ + bitN (!full), run, []⟩
    if run = 64 then { x with locked := true, st := { st with run := 0 } } else { x with st := st }

/-- `n` bits of a generator, and its state after them. -/
def prbsGen (p : Nat) : Nat → Nat → List Bool × Nat
  | 0, h => ([], h)
  | n + 1, h =>
    let b := prbsNext p h
    let (l, h) := prbsGen p n (prbsPush p h b)
    (b :: l, h)

end Sys2Proof.Machine
end

