-- ==== Sys2Proof/Machine/RegMap.lean ====
section
/-! DEFINITION. The register map of the spec's register tables (R43, R44, R45, R72, R108, R109, R131, R132, R153, R172, R206, R235, R236, R262,
R287, R309, R330, R357, R358, R359, R374, R386, R407, R408, R422, R438, R457, R490): one name for each register and each field of
the tables, an index letter of a register's name standing as an argument. A name is the spec's, without the index letters. -/

namespace Sys2Proof.Machine

/-- A bit field of a register: the block (R18), the byte offset in the block, the highest and the lowest bit. -/
structure Fld where
  blk : Nat
  off : Nat
  hi : Nat
  lo : Nat
  deriving DecidableEq, Repr


/-! SYS, block 0x00 (R43). -/

def SYS_ID : Fld := ⟨0x0, 0x0, 31, 0⟩
def SYS_ID_PART : Fld := ⟨0x0, 0x0, 31, 16⟩
def SYS_ID_STEPPING : Fld := ⟨0x0, 0x0, 15, 8⟩
def SYS_ID_TILE : Fld := ⟨0x0, 0x0, 7, 4⟩
def SYS_ID_TILES : Fld := ⟨0x0, 0x0, 3, 0⟩
def SYS_DIE_ID_LO : Fld := ⟨0x0, 0x4, 31, 0⟩
def SYS_DIE_ID_LO_ID : Fld := ⟨0x0, 0x4, 31, 0⟩
def SYS_DIE_ID_HI : Fld := ⟨0x0, 0x8, 31, 0⟩
def SYS_DIE_ID_HI_ID : Fld := ⟨0x0, 0x8, 31, 0⟩
def SYS_TILE_MAP : Fld := ⟨0x0, 0xc, 31, 0⟩
def SYS_TILE_MAP_FITTED : Fld := ⟨0x0, 0xc, 7, 0⟩
def SYS_TILE_MAP_LEAD : Fld := ⟨0x0, 0xc, 15, 8⟩
def SYS_TILE_MAP_ETH : Fld := ⟨0x0, 0xc, 23, 16⟩
def SYS_FW_VERSION : Fld := ⟨0x0, 0x10, 31, 0⟩
def SYS_FW_VERSION_MAJOR : Fld := ⟨0x0, 0x10, 31, 24⟩
def SYS_FW_VERSION_MINOR : Fld := ⟨0x0, 0x10, 23, 16⟩
def SYS_FW_VERSION_PATCH : Fld := ⟨0x0, 0x10, 15, 0⟩
def SYS_STATUS : Fld := ⟨0x0, 0x14, 31, 0⟩
def SYS_STATUS_BOOT_DONE : Fld := ⟨0x0, 0x14, 0, 0⟩
def SYS_STATUS_READY : Fld := ⟨0x0, 0x14, 1, 1⟩
def SYS_STATUS_TILES_UP : Fld := ⟨0x0, 0x14, 2, 2⟩
def SYS_STATUS_D2D_OK : Fld := ⟨0x0, 0x14, 3, 3⟩
def SYS_STATUS_CLK_OK : Fld := ⟨0x0, 0x14, 4, 4⟩
def SYS_STATUS_THERMAL_WARN : Fld := ⟨0x0, 0x14, 5, 5⟩
def SYS_ERR : Fld := ⟨0x0, 0x18, 31, 0⟩
def SYS_ERR_ADDR_ERR : Fld := ⟨0x0, 0x18, 0, 0⟩
def SYS_ERR_ACCESS_ERR : Fld := ⟨0x0, 0x18, 1, 1⟩
def SYS_ERR_D2D_FAIL : Fld := ⟨0x0, 0x18, 2, 2⟩
def SYS_ERR_PLL_LOSS : Fld := ⟨0x0, 0x18, 3, 3⟩
def SYS_ERR_D2D_RETRAIN : Fld := ⟨0x0, 0x18, 4, 4⟩
def SYS_ERR_ADDR_LO : Fld := ⟨0x0, 0x1c, 31, 0⟩
def SYS_ERR_ADDR_LO_ADDR_LO : Fld := ⟨0x0, 0x1c, 31, 0⟩
def SYS_ERR_ADDR_HI : Fld := ⟨0x0, 0x20, 31, 0⟩
def SYS_ERR_ADDR_HI_ADDR_HI : Fld := ⟨0x0, 0x20, 7, 0⟩
def SYS_ERR_ADDR_HI_SESSION : Fld := ⟨0x0, 0x20, 10, 8⟩
def SYS_ERR_ADDR_HI_WRITE : Fld := ⟨0x0, 0x20, 11, 11⟩
def SYS_ERR_ADDR_HI_ACCESS : Fld := ⟨0x0, 0x20, 12, 12⟩
def SYS_RESET_CAUSE : Fld := ⟨0x0, 0x24, 31, 0⟩
def SYS_RESET_CAUSE_POR : Fld := ⟨0x0, 0x24, 0, 0⟩
def SYS_RESET_CAUSE_SOFT : Fld := ⟨0x0, 0x24, 1, 1⟩
def SYS_RESET_CAUSE_WATCHDOG : Fld := ⟨0x0, 0x24, 2, 2⟩
def SYS_RESET_CAUSE_THERMAL : Fld := ⟨0x0, 0x24, 3, 3⟩
def SYS_SCRATCH : Fld := ⟨0x0, 0x28, 31, 0⟩
def SYS_SCRATCH_VALUE : Fld := ⟨0x0, 0x28, 31, 0⟩

/-! CLK, block 0x01 (R44). -/

def CLK_LOCK : Fld := ⟨0x1, 0x0, 31, 0⟩
def CLK_LOCK_CORE : Fld := ⟨0x1, 0x0, 0, 0⟩
def CLK_LOCK_SYS : Fld := ⟨0x1, 0x0, 1, 1⟩
def CLK_LOCK_D2D : Fld := ⟨0x1, 0x0, 2, 2⟩
def CLK_LOCK_ETH : Fld := ⟨0x1, 0x0, 3, 3⟩
def CLK_LOCK_AUX : Fld := ⟨0x1, 0x0, 4, 4⟩
def CLK_LOCK_REFC_PRESENT : Fld := ⟨0x1, 0x0, 5, 5⟩
def CLK_LOSS : Fld := ⟨0x1, 0x4, 31, 0⟩
def CLK_LOSS_LOST : Fld := ⟨0x1, 0x4, 5, 0⟩

/-! D2D, block 0x1b (R45). -/

def D2D_L_STATUS (n : Nat) : Fld := ⟨0x1b, 0x0 + 0x40 * n, 31, 0⟩
def D2D_L_STATUS_BONDED (n : Nat) : Fld := ⟨0x1b, 0x0 + 0x40 * n, 0, 0⟩
def D2D_L_STATUS_UP (n : Nat) : Fld := ⟨0x1b, 0x0 + 0x40 * n, 1, 1⟩
def D2D_L_STATUS_TRAINING (n : Nat) : Fld := ⟨0x1b, 0x0 + 0x40 * n, 2, 2⟩
def D2D_L_STATUS_FAILED (n : Nat) : Fld := ⟨0x1b, 0x0 + 0x40 * n, 3, 3⟩
def D2D_L_STATUS_NEIGHBOUR (n : Nat) : Fld := ⟨0x1b, 0x0 + 0x40 * n, 6, 4⟩
def D2D_L_STATUS_RETRAINS (n : Nat) : Fld := ⟨0x1b, 0x0 + 0x40 * n, 15, 8⟩
def D2D_L_CTRL (n : Nat) : Fld := ⟨0x1b, 0x4 + 0x40 * n, 31, 0⟩
def D2D_L_CTRL_RETRAIN (n : Nat) : Fld := ⟨0x1b, 0x4 + 0x40 * n, 0, 0⟩
def D2D_L_CRC_ERR (n : Nat) : Fld := ⟨0x1b, 0x8 + 0x40 * n, 31, 0⟩
def D2D_L_CRC_ERR_COUNT (n : Nat) : Fld := ⟨0x1b, 0x8 + 0x40 * n, 31, 0⟩
def D2D_L_REPLAY (n : Nat) : Fld := ⟨0x1b, 0xc + 0x40 * n, 31, 0⟩
def D2D_L_REPLAY_COUNT (n : Nat) : Fld := ⟨0x1b, 0xc + 0x40 * n, 31, 0⟩
def D2D_L_TX_FLITS_LO (n : Nat) : Fld := ⟨0x1b, 0x10 + 0x40 * n, 31, 0⟩
def D2D_L_TX_FLITS_LO_COUNT (n : Nat) : Fld := ⟨0x1b, 0x10 + 0x40 * n, 31, 0⟩
def D2D_L_TX_FLITS_HI (n : Nat) : Fld := ⟨0x1b, 0x14 + 0x40 * n, 31, 0⟩
def D2D_L_TX_FLITS_HI_COUNT (n : Nat) : Fld := ⟨0x1b, 0x14 + 0x40 * n, 31, 0⟩
def D2D_L_CLR (n : Nat) : Fld := ⟨0x1b, 0x18 + 0x40 * n, 31, 0⟩
def D2D_L_CLR_CRC_ERR (n : Nat) : Fld := ⟨0x1b, 0x18 + 0x40 * n, 0, 0⟩
def D2D_L_CLR_REPLAY (n : Nat) : Fld := ⟨0x1b, 0x18 + 0x40 * n, 1, 1⟩
def D2D_L_CLR_TX_FLITS (n : Nat) : Fld := ⟨0x1b, 0x18 + 0x40 * n, 2, 2⟩
def D2D_ROUTE (t : Nat) : Fld := ⟨0x1b, 0x100 + 0x4 * t, 31, 0⟩
def D2D_ROUTE_LINK (t : Nat) : Fld := ⟨0x1b, 0x100 + 0x4 * t, 1, 0⟩
def D2D_ROUTE_HOPS (t : Nat) : Fld := ⟨0x1b, 0x100 + 0x4 * t, 5, 4⟩
def D2D_ROUTE_REACHABLE (t : Nat) : Fld := ⟨0x1b, 0x100 + 0x4 * t, 8, 8⟩
def D2D_ROUTE_PAIRED (t : Nat) : Fld := ⟨0x1b, 0x100 + 0x4 * t, 9, 9⟩

/-! BND, block 0x02 (R72). -/

def BND_CTRL : Fld := ⟨0x2, 0x0, 31, 0⟩
def BND_CTRL_RUN : Fld := ⟨0x2, 0x0, 0, 0⟩
def BND_CTRL_SRC : Fld := ⟨0x2, 0x0, 2, 1⟩
def BND_CTRL_TB_SEL : Fld := ⟨0x2, 0x0, 4, 3⟩
def BND_CTRL_WAIT_START : Fld := ⟨0x2, 0x0, 5, 5⟩
def BND_CTRL_WEB_SRC : Fld := ⟨0x2, 0x0, 6, 6⟩
def BND_CTRL_MASTER_SUB : Fld := ⟨0x2, 0x0, 13, 8⟩
def BND_CTRL_FLUSH : Fld := ⟨0x2, 0x0, 16, 16⟩
def BND_STATUS : Fld := ⟨0x2, 0x4, 31, 0⟩
def BND_STATUS_RUNNING : Fld := ⟨0x2, 0x4, 0, 0⟩
def BND_STATUS_TICKING : Fld := ⟨0x2, 0x4, 1, 1⟩
def BND_STATUS_DRAINING : Fld := ⟨0x2, 0x4, 2, 2⟩
def BND_STATUS_WAITING : Fld := ⟨0x2, 0x4, 3, 3⟩
def BND_STATUS_HOLDING : Fld := ⟨0x2, 0x4, 4, 4⟩
def BND_STATUS_B_CODE : Fld := ⟨0x2, 0x4, 7, 5⟩
def BND_STATUS_SPEED : Fld := ⟨0x2, 0x4, 8, 8⟩
def BND_BAND_SIZE : Fld := ⟨0x2, 0x8, 31, 0⟩
def BND_BAND_SIZE_B : Fld := ⟨0x2, 0x8, 2, 0⟩
def BND_DEPTH : Fld := ⟨0x2, 0xc, 31, 0⟩
def BND_INDEX_LO : Fld := ⟨0x2, 0x10, 31, 0⟩
def BND_INDEX_LO_INDEX_LO : Fld := ⟨0x2, 0x10, 31, 0⟩
def BND_INDEX_HI : Fld := ⟨0x2, 0x14, 31, 0⟩
def BND_INDEX_HI_INDEX_HI : Fld := ⟨0x2, 0x14, 15, 0⟩
def BND_LINE_LO : Fld := ⟨0x2, 0x18, 31, 0⟩
def BND_LINE_LO_COUNT : Fld := ⟨0x2, 0x18, 31, 0⟩
def BND_LINE_HI : Fld := ⟨0x2, 0x1c, 31, 0⟩
def BND_LINE_HI_COUNT : Fld := ⟨0x2, 0x1c, 31, 0⟩
def BND_BAND_LINE0_LO : Fld := ⟨0x2, 0x20, 31, 0⟩
def BND_BAND_LINE0_LO_COUNT : Fld := ⟨0x2, 0x20, 31, 0⟩
def BND_BAND_LINE0_HI : Fld := ⟨0x2, 0x24, 31, 0⟩
def BND_BAND_LINE0_HI_COUNT : Fld := ⟨0x2, 0x24, 31, 0⟩
def BND_TB_PERIOD_LO : Fld := ⟨0x2, 0x28, 31, 0⟩
def BND_TB_PERIOD_LO_FRAC : Fld := ⟨0x2, 0x28, 31, 0⟩
def BND_TB_PERIOD_HI : Fld := ⟨0x2, 0x2c, 31, 0⟩
def BND_TB_PERIOD_HI_NS : Fld := ⟨0x2, 0x2c, 31, 0⟩
def BND_MAX_LINE_RATE : Fld := ⟨0x2, 0x30, 31, 0⟩
def BND_MAX_LINE_RATE_HZ : Fld := ⟨0x2, 0x30, 16, 0⟩
def BND_LINE_PITCH : Fld := ⟨0x2, 0x34, 31, 0⟩
def BND_LINE_PITCH_UM : Fld := ⟨0x2, 0x34, 31, 0⟩
def BND_PITCH_TOL : Fld := ⟨0x2, 0x38, 31, 0⟩
def BND_PITCH_TOL_TOL : Fld := ⟨0x2, 0x38, 15, 0⟩
def BND_IDLE_TIMEOUT : Fld := ⟨0x2, 0x3c, 31, 0⟩
def BND_IDLE_TIMEOUT_US : Fld := ⟨0x2, 0x3c, 19, 0⟩
def BND_DRAIN_PERIOD : Fld := ⟨0x2, 0x40, 31, 0⟩
def BND_DRAIN_PERIOD_US : Fld := ⟨0x2, 0x40, 19, 0⟩
def BND_LATENCY : Fld := ⟨0x2, 0x44, 31, 0⟩
def BND_LATENCY_BANDS : Fld := ⟨0x2, 0x44, 4, 0⟩
def BND_LATENCY_NS : Fld := ⟨0x2, 0x48, 31, 0⟩
def BND_LATENCY_NS_NS : Fld := ⟨0x2, 0x48, 31, 0⟩
def BND_ERR : Fld := ⟨0x2, 0x4c, 31, 0⟩
def BND_ERR_CFG_WHILE_RUN : Fld := ⟨0x2, 0x4c, 0, 0⟩
def BND_ERR_CFG_INVALID : Fld := ⟨0x2, 0x4c, 1, 1⟩
def BND_ERR_OVERSPEED : Fld := ⟨0x2, 0x4c, 2, 2⟩
def BND_ERR_IDLE : Fld := ⟨0x2, 0x4c, 3, 3⟩
def BND_ERR_BLIND_QFULL : Fld := ⟨0x2, 0x4c, 4, 4⟩
def BND_SKIPPED_LO : Fld := ⟨0x2, 0x50, 31, 0⟩
def BND_SKIPPED_LO_COUNT : Fld := ⟨0x2, 0x50, 31, 0⟩
def BND_SKIPPED_HI : Fld := ⟨0x2, 0x54, 31, 0⟩
def BND_SKIPPED_HI_COUNT : Fld := ⟨0x2, 0x54, 31, 0⟩
def BND_BLIND_CTRL : Fld := ⟨0x2, 0x58, 31, 0⟩
def BND_BLIND_CTRL_QUEUE : Fld := ⟨0x2, 0x58, 7, 0⟩
def BND_BLIND_CTRL_MAXBANDS : Fld := ⟨0x2, 0x58, 20, 8⟩
def BND_BLIND_CTRL_MAXREC : Fld := ⟨0x2, 0x58, 31, 24⟩
def BND_BLIND_LOST : Fld := ⟨0x2, 0x5c, 31, 0⟩
def BND_BLIND_LOST_COUNT : Fld := ⟨0x2, 0x5c, 31, 0⟩
def BND_MISS (k : Nat) : Fld := ⟨0x2, 0x80 + 0x4 * k, 31, 0⟩
def BND_MISS_COUNT (k : Nat) : Fld := ⟨0x2, 0x80 + 0x4 * k, 31, 0⟩
def BND_MISS_CLR : Fld := ⟨0x2, 0xa0, 31, 0⟩
def BND_MISS_CLR_CLR : Fld := ⟨0x2, 0xa0, 7, 0⟩
def BND_TILE_ERR : Fld := ⟨0x2, 0xa4, 31, 0⟩
def BND_TILE_ERR_ABORT_LATE : Fld := ⟨0x2, 0xa4, 0, 0⟩
def BND_COV_REP (g : Nat) : Fld := ⟨0x2, 0x100 + 0x20 * g, 31, 0⟩
def BND_COV_LASTREP (g : Nat) : Fld := ⟨0x2, 0x104 + 0x20 * g, 31, 0⟩
def BND_COV_JOB_LO (g : Nat) : Fld := ⟨0x2, 0x108 + 0x20 * g, 31, 0⟩
def BND_COV_JOB_HI (g : Nat) : Fld := ⟨0x2, 0x10c + 0x20 * g, 31, 0⟩
def BND_COV_PREVJOB_LO (g : Nat) : Fld := ⟨0x2, 0x110 + 0x20 * g, 31, 0⟩
def BND_COV_PREVJOB_HI (g : Nat) : Fld := ⟨0x2, 0x114 + 0x20 * g, 31, 0⟩
def BND_COV_JOB_LEN_LO : Fld := ⟨0x2, 0x200, 31, 0⟩
def BND_COV_JOB_LEN_LO_VALUE : Fld := ⟨0x2, 0x200, 31, 0⟩
def BND_COV_JOB_LEN_HI : Fld := ⟨0x2, 0x204, 31, 0⟩
def BND_COV_JOB_LEN_HI_VALUE : Fld := ⟨0x2, 0x204, 31, 0⟩
def BND_COV_REPEAT : Fld := ⟨0x2, 0x208, 31, 0⟩
def BND_COV_REPEAT_VALUE : Fld := ⟨0x2, 0x208, 31, 0⟩

/-! LNK, block 0x03 (R108). -/

def LNK_LANE_CTRL (n : Nat) : Fld := ⟨0x3, 0x0 + 0x40 * n, 31, 0⟩
def LNK_LANE_CTRL_POLARITY (n : Nat) : Fld := ⟨0x3, 0x0 + 0x40 * n, 0, 0⟩
def LNK_LANE_CTRL_CTLE_MANUAL (n : Nat) : Fld := ⟨0x3, 0x0 + 0x40 * n, 1, 1⟩
def LNK_LANE_CTRL_CTLE_SET (n : Nat) : Fld := ⟨0x3, 0x0 + 0x40 * n, 5, 2⟩
def LNK_LANE_CTRL_SLIP_MANUAL (n : Nat) : Fld := ⟨0x3, 0x0 + 0x40 * n, 6, 6⟩
def LNK_LANE_CTRL_SLIP (n : Nat) : Fld := ⟨0x3, 0x0 + 0x40 * n, 7, 7⟩
def LNK_LANE_STATUS (n : Nat) : Fld := ⟨0x3, 0x4 + 0x40 * n, 31, 0⟩
def LNK_LANE_STATUS_SIGNAL (n : Nat) : Fld := ⟨0x3, 0x4 + 0x40 * n, 0, 0⟩
def LNK_LANE_STATUS_CDR_LOCK (n : Nat) : Fld := ⟨0x3, 0x4 + 0x40 * n, 1, 1⟩
def LNK_LANE_STATUS_BLOCK_LOCK (n : Nat) : Fld := ⟨0x3, 0x4 + 0x40 * n, 2, 2⟩
def LNK_LANE_STATUS_MARKER (n : Nat) : Fld := ⟨0x3, 0x4 + 0x40 * n, 3, 3⟩
def LNK_LANE_STATUS_CTLE (n : Nat) : Fld := ⟨0x3, 0x4 + 0x40 * n, 7, 4⟩
def LNK_LANE_STATUS_SLIP_POS (n : Nat) : Fld := ⟨0x3, 0x4 + 0x40 * n, 14, 8⟩
def LNK_LANE_STATUS_SKEW (n : Nat) : Fld := ⟨0x3, 0x4 + 0x40 * n, 21, 16⟩
def LNK_LANE_PPM (n : Nat) : Fld := ⟨0x3, 0x8 + 0x40 * n, 31, 0⟩
def LNK_LANE_PPM_OFFSET (n : Nat) : Fld := ⟨0x3, 0x8 + 0x40 * n, 15, 0⟩
def LNK_LANE_SYNC_ERR (n : Nat) : Fld := ⟨0x3, 0xc + 0x40 * n, 31, 0⟩
def LNK_LANE_SYNC_ERR_COUNT (n : Nat) : Fld := ⟨0x3, 0xc + 0x40 * n, 31, 0⟩
def LNK_LANE_PRBS_CTRL (n : Nat) : Fld := ⟨0x3, 0x10 + 0x40 * n, 31, 0⟩
def LNK_LANE_PRBS_CTRL_PATTERN (n : Nat) : Fld := ⟨0x3, 0x10 + 0x40 * n, 2, 0⟩
def LNK_LANE_PRBS_CTRL_INVERT (n : Nat) : Fld := ⟨0x3, 0x10 + 0x40 * n, 3, 3⟩
def LNK_LANE_PRBS_STATUS (n : Nat) : Fld := ⟨0x3, 0x14 + 0x40 * n, 31, 0⟩
def LNK_LANE_PRBS_STATUS_LOCK (n : Nat) : Fld := ⟨0x3, 0x14 + 0x40 * n, 0, 0⟩
def LNK_LANE_PRBS_STATUS_LOST (n : Nat) : Fld := ⟨0x3, 0x14 + 0x40 * n, 1, 1⟩
def LNK_LANE_PRBS_ERR_LO (n : Nat) : Fld := ⟨0x3, 0x18 + 0x40 * n, 31, 0⟩
def LNK_LANE_PRBS_ERR_LO_COUNT (n : Nat) : Fld := ⟨0x3, 0x18 + 0x40 * n, 31, 0⟩
def LNK_LANE_PRBS_ERR_HI (n : Nat) : Fld := ⟨0x3, 0x1c + 0x40 * n, 31, 0⟩
def LNK_LANE_PRBS_ERR_HI_COUNT (n : Nat) : Fld := ⟨0x3, 0x1c + 0x40 * n, 31, 0⟩
def LNK_LANE_PRBS_BITS_LO (n : Nat) : Fld := ⟨0x3, 0x20 + 0x40 * n, 31, 0⟩
def LNK_LANE_PRBS_BITS_LO_COUNT (n : Nat) : Fld := ⟨0x3, 0x20 + 0x40 * n, 31, 0⟩
def LNK_LANE_PRBS_BITS_HI (n : Nat) : Fld := ⟨0x3, 0x24 + 0x40 * n, 31, 0⟩
def LNK_LANE_PRBS_BITS_HI_COUNT (n : Nat) : Fld := ⟨0x3, 0x24 + 0x40 * n, 31, 0⟩
def LNK_LANE_CLR (n : Nat) : Fld := ⟨0x3, 0x28 + 0x40 * n, 31, 0⟩
def LNK_LANE_CLR_SYNC_ERR (n : Nat) : Fld := ⟨0x3, 0x28 + 0x40 * n, 0, 0⟩
def LNK_LANE_CLR_PRBS (n : Nat) : Fld := ⟨0x3, 0x28 + 0x40 * n, 1, 1⟩
def LNK_PORT_CFG (p : Nat) : Fld := ⟨0x3, 0x200 + 0x40 * p, 31, 0⟩
def LNK_PORT_CFG_RATE (p : Nat) : Fld := ⟨0x3, 0x200 + 0x40 * p, 1, 0⟩
def LNK_PORT_CFG_LANES (p : Nat) : Fld := ⟨0x3, 0x200 + 0x40 * p, 3, 2⟩
def LNK_PORT_CTRL (p : Nat) : Fld := ⟨0x3, 0x204 + 0x40 * p, 31, 0⟩
def LNK_PORT_CTRL_ENABLE (p : Nat) : Fld := ⟨0x3, 0x204 + 0x40 * p, 0, 0⟩
def LNK_PORT_CTRL_RETRAIN (p : Nat) : Fld := ⟨0x3, 0x204 + 0x40 * p, 1, 1⟩
def LNK_PORT_CTRL_PSTATE (p : Nat) : Fld := ⟨0x3, 0x204 + 0x40 * p, 3, 2⟩
def LNK_PORT_CTRL_TEST (p : Nat) : Fld := ⟨0x3, 0x204 + 0x40 * p, 4, 4⟩
def LNK_PORT_STATUS (p : Nat) : Fld := ⟨0x3, 0x208 + 0x40 * p, 31, 0⟩
def LNK_PORT_STATUS_STATE (p : Nat) : Fld := ⟨0x3, 0x208 + 0x40 * p, 2, 0⟩
def LNK_PORT_STATUS_ABSENT (p : Nat) : Fld := ⟨0x3, 0x208 + 0x40 * p, 3, 3⟩
def LNK_PORT_STATUS_FAIL_PHASE (p : Nat) : Fld := ⟨0x3, 0x208 + 0x40 * p, 6, 4⟩
def LNK_PORT_STATUS_CAL (p : Nat) : Fld := ⟨0x3, 0x208 + 0x40 * p, 7, 7⟩
def LNK_PORT_STATUS_PSTATE (p : Nat) : Fld := ⟨0x3, 0x208 + 0x40 * p, 9, 8⟩
def LNK_PORT_STATUS_BACKOFF_MS (p : Nat) : Fld := ⟨0x3, 0x208 + 0x40 * p, 25, 16⟩
def LNK_PORT_FAILS (p : Nat) : Fld := ⟨0x3, 0x20c + 0x40 * p, 31, 0⟩
def LNK_PORT_FAILS_COUNT (p : Nat) : Fld := ⟨0x3, 0x20c + 0x40 * p, 31, 0⟩
def LNK_PORT_DROPS (p : Nat) : Fld := ⟨0x3, 0x210 + 0x40 * p, 31, 0⟩
def LNK_PORT_DROPS_COUNT (p : Nat) : Fld := ⟨0x3, 0x210 + 0x40 * p, 31, 0⟩
def LNK_PORT_ERR (p : Nat) : Fld := ⟨0x3, 0x214 + 0x40 * p, 31, 0⟩
def LNK_PORT_ERR_CFG_INVALID (p : Nat) : Fld := ⟨0x3, 0x214 + 0x40 * p, 0, 0⟩
def LNK_PORT_ERR_CFG_WHILE_EN (p : Nat) : Fld := ⟨0x3, 0x214 + 0x40 * p, 1, 1⟩
def LNK_PORT_ERR_PSTATE_REFUSED (p : Nat) : Fld := ⟨0x3, 0x214 + 0x40 * p, 2, 2⟩
def LNK_PORT_ERR_SKEW (p : Nat) : Fld := ⟨0x3, 0x214 + 0x40 * p, 3, 3⟩
def LNK_PORT_ERR_LOS_UP (p : Nat) : Fld := ⟨0x3, 0x214 + 0x40 * p, 4, 4⟩
def LNK_PORT_BC_CTRL (p : Nat) : Fld := ⟨0x3, 0x218 + 0x40 * p, 31, 0⟩
def LNK_PORT_BC_CTRL_ENABLE (p : Nat) : Fld := ⟨0x3, 0x218 + 0x40 * p, 0, 0⟩
def LNK_PORT_BC_CTRL_POLARITY (p : Nat) : Fld := ⟨0x3, 0x218 + 0x40 * p, 1, 1⟩
def LNK_PORT_BC_CTRL_PRBS (p : Nat) : Fld := ⟨0x3, 0x218 + 0x40 * p, 4, 2⟩
def LNK_PORT_BC_CTRL_INJECT (p : Nat) : Fld := ⟨0x3, 0x218 + 0x40 * p, 5, 5⟩
def LNK_PORT_BC_CTRL_INVERT (p : Nat) : Fld := ⟨0x3, 0x218 + 0x40 * p, 6, 6⟩
def LNK_PORT_CLR (p : Nat) : Fld := ⟨0x3, 0x21c + 0x40 * p, 31, 0⟩
def LNK_PORT_CLR_FAILS (p : Nat) : Fld := ⟨0x3, 0x21c + 0x40 * p, 0, 0⟩
def LNK_PORT_CLR_DROPS (p : Nat) : Fld := ⟨0x3, 0x21c + 0x40 * p, 1, 1⟩

/-! FXL, block 0x04 (R109). -/

def FXL_PORT_CTRL (p : Nat) : Fld := ⟨0x4, 0x0 + 0x100 * p, 31, 0⟩
def FXL_PORT_CTRL_TRIG_EN (p : Nat) : Fld := ⟨0x4, 0x0 + 0x100 * p, 0, 0⟩
def FXL_PORT_CTRL_SUB_EN (p : Nat) : Fld := ⟨0x4, 0x0 + 0x100 * p, 7, 4⟩
def FXL_PORT_LINES (p s : Nat) : Fld := ⟨0x4, 0x10 + 0x100 * p + 0x4 * s, 31, 0⟩
def FXL_PORT_LINES_COUNT (p s : Nat) : Fld := ⟨0x4, 0x10 + 0x100 * p + 0x4 * s, 31, 0⟩
def FXL_PORT_TRIG (p : Nat) : Fld := ⟨0x4, 0x2c + 0x100 * p, 31, 0⟩
def FXL_PORT_TRIG_COUNT (p : Nat) : Fld := ⟨0x4, 0x2c + 0x100 * p, 31, 0⟩
def FXL_PORT_CRC_ERR (p : Nat) : Fld := ⟨0x4, 0x20 + 0x100 * p, 31, 0⟩
def FXL_PORT_CRC_ERR_COUNT (p : Nat) : Fld := ⟨0x4, 0x20 + 0x100 * p, 31, 0⟩
def FXL_PORT_FRAME_ERR (p : Nat) : Fld := ⟨0x4, 0x24 + 0x100 * p, 31, 0⟩
def FXL_PORT_FRAME_ERR_COUNT (p : Nat) : Fld := ⟨0x4, 0x24 + 0x100 * p, 31, 0⟩
def FXL_PORT_DISCARD (p : Nat) : Fld := ⟨0x4, 0x28 + 0x100 * p, 31, 0⟩
def FXL_PORT_DISCARD_COUNT (p : Nat) : Fld := ⟨0x4, 0x28 + 0x100 * p, 31, 0⟩
def FXL_PORT_CMD_ADDR (p : Nat) : Fld := ⟨0x4, 0x30 + 0x100 * p, 31, 0⟩
def FXL_PORT_CMD_ADDR_VALUE (p : Nat) : Fld := ⟨0x4, 0x30 + 0x100 * p, 31, 0⟩
def FXL_PORT_CMD_DATA (p : Nat) : Fld := ⟨0x4, 0x34 + 0x100 * p, 31, 0⟩
def FXL_PORT_CMD_DATA_VALUE (p : Nat) : Fld := ⟨0x4, 0x34 + 0x100 * p, 31, 0⟩
def FXL_PORT_CMD_CTRL (p : Nat) : Fld := ⟨0x4, 0x38 + 0x100 * p, 31, 0⟩
def FXL_PORT_CMD_CTRL_TAG (p : Nat) : Fld := ⟨0x4, 0x38 + 0x100 * p, 7, 0⟩
def FXL_PORT_CMD_CTRL_OP (p : Nat) : Fld := ⟨0x4, 0x38 + 0x100 * p, 9, 8⟩
def FXL_PORT_CMD_CTRL_SEND (p : Nat) : Fld := ⟨0x4, 0x38 + 0x100 * p, 16, 16⟩
def FXL_PORT_CMD_STATUS (p : Nat) : Fld := ⟨0x4, 0x3c + 0x100 * p, 31, 0⟩
def FXL_PORT_CMD_STATUS_STATE (p : Nat) : Fld := ⟨0x4, 0x3c + 0x100 * p, 1, 0⟩
def FXL_PORT_CMD_STATUS_ACK_STATUS (p : Nat) : Fld := ⟨0x4, 0x3c + 0x100 * p, 15, 8⟩
def FXL_PORT_ACK_DATA (p : Nat) : Fld := ⟨0x4, 0x40 + 0x100 * p, 31, 0⟩
def FXL_PORT_ACK_DATA_DATA (p : Nat) : Fld := ⟨0x4, 0x40 + 0x100 * p, 31, 0⟩
def FXL_PORT_CMD_TMO (p : Nat) : Fld := ⟨0x4, 0x44 + 0x100 * p, 31, 0⟩
def FXL_PORT_CMD_TMO_US (p : Nat) : Fld := ⟨0x4, 0x44 + 0x100 * p, 15, 0⟩
def FXL_PORT_ERR (p : Nat) : Fld := ⟨0x4, 0x48 + 0x100 * p, 31, 0⟩
def FXL_PORT_ERR_SEND_BUSY (p : Nat) : Fld := ⟨0x4, 0x48 + 0x100 * p, 0, 0⟩
def FXL_PORT_ERR_BAD_OP (p : Nat) : Fld := ⟨0x4, 0x48 + 0x100 * p, 1, 1⟩
def FXL_PORT_ERR_UNSOLICITED_ACK (p : Nat) : Fld := ⟨0x4, 0x48 + 0x100 * p, 2, 2⟩
def FXL_PORT_ERR_TRIG_SUPPRESSED (p : Nat) : Fld := ⟨0x4, 0x48 + 0x100 * p, 3, 3⟩
def FXL_PORT_CLR (p : Nat) : Fld := ⟨0x4, 0x4c + 0x100 * p, 31, 0⟩
def FXL_PORT_CLR_LINES (p : Nat) : Fld := ⟨0x4, 0x4c + 0x100 * p, 0, 0⟩
def FXL_PORT_CLR_CRC_ERR (p : Nat) : Fld := ⟨0x4, 0x4c + 0x100 * p, 1, 1⟩
def FXL_PORT_CLR_FRAME_ERR (p : Nat) : Fld := ⟨0x4, 0x4c + 0x100 * p, 2, 2⟩
def FXL_PORT_CLR_DISCARD (p : Nat) : Fld := ⟨0x4, 0x4c + 0x100 * p, 3, 3⟩
def FXL_PORT_CLR_TRIG (p : Nat) : Fld := ⟨0x4, 0x4c + 0x100 * p, 4, 4⟩

/-! ING, block 0x05 (R131). -/

def ING_PORT_CTRL (p : Nat) : Fld := ⟨0x5, 0x0 + 0x200 * p, 31, 0⟩
def ING_PORT_CTRL_WAIT (p : Nat) : Fld := ⟨0x5, 0x0 + 0x200 * p, 3, 0⟩
def ING_PORT_CTRL_ACCEPT_TEST (p : Nat) : Fld := ⟨0x5, 0x0 + 0x200 * p, 4, 4⟩
def ING_PORT_STATUS (p : Nat) : Fld := ⟨0x5, 0x4 + 0x200 * p, 31, 0⟩
def ING_PORT_STATUS_STAGED0 (p : Nat) : Fld := ⟨0x5, 0x4 + 0x200 * p, 2, 0⟩
def ING_PORT_STATUS_STAGED1 (p : Nat) : Fld := ⟨0x5, 0x4 + 0x200 * p, 6, 4⟩
def ING_PORT_STATUS_STAGED2 (p : Nat) : Fld := ⟨0x5, 0x4 + 0x200 * p, 10, 8⟩
def ING_PORT_STATUS_STAGED3 (p : Nat) : Fld := ⟨0x5, 0x4 + 0x200 * p, 14, 12⟩
def ING_PORT_STATUS_BUSY (p : Nat) : Fld := ⟨0x5, 0x4 + 0x200 * p, 16, 16⟩
def ING_PORT_STATUS_CURRENT (p : Nat) : Fld := ⟨0x5, 0x4 + 0x200 * p, 18, 17⟩
def ING_PORT_ERR (p : Nat) : Fld := ⟨0x5, 0x8 + 0x200 * p, 31, 0⟩
def ING_PORT_ERR_CFG_WHILE_RUN (p : Nat) : Fld := ⟨0x5, 0x8 + 0x200 * p, 0, 0⟩
def ING_PORT_ERR_CFG_INVALID (p : Nat) : Fld := ⟨0x5, 0x8 + 0x200 * p, 1, 1⟩
def ING_PORT_ERR_STAMP (p : Nat) : Fld := ⟨0x5, 0x8 + 0x200 * p, 2, 2⟩
def ING_PORT_ERR_OVERFLOW (p : Nat) : Fld := ⟨0x5, 0x8 + 0x200 * p, 3, 3⟩
def ING_PORT_ERR_DEADLINE (p : Nat) : Fld := ⟨0x5, 0x8 + 0x200 * p, 4, 4⟩
def ING_PORT_ERR_FMT (p : Nat) : Fld := ⟨0x5, 0x8 + 0x200 * p, 5, 5⟩
def ING_PORT_CLR (p : Nat) : Fld := ⟨0x5, 0xc + 0x200 * p, 31, 0⟩
def ING_PORT_CLR_COUNTERS (p : Nat) : Fld := ⟨0x5, 0xc + 0x200 * p, 0, 0⟩
def ING_PORT_SUB_CFG (p s : Nat) : Fld := ⟨0x5, 0x40 + 0x200 * p + 0x40 * s, 31, 0⟩
def ING_PORT_SUB_CFG_EN (p s : Nat) : Fld := ⟨0x5, 0x40 + 0x200 * p + 0x40 * s, 0, 0⟩
def ING_PORT_SUB_CFG_FMT (p s : Nat) : Fld := ⟨0x5, 0x40 + 0x200 * p + 0x40 * s, 15, 8⟩
def ING_PORT_SUB_CFG_WIDTH (p s : Nat) : Fld := ⟨0x5, 0x40 + 0x200 * p + 0x40 * s, 30, 16⟩
def ING_PORT_SUB_STAMP_OFS (p s : Nat) : Fld := ⟨0x5, 0x44 + 0x200 * p + 0x40 * s, 31, 0⟩
def ING_PORT_SUB_EXPECT_LO (p s : Nat) : Fld := ⟨0x5, 0x48 + 0x200 * p + 0x40 * s, 31, 0⟩
def ING_PORT_SUB_EXPECT_HI (p s : Nat) : Fld := ⟨0x5, 0x4c + 0x200 * p + 0x40 * s, 31, 0⟩
def ING_PORT_SUB_GOOD (p s : Nat) : Fld := ⟨0x5, 0x50 + 0x200 * p + 0x40 * s, 31, 0⟩
def ING_PORT_SUB_MISSING (p s : Nat) : Fld := ⟨0x5, 0x54 + 0x200 * p + 0x40 * s, 31, 0⟩
def ING_PORT_SUB_OVERFLOW (p s : Nat) : Fld := ⟨0x5, 0x58 + 0x200 * p + 0x40 * s, 31, 0⟩
def ING_PORT_SUB_LATE (p s : Nat) : Fld := ⟨0x5, 0x5c + 0x200 * p + 0x40 * s, 31, 0⟩
def ING_PORT_SUB_STAMP_ERR (p s : Nat) : Fld := ⟨0x5, 0x60 + 0x200 * p + 0x40 * s, 31, 0⟩
def ING_PORT_SUB_FMT_ERR (p s : Nat) : Fld := ⟨0x5, 0x64 + 0x200 * p + 0x40 * s, 31, 0⟩
def ING_PORT_SUB_DEADLINE (p s : Nat) : Fld := ⟨0x5, 0x68 + 0x200 * p + 0x40 * s, 31, 0⟩
def ING_PORT_SUB_SAT (p s : Nat) : Fld := ⟨0x5, 0x6c + 0x200 * p + 0x40 * s, 31, 0⟩
def ING_PORT_SUB_CAMLOST (p s : Nat) : Fld := ⟨0x5, 0x70 + 0x200 * p + 0x40 * s, 31, 0⟩
def ING_PORT_SUB_TEST (p s : Nat) : Fld := ⟨0x5, 0x74 + 0x200 * p + 0x40 * s, 31, 0⟩

/-! COR, block 0x06 (R132). -/

def COR_PORT_SUB_CTRL (p s : Nat) : Fld := ⟨0x6, 0x0 + 0x400 * p + 0x100 * s, 31, 0⟩
def COR_PORT_SUB_CTRL_DPR_EN (p s : Nat) : Fld := ⟨0x6, 0x0 + 0x400 * p + 0x100 * s, 0, 0⟩
def COR_PORT_SUB_CTRL_DARK_EN (p s : Nat) : Fld := ⟨0x6, 0x0 + 0x400 * p + 0x100 * s, 1, 1⟩
def COR_PORT_SUB_CTRL_GAIN_EN (p s : Nat) : Fld := ⟨0x6, 0x0 + 0x400 * p + 0x100 * s, 2, 2⟩
def COR_PORT_SUB_CTRL_ALIGN_EN (p s : Nat) : Fld := ⟨0x6, 0x0 + 0x400 * p + 0x100 * s, 3, 3⟩
def COR_PORT_SUB_CTRL_MTX_EN (p s : Nat) : Fld := ⟨0x6, 0x0 + 0x400 * p + 0x100 * s, 4, 4⟩
def COR_PORT_SUB_CTRL_FADE_LEN (p s : Nat) : Fld := ⟨0x6, 0x0 + 0x400 * p + 0x100 * s, 28, 16⟩
def COR_PORT_SUB_DPR_BASE (p s : Nat) : Fld := ⟨0x6, 0x4 + 0x400 * p + 0x100 * s, 31, 0⟩
def COR_PORT_SUB_DPR_COUNT (p s : Nat) : Fld := ⟨0x6, 0x8 + 0x400 * p + 0x100 * s, 31, 0⟩
def COR_PORT_SUB_DARK_BASE (p s : Nat) : Fld := ⟨0x6, 0xc + 0x400 * p + 0x100 * s, 31, 0⟩
def COR_PORT_SUB_GAINA_BASE (p s : Nat) : Fld := ⟨0x6, 0x10 + 0x400 * p + 0x100 * s, 31, 0⟩
def COR_PORT_SUB_GAINB_BASE (p s : Nat) : Fld := ⟨0x6, 0x14 + 0x400 * p + 0x100 * s, 31, 0⟩
def COR_PORT_SUB_LBUF_BASE (p s : Nat) : Fld := ⟨0x6, 0x18 + 0x400 * p + 0x100 * s, 31, 0⟩
def COR_PORT_SUB_GAIN_CTRL (p s : Nat) : Fld := ⟨0x6, 0x1c + 0x400 * p + 0x100 * s, 31, 0⟩
def COR_PORT_SUB_GAIN_CTRL_SWAP (p s : Nat) : Fld := ⟨0x6, 0x1c + 0x400 * p + 0x100 * s, 0, 0⟩
def COR_PORT_SUB_GAIN_CTRL_ACTIVE (p s : Nat) : Fld := ⟨0x6, 0x1c + 0x400 * p + 0x100 * s, 1, 1⟩
def COR_PORT_SUB_GAIN_CTRL_FADING (p s : Nat) : Fld := ⟨0x6, 0x1c + 0x400 * p + 0x100 * s, 2, 2⟩
def COR_PORT_SUB_GAIN_CTRL_PENDING (p s : Nat) : Fld := ⟨0x6, 0x1c + 0x400 * p + 0x100 * s, 3, 3⟩
def COR_PORT_SUB_GAIN_CTRL_QUEUED (p s : Nat) : Fld := ⟨0x6, 0x1c + 0x400 * p + 0x100 * s, 4, 4⟩
def COR_PORT_SUB_GAIN_CTRL_FADE_POS (p s : Nat) : Fld := ⟨0x6, 0x1c + 0x400 * p + 0x100 * s, 28, 16⟩
def COR_PORT_SUB_ALIGN_R (p s : Nat) : Fld := ⟨0x6, 0x20 + 0x400 * p + 0x100 * s, 31, 0⟩
def COR_PORT_SUB_ALIGN_R_INT (p s : Nat) : Fld := ⟨0x6, 0x20 + 0x400 * p + 0x100 * s, 3, 0⟩
def COR_PORT_SUB_ALIGN_R_FRAC (p s : Nat) : Fld := ⟨0x6, 0x20 + 0x400 * p + 0x100 * s, 15, 8⟩
def COR_PORT_SUB_ALIGN_G (p s : Nat) : Fld := ⟨0x6, 0x24 + 0x400 * p + 0x100 * s, 31, 0⟩
def COR_PORT_SUB_ALIGN_G_INT (p s : Nat) : Fld := ⟨0x6, 0x24 + 0x400 * p + 0x100 * s, 3, 0⟩
def COR_PORT_SUB_ALIGN_G_FRAC (p s : Nat) : Fld := ⟨0x6, 0x24 + 0x400 * p + 0x100 * s, 15, 8⟩
def COR_PORT_SUB_ALIGN_B (p s : Nat) : Fld := ⟨0x6, 0x28 + 0x400 * p + 0x100 * s, 31, 0⟩
def COR_PORT_SUB_ALIGN_B_INT (p s : Nat) : Fld := ⟨0x6, 0x28 + 0x400 * p + 0x100 * s, 3, 0⟩
def COR_PORT_SUB_ALIGN_B_FRAC (p s : Nat) : Fld := ⟨0x6, 0x28 + 0x400 * p + 0x100 * s, 15, 8⟩
def COR_PORT_SUB_MTX (p s c j : Nat) : Fld := ⟨0x6, 0x2c + 0x400 * p + 0x100 * s + 0xc * c + 0x4 * j, 31, 0⟩
def COR_PORT_SUB_OFS_0 (p s : Nat) : Fld := ⟨0x6, 0x50 + 0x400 * p + 0x100 * s, 31, 0⟩
def COR_PORT_SUB_OFS_1 (p s : Nat) : Fld := ⟨0x6, 0x54 + 0x400 * p + 0x100 * s, 31, 0⟩
def COR_PORT_SUB_OFS_2 (p s : Nat) : Fld := ⟨0x6, 0x58 + 0x400 * p + 0x100 * s, 31, 0⟩
def COR_PORT_SUB_ERR (p s : Nat) : Fld := ⟨0x6, 0x5c + 0x400 * p + 0x100 * s, 31, 0⟩
def COR_PORT_SUB_ERR_CFG_WHILE_RUN (p s : Nat) : Fld := ⟨0x6, 0x5c + 0x400 * p + 0x100 * s, 0, 0⟩
def COR_PORT_SUB_ERR_CFG_INVALID (p s : Nat) : Fld := ⟨0x6, 0x5c + 0x400 * p + 0x100 * s, 1, 1⟩
def COR_PORT_SUB_ERR_WRITE_BUSY (p s : Nat) : Fld := ⟨0x6, 0x5c + 0x400 * p + 0x100 * s, 2, 2⟩
def COR_PORT_SUB_ERR_SWAP_BUSY (p s : Nat) : Fld := ⟨0x6, 0x5c + 0x400 * p + 0x100 * s, 3, 3⟩
def COR_PORT_SUB_ERR_LATE_WRITE (p s : Nat) : Fld := ⟨0x6, 0x5c + 0x400 * p + 0x100 * s, 4, 4⟩
def COR_PORT_SUB_ERR_DPR_ORDER (p s : Nat) : Fld := ⟨0x6, 0x5c + 0x400 * p + 0x100 * s, 5, 5⟩
def COR_PORT_SUB_LINES (p s : Nat) : Fld := ⟨0x6, 0x60 + 0x400 * p + 0x100 * s, 31, 0⟩
def COR_PORT_SUB_DPR_SKIPPED (p s : Nat) : Fld := ⟨0x6, 0x64 + 0x400 * p + 0x100 * s, 31, 0⟩

/-! EXP, block 0x07 (R153). -/

def EXP_PORT_SET_CTRL (p : Nat) : Fld := ⟨0x7, 0x0 + 0x200 * p, 31, 0⟩
def EXP_PORT_SET_CTRL_SET_ID (p : Nat) : Fld := ⟨0x7, 0x0 + 0x200 * p, 7, 0⟩
def EXP_PORT_SET_CTRL_SUB_MASK (p : Nat) : Fld := ⟨0x7, 0x0 + 0x200 * p, 11, 8⟩
def EXP_PORT_SET_CTRL_COMMIT (p : Nat) : Fld := ⟨0x7, 0x0 + 0x200 * p, 16, 16⟩
def EXP_PORT_SET_CTRL_PENDING (p : Nat) : Fld := ⟨0x7, 0x0 + 0x200 * p, 17, 17⟩
def EXP_PORT_SET_EXPOSURE (p : Nat) : Fld := ⟨0x7, 0x4 + 0x200 * p, 31, 0⟩
def EXP_PORT_SET_EXPOSURE_NS (p : Nat) : Fld := ⟨0x7, 0x4 + 0x200 * p, 31, 0⟩
def EXP_PORT_SET_GAIN_RG (p : Nat) : Fld := ⟨0x7, 0x8 + 0x200 * p, 31, 0⟩
def EXP_PORT_SET_GAIN_RG_GAIN_R (p : Nat) : Fld := ⟨0x7, 0x8 + 0x200 * p, 15, 0⟩
def EXP_PORT_SET_GAIN_RG_GAIN_G (p : Nat) : Fld := ⟨0x7, 0x8 + 0x200 * p, 31, 16⟩
def EXP_PORT_SET_GAIN_B (p : Nat) : Fld := ⟨0x7, 0xc + 0x200 * p, 31, 0⟩
def EXP_PORT_SET_GAIN_B_GAIN_B (p : Nat) : Fld := ⟨0x7, 0xc + 0x200 * p, 15, 0⟩
def EXP_PORT_CUR (p : Nat) : Fld := ⟨0x7, 0x10 + 0x200 * p, 31, 0⟩
def EXP_PORT_LAST_COMMIT (p : Nat) : Fld := ⟨0x7, 0x14 + 0x200 * p, 31, 0⟩
def EXP_PORT_LAST_COMMIT_ID (p : Nat) : Fld := ⟨0x7, 0x14 + 0x200 * p, 7, 0⟩
def EXP_PORT_LAST_COMMIT_AE (p : Nat) : Fld := ⟨0x7, 0x14 + 0x200 * p, 8, 8⟩
def EXP_PORT_COMMIT_BAND_LO (p : Nat) : Fld := ⟨0x7, 0x18 + 0x200 * p, 31, 0⟩
def EXP_PORT_COMMIT_BAND_HI (p : Nat) : Fld := ⟨0x7, 0x1c + 0x200 * p, 31, 0⟩
def EXP_PORT_ERR (p : Nat) : Fld := ⟨0x7, 0x20 + 0x200 * p, 31, 0⟩
def EXP_PORT_ERR_CFG_WHILE_RUN (p : Nat) : Fld := ⟨0x7, 0x20 + 0x200 * p, 0, 0⟩
def EXP_PORT_ERR_CFG_INVALID (p : Nat) : Fld := ⟨0x7, 0x20 + 0x200 * p, 1, 1⟩
def EXP_PORT_ERR_SET_ID_INVALID (p : Nat) : Fld := ⟨0x7, 0x20 + 0x200 * p, 2, 2⟩
def EXP_PORT_ERR_NOT_SENT (p : Nat) : Fld := ⟨0x7, 0x20 + 0x200 * p, 3, 3⟩
def EXP_PORT_ERR_LATE_WRITE (p : Nat) : Fld := ⟨0x7, 0x20 + 0x200 * p, 4, 4⟩
def EXP_PORT_ERR_AE_PREEMPTED (p : Nat) : Fld := ⟨0x7, 0x20 + 0x200 * p, 5, 5⟩
def EXP_PORT_AE_CTRL (p : Nat) : Fld := ⟨0x7, 0x24 + 0x200 * p, 31, 0⟩
def EXP_PORT_AE_CTRL_AE_EN (p : Nat) : Fld := ⟨0x7, 0x24 + 0x200 * p, 0, 0⟩
def EXP_PORT_AE_CTRL_WB_EN (p : Nat) : Fld := ⟨0x7, 0x24 + 0x200 * p, 1, 1⟩
def EXP_PORT_AE_CTRL_SUB_MASK (p : Nat) : Fld := ⟨0x7, 0x24 + 0x200 * p, 5, 2⟩
def EXP_PORT_AE_CTRL_INTERVAL (p : Nat) : Fld := ⟨0x7, 0x24 + 0x200 * p, 15, 8⟩
def EXP_PORT_AE_CTRL_STEP (p : Nat) : Fld := ⟨0x7, 0x24 + 0x200 * p, 27, 16⟩
def EXP_PORT_AE_TARGET (p : Nat) : Fld := ⟨0x7, 0x28 + 0x200 * p, 31, 0⟩
def EXP_PORT_AE_TOL (p : Nat) : Fld := ⟨0x7, 0x2c + 0x200 * p, 31, 0⟩
def EXP_PORT_AE_EXP_MIN (p : Nat) : Fld := ⟨0x7, 0x30 + 0x200 * p, 31, 0⟩
def EXP_PORT_AE_EXP_MAX (p : Nat) : Fld := ⟨0x7, 0x34 + 0x200 * p, 31, 0⟩
def EXP_PORT_AE_GAIN_LIM (p : Nat) : Fld := ⟨0x7, 0x38 + 0x200 * p, 31, 0⟩
def EXP_PORT_AE_GAIN_LIM_GAIN_MIN (p : Nat) : Fld := ⟨0x7, 0x38 + 0x200 * p, 15, 0⟩
def EXP_PORT_AE_GAIN_LIM_GAIN_MAX (p : Nat) : Fld := ⟨0x7, 0x38 + 0x200 * p, 31, 16⟩
def EXP_PORT_AE_SAT (p : Nat) : Fld := ⟨0x7, 0x3c + 0x200 * p, 31, 0⟩
def EXP_PORT_AE_SAT_SAT_LIMIT (p : Nat) : Fld := ⟨0x7, 0x3c + 0x200 * p, 15, 0⟩
def EXP_PORT_AE_ZONES_LO (p : Nat) : Fld := ⟨0x7, 0x40 + 0x200 * p, 31, 0⟩
def EXP_PORT_AE_ZONES_HI (p : Nat) : Fld := ⟨0x7, 0x44 + 0x200 * p, 31, 0⟩
def EXP_PORT_WB_ZONES_LO (p : Nat) : Fld := ⟨0x7, 0x48 + 0x200 * p, 31, 0⟩
def EXP_PORT_WB_ZONES_HI (p : Nat) : Fld := ⟨0x7, 0x4c + 0x200 * p, 31, 0⟩
def EXP_PORT_AE_STATUS (p : Nat) : Fld := ⟨0x7, 0x50 + 0x200 * p, 31, 0⟩
def EXP_PORT_AE_STATUS_WAITING (p : Nat) : Fld := ⟨0x7, 0x50 + 0x200 * p, 0, 0⟩
def EXP_PORT_AE_STATUS_LIMIT_EXP (p : Nat) : Fld := ⟨0x7, 0x50 + 0x200 * p, 1, 1⟩
def EXP_PORT_AE_STATUS_LIMIT_GAIN (p : Nat) : Fld := ⟨0x7, 0x50 + 0x200 * p, 2, 2⟩
def EXP_PORT_AE_STATUS_SAT (p : Nat) : Fld := ⟨0x7, 0x50 + 0x200 * p, 3, 3⟩
def EXP_PORT_AE_MEAN (p : Nat) : Fld := ⟨0x7, 0x54 + 0x200 * p, 31, 0⟩
def EXP_PORT_AE_COMMITS (p : Nat) : Fld := ⟨0x7, 0x58 + 0x200 * p, 31, 0⟩
def EXP_PORT_SUB_STAT_CTRL (p s : Nat) : Fld := ⟨0x7, 0x100 + 0x200 * p + 0x20 * s, 31, 0⟩
def EXP_PORT_SUB_STAT_CTRL_HIST_EN (p s : Nat) : Fld := ⟨0x7, 0x100 + 0x200 * p + 0x20 * s, 0, 0⟩
def EXP_PORT_SUB_STAT_CTRL_ZONE_EN (p s : Nat) : Fld := ⟨0x7, 0x100 + 0x200 * p + 0x20 * s, 1, 1⟩
def EXP_PORT_SUB_STAT_CTRL_SRC (p s : Nat) : Fld := ⟨0x7, 0x100 + 0x200 * p + 0x20 * s, 2, 2⟩
def EXP_PORT_SUB_STAT_CTRL_ZONES (p s : Nat) : Fld := ⟨0x7, 0x100 + 0x200 * p + 0x20 * s, 14, 8⟩
def EXP_PORT_SUB_WIN (p s : Nat) : Fld := ⟨0x7, 0x104 + 0x200 * p + 0x20 * s, 31, 0⟩
def EXP_PORT_SUB_WIN_X0 (p s : Nat) : Fld := ⟨0x7, 0x104 + 0x200 * p + 0x20 * s, 13, 0⟩
def EXP_PORT_SUB_WIN_W (p s : Nat) : Fld := ⟨0x7, 0x104 + 0x200 * p + 0x20 * s, 30, 16⟩
def EXP_PORT_SUB_MIXED (p s : Nat) : Fld := ⟨0x7, 0x108 + 0x200 * p + 0x20 * s, 31, 0⟩
def EXP_PORT_SUB_DROPPED (p s : Nat) : Fld := ⟨0x7, 0x10c + 0x200 * p + 0x20 * s, 31, 0⟩
def EXP_PORT_SUB_LAST_TAG (p s : Nat) : Fld := ⟨0x7, 0x110 + 0x200 * p + 0x20 * s, 31, 0⟩
def EXP_PORT_SUB_LAST_TAG_ID (p s : Nat) : Fld := ⟨0x7, 0x110 + 0x200 * p + 0x20 * s, 7, 0⟩
def EXP_PORT_SUB_LAST_TAG_MIXED (p s : Nat) : Fld := ⟨0x7, 0x110 + 0x200 * p + 0x20 * s, 8, 8⟩
def EXP_CTRL : Fld := ⟨0x7, 0x400, 31, 0⟩
def EXP_CTRL_QUEUE : Fld := ⟨0x7, 0x400, 7, 0⟩
def EXP_CLR : Fld := ⟨0x7, 0x404, 31, 0⟩
def EXP_CLR_COUNTERS : Fld := ⟨0x7, 0x404, 0, 0⟩

/-! STI, block 0x08 (R172). -/

def STI_TRIM_CTRL : Fld := ⟨0x8, 0x0, 31, 0⟩
def STI_TRIM_CTRL_COMMIT : Fld := ⟨0x8, 0x0, 0, 0⟩
def STI_TRIM_CTRL_PENDING : Fld := ⟨0x8, 0x0, 1, 1⟩
def STI_ERR : Fld := ⟨0x8, 0x4, 31, 0⟩
def STI_ERR_CFG_WHILE_RUN : Fld := ⟨0x8, 0x4, 0, 0⟩
def STI_ERR_CFG_INVALID : Fld := ⟨0x8, 0x4, 1, 1⟩
def STI_ERR_LATE_WRITE : Fld := ⟨0x8, 0x4, 2, 2⟩
def STI_ERR_TRIM_OWNED : Fld := ⟨0x8, 0x4, 3, 3⟩
def STI_ERR_TRIM_CLAMP : Fld := ⟨0x8, 0x4, 4, 4⟩
def STI_ERR_IMPORT_LATE : Fld := ⟨0x8, 0x4, 5, 5⟩
def STI_CLR : Fld := ⟨0x8, 0x8, 31, 0⟩
def STI_CLR_COUNTERS : Fld := ⟨0x8, 0x8, 0, 0⟩
def STI_GRP_CFG (g : Nat) : Fld := ⟨0x8, 0x100 + 0x40 * g, 31, 0⟩
def STI_GRP_CFG_EN (g : Nat) : Fld := ⟨0x8, 0x100 + 0x40 * g, 0, 0⟩
def STI_GRP_CFG_RGB (g : Nat) : Fld := ⟨0x8, 0x100 + 0x40 * g, 1, 1⟩
def STI_GRP_CFG_TRACK (g : Nat) : Fld := ⟨0x8, 0x100 + 0x40 * g, 2, 2⟩
def STI_GRP_WIDTH (g : Nat) : Fld := ⟨0x8, 0x104 + 0x40 * g, 31, 0⟩
def STI_GRP_PITCH (g : Nat) : Fld := ⟨0x8, 0x108 + 0x40 * g, 31, 0⟩
def STI_GRP_XOFS (g : Nat) : Fld := ⟨0x8, 0x10c + 0x40 * g, 31, 0⟩
def STI_GRP_WEB_OFS (g : Nat) : Fld := ⟨0x8, 0x110 + 0x40 * g, 31, 0⟩
def STI_GRP_SEG_X0 (g : Nat) : Fld := ⟨0x8, 0x114 + 0x40 * g, 31, 0⟩
def STI_GRP_SEG_W (g : Nat) : Fld := ⟨0x8, 0x118 + 0x40 * g, 31, 0⟩
def STI_GRP_MAP_BASE (g : Nat) : Fld := ⟨0x8, 0x11c + 0x40 * g, 31, 0⟩
def STI_GRP_HEDGE_BASE (g : Nat) : Fld := ⟨0x8, 0x120 + 0x40 * g, 31, 0⟩
def STI_GRP_HEDGE_COUNT (g : Nat) : Fld := ⟨0x8, 0x124 + 0x40 * g, 31, 0⟩
def STI_GRP_LINES (g : Nat) : Fld := ⟨0x8, 0x128 + 0x40 * g, 31, 0⟩
def STI_GRP_SINGLE (g : Nat) : Fld := ⟨0x8, 0x12c + 0x40 * g, 31, 0⟩
def STI_GRP_HEDGE_MAD (g h : Nat) : Fld := ⟨0x8, 0x400 + 0x40 * g + 0x4 * h, 31, 0⟩
def STI_GRP_HEDGE_MAD_MAD (g h : Nat) : Fld := ⟨0x8, 0x400 + 0x40 * g + 0x4 * h, 23, 0⟩
def STI_GRP_HEDGE_MAD_VALID (g h : Nat) : Fld := ⟨0x8, 0x400 + 0x40 * g + 0x4 * h, 31, 31⟩
def STI_SUB_CFG (t : Nat) : Fld := ⟨0x8, 0x600 + 0x20 * t, 31, 0⟩
def STI_SUB_CFG_EN (t : Nat) : Fld := ⟨0x8, 0x600 + 0x20 * t, 0, 0⟩
def STI_SUB_CFG_GROUP (t : Nat) : Fld := ⟨0x8, 0x600 + 0x20 * t, 3, 1⟩
def STI_SUB_DELAY (t : Nat) : Fld := ⟨0x8, 0x604 + 0x20 * t, 31, 0⟩
def STI_SUB_DELAY_INT (t : Nat) : Fld := ⟨0x8, 0x604 + 0x20 * t, 9, 0⟩
def STI_SUB_DELAY_FRAC (t : Nat) : Fld := ⟨0x8, 0x604 + 0x20 * t, 23, 16⟩
def STI_SUB_HIST_BASE (t : Nat) : Fld := ⟨0x8, 0x608 + 0x20 * t, 31, 0⟩
def STI_SUB_HIST_SLOTS (t : Nat) : Fld := ⟨0x8, 0x60c + 0x20 * t, 31, 0⟩
def STI_SUB_TRIM_X (t : Nat) : Fld := ⟨0x8, 0x610 + 0x20 * t, 31, 0⟩
def STI_SUB_TRIM_Y (t : Nat) : Fld := ⟨0x8, 0x614 + 0x20 * t, 31, 0⟩
def STI_SUB_TRIM_NOW (t : Nat) : Fld := ⟨0x8, 0x618 + 0x20 * t, 31, 0⟩
def STI_SUB_TRIM_NOW_X (t : Nat) : Fld := ⟨0x8, 0x618 + 0x20 * t, 15, 0⟩
def STI_SUB_TRIM_NOW_Y (t : Nat) : Fld := ⟨0x8, 0x618 + 0x20 * t, 31, 16⟩
def STI_IMP_CFG (i : Nat) : Fld := ⟨0x8, 0x800 + 0x10 * i, 31, 0⟩
def STI_IMP_CFG_EN (i : Nat) : Fld := ⟨0x8, 0x800 + 0x10 * i, 0, 0⟩
def STI_IMP_CFG_SUB (i : Nat) : Fld := ⟨0x8, 0x800 + 0x10 * i, 13, 8⟩
def STI_IMP_X0 (i : Nat) : Fld := ⟨0x8, 0x804 + 0x10 * i, 31, 0⟩
def STI_IMP_COUNT (i : Nat) : Fld := ⟨0x8, 0x808 + 0x10 * i, 31, 0⟩
def STI_IMP_LATE (i : Nat) : Fld := ⟨0x8, 0x80c + 0x10 * i, 31, 0⟩

/-! REF, block 0x09 (R206). -/

def REF_CTRL : Fld := ⟨0x9, 0x0, 31, 0⟩
def REF_CTRL_QUEUE : Fld := ⟨0x9, 0x0, 7, 0⟩
def REF_CTRL_REC_EVERY : Fld := ⟨0x9, 0x0, 15, 8⟩
def REF_LEAD_MIN : Fld := ⟨0x9, 0x4, 31, 0⟩
def REF_ERR : Fld := ⟨0x9, 0x8, 31, 0⟩
def REF_ERR_CFG_WHILE_RUN : Fld := ⟨0x9, 0x8, 0, 0⟩
def REF_ERR_CFG_INVALID : Fld := ⟨0x9, 0x8, 1, 1⟩
def REF_ERR_CRC : Fld := ⟨0x9, 0x8, 2, 2⟩
def REF_ERR_DECODE : Fld := ⟨0x9, 0x8, 3, 3⟩
def REF_ERR_JOB : Fld := ⟨0x9, 0x8, 4, 4⟩
def REF_ERR_DUPLICATE : Fld := ⟨0x9, 0x8, 5, 5⟩
def REF_ERR_RING_FULL : Fld := ⟨0x9, 0x8, 6, 6⟩
def REF_ERR_WIN_CLAMP : Fld := ⟨0x9, 0x8, 7, 7⟩
def REF_ERR_MARGIN : Fld := ⟨0x9, 0x8, 8, 8⟩
def REF_ERR_LEARN_BUSY : Fld := ⟨0x9, 0x8, 9, 9⟩
def REF_ERR_LEARN_MEM : Fld := ⟨0x9, 0x8, 10, 10⟩
def REF_ERR_SEQ : Fld := ⟨0x9, 0x8, 11, 11⟩
def REF_DISCARD : Fld := ⟨0x9, 0xc, 31, 0⟩
def REF_CLR : Fld := ⟨0x9, 0x10, 31, 0⟩
def REF_CLR_COUNTERS : Fld := ⟨0x9, 0x10, 0, 0⟩
def REF_GRP_CFG (g : Nat) : Fld := ⟨0x9, 0x100 + 0x80 * g, 31, 0⟩
def REF_GRP_CFG_EN (g : Nat) : Fld := ⟨0x9, 0x100 + 0x80 * g, 0, 0⟩
def REF_GRP_CFG_SOURCE (g : Nat) : Fld := ⟨0x9, 0x100 + 0x80 * g, 1, 1⟩
def REF_GRP_CFG_SCALE_X (g : Nat) : Fld := ⟨0x9, 0x100 + 0x80 * g, 2, 2⟩
def REF_GRP_CFG_SCALE_Y (g : Nat) : Fld := ⟨0x9, 0x100 + 0x80 * g, 3, 3⟩
def REF_GRP_CFG_INTERP (g : Nat) : Fld := ⟨0x9, 0x100 + 0x80 * g, 4, 4⟩
def REF_GRP_CFG_FAIL_POLICY (g : Nat) : Fld := ⟨0x9, 0x100 + 0x80 * g, 5, 5⟩
def REF_GRP_CFG_KEEP_SOL (g : Nat) : Fld := ⟨0x9, 0x100 + 0x80 * g, 6, 6⟩
def REF_GRP_CFG_SOLVE_TILE (g : Nat) : Fld := ⟨0x9, 0x100 + 0x80 * g, 10, 8⟩
def REF_GRP_CFG_PATCHES (g : Nat) : Fld := ⟨0x9, 0x100 + 0x80 * g, 18, 12⟩
def REF_GRP_CFG_DEF_CLASS (g : Nat) : Fld := ⟨0x9, 0x100 + 0x80 * g, 23, 20⟩
def REF_GRP_LPR (g : Nat) : Fld := ⟨0x9, 0x104 + 0x80 * g, 31, 0⟩
def REF_GRP_RING_BASE (g : Nat) : Fld := ⟨0x9, 0x108 + 0x80 * g, 31, 0⟩
def REF_GRP_RING_SIZE (g : Nat) : Fld := ⟨0x9, 0x10c + 0x80 * g, 31, 0⟩
def REF_GRP_RING_X0 (g : Nat) : Fld := ⟨0x9, 0x110 + 0x80 * g, 31, 0⟩
def REF_GRP_RING_COLS (g : Nat) : Fld := ⟨0x9, 0x114 + 0x80 * g, 31, 0⟩
def REF_GRP_WIN_BASE (g : Nat) : Fld := ⟨0x9, 0x118 + 0x80 * g, 31, 0⟩
def REF_GRP_WIN_LINES (g : Nat) : Fld := ⟨0x9, 0x11c + 0x80 * g, 31, 0⟩
def REF_GRP_COARSE_BASE (g : Nat) : Fld := ⟨0x9, 0x120 + 0x80 * g, 31, 0⟩
def REF_GRP_COARSE_ROWS (g : Nat) : Fld := ⟨0x9, 0x124 + 0x80 * g, 31, 0⟩
def REF_GRP_SEARCH (g : Nat) : Fld := ⟨0x9, 0x128 + 0x80 * g, 31, 0⟩
def REF_GRP_SEARCH_SX (g : Nat) : Fld := ⟨0x9, 0x128 + 0x80 * g, 7, 0⟩
def REF_GRP_SEARCH_SY (g : Nat) : Fld := ⟨0x9, 0x128 + 0x80 * g, 15, 8⟩
def REF_GRP_SEARCH_ROWS (g : Nat) : Fld := ⟨0x9, 0x128 + 0x80 * g, 21, 16⟩
def REF_GRP_SEARCH_PATCH_W (g : Nat) : Fld := ⟨0x9, 0x128 + 0x80 * g, 29, 24⟩
def REF_GRP_PATCH_BASE (g : Nat) : Fld := ⟨0x9, 0x12c + 0x80 * g, 31, 0⟩
def REF_GRP_REG (g : Nat) : Fld := ⟨0x9, 0x130 + 0x80 * g, 31, 0⟩
def REF_GRP_REG_CONF_MIN (g : Nat) : Fld := ⟨0x9, 0x130 + 0x80 * g, 7, 0⟩
def REF_GRP_REG_HOLD (g : Nat) : Fld := ⟨0x9, 0x130 + 0x80 * g, 23, 8⟩
def REF_GRP_REG_PATCH_MIN (g : Nat) : Fld := ⟨0x9, 0x130 + 0x80 * g, 31, 24⟩
def REF_GRP_LIMITS (g : Nat) : Fld := ⟨0x9, 0x134 + 0x80 * g, 31, 0⟩
def REF_GRP_LIMITS_ELASTIC_MAX (g : Nat) : Fld := ⟨0x9, 0x134 + 0x80 * g, 15, 0⟩
def REF_GRP_LIMITS_SKEW_MAX (g : Nat) : Fld := ⟨0x9, 0x134 + 0x80 * g, 31, 16⟩
def REF_GRP_MARGINS (g : Nat) : Fld := ⟨0x9, 0x138 + 0x80 * g, 31, 0⟩
def REF_GRP_MARGINS_OUTLIER (g : Nat) : Fld := ⟨0x9, 0x138 + 0x80 * g, 15, 0⟩
def REF_GRP_MARGINS_LEAD_EXTRA (g : Nat) : Fld := ⟨0x9, 0x138 + 0x80 * g, 31, 16⟩
def REF_GRP_TRACK (g : Nat) : Fld := ⟨0x9, 0x13c + 0x80 * g, 31, 0⟩
def REF_GRP_TRACK_GAIN (g : Nat) : Fld := ⟨0x9, 0x13c + 0x80 * g, 7, 0⟩
def REF_GRP_TRACK_ANCHOR (g : Nat) : Fld := ⟨0x9, 0x13c + 0x80 * g, 13, 8⟩
def REF_GRP_LEARN (g : Nat) : Fld := ⟨0x9, 0x140 + 0x80 * g, 31, 0⟩
def REF_GRP_LEARN_K (g : Nat) : Fld := ⟨0x9, 0x140 + 0x80 * g, 3, 0⟩
def REF_GRP_LEARN_START (g : Nat) : Fld := ⟨0x9, 0x140 + 0x80 * g, 4, 4⟩
def REF_GRP_LEARN_BASE (g : Nat) : Fld := ⟨0x9, 0x144 + 0x80 * g, 31, 0⟩
def REF_GRP_STATUS (g : Nat) : Fld := ⟨0x9, 0x148 + 0x80 * g, 31, 0⟩
def REF_GRP_STATUS_CONF (g : Nat) : Fld := ⟨0x9, 0x148 + 0x80 * g, 7, 0⟩
def REF_GRP_STATUS_HELD (g : Nat) : Fld := ⟨0x9, 0x148 + 0x80 * g, 8, 8⟩
def REF_GRP_STATUS_EXPIRED (g : Nat) : Fld := ⟨0x9, 0x148 + 0x80 * g, 9, 9⟩
def REF_GRP_STATUS_LEARNING (g : Nat) : Fld := ⟨0x9, 0x148 + 0x80 * g, 10, 10⟩
def REF_GRP_STATUS_LEARNED (g : Nat) : Fld := ⟨0x9, 0x148 + 0x80 * g, 11, 11⟩
def REF_GRP_STATUS_LEARN_COUNT (g : Nat) : Fld := ⟨0x9, 0x148 + 0x80 * g, 15, 12⟩
def REF_GRP_STATUS_HOLD_COUNT (g : Nat) : Fld := ⟨0x9, 0x148 + 0x80 * g, 31, 16⟩
def REF_GRP_SOL_DY (g : Nat) : Fld := ⟨0x9, 0x14c + 0x80 * g, 31, 0⟩
def REF_GRP_SOL_DX (g : Nat) : Fld := ⟨0x9, 0x150 + 0x80 * g, 31, 0⟩
def REF_GRP_SOL_SCALE (g : Nat) : Fld := ⟨0x9, 0x154 + 0x80 * g, 31, 0⟩
def REF_GRP_SOL_SKEW (g : Nat) : Fld := ⟨0x9, 0x158 + 0x80 * g, 31, 0⟩
def REF_GRP_INIT_DY (g : Nat) : Fld := ⟨0x9, 0x15c + 0x80 * g, 31, 0⟩
def REF_GRP_INIT_DX (g : Nat) : Fld := ⟨0x9, 0x160 + 0x80 * g, 31, 0⟩
def REF_GRP_INIT_SCALE (g : Nat) : Fld := ⟨0x9, 0x164 + 0x80 * g, 31, 0⟩
def REF_GRP_INIT_SKEW (g : Nat) : Fld := ⟨0x9, 0x168 + 0x80 * g, 31, 0⟩
def REF_GRP_HORIZON_REP (g : Nat) : Fld := ⟨0x9, 0x16c + 0x80 * g, 31, 0⟩
def REF_GRP_HORIZON_LINE (g : Nat) : Fld := ⟨0x9, 0x170 + 0x80 * g, 31, 0⟩
def REF_GRP_STITCH_RES (g : Nat) : Fld := ⟨0x9, 0x174 + 0x80 * g, 31, 0⟩
def REF_GRP_LATE (g : Nat) : Fld := ⟨0x9, 0x178 + 0x80 * g, 31, 0⟩
def REF_GRP_FAILS (g : Nat) : Fld := ⟨0x9, 0x17c + 0x80 * g, 31, 0⟩
def REF_GRP_NODE (g j : Nat) : Fld := ⟨0x9, 0x600 + 0x80 * g + 0x4 * j, 31, 0⟩

/-! SEG, block 0x0a (R235). -/

def SEG_ERR : Fld := ⟨0xa, 0x0, 31, 0⟩
def SEG_ERR_CFG_WHILE_RUN : Fld := ⟨0xa, 0x0, 0, 0⟩
def SEG_ERR_CFG_INVALID : Fld := ⟨0xa, 0x0, 1, 1⟩
def SEG_ERR_VERDICT_DUP : Fld := ⟨0xa, 0x0, 2, 2⟩
def SEG_ERR_VERDICT_BAD : Fld := ⟨0xa, 0x0, 3, 3⟩
def SEG_ERR_RUNS_FULL : Fld := ⟨0xa, 0x0, 4, 4⟩
def SEG_ERR_LABEL_FULL : Fld := ⟨0xa, 0x0, 5, 5⟩
def SEG_CLR : Fld := ⟨0xa, 0x4, 31, 0⟩
def SEG_CLR_COUNTERS : Fld := ⟨0xa, 0x4, 0, 0⟩
def SEG_GRP_CFG (g : Nat) : Fld := ⟨0xa, 0x100 + 0x40 * g, 31, 0⟩
def SEG_GRP_CFG_EN (g : Nat) : Fld := ⟨0xa, 0x100 + 0x40 * g, 0, 0⟩
def SEG_GRP_CFG_METRIC (g : Nat) : Fld := ⟨0xa, 0x100 + 0x40 * g, 2, 1⟩
def SEG_GRP_CFG_MORPH (g : Nat) : Fld := ⟨0xa, 0x100 + 0x40 * g, 5, 3⟩
def SEG_GRP_CFG_CLS_EN (g : Nat) : Fld := ⟨0xa, 0x100 + 0x40 * g, 6, 6⟩
def SEG_GRP_LUT_BASE (g : Nat) : Fld := ⟨0xa, 0x104 + 0x40 * g, 31, 0⟩
def SEG_GRP_WEIGHT_01 (g : Nat) : Fld := ⟨0xa, 0x108 + 0x40 * g, 31, 0⟩
def SEG_GRP_WEIGHT_01_W0 (g : Nat) : Fld := ⟨0xa, 0x108 + 0x40 * g, 15, 0⟩
def SEG_GRP_WEIGHT_01_W1 (g : Nat) : Fld := ⟨0xa, 0x108 + 0x40 * g, 31, 16⟩
def SEG_GRP_WEIGHT_2 (g : Nat) : Fld := ⟨0xa, 0x10c + 0x40 * g, 31, 0⟩
def SEG_GRP_WEIGHT_2_W2 (g : Nat) : Fld := ⟨0xa, 0x10c + 0x40 * g, 15, 0⟩
def SEG_GRP_SET_BASE (g : Nat) : Fld := ⟨0xa, 0x110 + 0x40 * g, 31, 0⟩
def SEG_GRP_MAXLEN (g : Nat) : Fld := ⟨0xa, 0x114 + 0x40 * g, 31, 0⟩
def SEG_GRP_OPEN (g : Nat) : Fld := ⟨0xa, 0x118 + 0x40 * g, 31, 0⟩
def SEG_GRP_OPEN_NOW (g : Nat) : Fld := ⟨0xa, 0x118 + 0x40 * g, 12, 0⟩
def SEG_GRP_OPEN_PEAK (g : Nat) : Fld := ⟨0xa, 0x118 + 0x40 * g, 28, 16⟩
def SEG_GRP_BRAMBLES (g : Nat) : Fld := ⟨0xa, 0x11c + 0x40 * g, 31, 0⟩
def SEG_GRP_REJECTED (g : Nat) : Fld := ⟨0xa, 0x120 + 0x40 * g, 31, 0⟩
def SEG_GRP_TRUNCATED (g : Nat) : Fld := ⟨0xa, 0x124 + 0x40 * g, 31, 0⟩
def SEG_GRP_UNLABELLED (g : Nat) : Fld := ⟨0xa, 0x128 + 0x40 * g, 31, 0⟩
def SEG_GRP_DROPPED (g : Nat) : Fld := ⟨0xa, 0x12c + 0x40 * g, 31, 0⟩
def SEG_GRP_NOVERDICT (g : Nat) : Fld := ⟨0xa, 0x130 + 0x40 * g, 31, 0⟩

/-! COL, block 0x0b (R236). -/

def COL_CTRL : Fld := ⟨0xb, 0x0, 31, 0⟩
def COL_CTRL_QUEUE : Fld := ⟨0xb, 0x0, 7, 0⟩
def COL_STATUS : Fld := ⟨0xb, 0x4, 31, 0⟩
def COL_STATUS_TURN : Fld := ⟨0xb, 0x4, 2, 0⟩
def COL_STATUS_SERVING : Fld := ⟨0xb, 0x4, 3, 3⟩
def COL_ERR : Fld := ⟨0xb, 0x8, 31, 0⟩
def COL_ERR_CFG_WHILE_RUN : Fld := ⟨0xb, 0x8, 0, 0⟩
def COL_ERR_CFG_INVALID : Fld := ⟨0xb, 0x8, 1, 1⟩
def COL_ERR_QFULL : Fld := ⟨0xb, 0x8, 2, 2⟩
def COL_ERR_SLOT_FULL : Fld := ⟨0xb, 0x8, 3, 3⟩
def COL_ERR_MARK_FULL : Fld := ⟨0xb, 0x8, 4, 4⟩
def COL_CLR : Fld := ⟨0xb, 0xc, 31, 0⟩
def COL_CLR_COUNTERS : Fld := ⟨0xb, 0xc, 0, 0⟩
def COL_GRID_CTRL : Fld := ⟨0xb, 0x10, 31, 0⟩
def COL_GRID_CTRL_MODE : Fld := ⟨0xb, 0x10, 0, 0⟩
def COL_GRID_CTRL_CHAN : Fld := ⟨0xb, 0x10, 2, 1⟩
def COL_GRID_CTRL_LANES : Fld := ⟨0xb, 0x10, 14, 8⟩
def COL_GRID_CTRL_ROWS : Fld := ⟨0xb, 0x10, 24, 16⟩
def COL_GRID_LEN : Fld := ⟨0xb, 0x14, 31, 0⟩
def COL_GRID_ORIGIN : Fld := ⟨0xb, 0x18, 31, 0⟩
def COL_GRID_TOL : Fld := ⟨0xb, 0x1c, 31, 0⟩
def COL_GRID_LANE_BASE : Fld := ⟨0xb, 0x20, 31, 0⟩
def COL_GRID_ROW_BASE : Fld := ⟨0xb, 0x24, 31, 0⟩
def COL_GRID_REPEAT_BASE : Fld := ⟨0xb, 0x28, 31, 0⟩
def COL_GRID_SYNTH : Fld := ⟨0xb, 0x2c, 31, 0⟩
def COL_GRID_IGNORED : Fld := ⟨0xb, 0x30, 31, 0⟩
def COL_MARK_CTRL : Fld := ⟨0xb, 0x34, 31, 0⟩
def COL_MARK_CTRL_EN : Fld := ⟨0xb, 0x34, 0, 0⟩
def COL_MARK_CTRL_SNAP : Fld := ⟨0xb, 0x34, 1, 1⟩
def COL_MARK_CTRL_SAT : Fld := ⟨0xb, 0x34, 2, 2⟩
def COL_MARK_CTRL_MIN_GAP : Fld := ⟨0xb, 0x34, 31, 16⟩
def COL_MARK_CLASS (k : Nat) : Fld := ⟨0xb, 0x38 + 0x4 * k, 31, 0⟩
def COL_MARK_APPENDED : Fld := ⟨0xb, 0x58, 31, 0⟩
def COL_MARK_MERGED : Fld := ⟨0xb, 0x5c, 31, 0⟩
def COL_MARK_LOST : Fld := ⟨0xb, 0x60, 31, 0⟩
def COL_LATE_BANDS : Fld := ⟨0xb, 0x64, 31, 0⟩
def COL_CAPPED : Fld := ⟨0xb, 0x68, 31, 0⟩
def COL_LOST : Fld := ⟨0xb, 0x6c, 31, 0⟩
def COL_RECORDS : Fld := ⟨0xb, 0x70, 31, 0⟩

/-! ENG, block 0x0c (R262). -/

def ENG_ERR : Fld := ⟨0xc, 0x0, 31, 0⟩
def ENG_ERR_CFG_WHILE_RUN : Fld := ⟨0xc, 0x0, 0, 0⟩
def ENG_ERR_CFG_INVALID : Fld := ⟨0xc, 0x0, 1, 1⟩
def ENG_ERR_FAULT : Fld := ⟨0xc, 0x0, 2, 2⟩
def ENG_CLR : Fld := ⟨0xc, 0x4, 31, 0⟩
def ENG_CLR_COUNTERS : Fld := ⟨0xc, 0x4, 0, 0⟩
def ENG_FAULT_MAP (w : Nat) : Fld := ⟨0xc, 0x8 + 0x4 * w, 31, 0⟩
def ENG_CL_BAR_MASK (c : Nat) : Fld := ⟨0xc, 0x100 + 0x10 * c, 31, 0⟩
def ENG_CL_BAR_GEN (c : Nat) : Fld := ⟨0xc, 0x104 + 0x10 * c, 31, 0⟩
def ENG_INST_CFG (i : Nat) : Fld := ⟨0xc, 0x200 + 0x4 * i, 31, 0⟩
def ENG_INST_CFG_EN (i : Nat) : Fld := ⟨0xc, 0x200 + 0x4 * i, 0, 0⟩
def ENG_INST_CFG_CLASS (i : Nat) : Fld := ⟨0xc, 0x200 + 0x4 * i, 3, 1⟩
def ENG_INST_CFG_GROUP (i : Nat) : Fld := ⟨0xc, 0x200 + 0x4 * i, 6, 4⟩
def ENG_INST_CFG_FULL (i : Nat) : Fld := ⟨0xc, 0x200 + 0x4 * i, 7, 7⟩
def ENG_E_CFG (t : Nat) : Fld := ⟨0xc, 0x1000 + 0x40 * t, 31, 0⟩
def ENG_E_CFG_EN (t : Nat) : Fld := ⟨0xc, 0x1000 + 0x40 * t, 0, 0⟩
def ENG_E_CFG_KEEP (t : Nat) : Fld := ⟨0xc, 0x1000 + 0x40 * t, 1, 1⟩
def ENG_E_CFG_FAULT_STOP (t : Nat) : Fld := ⟨0xc, 0x1000 + 0x40 * t, 2, 2⟩
def ENG_E_CFG_INST (t : Nat) : Fld := ⟨0xc, 0x1000 + 0x40 * t, 7, 3⟩
def ENG_E_CFG_START_LAG (t : Nat) : Fld := ⟨0xc, 0x1000 + 0x40 * t, 11, 8⟩
def ENG_E_ENTRY_IB (t : Nat) : Fld := ⟨0xc, 0x1004 + 0x40 * t, 31, 0⟩
def ENG_E_ENTRY_IB_INIT (t : Nat) : Fld := ⟨0xc, 0x1004 + 0x40 * t, 10, 0⟩
def ENG_E_ENTRY_IB_BAND (t : Nat) : Fld := ⟨0xc, 0x1004 + 0x40 * t, 26, 16⟩
def ENG_E_ENTRY_A (t : Nat) : Fld := ⟨0xc, 0x1008 + 0x40 * t, 31, 0⟩
def ENG_E_ENTRY_A_ABORT (t : Nat) : Fld := ⟨0xc, 0x1008 + 0x40 * t, 10, 0⟩
def ENG_E_LOCAL_BASE (t : Nat) : Fld := ⟨0xc, 0x100c + 0x40 * t, 31, 0⟩
def ENG_E_BUDGET (t : Nat) : Fld := ⟨0xc, 0x1010 + 0x40 * t, 31, 0⟩
def ENG_E_IN0 (t : Nat) : Fld := ⟨0xc, 0x1014 + 0x40 * t, 31, 0⟩
def ENG_E_IN0_SRC (t : Nat) : Fld := ⟨0xc, 0x1014 + 0x40 * t, 7, 0⟩
def ENG_E_IN1 (t : Nat) : Fld := ⟨0xc, 0x1018 + 0x40 * t, 31, 0⟩
def ENG_E_IN1_SRC (t : Nat) : Fld := ⟨0xc, 0x1018 + 0x40 * t, 7, 0⟩
def ENG_E_OUT (t : Nat) : Fld := ⟨0xc, 0x101c + 0x40 * t, 31, 0⟩
def ENG_E_OUT_DST (t : Nat) : Fld := ⟨0xc, 0x101c + 0x40 * t, 7, 0⟩
def ENG_E_OUT_QUEUE (t : Nat) : Fld := ⟨0xc, 0x101c + 0x40 * t, 15, 8⟩
def ENG_E_STATUS (t : Nat) : Fld := ⟨0xc, 0x1020 + 0x40 * t, 31, 0⟩
def ENG_E_STATUS_STATE (t : Nat) : Fld := ⟨0xc, 0x1020 + 0x40 * t, 2, 0⟩
def ENG_E_STATUS_INIT_DONE (t : Nat) : Fld := ⟨0xc, 0x1020 + 0x40 * t, 3, 3⟩
def ENG_E_STATUS_FAULT (t : Nat) : Fld := ⟨0xc, 0x1020 + 0x40 * t, 7, 4⟩
def ENG_E_STATUS_WAIT (t : Nat) : Fld := ⟨0xc, 0x1020 + 0x40 * t, 10, 8⟩
def ENG_E_CYCLES_LAST (t : Nat) : Fld := ⟨0xc, 0x1024 + 0x40 * t, 31, 0⟩
def ENG_E_CYCLES_MAX (t : Nat) : Fld := ⟨0xc, 0x1028 + 0x40 * t, 31, 0⟩
def ENG_E_ERR (t : Nat) : Fld := ⟨0xc, 0x102c + 0x40 * t, 31, 0⟩
def ENG_E_ERR_FAULT (t : Nat) : Fld := ⟨0xc, 0x102c + 0x40 * t, 0, 0⟩
def ENG_E_ERR_OVER_BUDGET (t : Nat) : Fld := ⟨0xc, 0x102c + 0x40 * t, 1, 1⟩
def ENG_E_ERR_ABORT_HUNG (t : Nat) : Fld := ⟨0xc, 0x102c + 0x40 * t, 2, 2⟩
def ENG_E_ERR_IN_GAP (t : Nat) : Fld := ⟨0xc, 0x102c + 0x40 * t, 3, 3⟩
def ENG_E_ERR_OUT_LOST (t : Nat) : Fld := ⟨0xc, 0x102c + 0x40 * t, 4, 4⟩
def ENG_E_ERR_INIT_LATE (t : Nat) : Fld := ⟨0xc, 0x102c + 0x40 * t, 5, 5⟩
def ENG_E_ERR_DIV0 (t : Nat) : Fld := ⟨0xc, 0x102c + 0x40 * t, 6, 6⟩
def ENG_E_ERR_CFG_INVALID (t : Nat) : Fld := ⟨0xc, 0x102c + 0x40 * t, 7, 7⟩
def ENG_E_FAULT_PC (t : Nat) : Fld := ⟨0xc, 0x1030 + 0x40 * t, 31, 0⟩
def ENG_E_DBG (t : Nat) : Fld := ⟨0xc, 0x1034 + 0x40 * t, 31, 0⟩
def ENG_E_DBG_HALT (t : Nat) : Fld := ⟨0xc, 0x1034 + 0x40 * t, 0, 0⟩
def ENG_E_DBG_STEP (t : Nat) : Fld := ⟨0xc, 0x1034 + 0x40 * t, 1, 1⟩
def ENG_E_DBG_BP_EN (t : Nat) : Fld := ⟨0xc, 0x1034 + 0x40 * t, 2, 2⟩
def ENG_E_DBG_BP_ADDR (t : Nat) : Fld := ⟨0xc, 0x1034 + 0x40 * t, 14, 4⟩
def ENG_E_DBG_PIPOVR (t : Nat) : Fld := ⟨0xc, 0x1034 + 0x40 * t, 31, 28⟩
def ENG_E_DBG_SEL (t : Nat) : Fld := ⟨0xc, 0x1038 + 0x40 * t, 31, 0⟩
def ENG_E_DBG_SEL_REG (t : Nat) : Fld := ⟨0xc, 0x1038 + 0x40 * t, 7, 0⟩
def ENG_E_DBG_SEL_LANE (t : Nat) : Fld := ⟨0xc, 0x1038 + 0x40 * t, 11, 8⟩
def ENG_E_DBG_SEL_HIGH (t : Nat) : Fld := ⟨0xc, 0x1038 + 0x40 * t, 12, 12⟩
def ENG_E_DBG_DATA (t : Nat) : Fld := ⟨0xc, 0x103c + 0x40 * t, 31, 0⟩
def ENG_E_IN_LOST (t : Nat) : Fld := ⟨0xc, 0x3000 + 0x4 * t, 31, 0⟩

/-! CFG, block 0x0d (R287). -/

def CFG_CTRL : Fld := ⟨0xd, 0x0, 31, 0⟩
def CFG_CTRL_VIEW : Fld := ⟨0xd, 0x0, 0, 0⟩
def CFG_CTRL_ABORT : Fld := ⟨0xd, 0x0, 1, 1⟩
def CFG_STATUS : Fld := ⟨0xd, 0x4, 31, 0⟩
def CFG_STATUS_SHADOW : Fld := ⟨0xd, 0x4, 2, 0⟩
def CFG_STATUS_REF_READY : Fld := ⟨0xd, 0x4, 3, 3⟩
def CFG_STATUS_INIT_DONE : Fld := ⟨0xd, 0x4, 4, 4⟩
def CFG_STATUS_SESSION : Fld := ⟨0xd, 0x4, 10, 8⟩
def CFG_ERR : Fld := ⟨0xd, 0x8, 31, 0⟩
def CFG_ERR_REFUSED : Fld := ⟨0xd, 0x8, 0, 0⟩
def CFG_ERR_ARM_REFUSED : Fld := ⟨0xd, 0x8, 1, 1⟩
def CFG_ERR_MISSED : Fld := ⟨0xd, 0x8, 2, 2⟩
def CFG_ERR_DISARMED : Fld := ⟨0xd, 0x8, 3, 3⟩
def CFG_ERR_LATE_WRITE : Fld := ⟨0xd, 0x8, 4, 4⟩
def CFG_ERR_ABORT_LATE : Fld := ⟨0xd, 0x8, 5, 5⟩
def CFG_ERR_CFG_WHILE_RUN : Fld := ⟨0xd, 0x8, 6, 6⟩
def CFG_REFUSE : Fld := ⟨0xd, 0xc, 31, 0⟩
def CFG_REFUSE_CODE : Fld := ⟨0xd, 0xc, 7, 0⟩
def CFG_REFUSE_SECTION : Fld := ⟨0xd, 0xc, 19, 8⟩
def CFG_REFUSE_OFS : Fld := ⟨0xd, 0x10, 31, 0⟩
def CFG_ACTIVE_JOB : Fld := ⟨0xd, 0x14, 31, 0⟩
def CFG_SHADOW_JOB : Fld := ⟨0xd, 0x18, 31, 0⟩
def CFG_INSTALL_ID : Fld := ⟨0xd, 0x1c, 31, 0⟩
def CFG_SWAP_CTRL : Fld := ⟨0xd, 0x20, 31, 0⟩
def CFG_SWAP_CTRL_ARM : Fld := ⟨0xd, 0x20, 0, 0⟩
def CFG_SWAP_CTRL_DISARM : Fld := ⟨0xd, 0x20, 1, 1⟩
def CFG_SWAP_CTRL_MODE : Fld := ⟨0xd, 0x20, 2, 2⟩
def CFG_SWAP_CTRL_CATCHUP : Fld := ⟨0xd, 0x20, 3, 3⟩
def CFG_SWAP_CTRL_GRID_REL : Fld := ⟨0xd, 0x20, 4, 4⟩
def CFG_SWAP_POS_LO : Fld := ⟨0xd, 0x24, 31, 0⟩
def CFG_SWAP_POS_HI : Fld := ⟨0xd, 0x28, 31, 0⟩
def CFG_SWAP_BAND_LO : Fld := ⟨0xd, 0x2c, 31, 0⟩
def CFG_SWAP_BAND_HI : Fld := ⟨0xd, 0x30, 31, 0⟩
def CFG_SWAP_WEB_LO : Fld := ⟨0xd, 0x34, 31, 0⟩
def CFG_SWAP_WEB_HI : Fld := ⟨0xd, 0x38, 31, 0⟩
def CFG_SWAPS : Fld := ⟨0xd, 0x3c, 31, 0⟩
def CFG_LOAD_BYTES : Fld := ⟨0xd, 0x40, 31, 0⟩
def CFG_LOAD_RECORDS : Fld := ⟨0xd, 0x44, 31, 0⟩
def CFG_LOADS_REFUSED : Fld := ⟨0xd, 0x48, 31, 0⟩
def CFG_XOVER : Fld := ⟨0xd, 0x4c, 31, 0⟩
def CFG_XOVER_BLIND : Fld := ⟨0xd, 0x4c, 7, 0⟩

/-! POS, block 0x0e (R309). -/

def POS_CTRL : Fld := ⟨0xe, 0x0, 31, 0⟩
def POS_CTRL_WEB_CHAN : Fld := ⟨0xe, 0x0, 1, 0⟩
def POS_CTRL_LTG_EN : Fld := ⟨0xe, 0x0, 2, 2⟩
def POS_STATUS : Fld := ⟨0xe, 0x4, 31, 0⟩
def POS_STATUS_MOVING : Fld := ⟨0xe, 0x4, 0, 0⟩
def POS_STATUS_REVERSE : Fld := ⟨0xe, 0x4, 1, 1⟩
def POS_STATUS_STANDSTILL : Fld := ⟨0xe, 0x4, 2, 2⟩
def POS_STATUS_LTG_HELD : Fld := ⟨0xe, 0x4, 3, 3⟩
def POS_ERR : Fld := ⟨0xe, 0x8, 31, 0⟩
def POS_ERR_CFG_WHILE_RUN : Fld := ⟨0xe, 0x8, 0, 0⟩
def POS_ERR_CFG_INVALID : Fld := ⟨0xe, 0x8, 1, 1⟩
def POS_ERR_OVERRATE : Fld := ⟨0xe, 0x8, 2, 2⟩
def POS_ERR_ABS_FAULT : Fld := ⟨0xe, 0x8, 3, 3⟩
def POS_ERR_MARK_OWNED : Fld := ⟨0xe, 0x8, 4, 4⟩
def POS_CLR : Fld := ⟨0xe, 0xc, 31, 0⟩
def POS_CLR_COUNTERS : Fld := ⟨0xe, 0xc, 0, 0⟩
def POS_UM_PER_COUNT_LO : Fld := ⟨0xe, 0x10, 31, 0⟩
def POS_UM_PER_COUNT_LO_FRAC : Fld := ⟨0xe, 0x10, 31, 0⟩
def POS_UM_PER_COUNT_HI : Fld := ⟨0xe, 0x14, 31, 0⟩
def POS_UM_PER_COUNT_HI_INT : Fld := ⟨0xe, 0x14, 15, 0⟩
def POS_LTG_DIV_LO : Fld := ⟨0xe, 0x18, 31, 0⟩
def POS_LTG_DIV_LO_FRAC : Fld := ⟨0xe, 0x18, 31, 0⟩
def POS_LTG_DIV_HI : Fld := ⟨0xe, 0x1c, 31, 0⟩
def POS_LTG_DIV_HI_INT : Fld := ⟨0xe, 0x1c, 31, 0⟩
def POS_LTG_NEXT_LO : Fld := ⟨0xe, 0x20, 31, 0⟩
def POS_LTG_NEXT_HI : Fld := ⟨0xe, 0x24, 31, 0⟩
def POS_LTG_TICKS : Fld := ⟨0xe, 0x28, 31, 0⟩
def POS_STANDSTILL : Fld := ⟨0xe, 0x2c, 31, 0⟩
def POS_STANDSTILL_MS : Fld := ⟨0xe, 0x2c, 15, 0⟩
def POS_WEB_SPEED : Fld := ⟨0xe, 0x30, 31, 0⟩
def POS_MARK_CTRL : Fld := ⟨0xe, 0x34, 31, 0⟩
def POS_MARK_CTRL_EN : Fld := ⟨0xe, 0x34, 0, 0⟩
def POS_MARK_CTRL_UNIT : Fld := ⟨0xe, 0x34, 4, 1⟩
def POS_MARK_CTRL_WIDTH : Fld := ⟨0xe, 0x34, 31, 16⟩
def POS_MARK_OFFSET : Fld := ⟨0xe, 0x38, 31, 0⟩
def POS_MARK_MISSED : Fld := ⟨0xe, 0x3c, 31, 0⟩
def POS_CH_CFG (c : Nat) : Fld := ⟨0xe, 0x100 + 0x40 * c, 31, 0⟩
def POS_CH_CFG_DECODE (c : Nat) : Fld := ⟨0xe, 0x100 + 0x40 * c, 1, 0⟩
def POS_CH_CFG_INVERT (c : Nat) : Fld := ⟨0xe, 0x100 + 0x40 * c, 2, 2⟩
def POS_CH_CFG_ZGATE (c : Nat) : Fld := ⟨0xe, 0x100 + 0x40 * c, 3, 3⟩
def POS_CH_CFG_ZMODE (c : Nat) : Fld := ⟨0xe, 0x100 + 0x40 * c, 5, 4⟩
def POS_CH_CFG_ARM (c : Nat) : Fld := ⟨0xe, 0x100 + 0x40 * c, 6, 6⟩
def POS_CH_CFG_SPD_AVG (c : Nat) : Fld := ⟨0xe, 0x100 + 0x40 * c, 9, 7⟩
def POS_CH_CFG_MIN_EDGE (c : Nat) : Fld := ⟨0xe, 0x100 + 0x40 * c, 31, 16⟩
def POS_CH_STATUS (c : Nat) : Fld := ⟨0xe, 0x104 + 0x40 * c, 31, 0⟩
def POS_CH_STATUS_MOVING (c : Nat) : Fld := ⟨0xe, 0x104 + 0x40 * c, 0, 0⟩
def POS_CH_STATUS_REVERSE (c : Nat) : Fld := ⟨0xe, 0x104 + 0x40 * c, 1, 1⟩
def POS_CH_STATUS_STANDSTILL (c : Nat) : Fld := ⟨0xe, 0x104 + 0x40 * c, 2, 2⟩
def POS_CH_STATUS_A (c : Nat) : Fld := ⟨0xe, 0x104 + 0x40 * c, 3, 3⟩
def POS_CH_STATUS_B (c : Nat) : Fld := ⟨0xe, 0x104 + 0x40 * c, 4, 4⟩
def POS_CH_STATUS_Z (c : Nat) : Fld := ⟨0xe, 0x104 + 0x40 * c, 5, 5⟩
def POS_CH_COUNT_LO (c : Nat) : Fld := ⟨0xe, 0x108 + 0x40 * c, 31, 0⟩
def POS_CH_COUNT_HI (c : Nat) : Fld := ⟨0xe, 0x10c + 0x40 * c, 31, 0⟩
def POS_CH_TRAVEL_LO (c : Nat) : Fld := ⟨0xe, 0x110 + 0x40 * c, 31, 0⟩
def POS_CH_TRAVEL_HI (c : Nat) : Fld := ⟨0xe, 0x114 + 0x40 * c, 31, 0⟩
def POS_CH_ZCAP_LO (c : Nat) : Fld := ⟨0xe, 0x118 + 0x40 * c, 31, 0⟩
def POS_CH_ZCAP_HI (c : Nat) : Fld := ⟨0xe, 0x11c + 0x40 * c, 31, 0⟩
def POS_CH_ZCOUNT (c : Nat) : Fld := ⟨0xe, 0x120 + 0x40 * c, 31, 0⟩
def POS_CH_ZPRESET (c : Nat) : Fld := ⟨0xe, 0x124 + 0x40 * c, 31, 0⟩
def POS_CH_PERIOD (c : Nat) : Fld := ⟨0xe, 0x128 + 0x40 * c, 31, 0⟩
def POS_CH_SPEED (c : Nat) : Fld := ⟨0xe, 0x12c + 0x40 * c, 31, 0⟩
def POS_CH_FILT_FAULTS (c : Nat) : Fld := ⟨0xe, 0x130 + 0x40 * c, 31, 0⟩
def POS_CH_QUAD_FAULTS (c : Nat) : Fld := ⟨0xe, 0x134 + 0x40 * c, 31, 0⟩
def POS_CH_ZWEB_LO (c : Nat) : Fld := ⟨0xe, 0x138 + 0x40 * c, 31, 0⟩
def POS_CH_ZWEB_HI (c : Nat) : Fld := ⟨0xe, 0x13c + 0x40 * c, 31, 0⟩
def POS_ABS_CFG (a : Nat) : Fld := ⟨0xe, 0x200 + 0x20 * a, 31, 0⟩
def POS_ABS_CFG_EN (a : Nat) : Fld := ⟨0xe, 0x200 + 0x20 * a, 0, 0⟩
def POS_ABS_CFG_PROTO (a : Nat) : Fld := ⟨0xe, 0x200 + 0x20 * a, 1, 1⟩
def POS_ABS_CFG_GRAY (a : Nat) : Fld := ⟨0xe, 0x200 + 0x20 * a, 2, 2⟩
def POS_ABS_CFG_BITS (a : Nat) : Fld := ⟨0xe, 0x200 + 0x20 * a, 9, 3⟩
def POS_ABS_CFG_CLKDIV (a : Nat) : Fld := ⟨0xe, 0x200 + 0x20 * a, 23, 16⟩
def POS_ABS_CFG_ERR_LIMIT (a : Nat) : Fld := ⟨0xe, 0x200 + 0x20 * a, 27, 24⟩
def POS_ABS_PERIOD (a : Nat) : Fld := ⟨0xe, 0x204 + 0x20 * a, 31, 0⟩
def POS_ABS_PERIOD_US (a : Nat) : Fld := ⟨0xe, 0x204 + 0x20 * a, 15, 0⟩
def POS_ABS_POSITION_LO (a : Nat) : Fld := ⟨0xe, 0x208 + 0x20 * a, 31, 0⟩
def POS_ABS_POSITION_HI (a : Nat) : Fld := ⟨0xe, 0x20c + 0x20 * a, 31, 0⟩
def POS_ABS_SPEED (a : Nat) : Fld := ⟨0xe, 0x210 + 0x20 * a, 31, 0⟩
def POS_ABS_SPD_PERIOD (a : Nat) : Fld := ⟨0xe, 0x214 + 0x20 * a, 31, 0⟩
def POS_ABS_STATUS (a : Nat) : Fld := ⟨0xe, 0x218 + 0x20 * a, 31, 0⟩
def POS_ABS_STATUS_VALID (a : Nat) : Fld := ⟨0xe, 0x218 + 0x20 * a, 0, 0⟩
def POS_ABS_STATUS_FAULT (a : Nat) : Fld := ⟨0xe, 0x218 + 0x20 * a, 1, 1⟩
def POS_ABS_STATUS_WARN (a : Nat) : Fld := ⟨0xe, 0x218 + 0x20 * a, 2, 2⟩
def POS_ABS_STATUS_REVERSE (a : Nat) : Fld := ⟨0xe, 0x218 + 0x20 * a, 3, 3⟩
def POS_ABS_ERRORS (a : Nat) : Fld := ⟨0xe, 0x21c + 0x20 * a, 31, 0⟩
def POS_CMP_CTRL (u : Nat) : Fld := ⟨0xe, 0x400 + 0x20 * u, 31, 0⟩
def POS_CMP_CTRL_EN (u : Nat) : Fld := ⟨0xe, 0x400 + 0x20 * u, 0, 0⟩
def POS_CMP_CTRL_CATCHUP (u : Nat) : Fld := ⟨0xe, 0x400 + 0x20 * u, 1, 1⟩
def POS_CMP_CTRL_MODE (u : Nat) : Fld := ⟨0xe, 0x400 + 0x20 * u, 3, 2⟩
def POS_CMP_CTRL_CHAN (u : Nat) : Fld := ⟨0xe, 0x400 + 0x20 * u, 6, 4⟩
def POS_CMP_CTRL_CTR (u : Nat) : Fld := ⟨0xe, 0x400 + 0x20 * u, 7, 7⟩
def POS_CMP_CTRL_RESTART (u : Nat) : Fld := ⟨0xe, 0x400 + 0x20 * u, 8, 8⟩
def POS_CMP_BASE (u : Nat) : Fld := ⟨0xe, 0x404 + 0x20 * u, 31, 0⟩
def POS_CMP_LEN (u : Nat) : Fld := ⟨0xe, 0x408 + 0x20 * u, 31, 0⟩
def POS_CMP_RD (u : Nat) : Fld := ⟨0xe, 0x40c + 0x20 * u, 31, 0⟩
def POS_CMP_WR (u : Nat) : Fld := ⟨0xe, 0x410 + 0x20 * u, 31, 0⟩
def POS_CMP_STATUS (u : Nat) : Fld := ⟨0xe, 0x414 + 0x20 * u, 31, 0⟩
def POS_CMP_STATUS_MISSED (u : Nat) : Fld := ⟨0xe, 0x414 + 0x20 * u, 0, 0⟩
def POS_CMP_STATUS_DONE (u : Nat) : Fld := ⟨0xe, 0x414 + 0x20 * u, 1, 1⟩
def POS_CMP_STATUS_HIGH (u : Nat) : Fld := ⟨0xe, 0x414 + 0x20 * u, 2, 2⟩
def POS_CMP_STATUS_OVERLAP (u : Nat) : Fld := ⟨0xe, 0x414 + 0x20 * u, 3, 3⟩
def POS_CMP_STATUS_EMPTY (u : Nat) : Fld := ⟨0xe, 0x414 + 0x20 * u, 4, 4⟩
def POS_CMP_FIRED (u : Nat) : Fld := ⟨0xe, 0x418 + 0x20 * u, 31, 0⟩
def POS_CMP_MISSED_COUNT (u : Nat) : Fld := ⟨0xe, 0x41c + 0x20 * u, 31, 0⟩
def POS_TRIG_CFG (o : Nat) : Fld := ⟨0xe, 0x600 + 0x4 * o, 31, 0⟩
def POS_TRIG_CFG_OE (o : Nat) : Fld := ⟨0xe, 0x600 + 0x4 * o, 0, 0⟩
def POS_TRIG_CFG_INV (o : Nat) : Fld := ⟨0xe, 0x600 + 0x4 * o, 1, 1⟩
def POS_TRIG_CFG_SRC (o : Nat) : Fld := ⟨0xe, 0x600 + 0x4 * o, 4, 2⟩
def POS_TRIG_CFG_UNIT (o : Nat) : Fld := ⟨0xe, 0x600 + 0x4 * o, 13, 8⟩
def POS_TRIG_CFG_W (o : Nat) : Fld := ⟨0xe, 0x600 + 0x4 * o, 31, 16⟩

/-! TIM, block 0x0f (R330). -/

def TIM_CTRL : Fld := ⟨0xf, 0x0, 31, 0⟩
def TIM_CTRL_PTP_EN : Fld := ⟨0xf, 0x0, 0, 0⟩
def TIM_CTRL_SEC_EN : Fld := ⟨0xf, 0x0, 1, 1⟩
def TIM_CTRL_REVERT : Fld := ⟨0xf, 0x0, 2, 2⟩
def TIM_CTRL_PROFILE : Fld := ⟨0xf, 0x0, 3, 3⟩
def TIM_CTRL_DELAY : Fld := ⟨0xf, 0x0, 4, 4⟩
def TIM_CTRL_TRANSPORT : Fld := ⟨0xf, 0x0, 6, 5⟩
def TIM_CTRL_TWO_STEP : Fld := ⟨0xf, 0x0, 7, 7⟩
def TIM_CTRL_TC_EN : Fld := ⟨0xf, 0x0, 8, 8⟩
def TIM_STATUS : Fld := ⟨0xf, 0x4, 31, 0⟩
def TIM_STATUS_SEL : Fld := ⟨0xf, 0x4, 1, 0⟩
def TIM_STATUS_SLEWING : Fld := ⟨0xf, 0x4, 2, 2⟩
def TIM_STATUS_PRI_LOCK : Fld := ⟨0xf, 0x4, 3, 3⟩
def TIM_STATUS_SEC_LOCK : Fld := ⟨0xf, 0x4, 4, 4⟩
def TIM_ERR : Fld := ⟨0xf, 0x8, 31, 0⟩
def TIM_ERR_STEP : Fld := ⟨0xf, 0x8, 0, 0⟩
def TIM_ERR_SWITCH : Fld := ⟨0xf, 0x8, 1, 1⟩
def TIM_ERR_LATE : Fld := ⟨0xf, 0x8, 2, 2⟩
def TIM_ERR_DROPPED : Fld := ⟨0xf, 0x8, 3, 3⟩
def TIM_ERR_SLOT_BUSY : Fld := ⟨0xf, 0x8, 4, 4⟩
def TIM_ERR_CFG_INVALID : Fld := ⟨0xf, 0x8, 5, 5⟩
def TIM_ERR_CFG_WHILE_EN : Fld := ⟨0xf, 0x8, 6, 6⟩
def TIM_STEP_LIMIT : Fld := ⟨0xf, 0xc, 31, 0⟩
def TIM_SLEW_MAX : Fld := ⟨0xf, 0x10, 31, 0⟩
def TIM_DOMAIN : Fld := ⟨0xf, 0x14, 31, 0⟩
def TIM_DOMAIN_PRI : Fld := ⟨0xf, 0x14, 6, 0⟩
def TIM_DOMAIN_SEC : Fld := ⟨0xf, 0x14, 14, 8⟩
def TIM_QUAL : Fld := ⟨0xf, 0x18, 31, 0⟩
def TIM_QUAL_OFS_LIMIT : Fld := ⟨0xf, 0x18, 15, 0⟩
def TIM_QUAL_COUNT : Fld := ⟨0xf, 0x18, 23, 16⟩
def TIM_QUAL_CLASS_MAX : Fld := ⟨0xf, 0x18, 31, 24⟩
def TIM_ANNOUNCE : Fld := ⟨0xf, 0x1c, 31, 0⟩
def TIM_ANNOUNCE_TIMEOUT : Fld := ⟨0xf, 0x1c, 3, 0⟩
def TIM_ANNOUNCE_REVERT_S : Fld := ⟨0xf, 0x1c, 23, 8⟩
def TIM_VLAN : Fld := ⟨0xf, 0x20, 31, 0⟩
def TIM_VLAN_VID : Fld := ⟨0xf, 0x20, 11, 0⟩
def TIM_VLAN_TAGGED : Fld := ⟨0xf, 0x20, 12, 12⟩
def TIM_VLAN_PCP : Fld := ⟨0xf, 0x20, 15, 13⟩
def TIM_STEPS : Fld := ⟨0xf, 0x24, 31, 0⟩
def TIM_STEP_LAST_LO : Fld := ⟨0xf, 0x28, 31, 0⟩
def TIM_STEP_LAST_HI : Fld := ⟨0xf, 0x2c, 31, 0⟩
def TIM_STEP_TB0_LO : Fld := ⟨0xf, 0x30, 31, 0⟩
def TIM_STEP_TB0_HI : Fld := ⟨0xf, 0x34, 31, 0⟩
def TIM_SWITCHES : Fld := ⟨0xf, 0x38, 31, 0⟩
def TIM_TB_NS_LO (k : Nat) : Fld := ⟨0xf, 0x100 + 0x20 * k, 31, 0⟩
def TIM_TB_NS_HI (k : Nat) : Fld := ⟨0xf, 0x104 + 0x20 * k, 31, 0⟩
def TIM_TB_RATE (k : Nat) : Fld := ⟨0xf, 0x108 + 0x20 * k, 31, 0⟩
def TIM_TB3_RATE : Fld := ⟨0xf, 0x168, 31, 0⟩
def TIM_TB3_STEP_LO : Fld := ⟨0xf, 0x16c, 31, 0⟩
def TIM_TB3_STEP_HI : Fld := ⟨0xf, 0x170, 31, 0⟩
def TIM_TB_STATUS (k : Nat) : Fld := ⟨0xf, 0x114 + 0x20 * k, 31, 0⟩
def TIM_TB_STATUS_VALID (k : Nat) : Fld := ⟨0xf, 0x114 + 0x20 * k, 0, 0⟩
def TIM_TB_STATUS_SLEWING (k : Nat) : Fld := ⟨0xf, 0x114 + 0x20 * k, 1, 1⟩
def TIM_TB3_SET_LO : Fld := ⟨0xf, 0x178, 31, 0⟩
def TIM_TB3_SET_HI : Fld := ⟨0xf, 0x17c, 31, 0⟩
def TIM_DOM_OFFSET (d : Nat) : Fld := ⟨0xf, 0x200 + 0x20 * d, 31, 0⟩
def TIM_DOM_DELAY (d : Nat) : Fld := ⟨0xf, 0x204 + 0x20 * d, 31, 0⟩
def TIM_DOM_GM_ID_LO (d : Nat) : Fld := ⟨0xf, 0x208 + 0x20 * d, 31, 0⟩
def TIM_DOM_GM_ID_HI (d : Nat) : Fld := ⟨0xf, 0x20c + 0x20 * d, 31, 0⟩
def TIM_DOM_GM_QUAL (d : Nat) : Fld := ⟨0xf, 0x210 + 0x20 * d, 31, 0⟩
def TIM_DOM_GM_QUAL_CLASS (d : Nat) : Fld := ⟨0xf, 0x210 + 0x20 * d, 7, 0⟩
def TIM_DOM_GM_QUAL_ACCURACY (d : Nat) : Fld := ⟨0xf, 0x210 + 0x20 * d, 15, 8⟩
def TIM_DOM_GM_QUAL_VARIANCE (d : Nat) : Fld := ⟨0xf, 0x210 + 0x20 * d, 31, 16⟩
def TIM_DOM_STATE (d : Nat) : Fld := ⟨0xf, 0x214 + 0x20 * d, 31, 0⟩
def TIM_DOM_STATE_STATE (d : Nat) : Fld := ⟨0xf, 0x214 + 0x20 * d, 2, 0⟩
def TIM_DOM_STATE_PORT (d : Nat) : Fld := ⟨0xf, 0x214 + 0x20 * d, 3, 3⟩
def TIM_DOM_SYNC_RX (d : Nat) : Fld := ⟨0xf, 0x218 + 0x20 * d, 31, 0⟩
def TIM_DOM_ANN_TMO (d : Nat) : Fld := ⟨0xf, 0x21c + 0x20 * d, 31, 0⟩
def TIM_PORT_LAT_RX (p : Nat) : Fld := ⟨0xf, 0x300 + 0x10 * p, 31, 0⟩
def TIM_PORT_LAT_TX (p : Nat) : Fld := ⟨0xf, 0x304 + 0x10 * p, 31, 0⟩
def TIM_PORT_PDELAY (p : Nat) : Fld := ⟨0xf, 0x308 + 0x10 * p, 31, 0⟩
def TIM_PORT_TC_FRAMES (p : Nat) : Fld := ⟨0xf, 0x30c + 0x10 * p, 31, 0⟩
def TIM_ACT_CTRL (s : Nat) : Fld := ⟨0xf, 0x800 + 0x20 * s, 31, 0⟩
def TIM_ACT_CTRL_ARM (s : Nat) : Fld := ⟨0xf, 0x800 + 0x20 * s, 0, 0⟩
def TIM_ACT_CTRL_DISARM (s : Nat) : Fld := ⟨0xf, 0x800 + 0x20 * s, 1, 1⟩
def TIM_ACT_CTRL_TB (s : Nat) : Fld := ⟨0xf, 0x800 + 0x20 * s, 3, 2⟩
def TIM_ACT_CTRL_ACTION (s : Nat) : Fld := ⟨0xf, 0x800 + 0x20 * s, 5, 4⟩
def TIM_ACT_CTRL_DROP_LATE (s : Nat) : Fld := ⟨0xf, 0x800 + 0x20 * s, 6, 6⟩
def TIM_ACT_CTRL_ARG (s : Nat) : Fld := ⟨0xf, 0x800 + 0x20 * s, 15, 8⟩
def TIM_ACT_TIME_LO (s : Nat) : Fld := ⟨0xf, 0x804 + 0x20 * s, 31, 0⟩
def TIM_ACT_TIME_HI (s : Nat) : Fld := ⟨0xf, 0x808 + 0x20 * s, 31, 0⟩
def TIM_ACT_PERIOD (s : Nat) : Fld := ⟨0xf, 0x80c + 0x20 * s, 31, 0⟩
def TIM_ACT_STATUS (s : Nat) : Fld := ⟨0xf, 0x810 + 0x20 * s, 31, 0⟩
def TIM_ACT_STATUS_PENDING (s : Nat) : Fld := ⟨0xf, 0x810 + 0x20 * s, 0, 0⟩
def TIM_ACT_STATUS_DONE (s : Nat) : Fld := ⟨0xf, 0x810 + 0x20 * s, 1, 1⟩
def TIM_ACT_STATUS_LATE (s : Nat) : Fld := ⟨0xf, 0x810 + 0x20 * s, 2, 2⟩
def TIM_ACT_STATUS_DROPPED (s : Nat) : Fld := ⟨0xf, 0x810 + 0x20 * s, 3, 3⟩
def TIM_ACT_STATUS_NO_TARGET (s : Nat) : Fld := ⟨0xf, 0x810 + 0x20 * s, 4, 4⟩
def TIM_ACT_STATUS_ABORT_LATE (s : Nat) : Fld := ⟨0xf, 0x810 + 0x20 * s, 5, 5⟩
def TIM_ACT_COUNT (s : Nat) : Fld := ⟨0xf, 0x814 + 0x20 * s, 31, 0⟩
def TIM_ACT_DROPS (s : Nat) : Fld := ⟨0xf, 0x818 + 0x20 * s, 31, 0⟩
def TIM_ACT_EXEC (s : Nat) : Fld := ⟨0xf, 0x81c + 0x20 * s, 31, 0⟩

/-! ETH, block 0x10 (R357). -/

def ETH_CFG : Fld := ⟨0x10, 0x0, 31, 0⟩
def ETH_CFG_EN : Fld := ⟨0x10, 0x0, 0, 0⟩
def ETH_CFG_MODE : Fld := ⟨0x10, 0x0, 2, 1⟩
def ETH_STATUS : Fld := ⟨0x10, 0x4, 31, 0⟩
def ETH_STATUS_LINK : Fld := ⟨0x10, 0x4, 0, 0⟩
def ETH_STATUS_SPEED : Fld := ⟨0x10, 0x4, 1, 1⟩
def ETH_STATUS_ALIGN : Fld := ⟨0x10, 0x4, 2, 2⟩
def ETH_STATUS_FEC_DEGRADED : Fld := ⟨0x10, 0x4, 3, 3⟩
def ETH_ERR : Fld := ⟨0x10, 0x8, 31, 0⟩
def ETH_ERR_LEN : Fld := ⟨0x10, 0x8, 0, 0⟩
def ETH_ERR_FCS : Fld := ⟨0x10, 0x8, 1, 1⟩
def ETH_ERR_PASS_DROP : Fld := ⟨0x10, 0x8, 2, 2⟩
def ETH_ERR_STOMP : Fld := ⟨0x10, 0x8, 3, 3⟩
def ETH_ERR_LBUF_BUSY : Fld := ⟨0x10, 0x8, 4, 4⟩
def ETH_ERR_CFG_WHILE_EN : Fld := ⟨0x10, 0x8, 5, 5⟩
def ETH_ERR_LINK_LOST : Fld := ⟨0x10, 0x8, 6, 6⟩
def ETH_CLR : Fld := ⟨0x10, 0xc, 31, 0⟩
def ETH_CLR_COUNTERS : Fld := ⟨0x10, 0xc, 0, 0⟩
def ETH_MAC_LO : Fld := ⟨0x10, 0x10, 31, 0⟩
def ETH_MAC_HI : Fld := ⟨0x10, 0x14, 31, 0⟩
def ETH_VLAN : Fld := ⟨0x10, 0x18, 31, 0⟩
def ETH_VLAN_VID : Fld := ⟨0x10, 0x18, 11, 0⟩
def ETH_VLAN_TAGGED : Fld := ⟨0x10, 0x18, 12, 12⟩
def ETH_PASS_Q : Fld := ⟨0x10, 0x1c, 31, 0⟩
def ETH_QLIM (q : Nat) : Fld := ⟨0x10, 0x20 + 0x4 * q, 31, 0⟩
def ETH_RX_FRAMES : Fld := ⟨0x10, 0x40, 31, 0⟩
def ETH_RX_FCS_ERR : Fld := ⟨0x10, 0x44, 31, 0⟩
def ETH_RX_LEN_ERR : Fld := ⟨0x10, 0x48, 31, 0⟩
def ETH_RX_MACCTRL : Fld := ⟨0x10, 0x4c, 31, 0⟩
def ETH_TX_FRAMES : Fld := ⟨0x10, 0x50, 31, 0⟩
def ETH_PASS_FRAMES : Fld := ⟨0x10, 0x54, 31, 0⟩
def ETH_PASS_DROP : Fld := ⟨0x10, 0x58, 31, 0⟩
def ETH_PASS_STOMP : Fld := ⟨0x10, 0x5c, 31, 0⟩
def ETH_FEC_CORR : Fld := ⟨0x10, 0x60, 31, 0⟩
def ETH_FEC_UNCORR : Fld := ⟨0x10, 0x64, 31, 0⟩
def ETH_REF_DROP : Fld := ⟨0x10, 0x68, 31, 0⟩
def ETH_REF_STRIPES : Fld := ⟨0x10, 0x6c, 31, 0⟩
def ETH_LBUF_LEN (b : Nat) : Fld := ⟨0x10, 0x100 + 0x4 * b, 31, 0⟩
def ETH_LBUF (w : Nat) : Fld := ⟨0x10, 0x8000 + 0x4 * w, 31, 0⟩

/-! CHN, block 0x11 (R358). -/

def CHN_ADDR : Fld := ⟨0x11, 0x0, 31, 0⟩
def CHN_ADDR_ADDR : Fld := ⟨0x11, 0x0, 5, 0⟩
def CHN_ADDR_LOCK : Fld := ⟨0x11, 0x0, 6, 6⟩
def CHN_STATUS : Fld := ⟨0x11, 0x4, 31, 0⟩
def CHN_STATUS_POSITION : Fld := ⟨0x11, 0x4, 5, 0⟩
def CHN_STATUS_RPOSITION : Fld := ⟨0x11, 0x4, 13, 8⟩
def CHN_ERR : Fld := ⟨0x11, 0x8, 31, 0⟩
def CHN_ERR_CONFLICT : Fld := ⟨0x11, 0x8, 0, 0⟩
def CHN_ERR_RANGE : Fld := ⟨0x11, 0x8, 1, 1⟩
def CHN_ERR_LCP_BAD : Fld := ⟨0x11, 0x8, 2, 2⟩
def CHN_CLR : Fld := ⟨0x11, 0xc, 31, 0⟩
def CHN_CLR_COUNTERS : Fld := ⟨0x11, 0xc, 0, 0⟩
def CHN_LCP_CTRL : Fld := ⟨0x11, 0x10, 31, 0⟩
def CHN_LCP_CTRL_UDP_PORT : Fld := ⟨0x11, 0x10, 15, 0⟩
def CHN_LCP_CTRL_TMO : Fld := ⟨0x11, 0x10, 23, 16⟩
def CHN_LCP_CTRL_QUEUE : Fld := ⟨0x11, 0x10, 26, 24⟩
def CHN_IPV4 : Fld := ⟨0x11, 0x14, 31, 0⟩
def CHN_IPV6_0 : Fld := ⟨0x11, 0x18, 31, 0⟩
def CHN_IPV6_1 : Fld := ⟨0x11, 0x1c, 31, 0⟩
def CHN_IPV6_2 : Fld := ⟨0x11, 0x20, 31, 0⟩
def CHN_IPV6_3 : Fld := ⟨0x11, 0x24, 31, 0⟩
def CHN_SRC_PORT : Fld := ⟨0x11, 0x28, 31, 0⟩
def CHN_SESS (k : Nat) : Fld := ⟨0x11, 0x44 + 0x4 * k, 31, 0⟩
def CHN_SESS_OPEN (k : Nat) : Fld := ⟨0x11, 0x44 + 0x4 * k, 0, 0⟩
def CHN_SESS_UDP (k : Nat) : Fld := ⟨0x11, 0x44 + 0x4 * k, 1, 1⟩
def CHN_SESS_IMAGE (k : Nat) : Fld := ⟨0x11, 0x44 + 0x4 * k, 2, 2⟩
def CHN_SESS_NOTIFY (k : Nat) : Fld := ⟨0x11, 0x44 + 0x4 * k, 3, 3⟩
def CHN_SESS_IDLE_S (k : Nat) : Fld := ⟨0x11, 0x44 + 0x4 * k, 31, 16⟩
def CHN_SESS_CLOSE : Fld := ⟨0x11, 0x60, 31, 0⟩
def CHN_CONFLICTS : Fld := ⟨0x11, 0x64, 31, 0⟩
def CHN_LCP_BAD : Fld := ⟨0x11, 0x68, 31, 0⟩
def CHN_LCP_REQS : Fld := ⟨0x11, 0x6c, 31, 0⟩
def CHN_NOTIFY_SENT : Fld := ⟨0x11, 0x70, 31, 0⟩
def CHN_NOTIFY_LOST : Fld := ⟨0x11, 0x74, 31, 0⟩
def CHN_NOTIFY_GIVEUP : Fld := ⟨0x11, 0x78, 31, 0⟩

/-! OUT, block 0x12 (R359). -/

def OUT_ERR : Fld := ⟨0x12, 0x0, 31, 0⟩
def OUT_ERR_CFG_INVALID : Fld := ⟨0x12, 0x0, 0, 0⟩
def OUT_ERR_LATE_WRITE : Fld := ⟨0x12, 0x0, 1, 1⟩
def OUT_ERR_DROP : Fld := ⟨0x12, 0x0, 2, 2⟩
def OUT_CLR : Fld := ⟨0x12, 0x4, 31, 0⟩
def OUT_CLR_COUNTERS : Fld := ⟨0x12, 0x4, 0, 0⟩
def OUT_DST_MAC_LO (d : Nat) : Fld := ⟨0x12, 0x100 + 0x20 * d, 31, 0⟩
def OUT_DST_MAC_HI (d : Nat) : Fld := ⟨0x12, 0x104 + 0x20 * d, 31, 0⟩
def OUT_DST_MAC_HI_MAC (d : Nat) : Fld := ⟨0x12, 0x104 + 0x20 * d, 15, 0⟩
def OUT_DST_MAC_HI_VID (d : Nat) : Fld := ⟨0x12, 0x104 + 0x20 * d, 27, 16⟩
def OUT_DST_MAC_HI_TAGGED (d : Nat) : Fld := ⟨0x12, 0x104 + 0x20 * d, 28, 28⟩
def OUT_DST_MAC_HI_V6 (d : Nat) : Fld := ⟨0x12, 0x104 + 0x20 * d, 29, 29⟩
def OUT_DST_IP_0 (d : Nat) : Fld := ⟨0x12, 0x108 + 0x20 * d, 31, 0⟩
def OUT_DST_IP_1 (d : Nat) : Fld := ⟨0x12, 0x10c + 0x20 * d, 31, 0⟩
def OUT_DST_IP_2 (d : Nat) : Fld := ⟨0x12, 0x110 + 0x20 * d, 31, 0⟩
def OUT_DST_IP_3 (d : Nat) : Fld := ⟨0x12, 0x114 + 0x20 * d, 31, 0⟩
def OUT_DST_PORT (d : Nat) : Fld := ⟨0x12, 0x118 + 0x20 * d, 31, 0⟩
def OUT_DST_PORT_UDP (d : Nat) : Fld := ⟨0x12, 0x118 + 0x20 * d, 15, 0⟩
def OUT_DST_PORT_ETH (d : Nat) : Fld := ⟨0x12, 0x118 + 0x20 * d, 17, 16⟩
def OUT_DST_PORT_EN (d : Nat) : Fld := ⟨0x12, 0x118 + 0x20 * d, 18, 18⟩
def OUT_STR_CTRL (s : Nat) : Fld := ⟨0x12, 0x400 + 0x20 * s, 31, 0⟩
def OUT_STR_CTRL_EN (s : Nat) : Fld := ⟨0x12, 0x400 + 0x20 * s, 0, 0⟩
def OUT_STR_CTRL_KIND (s : Nat) : Fld := ⟨0x12, 0x400 + 0x20 * s, 3, 1⟩
def OUT_STR_CTRL_INDEX (s : Nat) : Fld := ⟨0x12, 0x400 + 0x20 * s, 9, 4⟩
def OUT_STR_CTRL_FORMAT (s : Nat) : Fld := ⟨0x12, 0x400 + 0x20 * s, 11, 10⟩
def OUT_STR_CTRL_SCALE (s : Nat) : Fld := ⟨0x12, 0x400 + 0x20 * s, 18, 12⟩
def OUT_STR_CTRL_DEST (s : Nat) : Fld := ⟨0x12, 0x400 + 0x20 * s, 22, 19⟩
def OUT_STR_CTRL_QUEUE (s : Nat) : Fld := ⟨0x12, 0x400 + 0x20 * s, 25, 23⟩
def OUT_STR_X0 (s : Nat) : Fld := ⟨0x12, 0x404 + 0x20 * s, 31, 0⟩
def OUT_STR_W (s : Nat) : Fld := ⟨0x12, 0x408 + 0x20 * s, 31, 0⟩
def OUT_STR_DEC (s : Nat) : Fld := ⟨0x12, 0x40c + 0x20 * s, 31, 0⟩
def OUT_STR_MAXPAY (s : Nat) : Fld := ⟨0x12, 0x410 + 0x20 * s, 31, 0⟩
def OUT_STR_LINES (s : Nat) : Fld := ⟨0x12, 0x414 + 0x20 * s, 31, 0⟩
def OUT_STR_DROPPED (s : Nat) : Fld := ⟨0x12, 0x418 + 0x20 * s, 31, 0⟩
def OUT_REC_CTRL (r : Nat) : Fld := ⟨0x12, 0x600 + 0x20 * r, 31, 0⟩
def OUT_REC_CTRL_EN (r : Nat) : Fld := ⟨0x12, 0x600 + 0x20 * r, 0, 0⟩
def OUT_REC_CTRL_TILE (r : Nat) : Fld := ⟨0x12, 0x600 + 0x20 * r, 3, 1⟩
def OUT_REC_CTRL_QUEUE (r : Nat) : Fld := ⟨0x12, 0x600 + 0x20 * r, 11, 4⟩
def OUT_REC_CTRL_DEST (r : Nat) : Fld := ⟨0x12, 0x600 + 0x20 * r, 15, 12⟩
def OUT_REC_CTRL_TXQ (r : Nat) : Fld := ⟨0x12, 0x600 + 0x20 * r, 18, 16⟩
def OUT_REC_CTRL_TIMED (r : Nat) : Fld := ⟨0x12, 0x600 + 0x20 * r, 19, 19⟩
def OUT_REC_HOLD_US (r : Nat) : Fld := ⟨0x12, 0x604 + 0x20 * r, 31, 0⟩
def OUT_REC_DELAY (r : Nat) : Fld := ⟨0x12, 0x608 + 0x20 * r, 31, 0⟩
def OUT_REC_MAXPAY (r : Nat) : Fld := ⟨0x12, 0x60c + 0x20 * r, 31, 0⟩
def OUT_REC_DGRAMS (r : Nat) : Fld := ⟨0x12, 0x610 + 0x20 * r, 31, 0⟩
def OUT_REC_LATE (r : Nat) : Fld := ⟨0x12, 0x614 + 0x20 * r, 31, 0⟩

/-! EVT, block 0x13 (R374). -/

def EVT_ERR : Fld := ⟨0x13, 0x0, 31, 0⟩
def EVT_ERR_ACCESS : Fld := ⟨0x13, 0x0, 0, 0⟩
def EVT_ERR_CFG_WHILE_RUN : Fld := ⟨0x13, 0x0, 1, 1⟩
def EVT_CTRL : Fld := ⟨0x13, 0x4, 31, 0⟩
def EVT_CTRL_GALIGN : Fld := ⟨0x13, 0x4, 0, 0⟩
def EVT_SW_PIP : Fld := ⟨0x13, 0x8, 31, 0⟩
def EVT_SW_LEVEL : Fld := ⟨0x13, 0xc, 31, 0⟩
def EVT_FLAG_LO : Fld := ⟨0x13, 0x10, 31, 0⟩
def EVT_FLAG_HI : Fld := ⟨0x13, 0x14, 31, 0⟩
def EVT_GFLAG : Fld := ⟨0x13, 0x18, 31, 0⟩
def EVT_LIMITED_LO : Fld := ⟨0x13, 0x1c, 31, 0⟩
def EVT_LIMITED_HI : Fld := ⟨0x13, 0x20, 31, 0⟩
def EVT_OVR (w : Nat) : Fld := ⟨0x13, 0x40 + 0x4 * w, 31, 0⟩
def EVT_RELAY (k : Nat) : Fld := ⟨0x13, 0x80 + 0x4 * k, 31, 0⟩
def EVT_RELAY_DELAY (k : Nat) : Fld := ⟨0x13, 0x80 + 0x4 * k, 15, 0⟩
def EVT_RELAY_OWNER (k : Nat) : Fld := ⟨0x13, 0x80 + 0x4 * k, 18, 16⟩
def EVT_CH_SRC (c w : Nat) : Fld := ⟨0x13, 0x1000 + 0x40 * c + 0x4 * w, 31, 0⟩
def EVT_CH_CON (c w : Nat) : Fld := ⟨0x13, 0x1020 + 0x40 * c + 0x4 * w, 31, 0⟩
def EVT_CH_CFG (c : Nat) : Fld := ⟨0x13, 0x1038 + 0x40 * c, 31, 0⟩
def EVT_CH_CFG_GATE (c : Nat) : Fld := ⟨0x13, 0x1038 + 0x40 * c, 3, 0⟩
def EVT_CH_CFG_GATE_INV (c : Nat) : Fld := ⟨0x13, 0x1038 + 0x40 * c, 4, 4⟩
def EVT_CH_CFG_MINGAP (c : Nat) : Fld := ⟨0x13, 0x1038 + 0x40 * c, 31, 16⟩
def EVT_CH_ATTR (c : Nat) : Fld := ⟨0x13, 0x103c + 0x40 * c, 31, 0⟩
def EVT_CH_ATTR_OWNER (c : Nat) : Fld := ⟨0x13, 0x103c + 0x40 * c, 2, 0⟩
def EVT_CH_ATTR_SECURE (c : Nat) : Fld := ⟨0x13, 0x103c + 0x40 * c, 3, 3⟩
def EVT_CH_COUNT (c : Nat) : Fld := ⟨0x13, 0x2000 + 0x4 * c, 31, 0⟩
def EVT_GCH_SRC_0 (g : Nat) : Fld := ⟨0x13, 0x3000 + 0x20 * g, 31, 0⟩
def EVT_GCH_SRC_1 (g : Nat) : Fld := ⟨0x13, 0x3004 + 0x20 * g, 31, 0⟩
def EVT_GCH_CON (g w : Nat) : Fld := ⟨0x13, 0x3008 + 0x20 * g + 0x4 * w, 31, 0⟩
def EVT_GCH_ATTR (g : Nat) : Fld := ⟨0x13, 0x3400 + 0x4 * g, 31, 0⟩
def EVT_GCH_ATTR_OWNER (g : Nat) : Fld := ⟨0x13, 0x3400 + 0x4 * g, 2, 0⟩
def EVT_GCH_ATTR_SECURE (g : Nat) : Fld := ⟨0x13, 0x3400 + 0x4 * g, 3, 3⟩
def EVT_CAP_TB0_LO (k : Nat) : Fld := ⟨0x13, 0x3800 + 0x10 * k, 31, 0⟩
def EVT_CAP_TB0_HI (k : Nat) : Fld := ⟨0x13, 0x3804 + 0x10 * k, 31, 0⟩
def EVT_CAP_STATUS (k : Nat) : Fld := ⟨0x13, 0x3808 + 0x10 * k, 31, 0⟩
def EVT_CAP_STATUS_VALID (k : Nat) : Fld := ⟨0x13, 0x3808 + 0x10 * k, 0, 0⟩
def EVT_CAP_COUNT (k : Nat) : Fld := ⟨0x13, 0x380c + 0x10 * k, 31, 0⟩

/-! DMA, block 0x14 (R386). -/

def DMA_ERR : Fld := ⟨0x14, 0x0, 31, 0⟩
def DMA_ERR_BUSY : Fld := ⟨0x14, 0x0, 0, 0⟩
def DMA_ERR_HALT : Fld := ⟨0x14, 0x0, 1, 1⟩
def DMA_HOPS : Fld := ⟨0x14, 0x4, 31, 0⟩
def DMA_INT_STATUS : Fld := ⟨0x14, 0x8, 31, 0⟩
def DMA_INT_EN : Fld := ⟨0x14, 0xc, 31, 0⟩
def DMA_CH_SRC_LO (c : Nat) : Fld := ⟨0x14, 0x100 + 0x40 * c, 31, 0⟩
def DMA_CH_SRC_HI (c : Nat) : Fld := ⟨0x14, 0x104 + 0x40 * c, 31, 0⟩
def DMA_CH_DST_LO (c : Nat) : Fld := ⟨0x14, 0x108 + 0x40 * c, 31, 0⟩
def DMA_CH_DST_HI (c : Nat) : Fld := ⟨0x14, 0x10c + 0x40 * c, 31, 0⟩
def DMA_CH_COUNT (c : Nat) : Fld := ⟨0x14, 0x110 + 0x40 * c, 31, 0⟩
def DMA_CH_NEXT_LO (c : Nat) : Fld := ⟨0x14, 0x114 + 0x40 * c, 31, 0⟩
def DMA_CH_NEXT_HI (c : Nat) : Fld := ⟨0x14, 0x118 + 0x40 * c, 31, 0⟩
def DMA_CH_CTRL (c : Nat) : Fld := ⟨0x14, 0x11c + 0x40 * c, 31, 0⟩
def DMA_CH_CTRL_START (c : Nat) : Fld := ⟨0x14, 0x11c + 0x40 * c, 0, 0⟩
def DMA_CH_CTRL_ABORT (c : Nat) : Fld := ⟨0x14, 0x11c + 0x40 * c, 1, 1⟩
def DMA_CH_CTRL_PRIO (c : Nat) : Fld := ⟨0x14, 0x11c + 0x40 * c, 3, 2⟩
def DMA_CH_CTRL_CHAIN (c : Nat) : Fld := ⟨0x14, 0x11c + 0x40 * c, 4, 4⟩
def DMA_CH_CTRL_EVT_EN (c : Nat) : Fld := ⟨0x14, 0x11c + 0x40 * c, 5, 5⟩
def DMA_CH_STATUS (c : Nat) : Fld := ⟨0x14, 0x120 + 0x40 * c, 31, 0⟩
def DMA_CH_STATUS_STATE (c : Nat) : Fld := ⟨0x14, 0x120 + 0x40 * c, 2, 0⟩
def DMA_CH_STATUS_WAITING (c : Nat) : Fld := ⟨0x14, 0x120 + 0x40 * c, 3, 3⟩
def DMA_CH_STATUS_CAUSE (c : Nat) : Fld := ⟨0x14, 0x120 + 0x40 * c, 6, 4⟩
def DMA_CH_STATUS_ABORT_LATE (c : Nat) : Fld := ⟨0x14, 0x120 + 0x40 * c, 7, 7⟩
def DMA_CH_STATUS_MISSED_START (c : Nat) : Fld := ⟨0x14, 0x120 + 0x40 * c, 8, 8⟩
def DMA_CH_REMAIN (c : Nat) : Fld := ⟨0x14, 0x124 + 0x40 * c, 31, 0⟩
def DMA_CH_HOPS_USED (c : Nat) : Fld := ⟨0x14, 0x128 + 0x40 * c, 31, 0⟩
def DMA_CH_ERR_ADDR_LO (c : Nat) : Fld := ⟨0x14, 0x12c + 0x40 * c, 31, 0⟩
def DMA_CH_ERR_ADDR_HI (c : Nat) : Fld := ⟨0x14, 0x130 + 0x40 * c, 31, 0⟩
def DMA_CH_DONES (c : Nat) : Fld := ⟨0x14, 0x134 + 0x40 * c, 31, 0⟩

/-! QUE, block 0x15 (R407). -/

def QUE_CTRL : Fld := ⟨0x15, 0x0, 31, 0⟩
def QUE_CTRL_ERR_QUEUE : Fld := ⟨0x15, 0x0, 7, 0⟩
def QUE_ERR : Fld := ⟨0x15, 0x4, 31, 0⟩
def QUE_ERR_ACCESS : Fld := ⟨0x15, 0x4, 0, 0⟩
def QUE_ERR_POOL_EMPTY : Fld := ⟨0x15, 0x4, 1, 1⟩
def QUE_ERR_REFUSED : Fld := ⟨0x15, 0x4, 2, 2⟩
def QUE_ERR_PTR : Fld := ⟨0x15, 0x4, 3, 3⟩
def QUE_ERR_OWNED : Fld := ⟨0x15, 0x4, 4, 4⟩
def QUE_ERR_PUSH_BUSY : Fld := ⟨0x15, 0x4, 5, 5⟩
def QUE_ERR_FLUSH_BUSY : Fld := ⟨0x15, 0x4, 6, 6⟩
def QUE_CLR : Fld := ⟨0x15, 0x8, 31, 0⟩
def QUE_CLR_COUNTERS : Fld := ⟨0x15, 0x8, 0, 0⟩
def QUE_POOL : Fld := ⟨0x15, 0xc, 31, 0⟩
def QUE_POOL_FREE : Fld := ⟨0x15, 0xc, 15, 0⟩
def QUE_POOL_MIN_FREE : Fld := ⟨0x15, 0xc, 31, 16⟩
def QUE_POP_CTRL : Fld := ⟨0x15, 0x10, 31, 0⟩
def QUE_POP_CTRL_QUEUE : Fld := ⟨0x15, 0x10, 7, 0⟩
def QUE_POP_CTRL_POP : Fld := ⟨0x15, 0x10, 8, 8⟩
def QUE_POP_STATUS : Fld := ⟨0x15, 0x14, 31, 0⟩
def QUE_POP_STATUS_DONE : Fld := ⟨0x15, 0x14, 0, 0⟩
def QUE_POP_STATUS_EMPTY : Fld := ⟨0x15, 0x14, 1, 1⟩
def QUE_POP_STATUS_OWNED : Fld := ⟨0x15, 0x14, 2, 2⟩
def QUE_POP_STATUS_WORDS : Fld := ⟨0x15, 0x14, 24, 16⟩
def QUE_PUSH_CTRL : Fld := ⟨0x15, 0x18, 31, 0⟩
def QUE_PUSH_CTRL_QUEUE : Fld := ⟨0x15, 0x18, 7, 0⟩
def QUE_PUSH_CTRL_WORDS : Fld := ⟨0x15, 0x18, 16, 8⟩
def QUE_PUSH_CTRL_PUSH : Fld := ⟨0x15, 0x18, 24, 24⟩
def QUE_PUSH_STATUS : Fld := ⟨0x15, 0x1c, 31, 0⟩
def QUE_PUSH_STATUS_DONE : Fld := ⟨0x15, 0x1c, 0, 0⟩
def QUE_PUSH_STATUS_REFUSED : Fld := ⟨0x15, 0x1c, 1, 1⟩
def QUE_LVL_STATUS (w : Nat) : Fld := ⟨0x15, 0x20 + 0x4 * w, 31, 0⟩
def QUE_INT_EN (w : Nat) : Fld := ⟨0x15, 0x40 + 0x4 * w, 31, 0⟩
def QUE_ERRREC_LOST : Fld := ⟨0x15, 0x60, 31, 0⟩
def QUE_POP_BUF (w : Nat) : Fld := ⟨0x15, 0x800 + 0x4 * w, 31, 0⟩
def QUE_PUSH_BUF (w : Nat) : Fld := ⟨0x15, 0xc00 + 0x4 * w, 31, 0⟩
def QUE_Q_CFG (q : Nat) : Fld := ⟨0x15, 0x1000 + 0x20 * q, 31, 0⟩
def QUE_Q_CFG_QUOTA (q : Nat) : Fld := ⟨0x15, 0x1000 + 0x20 * q, 15, 0⟩
def QUE_Q_CFG_LEVEL (q : Nat) : Fld := ⟨0x15, 0x1000 + 0x20 * q, 31, 16⟩
def QUE_Q_CTRL (q : Nat) : Fld := ⟨0x15, 0x1004 + 0x20 * q, 31, 0⟩
def QUE_Q_CTRL_FLUSH (q : Nat) : Fld := ⟨0x15, 0x1004 + 0x20 * q, 0, 0⟩
def QUE_Q_STATUS (q : Nat) : Fld := ⟨0x15, 0x1008 + 0x20 * q, 31, 0⟩
def QUE_Q_STATUS_DEPTH (q : Nat) : Fld := ⟨0x15, 0x1008 + 0x20 * q, 15, 0⟩
def QUE_Q_STATUS_FLUSHING (q : Nat) : Fld := ⟨0x15, 0x1008 + 0x20 * q, 16, 16⟩
def QUE_Q_STATUS_OWNED (q : Nat) : Fld := ⟨0x15, 0x1008 + 0x20 * q, 17, 17⟩
def QUE_Q_CELLS (q : Nat) : Fld := ⟨0x15, 0x100c + 0x20 * q, 31, 0⟩
def QUE_Q_PUSHED (q : Nat) : Fld := ⟨0x15, 0x1010 + 0x20 * q, 31, 0⟩
def QUE_Q_REFUSED (q : Nat) : Fld := ⟨0x15, 0x1014 + 0x20 * q, 31, 0⟩
def QUE_Q_POISONED (q : Nat) : Fld := ⟨0x15, 0x1018 + 0x20 * q, 31, 0⟩
def QUE_Q_LOST (q : Nat) : Fld := ⟨0x15, 0x101c + 0x20 * q, 31, 0⟩

/-! CHK, block 0x16 (R408). -/

def CHK_INT_STATUS_LO : Fld := ⟨0x16, 0x0, 31, 0⟩
def CHK_INT_STATUS_HI : Fld := ⟨0x16, 0x4, 31, 0⟩
def CHK_INT_EN_LO : Fld := ⟨0x16, 0x8, 31, 0⟩
def CHK_INT_EN_HI : Fld := ⟨0x16, 0xc, 31, 0⟩
def CHK_CH_CFG (n : Nat) : Fld := ⟨0x16, 0x100 + 0x20 * n, 31, 0⟩
def CHK_CH_CFG_EN (n : Nat) : Fld := ⟨0x16, 0x100 + 0x20 * n, 0, 0⟩
def CHK_CH_CFG_MODE (n : Nat) : Fld := ⟨0x16, 0x100 + 0x20 * n, 2, 1⟩
def CHK_CH_CFG_SEL (n : Nat) : Fld := ⟨0x16, 0x100 + 0x20 * n, 4, 3⟩
def CHK_CH_CFG_CMP_EN (n : Nat) : Fld := ⟨0x16, 0x100 + 0x20 * n, 5, 5⟩
def CHK_CH_CFG_ALIVE_EN (n : Nat) : Fld := ⟨0x16, 0x100 + 0x20 * n, 6, 6⟩
def CHK_CH_CFG_LEGACY (n : Nat) : Fld := ⟨0x16, 0x100 + 0x20 * n, 7, 7⟩
def CHK_CH_CFG_BYTES (n : Nat) : Fld := ⟨0x16, 0x100 + 0x20 * n, 9, 8⟩
def CHK_CH_CFG_QUEUE (n : Nat) : Fld := ⟨0x16, 0x100 + 0x20 * n, 23, 16⟩
def CHK_CH_CFG_ALIVE_OFS (n : Nat) : Fld := ⟨0x16, 0x100 + 0x20 * n, 31, 24⟩
def CHK_CH_CTRL (n : Nat) : Fld := ⟨0x16, 0x104 + 0x20 * n, 31, 0⟩
def CHK_CH_CTRL_START (n : Nat) : Fld := ⟨0x16, 0x104 + 0x20 * n, 0, 0⟩
def CHK_CH_CTRL_FINISH (n : Nat) : Fld := ⟨0x16, 0x104 + 0x20 * n, 1, 1⟩
def CHK_CH_CTRL_ALIVE_RESET (n : Nat) : Fld := ⟨0x16, 0x104 + 0x20 * n, 2, 2⟩
def CHK_CH_CTRL_ALIVE_CHECK (n : Nat) : Fld := ⟨0x16, 0x104 + 0x20 * n, 3, 3⟩
def CHK_CH_CTRL_ALIVE (n : Nat) : Fld := ⟨0x16, 0x104 + 0x20 * n, 15, 8⟩
def CHK_CH_DATA (n : Nat) : Fld := ⟨0x16, 0x108 + 0x20 * n, 31, 0⟩
def CHK_CH_VALUE (n : Nat) : Fld := ⟨0x16, 0x10c + 0x20 * n, 31, 0⟩
def CHK_CH_RESULT (n : Nat) : Fld := ⟨0x16, 0x110 + 0x20 * n, 31, 0⟩
def CHK_CH_EXPECT (n : Nat) : Fld := ⟨0x16, 0x114 + 0x20 * n, 31, 0⟩
def CHK_CH_STATUS (n : Nat) : Fld := ⟨0x16, 0x118 + 0x20 * n, 31, 0⟩
def CHK_CH_STATUS_MISMATCH (n : Nat) : Fld := ⟨0x16, 0x118 + 0x20 * n, 0, 0⟩
def CHK_CH_STATUS_REPEAT (n : Nat) : Fld := ⟨0x16, 0x118 + 0x20 * n, 1, 1⟩
def CHK_CH_STATUS_GAP (n : Nat) : Fld := ⟨0x16, 0x118 + 0x20 * n, 2, 2⟩
def CHK_CH_STATUS_ALIVE_VALID (n : Nat) : Fld := ⟨0x16, 0x118 + 0x20 * n, 3, 3⟩
def CHK_CH_STATUS_ALIVE_LAST (n : Nat) : Fld := ⟨0x16, 0x118 + 0x20 * n, 15, 8⟩
def CHK_CH_COUNTS (n : Nat) : Fld := ⟨0x16, 0x11c + 0x20 * n, 31, 0⟩
def CHK_CH_COUNTS_MISMATCHES (n : Nat) : Fld := ⟨0x16, 0x11c + 0x20 * n, 15, 0⟩
def CHK_CH_COUNTS_ALIVE_ERRS (n : Nat) : Fld := ⟨0x16, 0x11c + 0x20 * n, 31, 16⟩

/-! FIR, block 0x17 (R422). -/

def FIR_ERR : Fld := ⟨0x17, 0x0, 31, 0⟩
def FIR_ERR_CFG_INVALID : Fld := ⟨0x17, 0x0, 0, 0⟩
def FIR_ERR_WRITE_BUSY : Fld := ⟨0x17, 0x0, 1, 1⟩
def FIR_ERR_SWAP_BUSY : Fld := ⟨0x17, 0x0, 2, 2⟩
def FIR_ERR_IN_LOST : Fld := ⟨0x17, 0x0, 3, 3⟩
def FIR_ERR_SAT : Fld := ⟨0x17, 0x0, 4, 4⟩
def FIR_ERR_Q_LOST : Fld := ⟨0x17, 0x0, 5, 5⟩
def FIR_CLR : Fld := ⟨0x17, 0x4, 31, 0⟩
def FIR_CLR_COUNTERS : Fld := ⟨0x17, 0x4, 0, 0⟩
def FIR_CH_CFG (f : Nat) : Fld := ⟨0x17, 0x100 + 0x40 * f, 31, 0⟩
def FIR_CH_CFG_EN (f : Nat) : Fld := ⟨0x17, 0x100 + 0x40 * f, 0, 0⟩
def FIR_CH_CFG_SRC (f : Nat) : Fld := ⟨0x17, 0x100 + 0x40 * f, 3, 1⟩
def FIR_CH_CFG_SUB (f : Nat) : Fld := ⟨0x17, 0x100 + 0x40 * f, 6, 4⟩
def FIR_CH_CFG_PLANE (f : Nat) : Fld := ⟨0x17, 0x100 + 0x40 * f, 8, 7⟩
def FIR_CH_CFG_ZONE (f : Nat) : Fld := ⟨0x17, 0x100 + 0x40 * f, 14, 9⟩
def FIR_CH_CFG_STAGES (f : Nat) : Fld := ⟨0x17, 0x100 + 0x40 * f, 17, 16⟩
def FIR_CH_CFG_Q_EN (f : Nat) : Fld := ⟨0x17, 0x100 + 0x40 * f, 18, 18⟩
def FIR_CH_CFG_QUEUE (f : Nat) : Fld := ⟨0x17, 0x100 + 0x40 * f, 31, 24⟩
def FIR_CH_CTRL (f : Nat) : Fld := ⟨0x17, 0x104 + 0x40 * f, 31, 0⟩
def FIR_CH_CTRL_SYNC (f : Nat) : Fld := ⟨0x17, 0x104 + 0x40 * f, 0, 0⟩
def FIR_CH_CTRL_SWAP (f : Nat) : Fld := ⟨0x17, 0x104 + 0x40 * f, 1, 1⟩
def FIR_CH_STATUS (f : Nat) : Fld := ⟨0x17, 0x108 + 0x40 * f, 31, 0⟩
def FIR_CH_STATUS_BANK (f : Nat) : Fld := ⟨0x17, 0x108 + 0x40 * f, 0, 0⟩
def FIR_CH_STATUS_SWAP_PENDING (f : Nat) : Fld := ⟨0x17, 0x108 + 0x40 * f, 1, 1⟩
def FIR_CH_STATUS_SYNC_PENDING (f : Nat) : Fld := ⟨0x17, 0x108 + 0x40 * f, 2, 2⟩
def FIR_CH_STATUS_INVALID (f : Nat) : Fld := ⟨0x17, 0x108 + 0x40 * f, 3, 3⟩
def FIR_CH_STATUS_THR0_ON (f : Nat) : Fld := ⟨0x17, 0x108 + 0x40 * f, 4, 4⟩
def FIR_CH_STATUS_THR1_ON (f : Nat) : Fld := ⟨0x17, 0x108 + 0x40 * f, 5, 5⟩
def FIR_CH_BANKA_BASE (f : Nat) : Fld := ⟨0x17, 0x10c + 0x40 * f, 31, 0⟩
def FIR_CH_BANKB_BASE (f : Nat) : Fld := ⟨0x17, 0x110 + 0x40 * f, 31, 0⟩
def FIR_CH_STAGE (f s : Nat) : Fld := ⟨0x17, 0x114 + 0x40 * f + 0x4 * s, 31, 0⟩
def FIR_CH_STAGE_TAPS (f s : Nat) : Fld := ⟨0x17, 0x114 + 0x40 * f + 0x4 * s, 8, 0⟩
def FIR_CH_STAGE_DEC (f s : Nat) : Fld := ⟨0x17, 0x114 + 0x40 * f + 0x4 * s, 22, 16⟩
def FIR_CH_STAGE_SHIFT (f s : Nat) : Fld := ⟨0x17, 0x114 + 0x40 * f + 0x4 * s, 29, 24⟩
def FIR_CH_THR_LEVEL (f k : Nat) : Fld := ⟨0x17, 0x120 + 0x40 * f + 0xc * k, 31, 0⟩
def FIR_CH_THR_HYST (f k : Nat) : Fld := ⟨0x17, 0x124 + 0x40 * f + 0xc * k, 31, 0⟩
def FIR_CH_THR_CTRL (f k : Nat) : Fld := ⟨0x17, 0x128 + 0x40 * f + 0xc * k, 31, 0⟩
def FIR_CH_THR_CTRL_PERSIST (f k : Nat) : Fld := ⟨0x17, 0x128 + 0x40 * f + 0xc * k, 15, 0⟩
def FIR_CH_THR_CTRL_DIR (f k : Nat) : Fld := ⟨0x17, 0x128 + 0x40 * f + 0xc * k, 16, 16⟩
def FIR_CH_THR_CTRL_EDGE (f k : Nat) : Fld := ⟨0x17, 0x128 + 0x40 * f + 0xc * k, 18, 17⟩
def FIR_CH_THR_CTRL_EN (f k : Nat) : Fld := ⟨0x17, 0x128 + 0x40 * f + 0xc * k, 19, 19⟩
def FIR_CH_OUT (f : Nat) : Fld := ⟨0x17, 0x138 + 0x40 * f, 31, 0⟩
def FIR_CH_OUT_Y (f : Nat) : Fld := ⟨0x17, 0x138 + 0x40 * f, 23, 0⟩
def FIR_CH_OUT_INVALID (f : Nat) : Fld := ⟨0x17, 0x138 + 0x40 * f, 24, 24⟩
def FIR_CH_OUTPUTS (f : Nat) : Fld := ⟨0x17, 0x800 + 0x10 * f, 31, 0⟩
def FIR_CH_IN_LOST (f : Nat) : Fld := ⟨0x17, 0x804 + 0x10 * f, 31, 0⟩
def FIR_CH_HOLDS (f : Nat) : Fld := ⟨0x17, 0x808 + 0x10 * f, 31, 0⟩
def FIR_CH_SAT (f : Nat) : Fld := ⟨0x17, 0x80c + 0x10 * f, 31, 0⟩
def FIR_CH_QLOST (f : Nat) : Fld := ⟨0x17, 0xa00 + 0x4 * f, 31, 0⟩

/-! CAL, block 0x18 (R438). -/

def CAL_CTRL : Fld := ⟨0x18, 0x0, 31, 0⟩
def CAL_CTRL_CAL : Fld := ⟨0x18, 0x0, 0, 0⟩
def CAL_CTRL_ST : Fld := ⟨0x18, 0x0, 1, 1⟩
def CAL_CTRL_FORCE : Fld := ⟨0x18, 0x0, 2, 2⟩
def CAL_CTRL_CANCEL : Fld := ⟨0x18, 0x0, 3, 3⟩
def CAL_CTRL_AUTO : Fld := ⟨0x18, 0x0, 4, 4⟩
def CAL_STATUS : Fld := ⟨0x18, 0x4, 31, 0⟩
def CAL_STATUS_CAL_PENDING : Fld := ⟨0x18, 0x4, 0, 0⟩
def CAL_STATUS_ST_PENDING : Fld := ⟨0x18, 0x4, 1, 1⟩
def CAL_STATUS_RUNNING : Fld := ⟨0x18, 0x4, 2, 2⟩
def CAL_STATUS_ST_RUNNING : Fld := ⟨0x18, 0x4, 3, 3⟩
def CAL_STATUS_CAUSE : Fld := ⟨0x18, 0x4, 6, 4⟩
def CAL_ERR : Fld := ⟨0x18, 0x8, 31, 0⟩
def CAL_ERR_QUALITY : Fld := ⟨0x18, 0x8, 0, 0⟩
def CAL_ERR_ST_FAIL : Fld := ⟨0x18, 0x8, 1, 1⟩
def CAL_ERR_ST_REFUSED : Fld := ⟨0x18, 0x8, 2, 2⟩
def CAL_ERR_LATE_WRITE : Fld := ⟨0x18, 0x8, 3, 3⟩
def CAL_ERR_SENSOR : Fld := ⟨0x18, 0x8, 4, 4⟩
def CAL_DELTA_T : Fld := ⟨0x18, 0xc, 31, 0⟩
def CAL_TEMP : Fld := ⟨0x18, 0x10, 31, 0⟩
def CAL_TEMP_NOW : Fld := ⟨0x18, 0x10, 15, 0⟩
def CAL_TEMP_LAST : Fld := ⟨0x18, 0x10, 31, 16⟩
def CAL_TEMP_PEAK : Fld := ⟨0x18, 0x14, 31, 0⟩
def CAL_SENS (i : Nat) : Fld := ⟨0x18, 0x20 + 0x4 * i, 31, 0⟩
def CAL_SENS_VALID (i : Nat) : Fld := ⟨0x18, 0x20 + 0x4 * i, 16, 16⟩
def CAL_ST_CFG : Fld := ⟨0x18, 0x40, 31, 0⟩
def CAL_ST_CFG_KIND : Fld := ⟨0x18, 0x40, 2, 0⟩
def CAL_ST_CFG_PORT : Fld := ⟨0x18, 0x40, 3, 3⟩
def CAL_ST_CFG_PATTERN : Fld := ⟨0x18, 0x40, 6, 4⟩
def CAL_ST_CFG_MASK : Fld := ⟨0x18, 0x40, 15, 8⟩
def CAL_ST_DWELL : Fld := ⟨0x18, 0x44, 31, 0⟩
def CAL_ST_RESULT : Fld := ⟨0x18, 0x48, 31, 0⟩
def CAL_ST_RESULT_DONE : Fld := ⟨0x18, 0x48, 0, 0⟩
def CAL_ST_RESULT_FAIL : Fld := ⟨0x18, 0x48, 1, 1⟩
def CAL_ST_RESULT_ABORTED : Fld := ⟨0x18, 0x48, 2, 2⟩
def CAL_ST_RESULT_COUNT : Fld := ⟨0x18, 0x48, 31, 16⟩
def CAL_ST_FAIL_ADDR_LO : Fld := ⟨0x18, 0x4c, 31, 0⟩
def CAL_ST_FAIL_ADDR_HI : Fld := ⟨0x18, 0x50, 31, 0⟩
def CAL_FAR_ADDR : Fld := ⟨0x18, 0x54, 31, 0⟩
def CAL_QUAL_LIM : Fld := ⟨0x18, 0x58, 31, 0⟩
def CAL_QUAL_LIM_EYE_W_MIN : Fld := ⟨0x18, 0x58, 6, 0⟩
def CAL_QUAL_LIM_EYE_H_MIN : Fld := ⟨0x18, 0x58, 25, 16⟩
def CAL_LANE_EYE (n : Nat) : Fld := ⟨0x18, 0x60 + 0x4 * n, 31, 0⟩
def CAL_LANE_EYE_WIDTH (n : Nat) : Fld := ⟨0x18, 0x60 + 0x4 * n, 6, 0⟩
def CAL_LANE_EYE_HEIGHT (n : Nat) : Fld := ⟨0x18, 0x60 + 0x4 * n, 25, 16⟩
def CAL_RUNS : Fld := ⟨0x18, 0x80, 31, 0⟩
def CAL_LOST_US : Fld := ⟨0x18, 0x84, 31, 0⟩
def CAL_DEFERRED : Fld := ⟨0x18, 0x88, 31, 0⟩
def CAL_IDLE_SPEED : Fld := ⟨0x18, 0x100, 31, 0⟩
def CAL_GAP_CTRL : Fld := ⟨0x18, 0x104, 31, 0⟩
def CAL_GAP_CTRL_ARM : Fld := ⟨0x18, 0x104, 0, 0⟩
def CAL_GAP_CTRL_DISARM : Fld := ⟨0x18, 0x104, 1, 1⟩
def CAL_GAP_CTRL_ARMED : Fld := ⟨0x18, 0x104, 2, 2⟩
def CAL_GAP_POS_LO : Fld := ⟨0x18, 0x108, 31, 0⟩
def CAL_GAP_POS_HI : Fld := ⟨0x18, 0x10c, 31, 0⟩
def CAL_PTP_RESID : Fld := ⟨0x18, 0x110, 31, 0⟩
def CAL_STITCH_RESID : Fld := ⟨0x18, 0x114, 31, 0⟩
def CAL_QUAL_LIM2 : Fld := ⟨0x18, 0x118, 31, 0⟩
def CAL_QUAL_LIM2_PTP_MAX : Fld := ⟨0x18, 0x118, 15, 0⟩
def CAL_QUAL_LIM2_STITCH_MAX : Fld := ⟨0x18, 0x118, 31, 16⟩

/-! LCS, block 0x19 (R457). -/

def LCS_STATE : Fld := ⟨0x19, 0x0, 31, 0⟩
def LCS_STATE_STATE : Fld := ⟨0x19, 0x0, 1, 0⟩
def LCS_STATE_PARTIAL : Fld := ⟨0x19, 0x0, 2, 2⟩
def LCS_STATE_DEBUG : Fld := ⟨0x19, 0x0, 3, 3⟩
def LCS_STATE_DEBUG_SESSION : Fld := ⟨0x19, 0x0, 6, 4⟩
def LCS_SLOTS : Fld := ⟨0x19, 0x4, 31, 0⟩
def LCS_SLOTS_PROGRAMMED0 : Fld := ⟨0x19, 0x4, 0, 0⟩
def LCS_SLOTS_REVOKED0 : Fld := ⟨0x19, 0x4, 1, 1⟩
def LCS_SLOTS_LOADED0 : Fld := ⟨0x19, 0x4, 2, 2⟩
def LCS_SLOTS_PROGRAMMED1 : Fld := ⟨0x19, 0x4, 4, 4⟩
def LCS_SLOTS_REVOKED1 : Fld := ⟨0x19, 0x4, 5, 5⟩
def LCS_SLOTS_LOADED1 : Fld := ⟨0x19, 0x4, 6, 6⟩
def LCS_SLOTS_PROGRAMMED2 : Fld := ⟨0x19, 0x4, 8, 8⟩
def LCS_SLOTS_REVOKED2 : Fld := ⟨0x19, 0x4, 9, 9⟩
def LCS_SLOTS_LOADED2 : Fld := ⟨0x19, 0x4, 10, 10⟩
def LCS_SLOTS_PROGRAMMED3 : Fld := ⟨0x19, 0x4, 12, 12⟩
def LCS_SLOTS_REVOKED3 : Fld := ⟨0x19, 0x4, 13, 13⟩
def LCS_SLOTS_LOADED3 : Fld := ⟨0x19, 0x4, 14, 14⟩
def LCS_SLOTS_ERASED : Fld := ⟨0x19, 0x4, 16, 16⟩
def LCS_CMD : Fld := ⟨0x19, 0x8, 31, 0⟩
def LCS_CMD_OP : Fld := ⟨0x19, 0x8, 7, 0⟩
def LCS_CMD_START : Fld := ⟨0x19, 0x8, 8, 8⟩
def LCS_CMD_STATUS : Fld := ⟨0x19, 0xc, 31, 0⟩
def LCS_CMD_STATUS_BUSY : Fld := ⟨0x19, 0xc, 0, 0⟩
def LCS_CMD_STATUS_DONE : Fld := ⟨0x19, 0xc, 1, 1⟩
def LCS_CMD_STATUS_RESULT : Fld := ⟨0x19, 0xc, 15, 8⟩
def LCS_CMD_STATUS_RESP_LEN : Fld := ⟨0x19, 0xc, 31, 16⟩
def LCS_MBOX_OWNER : Fld := ⟨0x19, 0x10, 31, 0⟩
def LCS_MBOX_OWNER_SESSION : Fld := ⟨0x19, 0x10, 2, 0⟩
def LCS_DEBUG_LEFT : Fld := ⟨0x19, 0x14, 31, 0⟩
def LCS_ERR : Fld := ⟨0x19, 0x18, 31, 0⟩
def LCS_ERR_REFUSED : Fld := ⟨0x19, 0x18, 0, 0⟩
def LCS_ERR_ACCESS : Fld := ⟨0x19, 0x18, 1, 1⟩
def LCS_ERR_FUSE : Fld := ⟨0x19, 0x18, 2, 2⟩
def LCS_JOB_KEYS : Fld := ⟨0x19, 0x1c, 31, 0⟩
def LCS_JOB_KEY_ID (k : Nat) : Fld := ⟨0x19, 0x20 + 0x4 * k, 31, 0⟩
def LCS_CMDS_REFUSED : Fld := ⟨0x19, 0x60, 31, 0⟩
def LCS_CHALLENGE (w : Nat) : Fld := ⟨0x19, 0x80 + 0x4 * w, 31, 0⟩
def LCS_VENDOR_HASH (w : Nat) : Fld := ⟨0x19, 0x100 + 0x4 * w, 31, 0⟩
def LCS_SLOT_HASH (s w : Nat) : Fld := ⟨0x19, 0x200 + 0x40 * s + 0x4 * w, 31, 0⟩
def LCS_MBOX (w : Nat) : Fld := ⟨0x19, 0x800 + 0x4 * w, 31, 0⟩
def LCS_RESP (w : Nat) : Fld := ⟨0x19, 0xc00 + 0x4 * w, 31, 0⟩

/-! PWR, block 0x1a (R490). -/

def PWR_INT_STATUS : Fld := ⟨0x1a, 0x0, 31, 0⟩
def PWR_INT_STATUS_DMA : Fld := ⟨0x1a, 0x0, 0, 0⟩
def PWR_INT_STATUS_QUE : Fld := ⟨0x1a, 0x0, 1, 1⟩
def PWR_INT_STATUS_CHK : Fld := ⟨0x1a, 0x0, 2, 2⟩
def PWR_INT_STATUS_THERMAL : Fld := ⟨0x1a, 0x0, 3, 3⟩
def PWR_INT_STATUS_SUPPLY : Fld := ⟨0x1a, 0x0, 4, 4⟩
def PWR_INT_EN : Fld := ⟨0x1a, 0x4, 31, 0⟩
def PWR_INT_TILES : Fld := ⟨0x1a, 0x100, 31, 0⟩
def PWR_READY : Fld := ⟨0x1a, 0x104, 31, 0⟩
def PWR_READY_EN : Fld := ⟨0x1a, 0x104, 0, 0⟩
def PWR_READY_OUT : Fld := ⟨0x1a, 0x104, 1, 1⟩
def PWR_READY_BOOTED : Fld := ⟨0x1a, 0x104, 8, 8⟩
def PWR_READY_CLOCKS : Fld := ⟨0x1a, 0x104, 9, 9⟩
def PWR_READY_LINKS : Fld := ⟨0x1a, 0x104, 10, 10⟩
def PWR_READY_LCS : Fld := ⟨0x1a, 0x104, 11, 11⟩
def PWR_READY_JOB : Fld := ⟨0x1a, 0x104, 12, 12⟩
def PWR_READY_INSPECTING : Fld := ⟨0x1a, 0x104, 13, 13⟩
def PWR_THERM : Fld := ⟨0x1a, 0x108, 31, 0⟩
def PWR_THERM_WARN : Fld := ⟨0x1a, 0x108, 11, 0⟩
def PWR_SUPPLY_STATUS : Fld := ⟨0x1a, 0x10c, 31, 0⟩
def PWR_SUPPLY_ERR : Fld := ⟨0x1a, 0x110, 31, 0⟩
def PWR_ERR : Fld := ⟨0x1a, 0x114, 31, 0⟩
def PWR_ERR_FLASH_BUSY : Fld := ⟨0x1a, 0x114, 0, 0⟩
def PWR_ERR_FLASH_FAIL : Fld := ⟨0x1a, 0x114, 1, 1⟩
def PWR_VMON (k : Nat) : Fld := ⟨0x1a, 0x120 + 0x4 * k, 31, 0⟩
def PWR_BOOT : Fld := ⟨0x1a, 0x140, 31, 0⟩
def PWR_BOOT_SLOT : Fld := ⟨0x1a, 0x140, 1, 0⟩
def PWR_BOOT_PARAM_OK : Fld := ⟨0x1a, 0x140, 2, 2⟩
def PWR_BOOT_KEYS_OK : Fld := ⟨0x1a, 0x140, 3, 3⟩
def PWR_BOOT_IMAGE_OK : Fld := ⟨0x1a, 0x140, 4, 4⟩
def PWR_BOOT_IMAGE_REFUSED : Fld := ⟨0x1a, 0x140, 5, 5⟩
def PWR_BOOT_FAIL : Fld := ⟨0x1a, 0x140, 15, 8⟩
def PWR_BOOT_MS : Fld := ⟨0x1a, 0x144, 31, 0⟩
def PWR_FLASH_CTRL : Fld := ⟨0x1a, 0x180, 31, 0⟩
def PWR_FLASH_CTRL_OP : Fld := ⟨0x1a, 0x180, 1, 0⟩
def PWR_FLASH_CTRL_START : Fld := ⟨0x1a, 0x180, 2, 2⟩
def PWR_FLASH_ADDR : Fld := ⟨0x1a, 0x184, 31, 0⟩
def PWR_FLASH_LEN : Fld := ⟨0x1a, 0x188, 31, 0⟩
def PWR_FLASH_STATUS : Fld := ⟨0x1a, 0x18c, 31, 0⟩
def PWR_FLASH_STATUS_BUSY : Fld := ⟨0x1a, 0x18c, 0, 0⟩
def PWR_FLASH_STATUS_DONE : Fld := ⟨0x1a, 0x18c, 1, 1⟩
def PWR_FLASH_BUF (w : Nat) : Fld := ⟨0x1a, 0x400 + 0x4 * w, 31, 0⟩

end Sys2Proof.Machine
end

