-- ==== Sys2Proof/Machine/RegTable.lean ====
section
/-! DEFINITION. The register tables of the spec as data: for each register its block, offset, indices (count and stride of each index
letter), the tiles it exists on, how many instances of its first index are structure registers (R263, R371), and for each field
its bits, access code (R15) and reset value. A field the spec calls fused or random has reset 0 here; what it reads comes from
the fuses (Machine/Ops.lean). Reserved bits have no field: they read 0 and take no write (R14). -/

namespace Sys2Proof.Machine

/-- The access codes of R15. -/
inductive Access where
  | rw | ro | wo | w1c | w1s | rws
  deriving DecidableEq, Repr

/-- The tiles a register exists on (R35 and the register sections): every fitted tile, tile 0 only, tiles 0 and 1. -/
inductive Place where
  | all | lead | eth
  deriving DecidableEq, Repr

/-- One field of a register table. -/
structure FieldRow where
  hi : Nat
  lo : Nat
  acc : Access
  reset : Nat
  deriving DecidableEq, Repr

/-- One row of a register table: `dims` gives count and stride of each index; instances of the first index below `banked` are
structure registers; `pair` is 1 for the low and 2 for the high word of a 64-bit quantity (R13), else 0. -/
structure RegRow where
  name : String
  off : Nat
  dims : List (Nat × Nat)
  place : Place
  banked : Nat
  pair : Nat
  fields : List FieldRow
  deriving DecidableEq, Repr


def rowsSYS : List RegRow := [
  ⟨"SYS_ID", 0x0, [], .all, 0, 0, [⟨31,16,.ro,0⟩, ⟨15,8,.ro,0⟩, ⟨7,4,.ro,0⟩, ⟨3,0,.ro,0⟩]⟩,
  ⟨"SYS_DIE_ID_LO", 0x4, [], .all, 0, 1, [⟨31,0,.ro,0⟩]⟩,
  ⟨"SYS_DIE_ID_HI", 0x8, [], .all, 0, 2, [⟨31,0,.ro,0⟩]⟩,
  ⟨"SYS_TILE_MAP", 0xc, [], .all, 0, 0, [⟨7,0,.ro,0⟩, ⟨15,8,.ro,1⟩, ⟨23,16,.ro,3⟩]⟩,
  ⟨"SYS_FW_VERSION", 0x10, [], .all, 0, 0, [⟨31,24,.ro,0⟩, ⟨23,16,.ro,0⟩, ⟨15,0,.ro,0⟩]⟩,
  ⟨"SYS_STATUS", 0x14, [], .all, 0, 0, [⟨0,0,.ro,0⟩, ⟨1,1,.ro,0⟩, ⟨2,2,.ro,0⟩, ⟨3,3,.ro,0⟩, ⟨4,4,.ro,0⟩, ⟨5,5,.ro,0⟩]⟩,
  ⟨"SYS_ERR", 0x18, [], .all, 0, 0, [⟨0,0,.w1c,0⟩, ⟨1,1,.w1c,0⟩, ⟨2,2,.w1c,0⟩, ⟨3,3,.w1c,0⟩, ⟨4,4,.w1c,0⟩]⟩,
  ⟨"SYS_ERR_ADDR_LO", 0x1c, [], .all, 0, 1, [⟨31,0,.ro,0⟩]⟩,
  ⟨"SYS_ERR_ADDR_HI", 0x20, [], .all, 0, 2, [⟨7,0,.ro,0⟩, ⟨10,8,.ro,0⟩, ⟨11,11,.ro,0⟩, ⟨12,12,.ro,0⟩]⟩,
  ⟨"SYS_RESET_CAUSE", 0x24, [], .all, 0, 0, [⟨0,0,.w1c,1⟩, ⟨1,1,.w1c,0⟩, ⟨2,2,.w1c,0⟩, ⟨3,3,.w1c,0⟩]⟩,
  ⟨"SYS_SCRATCH", 0x28, [], .all, 0, 0, [⟨31,0,.rws,0⟩]⟩]

def rowsCLK : List RegRow := [
  ⟨"CLK_LOCK", 0x0, [], .all, 0, 0, [⟨0,0,.ro,0⟩, ⟨1,1,.ro,0⟩, ⟨2,2,.ro,0⟩, ⟨3,3,.ro,0⟩, ⟨4,4,.ro,0⟩, ⟨5,5,.ro,0⟩]⟩,
  ⟨"CLK_LOSS", 0x4, [], .all, 0, 0, [⟨5,0,.w1c,0⟩]⟩]

def rowsD2D : List RegRow := [
  ⟨"D2D_Ln_STATUS", 0x0, [(3,0x40)], .all, 0, 0, [⟨0,0,.ro,0⟩, ⟨1,1,.ro,0⟩, ⟨2,2,.ro,0⟩, ⟨3,3,.ro,0⟩, ⟨6,4,.ro,0⟩, ⟨15,8,.ro,0⟩]⟩,
  ⟨"D2D_Ln_CTRL", 0x4, [(3,0x40)], .all, 0, 0, [⟨0,0,.wo,0⟩]⟩,
  ⟨"D2D_Ln_CRC_ERR", 0x8, [(3,0x40)], .all, 0, 0, [⟨31,0,.ro,0⟩]⟩,
  ⟨"D2D_Ln_REPLAY", 0xc, [(3,0x40)], .all, 0, 0, [⟨31,0,.ro,0⟩]⟩,
  ⟨"D2D_Ln_TX_FLITS_LO", 0x10, [(3,0x40)], .all, 0, 1, [⟨31,0,.ro,0⟩]⟩,
  ⟨"D2D_Ln_TX_FLITS_HI", 0x14, [(3,0x40)], .all, 0, 2, [⟨31,0,.ro,0⟩]⟩,
  ⟨"D2D_Ln_CLR", 0x18, [(3,0x40)], .all, 0, 0, [⟨0,0,.wo,0⟩, ⟨1,1,.wo,0⟩, ⟨2,2,.wo,0⟩]⟩,
  ⟨"D2D_ROUTE_t", 0x100, [(8,0x4)], .all, 0, 0, [⟨1,0,.ro,0⟩, ⟨5,4,.ro,0⟩, ⟨8,8,.ro,0⟩, ⟨9,9,.ro,0⟩]⟩]

def rowsBND : List RegRow := [
  ⟨"BND_CTRL", 0x0, [], .lead, 0, 0, [⟨0,0,.rw,0⟩, ⟨2,1,.rw,0⟩, ⟨4,3,.rw,0⟩, ⟨5,5,.rw,0⟩, ⟨6,6,.rw,0⟩, ⟨13,8,.rw,0⟩, ⟨16,16,.wo,0⟩]⟩,
  ⟨"BND_STATUS", 0x4, [], .lead, 0, 0, [⟨0,0,.ro,0⟩, ⟨1,1,.ro,0⟩, ⟨2,2,.ro,0⟩, ⟨3,3,.ro,0⟩, ⟨4,4,.ro,0⟩, ⟨7,5,.ro,2⟩, ⟨8,8,.ro,0⟩]⟩,
  ⟨"BND_BAND_SIZE", 0x8, [], .lead, 100000, 0, [⟨2,0,.rw,2⟩]⟩,
  ⟨"BND_DEPTH", 0xc, [], .lead, 100000, 0, [⟨31,0,.rw,1179992866⟩]⟩,
  ⟨"BND_INDEX_LO", 0x10, [], .lead, 0, 1, [⟨31,0,.ro,0⟩]⟩,
  ⟨"BND_INDEX_HI", 0x14, [], .lead, 0, 2, [⟨15,0,.ro,0⟩]⟩,
  ⟨"BND_LINE_LO", 0x18, [], .lead, 0, 1, [⟨31,0,.ro,0⟩]⟩,
  ⟨"BND_LINE_HI", 0x1c, [], .lead, 0, 2, [⟨31,0,.ro,0⟩]⟩,
  ⟨"BND_BAND_LINE0_LO", 0x20, [], .lead, 0, 1, [⟨31,0,.ro,0⟩]⟩,
  ⟨"BND_BAND_LINE0_HI", 0x24, [], .lead, 0, 2, [⟨31,0,.ro,0⟩]⟩,
  ⟨"BND_TB_PERIOD_LO", 0x28, [], .lead, 0, 1, [⟨31,0,.rw,0⟩]⟩,
  ⟨"BND_TB_PERIOD_HI", 0x2c, [], .lead, 0, 2, [⟨31,0,.rw,10000⟩]⟩,
  ⟨"BND_MAX_LINE_RATE", 0x30, [], .lead, 0, 0, [⟨16,0,.rw,100000⟩]⟩,
  ⟨"BND_LINE_PITCH", 0x34, [], .lead, 0, 0, [⟨31,0,.rw,2621440⟩]⟩,
  ⟨"BND_PITCH_TOL", 0x38, [], .lead, 0, 0, [⟨15,0,.rw,3277⟩]⟩,
  ⟨"BND_IDLE_TIMEOUT", 0x3c, [], .lead, 0, 0, [⟨19,0,.rw,10000⟩]⟩,
  ⟨"BND_DRAIN_PERIOD", 0x40, [], .lead, 0, 0, [⟨19,0,.rw,640⟩]⟩,
  ⟨"BND_LATENCY", 0x44, [], .lead, 0, 0, [⟨4,0,.ro,7⟩]⟩,
  ⟨"BND_LATENCY_NS", 0x48, [], .lead, 0, 0, [⟨31,0,.ro,0⟩]⟩,
  ⟨"BND_ERR", 0x4c, [], .lead, 0, 0, [⟨0,0,.w1c,0⟩, ⟨1,1,.w1c,0⟩, ⟨2,2,.w1c,0⟩, ⟨3,3,.w1c,0⟩, ⟨4,4,.w1c,0⟩]⟩,
  ⟨"BND_SKIPPED_LO", 0x50, [], .lead, 0, 1, [⟨31,0,.ro,0⟩]⟩,
  ⟨"BND_SKIPPED_HI", 0x54, [], .lead, 0, 2, [⟨31,0,.ro,0⟩]⟩,
  ⟨"BND_BLIND_CTRL", 0x58, [], .lead, 0, 0, [⟨7,0,.rw,0⟩, ⟨20,8,.rw,64⟩, ⟨31,24,.rw,64⟩]⟩,
  ⟨"BND_BLIND_LOST", 0x5c, [], .lead, 0, 0, [⟨31,0,.ro,0⟩]⟩,
  ⟨"BND_MISS_k", 0x80, [(8,0x4)], .all, 0, 0, [⟨31,0,.ro,0⟩]⟩,
  ⟨"BND_MISS_CLR", 0xa0, [], .all, 0, 0, [⟨7,0,.wo,0⟩]⟩,
  ⟨"BND_TILE_ERR", 0xa4, [], .all, 0, 0, [⟨0,0,.w1c,0⟩]⟩,
  ⟨"BND_COV_REP_g", 0x100, [(8,0x20)], .lead, 0, 0, [⟨31,0,.ro,0⟩]⟩,
  ⟨"BND_COV_LASTREP_g", 0x104, [(8,0x20)], .lead, 0, 0, [⟨31,0,.ro,0⟩]⟩,
  ⟨"BND_COV_JOB_g_LO", 0x108, [(8,0x20)], .lead, 0, 1, [⟨31,0,.ro,0⟩]⟩,
  ⟨"BND_COV_JOB_g_HI", 0x10c, [(8,0x20)], .lead, 0, 2, [⟨31,0,.ro,0⟩]⟩,
  ⟨"BND_COV_PREVJOB_g_LO", 0x110, [(8,0x20)], .lead, 0, 1, [⟨31,0,.ro,0⟩]⟩,
  ⟨"BND_COV_PREVJOB_g_HI", 0x114, [(8,0x20)], .lead, 0, 2, [⟨31,0,.ro,0⟩]⟩,
  ⟨"BND_COV_JOB_LEN_LO", 0x200, [], .lead, 0, 1, [⟨31,0,.ro,0⟩]⟩,
  ⟨"BND_COV_JOB_LEN_HI", 0x204, [], .lead, 0, 2, [⟨31,0,.ro,0⟩]⟩,
  ⟨"BND_COV_REPEAT", 0x208, [], .lead, 0, 0, [⟨31,0,.ro,0⟩]⟩]

def rowsLNK : List RegRow := [
  ⟨"LNK_LANEn_CTRL", 0x0, [(6,0x40)], .all, 0, 0, [⟨0,0,.rw,0⟩, ⟨1,1,.rw,0⟩, ⟨5,2,.rw,8⟩, ⟨6,6,.rw,0⟩, ⟨7,7,.wo,0⟩]⟩,
  ⟨"LNK_LANEn_STATUS", 0x4, [(6,0x40)], .all, 0, 0, [⟨0,0,.ro,0⟩, ⟨1,1,.ro,0⟩, ⟨2,2,.ro,0⟩, ⟨3,3,.ro,0⟩, ⟨7,4,.ro,0⟩, ⟨14,8,.ro,0⟩, ⟨21,16,.ro,0⟩]⟩,
  ⟨"LNK_LANEn_PPM", 0x8, [(6,0x40)], .all, 0, 0, [⟨15,0,.ro,0⟩]⟩,
  ⟨"LNK_LANEn_SYNC_ERR", 0xc, [(6,0x40)], .all, 0, 0, [⟨31,0,.ro,0⟩]⟩,
  ⟨"LNK_LANEn_PRBS_CTRL", 0x10, [(6,0x40)], .all, 0, 0, [⟨2,0,.rw,0⟩, ⟨3,3,.rw,0⟩]⟩,
  ⟨"LNK_LANEn_PRBS_STATUS", 0x14, [(6,0x40)], .all, 0, 0, [⟨0,0,.ro,0⟩, ⟨1,1,.w1c,0⟩]⟩,
  ⟨"LNK_LANEn_PRBS_ERR_LO", 0x18, [(6,0x40)], .all, 0, 1, [⟨31,0,.ro,0⟩]⟩,
  ⟨"LNK_LANEn_PRBS_ERR_HI", 0x1c, [(6,0x40)], .all, 0, 2, [⟨31,0,.ro,0⟩]⟩,
  ⟨"LNK_LANEn_PRBS_BITS_LO", 0x20, [(6,0x40)], .all, 0, 1, [⟨31,0,.ro,0⟩]⟩,
  ⟨"LNK_LANEn_PRBS_BITS_HI", 0x24, [(6,0x40)], .all, 0, 2, [⟨31,0,.ro,0⟩]⟩,
  ⟨"LNK_LANEn_CLR", 0x28, [(6,0x40)], .all, 0, 0, [⟨0,0,.wo,0⟩, ⟨1,1,.wo,0⟩]⟩,
  ⟨"LNK_PORTp_CFG", 0x200, [(2,0x40)], .all, 0, 0, [⟨1,0,.rw,0⟩, ⟨3,2,.rw,1⟩]⟩,
  ⟨"LNK_PORTp_CTRL", 0x204, [(2,0x40)], .all, 0, 0, [⟨0,0,.rw,0⟩, ⟨1,1,.wo,0⟩, ⟨3,2,.rw,0⟩, ⟨4,4,.rw,0⟩]⟩,
  ⟨"LNK_PORTp_STATUS", 0x208, [(2,0x40)], .all, 0, 0, [⟨2,0,.ro,0⟩, ⟨3,3,.ro,0⟩, ⟨6,4,.ro,0⟩, ⟨7,7,.ro,0⟩, ⟨9,8,.ro,0⟩, ⟨25,16,.ro,10⟩]⟩,
  ⟨"LNK_PORTp_FAILS", 0x20c, [(2,0x40)], .all, 0, 0, [⟨31,0,.ro,0⟩]⟩,
  ⟨"LNK_PORTp_DROPS", 0x210, [(2,0x40)], .all, 0, 0, [⟨31,0,.ro,0⟩]⟩,
  ⟨"LNK_PORTp_ERR", 0x214, [(2,0x40)], .all, 0, 0, [⟨0,0,.w1c,0⟩, ⟨1,1,.w1c,0⟩, ⟨2,2,.w1c,0⟩, ⟨3,3,.w1c,0⟩, ⟨4,4,.w1c,0⟩]⟩,
  ⟨"LNK_PORTp_BC_CTRL", 0x218, [(2,0x40)], .all, 0, 0, [⟨0,0,.rw,0⟩, ⟨1,1,.rw,0⟩, ⟨4,2,.rw,0⟩, ⟨5,5,.wo,0⟩, ⟨6,6,.rw,0⟩]⟩,
  ⟨"LNK_PORTp_CLR", 0x21c, [(2,0x40)], .all, 0, 0, [⟨0,0,.wo,0⟩, ⟨1,1,.wo,0⟩]⟩]

def rowsFXL : List RegRow := [
  ⟨"FXL_PORTp_CTRL", 0x0, [(2,0x100)], .all, 0, 0, [⟨0,0,.rw,0⟩, ⟨7,4,.rw,15⟩]⟩,
  ⟨"FXL_PORTp_LINES_s", 0x10, [(2,0x100), (4,0x4)], .all, 0, 0, [⟨31,0,.ro,0⟩]⟩,
  ⟨"FXL_PORTp_TRIG", 0x2c, [(2,0x100)], .all, 0, 0, [⟨31,0,.ro,0⟩]⟩,
  ⟨"FXL_PORTp_CRC_ERR", 0x20, [(2,0x100)], .all, 0, 0, [⟨31,0,.ro,0⟩]⟩,
  ⟨"FXL_PORTp_FRAME_ERR", 0x24, [(2,0x100)], .all, 0, 0, [⟨31,0,.ro,0⟩]⟩,
  ⟨"FXL_PORTp_DISCARD", 0x28, [(2,0x100)], .all, 0, 0, [⟨31,0,.ro,0⟩]⟩,
  ⟨"FXL_PORTp_CMD_ADDR", 0x30, [(2,0x100)], .all, 0, 0, [⟨31,0,.rw,0⟩]⟩,
  ⟨"FXL_PORTp_CMD_DATA", 0x34, [(2,0x100)], .all, 0, 0, [⟨31,0,.rw,0⟩]⟩,
  ⟨"FXL_PORTp_CMD_CTRL", 0x38, [(2,0x100)], .all, 0, 0, [⟨7,0,.rw,0⟩, ⟨9,8,.rw,1⟩, ⟨16,16,.wo,0⟩]⟩,
  ⟨"FXL_PORTp_CMD_STATUS", 0x3c, [(2,0x100)], .all, 0, 0, [⟨1,0,.ro,0⟩, ⟨15,8,.ro,0⟩]⟩,
  ⟨"FXL_PORTp_ACK_DATA", 0x40, [(2,0x100)], .all, 0, 0, [⟨31,0,.ro,0⟩]⟩,
  ⟨"FXL_PORTp_CMD_TMO", 0x44, [(2,0x100)], .all, 0, 0, [⟨15,0,.rw,1000⟩]⟩,
  ⟨"FXL_PORTp_ERR", 0x48, [(2,0x100)], .all, 0, 0, [⟨0,0,.w1c,0⟩, ⟨1,1,.w1c,0⟩, ⟨2,2,.w1c,0⟩, ⟨3,3,.w1c,0⟩]⟩,
  ⟨"FXL_PORTp_CLR", 0x4c, [(2,0x100)], .all, 0, 0, [⟨0,0,.wo,0⟩, ⟨1,1,.wo,0⟩, ⟨2,2,.wo,0⟩, ⟨3,3,.wo,0⟩, ⟨4,4,.wo,0⟩]⟩]

def rowsING : List RegRow := [
  ⟨"ING_PORTp_CTRL", 0x0, [(2,0x200)], .all, 100000, 0, [⟨3,0,.rw,3⟩, ⟨4,4,.rw,0⟩]⟩,
  ⟨"ING_PORTp_STATUS", 0x4, [(2,0x200)], .all, 0, 0, [⟨2,0,.ro,0⟩, ⟨6,4,.ro,0⟩, ⟨10,8,.ro,0⟩, ⟨14,12,.ro,0⟩, ⟨16,16,.ro,0⟩, ⟨18,17,.ro,0⟩]⟩,
  ⟨"ING_PORTp_ERR", 0x8, [(2,0x200)], .all, 0, 0, [⟨0,0,.w1c,0⟩, ⟨1,1,.w1c,0⟩, ⟨2,2,.w1c,0⟩, ⟨3,3,.w1c,0⟩, ⟨4,4,.w1c,0⟩, ⟨5,5,.w1c,0⟩]⟩,
  ⟨"ING_PORTp_CLR", 0xc, [(2,0x200)], .all, 0, 0, [⟨0,0,.wo,0⟩]⟩,
  ⟨"ING_PORTp_SUBs_CFG", 0x40, [(2,0x200), (4,0x40)], .all, 100000, 0, [⟨0,0,.rw,0⟩, ⟨15,8,.rw,1⟩, ⟨30,16,.rw,0⟩]⟩,
  ⟨"ING_PORTp_SUBs_STAMP_OFS", 0x44, [(2,0x200), (4,0x40)], .all, 100000, 0, [⟨31,0,.rw,0⟩]⟩,
  ⟨"ING_PORTp_SUBs_EXPECT_LO", 0x48, [(2,0x200), (4,0x40)], .all, 0, 1, [⟨31,0,.ro,0⟩]⟩,
  ⟨"ING_PORTp_SUBs_EXPECT_HI", 0x4c, [(2,0x200), (4,0x40)], .all, 0, 2, [⟨31,0,.ro,0⟩]⟩,
  ⟨"ING_PORTp_SUBs_GOOD", 0x50, [(2,0x200), (4,0x40)], .all, 0, 0, [⟨31,0,.ro,0⟩]⟩,
  ⟨"ING_PORTp_SUBs_MISSING", 0x54, [(2,0x200), (4,0x40)], .all, 0, 0, [⟨31,0,.ro,0⟩]⟩,
  ⟨"ING_PORTp_SUBs_OVERFLOW", 0x58, [(2,0x200), (4,0x40)], .all, 0, 0, [⟨31,0,.ro,0⟩]⟩,
  ⟨"ING_PORTp_SUBs_LATE", 0x5c, [(2,0x200), (4,0x40)], .all, 0, 0, [⟨31,0,.ro,0⟩]⟩,
  ⟨"ING_PORTp_SUBs_STAMP_ERR", 0x60, [(2,0x200), (4,0x40)], .all, 0, 0, [⟨31,0,.ro,0⟩]⟩,
  ⟨"ING_PORTp_SUBs_FMT_ERR", 0x64, [(2,0x200), (4,0x40)], .all, 0, 0, [⟨31,0,.ro,0⟩]⟩,
  ⟨"ING_PORTp_SUBs_DEADLINE", 0x68, [(2,0x200), (4,0x40)], .all, 0, 0, [⟨31,0,.ro,0⟩]⟩,
  ⟨"ING_PORTp_SUBs_SAT", 0x6c, [(2,0x200), (4,0x40)], .all, 0, 0, [⟨31,0,.ro,0⟩]⟩,
  ⟨"ING_PORTp_SUBs_CAMLOST", 0x70, [(2,0x200), (4,0x40)], .all, 0, 0, [⟨31,0,.ro,0⟩]⟩,
  ⟨"ING_PORTp_SUBs_TEST", 0x74, [(2,0x200), (4,0x40)], .all, 0, 0, [⟨31,0,.ro,0⟩]⟩]

def rowsCOR : List RegRow := [
  ⟨"COR_PORTp_SUBs_CTRL", 0x0, [(2,0x400), (4,0x100)], .all, 100000, 0, [⟨0,0,.rw,0⟩, ⟨1,1,.rw,0⟩, ⟨2,2,.rw,0⟩, ⟨3,3,.rw,0⟩, ⟨4,4,.rw,0⟩, ⟨28,16,.rw,0⟩]⟩,
  ⟨"COR_PORTp_SUBs_DPR_BASE", 0x4, [(2,0x400), (4,0x100)], .all, 100000, 0, [⟨21,2,.rw,0⟩]⟩,
  ⟨"COR_PORTp_SUBs_DPR_COUNT", 0x8, [(2,0x400), (4,0x100)], .all, 100000, 0, [⟨10,0,.rw,0⟩]⟩,
  ⟨"COR_PORTp_SUBs_DARK_BASE", 0xc, [(2,0x400), (4,0x100)], .all, 100000, 0, [⟨21,2,.rw,0⟩]⟩,
  ⟨"COR_PORTp_SUBs_GAINA_BASE", 0x10, [(2,0x400), (4,0x100)], .all, 100000, 0, [⟨21,2,.rw,0⟩]⟩,
  ⟨"COR_PORTp_SUBs_GAINB_BASE", 0x14, [(2,0x400), (4,0x100)], .all, 100000, 0, [⟨21,2,.rw,0⟩]⟩,
  ⟨"COR_PORTp_SUBs_LBUF_BASE", 0x18, [(2,0x400), (4,0x100)], .all, 100000, 0, [⟨21,2,.rw,0⟩]⟩,
  ⟨"COR_PORTp_SUBs_GAIN_CTRL", 0x1c, [(2,0x400), (4,0x100)], .all, 0, 0, [⟨0,0,.wo,0⟩, ⟨1,1,.ro,0⟩, ⟨2,2,.ro,0⟩, ⟨3,3,.ro,0⟩, ⟨4,4,.ro,0⟩, ⟨28,16,.ro,0⟩]⟩,
  ⟨"COR_PORTp_SUBs_ALIGN_R", 0x20, [(2,0x400), (4,0x100)], .all, 100000, 0, [⟨3,0,.rw,0⟩, ⟨15,8,.rw,0⟩]⟩,
  ⟨"COR_PORTp_SUBs_ALIGN_G", 0x24, [(2,0x400), (4,0x100)], .all, 100000, 0, [⟨3,0,.rw,0⟩, ⟨15,8,.rw,0⟩]⟩,
  ⟨"COR_PORTp_SUBs_ALIGN_B", 0x28, [(2,0x400), (4,0x100)], .all, 100000, 0, [⟨3,0,.rw,0⟩, ⟨15,8,.rw,0⟩]⟩,
  ⟨"COR_PORTp_SUBs_MTX_00", 0x2c, [(2,0x400), (4,0x100)], .all, 100000, 0, [⟨15,0,.rw,4096⟩]⟩,
  ⟨"COR_PORTp_SUBs_MTX_01", 0x30, [(2,0x400), (4,0x100)], .all, 100000, 0, [⟨15,0,.rw,0⟩]⟩,
  ⟨"COR_PORTp_SUBs_MTX_02", 0x34, [(2,0x400), (4,0x100)], .all, 100000, 0, [⟨15,0,.rw,0⟩]⟩,
  ⟨"COR_PORTp_SUBs_MTX_10", 0x38, [(2,0x400), (4,0x100)], .all, 100000, 0, [⟨15,0,.rw,0⟩]⟩,
  ⟨"COR_PORTp_SUBs_MTX_11", 0x3c, [(2,0x400), (4,0x100)], .all, 100000, 0, [⟨15,0,.rw,4096⟩]⟩,
  ⟨"COR_PORTp_SUBs_MTX_12", 0x40, [(2,0x400), (4,0x100)], .all, 100000, 0, [⟨15,0,.rw,0⟩]⟩,
  ⟨"COR_PORTp_SUBs_MTX_20", 0x44, [(2,0x400), (4,0x100)], .all, 100000, 0, [⟨15,0,.rw,0⟩]⟩,
  ⟨"COR_PORTp_SUBs_MTX_21", 0x48, [(2,0x400), (4,0x100)], .all, 100000, 0, [⟨15,0,.rw,0⟩]⟩,
  ⟨"COR_PORTp_SUBs_MTX_22", 0x4c, [(2,0x400), (4,0x100)], .all, 100000, 0, [⟨15,0,.rw,4096⟩]⟩,
  ⟨"COR_PORTp_SUBs_OFS_0", 0x50, [(2,0x400), (4,0x100)], .all, 100000, 0, [⟨23,0,.rw,0⟩]⟩,
  ⟨"COR_PORTp_SUBs_OFS_1", 0x54, [(2,0x400), (4,0x100)], .all, 100000, 0, [⟨23,0,.rw,0⟩]⟩,
  ⟨"COR_PORTp_SUBs_OFS_2", 0x58, [(2,0x400), (4,0x100)], .all, 100000, 0, [⟨23,0,.rw,0⟩]⟩,
  ⟨"COR_PORTp_SUBs_ERR", 0x5c, [(2,0x400), (4,0x100)], .all, 0, 0, [⟨0,0,.w1c,0⟩, ⟨1,1,.w1c,0⟩, ⟨2,2,.w1c,0⟩, ⟨3,3,.w1c,0⟩, ⟨4,4,.w1c,0⟩, ⟨5,5,.w1c,0⟩]⟩,
  ⟨"COR_PORTp_SUBs_LINES", 0x60, [(2,0x400), (4,0x100)], .all, 0, 0, [⟨31,0,.ro,0⟩]⟩,
  ⟨"COR_PORTp_SUBs_DPR_SKIPPED", 0x64, [(2,0x400), (4,0x100)], .all, 0, 0, [⟨31,0,.ro,0⟩]⟩]

def rowsEXP : List RegRow := [
  ⟨"EXP_PORTp_SET_CTRL", 0x0, [(2,0x200)], .all, 0, 0, [⟨7,0,.rw,0⟩, ⟨11,8,.rw,15⟩, ⟨16,16,.wo,0⟩, ⟨17,17,.ro,0⟩]⟩,
  ⟨"EXP_PORTp_SET_EXPOSURE", 0x4, [(2,0x200)], .all, 0, 0, [⟨31,0,.rw,10000⟩]⟩,
  ⟨"EXP_PORTp_SET_GAIN_RG", 0x8, [(2,0x200)], .all, 0, 0, [⟨15,0,.rw,4096⟩, ⟨31,16,.rw,4096⟩]⟩,
  ⟨"EXP_PORTp_SET_GAIN_B", 0xc, [(2,0x200)], .all, 0, 0, [⟨15,0,.rw,4096⟩]⟩,
  ⟨"EXP_PORTp_CUR", 0x10, [(2,0x200)], .all, 0, 0, [⟨31,0,.ro,0⟩]⟩,
  ⟨"EXP_PORTp_LAST_COMMIT", 0x14, [(2,0x200)], .all, 0, 0, [⟨7,0,.ro,0⟩, ⟨8,8,.ro,0⟩]⟩,
  ⟨"EXP_PORTp_COMMIT_BAND_LO", 0x18, [(2,0x200)], .all, 0, 1, [⟨31,0,.ro,0⟩]⟩,
  ⟨"EXP_PORTp_COMMIT_BAND_HI", 0x1c, [(2,0x200)], .all, 0, 2, [⟨31,0,.ro,0⟩]⟩,
  ⟨"EXP_PORTp_ERR", 0x20, [(2,0x200)], .all, 0, 0, [⟨0,0,.w1c,0⟩, ⟨1,1,.w1c,0⟩, ⟨2,2,.w1c,0⟩, ⟨3,3,.w1c,0⟩, ⟨4,4,.w1c,0⟩, ⟨5,5,.w1c,0⟩]⟩,
  ⟨"EXP_PORTp_AE_CTRL", 0x24, [(2,0x200)], .all, 0, 0, [⟨0,0,.rw,0⟩, ⟨1,1,.rw,0⟩, ⟨5,2,.rw,0⟩, ⟨15,8,.rw,8⟩, ⟨27,16,.rw,512⟩]⟩,
  ⟨"EXP_PORTp_AE_TARGET", 0x28, [(2,0x200)], .all, 0, 0, [⟨23,0,.rw,8388608⟩]⟩,
  ⟨"EXP_PORTp_AE_TOL", 0x2c, [(2,0x200)], .all, 0, 0, [⟨11,0,.rw,128⟩]⟩,
  ⟨"EXP_PORTp_AE_EXP_MIN", 0x30, [(2,0x200)], .all, 0, 0, [⟨31,0,.rw,1000⟩]⟩,
  ⟨"EXP_PORTp_AE_EXP_MAX", 0x34, [(2,0x200)], .all, 0, 0, [⟨31,0,.rw,10000⟩]⟩,
  ⟨"EXP_PORTp_AE_GAIN_LIM", 0x38, [(2,0x200)], .all, 0, 0, [⟨15,0,.rw,4096⟩, ⟨31,16,.rw,16384⟩]⟩,
  ⟨"EXP_PORTp_AE_SAT", 0x3c, [(2,0x200)], .all, 0, 0, [⟨15,0,.rw,328⟩]⟩,
  ⟨"EXP_PORTp_AE_ZONES_LO", 0x40, [(2,0x200)], .all, 0, 1, [⟨31,0,.rw,4294967295⟩]⟩,
  ⟨"EXP_PORTp_AE_ZONES_HI", 0x44, [(2,0x200)], .all, 0, 2, [⟨31,0,.rw,4294967295⟩]⟩,
  ⟨"EXP_PORTp_WB_ZONES_LO", 0x48, [(2,0x200)], .all, 0, 1, [⟨31,0,.rw,0⟩]⟩,
  ⟨"EXP_PORTp_WB_ZONES_HI", 0x4c, [(2,0x200)], .all, 0, 2, [⟨31,0,.rw,0⟩]⟩,
  ⟨"EXP_PORTp_AE_STATUS", 0x50, [(2,0x200)], .all, 0, 0, [⟨0,0,.ro,0⟩, ⟨1,1,.w1c,0⟩, ⟨2,2,.w1c,0⟩, ⟨3,3,.w1c,0⟩]⟩,
  ⟨"EXP_PORTp_AE_MEAN", 0x54, [(2,0x200)], .all, 0, 0, [⟨23,0,.ro,0⟩]⟩,
  ⟨"EXP_PORTp_AE_COMMITS", 0x58, [(2,0x200)], .all, 0, 0, [⟨31,0,.ro,0⟩]⟩,
  ⟨"EXP_PORTp_SUBs_STAT_CTRL", 0x100, [(2,0x200), (4,0x20)], .all, 100000, 0, [⟨0,0,.rw,0⟩, ⟨1,1,.rw,0⟩, ⟨2,2,.rw,0⟩, ⟨14,8,.rw,16⟩]⟩,
  ⟨"EXP_PORTp_SUBs_WIN", 0x104, [(2,0x200), (4,0x20)], .all, 100000, 0, [⟨13,0,.rw,0⟩, ⟨30,16,.rw,0⟩]⟩,
  ⟨"EXP_PORTp_SUBs_MIXED", 0x108, [(2,0x200), (4,0x20)], .all, 0, 0, [⟨31,0,.ro,0⟩]⟩,
  ⟨"EXP_PORTp_SUBs_DROPPED", 0x10c, [(2,0x200), (4,0x20)], .all, 0, 0, [⟨31,0,.ro,0⟩]⟩,
  ⟨"EXP_PORTp_SUBs_LAST_TAG", 0x110, [(2,0x200), (4,0x20)], .all, 0, 0, [⟨7,0,.ro,0⟩, ⟨8,8,.ro,0⟩]⟩,
  ⟨"EXP_CTRL", 0x400, [], .all, 0, 0, [⟨7,0,.rw,0⟩]⟩,
  ⟨"EXP_CLR", 0x404, [], .all, 0, 0, [⟨0,0,.wo,0⟩]⟩]

def rowsSTI : List RegRow := [
  ⟨"STI_TRIM_CTRL", 0x0, [], .all, 0, 0, [⟨0,0,.wo,0⟩, ⟨1,1,.ro,0⟩]⟩,
  ⟨"STI_ERR", 0x4, [], .all, 0, 0, [⟨0,0,.w1c,0⟩, ⟨1,1,.w1c,0⟩, ⟨2,2,.w1c,0⟩, ⟨3,3,.w1c,0⟩, ⟨4,4,.w1c,0⟩, ⟨5,5,.w1c,0⟩]⟩,
  ⟨"STI_CLR", 0x8, [], .all, 0, 0, [⟨0,0,.wo,0⟩]⟩,
  ⟨"STI_GRPg_CFG", 0x100, [(8,0x40)], .all, 100000, 0, [⟨0,0,.rw,0⟩, ⟨1,1,.rw,0⟩, ⟨2,2,.rw,0⟩]⟩,
  ⟨"STI_GRPg_WIDTH", 0x104, [(8,0x40)], .all, 100000, 0, [⟨17,0,.rw,0⟩]⟩,
  ⟨"STI_GRPg_PITCH", 0x108, [(8,0x40)], .all, 100000, 0, [⟨31,0,.rw,2621440⟩]⟩,
  ⟨"STI_GRPg_XOFS", 0x10c, [(8,0x40)], .all, 100000, 0, [⟨31,0,.rw,0⟩]⟩,
  ⟨"STI_GRPg_WEB_OFS", 0x110, [(8,0x40)], .all, 100000, 0, [⟨31,0,.rw,0⟩]⟩,
  ⟨"STI_GRPg_SEG_X0", 0x114, [(8,0x40)], .all, 100000, 0, [⟨16,0,.rw,0⟩]⟩,
  ⟨"STI_GRPg_SEG_W", 0x118, [(8,0x40)], .all, 100000, 0, [⟨17,0,.rw,0⟩]⟩,
  ⟨"STI_GRPg_MAP_BASE", 0x11c, [(8,0x40)], .all, 100000, 0, [⟨21,2,.rw,0⟩]⟩,
  ⟨"STI_GRPg_HEDGE_BASE", 0x120, [(8,0x40)], .all, 100000, 0, [⟨21,2,.rw,0⟩]⟩,
  ⟨"STI_GRPg_HEDGE_COUNT", 0x124, [(8,0x40)], .all, 100000, 0, [⟨4,0,.rw,0⟩]⟩,
  ⟨"STI_GRPg_LINES", 0x128, [(8,0x40)], .all, 0, 0, [⟨31,0,.ro,0⟩]⟩,
  ⟨"STI_GRPg_SINGLE", 0x12c, [(8,0x40)], .all, 0, 0, [⟨31,0,.ro,0⟩]⟩,
  ⟨"STI_GRPg_HEDGEh_MAD", 0x400, [(8,0x40), (16,0x4)], .all, 0, 0, [⟨23,0,.ro,0⟩, ⟨31,31,.ro,0⟩]⟩,
  ⟨"STI_SUBt_CFG", 0x600, [(8,0x20)], .all, 100000, 0, [⟨0,0,.rw,0⟩, ⟨3,1,.rw,0⟩]⟩,
  ⟨"STI_SUBt_DELAY", 0x604, [(8,0x20)], .all, 100000, 0, [⟨9,0,.rw,0⟩, ⟨23,16,.rw,0⟩]⟩,
  ⟨"STI_SUBt_HIST_BASE", 0x608, [(8,0x20)], .all, 100000, 0, [⟨21,2,.rw,0⟩]⟩,
  ⟨"STI_SUBt_HIST_SLOTS", 0x60c, [(8,0x20)], .all, 100000, 0, [⟨10,0,.rw,0⟩]⟩,
  ⟨"STI_SUBt_TRIM_X", 0x610, [(8,0x20)], .all, 0, 0, [⟨15,0,.rw,0⟩]⟩,
  ⟨"STI_SUBt_TRIM_Y", 0x614, [(8,0x20)], .all, 0, 0, [⟨15,0,.rw,0⟩]⟩,
  ⟨"STI_SUBt_TRIM_NOW", 0x618, [(8,0x20)], .all, 0, 0, [⟨15,0,.ro,0⟩, ⟨31,16,.ro,0⟩]⟩,
  ⟨"STI_IMPi_CFG", 0x800, [(4,0x10)], .all, 100000, 0, [⟨0,0,.rw,0⟩, ⟨13,8,.rw,0⟩]⟩,
  ⟨"STI_IMPi_X0", 0x804, [(4,0x10)], .all, 100000, 0, [⟨13,0,.rw,0⟩]⟩,
  ⟨"STI_IMPi_COUNT", 0x808, [(4,0x10)], .all, 100000, 0, [⟨10,0,.rw,1⟩]⟩,
  ⟨"STI_IMPi_LATE", 0x80c, [(4,0x10)], .all, 0, 0, [⟨31,0,.ro,0⟩]⟩]

def rowsREF : List RegRow := [
  ⟨"REF_CTRL", 0x0, [], .lead, 100000, 0, [⟨7,0,.rw,0⟩, ⟨15,8,.rw,1⟩]⟩,
  ⟨"REF_LEAD_MIN", 0x4, [], .lead, 100000, 0, [⟨3,0,.rw,2⟩]⟩,
  ⟨"REF_ERR", 0x8, [], .all, 0, 0, [⟨0,0,.w1c,0⟩, ⟨1,1,.w1c,0⟩, ⟨2,2,.w1c,0⟩, ⟨3,3,.w1c,0⟩, ⟨4,4,.w1c,0⟩, ⟨5,5,.w1c,0⟩, ⟨6,6,.w1c,0⟩, ⟨7,7,.w1c,0⟩, ⟨8,8,.w1c,0⟩, ⟨9,9,.w1c,0⟩, ⟨10,10,.w1c,0⟩, ⟨11,11,.w1c,0⟩]⟩,
  ⟨"REF_DISCARD", 0xc, [], .all, 0, 0, [⟨31,0,.ro,0⟩]⟩,
  ⟨"REF_CLR", 0x10, [], .all, 0, 0, [⟨0,0,.wo,0⟩]⟩,
  ⟨"REF_GRPg_CFG", 0x100, [(8,0x80)], .all, 100000, 0, [⟨0,0,.rw,0⟩, ⟨1,1,.rw,0⟩, ⟨2,2,.rw,0⟩, ⟨3,3,.rw,0⟩, ⟨4,4,.rw,1⟩, ⟨5,5,.rw,0⟩, ⟨6,6,.rw,0⟩, ⟨10,8,.rw,0⟩, ⟨18,12,.rw,0⟩, ⟨23,20,.rw,0⟩]⟩,
  ⟨"REF_GRPg_LPR", 0x104, [(8,0x80)], .all, 100000, 0, [⟨19,0,.rw,1⟩]⟩,
  ⟨"REF_GRPg_RING_BASE", 0x108, [(8,0x80)], .all, 100000, 0, [⟨21,2,.rw,0⟩]⟩,
  ⟨"REF_GRPg_RING_SIZE", 0x10c, [(8,0x80)], .all, 100000, 0, [⟨22,0,.rw,0⟩]⟩,
  ⟨"REF_GRPg_RING_X0", 0x110, [(8,0x80)], .all, 100000, 0, [⟨16,0,.rw,0⟩]⟩,
  ⟨"REF_GRPg_RING_COLS", 0x114, [(8,0x80)], .all, 100000, 0, [⟨17,0,.rw,0⟩]⟩,
  ⟨"REF_GRPg_WIN_BASE", 0x118, [(8,0x80)], .all, 100000, 0, [⟨21,2,.rw,0⟩]⟩,
  ⟨"REF_GRPg_WIN_LINES", 0x11c, [(8,0x80)], .all, 100000, 0, [⟨8,0,.rw,8⟩]⟩,
  ⟨"REF_GRPg_COARSE_BASE", 0x120, [(8,0x80)], .all, 100000, 0, [⟨21,2,.rw,0⟩]⟩,
  ⟨"REF_GRPg_COARSE_ROWS", 0x124, [(8,0x80)], .all, 100000, 0, [⟨12,0,.rw,16⟩]⟩,
  ⟨"REF_GRPg_SEARCH", 0x128, [(8,0x80)], .all, 100000, 0, [⟨7,0,.rw,8⟩, ⟨15,8,.rw,8⟩, ⟨21,16,.rw,16⟩, ⟨29,24,.rw,32⟩]⟩,
  ⟨"REF_GRPg_PATCH_BASE", 0x12c, [(8,0x80)], .all, 100000, 0, [⟨21,2,.rw,0⟩]⟩,
  ⟨"REF_GRPg_REG", 0x130, [(8,0x80)], .all, 100000, 0, [⟨7,0,.rw,128⟩, ⟨23,8,.rw,16⟩, ⟨31,24,.rw,64⟩]⟩,
  ⟨"REF_GRPg_LIMITS", 0x134, [(8,0x80)], .all, 100000, 0, [⟨15,0,.rw,3200⟩, ⟨31,16,.rw,2000⟩]⟩,
  ⟨"REF_GRPg_MARGINS", 0x138, [(8,0x80)], .all, 100000, 0, [⟨15,0,.rw,256⟩, ⟨31,16,.rw,64⟩]⟩,
  ⟨"REF_GRPg_TRACK", 0x13c, [(8,0x80)], .all, 100000, 0, [⟨7,0,.rw,64⟩, ⟨13,8,.rw,0⟩]⟩,
  ⟨"REF_GRPg_LEARN", 0x140, [(8,0x80)], .all, 100000, 0, [⟨3,0,.rw,5⟩, ⟨4,4,.wo,0⟩]⟩,
  ⟨"REF_GRPg_LEARN_BASE", 0x144, [(8,0x80)], .all, 100000, 0, [⟨21,2,.rw,0⟩]⟩,
  ⟨"REF_GRPg_STATUS", 0x148, [(8,0x80)], .all, 0, 0, [⟨7,0,.ro,0⟩, ⟨8,8,.ro,0⟩, ⟨9,9,.ro,0⟩, ⟨10,10,.ro,0⟩, ⟨11,11,.ro,0⟩, ⟨15,12,.ro,0⟩, ⟨31,16,.ro,0⟩]⟩,
  ⟨"REF_GRPg_SOL_DY", 0x14c, [(8,0x80)], .all, 0, 0, [⟨31,0,.ro,0⟩]⟩,
  ⟨"REF_GRPg_SOL_DX", 0x150, [(8,0x80)], .all, 0, 0, [⟨31,0,.ro,0⟩]⟩,
  ⟨"REF_GRPg_SOL_SCALE", 0x154, [(8,0x80)], .all, 0, 0, [⟨31,0,.ro,0⟩]⟩,
  ⟨"REF_GRPg_SOL_SKEW", 0x158, [(8,0x80)], .all, 0, 0, [⟨31,0,.ro,0⟩]⟩,
  ⟨"REF_GRPg_INIT_DY", 0x15c, [(8,0x80)], .all, 100000, 0, [⟨31,0,.rw,0⟩]⟩,
  ⟨"REF_GRPg_INIT_DX", 0x160, [(8,0x80)], .all, 100000, 0, [⟨31,0,.rw,0⟩]⟩,
  ⟨"REF_GRPg_INIT_SCALE", 0x164, [(8,0x80)], .all, 100000, 0, [⟨31,0,.rw,0⟩]⟩,
  ⟨"REF_GRPg_INIT_SKEW", 0x168, [(8,0x80)], .all, 100000, 0, [⟨31,0,.rw,0⟩]⟩,
  ⟨"REF_GRPg_HORIZON_REP", 0x16c, [(8,0x80)], .all, 0, 0, [⟨31,0,.ro,0⟩]⟩,
  ⟨"REF_GRPg_HORIZON_LINE", 0x170, [(8,0x80)], .all, 0, 0, [⟨19,0,.ro,0⟩]⟩,
  ⟨"REF_GRPg_STITCH_RES", 0x174, [(8,0x80)], .all, 0, 0, [⟨15,0,.ro,65535⟩]⟩,
  ⟨"REF_GRPg_LATE", 0x178, [(8,0x80)], .all, 0, 0, [⟨31,0,.ro,0⟩]⟩,
  ⟨"REF_GRPg_FAILS", 0x17c, [(8,0x80)], .all, 0, 0, [⟨31,0,.ro,0⟩]⟩,
  ⟨"REF_GRPg_NODE_j", 0x600, [(8,0x80), (32,0x4)], .all, 0, 0, [⟨15,0,.ro,0⟩, ⟨31,16,.ro,0⟩]⟩]

def rowsSEG : List RegRow := [
  ⟨"SEG_ERR", 0x0, [], .all, 0, 0, [⟨0,0,.w1c,0⟩, ⟨1,1,.w1c,0⟩, ⟨2,2,.w1c,0⟩, ⟨3,3,.w1c,0⟩, ⟨4,4,.w1c,0⟩, ⟨5,5,.w1c,0⟩]⟩,
  ⟨"SEG_CLR", 0x4, [], .all, 0, 0, [⟨0,0,.wo,0⟩]⟩,
  ⟨"SEG_GRPg_CFG", 0x100, [(8,0x40)], .all, 100000, 0, [⟨0,0,.rw,0⟩, ⟨2,1,.rw,0⟩, ⟨5,3,.rw,0⟩, ⟨6,6,.rw,0⟩]⟩,
  ⟨"SEG_GRPg_LUT_BASE", 0x104, [(8,0x40)], .all, 100000, 0, [⟨21,2,.rw,0⟩]⟩,
  ⟨"SEG_GRPg_WEIGHT_01", 0x108, [(8,0x40)], .all, 100000, 0, [⟨15,0,.rw,4096⟩, ⟨31,16,.rw,4096⟩]⟩,
  ⟨"SEG_GRPg_WEIGHT_2", 0x10c, [(8,0x40)], .all, 100000, 0, [⟨15,0,.rw,4096⟩]⟩,
  ⟨"SEG_GRPg_SET_BASE", 0x110, [(8,0x40)], .all, 100000, 0, [⟨21,2,.rw,0⟩]⟩,
  ⟨"SEG_GRPg_MAXLEN", 0x114, [(8,0x40)], .all, 100000, 0, [⟨12,0,.rw,1024⟩]⟩,
  ⟨"SEG_GRPg_OPEN", 0x118, [(8,0x40)], .all, 0, 0, [⟨12,0,.ro,0⟩, ⟨28,16,.ro,0⟩]⟩,
  ⟨"SEG_GRPg_BRAMBLES", 0x11c, [(8,0x40)], .all, 0, 0, [⟨31,0,.ro,0⟩]⟩,
  ⟨"SEG_GRPg_REJECTED", 0x120, [(8,0x40)], .all, 0, 0, [⟨31,0,.ro,0⟩]⟩,
  ⟨"SEG_GRPg_TRUNCATED", 0x124, [(8,0x40)], .all, 0, 0, [⟨31,0,.ro,0⟩]⟩,
  ⟨"SEG_GRPg_UNLABELLED", 0x128, [(8,0x40)], .all, 0, 0, [⟨31,0,.ro,0⟩]⟩,
  ⟨"SEG_GRPg_DROPPED", 0x12c, [(8,0x40)], .all, 0, 0, [⟨31,0,.ro,0⟩]⟩,
  ⟨"SEG_GRPg_NOVERDICT", 0x130, [(8,0x40)], .all, 0, 0, [⟨31,0,.ro,0⟩]⟩]

def rowsCOL : List RegRow := [
  ⟨"COL_CTRL", 0x0, [], .lead, 100000, 0, [⟨7,0,.rw,0⟩]⟩,
  ⟨"COL_STATUS", 0x4, [], .lead, 0, 0, [⟨2,0,.ro,0⟩, ⟨3,3,.ro,0⟩]⟩,
  ⟨"COL_ERR", 0x8, [], .lead, 0, 0, [⟨0,0,.w1c,0⟩, ⟨1,1,.w1c,0⟩, ⟨2,2,.w1c,0⟩, ⟨3,3,.w1c,0⟩, ⟨4,4,.w1c,0⟩]⟩,
  ⟨"COL_CLR", 0xc, [], .lead, 0, 0, [⟨0,0,.wo,0⟩]⟩,
  ⟨"COL_GRID_CTRL", 0x10, [], .lead, 100000, 0, [⟨0,0,.rw,0⟩, ⟨2,1,.rw,0⟩, ⟨14,8,.rw,0⟩, ⟨24,16,.rw,0⟩]⟩,
  ⟨"COL_GRID_LEN", 0x14, [], .lead, 100000, 0, [⟨31,0,.rw,1000000⟩]⟩,
  ⟨"COL_GRID_ORIGIN", 0x18, [], .lead, 100000, 0, [⟨31,0,.rw,0⟩]⟩,
  ⟨"COL_GRID_TOL", 0x1c, [], .lead, 100000, 0, [⟨15,0,.rw,1638⟩]⟩,
  ⟨"COL_GRID_LANE_BASE", 0x20, [], .lead, 100000, 0, [⟨21,2,.rw,0⟩]⟩,
  ⟨"COL_GRID_ROW_BASE", 0x24, [], .lead, 100000, 0, [⟨21,2,.rw,0⟩]⟩,
  ⟨"COL_GRID_REPEAT_BASE", 0x28, [], .lead, 100000, 0, [⟨31,0,.rw,0⟩]⟩,
  ⟨"COL_GRID_SYNTH", 0x2c, [], .lead, 0, 0, [⟨31,0,.ro,0⟩]⟩,
  ⟨"COL_GRID_IGNORED", 0x30, [], .lead, 0, 0, [⟨31,0,.ro,0⟩]⟩,
  ⟨"COL_MARK_CTRL", 0x34, [], .lead, 100000, 0, [⟨0,0,.rw,0⟩, ⟨1,1,.rw,0⟩, ⟨2,2,.rw,0⟩, ⟨31,16,.rw,0⟩]⟩,
  ⟨"COL_MARK_CLASS_k", 0x38, [(8,0x4)], .lead, 100000, 0, [⟨31,0,.rw,0⟩]⟩,
  ⟨"COL_MARK_APPENDED", 0x58, [], .lead, 0, 0, [⟨31,0,.ro,0⟩]⟩,
  ⟨"COL_MARK_MERGED", 0x5c, [], .lead, 0, 0, [⟨31,0,.ro,0⟩]⟩,
  ⟨"COL_MARK_LOST", 0x60, [], .lead, 0, 0, [⟨31,0,.ro,0⟩]⟩,
  ⟨"COL_LATE_BANDS", 0x64, [], .lead, 0, 0, [⟨31,0,.ro,0⟩]⟩,
  ⟨"COL_CAPPED", 0x68, [], .lead, 0, 0, [⟨31,0,.ro,0⟩]⟩,
  ⟨"COL_LOST", 0x6c, [], .lead, 0, 0, [⟨31,0,.ro,0⟩]⟩,
  ⟨"COL_RECORDS", 0x70, [], .lead, 0, 0, [⟨31,0,.ro,0⟩]⟩]

def rowsENG : List RegRow := [
  ⟨"ENG_ERR", 0x0, [], .all, 0, 0, [⟨0,0,.w1c,0⟩, ⟨1,1,.w1c,0⟩, ⟨2,2,.w1c,0⟩]⟩,
  ⟨"ENG_CLR", 0x4, [], .all, 0, 0, [⟨0,0,.wo,0⟩]⟩,
  ⟨"ENG_FAULT_MAP_w", 0x8, [(4,0x4)], .all, 0, 0, [⟨31,0,.w1c,0⟩]⟩,
  ⟨"ENG_CLc_BAR_MASK", 0x100, [(8,0x10)], .all, 100000, 0, [⟨15,0,.rw,0⟩]⟩,
  ⟨"ENG_CLc_BAR_GEN", 0x104, [(8,0x10)], .all, 0, 0, [⟨31,0,.ro,0⟩]⟩,
  ⟨"ENG_INSTi_CFG", 0x200, [(32,0x4)], .all, 100000, 0, [⟨0,0,.rw,0⟩, ⟨3,1,.rw,0⟩, ⟨6,4,.rw,0⟩, ⟨7,7,.rw,0⟩]⟩,
  ⟨"ENG_Et_CFG", 0x1000, [(128,0x40)], .all, 100000, 0, [⟨0,0,.rw,0⟩, ⟨1,1,.rw,0⟩, ⟨2,2,.rw,0⟩, ⟨7,3,.rw,0⟩, ⟨11,8,.rw,0⟩]⟩,
  ⟨"ENG_Et_ENTRY_IB", 0x1004, [(128,0x40)], .all, 100000, 0, [⟨10,0,.rw,0⟩, ⟨26,16,.rw,0⟩]⟩,
  ⟨"ENG_Et_ENTRY_A", 0x1008, [(128,0x40)], .all, 100000, 0, [⟨10,0,.rw,0⟩]⟩,
  ⟨"ENG_Et_LOCAL_BASE", 0x100c, [(128,0x40)], .all, 100000, 0, [⟨15,0,.rw,40960⟩]⟩,
  ⟨"ENG_Et_BUDGET", 0x1010, [(128,0x40)], .all, 100000, 0, [⟨31,0,.rw,0⟩]⟩,
  ⟨"ENG_Et_IN0", 0x1014, [(128,0x40)], .all, 100000, 0, [⟨7,0,.rw,0⟩]⟩,
  ⟨"ENG_Et_IN1", 0x1018, [(128,0x40)], .all, 100000, 0, [⟨7,0,.rw,0⟩]⟩,
  ⟨"ENG_Et_OUT", 0x101c, [(128,0x40)], .all, 100000, 0, [⟨7,0,.rw,0⟩, ⟨15,8,.rw,0⟩]⟩,
  ⟨"ENG_Et_STATUS", 0x1020, [(128,0x40)], .all, 0, 0, [⟨2,0,.ro,0⟩, ⟨3,3,.ro,0⟩, ⟨7,4,.ro,0⟩, ⟨10,8,.ro,0⟩]⟩,
  ⟨"ENG_Et_CYCLES_LAST", 0x1024, [(128,0x40)], .all, 0, 0, [⟨31,0,.ro,0⟩]⟩,
  ⟨"ENG_Et_CYCLES_MAX", 0x1028, [(128,0x40)], .all, 0, 0, [⟨31,0,.ro,0⟩]⟩,
  ⟨"ENG_Et_ERR", 0x102c, [(128,0x40)], .all, 0, 0, [⟨0,0,.w1c,0⟩, ⟨1,1,.w1c,0⟩, ⟨2,2,.w1c,0⟩, ⟨3,3,.w1c,0⟩, ⟨4,4,.w1c,0⟩, ⟨5,5,.w1c,0⟩, ⟨6,6,.w1c,0⟩, ⟨7,7,.w1c,0⟩]⟩,
  ⟨"ENG_Et_FAULT_PC", 0x1030, [(128,0x40)], .all, 0, 0, [⟨10,0,.ro,0⟩]⟩,
  ⟨"ENG_Et_DBG", 0x1034, [(128,0x40)], .all, 0, 0, [⟨0,0,.rw,0⟩, ⟨1,1,.wo,0⟩, ⟨2,2,.rw,0⟩, ⟨14,4,.rw,0⟩, ⟨31,28,.w1c,0⟩]⟩,
  ⟨"ENG_Et_DBG_SEL", 0x1038, [(128,0x40)], .all, 0, 0, [⟨7,0,.rw,0⟩, ⟨11,8,.rw,0⟩, ⟨12,12,.rw,0⟩]⟩,
  ⟨"ENG_Et_DBG_DATA", 0x103c, [(128,0x40)], .all, 0, 0, [⟨31,0,.rw,0⟩]⟩,
  ⟨"ENG_Et_IN_LOST", 0x3000, [(128,0x4)], .all, 0, 0, [⟨31,0,.ro,0⟩]⟩]

def rowsCFG : List RegRow := [
  ⟨"CFG_CTRL", 0x0, [], .lead, 0, 0, [⟨0,0,.rw,0⟩, ⟨1,1,.wo,0⟩]⟩,
  ⟨"CFG_STATUS", 0x4, [], .lead, 0, 0, [⟨2,0,.ro,6⟩, ⟨3,3,.ro,0⟩, ⟨4,4,.ro,0⟩, ⟨10,8,.ro,0⟩]⟩,
  ⟨"CFG_ERR", 0x8, [], .lead, 0, 0, [⟨0,0,.w1c,0⟩, ⟨1,1,.w1c,0⟩, ⟨2,2,.w1c,0⟩, ⟨3,3,.w1c,0⟩, ⟨4,4,.w1c,0⟩, ⟨5,5,.w1c,0⟩, ⟨6,6,.w1c,0⟩]⟩,
  ⟨"CFG_REFUSE", 0xc, [], .lead, 0, 0, [⟨7,0,.ro,0⟩, ⟨19,8,.ro,0⟩]⟩,
  ⟨"CFG_REFUSE_OFS", 0x10, [], .lead, 0, 0, [⟨31,0,.ro,0⟩]⟩,
  ⟨"CFG_ACTIVE_JOB", 0x14, [], .lead, 0, 0, [⟨31,0,.ro,0⟩]⟩,
  ⟨"CFG_SHADOW_JOB", 0x18, [], .lead, 0, 0, [⟨31,0,.ro,0⟩]⟩,
  ⟨"CFG_INSTALL_ID", 0x1c, [], .lead, 0, 0, [⟨31,0,.ro,0⟩]⟩,
  ⟨"CFG_SWAP_CTRL", 0x20, [], .lead, 0, 0, [⟨0,0,.wo,0⟩, ⟨1,1,.wo,0⟩, ⟨2,2,.rw,0⟩, ⟨3,3,.rw,0⟩, ⟨4,4,.rw,1⟩]⟩,
  ⟨"CFG_SWAP_POS_LO", 0x24, [], .lead, 0, 1, [⟨31,0,.rw,0⟩]⟩,
  ⟨"CFG_SWAP_POS_HI", 0x28, [], .lead, 0, 2, [⟨31,0,.rw,0⟩]⟩,
  ⟨"CFG_SWAP_BAND_LO", 0x2c, [], .lead, 0, 1, [⟨31,0,.ro,0⟩]⟩,
  ⟨"CFG_SWAP_BAND_HI", 0x30, [], .lead, 0, 2, [⟨31,0,.ro,0⟩]⟩,
  ⟨"CFG_SWAP_WEB_LO", 0x34, [], .lead, 0, 1, [⟨31,0,.ro,0⟩]⟩,
  ⟨"CFG_SWAP_WEB_HI", 0x38, [], .lead, 0, 2, [⟨31,0,.ro,0⟩]⟩,
  ⟨"CFG_SWAPS", 0x3c, [], .lead, 0, 0, [⟨31,0,.ro,0⟩]⟩,
  ⟨"CFG_LOAD_BYTES", 0x40, [], .lead, 0, 0, [⟨31,0,.ro,0⟩]⟩,
  ⟨"CFG_LOAD_RECORDS", 0x44, [], .lead, 0, 0, [⟨31,0,.ro,0⟩]⟩,
  ⟨"CFG_LOADS_REFUSED", 0x48, [], .lead, 0, 0, [⟨31,0,.ro,0⟩]⟩,
  ⟨"CFG_XOVER", 0x4c, [], .lead, 100000, 0, [⟨7,0,.rw,0⟩]⟩]

def rowsPOS0 : List RegRow := [
  ⟨"POS_CTRL", 0x0, [], .lead, 0, 0, [⟨1,0,.rw,0⟩, ⟨2,2,.rw,0⟩]⟩,
  ⟨"POS_STATUS", 0x4, [], .lead, 0, 0, [⟨0,0,.ro,0⟩, ⟨1,1,.ro,0⟩, ⟨2,2,.ro,1⟩, ⟨3,3,.ro,0⟩]⟩,
  ⟨"POS_ERR", 0x8, [], .lead, 0, 0, [⟨0,0,.w1c,0⟩, ⟨1,1,.w1c,0⟩, ⟨2,2,.w1c,0⟩, ⟨3,3,.w1c,0⟩, ⟨4,4,.w1c,0⟩]⟩,
  ⟨"POS_CLR", 0xc, [], .lead, 0, 0, [⟨0,0,.wo,0⟩]⟩,
  ⟨"POS_UM_PER_COUNT_LO", 0x10, [], .lead, 0, 1, [⟨31,0,.rw,0⟩]⟩,
  ⟨"POS_UM_PER_COUNT_HI", 0x14, [], .lead, 0, 2, [⟨15,0,.rw,10⟩]⟩,
  ⟨"POS_LTG_DIV_LO", 0x18, [], .lead, 0, 1, [⟨31,0,.rw,0⟩]⟩,
  ⟨"POS_LTG_DIV_HI", 0x1c, [], .lead, 0, 2, [⟨31,0,.rw,4⟩]⟩,
  ⟨"POS_LTG_NEXT_LO", 0x20, [], .lead, 0, 1, [⟨31,0,.ro,0⟩]⟩,
  ⟨"POS_LTG_NEXT_HI", 0x24, [], .lead, 0, 2, [⟨31,0,.ro,0⟩]⟩,
  ⟨"POS_LTG_TICKS", 0x28, [], .lead, 0, 0, [⟨31,0,.ro,0⟩]⟩,
  ⟨"POS_STANDSTILL", 0x2c, [], .lead, 0, 0, [⟨15,0,.rw,50⟩]⟩,
  ⟨"POS_WEB_SPEED", 0x30, [], .lead, 0, 0, [⟨31,0,.ro,0⟩]⟩,
  ⟨"POS_MARK_CTRL", 0x34, [], .lead, 0, 0, [⟨0,0,.rw,0⟩, ⟨4,1,.rw,0⟩, ⟨31,16,.rw,2500⟩]⟩,
  ⟨"POS_MARK_OFFSET", 0x38, [], .lead, 0, 0, [⟨25,0,.rw,0⟩]⟩,
  ⟨"POS_MARK_MISSED", 0x3c, [], .lead, 0, 0, [⟨31,0,.ro,0⟩]⟩,
  ⟨"POS_CHc_CFG", 0x100, [(4,0x40)], .lead, 0, 0, [⟨1,0,.rw,0⟩, ⟨2,2,.rw,0⟩, ⟨3,3,.rw,0⟩, ⟨5,4,.rw,0⟩, ⟨6,6,.rw,0⟩, ⟨9,7,.rw,0⟩, ⟨31,16,.rw,0⟩]⟩,
  ⟨"POS_CHc_STATUS", 0x104, [(4,0x40)], .lead, 0, 0, [⟨0,0,.ro,0⟩, ⟨1,1,.ro,0⟩, ⟨2,2,.ro,1⟩, ⟨3,3,.ro,0⟩, ⟨4,4,.ro,0⟩, ⟨5,5,.ro,0⟩]⟩,
  ⟨"POS_CHc_COUNT_LO", 0x108, [(4,0x40)], .lead, 0, 1, [⟨31,0,.rw,0⟩]⟩,
  ⟨"POS_CHc_COUNT_HI", 0x10c, [(4,0x40)], .lead, 0, 2, [⟨31,0,.rw,0⟩]⟩,
  ⟨"POS_CHc_TRAVEL_LO", 0x110, [(4,0x40)], .lead, 0, 1, [⟨31,0,.ro,0⟩]⟩,
  ⟨"POS_CHc_TRAVEL_HI", 0x114, [(4,0x40)], .lead, 0, 2, [⟨31,0,.ro,0⟩]⟩,
  ⟨"POS_CHc_ZCAP_LO", 0x118, [(4,0x40)], .lead, 0, 1, [⟨31,0,.ro,0⟩]⟩,
  ⟨"POS_CHc_ZCAP_HI", 0x11c, [(4,0x40)], .lead, 0, 2, [⟨31,0,.ro,0⟩]⟩,
  ⟨"POS_CHc_ZCOUNT", 0x120, [(4,0x40)], .lead, 0, 0, [⟨31,0,.ro,0⟩]⟩,
  ⟨"POS_CHc_ZPRESET", 0x124, [(4,0x40)], .lead, 0, 0, [⟨31,0,.rw,0⟩]⟩,
  ⟨"POS_CHc_PERIOD", 0x128, [(4,0x40)], .lead, 0, 0, [⟨31,0,.ro,0⟩]⟩,
  ⟨"POS_CHc_SPEED", 0x12c, [(4,0x40)], .lead, 0, 0, [⟨31,0,.ro,0⟩]⟩,
  ⟨"POS_CHc_FILT_FAULTS", 0x130, [(4,0x40)], .lead, 0, 0, [⟨31,0,.ro,0⟩]⟩,
  ⟨"POS_CHc_QUAD_FAULTS", 0x134, [(4,0x40)], .lead, 0, 0, [⟨31,0,.ro,0⟩]⟩,
  ⟨"POS_CHc_ZWEB_LO", 0x138, [(4,0x40)], .lead, 0, 1, [⟨31,0,.ro,0⟩]⟩,
  ⟨"POS_CHc_ZWEB_HI", 0x13c, [(4,0x40)], .lead, 0, 2, [⟨31,0,.ro,0⟩]⟩,
  ⟨"POS_ABSa_CFG", 0x200, [(2,0x20)], .lead, 0, 0, [⟨0,0,.rw,0⟩, ⟨1,1,.rw,0⟩, ⟨2,2,.rw,0⟩, ⟨9,3,.rw,32⟩, ⟨23,16,.rw,24⟩, ⟨27,24,.rw,4⟩]⟩,
  ⟨"POS_ABSa_PERIOD", 0x204, [(2,0x20)], .lead, 0, 0, [⟨15,0,.rw,100⟩]⟩,
  ⟨"POS_ABSa_POSITION_LO", 0x208, [(2,0x20)], .lead, 0, 1, [⟨31,0,.ro,0⟩]⟩,
  ⟨"POS_ABSa_POSITION_HI", 0x20c, [(2,0x20)], .lead, 0, 2, [⟨31,0,.ro,0⟩]⟩,
  ⟨"POS_ABSa_SPEED", 0x210, [(2,0x20)], .lead, 0, 0, [⟨31,0,.ro,0⟩]⟩,
  ⟨"POS_ABSa_SPD_PERIOD", 0x214, [(2,0x20)], .lead, 0, 0, [⟨31,0,.ro,0⟩]⟩,
  ⟨"POS_ABSa_STATUS", 0x218, [(2,0x20)], .lead, 0, 0, [⟨0,0,.ro,0⟩, ⟨1,1,.ro,0⟩, ⟨2,2,.ro,0⟩, ⟨3,3,.ro,0⟩]⟩,
  ⟨"POS_ABSa_ERRORS", 0x21c, [(2,0x20)], .lead, 0, 0, [⟨31,0,.ro,0⟩]⟩]

def rowsPOS1 : List RegRow := [
  ⟨"POS_CMPu_CTRL", 0x400, [(16,0x20)], .lead, 0, 0, [⟨0,0,.rw,0⟩, ⟨1,1,.rw,0⟩, ⟨3,2,.rw,0⟩, ⟨6,4,.rw,0⟩, ⟨7,7,.rw,0⟩, ⟨8,8,.wo,0⟩]⟩,
  ⟨"POS_CMPu_BASE", 0x404, [(16,0x20)], .lead, 0, 0, [⟨21,4,.rw,0⟩]⟩,
  ⟨"POS_CMPu_LEN", 0x408, [(16,0x20)], .lead, 0, 0, [⟨12,0,.rw,1⟩]⟩,
  ⟨"POS_CMPu_RD", 0x40c, [(16,0x20)], .lead, 0, 0, [⟨11,0,.ro,0⟩]⟩,
  ⟨"POS_CMPu_WR", 0x410, [(16,0x20)], .lead, 0, 0, [⟨11,0,.rw,0⟩]⟩,
  ⟨"POS_CMPu_STATUS", 0x414, [(16,0x20)], .lead, 0, 0, [⟨0,0,.w1c,0⟩, ⟨1,1,.ro,0⟩, ⟨2,2,.ro,0⟩, ⟨3,3,.w1c,0⟩, ⟨4,4,.ro,1⟩]⟩,
  ⟨"POS_CMPu_FIRED", 0x418, [(16,0x20)], .lead, 0, 0, [⟨31,0,.ro,0⟩]⟩,
  ⟨"POS_CMPu_MISSED_COUNT", 0x41c, [(16,0x20)], .lead, 0, 0, [⟨31,0,.ro,0⟩]⟩,
  ⟨"POS_TRIGo_CFG", 0x600, [(16,0x4)], .lead, 0, 0, [⟨0,0,.rw,0⟩, ⟨1,1,.rw,0⟩, ⟨4,2,.rw,0⟩, ⟨13,8,.rw,0⟩, ⟨31,16,.rw,250⟩]⟩]

def rowsPOS : List RegRow := rowsPOS0 ++ rowsPOS1

def rowsTIM0 : List RegRow := [
  ⟨"TIM_CTRL", 0x0, [], .lead, 0, 0, [⟨0,0,.rw,0⟩, ⟨1,1,.rw,0⟩, ⟨2,2,.rw,1⟩, ⟨3,3,.rw,0⟩, ⟨4,4,.rw,0⟩, ⟨6,5,.rw,0⟩, ⟨7,7,.rw,1⟩, ⟨8,8,.rw,1⟩]⟩,
  ⟨"TIM_STATUS", 0x4, [], .lead, 0, 0, [⟨1,0,.ro,3⟩, ⟨2,2,.ro,0⟩, ⟨3,3,.ro,0⟩, ⟨4,4,.ro,0⟩]⟩,
  ⟨"TIM_ERR", 0x8, [], .lead, 0, 0, [⟨0,0,.w1c,0⟩, ⟨1,1,.w1c,0⟩, ⟨2,2,.w1c,0⟩, ⟨3,3,.w1c,0⟩, ⟨4,4,.w1c,0⟩, ⟨5,5,.w1c,0⟩, ⟨6,6,.w1c,0⟩]⟩,
  ⟨"TIM_STEP_LIMIT", 0xc, [], .lead, 0, 0, [⟨31,0,.rw,1000000⟩]⟩,
  ⟨"TIM_SLEW_MAX", 0x10, [], .lead, 0, 0, [⟨6,0,.rw,100⟩]⟩,
  ⟨"TIM_DOMAIN", 0x14, [], .lead, 0, 0, [⟨6,0,.rw,0⟩, ⟨14,8,.rw,1⟩]⟩,
  ⟨"TIM_QUAL", 0x18, [], .lead, 0, 0, [⟨15,0,.rw,1000⟩, ⟨23,16,.rw,8⟩, ⟨31,24,.rw,248⟩]⟩,
  ⟨"TIM_ANNOUNCE", 0x1c, [], .lead, 0, 0, [⟨3,0,.rw,3⟩, ⟨23,8,.rw,60⟩]⟩,
  ⟨"TIM_VLAN", 0x20, [], .lead, 0, 0, [⟨11,0,.rw,0⟩, ⟨12,12,.rw,0⟩, ⟨15,13,.rw,7⟩]⟩,
  ⟨"TIM_STEPS", 0x24, [], .lead, 0, 0, [⟨31,0,.ro,0⟩]⟩,
  ⟨"TIM_STEP_LAST_LO", 0x28, [], .lead, 0, 1, [⟨31,0,.ro,0⟩]⟩,
  ⟨"TIM_STEP_LAST_HI", 0x2c, [], .lead, 0, 2, [⟨31,0,.ro,0⟩]⟩,
  ⟨"TIM_STEP_TB0_LO", 0x30, [], .lead, 0, 1, [⟨31,0,.ro,0⟩]⟩,
  ⟨"TIM_STEP_TB0_HI", 0x34, [], .lead, 0, 2, [⟨31,0,.ro,0⟩]⟩,
  ⟨"TIM_SWITCHES", 0x38, [], .lead, 0, 0, [⟨31,0,.ro,0⟩]⟩,
  ⟨"TIM_TBk_NS_LO", 0x100, [(4,0x20)], .all, 0, 1, [⟨31,0,.ro,0⟩]⟩,
  ⟨"TIM_TBk_NS_HI", 0x104, [(4,0x20)], .all, 0, 2, [⟨31,0,.ro,0⟩]⟩,
  ⟨"TIM_TBk_RATE", 0x108, [(3,0x20)], .all, 0, 0, [⟨31,0,.ro,0⟩]⟩,
  ⟨"TIM_TB3_RATE", 0x168, [], .all, 0, 0, [⟨31,0,.rw,0⟩]⟩,
  ⟨"TIM_TB3_STEP_LO", 0x16c, [], .all, 0, 1, [⟨31,0,.wo,0⟩]⟩,
  ⟨"TIM_TB3_STEP_HI", 0x170, [], .all, 0, 2, [⟨31,0,.wo,0⟩]⟩,
  ⟨"TIM_TB0_STATUS", 0x114, [], .all, 0, 0, [⟨0,0,.ro,1⟩, ⟨1,1,.ro,0⟩]⟩,
  ⟨"TIM_TBk_STATUS", 0x134, [(3,0x20)], .all, 0, 0, [⟨0,0,.ro,0⟩, ⟨1,1,.ro,0⟩]⟩,
  ⟨"TIM_TB3_SET_LO", 0x178, [], .all, 0, 1, [⟨31,0,.wo,0⟩]⟩,
  ⟨"TIM_TB3_SET_HI", 0x17c, [], .all, 0, 2, [⟨31,0,.wo,0⟩]⟩,
  ⟨"TIM_DOMd_OFFSET", 0x200, [(2,0x20)], .lead, 0, 0, [⟨31,0,.ro,0⟩]⟩,
  ⟨"TIM_DOMd_DELAY", 0x204, [(2,0x20)], .lead, 0, 0, [⟨31,0,.ro,0⟩]⟩,
  ⟨"TIM_DOMd_GM_ID_LO", 0x208, [(2,0x20)], .lead, 0, 1, [⟨31,0,.ro,0⟩]⟩,
  ⟨"TIM_DOMd_GM_ID_HI", 0x20c, [(2,0x20)], .lead, 0, 2, [⟨31,0,.ro,0⟩]⟩,
  ⟨"TIM_DOMd_GM_QUAL", 0x210, [(2,0x20)], .lead, 0, 0, [⟨7,0,.ro,255⟩, ⟨15,8,.ro,254⟩, ⟨31,16,.ro,65535⟩]⟩,
  ⟨"TIM_DOMd_STATE", 0x214, [(2,0x20)], .lead, 0, 0, [⟨2,0,.ro,0⟩, ⟨3,3,.ro,0⟩]⟩,
  ⟨"TIM_DOMd_SYNC_RX", 0x218, [(2,0x20)], .lead, 0, 0, [⟨31,0,.ro,0⟩]⟩,
  ⟨"TIM_DOMd_ANN_TMO", 0x21c, [(2,0x20)], .lead, 0, 0, [⟨31,0,.ro,0⟩]⟩,
  ⟨"TIM_PORTp_LAT_RX", 0x300, [(2,0x10)], .lead, 0, 0, [⟨15,0,.rw,0⟩]⟩,
  ⟨"TIM_PORTp_LAT_TX", 0x304, [(2,0x10)], .lead, 0, 0, [⟨15,0,.rw,0⟩]⟩,
  ⟨"TIM_PORTp_PDELAY", 0x308, [(2,0x10)], .lead, 0, 0, [⟨31,0,.ro,0⟩]⟩,
  ⟨"TIM_PORTp_TC_FRAMES", 0x30c, [(2,0x10)], .lead, 0, 0, [⟨31,0,.ro,0⟩]⟩,
  ⟨"TIM_ACTs_CTRL", 0x800, [(64,0x20)], .all, 0, 0, [⟨0,0,.w1s,0⟩, ⟨1,1,.wo,0⟩, ⟨3,2,.rw,0⟩, ⟨5,4,.rw,0⟩, ⟨6,6,.rw,0⟩, ⟨15,8,.rw,0⟩]⟩,
  ⟨"TIM_ACTs_TIME_LO", 0x804, [(64,0x20)], .all, 0, 1, [⟨31,0,.rw,0⟩]⟩,
  ⟨"TIM_ACTs_TIME_HI", 0x808, [(64,0x20)], .all, 0, 2, [⟨31,0,.rw,0⟩]⟩]

def rowsTIM1 : List RegRow := [
  ⟨"TIM_ACTs_PERIOD", 0x80c, [(64,0x20)], .all, 0, 0, [⟨31,0,.rw,0⟩]⟩,
  ⟨"TIM_ACTs_STATUS", 0x810, [(64,0x20)], .all, 0, 0, [⟨0,0,.ro,0⟩, ⟨1,1,.w1c,0⟩, ⟨2,2,.w1c,0⟩, ⟨3,3,.w1c,0⟩, ⟨4,4,.w1c,0⟩, ⟨5,5,.w1c,0⟩]⟩,
  ⟨"TIM_ACTs_COUNT", 0x814, [(64,0x20)], .all, 0, 0, [⟨31,0,.ro,0⟩]⟩,
  ⟨"TIM_ACTs_DROPS", 0x818, [(64,0x20)], .all, 0, 0, [⟨31,0,.ro,0⟩]⟩,
  ⟨"TIM_ACTs_EXEC", 0x81c, [(64,0x20)], .all, 0, 0, [⟨31,0,.ro,0⟩]⟩]

def rowsTIM : List RegRow := rowsTIM0 ++ rowsTIM1

def rowsETH : List RegRow := [
  ⟨"ETH_CFG", 0x0, [], .eth, 0, 0, [⟨0,0,.rw,0⟩, ⟨2,1,.rw,2⟩]⟩,
  ⟨"ETH_STATUS", 0x4, [], .eth, 0, 0, [⟨0,0,.ro,0⟩, ⟨1,1,.ro,0⟩, ⟨2,2,.ro,0⟩, ⟨3,3,.ro,0⟩]⟩,
  ⟨"ETH_ERR", 0x8, [], .eth, 0, 0, [⟨0,0,.w1c,0⟩, ⟨1,1,.w1c,0⟩, ⟨2,2,.w1c,0⟩, ⟨3,3,.w1c,0⟩, ⟨4,4,.w1c,0⟩, ⟨5,5,.w1c,0⟩, ⟨6,6,.w1c,0⟩]⟩,
  ⟨"ETH_CLR", 0xc, [], .eth, 0, 0, [⟨0,0,.wo,0⟩]⟩,
  ⟨"ETH_MAC_LO", 0x10, [], .eth, 0, 1, [⟨31,0,.ro,0⟩]⟩,
  ⟨"ETH_MAC_HI", 0x14, [], .eth, 0, 2, [⟨15,0,.ro,0⟩]⟩,
  ⟨"ETH_VLAN", 0x18, [], .eth, 0, 0, [⟨11,0,.rw,0⟩, ⟨12,12,.rw,0⟩]⟩,
  ⟨"ETH_PASS_Q", 0x1c, [], .eth, 0, 0, [⟨2,0,.rw,0⟩]⟩,
  ⟨"ETH_QLIM_q", 0x20, [(8,0x4)], .eth, 0, 0, [⟨12,0,.rw,512⟩]⟩,
  ⟨"ETH_RX_FRAMES", 0x40, [], .eth, 0, 0, [⟨31,0,.ro,0⟩]⟩,
  ⟨"ETH_RX_FCS_ERR", 0x44, [], .eth, 0, 0, [⟨31,0,.ro,0⟩]⟩,
  ⟨"ETH_RX_LEN_ERR", 0x48, [], .eth, 0, 0, [⟨31,0,.ro,0⟩]⟩,
  ⟨"ETH_RX_MACCTRL", 0x4c, [], .eth, 0, 0, [⟨31,0,.ro,0⟩]⟩,
  ⟨"ETH_TX_FRAMES", 0x50, [], .eth, 0, 0, [⟨31,0,.ro,0⟩]⟩,
  ⟨"ETH_PASS_FRAMES", 0x54, [], .eth, 0, 0, [⟨31,0,.ro,0⟩]⟩,
  ⟨"ETH_PASS_DROP", 0x58, [], .eth, 0, 0, [⟨31,0,.ro,0⟩]⟩,
  ⟨"ETH_PASS_STOMP", 0x5c, [], .eth, 0, 0, [⟨31,0,.ro,0⟩]⟩,
  ⟨"ETH_FEC_CORR", 0x60, [], .eth, 0, 0, [⟨31,0,.ro,0⟩]⟩,
  ⟨"ETH_FEC_UNCORR", 0x64, [], .eth, 0, 0, [⟨31,0,.ro,0⟩]⟩,
  ⟨"ETH_REF_DROP", 0x68, [], .eth, 0, 0, [⟨31,0,.ro,0⟩]⟩,
  ⟨"ETH_REF_STRIPES", 0x6c, [], .eth, 0, 0, [⟨31,0,.ro,0⟩]⟩,
  ⟨"ETH_LBUFb_LEN", 0x100, [(16,0x4)], .eth, 0, 0, [⟨11,0,.rw,0⟩]⟩,
  ⟨"ETH_LBUF", 0x8000, [(8192,0x4)], .eth, 0, 0, [⟨31,0,.rw,0⟩]⟩]

def rowsCHN : List RegRow := [
  ⟨"CHN_ADDR", 0x0, [], .lead, 0, 0, [⟨5,0,.rws,0⟩, ⟨6,6,.rws,0⟩]⟩,
  ⟨"CHN_STATUS", 0x4, [], .lead, 0, 0, [⟨5,0,.ro,0⟩, ⟨13,8,.ro,0⟩]⟩,
  ⟨"CHN_ERR", 0x8, [], .lead, 0, 0, [⟨0,0,.w1c,0⟩, ⟨1,1,.w1c,0⟩, ⟨2,2,.w1c,0⟩]⟩,
  ⟨"CHN_CLR", 0xc, [], .lead, 0, 0, [⟨0,0,.wo,0⟩]⟩,
  ⟨"CHN_LCP_CTRL", 0x10, [], .lead, 0, 0, [⟨15,0,.rw,45438⟩, ⟨23,16,.rw,10⟩, ⟨26,24,.rw,6⟩]⟩,
  ⟨"CHN_IPV4", 0x14, [], .lead, 0, 0, [⟨31,0,.rw,0⟩]⟩,
  ⟨"CHN_IPV6_0", 0x18, [], .lead, 0, 0, [⟨31,0,.rw,0⟩]⟩,
  ⟨"CHN_IPV6_1", 0x1c, [], .lead, 0, 0, [⟨31,0,.rw,0⟩]⟩,
  ⟨"CHN_IPV6_2", 0x20, [], .lead, 0, 0, [⟨31,0,.rw,0⟩]⟩,
  ⟨"CHN_IPV6_3", 0x24, [], .lead, 0, 0, [⟨31,0,.rw,0⟩]⟩,
  ⟨"CHN_SRC_PORT", 0x28, [], .lead, 0, 0, [⟨15,0,.rw,45439⟩]⟩,
  ⟨"CHN_SESSk", 0x44, [(7,0x4)], .lead, 0, 0, [⟨0,0,.ro,0⟩, ⟨1,1,.ro,0⟩, ⟨2,2,.ro,0⟩, ⟨3,3,.ro,0⟩, ⟨31,16,.ro,0⟩]⟩,
  ⟨"CHN_SESS_CLOSE", 0x60, [], .lead, 0, 0, [⟨7,1,.wo,0⟩]⟩,
  ⟨"CHN_CONFLICTS", 0x64, [], .lead, 0, 0, [⟨31,0,.ro,0⟩]⟩,
  ⟨"CHN_LCP_BAD", 0x68, [], .lead, 0, 0, [⟨31,0,.ro,0⟩]⟩,
  ⟨"CHN_LCP_REQS", 0x6c, [], .lead, 0, 0, [⟨31,0,.ro,0⟩]⟩,
  ⟨"CHN_NOTIFY_SENT", 0x70, [], .lead, 0, 0, [⟨31,0,.ro,0⟩]⟩,
  ⟨"CHN_NOTIFY_LOST", 0x74, [], .lead, 0, 0, [⟨31,0,.ro,0⟩]⟩,
  ⟨"CHN_NOTIFY_GIVEUP", 0x78, [], .lead, 0, 0, [⟨31,0,.ro,0⟩]⟩]

def rowsOUT : List RegRow := [
  ⟨"OUT_ERR", 0x0, [], .lead, 0, 0, [⟨0,0,.w1c,0⟩, ⟨1,1,.w1c,0⟩, ⟨2,2,.w1c,0⟩]⟩,
  ⟨"OUT_CLR", 0x4, [], .lead, 0, 0, [⟨0,0,.wo,0⟩]⟩,
  ⟨"OUT_DSTd_MAC_LO", 0x100, [(16,0x20)], .lead, 0, 1, [⟨31,0,.rw,0⟩]⟩,
  ⟨"OUT_DSTd_MAC_HI", 0x104, [(16,0x20)], .lead, 0, 2, [⟨15,0,.rw,0⟩, ⟨27,16,.rw,0⟩, ⟨28,28,.rw,0⟩, ⟨29,29,.rw,0⟩]⟩,
  ⟨"OUT_DSTd_IP_0", 0x108, [(16,0x20)], .lead, 0, 0, [⟨31,0,.rw,0⟩]⟩,
  ⟨"OUT_DSTd_IP_1", 0x10c, [(16,0x20)], .lead, 0, 0, [⟨31,0,.rw,0⟩]⟩,
  ⟨"OUT_DSTd_IP_2", 0x110, [(16,0x20)], .lead, 0, 0, [⟨31,0,.rw,0⟩]⟩,
  ⟨"OUT_DSTd_IP_3", 0x114, [(16,0x20)], .lead, 0, 0, [⟨31,0,.rw,0⟩]⟩,
  ⟨"OUT_DSTd_PORT", 0x118, [(16,0x20)], .lead, 0, 0, [⟨15,0,.rw,0⟩, ⟨17,16,.rw,0⟩, ⟨18,18,.rw,0⟩]⟩,
  ⟨"OUT_STRs_CTRL", 0x400, [(8,0x20)], .lead, 0, 0, [⟨0,0,.rw,0⟩, ⟨3,1,.rw,0⟩, ⟨9,4,.rw,0⟩, ⟨11,10,.rw,0⟩, ⟨18,12,.rw,1⟩, ⟨22,19,.rw,0⟩, ⟨25,23,.rw,2⟩]⟩,
  ⟨"OUT_STRs_X0", 0x404, [(8,0x20)], .lead, 0, 0, [⟨16,0,.rw,0⟩]⟩,
  ⟨"OUT_STRs_W", 0x408, [(8,0x20)], .lead, 0, 0, [⟨17,0,.rw,0⟩]⟩,
  ⟨"OUT_STRs_DEC", 0x40c, [(8,0x20)], .lead, 0, 0, [⟨8,0,.rw,1⟩]⟩,
  ⟨"OUT_STRs_MAXPAY", 0x410, [(8,0x20)], .lead, 0, 0, [⟨13,0,.rw,8192⟩]⟩,
  ⟨"OUT_STRs_LINES", 0x414, [(8,0x20)], .lead, 0, 0, [⟨31,0,.ro,0⟩]⟩,
  ⟨"OUT_STRs_DROPPED", 0x418, [(8,0x20)], .lead, 0, 0, [⟨31,0,.ro,0⟩]⟩,
  ⟨"OUT_RECr_CTRL", 0x600, [(8,0x20)], .lead, 0, 0, [⟨0,0,.rw,0⟩, ⟨3,1,.rw,0⟩, ⟨11,4,.rw,0⟩, ⟨15,12,.rw,0⟩, ⟨18,16,.rw,5⟩, ⟨19,19,.rw,0⟩]⟩,
  ⟨"OUT_RECr_HOLD_US", 0x604, [(8,0x20)], .lead, 0, 0, [⟨15,0,.rw,0⟩]⟩,
  ⟨"OUT_RECr_DELAY", 0x608, [(8,0x20)], .lead, 0, 0, [⟨31,0,.rw,0⟩]⟩,
  ⟨"OUT_RECr_MAXPAY", 0x60c, [(8,0x20)], .lead, 0, 0, [⟨13,0,.rw,8192⟩]⟩,
  ⟨"OUT_RECr_DGRAMS", 0x610, [(8,0x20)], .lead, 0, 0, [⟨31,0,.ro,0⟩]⟩,
  ⟨"OUT_RECr_LATE", 0x614, [(8,0x20)], .lead, 0, 0, [⟨31,0,.ro,0⟩]⟩]

def rowsEVT : List RegRow := [
  ⟨"EVT_ERR", 0x0, [], .all, 0, 0, [⟨0,0,.w1c,0⟩, ⟨1,1,.w1c,0⟩]⟩,
  ⟨"EVT_CTRL", 0x4, [], .all, 0, 0, [⟨0,0,.rw,0⟩]⟩,
  ⟨"EVT_SW_PIP", 0x8, [], .all, 0, 0, [⟨15,0,.wo,0⟩]⟩,
  ⟨"EVT_SW_LEVEL", 0xc, [], .all, 0, 0, [⟨7,0,.rw,0⟩]⟩,
  ⟨"EVT_FLAG_LO", 0x10, [], .all, 0, 0, [⟨31,0,.w1c,0⟩]⟩,
  ⟨"EVT_FLAG_HI", 0x14, [], .all, 0, 0, [⟨31,0,.w1c,0⟩]⟩,
  ⟨"EVT_GFLAG", 0x18, [], .all, 0, 0, [⟨31,0,.w1c,0⟩]⟩,
  ⟨"EVT_LIMITED_LO", 0x1c, [], .all, 0, 0, [⟨31,0,.w1c,0⟩]⟩,
  ⟨"EVT_LIMITED_HI", 0x20, [], .all, 0, 0, [⟨31,0,.w1c,0⟩]⟩,
  ⟨"EVT_OVR_w", 0x40, [(6,0x4)], .all, 0, 0, [⟨31,0,.w1c,0⟩]⟩,
  ⟨"EVT_RELAYk", 0x80, [(16,0x4)], .all, 12, 0, [⟨15,0,.rw,0⟩, ⟨18,16,.rw,0⟩]⟩,
  ⟨"EVT_CHc_SRC_w", 0x1000, [(64,0x40), (8,0x4)], .all, 48, 0, [⟨31,0,.rw,0⟩]⟩,
  ⟨"EVT_CHc_CON_w", 0x1020, [(64,0x40), (6,0x4)], .all, 48, 0, [⟨31,0,.rw,0⟩]⟩,
  ⟨"EVT_CHc_CFG", 0x1038, [(64,0x40)], .all, 48, 0, [⟨3,0,.rw,0⟩, ⟨4,4,.rw,0⟩, ⟨31,16,.rw,0⟩]⟩,
  ⟨"EVT_CHc_ATTR", 0x103c, [(64,0x40)], .all, 48, 0, [⟨2,0,.rw,0⟩, ⟨3,3,.rw,0⟩]⟩,
  ⟨"EVT_CHc_COUNT", 0x2000, [(64,0x4)], .all, 0, 0, [⟨31,0,.ro,0⟩]⟩,
  ⟨"EVT_GCHg_SRC_0", 0x3000, [(32,0x20)], .all, 24, 0, [⟨31,0,.rw,0⟩]⟩,
  ⟨"EVT_GCHg_SRC_1", 0x3004, [(32,0x20)], .all, 24, 0, [⟨31,0,.rw,0⟩]⟩,
  ⟨"EVT_GCHg_CON_w", 0x3008, [(32,0x20), (6,0x4)], .all, 24, 0, [⟨31,0,.rw,0⟩]⟩,
  ⟨"EVT_GCHg_ATTR", 0x3400, [(32,0x4)], .lead, 24, 0, [⟨2,0,.rw,0⟩, ⟨3,3,.rw,0⟩]⟩,
  ⟨"EVT_CAPk_TB0_LO", 0x3800, [(32,0x10)], .all, 0, 1, [⟨31,0,.ro,0⟩]⟩,
  ⟨"EVT_CAPk_TB0_HI", 0x3804, [(32,0x10)], .all, 0, 2, [⟨31,0,.ro,0⟩]⟩,
  ⟨"EVT_CAPk_STATUS", 0x3808, [(32,0x10)], .all, 0, 0, [⟨0,0,.w1c,0⟩]⟩,
  ⟨"EVT_CAPk_COUNT", 0x380c, [(32,0x10)], .all, 0, 0, [⟨31,0,.ro,0⟩]⟩]

def rowsDMA : List RegRow := [
  ⟨"DMA_ERR", 0x0, [], .all, 0, 0, [⟨0,0,.w1c,0⟩, ⟨1,1,.w1c,0⟩]⟩,
  ⟨"DMA_HOPS", 0x4, [], .all, 0, 0, [⟨15,0,.rw,4096⟩]⟩,
  ⟨"DMA_INT_STATUS", 0x8, [], .all, 0, 0, [⟨31,0,.w1c,0⟩]⟩,
  ⟨"DMA_INT_EN", 0xc, [], .all, 0, 0, [⟨31,0,.rw,0⟩]⟩,
  ⟨"DMA_CHc_SRC_LO", 0x100, [(32,0x40)], .all, 0, 1, [⟨31,0,.rw,0⟩]⟩,
  ⟨"DMA_CHc_SRC_HI", 0x104, [(32,0x40)], .all, 0, 2, [⟨7,0,.rw,0⟩]⟩,
  ⟨"DMA_CHc_DST_LO", 0x108, [(32,0x40)], .all, 0, 1, [⟨31,0,.rw,0⟩]⟩,
  ⟨"DMA_CHc_DST_HI", 0x10c, [(32,0x40)], .all, 0, 2, [⟨7,0,.rw,0⟩]⟩,
  ⟨"DMA_CHc_COUNT", 0x110, [(32,0x40)], .all, 0, 0, [⟨31,0,.rw,0⟩]⟩,
  ⟨"DMA_CHc_NEXT_LO", 0x114, [(32,0x40)], .all, 0, 1, [⟨31,0,.rw,0⟩]⟩,
  ⟨"DMA_CHc_NEXT_HI", 0x118, [(32,0x40)], .all, 0, 2, [⟨7,0,.rw,0⟩]⟩,
  ⟨"DMA_CHc_CTRL", 0x11c, [(32,0x40)], .all, 0, 0, [⟨0,0,.wo,0⟩, ⟨1,1,.wo,0⟩, ⟨3,2,.rw,0⟩, ⟨4,4,.rw,0⟩, ⟨5,5,.rw,0⟩]⟩,
  ⟨"DMA_CHc_STATUS", 0x120, [(32,0x40)], .all, 0, 0, [⟨2,0,.ro,0⟩, ⟨3,3,.ro,0⟩, ⟨6,4,.ro,0⟩, ⟨7,7,.w1c,0⟩, ⟨8,8,.w1c,0⟩]⟩,
  ⟨"DMA_CHc_REMAIN", 0x124, [(32,0x40)], .all, 0, 0, [⟨31,0,.ro,0⟩]⟩,
  ⟨"DMA_CHc_HOPS_USED", 0x128, [(32,0x40)], .all, 0, 0, [⟨15,0,.ro,0⟩]⟩,
  ⟨"DMA_CHc_ERR_ADDR_LO", 0x12c, [(32,0x40)], .all, 0, 1, [⟨31,0,.ro,0⟩]⟩,
  ⟨"DMA_CHc_ERR_ADDR_HI", 0x130, [(32,0x40)], .all, 0, 2, [⟨7,0,.ro,0⟩]⟩,
  ⟨"DMA_CHc_DONES", 0x134, [(32,0x40)], .all, 0, 0, [⟨31,0,.ro,0⟩]⟩]

def rowsQUE : List RegRow := [
  ⟨"QUE_CTRL", 0x0, [], .all, 0, 0, [⟨7,0,.rw,255⟩]⟩,
  ⟨"QUE_ERR", 0x4, [], .all, 0, 0, [⟨0,0,.w1c,0⟩, ⟨1,1,.w1c,0⟩, ⟨2,2,.w1c,0⟩, ⟨3,3,.w1c,0⟩, ⟨4,4,.w1c,0⟩, ⟨5,5,.w1c,0⟩, ⟨6,6,.w1c,0⟩]⟩,
  ⟨"QUE_CLR", 0x8, [], .all, 0, 0, [⟨0,0,.wo,0⟩]⟩,
  ⟨"QUE_POOL", 0xc, [], .all, 0, 0, [⟨15,0,.ro,32768⟩, ⟨31,16,.ro,32768⟩]⟩,
  ⟨"QUE_POP_CTRL", 0x10, [], .all, 0, 0, [⟨7,0,.rw,0⟩, ⟨8,8,.wo,0⟩]⟩,
  ⟨"QUE_POP_STATUS", 0x14, [], .all, 0, 0, [⟨0,0,.ro,0⟩, ⟨1,1,.ro,0⟩, ⟨2,2,.ro,0⟩, ⟨24,16,.ro,0⟩]⟩,
  ⟨"QUE_PUSH_CTRL", 0x18, [], .all, 0, 0, [⟨7,0,.rw,0⟩, ⟨16,8,.rw,1⟩, ⟨24,24,.wo,0⟩]⟩,
  ⟨"QUE_PUSH_STATUS", 0x1c, [], .all, 0, 0, [⟨0,0,.ro,1⟩, ⟨1,1,.ro,0⟩]⟩,
  ⟨"QUE_LVL_STATUS_w", 0x20, [(8,0x4)], .all, 0, 0, [⟨31,0,.w1c,0⟩]⟩,
  ⟨"QUE_INT_EN_w", 0x40, [(8,0x4)], .all, 0, 0, [⟨31,0,.rw,0⟩]⟩,
  ⟨"QUE_ERRREC_LOST", 0x60, [], .all, 0, 0, [⟨31,0,.ro,0⟩]⟩,
  ⟨"QUE_POP_BUF", 0x800, [(256,0x4)], .all, 0, 0, [⟨31,0,.ro,0⟩]⟩,
  ⟨"QUE_PUSH_BUF", 0xc00, [(256,0x4)], .all, 0, 0, [⟨31,0,.rw,0⟩]⟩,
  ⟨"QUE_Qq_CFG", 0x1000, [(256,0x20)], .all, 0, 0, [⟨15,0,.rw,0⟩, ⟨31,16,.rw,0⟩]⟩,
  ⟨"QUE_Qq_CTRL", 0x1004, [(256,0x20)], .all, 0, 0, [⟨0,0,.wo,0⟩]⟩,
  ⟨"QUE_Qq_STATUS", 0x1008, [(256,0x20)], .all, 0, 0, [⟨15,0,.ro,0⟩, ⟨16,16,.ro,0⟩, ⟨17,17,.ro,0⟩]⟩,
  ⟨"QUE_Qq_CELLS", 0x100c, [(256,0x20)], .all, 0, 0, [⟨15,0,.ro,0⟩]⟩,
  ⟨"QUE_Qq_PUSHED", 0x1010, [(256,0x20)], .all, 0, 0, [⟨31,0,.ro,0⟩]⟩,
  ⟨"QUE_Qq_REFUSED", 0x1014, [(256,0x20)], .all, 0, 0, [⟨31,0,.ro,0⟩]⟩,
  ⟨"QUE_Qq_POISONED", 0x1018, [(256,0x20)], .all, 0, 0, [⟨31,0,.ro,0⟩]⟩,
  ⟨"QUE_Qq_LOST", 0x101c, [(256,0x20)], .all, 0, 0, [⟨31,0,.ro,0⟩]⟩]

def rowsCHK : List RegRow := [
  ⟨"CHK_INT_STATUS_LO", 0x0, [], .all, 0, 0, [⟨31,0,.w1c,0⟩]⟩,
  ⟨"CHK_INT_STATUS_HI", 0x4, [], .all, 0, 0, [⟨31,0,.w1c,0⟩]⟩,
  ⟨"CHK_INT_EN_LO", 0x8, [], .all, 0, 0, [⟨31,0,.rw,0⟩]⟩,
  ⟨"CHK_INT_EN_HI", 0xc, [], .all, 0, 0, [⟨31,0,.rw,0⟩]⟩,
  ⟨"CHK_CHn_CFG", 0x100, [(64,0x20)], .all, 0, 0, [⟨0,0,.rw,0⟩, ⟨2,1,.rw,0⟩, ⟨4,3,.rw,0⟩, ⟨5,5,.rw,0⟩, ⟨6,6,.rw,0⟩, ⟨7,7,.rw,0⟩, ⟨9,8,.rw,0⟩, ⟨23,16,.rw,0⟩, ⟨31,24,.rw,3⟩]⟩,
  ⟨"CHK_CHn_CTRL", 0x104, [(64,0x20)], .all, 0, 0, [⟨0,0,.wo,0⟩, ⟨1,1,.wo,0⟩, ⟨2,2,.wo,0⟩, ⟨3,3,.wo,0⟩, ⟨15,8,.wo,0⟩]⟩,
  ⟨"CHK_CHn_DATA", 0x108, [(64,0x20)], .all, 0, 0, [⟨31,0,.wo,0⟩]⟩,
  ⟨"CHK_CHn_VALUE", 0x10c, [(64,0x20)], .all, 0, 0, [⟨31,0,.ro,0⟩]⟩,
  ⟨"CHK_CHn_RESULT", 0x110, [(64,0x20)], .all, 0, 0, [⟨31,0,.ro,0⟩]⟩,
  ⟨"CHK_CHn_EXPECT", 0x114, [(64,0x20)], .all, 0, 0, [⟨31,0,.rw,0⟩]⟩,
  ⟨"CHK_CHn_STATUS", 0x118, [(64,0x20)], .all, 0, 0, [⟨0,0,.w1c,0⟩, ⟨1,1,.w1c,0⟩, ⟨2,2,.w1c,0⟩, ⟨3,3,.ro,0⟩, ⟨15,8,.ro,0⟩]⟩,
  ⟨"CHK_CHn_COUNTS", 0x11c, [(64,0x20)], .all, 0, 0, [⟨15,0,.ro,0⟩, ⟨31,16,.ro,0⟩]⟩]

def rowsFIR : List RegRow := [
  ⟨"FIR_ERR", 0x0, [], .all, 0, 0, [⟨0,0,.w1c,0⟩, ⟨1,1,.w1c,0⟩, ⟨2,2,.w1c,0⟩, ⟨3,3,.w1c,0⟩, ⟨4,4,.w1c,0⟩, ⟨5,5,.w1c,0⟩]⟩,
  ⟨"FIR_CLR", 0x4, [], .all, 0, 0, [⟨0,0,.wo,0⟩]⟩,
  ⟨"FIR_CHf_CFG", 0x100, [(16,0x40)], .all, 0, 0, [⟨0,0,.rw,0⟩, ⟨3,1,.rw,0⟩, ⟨6,4,.rw,0⟩, ⟨8,7,.rw,0⟩, ⟨14,9,.rw,0⟩, ⟨17,16,.rw,1⟩, ⟨18,18,.rw,0⟩, ⟨31,24,.rw,0⟩]⟩,
  ⟨"FIR_CHf_CTRL", 0x104, [(16,0x40)], .all, 0, 0, [⟨0,0,.wo,0⟩, ⟨1,1,.wo,0⟩]⟩,
  ⟨"FIR_CHf_STATUS", 0x108, [(16,0x40)], .all, 0, 0, [⟨0,0,.ro,0⟩, ⟨1,1,.ro,0⟩, ⟨2,2,.ro,0⟩, ⟨3,3,.ro,1⟩, ⟨4,4,.ro,0⟩, ⟨5,5,.ro,0⟩]⟩,
  ⟨"FIR_CHf_BANKA_BASE", 0x10c, [(16,0x40)], .all, 0, 0, [⟨21,2,.rw,0⟩]⟩,
  ⟨"FIR_CHf_BANKB_BASE", 0x110, [(16,0x40)], .all, 0, 0, [⟨21,2,.rw,0⟩]⟩,
  ⟨"FIR_CHf_STAGEs", 0x114, [(16,0x40), (3,0x4)], .all, 0, 0, [⟨8,0,.rw,1⟩, ⟨22,16,.rw,1⟩, ⟨29,24,.rw,0⟩]⟩,
  ⟨"FIR_CHf_THRk_LEVEL", 0x120, [(16,0x40), (2,0xc)], .all, 0, 0, [⟨23,0,.rw,0⟩]⟩,
  ⟨"FIR_CHf_THRk_HYST", 0x124, [(16,0x40), (2,0xc)], .all, 0, 0, [⟨23,0,.rw,0⟩]⟩,
  ⟨"FIR_CHf_THRk_CTRL", 0x128, [(16,0x40), (2,0xc)], .all, 0, 0, [⟨15,0,.rw,1⟩, ⟨16,16,.rw,0⟩, ⟨18,17,.rw,0⟩, ⟨19,19,.rw,0⟩]⟩,
  ⟨"FIR_CHf_OUT", 0x138, [(16,0x40)], .all, 0, 0, [⟨23,0,.ro,0⟩, ⟨24,24,.ro,1⟩]⟩,
  ⟨"FIR_CHf_OUTPUTS", 0x800, [(16,0x10)], .all, 0, 0, [⟨31,0,.ro,0⟩]⟩,
  ⟨"FIR_CHf_IN_LOST", 0x804, [(16,0x10)], .all, 0, 0, [⟨31,0,.ro,0⟩]⟩,
  ⟨"FIR_CHf_HOLDS", 0x808, [(16,0x10)], .all, 0, 0, [⟨31,0,.ro,0⟩]⟩,
  ⟨"FIR_CHf_SAT", 0x80c, [(16,0x10)], .all, 0, 0, [⟨31,0,.ro,0⟩]⟩,
  ⟨"FIR_CHf_QLOST", 0xa00, [(16,0x4)], .all, 0, 0, [⟨31,0,.ro,0⟩]⟩]

def rowsCAL : List RegRow := [
  ⟨"CAL_CTRL", 0x0, [], .all, 0, 0, [⟨0,0,.wo,0⟩, ⟨1,1,.wo,0⟩, ⟨2,2,.wo,0⟩, ⟨3,3,.wo,0⟩, ⟨4,4,.rw,1⟩]⟩,
  ⟨"CAL_STATUS", 0x4, [], .all, 0, 0, [⟨0,0,.ro,0⟩, ⟨1,1,.ro,0⟩, ⟨2,2,.ro,0⟩, ⟨3,3,.ro,0⟩, ⟨6,4,.ro,0⟩]⟩,
  ⟨"CAL_ERR", 0x8, [], .all, 0, 0, [⟨0,0,.w1c,0⟩, ⟨1,1,.w1c,0⟩, ⟨2,2,.w1c,0⟩, ⟨3,3,.w1c,0⟩, ⟨4,4,.w1c,0⟩]⟩,
  ⟨"CAL_DELTA_T", 0xc, [], .all, 0, 0, [⟨9,0,.rw,128⟩]⟩,
  ⟨"CAL_TEMP", 0x10, [], .all, 0, 0, [⟨15,0,.ro,0⟩, ⟨31,16,.ro,0⟩]⟩,
  ⟨"CAL_TEMP_PEAK", 0x14, [], .all, 0, 0, [⟨15,0,.ro,32768⟩]⟩,
  ⟨"CAL_SENSi", 0x20, [(8,0x4)], .all, 0, 0, [⟨15,0,.ro,0⟩, ⟨16,16,.ro,0⟩]⟩,
  ⟨"CAL_ST_CFG", 0x40, [], .all, 0, 0, [⟨2,0,.rw,0⟩, ⟨3,3,.rw,0⟩, ⟨6,4,.rw,5⟩, ⟨15,8,.rw,0⟩]⟩,
  ⟨"CAL_ST_DWELL", 0x44, [], .all, 0, 0, [⟨19,0,.rw,1000⟩]⟩,
  ⟨"CAL_ST_RESULT", 0x48, [], .all, 0, 0, [⟨0,0,.ro,0⟩, ⟨1,1,.ro,0⟩, ⟨2,2,.ro,0⟩, ⟨31,16,.ro,0⟩]⟩,
  ⟨"CAL_ST_FAIL_ADDR_LO", 0x4c, [], .all, 0, 1, [⟨31,0,.ro,0⟩]⟩,
  ⟨"CAL_ST_FAIL_ADDR_HI", 0x50, [], .all, 0, 2, [⟨7,0,.ro,0⟩]⟩,
  ⟨"CAL_FAR_ADDR", 0x54, [], .all, 0, 0, [⟨31,0,.rw,0⟩]⟩,
  ⟨"CAL_QUAL_LIM", 0x58, [], .all, 0, 0, [⟨6,0,.rw,16⟩, ⟨25,16,.rw,40⟩]⟩,
  ⟨"CAL_LANEn_EYE", 0x60, [(6,0x4)], .all, 0, 0, [⟨6,0,.ro,0⟩, ⟨25,16,.ro,0⟩]⟩,
  ⟨"CAL_RUNS", 0x80, [], .all, 0, 0, [⟨31,0,.ro,0⟩]⟩,
  ⟨"CAL_LOST_US", 0x84, [], .all, 0, 0, [⟨31,0,.ro,0⟩]⟩,
  ⟨"CAL_DEFERRED", 0x88, [], .all, 0, 0, [⟨31,0,.ro,0⟩]⟩,
  ⟨"CAL_IDLE_SPEED", 0x100, [], .lead, 0, 0, [⟨31,0,.rw,100000⟩]⟩,
  ⟨"CAL_GAP_CTRL", 0x104, [], .lead, 0, 0, [⟨0,0,.wo,0⟩, ⟨1,1,.wo,0⟩, ⟨2,2,.ro,0⟩]⟩,
  ⟨"CAL_GAP_POS_LO", 0x108, [], .lead, 0, 1, [⟨31,0,.rw,0⟩]⟩,
  ⟨"CAL_GAP_POS_HI", 0x10c, [], .lead, 0, 2, [⟨31,0,.rw,0⟩]⟩,
  ⟨"CAL_PTP_RESID", 0x110, [], .lead, 0, 0, [⟨15,0,.ro,65535⟩]⟩,
  ⟨"CAL_STITCH_RESID", 0x114, [], .lead, 0, 0, [⟨15,0,.ro,65535⟩]⟩,
  ⟨"CAL_QUAL_LIM2", 0x118, [], .lead, 0, 0, [⟨15,0,.rw,1000⟩, ⟨31,16,.rw,100⟩]⟩]

def rowsLCS : List RegRow := [
  ⟨"LCS_STATE", 0x0, [], .lead, 0, 0, [⟨1,0,.ro,0⟩, ⟨2,2,.ro,0⟩, ⟨3,3,.ro,0⟩, ⟨6,4,.ro,0⟩]⟩,
  ⟨"LCS_SLOTS", 0x4, [], .lead, 0, 0, [⟨0,0,.ro,0⟩, ⟨1,1,.ro,0⟩, ⟨2,2,.ro,0⟩, ⟨4,4,.ro,0⟩, ⟨5,5,.ro,0⟩, ⟨6,6,.ro,0⟩, ⟨8,8,.ro,0⟩, ⟨9,9,.ro,0⟩, ⟨10,10,.ro,0⟩, ⟨12,12,.ro,0⟩, ⟨13,13,.ro,0⟩, ⟨14,14,.ro,0⟩, ⟨16,16,.ro,0⟩]⟩,
  ⟨"LCS_CMD", 0x8, [], .lead, 0, 0, [⟨7,0,.rw,0⟩, ⟨8,8,.wo,0⟩]⟩,
  ⟨"LCS_CMD_STATUS", 0xc, [], .lead, 0, 0, [⟨0,0,.ro,0⟩, ⟨1,1,.ro,0⟩, ⟨15,8,.ro,0⟩, ⟨31,16,.ro,0⟩]⟩,
  ⟨"LCS_MBOX_OWNER", 0x10, [], .lead, 0, 0, [⟨2,0,.ro,0⟩]⟩,
  ⟨"LCS_DEBUG_LEFT", 0x14, [], .lead, 0, 0, [⟨31,0,.ro,0⟩]⟩,
  ⟨"LCS_ERR", 0x18, [], .lead, 0, 0, [⟨0,0,.w1c,0⟩, ⟨1,1,.w1c,0⟩, ⟨2,2,.w1c,0⟩]⟩,
  ⟨"LCS_JOB_KEYS", 0x1c, [], .lead, 0, 0, [⟨15,0,.ro,0⟩]⟩,
  ⟨"LCS_JOB_KEY_ID_k", 0x20, [(16,0x4)], .lead, 0, 0, [⟨31,0,.ro,0⟩]⟩,
  ⟨"LCS_CMDS_REFUSED", 0x60, [], .lead, 0, 0, [⟨31,0,.ro,0⟩]⟩,
  ⟨"LCS_CHALLENGE_w", 0x80, [(8,0x4)], .lead, 0, 0, [⟨31,0,.ro,0⟩]⟩,
  ⟨"LCS_VENDOR_HASH_w", 0x100, [(12,0x4)], .lead, 0, 0, [⟨31,0,.ro,0⟩]⟩,
  ⟨"LCS_SLOTs_HASH_w", 0x200, [(4,0x40), (12,0x4)], .lead, 0, 0, [⟨31,0,.ro,0⟩]⟩,
  ⟨"LCS_MBOX", 0x800, [(256,0x4)], .lead, 0, 0, [⟨31,0,.rw,0⟩]⟩,
  ⟨"LCS_RESP", 0xc00, [(64,0x4)], .lead, 0, 0, [⟨31,0,.ro,0⟩]⟩]

def rowsPWR : List RegRow := [
  ⟨"PWR_INT_STATUS", 0x0, [], .all, 0, 0, [⟨0,0,.ro,0⟩, ⟨1,1,.ro,0⟩, ⟨2,2,.ro,0⟩, ⟨3,3,.w1c,0⟩, ⟨4,4,.w1c,0⟩]⟩,
  ⟨"PWR_INT_EN", 0x4, [], .all, 0, 0, [⟨4,0,.rw,0⟩]⟩,
  ⟨"PWR_INT_TILES", 0x100, [], .lead, 0, 0, [⟨7,0,.ro,0⟩]⟩,
  ⟨"PWR_READY", 0x104, [], .lead, 0, 0, [⟨0,0,.rw,1⟩, ⟨1,1,.ro,0⟩, ⟨8,8,.ro,0⟩, ⟨9,9,.ro,0⟩, ⟨10,10,.ro,0⟩, ⟨11,11,.ro,0⟩, ⟨12,12,.ro,0⟩, ⟨13,13,.ro,0⟩]⟩,
  ⟨"PWR_THERM", 0x108, [], .lead, 0, 0, [⟨11,0,.rw,1600⟩]⟩,
  ⟨"PWR_SUPPLY_STATUS", 0x10c, [], .lead, 0, 0, [⟨6,0,.ro,0⟩]⟩,
  ⟨"PWR_SUPPLY_ERR", 0x110, [], .lead, 0, 0, [⟨6,0,.w1c,0⟩]⟩,
  ⟨"PWR_ERR", 0x114, [], .lead, 0, 0, [⟨0,0,.w1c,0⟩, ⟨1,1,.w1c,0⟩]⟩,
  ⟨"PWR_VMONk", 0x120, [(7,0x4)], .lead, 0, 0, [⟨15,0,.ro,0⟩]⟩,
  ⟨"PWR_BOOT", 0x140, [], .lead, 0, 0, [⟨1,0,.ro,0⟩, ⟨2,2,.ro,0⟩, ⟨3,3,.ro,0⟩, ⟨4,4,.ro,0⟩, ⟨5,5,.ro,0⟩, ⟨15,8,.ro,0⟩]⟩,
  ⟨"PWR_BOOT_MS", 0x144, [], .lead, 0, 0, [⟨31,0,.ro,0⟩]⟩,
  ⟨"PWR_FLASH_CTRL", 0x180, [], .lead, 0, 0, [⟨1,0,.rw,0⟩, ⟨2,2,.wo,0⟩]⟩,
  ⟨"PWR_FLASH_ADDR", 0x184, [], .lead, 0, 0, [⟨27,0,.rw,0⟩]⟩,
  ⟨"PWR_FLASH_LEN", 0x188, [], .lead, 0, 0, [⟨8,0,.rw,256⟩]⟩,
  ⟨"PWR_FLASH_STATUS", 0x18c, [], .lead, 0, 0, [⟨0,0,.ro,0⟩, ⟨1,1,.ro,0⟩]⟩,
  ⟨"PWR_FLASH_BUF", 0x400, [(64,0x4)], .lead, 0, 0, [⟨31,0,.rw,0⟩]⟩]

/-- The register rows of a block (R18). -/
def blockRows (blk : Nat) : List RegRow :=
  match blk with
  | 0x0 => rowsSYS
  | 0x1 => rowsCLK
  | 0x1b => rowsD2D
  | 0x2 => rowsBND
  | 0x3 => rowsLNK
  | 0x4 => rowsFXL
  | 0x5 => rowsING
  | 0x6 => rowsCOR
  | 0x7 => rowsEXP
  | 0x8 => rowsSTI
  | 0x9 => rowsREF
  | 0xa => rowsSEG
  | 0xb => rowsCOL
  | 0xc => rowsENG
  | 0xd => rowsCFG
  | 0xe => rowsPOS
  | 0xf => rowsTIM
  | 0x10 => rowsETH
  | 0x11 => rowsCHN
  | 0x12 => rowsOUT
  | 0x13 => rowsEVT
  | 0x14 => rowsDMA
  | 0x15 => rowsQUE
  | 0x16 => rowsCHK
  | 0x17 => rowsFIR
  | 0x18 => rowsCAL
  | 0x19 => rowsLCS
  | 0x1a => rowsPWR
  | _ => []

end Sys2Proof.Machine
end

