-- ==== Sys2Proof/Machine/Topology.lean ====
section
/-! DEFINITION. The parts of the family (R1, R6), the fused identity, the Cerette topology (R28, R29, R30) and the package address (R17,
R18, R35, R37). -/

namespace Sys2Proof.Machine

/-- The three variants (R1). -/
inductive Variant where
  | lyn820 | lyn840 | lyn880
  deriving DecidableEq, Repr

/-- The silicon steppings (R5). -/
inductive Stepping where
  | a0 | b0 | b1
  deriving DecidableEq, Repr

/-- What the fuses fix for good: variant, stepping, die identifiers by tile (R43), the MAC address (R333, R357) and the vendor root hash
(R452, R457). -/
structure Ident where
  variant : Variant
  stepping : Stepping
  dieIds : List Nat
  mac : Nat
  vendorHash : Nat
  deriving DecidableEq, Repr

/-- Tiles fitted (R1). -/
def Variant.tiles : Variant → Nat
  | .lyn820 => 2
  | .lyn840 => 4
  | .lyn880 => 8

/-- SYS_ID.PART (R43). -/
def Variant.part : Variant → Nat
  | .lyn820 => 0x0820
  | .lyn840 => 0x0840
  | .lyn880 => 0x0880

/-- SYS_ID.STEPPING (R43). -/
def Stepping.code : Stepping → Nat
  | .a0 => 0x00
  | .b0 => 0x10
  | .b1 => 0x11

/-- The tile is fitted (R6). -/
def Ident.fitted (d : Ident) (t : Nat) : Bool := decide (t < d.variant.tiles)

/-- The tile at the far end of link `n` of tile `t`, none where it is not bonded (R28). -/
def Ident.neighbour (d : Ident) (t n : Nat) : Option Nat :=
  if !d.fitted t then none else
  match d.variant, n with
  | .lyn820, 0 => some (1 - t)
  | .lyn820, 1 => some (1 - t)
  | .lyn840, 0 => some ((t + 3) % 4)
  | .lyn840, 1 => some ((t + 1) % 4)
  | .lyn880, 0 => some ((t + 7) % 8)
  | .lyn880, 1 => some ((t + 1) % 8)
  | .lyn880, 2 => if t = 1 then some 5 else if t = 5 then some 1 else if t = 2 then some 6 else if t = 6 then some 2 else none
  | _, _ => none

/-- The link is bonded (R28). -/
def Ident.bonded (d : Ident) (t n : Nat) : Bool := (d.neighbour t n).isSome

/-- The link of the neighbour that is the far end of link `n`: on the LYN820 the pair keeps its numbers (DESIGN CHOICE, log 12), on the
rings link 0 meets link 1, and the cross links meet (R28). -/
def Ident.farLink (d : Ident) (n : Nat) : Nat :=
  match d.variant, n with
  | .lyn820, k => k
  | _, 0 => 1
  | _, 1 => 0
  | _, k => k

/-- The hops of R29 between the tiles of the LYN880. -/
def hops880 : List (List Nat) :=
  [[0, 1, 2, 3, 3, 2, 2, 1], [1, 0, 1, 2, 2, 1, 2, 2], [2, 1, 0, 1, 2, 2, 1, 2], [3, 2, 1, 0, 1, 2, 2, 3],
   [3, 2, 2, 1, 0, 1, 2, 3], [2, 1, 2, 2, 1, 0, 1, 2], [2, 2, 1, 2, 2, 1, 0, 1], [1, 2, 2, 3, 3, 2, 1, 0]]

/-- The hops from tile `a` to tile `b` (R28, R29). -/
def Ident.hops (d : Ident) (a b : Nat) : Nat :=
  if a = b then 0 else
  match d.variant with
  | .lyn820 => 1
  | .lyn840 => if (a + 2) % 4 = b then 2 else 1
  | .lyn880 => (hops880.getD a []).getD b 0

/-- The links of tile `a` that start a shortest path to tile `b`. -/
def Ident.shortest (d : Ident) (a b : Nat) : List Nat :=
  [0, 1, 2].filter fun n =>
    match d.neighbour a n with
    | some c => d.hops c b + 1 == d.hops a b
    | none => false

/-- D2D_ROUTE_b.LINK of tile `a`: the highest-numbered link that starts a shortest path, 3 for the tile itself (R30, R45). -/
def Ident.routeLink (d : Ident) (a b : Nat) : Nat :=
  if a = b then 3 else (d.shortest a b).getLastD 3

/-- The links that a packet from `a` to `b` crosses, as tile and link, with at most `fuel` hops (R30). -/
def Ident.path (d : Ident) : Nat → Nat → Nat → List (Nat × Nat)
  | 0, _, _ => []
  | f + 1, a, b =>
    if a = b then [] else
    let n := d.routeLink a b
    match d.neighbour a n with
    | some c => (a, n) :: d.path f c b
    | none => []

/-- The longest path of the variant (R28, R366). -/
def Variant.longest : Variant → Nat
  | .lyn820 => 1
  | .lyn840 => 2
  | .lyn880 => 3

/-- A package address (R17). -/
def addrOf (t blk off : Nat) : Nat := t * 2 ^ 37 + blk * 2 ^ 30 + off
/-- Bits [39:37]: the tile (R17). -/
def addrTile (a : Nat) : Nat := a / 2 ^ 37 % 8
/-- Bits [36:30]: the block (R17). -/
def addrBlk (a : Nat) : Nat := a / 2 ^ 30 % 128
/-- Bits [29:0]: the offset (R17). -/
def addrOff (a : Nat) : Nat := a % 2 ^ 30

/-- The memory windows of R37. -/
inductive Window where
  | dataStore (t c e off : Nat)
  | progStore (t c e off : Nat)
  | cluster (t c off : Nat)
  | pipe (t off : Nat)
  | pool (t off : Nat)
  deriving DecidableEq, Repr

/-- The window an address lies in: none for a register block, an unused range or an unlisted block (R36, R37). -/
def windowOf (a : Nat) : Option Window :=
  let t := addrTile a
  let b := addrBlk a
  let o := addrOff a
  if 0x40 ≤ b ∧ b ≤ 0x47 then
    if 0x100000 ≤ o then none else
    let e := o / 0x10000
    let r := o % 0x10000
    if r < 0xA000 then some (.dataStore t (b - 0x40) e r)
    else if r < 0xC000 then some (.progStore t (b - 0x40) e (r - 0xA000))
    else none
  else if b = 0x48 then
    if o < 0x400000 then some (.cluster t (o / 0x80000) (o % 0x80000)) else none
  else if b = 0x50 then
    if o < 0x400000 then some (.pipe t o) else if o < 0x600000 then some (.pool t (o - 0x400000)) else none
  else none

/-- A register row whose instances include offset `rem` past its base: the indices, outermost first. -/
def matchDims : List (Nat × Nat) → Nat → Option (List Nat)
  | [], rem => if rem = 0 then some [] else none
  | (cnt, str) :: ds, rem =>
    let i := rem / str
    if i < cnt then (matchDims ds (rem - i * str)).map (i :: ·) else none

/-- The register at an offset of a block: its row and its indices. -/
def findReg (blk off : Nat) : Option (RegRow × List Nat) :=
  (blockRows blk).findSome? fun r =>
    if r.off ≤ off then (matchDims r.dims (off - r.off)).map fun ix => (r, ix) else none

/-- A register exists on a tile of the part (R35, R7): the lead tile alone, tiles 0 and 1, or every fitted tile. -/
def placeOk (d : Ident) (t : Nat) : Place → Bool
  | .all => d.fitted t
  | .lead => decide (t = 0)
  | .eth => decide (t < 2)

/-- The first index is below the row's count of structure registers (R263, R371). -/
def RegRow.structured (r : RegRow) (ix : List Nat) : Bool := decide (ix.headD 0 < r.banked)

/-- The reset word of a register row. -/
def RegRow.resetWord (r : RegRow) : Nat := r.fields.foldl (fun w f => withBits w f.hi f.lo f.reset) 0

/-- The reset word of the register at an offset, 0 where there is none. -/
def resetWord (blk off : Nat) : Nat :=
  match findReg blk off with
  | some (r, _) => r.resetWord
  | none => 0

/-- The register at an offset is a structure register (R263). -/
def isStructured (blk off : Nat) : Bool :=
  match findReg blk off with
  | some (r, ix) => r.structured ix
  | none => false

end Sys2Proof.Machine
end

