-- ==== Sys2Proof/Machine/State.lean ====
section
/-! DEFINITION. The state of the block as plain data: the register map (every register of the register tables), the memory windows, and
the state the spec gives the part beside its registers. A sparse map lists only what differs from its default, so the reset state
lists nothing. -/

namespace Sys2Proof.Machine

/-- A pair of numbers that names an instance on a tile: the tile and the number on it. -/
abbrev TileNo := Nat × Nat

/-- A low word that an origin has written and not yet used, or a high word latched for its next read (R13). -/
structure PairHold where
  origin : Origin
  addr : Nat
  word : Nat
  deriving DecidableEq, Repr

/-- What has come about in the present cycle of TB0 (R16, R61, R268): the registers as they stood at its start; by register key, the bits that
hardware has set and the bits that software has written in it; the stages that have become done, as tile, class and band; and the flags
of tiles that a band tick in the cycle would set for writes made in it. By tile × 256 + queue: the producers whose items have come in it, in their
order in the queue (R389, R394), and the queues flushed or reset in it (R398); the tiles that have pushed in it (R393); by tile × 64 + channel the
bytes fed in it (R405); and the commands of the cycle that others have called for ahead of their turn. -/
structure Cycle where
  regs : List (Nat × Word)
  set : List (Nat × Nat)
  soft : List (Nat × Nat)
  done : List (Nat × Nat × Nat)
  late : List (Nat × Fld)
  came : List (Nat × List Nat)
  flushed : List Nat
  reset : List Nat
  pushed : List Nat
  fed : List (Nat × Bytes)
  early : List Instr
  deriving DecidableEq, Repr

/-- A cycle begins with the registers as they stand. -/
def Cycle.from_ (regs : List (Nat × Word)) : Cycle := ⟨regs, [], [], [], [], [], [], [], [], [], []⟩

def Cycle.idle : Cycle := .from_ []

/-! Event fabric (R360 to R373). -/

/-- The pips on their way through the fabric of the package in the present EVTC cycle. -/
structure Fabric where
  /-- Source pips of this cycle: tile and source. -/
  pips : List TileNo
  /-- Sources that pip in the next cycle. -/
  soon : List TileNo
  /-- Local channel outputs of this cycle: tile and channel. -/
  outs : List TileNo
  /-- Global channel outputs to come: due cycle, tile, channel. -/
  globs : List (Nat × TileNo)
  /-- Pips held by relays: due cycle of the raise, tile, relay. -/
  relays : List (Nat × TileNo)
  /-- By tile × 64 + channel: the cycle of the last pip its limiter passed, plus one. -/
  last : List (Nat × Nat)
  /-- Words of EVT registers before a write of this cycle, by register key: a pip that takes a hop in the cycle uses them (R373). -/
  old : List (Nat × Nat)
  /-- By tile: the DMA channel served last, plus one (R378). -/
  served : List (Nat × Nat)
  deriving DecidableEq, Repr

def Fabric.idle : Fabric := ⟨[], [], [], [], [], [], [], []⟩

/-! Queues (R387 to R398). -/

/-- A committed item: its words and, for a record of a release, the band tick of the release and its TB1 time (R349). -/
structure QItem where
  words : List Nat
  rel : Option (Nat × Nat)
  deriving DecidableEq, Repr

/-- The assembly buffer of a producer (R389): its queue, the words of the partial item, and whether it is poisoned (R395). -/
structure Assembly where
  queue : Nat
  words : List Nat
  poisoned : Bool
  deriving DecidableEq, Repr

/-- The queue pools of the tiles: items by tile × 256 + queue, assembly buffers by tile × 256 + producer, the next ALIVE of the
type 0x06 records by tile. -/
structure Queues where
  items : List (Nat × List QItem)
  asm : List (Nat × Assembly)
  alive6 : List (Nat × Nat)
  deriving DecidableEq, Repr

/-! Ethernet, control protocol and chain (R331 to R355). -/

/-- An open session (R340, R341): its source, the port and MAC of its last frame, the SEQ last carried out and the reply kept. -/
structure Session where
  src : LcpSource
  port : Nat
  mac : Nat
  /-- TB0 at its last frame. -/
  last : Nat
  deriving DecidableEq, Repr

/-- A reply kept for a repeated request (R341). -/
structure Kept where
  seq : Nat
  reply : Bytes
  deriving DecidableEq, Repr

/-- A notification that waits (R344): its 32-byte payload. -/
structure Notice where
  payload : Bytes
  deriving DecidableEq, Repr

/-- A stripe under assembly at a port (R348). -/
structure StripeIn where
  port : Nat
  group : Nat
  bytes : Bytes
  deriving DecidableEq, Repr

/-- A frame that waits in a transmit queue (R337): its bytes before the FCS, whether it passes through, and what the transparent clock needs. -/
structure TxFrame where
  bytes : Bytes
  pass : Bool
  /-- A PTP frame that passes: the port it came in by and its receive stamp in TB0 ns (R318). -/
  ptp : Option (Nat × Nat)
  deriving DecidableEq, Repr

/-- The datagram a record sender builds (R349): its records, the release it belongs to, and whether its hold time has passed. -/
structure SenderBuf where
  recs : List Bytes
  rel : Option (Nat × Nat)
  count : Nat
  /-- TB0 at the first record of the open datagram (R349). -/
  since : Nat
  deriving DecidableEq, Repr

/-- A closed datagram of a TIMED sender that waits for its launch time (R349): sender, TB1 time, records. -/
structure TimedDgram where
  sender : Nat
  time : Nat
  number : Nat
  recs : List Bytes
  deriving DecidableEq, Repr

/-- An LCP register request that waits for a retraining Cerette link (R34, R39). -/
structure LcpReq where
  h : LcpHdr
  op : Nat
  payload : Bytes
  deriving DecidableEq, Repr

/-- The source lines gathered for an output line of a stream (R350): band, output line, first source line, place of the last source line in
its band, and the lines by column and plane, a blind column having no planes. -/
structure StreamAcc where
  n : Nat
  r : Nat
  a : Nat
  i : Nat
  rows : List (List (List Nat))
  deriving DecidableEq, Repr

def StreamAcc.idle : StreamAcc := ⟨0, 0, 0, 0, []⟩

/-- The state behind ETH, CHN and OUT. -/
structure Net where
  /-- Sessions 1 to 7 that are open. -/
  sessions : List (Nat × Session)
  kept : List (Nat × Kept)
  subscriber : Option Nat
  notices : List Notice
  /-- Notifications queued since reset (COUNT of R344). -/
  noticeCount : Nat
  /-- Sends of the notification at the head, and the SEQ they carry. -/
  noticeSends : Nat
  noticeSeq : Nat
  /-- Notifications lost since the last NOTIFY_LOST was queued. -/
  noticeLost : Nat
  stripesIn : List StripeIn
  /-- Frames by port × 8 + queue. -/
  tx : List (Nat × List TxFrame)
  /-- The last frame that left each port. -/
  lastOut : List (Nat × Bytes)
  /-- Frames of the firmware that wait for their transmit queue: port, queue (R337). -/
  fwWait : List ((Nat × Nat) × TxFrame)
  /-- What waits for the way between tiles 1 and 0 (R26, R32): LCP requests that came in at port B, oldest first, and frames of the firmware
  for port B with their queue. -/
  hopIn : List LcpReq
  hopOut : List ((Nat × Nat) × TxFrame)
  senders : List (Nat × SenderBuf)
  /-- Sessions that have timed out in this cycle and close at its end, behind their requests of the cycle (R355). -/
  expired : List Nat
  timed : List TimedDgram
  /-- LCP requests that wait behind an access held by a retraining link, oldest first. -/
  waiting : List LcpReq
  /-- ETH mode that a MODE 2 port is trying, by port (R331). -/
  trying : List (Nat × Nat)
  /-- By stream: the line whose output line was dropped since the last packet, plus one (R354). -/
  gaps : List (Nat × Nat)
  /-- Stream settings by the first band they are in force for, newest first: band, stream and CTRL, X0, W, DEC, MAXPAY (R350). -/
  streamCfg : List (Nat × Nat × List Nat)
  /-- By stream × 8 + tile: the output line being gathered. -/
  streamAcc : List (Nat × StreamAcc)
  deriving DecidableEq, Repr

/-! Cerette links (R27 to R34). -/

/-- What link `n` of a tile keeps beside its registers: failed replays of the packet that is in transfer to this end, retraining failures in a
row, the packets of this end's link queue and those of the producers that it stalls (R32), `lost` from the moment it is FAILED until it is UP
again (R33), and `due`: a RETRAIN waits for the packet in flight (R34). On the LYN820, where the links form a pair, `early` has the packets
that wait at this end for an earlier one of the other link; link 0 keeps the link that the tile's next packet takes and the one on which it
expects the next (R28). -/
structure LinkState where
  replays : Nat
  fails : Nat
  held : List Bytes
  stalled : List Bytes
  lost : Bool
  due : Bool
  early : List Bytes
  send : Nat
  recv : Nat
  deriving DecidableEq, Repr

def LinkState.idle : LinkState := ⟨0, 0, [], [], false, false, [], 0, 0⟩

/-! Band clock and ledger (R46 to R71). -/

/-- A band in flight: its index, its bank, B, its lines so far with their WEB_POS, the WEB_POS at its end, the TB1 and TB0 time of its band
tick, and the marks a record of it may carry. -/
structure Band where
  n : Nat
  bank : Nat
  job : Nat
  size : Nat
  line0 : Nat
  pos : List Int
  fin : Option Int
  tb1 : Nat
  tb0 : Nat
  short : Bool
  empty : Bool
  closed : Bool
  speed : Bool
  crc : Bool
  steps : Nat
  deriving DecidableEq, Repr

/-- A time for which a PLL of a tile was not locked (R42): the first band that started in it and, once it is over, the last. -/
structure Outage where
  tile : Nat
  pll : Pll
  first : Nat
  last : Option Nat
  deriving DecidableEq, Repr

/-- The band clock beside the BND registers. Times are TB0 in ns; `schedule` is the next exact time of SRC = 1 in 2⁻³² ns (R48). -/
structure Clock where
  /-- The bands since RUN, newest first. -/
  bands : List Band
  /-- The oldest band not released. -/
  nextRelease : Nat
  lastAccept : Option Nat
  /-- Web counter times POS_UM_PER_COUNT when RUN was set, in 2⁻³² µm (R50). -/
  origin : Int
  lastWeb : Option Int
  schedule : Option Nat
  /-- A line tick has been accepted since RUN. -/
  ticked : Bool
  /-- A source tick has been issued since RUN. -/
  issued : Bool
  drainLeft : Nat
  /-- The drain was started or is continued by clearing RUN. -/
  stopping : Bool
  /-- RUN was set again while such a drain was running: the clock starts at its end (log 22). -/
  restart : Bool
  /-- TB0 at the last band tick. -/
  tickTb0 : Option Nat
  /-- CHN_ADDR.ADDR at the last band tick (R345). -/
  unit : Nat
  /-- The swap that a band tick has made due: its band and the WEB_POS of its first line (R280). -/
  swapDue : Option (Nat × Int)
  /-- TB0 at the last accepted line tick, at the last tick of the schedule, and where RUN was last cleared and FLUSH last written (R46, R61). -/
  lineTb0 : Option Nat
  schedTb0 : Option Nat
  stopTb0 : Option Nat
  flushTb0 : Option Nat
  /-- Instances whose work for a band a loss of lock has ended, by deadline key and band (R42). -/
  stopped : List (Nat × Nat)
  outages : List Outage
  deriving DecidableEq, Repr

/-- A repeat boundary of MODE 1 (R222): its position and count, whether an index made it, the band tick that sends it to the tiles and the one
from which a later count stands in its place, whether a boundary may still be synthesised between the one before it and it, and the TB0 of
its making. -/
structure Bound where
  pos : Int
  k : Int
  index : Bool
  from_ : Nat
  until_ : Option Nat
  gap : Bool
  tb0 : Nat
  deriving DecidableEq, Repr

/-- The label grid of a bank (R222): what a relative grid adds to ORIGIN and the position its count starts at (R284), the MODE 0 boundary
that the first index replaced, and the boundaries of MODE 1, the furthest first. -/
structure Grid where
  ofs : Int
  ref : Int
  replaced : Option Int
  bounds : List Bound
  deriving DecidableEq, Repr

def Grid.idle : Grid := ⟨0, 0, none, []⟩

/-- A blind token (R62): reason and stage (15: none), band, group, sub-stream mask, cross-web extent in µm, and the lines `l0` up to but
not including `l1`, counted from the first line of the band. -/
structure Token where
  reason : Nat
  stage : Nat
  band : Nat
  group : Nat
  mask : Nat
  x0 : Int
  x1 : Int
  l0 : Nat
  l1 : Nat
  deriving DecidableEq, Repr

/-- A span of the ledger (R63, R64): reason, stage, mask and cross-web extent, the stretch of WEB_POS of its group, the first and last
band covered, the job and its bank, the TB1 time and step count of the first band's tick, and the marks of R67. -/
structure Span where
  reason : Nat
  stage : Nat
  mask : Nat
  x0 : Int
  x1 : Int
  w0 : Int
  w1 : Int
  b0 : Nat
  b1 : Nat
  job : Nat
  bank : Nat
  time : Nat
  steps : Nat
  partial_ : Bool
  cont : Bool
  merged : Bool
  short : Bool
  stepped : Bool
  deriving DecidableEq, Repr

/-- The blind ledger. -/
structure Ledger where
  /-- Tokens on their way to tile 0. -/
  inFlight : List Token
  /-- Tokens taken in for bands whose lists are still open. -/
  tokens : List Token
  /-- Tokens that came after their band's lists were closed (R63). -/
  late : List Token
  /-- Spans carried into the next band, by group (R64). -/
  carried : List (Nat × List Span)
  /-- Closed records that the queue has not taken, with the release they belong to (R69). -/
  held : List QItem
  alive : Nat
  /-- The repeat that a group's totals stand in, by group: count plus one, none before the first line (R70). -/
  rep : List (Nat × Option Int)
  /-- Blind length beyond the next boundary, by group: it counts after the totals have moved (R70). -/
  left : List (Nat × Nat)
  deriving DecidableEq, Repr

/-! Time bases (R310 to R323). -/

/-- A foreign grandmaster heard in a domain (R317): its dataset, the port it was first heard on, and the Announces heard. -/
structure Foreign where
  gm : AnnounceData
  port : Nat
  srcId : Nat
  deriving DecidableEq, Repr

/-- A PTP message that waits for its match: a two-step Sync, a peer delay response, a delay request sent (R317). -/
structure PtpWait where
  kind : Nat
  port : Nat
  domain : Nat
  srcId : Nat
  seq : Nat
  corr : Int
  stamp : Int
  stamp2 : Int
  deriving DecidableEq, Repr

/-- One PTP domain's receiver (R317): the grandmasters heard, the one followed with its port, the Sync messages in a row within and
beyond OFS_LIMIT, and the time it has been locked since (TB0). -/
structure Domain where
  heard : List Foreign
  master : Option Foreign
  good : Nat
  bad : Nat
  locked : Bool
  since : Nat
  /-- Domain time less TB0 at the last Sync used, without the path delay, in 2⁻¹⁶ ns. -/
  ref : Option Int
  deriving DecidableEq, Repr

def Domain.idle : Domain := ⟨[], none, 0, 0, false, 0, none⟩

/-- A launch that a fired FRAME slot has prepared (R325): port, slot, launch buffer, and the launch time on its base. -/
structure Launch where
  port : Nat
  slot : Nat
  buf : Nat
  base : Nat
  at_ : Nat
  deriving DecidableEq, Repr

/-- The four time bases: TB0 in ns, the others in 2⁻³² ns, and what the firmware keeps for them. -/
structure Times where
  tb0 : Nat
  tb1 : Nat
  tb2 : Nat
  tb3 : Nat
  dom0 : Domain
  dom1 : Domain
  waits : List PtpWait
  /-- Sequence numbers of the delay requests the unit sends, by port and kind. -/
  reqSeq : List (Nat × Nat)
  /-- Steps of TB1 since reset: a record stamped across one carries TIME_STEP (R322). -/
  tb1Steps : Nat
  /-- TB0 of the last step of TB1, plus one (R328). -/
  stepped : Nat
  /-- A domain's lock has been settled in this cycle, at whose end the selected time is chosen (R319, R328). -/
  choosing : Bool
  /-- TB1 has passed a whole second at the start of this cycle and its pip has not been raised (R361). -/
  second : Bool
  /-- The launches prepared, in firing order (R325). -/
  launches : List Launch
  /-- By port × 16 + launch buffer: TB0 at which the last frame launched from it ends (R328, R338). -/
  launchEnd : List (Nat × Nat)
  /-- By tile × 64 + slot: TB0 of the last execution, plus one (R328). -/
  fired : List (Nat × Nat)
  deriving DecidableEq, Repr
/-! Camera links (R73 to R109). -/

/-- A back-channel message between K27.7 and K29.7 (R103): MSG, LEN, payload and CRC-16; `band` is the band tick of an EXPSET. -/
structure BcMsg where
  expset : Bool
  band : Nat
  body : Bytes
  deriving DecidableEq, Repr

/-- What the receiver of a bond lane keeps: the last 58 scrambled bits (R76), the validity of the last 64 sync headers, newest first (R86),
and the blocks that wait for those of the other lanes (R79). -/
structure LaneState where
  scr : Nat
  heads : List Bool
  queue : List (BitVec 66)
  deriving DecidableEq, Repr

def LaneState.idle : LaneState := ⟨0, [], []⟩

/-- The receiver of a port that is UP (R79, R80): by bond lane what the lane keeps; rounds to come before the next alignment round, the round
counter expected in it, and the alignment rounds missed in a row; and the packet under assembly (R78). -/
structure PortRx where
  lanes : List (Nat × LaneState)
  due : Nat
  counter : Nat
  misses : Nat
  asm : PacketAsm
  deriving DecidableEq, Repr

def PortRx.idle : PortRx := ⟨[], 0, 0, 0, .idle⟩

/-- The back-channel lane of a port (R100 to R107): the running disparity (true: positive), whether the second character of the idle pair is
due, the characters to come of the message being sent and of the TRIG being sent (K flag and octet), the line ticks whose TRIG has not
started (time in ns of TB0 and line number), the character on the lane in this LTXC cycle (first bit highest), the state of the PRBS
generator and the bits it is still to invert. -/
structure BackLane where
  rd : Bool
  half : Bool
  chars : List (Bool × Nat)
  trig : List (Bool × Nat)
  due : List (Nat × Nat)
  out : Option Nat
  gen : Nat
  inject : Nat
  deriving DecidableEq, Repr

def BackLane.idle : BackLane := ⟨false, false, [], [], [], none, 0, 0⟩

/-- A camera port beside its registers. -/
structure PortState where
  /-- What holds the port out of UP without ABSENT (R88): 0 nothing, 1 a recalibration, 2 a near-end and 3 a far-end loopback. -/
  hold : Nat
  /-- The last recalibration of the port failed (R90). -/
  failed : Bool
  /-- The port relocks from L1 (R92). -/
  relock : Bool
  /-- TB0 at which the port entered its present state (R85, R91). -/
  since : Option Nat
  rx : PortRx
  /-- Sub-streams since whose last accepted line FXL has discarded a packet under the CRC or framing rows (R114). -/
  dirty : Nat
  /-- What the port was at each recent line tick, newest first: 0 in order, 1 ABSENT, 2 recalibrating, 3 held by a self-test (R114). -/
  marks : List (Nat × Nat)
  /-- EXPSETs that wait for the back channel, oldest first, and the CMD that waits (R106). -/
  expq : List BcMsg
  cmd : Option BcMsg
  /-- The last message started on the back channel. -/
  sending : Option BcMsg
  back : BackLane
  /-- Commands of this cycle that wait and whose blocks the port has received ahead of their turn (R89, R106, R129). -/
  ahead : Nat
  /-- TAG of the CMD in progress (R105). The CMD in progress is that of a far-end loopback, or one waits to be made (R432). -/
  cmdTag : Nat
  far : Bool
  farWait : Bool
  deriving DecidableEq, Repr

def PortState.idle : PortState := ⟨0, false, false, none, .idle, 0, [], [], none, none, .idle, 0, 0, false, false⟩

/-! Ingest, correction, exposure and statistics (R110 to R153). -/

/-- A line taken in by ingest (R110): line number, FMT, EXPSET, the SAT flag and its raw samples by plane. -/
structure RawLine where
  a : Nat
  fmt : Nat
  expset : Nat
  sat : Bool
  planes : List (List Nat)
  deriving DecidableEq, Repr

/-- A line in the correction pipeline (R116): its sub-stream, the line as staged, its samples after the gain stage, and while it occupies the
input stage the TB0 time at which its last sample is taken (R117). -/
structure PipeLine where
  sub : Nat
  line : RawLine
  gain : List (List Nat)
  input : Option Nat
  deriving DecidableEq, Repr

/-- A past line of a sub-stream for the alignment of R126: its samples after the gain stage, or why it is missing (reason and stage). -/
structure HistLine where
  a : Nat
  miss : Option (Nat × Nat)
  expset : Nat
  planes : List (List Nat)
  deriving DecidableEq, Repr

/-- A running gain fade (R123): the line of j = 1 and L; `cut` where FADE_LEN is 0. -/
structure Fade where
  first : Nat
  len : Nat
  cut : Bool
  deriving DecidableEq, Repr

/-- A sub-stream of a port in ingest and correction, beside its registers. -/
structure SubState where
  /-- The staging buffer, lowest line number first (R115). -/
  staged : List RawLine
  /-- Past lines, newest first. -/
  hist : List HistLine
  /-- The last line as it left the defective-pixel stage, for METHOD 3 (R121). -/
  prev : Option (Nat × List (List Nat))
  /-- The list of defective pixels as last used: its ignored entries have been counted (R121). -/
  dprSeen : List Nat
  fade : Option Fade
  /-- The last fade that ended, with the bank faded from: its lines that are still on their way keep their gain (R123). -/
  faded : Option (Fade × Nat)
  /-- The line at which a fade that waits starts, and its FADE_LEN (R124). -/
  fadeDue : Option (Nat × Nat)
  /-- The first line since the alignment history last began empty at a swap (R282). -/
  since : Nat
  deriving DecidableEq, Repr

def SubState.idle : SubState := ⟨[], [], none, [], none, none, none, 0⟩

/-- A corrected line (R119): line number, package-wide sub-stream, corrected samples and converted raw samples by plane, its EXPSET,
whether it mixes sets (R136), and SAT. -/
structure CorLine where
  a : Nat
  sub : Nat
  planes : List (List Nat)
  raw : List (List Nat)
  expset : Nat
  mixed : Bool
  sat : Bool
  deriving DecidableEq, Repr

/-- An exposure set (R104, R133). -/
structure ExpSet where
  id : Nat
  mask : Nat
  exposure : Nat
  gainR : Nat
  gainG : Nat
  gainB : Nat
  deriving DecidableEq, Repr

/-- The exposure unit of a port: the hand-over that a band tick has made due with its band and whether it is the loop's, the loop's
request, which the next band tick serves, the band of the last hand-over (below 0: in an earlier run), and the commanded set of each
sub-stream with its origin. -/
structure ExpPort where
  due : Option (ExpSet × Nat × Bool)
  loop : Option ExpSet
  lastHand : Option Int
  sets : List (Nat × ExpSet)
  /-- By sub-stream, newest first: the bands whose lines a set not sent leaves flagged, from and up to (R135). -/
  unsent : List (Nat × Nat × Option Nat)
  deriving DecidableEq, Repr

def ExpPort.idle : ExpPort := ⟨none, none, none, [], []⟩

/-- The statistics of a sub-stream and band while they gather (R137 to R141). -/
structure StatBand where
  sub : Nat
  n : Nat
  lines : Nat
  /-- The included line with the highest number and its EXPSET. -/
  last : Nat
  tag : Nat
  mixed : Bool
  sat : Bool
  hist : List (List Nat)
  zones : List (List Nat)
  complete : Bool
  deriving DecidableEq, Repr

/-- The line path and the exposure units of the part. -/
structure Path where
  /-- By package-wide sub-stream. -/
  subs : List (Nat × SubState)
  /-- Lines in the correction pipeline of each package-wide port, oldest first (R116). -/
  pipe : List (Nat × List PipeLine)
  /-- By tile: the last band for which BND_MISS_0 has been counted, plus one (R118). -/
  missed0 : List (Nat × Nat)
  /-- By package-wide port. -/
  exps : List (Nat × ExpPort)
  stats : List StatBand
  /-- By tile: the next band whose statistics are due, and the next ALIVE (R141, R145). -/
  statNext : List (Nat × Nat)
  statAlive : List (Nat × Nat)
  /-- LINE_STAMP of the master packet of the newest line tick (R112). -/
  masterStamp : Nat
  /-- LINE_STAMP of the master packet whose tick comes next. -/
  nextStamp : Nat
  deriving DecidableEq, Repr


/-! Stitching (R154 to R172). -/

/-- A corrected line of a sub-stream as stitching keeps it (R159): its planes, or why it is missing (reason and stage). -/
structure SrcLine where
  a : Nat
  miss : Option (Nat × Nat)
  planes : List (List Nat)
  deriving DecidableEq, Repr

/-- The history of a sub-stream (R160, R170): the first line since it last began empty, and its lines, newest first. -/
structure SrcHist where
  since : Nat
  lines : List SrcLine
  deriving DecidableEq, Repr

/-- An import window (R158, R167): the next line it expects, and the lines whose wait has expired, newest first. -/
structure ImpWin where
  next : Nat
  late : List Nat
  deriving DecidableEq, Repr

/-- A run of blind columns of a stitched line (R166): reason, stage, missing sources, first segment column and the one after the last. -/
structure BlindRun where
  reason : Nat
  stage : Nat
  mask : Nat
  c0 : Nat
  c1 : Nat
  deriving DecidableEq, Repr

/-- A hedgerow's part of a stitched line (R164, R165): whether exactly one source is missing; sum and count of |p − s|, none where a
source is missing. -/
structure HedgeLine where
  single : Bool
  diff : Option (Nat × Nat)
  deriving DecidableEq, Repr

/-- A stitched segment line (R161 to R166): group, line number, the planes of each segment column (none listed where it is blind), the
blind runs and the hedgerows. -/
structure StLine where
  group : Nat
  a : Nat
  cols : List (List Nat)
  runs : List BlindRun
  hedges : List HedgeLine
  deriving DecidableEq, Repr

/-- A trim hand-over that a band tick has made due (R169): the first line it applies from, the software's values by local sub-stream and
registration's values by package-wide sub-stream. -/
structure TrimDue where
  first : Nat
  soft : Option (List (Int × Int))
  reg : List (Nat × Int × Int)
  deriving DecidableEq, Repr

/-- The stitchers of the part. -/
structure Stitch where
  /-- By package-wide sub-stream. -/
  src : List (Nat × SrcHist)
  /-- By tile × 4 + window. -/
  imps : List (Nat × ImpWin)
  /-- By tile × 8 + group: the next line to build. -/
  next : List (Nat × Nat)
  /-- By tile: lines in the stitcher, oldest first. -/
  built : List (Nat × List StLine)
  /-- By tile × 8 + group: completed lines of the bands in flight, newest first. -/
  done : List (Nat × List StLine)
  /-- By (tile × 8 + group) × 16 + hedgerow: the band measured, the sum and the count (R164). -/
  mad : List (Nat × (Nat × Nat × Nat))
  /-- By package-wide sub-stream: TRIM_X and TRIM_Y by the first line they apply from, newest first. -/
  trims : List (Nat × List (Nat × Int × Int))
  /-- By tile. -/
  due : List (Nat × TrimDue)
  /-- Values that registration hands over at the next band tick (R169). -/
  reg : List (Nat × Int × Int)
  deriving DecidableEq, Repr

def Stitch.idle : Stitch := ⟨[], [], [], [], [], [], [], [], []⟩

/-! Reference and registration (R173 to R206). -/

/-- A stripe that passed its checks (R176 to R180): job, group, repeat, lines, columns, its bytes as received, its samples by line, column and
plane, and its privet cells. -/
structure RefStripe where
  job : Nat
  group : Nat
  rep : Nat
  line0 : Nat
  lines : Nat
  x0 : Nat
  cols : Nat
  raw : Bytes
  rows : List (List (List Nat))
  cells : List (List Nat)
  deriving DecidableEq, Repr

/-- The ring of a tile and group (R181 to R183): the stripes of the open set, the complete sets, oldest first, the lowest global line
index that has not been freed, and the offset in the ring at which the next stripe is stored. -/
structure RefRing where
  cur : List RefStripe
  sets : List (List RefStripe)
  low : Nat
  at_ : Nat
  deriving DecidableEq, Repr

def RefRing.idle : RefRing := ⟨[], [], 0, 0⟩

/-- A row of the decimated copy (R168): its band, its first line and its cells, none where invalid. -/
structure DecRow where
  n : Nat
  a : Nat
  cells : List (Option Nat)
  deriving DecidableEq, Repr

/-- What the correlator found for a patch (R188): the score (0 where the patch is unused), dx, dy and the centre. -/
structure PatchRes where
  c : Nat
  dx : Int
  dy : Int
  x : Nat
  deriving DecidableEq, Repr

/-- A registration solution in the units of R189, with its elastic nodes. -/
structure Sol where
  dy : Int
  dx : Int
  scale : Int
  skew : Int
  nodes : List Int
  deriving DecidableEq, Repr

/-- What the outcome rules made of a band's solve (R192): group, band, solution used or carried, confidence, patches used, flags, stitch
residual, hold count. -/
structure RefOut where
  group : Nat
  n : Nat
  sol : Sol
  conf : Nat
  used : Nat
  held : Bool
  expired : Bool
  fail : Bool
  clamped : Bool
  track : Bool
  res : Nat
  hold : Nat
  deriving DecidableEq, Repr

/-- A repeat being captured (R199): its repeat count, whether it is good so far, and by reference pixel the count and the sums by plane. -/
structure Capture where
  k : Int
  good : Bool
  sums : List (Nat × (Nat × List Nat))
  deriving DecidableEq, Repr

/-- Learning of a group's reference (R198 to R200): the repeat count at a request, the repeat count learning began at, the next line to enter a
capture, the repeat being captured, the captures held, the tiles whose median is complete with the repeat count then, the learned reference and whether it is in effect. Pixels are keyed by
line times columns plus column. -/
structure Learn where
  req : Option Int
  since : Int
  next : Nat
  cur : Option Capture
  caps : List (List (Nat × List Nat))
  median : List Nat
  medianAt : Int
  image : List (Nat × List Nat)
  done : Bool
  deriving DecidableEq, Repr

def Learn.idle : Learn := ⟨none, 0, 0, none, [], [], 0, [], false⟩

/-- The reference units of the part. -/
structure RefState where
  /-- By group: the SEQ of the last stripe, plus one. -/
  seqs : List (Nat × Nat)
  /-- Stripes on their way to each tile, oldest first. -/
  coming : List (Nat × List RefStripe)
  /-- By (bank × 8 + tile) × 8 + group. -/
  rings : List (Nat × RefRing)
  /-- By group: the next band whose lead is checked. -/
  leadNext : List (Nat × Nat)
  /-- Bands blind with REF_LATE: group and band. -/
  late : List (Nat × Nat)
  /-- While the swap is armed: by group, the next band whose lead is checked against the job in SHADOW (R285). -/
  leadAhead : List (Nat × Nat)
  /-- While the swap is armed: bands whose lead check against the job in SHADOW failed (R285). -/
  lateNext : List (Nat × Nat)
  /-- By tile × 8 + group: the decimated copy, newest row first. -/
  dec : List (Nat × List DecRow)
  /-- Patch results by group and band, newest first. -/
  patches : List ((Nat × Nat) × List PatchRes)
  /-- Solution items that have arrived: group, band, words; oldest first. -/
  items : List (Nat × Nat × List Nat)
  /-- By bank × 8 + group: the last good solution; INIT where none is listed. -/
  good : List (Nat × Sol)
  /-- Outcomes of recent bands, newest first. -/
  outs : List RefOut
  /-- By tile × 8 + group: the next band to warp. -/
  warpNext : List (Nat × Nat)
  /-- By bank × 8 + group. -/
  learns : List (Nat × Learn)
  /-- ALIVE of the next registration record. -/
  alive : Nat
  /-- By group: the first band of a new job, where the last good solution begins anew (R192). -/
  fresh : List (Nat × Nat)
  deriving DecidableEq, Repr

def RefState.idle : RefState := ⟨[], [], [], [], [], [], [], [], [], [], [], [], [], [], 0, []⟩

/-! Segmentation and the collector (R207 to R236). -/

/-- A pixel as segmentation sees it (R209 to R211): candidate, strong, excluded for a reason other than class 15, excluded at all, ΔE,
dark, privet class and the signed plane differences. -/
structure SegPix where
  cand : Bool
  strong : Bool
  blind : Bool
  excl : Bool
  de : Nat
  dark : Bool
  cls : Nat
  diffs : List Int
  deriving DecidableEq, Repr

/-- A segment line before morphology: line, band and pixels. -/
structure SegLine where
  a : Nat
  n : Nat
  px : List SegPix
  deriving DecidableEq, Repr

/-- A bramble (R213 to R216): ID, first and last line, its runs in the line before and in the line at hand, and its features. `maxAt` is
the line, column and plane of MAX_DIFF; `lo` and `hi` are the lines it occupies in the edge columns. -/
structure Bramble where
  id : Nat
  line0 : Nat
  last : Nat
  prev : List (Nat × Nat)
  cur : List (Nat × Nat)
  x0 : Nat
  x1 : Nat
  area : Nat
  strong : Nat
  dark : Nat
  sumDe : Nat
  peakDe : Nat
  peakX : Nat
  peakLine : Nat
  peakCls : Nat
  maxDiff : Int
  maxLine : Nat
  maxX : Nat
  maxPlane : Nat
  clsMask : Nat
  blindAdj : Bool
  lo : List Nat
  hi : List Nat
  deriving DecidableEq, Repr

/-- Why a bramble closed (R214). -/
inductive CloseWhy where
  | plain | continues | shortBand | changeover | truncated
  deriving DecidableEq, Repr

/-- A kept bramble of a tile (R215 to R218): tile, group, the band it closed in, why it closed, its edges, the sub-stream of its peak, its
class, and what classification did. -/
structure Frag where
  tile : Nat
  group : Nat
  n : Nat
  br : Bramble
  why : CloseWhy
  edgeLo : Bool
  edgeHi : Bool
  peakSub : Nat
  cls : Nat
  verdict : Bool
  drop : Bool
  noVerdict : Bool
  deriving DecidableEq, Repr

/-- Unlabelled runs of a band (R213): their count and pixels, the CAUSE bits, and the lines and columns they span. -/
structure Unlab where
  runs : Nat
  pixels : Nat
  cause : Nat
  l0 : Nat
  l1 : Nat
  x0 : Nat
  x1 : Nat
  deriving DecidableEq, Repr

/-- Segmentation of a group on a tile: the last lines before morphology, newest first; the next line to label; open brambles, earliest
first; the next serial number; kept brambles and unlabelled runs of the bands not yet in a slot; the first band not done in class 4 and
the bands done in class 5; and the brambles that were open at the end of each labelled band, newest first (R214). -/
structure SegState where
  buf : List SegLine
  next : Nat
  brambles : List Bramble
  serial : Nat
  frags : List Frag
  unl : List (Nat × Unlab)
  done4 : Nat
  done5 : List Nat
  ends : List (Nat × List Bramble)
  deriving DecidableEq, Repr

def SegState.idle : SegState := ⟨[], 0, [], 0, [], [], 0, [], []⟩

/-- A result slot (R224): its band, the tile's kept brambles and the unlabelled runs by group. -/
structure Slot where
  n : Nat
  frags : List Frag
  unl : List (Nat × Unlab)
  deriving DecidableEq, Repr

/-- A bramble ready for its record (R227, R228): its fragments merged, with MERGED and EDGE. -/
structure Merged where
  frag : Frag
  merged : Bool
  edge : Bool
  noVerdict : Bool
  marks : List CloseWhy
  blindAdj : Bool
  deriving DecidableEq, Repr

/-- A band and group that the collector has finished (R228): the records kept in order, the brambles summarised and the unlabelled runs. -/
structure Collected where
  n : Nat
  group : Nat
  kept : List Merged
  rest : List Merged
  unl : List Unlab
  deriving DecidableEq, Repr

/-- The segmentation pipelines and the collector. -/
structure Seg where
  /-- By tile × 8 + group. -/
  segs : List (Nat × SegState)
  /-- Verdicts on their way, oldest first: tile, group, band, words. -/
  verdicts : List (Nat × Nat × Nat × List Nat)
  /-- Descriptors on their way to the classification engines, oldest first: tile, group, band, words. -/
  descs : List (Nat × Nat × Nat × List Nat)
  /-- By tile × 2 + slot. -/
  slots : List (Nat × Slot)
  /-- Results that COL_LATE has replaced: tile and band (R225). -/
  void : List (Nat × Nat)
  /-- The band being served, the tiles served of it, and what they gave. -/
  band : Nat
  turn : Nat
  got : List Frag
  gotUnl : List (Nat × Unlab)
  ready : List Collected
  /-- Records that the queue has not taken (R228). -/
  held : List QItem
  alive : Nat
  /-- Marker positions on their way to the marker ring, each with MIN_GAP of its band's job, and the last position appended (R232). -/
  marks : List (Int × Nat)
  lastMark : Option Int
  /-- Services of this cycle's COLLECTOR_SERVE commands already made for a slot that had to be free (R233). -/
  ahead : Nat
  deriving DecidableEq, Repr

def Seg.idle : Seg := ⟨[], [], [], [], [], 0, 0, [], [], [], [], 0, [], none, 0⟩

/-! Vector engines (R237 to R262). -/

/-- An entry of a port's FIFO (R244, R246): a beat of 16 lanes or a scalar word, each with END, a band mark, or the END, marked LOST, of an item that a
missed deadline has cut short; `n` is its band. -/
inductive FifoEntry where
  | beat (n : Nat) (lanes : List Nat) (last : Bool)
  | word (n : Nat) (w : Nat) (last : Bool)
  | mark (n : Nat)
  | lost (n : Nat)
  deriving DecidableEq, Repr

/-- An engine beside its registers (R237, R240 to R246). Registers, accumulators and predicates that are 0 are not listed: scalars by
number, vector lanes by 16 × register + lane, accumulator lanes likewise (48-bit two's complement), predicates by number. `run` is the
entry: 0 none, 1 INIT, 2 BAND, 3 ABORT, 5 ended by a fault. -/
structure EngState where
  s : List (Nat × Nat)
  v : List (Nat × Nat)
  acc : List (Nat × Nat)
  p : List (Nat × Nat)
  pc : Nat
  run : Nat
  bank : Nat
  band : Nat
  /-- The band of its next BAND entry, and the lowest band whose input it still takes. -/
  next : Nat
  floor : Nat
  latches : Nat
  /-- It has arrived at its cluster's barrier. -/
  bar : Bool
  halted : Bool
  /-- INIT is due for an assignment (R242). -/
  initDue : Bool
  fifo0 : List FifoEntry
  fifo1 : List FifoEntry
  /-- What the pipeline taps have on its way to the ports, oldest first: one entry of a port arrives in an EVTC cycle. -/
  way0 : List FifoEntry
  way1 : List FifoEntry
  /-- The rest of an item is discarded at a port up to its END (R246): the item's band. -/
  skip0 : Option Nat
  skip1 : Option Nat
  /-- The FIFO of the output port; whether the program has begun an item there that has no END; and the words of an item that its destination has
  taken so far. -/
  out : List FifoEntry
  part : Bool
  taken : List Nat
  /-- Bands it has executed DONE for, newest first. -/
  done : List Nat
  /-- The last band it missed while halted (R259). -/
  missed : Option Nat
  /-- Its INIT was abandoned at a resume (R259). -/
  past : Bool
  /-- The TB0 at which HALT was written last. -/
  haltTb0 : Option Nat
  deriving DecidableEq, Repr

def EngState.idle : EngState := ⟨[], [], [], [], 0, 0, 0, 0, 0, 0, 0, false, false, false, [], [], [], [], none, none, [], false, [], [], none, false, none⟩

/-- The engines of the part. -/
structure Engines where
  /-- By tile × 128 + engine. -/
  engs : List (Nat × EngState)
  /-- By tile × 256 + source: the next band whose mark a pipeline tap places (R246). -/
  marks : List (Nat × Nat)
  /-- By tile × 128 + instance code: the bands below it have had their deadline check (R58). -/
  due : List (Nat × Nat)
  /-- By tile, DST and queue: the engine whose item the destination is taking, and the engine it served last (R249). -/
  serves : List (Nat × Option Nat × Nat)
  deriving DecidableEq, Repr

def Engines.idle : Engines := ⟨[], [], [], []⟩

/-! Life cycle (R437 to R457). -/

/-- The fuses of the security block (R439, R446, R453): the three state bits, PROGRAMMED and REVOKED of the owner slots by bit, ERASED, and the
owner hashes. -/
structure Fuses where
  life : Nat
  programmed : Nat
  revoked : Nat
  erased : Bool
  hashes : List (Nat × Nat)
  deriving DecidableEq, Repr

def Fuses.blank : Fuses := ⟨0, 0, 0, false, []⟩

/-- A job key of key RAM (R449): its KEY_ID, the key and the slot that signed its installation. -/
structure JobKey where
  id : Nat
  key : Bytes
  slot : Nat
  deriving DecidableEq, Repr

/-- A command that runs (R442, R444): its OP, its session, its bytes, and the result of the checks. -/
structure LcsCmd where
  op : Nat
  session : Nat
  bytes : Bytes
  result : Nat
  deriving DecidableEq, Repr

/-- The security block beside its registers: fuses; loaded owner keys by slot; job keys by entry; sealed 64-byte granules by address / 64,
rising (R451); the SCOPE of an open vendor debug session, its end on TB0 and the engines it has halted and given breakpoints (R452); the
command that runs; a RETURN has stopped inspection (R453); the part is in internal scan (R451); a vendor debug session that has run out ends with
the present cycle, behind the accesses of it (R456). -/
structure Lcs where
  fuses : Fuses
  owners : List (Nat × Bytes)
  jobKeys : List (Nat × JobKey)
  seals : List Nat
  scope : Nat
  debugEnd : Nat
  debugEngs : List Nat
  cmd : Option LcsCmd
  returning : Bool
  scan : Bool
  expiring : Bool
  deriving DecidableEq, Repr

def Lcs.idle : Lcs := ⟨.blank, [], [], [], 0, 0, [], none, false, false, false⟩

/-! Web position (R288 to R308). -/

/-- An absolute channel's counters and what its reader keeps (R291, R294): bad frames in a row, and whether the next good frame counts as the
first. -/
structure AbsState where
  count : Int
  travel : Int
  bad : Nat
  first : Bool
  deriving DecidableEq, Repr

def AbsState.idle : AbsState := ⟨0, 0, 0, true⟩

/-- The position interface beside its registers. -/
structure Pos where
  /-- By channel: time stamps in ns of the valid edges since the measurement last restarted, newest first (R295, R296). -/
  times : List (Nat × List Nat)
  /-- By absolute channel. -/
  abs : List (Nat × AbsState)
  /-- X of the line trigger generator, in 2⁻³² counts (R297). -/
  x : Option Int
  /-- TRAVEL of WEB_CHAN at the last 0-to-1 transition of RUN, and at the latest line tick (R292, R305). -/
  runTravel : Int
  lineTravel : Int
  /-- Compare units whose list does not lie inside a region (R300). -/
  bad : List Nat
  /-- Trigger outputs on which a pulse of SRC 2 or 4 is running (R299). -/
  high : List Nat
  /-- By channel: the POSC cycle in which ARM was last written, plus one (R308). -/
  armAt : List (Nat × Nat)
  /-- By channel: the POSC cycle in which COUNT was last written, plus one (R308). -/
  countAt : List (Nat × Nat)
  deriving DecidableEq, Repr

def Pos.idle : Pos := ⟨[], [], none, 0, 0, [], [], [], []⟩

/-! Structure images (R263 to R287). -/

/-- A memory region (R274): whether an installation section declared it, its first address and the one after its last. -/
structure Region where
  install : Bool
  lo : Nat
  hi : Nat
  deriving DecidableEq, Repr

/-- A section of an image as its header gives it (R271): index, offset of the header, KIND, FLAGS, destination, LEN and CRC. -/
structure Section where
  idx : Nat
  at_ : Nat
  kind : Nat
  flags : Nat
  dest : Nat
  len : Nat
  crc : Nat
  deriving DecidableEq, Repr

/-- An IMAGE_DATA request whose bytes wait for the loader (R275, R342). -/
structure ImageReq where
  h : LcpHdr
  ofs : Nat
  data : Bytes
  deriving DecidableEq, Repr

/-- The load of SHADOW (R278): its session (0: boot flash), the length from IMAGE_OPEN, the bytes applied, the next section's offset and index,
what became of the installation section (0 none, 1 skipped, 2 applied) and whether a job section came, the job key once looked up, the
AT_SWAP writes and the sub-streams of GAIN_NEXT blobs in order, and TB0 when verification completed. -/
structure Load where
  session : Nat
  len : Nat
  bytes : Bytes
  pos : Nat
  idx : Nat
  install : Nat
  job : Bool
  key : Option Bytes
  atSwap : List (Nat × Nat)
  gains : List Nat
  doneAt : Option Nat
  deriving DecidableEq, Repr

/-- CFG beside its registers: the load, the IMAGE_DATA requests not answered yet (R342; the bytes of the oldest are in the load), a swap
that does not compare positions (R281), an immediate swap that waits (R281), the last swaps by position, newest first: band, SWAP_POS and
CFG_XOVER (R283), the TB0 of the last arming, and that of the last DISARM with the two marks that the swap had (R286). -/
structure Cfg where
  load : Option Load
  waiting : List ImageReq
  uncond : Bool
  immediate : Bool
  swaps : List (Nat × Int × Nat)
  armTb0 : Option Nat
  disarmed : Option (Nat × Bool × Bool)
  deriving DecidableEq, Repr

def Cfg.idle : Cfg := ⟨none, [], false, false, [], none, none⟩

/-! Profile filters (R409 to R420). -/

/-- A filter stage: inputs since the last synchronising reset, and its delay line, newest first, each input with its INVALID flag. -/
structure FirStage where
  count : Nat
  xs : List (Int × Bool)
  deriving DecidableEq, Repr

def FirStage.idle : FirStage := ⟨0, []⟩

/-- A filter channel beside its registers: its input FIFO, oldest first; the last sample its source delivered; its stages and the
persistence counts of its thresholds. -/
structure FirChan where
  fifo : List Int
  last : Option Int
  stages : List FirStage
  pers0 : Nat
  pers1 : Nat
  deriving DecidableEq, Repr

def FirChan.idle : FirChan := ⟨[], none, [.idle, .idle, .idle], 0, 0⟩

/-! Calibration and self-test (R423 to R438). -/

/-- A request of a recalibration (R424, R427): whether software made it first, whether it is forced, whether it is forced under R424, and TB0 of
the FORCE that has made it so (R437). -/
structure CalReq where
  soft : Bool
  forced : Bool
  hard : Bool
  forcedAt : Option Nat
  deriving DecidableEq, Repr

/-- The self-test that a write of ST has latched (R430), and TB0 of the FORCE that has made it forced (R437). -/
structure StReq where
  kind : Nat
  port : Nat
  pattern : Nat
  mask : Nat
  dwell : Nat
  forced : Bool
  forcedAt : Option Nat
  deriving DecidableEq, Repr

/-- What a loopback has found on a lane (R433): whether its checker has locked, errors and bits checked. -/
structure LaneCheck where
  locked : Bool
  errors : Nat
  bits : Nat
  deriving DecidableEq, Repr

def LaneCheck.idle : LaneCheck := ⟨false, 0, 0⟩

/-- A tile's work (R427 to R430): the requests that wait and whether a band tick has opened their time, the ports of the recalibration that
runs, the self-test that runs, and the number of 1 ms readings in a row at which a valid sensor read at least 120.0 °C (R465); TB0 at the start of
the recalibration and the longer interruption of its ports in ns (R426); what the loopback has found by lane (R433); and the work that CANCEL has
removed, with its TB0 (R437). -/
structure CalTile where
  cal : Option CalReq
  calDue : Bool
  ports : List Nat
  st : Option StReq
  stDue : Bool
  run : Option StReq
  hot : Nat
  start : Nat
  lost : Nat
  checks : List (Nat × LaneCheck)
  cancelled : Option (Nat × Option CalReq × Option StReq)
  deriving DecidableEq, Repr

def CalTile.idle : CalTile := ⟨none, false, [], none, false, none, 0, 0, 0, [], none⟩

/-- Calibration work by tile, and |OFFSET| of each PTP domain's last 64 Sync messages used, newest first (R435). -/
structure Cal where
  tiles : List (Nat × CalTile)
  ptp : List (Nat × List Nat)
  deriving DecidableEq, Repr

def Cal.idle : Cal := ⟨[], []⟩

/-! DMA (R375 to R386). -/

/-- A DMA channel beside its registers: FLAGS of the descriptor it copies, whether it runs a chain, DMA_HOPS at its start, and TB0 of its
last start and of its last completion, each plus one (R385). -/
structure DmaChan where
  flags : Nat
  chain : Bool
  hops : Nat
  started : Nat
  ended : Nat
  /-- The bytes in its holding buffer: read and not yet written (R377). -/
  buf : Bytes
  deriving DecidableEq, Repr

def DmaChan.idle : DmaChan := ⟨0, false, 0, 0, 0, []⟩

/-! Power and reset (R458 to R490). -/

/-- The reset phases (R464). IDLE and INSPECTING are one here: READY tells them apart. -/
inductive Phase where
  | off | hold | fuse | clock | boot | run
  deriving DecidableEq, Repr

/-- A flash operation that runs (R476): OP, address, and the bytes to program or the length to read. -/
structure FlashOp where
  op : Nat
  addr : Nat
  len : Nat
  bytes : Bytes
  deriving DecidableEq, Repr

/-- Power and reset beside the registers: the phase, the level of PORST_N, an internal reset that holds HOLD and whether a thermal trip does,
the causes of an internal reset that waits for a flash page (R489), the rails within tolerance, the boot flash (bytes that differ from
0xFF), whether it gives a valid SFDP table, the flash operation that runs, and the firmware in the management memory of every tile: ENTRY and
body (R473). -/
structure Pwr where
  phase : Phase
  porstHigh : Bool
  held : Bool
  thermal : Bool
  waiting : Nat
  rails : Nat
  flash : List Host.Cell
  sfdp : Bool
  op : Option FlashOp
  mgt : Option (Nat × Bytes)
  deriving DecidableEq, Repr

/-- The machine. -/
structure State where
  /-- The fused identity: no command changes it. -/
  id : Ident
  /-- Registers that differ from their reset word, by bank and package address (Machine/Ops.lean, `regKey`). -/
  regs : List (Nat × Word)
  /-- Bytes of the memory windows that differ from 0, by package address. -/
  mem : List Host.Cell
  /-- Low words held for a pair write, the last WO low words written, and latched high words (R13). -/
  holds : List PairHold
  lowSeen : List PairHold
  latches : List PairHold
  cyc : Cycle
  /-- The bank of the newest band (R264), and the swap band while the other bank is RETIRING (R267). -/
  bank : Nat
  retiring : Option Nat
  tim : Times
  fab : Fabric
  que : Queues
  net : Net
  links : List (Nat × LinkState)
  ports : List (Nat × PortState)
  /-- PRBS checkers of the receive lanes, by tile × 8 + lane (R107). -/
  prbs : List (Nat × PrbsState)
  path : Path
  sti : Stitch
  ref : RefState
  sgm : Seg
  eng : Engines
  lcs : Lcs
  pos : Pos
  cal : Cal
  dma : List (Nat × DmaChan)
  cfg : Cfg
  pwr : Pwr
  /-- Filter channels by tile × 16 + channel. -/
  fir : List (Nat × FirChan)
  /-- The memory regions of each bank (R274). -/
  regions : List (Nat × List Region)
  clk : Clock
  grids : List (Nat × Grid)
  led : Ledger
  /-- Free values used so far: the argument of `Config.free`. A field of the model, not of the spec. -/
  freeCtr : Nat
  /-- The commands that wait, first in, first out. -/
  pending : List Instr
  deriving DecidableEq, Repr

/-- The part right after a power-on reset (R311, R466): every register at its reset word, every memory without content, nothing in
progress. HOLD has ended and the fuses are about to be read (R464). -/
def State.powerOn (d : Ident) (fuses : Fuses) (flash : List Host.Cell) (sfdp : Bool) (rails ctr : Nat) : State where
  id := d
  regs := []
  mem := []
  holds := []
  lowSeen := []
  latches := []
  cyc := .idle
  bank := 0
  retiring := none
  tim := ⟨0, 0, 0, 0, .idle, .idle, [], [], 0, 0, false, false, [], [], []⟩
  fab := .idle
  que := ⟨[], [], []⟩
  net := ⟨[], [], none, [], 0, 0, 0, 0, [], [], [], [], [], [], [], [], [], [], [], [], [], []⟩
  links := []
  ports := []
  prbs := []
  path := ⟨[], [], [], [], [], [], [], 0, 0⟩
  sti := .idle
  ref := .idle
  sgm := .idle
  eng := .idle
  lcs := { Lcs.idle with fuses := fuses }
  pos := .idle
  cal := .idle
  dma := []
  cfg := .idle
  pwr := ⟨.fuse, true, false, false, 0, rails, flash, sfdp, none, none⟩
  fir := []
  regions := []
  clk := ⟨[], 0, none, 0, none, none, false, false, 0, false, false, none, 0, none, none, none, none, none, [], []⟩
  grids := []
  led := ⟨[], [], [], [], [], 0, [], []⟩
  freeCtr := ctr
  pending := []

/-- The identity that the model's reset state has: an LYN880 of stepping B1 (log 1). -/
def Ident.default : Ident := ⟨.lyn880, .b1, [1, 2, 3, 4, 5, 6, 7, 8], 0x020000000001, 0⟩

/-- The machine right after reset: an unprovisioned part of `Ident.default` with an erased boot flash and every rail within tolerance
(log 1). -/
def State.reset : State := .powerOn .default .blank [] true 127 0

/-- Reasons a step can stop with a fault. No command of this block faults: the type has no constructor that a meaning raises. -/
inductive Fault where
  /-- Raised by nobody; safe. -/
  | none
  deriving DecidableEq, Repr

/-- Reasons a step can stop with a refusal. -/
inductive Refusal where
  /-- A command whose meaning is not modelled: raised by an arm of `exec` alone, safe. -/
  | notModelled (mnemonic : String)
  deriving DecidableEq, Repr

end Sys2Proof.Machine
end

