-- ==== Sys2Proof/Machine/Ops.lean ====
section
/-! DEFINITION. The named operations every family uses: register and field access, the banks, the memory windows, pips, notifications, free
values and the time bases. -/

namespace Sys2Proof.Machine

/-! Registers. -/

/-- The key of a register word in the register map: the bank for a structure register, then the package address. -/
def regKey (b t blk off : Nat) : Nat :=
  (if isStructured blk off then b + 1 else 0) * 2 ^ 40 + addrOf t blk off

/-- The word of a register in bank `b`: its reset word where the map lists nothing. -/
def State.wordB (s : State) (b t blk off : Nat) : Nat :=
  (smGet (BitVec.ofNat 32 (resetWord blk off)) (regKey b t blk off) s.regs).toNat

/-- The state with the word of a register in bank `b` set. -/
def State.setWordB (s : State) (b t blk off v : Nat) : State :=
  { s with regs := smSet (BitVec.ofNat 32 (resetWord blk off)) (regKey b t blk off) (BitVec.ofNat 32 v) s.regs }

/-- The word of a register in the bank of the newest band. -/
def State.word (s : State) (t blk off : Nat) : Nat := s.wordB s.bank t blk off

/-- The state with a register word of the newest band's bank set. -/
def State.setWord (s : State) (t blk off v : Nat) : State := s.setWordB s.bank t blk off v

/-- A field of bank `b`. -/
def State.rdB (s : State) (b t : Nat) (f : Fld) : Nat := bitsOf (s.wordB b t f.blk f.off) f.hi f.lo

/-- A field in the newest band's bank; the bank does not matter for a register that is no structure register. -/
def State.rd (s : State) (t : Nat) (f : Fld) : Nat := s.rdB s.bank t f

/-- A field as a two's complement number. -/
def State.rdS (s : State) (t : Nat) (f : Fld) : Int := sInt (f.hi + 1 - f.lo) (s.rd t f)

/-- A field of bank `b` as a two's complement number. -/
def State.rdSB (s : State) (b t : Nat) (f : Fld) : Int := sInt (f.hi + 1 - f.lo) (s.rdB b t f)

/-- A field of one bit, as a truth value. -/
def State.is (s : State) (t : Nat) (f : Fld) : Bool := s.rd t f != 0

/-- The state with a field of bank `b` set. -/
def State.wrB (s : State) (b t : Nat) (f : Fld) (v : Nat) : State :=
  s.setWordB b t f.blk f.off (withBits (s.wordB b t f.blk f.off) f.hi f.lo v)

/-- The state with a field set. -/
def State.wr (s : State) (t : Nat) (f : Fld) (v : Nat) : State := s.wrB s.bank t f v

/-- The state with a field set to a two's complement number. -/
def State.wrS (s : State) (t : Nat) (f : Fld) (v : Int) : State := s.wr t f (uNat (f.hi + 1 - f.lo) v)

/-- The bits of a field in its word. -/
def Fld.mask (f : Fld) : Nat := withBits 0 f.hi f.lo (2 ^ 32 - 1)

/-- The bits of a mask are added to those that a list gives a register key. -/
def addMask (k m : Nat) (l : List (Nat × Nat)) : List (Nat × Nat) := smUpd 0 k (fun x => x ||| m) l

/-- A flag set by hardware; a write of this cycle does not clear it (R16). -/
def State.setF (s : State) (t : Nat) (f : Fld) : State :=
  { s.wr t f (2 ^ (f.hi + 1 - f.lo) - 1) with cyc := { s.cyc with set := addMask (regKey s.bank t f.blk f.off) f.mask s.cyc.set } }

/-- Bits of a field set by hardware; a write of this cycle does not clear them (R16). -/
def State.setBits (s : State) (t : Nat) (f : Fld) (m : Nat) : State :=
  { s.wr t f (s.rd t f ||| m) with cyc := { s.cyc with set := addMask (regKey s.bank t f.blk f.off) (withBits 0 f.hi f.lo m) s.cyc.set } }

/-- A flag or a field cleared. -/
def State.clrF (s : State) (t : Nat) (f : Fld) : State := s.wr t f 0

/-- A flag set where a condition holds. -/
def State.setIf (s : State) (c : Bool) (t : Nat) (f : Fld) : State := if c then s.setF t f else s

/-- A count that holds at the field's greatest value. -/
def State.addSat (s : State) (t : Nat) (f : Fld) (n : Nat) : State :=
  s.wr t f (Nat.min (s.rd t f + n) (2 ^ (f.hi + 1 - f.lo) - 1))

/-- A count that wraps. -/
def State.addWrap (s : State) (t : Nat) (f : Fld) (n : Nat) : State := s.wr t f (s.rd t f + n)

/-- The state with the registers as they stood at the start of the present cycle (R16, R268). -/
def State.began (s : State) : State := { s with regs := s.cyc.regs }

/-- The 64-bit pair whose low word is at `f` (R13). -/
def State.rd64 (s : State) (t : Nat) (f : Fld) : Nat :=
  s.word t f.blk f.off + 2 ^ 32 * s.word t f.blk (f.off + 4)

/-- A pair of bank `b`. -/
def State.rd64B (s : State) (b t : Nat) (f : Fld) : Nat :=
  s.wordB b t f.blk f.off + 2 ^ 32 * s.wordB b t f.blk (f.off + 4)

/-- A pair set. -/
def State.wr64 (s : State) (t : Nat) (f : Fld) (v : Nat) : State :=
  (s.setWord t f.blk f.off v).setWord t f.blk (f.off + 4) (v >>> 32)

/-- A 64-bit count that wraps. -/
def State.add64 (s : State) (t : Nat) (f : Fld) (n : Nat) : State := s.wr64 t f (s.rd64 t f + n)

/-- What a count of `n` values has gained in the present cycle: a clear of the cycle leaves that (R16). -/
def gained (n now start : Nat) : Nat := (now + n - start) % n

/-- A counter cleared through its clear register: increments of the same cycle stay (R16). -/
def State.clrCount (s : State) (t : Nat) (f : Fld) : State :=
  let v := gained (2 ^ (f.hi + 1 - f.lo)) (s.rd t f) (s.began.rd t f)
  { s with cyc := { s.cyc with regs := (s.began.wr t f 0).regs } }.wr t f v

/-- A 64-bit counter cleared through its clear register (R16). -/
def State.clrCount64 (s : State) (t : Nat) (f : Fld) : State :=
  let v := gained (2 ^ 64) (s.rd64 t f) (s.began.rd64 t f)
  { s with cyc := { s.cyc with regs := (s.began.wr64 t f 0).regs } }.wr64 t f v

/-- Software has written the register in the present cycle (R16). -/
def State.softMark (s : State) (b t : Nat) (f : Fld) (m : Nat) : State :=
  { s with cyc := { s.cyc with soft := addMask (regKey b t f.blk f.off) m s.cyc.soft } }

/-- Software has written a bit of the field in the present cycle: a hardware update of it in the cycle is discarded (R16). -/
def State.softHas (s : State) (t : Nat) (f : Fld) : Bool := (smGet 0 (regKey s.bank t f.blk f.off) s.cyc.soft &&& f.mask) != 0

/-- A hardware update of an RW field: discarded where software writes the field in the same cycle (R16). -/
def State.hwWr (s : State) (t : Nat) (f : Fld) (v : Nat) : State := if s.softHas t f then s else s.wr t f v

/-- Hardware, or a write that sets a flag, has set a bit of the field in the present cycle. -/
def State.hardHas (s : State) (t : Nat) (f : Fld) : Bool := (smGet 0 (regKey s.bank t f.blk f.off) s.cyc.set &&& f.mask) != 0

/-- The present cycle is that of a band tick (R151, R268). -/
def State.inTickCycle (s : State) : Bool := s.clk.tickTb0 == some s.tim.tb0

/-- A write that a band tick of the same cycle would make late, whichever comes first (R129, R151, R171, R268, R437). -/
def State.lateWrite (s : State) (t : Nat) (f : Fld) : State :=
  if s.inTickCycle then s.setF t f else { s with cyc := { s.cyc with late := (t, f) :: s.cyc.late } }

/-- A band tick finds writes of its cycle late. -/
def State.lateFlags (s : State) : State := s.cyc.late.foldl (fun s (t, f) => s.setF t f) s

/-- A request bit that a band tick serves: it stood before the tick's cycle (R268). -/
def State.stood (s : State) (t : Nat) (f : Fld) : Bool := s.is t f && s.began.is t f

/-- A request bit is served by a band tick: a request made again in the tick's cycle stands for the next one (R268). -/
def State.serve (s : State) (t : Nat) (f : Fld) : State := if s.hardHas t f then s else s.clrF t f

/-! Commands of one cycle. -/

/-- The commands that wait in this cycle and have not been taken yet, in their order. -/
def State.waitingNow (s : State) : List Instr := s.pending.filter fun i => !s.cyc.early.contains i

/-- A command is taken ahead of its turn in the cycle. -/
def State.takeEarly (s : State) (i : Instr) : State := { s with cyc := { s.cyc with early := i :: s.cyc.early } }

/-- A command that `f` picks has been taken ahead of its turn. -/
def State.tookEarly (s : State) (f : Instr → Bool) : Bool := s.cyc.early.any f

/-- The turn of a command that has been taken ahead of it. -/
def State.dropEarly (s : State) (f : Instr → Bool) : State := { s with cyc := { s.cyc with early := s.cyc.early.eraseP f } }

/-- The header of an LCP request. -/
def lcpHdr : Instr → Option LcpHdr
  | .lcpOpen h _ | .lcpClose h _ | .lcpKeepalive h _ | .lcpRead h _ | .lcpWrite h _ | .lcpModify h _ | .lcpReadList h _ | .imageOpen h _
  | .imageData h _ | .imageAbort h _ | .lcpNotifyAck h _ | .lcpSubscribe h _ | .lcpEnumerate h _ | .lcpIdentify h _ | .lcpReset h _
  | .lcpRef h _ => some h
  | _ => none

/-- A request that waits in this cycle meets a condition. -/
def State.lcpAhead (s : State) (f : LcpHdr → Bool) : Bool := s.pending.any fun i => (lcpHdr i).any f

/-! Access errors (R36, R43). -/

/-- SYS_ERR_ADDR.SESSION of an origin. -/
def originSession (o : Origin) : Nat :=
  match o with
  | .session n => n
  | _ => 0

/-- A failing register or window access is recorded at the tile its address names, or at tile 0 (R36). -/
def State.recordErr (s : State) (o : Origin) (a : Nat) (write access : Bool) : State :=
  let t := if s.id.fitted (addrTile a) then addrTile a else 0
  let s := if s.is t SYS_ERR_ADDR_ERR || s.is t SYS_ERR_ACCESS_ERR then s
    else (s.wr t SYS_ERR_ADDR_LO a).wr t SYS_ERR_ADDR_HI (a / 2 ^ 32 % 256 + 256 * originSession o + 2048 * bitN write + 4096 * bitN access)
  s.setF t (if access then SYS_ERR_ACCESS_ERR else SYS_ERR_ADDR_ERR)

/-- An access error at register `f` of tile `t`. -/
def State.refuse (s : State) (o : Origin) (t : Nat) (f : Fld) (write : Bool) : State := s.recordErr o (addrOf t f.blk f.off) write true

/-! Banks (R264, R267). -/

/-- The bank of band `n`: while a bank is RETIRING after a swap at band tick m, bands before m keep it. -/
def State.bankOf (s : State) (n : Nat) : Nat :=
  match s.retiring with
  | some m => if n < m then 1 - s.bank else s.bank
  | none => s.bank

/-- A field as the structure of band `n` has it. -/
def State.rdN (s : State) (n t : Nat) (f : Fld) : Nat := s.rdB (s.bankOf n) t f

/-- A signed field as the structure of band `n` has it. -/
def State.rdSN (s : State) (n t : Nat) (f : Fld) : Int := s.rdSB (s.bankOf n) t f

/-- What the structure of bank `b` gives. -/
def State.inBank (s : State) (b : Nat) (f : State → α) : α := f { s with bank := b, retiring := none }

/-- The bank that is not the newest band's: SHADOW, or the RETIRING bank (R264). -/
def State.shadow (s : State) : Nat := 1 - s.bank

/-! Tiles. -/

/-- The tile is fitted. -/
def State.fit (s : State) (t : Nat) : Bool := s.id.fitted t

/-- The fitted tiles. -/
def State.tiles (s : State) : List Nat := List.range s.id.variant.tiles

/-- A change of the state for each fitted tile in turn. -/
def State.eachTile (s : State) (f : Nat → State → State) : State := s.tiles.foldl (fun s t => f t s) s

/-! Memory windows (R37). -/

/-- The canonical form of the memory windows: addresses strictly rising, and no entry that holds what an unlisted address reads as (0). -/
def Memory.wf (m : List Host.Cell) : Bool := smOk (fun _ => 0) m

/-- A byte of a memory window, 0 where none has been written (DESIGN CHOICE, log 3). -/
def State.byte (s : State) (a : Nat) : Byte := smGet 0 a s.mem

/-- The state with a byte of a memory window set. -/
def State.setByte (s : State) (a : Nat) (v : Byte) : State := { s with mem := smSet 0 a v s.mem }

/-- `n` bytes from an address on. -/
def State.bytes (s : State) (a n : Nat) : Bytes := (List.range n).map fun i => s.byte (a + i)

/-- The state with bytes set from an address on. -/
def State.setBytes (s : State) (a : Nat) (bs : Bytes) : State :=
  match bs with
  | [] => s
  | b :: bs => (s.setByte a b).setBytes (a + 1) bs

/-- The little-endian number of `n` bytes at an address. -/
def State.memLE (s : State) (a n : Nat) : Nat := leNat (s.bytes a n)

/-- A byte address in pipeline memory of tile `t` (R37). -/
def pipeAddr (t off : Nat) : Nat := addrOf t 0x50 off

/-! Time. -/

/-- TB1 in ns, as a read of it returns (R311). -/
def State.tb1 (s : State) : Nat := s.tim.tb1 / 2 ^ 32 % 2 ^ 64

/-- Time base `k` in ns. -/
def State.base (s : State) (k : Nat) : Nat :=
  match k with
  | 0 => s.tim.tb0
  | 1 => s.tb1
  | 2 => s.tim.tb2 / 2 ^ 32 % 2 ^ 64
  | _ => s.tim.tb3 / 2 ^ 32 % 2 ^ 64

/-! Free values. -/

/-- A fresh value that nothing constrains, and the state that has used it. -/
def State.fresh (s : State) : Nat × State := (Config.free s.freeCtr, { s with freeCtr := s.freeCtr + 1 })

/-! Pips (R360, R361). -/

/-- A source pip of the present EVTC cycle; several pips of one source in a cycle make one. -/
def State.pip (s : State) (t src : Nat) : State :=
  if s.fit t && !s.fab.pips.contains (t, src) then { s with fab := { s.fab with pips := s.fab.pips ++ [(t, src)] } } else s

/-- A source pip on every fitted tile. -/
def State.pipAll (s : State) (src : Nat) : State := s.eachTile fun t s => s.pip t src

/-! Notifications (R344). -/

/-- The 32-byte payload of a notification. -/
def noticeBytes (code count tb1 a0 a1 a2 a3 : Nat) : Bytes :=
  leBytes 2 code ++ leBytes 2 count ++ zeros 4 ++ leBytes 8 tb1 ++ leBytes 4 a0 ++ leBytes 4 a1 ++ leBytes 4 a2 ++ leBytes 4 a3

/-- A notification is queued; one that finds 64 waiting is lost and counted (R344). -/
def State.notify (s : State) (code a0 a1 a2 a3 : Nat) : State :=
  if s.net.notices.length < 64 then
    let c := s.net.noticeCount + 1
    { s with net := { s.net with notices := s.net.notices ++ [⟨noticeBytes code c s.tb1 a0 a1 a2 a3⟩], noticeCount := c } }
  else
    { s.addSat 0 CHN_NOTIFY_LOST 1 with net := { s.net with noticeLost := s.net.noticeLost + 1 } }

/-! The blind ledger's input (R62). -/

/-- A blind token leaves its origin for the ledger on tile 0. -/
def State.blind (s : State) (k : Token) : State := { s with led := { s.led with inFlight := s.led.inFlight ++ [k] } }

/-! Queues (R387 to R391). -/

/-- The items of queue `q` of tile `t`, oldest first. -/
def State.qItems (s : State) (t q : Nat) : List QItem := smGet [] (t * 256 + q) s.que.items

/-- The cells of an item (R387). -/
def QItem.cells (i : QItem) : Nat := ceilDiv i.words.length 16

/-- The state with the items of a queue set, DEPTH and CELLS following. -/
def State.setItems (s : State) (t q : Nat) (l : List QItem) : State :=
  let s := { s with que := { s.que with items := smSet [] (t * 256 + q) l s.que.items } }
  (s.wr t (QUE_Q_STATUS_DEPTH q) l.length).wr t (QUE_Q_CELLS q) (sumN (l.map QItem.cells))

/-- The queue is named by an enabled record sender (R392). -/
def State.qOwned (s : State) (t q : Nat) : Bool :=
  (List.range 8).any fun r => s.is 0 (OUT_REC_CTRL_EN r) && s.rd 0 (OUT_REC_CTRL_TILE r) == t && s.rd 0 (OUT_REC_CTRL_QUEUE r) == q

/-- The producers whose items have come to a queue in this cycle, in their order in it. -/
def State.qCame (s : State) (t q : Nat) : List Nat := smGet [] (t * 256 + q) s.cyc.came

/-- The items of a queue that came in earlier cycles: a pop sees no others (R394). -/
def State.qOld (s : State) (t q : Nat) : List QItem := (s.qItems t q).take ((s.qItems t q).length - (s.qCame t q).length)

/-- The queues of tile `t` of which a pop waits in this cycle, one entry a pop (R390, R392). -/
def State.popsAhead (s : State) (t : Nat) : List Nat :=
  s.waitingNow.filterMap fun i =>
    match i with
    | .pop u v => if u.val = t ∧ v.toNat.testBit 8 ∧ !s.qOwned t (v.toNat % 256) then some (v.toNat % 256) else none
    | .recordPop r => if s.is 0 (OUT_REC_CTRL_EN r) ∧ s.rd 0 (OUT_REC_CTRL_TILE r) = t then some (s.rd 0 (OUT_REC_CTRL_QUEUE r)) else none
    | _ => none

/-- The items that pops of this cycle have still to take out of a queue. -/
def State.qLeaving (s : State) (t q : Nat) : List QItem := (s.qOld t q).take ((s.popsAhead t).count q)

/-- The cells that pops of this cycle have still to free in a tile's pool (R390, R398). -/
def State.poolLeaving (s : State) (t : Nat) : Nat := sumN ((s.popsAhead t).eraseDups.map fun q => sumN ((s.qLeaving t q).map QItem.cells))

/-- The queue is flushed in this cycle, before or behind the present command (R398). -/
def State.qFlushed (s : State) (t q : Nat) : Bool :=
  s.cyc.flushed.contains (t * 256 + q) || s.waitingNow.any fun i =>
    match i with
    | .queueFlush u k => u.val == t && k.val == q
    | _ => false

/-- The level interrupt: over the cycle DEPTH goes up from below LEVEL to LEVEL (R391, R394, R406). -/
def State.levelCheck (s : State) (t q after : Nat) : State :=
  let l := s.began.rd t (QUE_Q_CFG_LEVEL q)
  if l ≠ 0 ∧ s.began.rd t (QUE_Q_STATUS_DEPTH q) < l ∧ after = l then
    (s.setBits t (QUE_LVL_STATUS (q / 32)) (2 ^ (q % 32))).pip t 218
  else s

/-- Free cells go down by `n`, which may be cells that pops of the cycle have still to free; MIN_FREE follows (R390, R407). -/
def State.takeCells (s : State) (t n : Nat) : State :=
  let f := s.rd t QUE_POOL_FREE
  (s.wr t QUE_POOL_FREE (f + 65536 - n)).wr t QUE_POOL_MIN_FREE (Nat.min (f + s.poolLeaving t - n) (s.rd t QUE_POOL_MIN_FREE))

/-- Free cells go up by `n`. -/
def State.giveCells (s : State) (t n : Nat) : State := s.wr t QUE_POOL_FREE (s.rd t QUE_POOL_FREE + n)

/-- The item of producer `p` enters a queue behind those of earlier cycles and of producers up to `p` in this one (R389). -/
def State.putItem (s : State) (t q p : Nat) (i : QItem) : State :=
  let c := s.qCame t q
  let k := (c.takeWhile fun x => decide (x ≤ p)).length
  let l := s.qItems t q
  let n := l.length - c.length + k
  let s := s.setItems t q (l.take n ++ i :: l.drop n)
  { s with cyc := { s.cyc with came := smSet [] (t * 256 + q) (c.take k ++ p :: c.drop k) s.cyc.came } }

/-- A commit of producer `p`'s item to a queue (R389, R390): refused beyond QUOTA or beyond the free cells of the pool, the pops of the cycle counted;
an item that meets a flush of its cycle goes with it (R398). The answer says whether the item was taken. -/
def State.commit (s : State) (t q p : Nat) (i : QItem) : Bool × State :=
  let cells := sumN ((s.qItems t q).map QItem.cells)
  let leaving := s.qLeaving t q
  if s.qFlushed t q then (true, s.addWrap t (QUE_Q_PUSHED q) 1)
  else if s.began.rd t (QUE_Q_CFG_QUOTA q) < cells - sumN (leaving.map QItem.cells) + i.cells then
    (false, (s.addSat t (QUE_Q_REFUSED q) 1).setF t QUE_ERR_REFUSED)
  else if s.rd t QUE_POOL_FREE + s.poolLeaving t < i.cells then
    (false, (s.addSat t (QUE_Q_REFUSED q) 1).setF t QUE_ERR_POOL_EMPTY)
  else
    let n := (s.qItems t q).length + 1 - leaving.length
    (true, (((s.takeCells t i.cells).putItem t q p i).addWrap t (QUE_Q_PUSHED q) 1).levelCheck t q n)

/-- An item of bytes, whole words (R387). -/
def itemOf (bs : Bytes) (rel : Option (Nat × Nat)) : QItem := ⟨wordsOf (ceilDiv bs.length 4) bs, rel⟩

/-- The oldest item leaves a queue whole and its cells are freed; none where no item of an earlier cycle stands in it or it is flushed in this cycle
(R392, R394, R398). -/
def State.popItem (s : State) (t q : Nat) : Option (QItem × State) :=
  if (s.qOld t q).isEmpty || s.qFlushed t q then none
  else
    match s.qItems t q with
    | [] => none
    | i :: l => some (i, (s.setItems t q l).giveCells t i.cells)

/-! The answer of a meaning. -/

/-- What a step answers. -/
abbrev Answer := Host.Outcome State Fault Refusal

/-- The logic runs: BOOT and the phases after it (R464, R466), outside internal scan (R451, log 70). -/
def State.live (s : State) : Bool := (s.pwr.phase == .boot || s.pwr.phase == .run) && !s.lcs.scan

/-- A state that a meaning which began in `s` has computed, as it stands after the command: the fused identity is hard-wired and the queue
belongs to `step`, so both are those of `s`. -/
def State.after (s s' : State) : State := { s' with id := s.id, pending := s.pending }

/-- The next state of a meaning that acts in every phase. -/
def always (s s' : State) : Answer := .next (s.after s')

/-- The next state of a meaning that began in `s` and computed `s'`. While the part is unpowered or in reset its logic does nothing
(R464 to R467). -/
def finish (s s' : State) : Answer := always s (if s.live then s' else s)

/-- A command at a tile: on a tile that is not fitted there is no such event (log 5). -/
def onTile (s : State) (t : Nat) (f : State → State) : Answer := finish s (if s.fit t then f s else s)

/-- An event that exists only under a condition: where it does not hold nothing happens (log 5). -/
def whenEv (s : State) (c : Bool) (f : State → State) : Answer := finish s (if c then f s else s)

/-- The state that a meaning answers with, or the one it began in. -/
def Answer.orElse (a : Answer) (s : State) : State :=
  match a with
  | .next t => t
  | _ => s

end Sys2Proof.Machine
end

