-- ==== Sys2Proof/Machine/Ready.lean ====
section
/-! DEFINITION. The conditions of SYS_STATUS and of READY (R33, R42, R43, R468) and the interrupt pin (R469). -/

namespace Sys2Proof.Machine

/-- The bit of CLK_LOCK of a PLL, or of REFC (R44). -/
def pllBit : Pll → Nat
  | .core => 0
  | .sys => 1
  | .d2d => 2
  | .eth => 3
  | .aux => 4
  | .refc => 5

/-- The PLL exists: the ETH PLL of tiles 2 to 7 is fused off (R42). -/
def State.pllFit (s : State) (t : Nat) (p : Pll) : Bool := s.fit t && (p != .eth || decide (t < 2))

/-- The PLL is locked: a clock derived from it runs (R42). -/
def State.locked (s : State) (t : Nat) (p : Pll) : Bool := (s.rd t CLK_LOCK).testBit (pllBit p)

/-- Every PLL that is not fused off is locked on every fitted tile (R42, R43). -/
def State.clkOk (s : State) : Bool :=
  s.tiles.all fun t => s.is t CLK_LOCK_CORE && s.is t CLK_LOCK_SYS && s.is t CLK_LOCK_D2D && s.is t CLK_LOCK_AUX && (s.is t CLK_LOCK_ETH || decide (2 ≤ t))

/-- The bonded links of the part, as tile and link. -/
def State.bondedLinks (s : State) : List (Nat × Nat) :=
  s.tiles.flatMap fun t => ([0, 1, 2].filter (s.id.bonded t)).map fun n => (t, n)

/-- Every bonded Cerette link is UP (R43). -/
def State.d2dOk (s : State) : Bool := s.bondedLinks.all fun (t, n) => s.is t (D2D_L_STATUS_UP n)

/-- What link `n` of a tile keeps beside its registers. -/
def State.link (s : State) (t n : Nat) : LinkState := smGet LinkState.idle (t * 4 + n) s.links

/-- The state with a link changed. -/
def State.updLink (s : State) (t n : Nat) (f : LinkState → LinkState) : State :=
  { s with links := smUpd LinkState.idle (t * 4 + n) f s.links }

/-- A command at a tile whose logic runs from a PLL of the tile: without lock there is no such event (R42; log 5). -/
def onClock (s : State) (t : Nat) (p : Pll) (f : State → State) : Answer := finish s (if s.fit t && s.locked t p then f s else s)

/-- An event of the logic of tile 0 that runs from its AUX PLL: position interface, time stamps, management core, security (R41, R42). -/
def onAux (s : State) (f : State → State) : Answer := finish s (if s.locked 0 .aux then f s else s)

/-! The way of a packet (R28, R30, R32). -/

/-- A link carries traffic from tile `t`: it is UP, and the D2D PLLs of both its ends are locked (R42, R45). -/
def State.linkOn (s : State) (t n : Nat) : Bool :=
  s.is t (D2D_L_STATUS_UP n) && s.locked t .d2d && (match s.id.neighbour t n with
    | some u => s.locked u .d2d
    | none => false)

/-- The links that `k` packets sent now from tile `a` to tile `b` cross (R30): on the LYN820 they take the two links of the pair in turn
(R28). -/
def State.packetLinks (s : State) (a b k : Nat) : List (Nat × Nat) :=
  if s.id.variant = .lyn820 then
    if a = b ∨ k = 0 then [] else if k = 1 then [(a, (s.link a 0).send)] else [(a, 0), (a, 1)]
  else s.id.path 8 a b

/-- `k` packets sent now from tile `a` to tile `b` come over at once: every link they cross carries traffic, and on the LYN820 none before
them is held on the other link of the pair (R28, R32). -/
def State.open_ (s : State) (a b k : Nat) : Bool :=
  (s.packetLinks a b k).all (fun (t, n) => s.linkOn t n) && (s.id.variant != .lyn820 || a == b || ([0, 1].all fun n => (s.link a n).held.isEmpty))

/-- A packet has come over from tile `a` to tile `b`: the next one of the pair takes the other link (R28). -/
def State.crossed (s : State) (a b : Nat) : State :=
  if s.id.variant = .lyn820 ∧ a ≠ b then
    (s.updLink a 0 fun x => { x with send := 1 - x.send }).updLink b 0 fun x => { x with recv := 1 - x.recv }
  else s

/-- A bonded Cerette link is FAILED, or retrains after it was and is not yet up (R33). -/
def State.d2dFailed (s : State) : Bool := s.bondedLinks.any fun (t, n) => (s.link t n).lost

/-- The part is inspecting: RUN is 1 and WAITING is 0 (R427, R468). -/
def State.inspecting (s : State) : Bool := s.is 0 BND_CTRL_RUN && !s.is 0 BND_STATUS_WAITING

/-- The conditions of PWR_READY bits 8 to 13 (R468). -/
def State.readyConds (s : State) : List Bool :=
  [s.is 0 SYS_STATUS_BOOT_DONE && s.is 0 SYS_STATUS_TILES_UP, s.clkOk, !s.d2dFailed, s.rd 0 LCS_STATE_STATE != 3,
   s.rd 0 CFG_ACTIVE_JOB != 0, s.inspecting]

/-- PWR_READY as it reads (R468). -/
def State.pwrReady (s : State) : Nat :=
  bitN (s.is 0 PWR_READY_EN) + 2 * bitN (s.is 0 SYS_STATUS_READY) +
    (s.readyConds.zipIdx.foldl (fun a (c, i) => a + bitN c * 2 ^ (8 + i)) 0)

/-- READY follows its conditions (R468). -/
def State.readyUpdate (s : State) : State := s.wr 0 SYS_STATUS_READY (bitN (s.readyConds.all (· == true) && s.is 0 PWR_READY_EN))

/-- A cycle has changed READY: code 0x0062 notifies what it has come to (R488, R489). -/
def State.readyNotice (s : State) : State :=
  if s.began.is 0 SYS_STATUS_READY == s.is 0 SYS_STATUS_READY then s else s.notify 0x0062 (s.rd 0 SYS_STATUS_READY) s.pwrReady 0 0

/-- PWR_INT_STATUS of a tile as it reads: the DMA, QUE and CHK bits follow their blocks (R383, R391, R404, R469). -/
def State.intStatus (s : State) (t : Nat) : Nat :=
  let dma := s.id.variant != .lyn880 && (s.rd t DMA_INT_STATUS &&& s.rd t DMA_INT_EN) != 0
  let que := (List.range 8).any fun w => (s.rd t (QUE_LVL_STATUS w) &&& s.rd t (QUE_INT_EN w)) != 0
  let chk := (s.rd t CHK_INT_STATUS_LO &&& s.rd t CHK_INT_EN_LO) != 0 || (s.rd t CHK_INT_STATUS_HI &&& s.rd t CHK_INT_EN_HI) != 0
  bitN dma + 2 * bitN que + 4 * bitN chk + 8 * s.rd t PWR_INT_STATUS_THERMAL + 16 * s.rd t PWR_INT_STATUS_SUPPLY

/-- The tiles that assert INT_N (R469). -/
def State.intTiles (s : State) : List Nat := s.tiles.filter fun t => (s.intStatus t &&& s.rd t PWR_INT_EN) != 0

/-- INT_N is pulled low (R469). -/
def State.intLow (s : State) : Bool := !s.intTiles.isEmpty

end Sys2Proof.Machine
end

