-- ==== Sys2Proof/Machine/Geometry.lean ====
section
/-! DEFINITION. Bands, groups and the web: cross-web edges (R155), group WEB_POS (R156), sub-streams of a group (R154), the label grid
(R222), deadline depths (R57) and releases (R60, R267). -/

namespace Sys2Proof.Machine

/-! Bands. -/

/-- The record of band `n`, if the band clock still keeps it. -/
def State.band (s : State) (n : Nat) : Option Band := s.clk.bands.find? (·.n == n)

/-- The newest band. -/
def State.newest (s : State) : Option Band := s.clk.bands.head?

/-- The band open now. -/
def State.openBand (s : State) : Option Band := s.clk.bands.head?.filter (!·.closed)

/-- The state with the record of band `n` changed. -/
def State.updBand (s : State) (n : Nat) (f : Band → Band) : State :=
  { s with clk := { s.clk with bands := s.clk.bands.map fun b => if b.n == n then f b else b } }

/-- The index of the most recent band tick (R53). -/
def State.bandIndex (s : State) : Nat := s.rd64 0 BND_INDEX_LO % 2 ^ 48

/-- B by its code (R52). -/
def bandLines (code : Nat) : Nat :=
  match code with
  | 0 => 16
  | 1 => 32
  | 2 => 64
  | 3 => 128
  | _ => 256

/-- Depth of deadline class `k` in bank `b` (R57, R72). -/
def State.depth (s : State) (b k : Nat) : Nat := bitsOf (s.wordB b 0 BND_DEPTH.blk BND_DEPTH.off) (4 * k + 3) (4 * k)

/-- The depths obey R57. -/
def depthsOk (w : Nat) : Bool :=
  let d (k : Nat) := bitsOf w (4 * k + 3) (4 * k)
  d 0 == 2 && [1, 2, 3, 4, 5, 6, 7].all (fun k => decide (2 ≤ d k)) &&
    decide (d 2 ≤ d 3) && decide (d 3 < d 4) && decide (d 4 ≤ d 5) && decide (d 5 < d 6)

/-- The band tick at which band `n` is released (R60, R267). -/
def State.releaseTick (s : State) (n : Nat) : Nat :=
  match s.retiring with
  | some m =>
    if n < m then n + s.depth (1 - s.bank) 6 + 1
    else Nat.max (n + s.depth s.bank 6 + 1) (m + s.depth (1 - s.bank) 6)
  | none => n + s.depth s.bank 6 + 1

/-! Groups. -/

/-- STI_GRPg_XOFS, which reads 0 for group 0 (R155). -/
def State.xofs (s : State) (b g : Nat) : Int := if g = 0 then 0 else s.rdSB b 0 (STI_GRP_XOFS g)

/-- `edge(x)` of R155, in whole µm. -/
def State.edge (s : State) (b g : Nat) (x : Nat) : Int :=
  satS 32 (roundShr (s.xofs b g * 2 ^ 16 + (x * s.rdB b 0 (STI_GRP_PITCH g) : Nat)) 16)

/-- `centre(x)` of R155, in whole µm. -/
def State.centre (s : State) (b g : Nat) (x : Nat) : Int :=
  satS 32 (roundShr (s.xofs b g * 2 ^ 17 + ((2 * x + 1) * s.rdB b 0 (STI_GRP_PITCH g) : Nat)) 17)

/-- The group exists in the job of bank `b` (R154). -/
def State.grpOn (s : State) (b g : Nat) : Bool := s.rdB b 0 (STI_GRP_CFG_EN g) != 0

/-- The enabled groups of bank `b`. -/
def State.groups (s : State) (b : Nat) : List Nat := (List.range 8).filter (s.grpOn b)

/-- WEB_OFS of a group (R156). -/
def State.webOfs (s : State) (b g : Nat) : Int := s.rdSB b 0 (STI_GRP_WEB_OFS g)

/-- The sub-streams of tile `t` mapped into group `g`, as a package-wide mask (R154, R19). -/
def State.tileMask (s : State) (b t g : Nat) : Nat :=
  ofOnes (((List.range 8).filter fun u => s.rdB b t (STI_SUB_CFG_EN u) != 0 && s.rdB b t (STI_SUB_CFG_GROUP u) == g).map (t * 8 + ·))

/-- The sub-streams mapped into group `g` (R154). -/
def State.grpMask (s : State) (b g : Nat) : Nat := s.tiles.foldl (fun m t => m ||| s.tileMask b t g) 0

/-- The group that a package-wide sub-stream feeds (R154). -/
def State.subGroup (s : State) (b sub : Nat) : Option Nat :=
  let t := sub / 8
  let u := sub % 8
  if s.rdB b t (STI_SUB_CFG_EN u) != 0 then some (s.rdB b t (STI_SUB_CFG_GROUP u)) else none

/-- The cross-web extent of a group (R155). -/
def State.grpExtent (s : State) (b g : Nat) : Int × Int := (s.edge b g 0, s.edge b g (s.rdB b 0 (STI_GRP_WIDTH g)))

/-- The cross-web extent of tile `t`'s segment of a group (R157). -/
def State.segExtent (s : State) (b t g : Nat) : Int × Int :=
  let x0 := s.rdB b t (STI_GRP_SEG_X0 g)
  (s.edge b g x0, s.edge b g (x0 + s.rdB b t (STI_GRP_SEG_W g)))

/-- The tile computes columns of the group (R157). -/
def State.hasSeg (s : State) (b t g : Nat) : Bool := s.grpOn b g && s.rdB b t (STI_GRP_SEG_W g) != 0

/-! Web positions of lines (R50, R156). -/

/-- Where line `i` of a band ends: the next line's WEB_POS, or one BND_LINE_PITCH on where none is known (R50). -/
def State.lineEnd (s : State) (b : Band) (i : Nat) : Int :=
  match b.pos[i + 1]? with
  | some w => w
  | none => b.fin.getD (b.pos.getLastD 0 + roundShr (s.rd 0 BND_LINE_PITCH : Nat) 16)

/-- The WEB_POS at which a band with lines starts. -/
def Band.start (b : Band) : Int := b.pos.headD 0

/-- Every column of the band is blind: it carries SPEED or CRC (R51, R33). -/
def Band.allBlind (b : Band) : Bool := b.speed || b.crc

/-- The WEB_POS at which a band ends. -/
def State.bandEnd (s : State) (b : Band) : Int := s.lineEnd b (b.pos.length - 1)

/-- The absolute number of line `i` of a band. -/
def Band.lineNo (b : Band) (i : Nat) : Nat := b.line0 + i

/-- The band that holds an absolute line number, with the line's place in it. -/
def State.lineBand (s : State) (l : Nat) : Option (Band × Nat) :=
  (s.clk.bands.find? fun b => decide (b.line0 ≤ l) && decide (l < b.line0 + b.pos.length)).map fun b => (b, l - b.line0)

/-! The label grid (R222, R284). -/

/-- The grid state of a bank. -/
def State.grid (s : State) (b : Nat) : Grid := smGet Grid.idle b s.grids

/-- The state with the grid state of a bank set. -/
def State.setGrid (s : State) (b : Nat) (g : Grid) : State := { s with grids := smSet Grid.idle b g s.grids }

/-- REPEAT_LEN of a bank. -/
def State.repLen (s : State) (b : Nat) : Int := Nat.max 1 (s.rdB b 0 COL_GRID_LEN)

/-- ORIGIN of a bank as it counts in the WEB_POS frame of RUN (R284). -/
def State.gridOrigin (s : State) (b : Nat) : Int := s.rdSB b 0 COL_GRID_ORIGIN + (s.grid b).ofs

/-- The MODE 0 boundary with count 0: the first at or after the reference point (R222, R284). -/
def State.gridZero (s : State) (b : Nat) : Int :=
  let o := s.gridOrigin b
  let l := s.repLen b
  o + -((o - (s.grid b).ref) / l) * l

/-- The MODE 0 boundary at or before `p`: its count and position, passing over the one that an index has replaced. -/
def State.gridMode0 (s : State) (b : Nat) (replaced : Option Int) (p : Int) : Int × Int :=
  let z := s.gridZero b
  let k := (p - z) / s.repLen b
  let k' := if replaced = some k then k - 1 else k
  (k', z + k' * s.repLen b)

/-- The band tick that sends a boundary made now to every tile (R222). -/
def State.nextTick (s : State) : Nat := if s.clk.ticked then s.bandIndex + 1 else 0

/-- The last band tick whose boundaries the lines of band `n` are assigned by: the one that closes the band, or the newest while it is open. The
spec does not say when a line is assigned (DESIGN CHOICE, log 218). -/
def State.gridView (s : State) (n : Nat) : Nat := Nat.min (n + 1) s.bandIndex

/-- The boundaries that band tick `v` and those before it have sent, the furthest first. -/
def State.boundsAt (s : State) (b v : Nat) : List Bound :=
  (s.grid b).bounds.filter fun x => decide (x.from_ ≤ v) && x.until_.all fun u => decide (v < u)

/-- The repeat of a position by the boundaries that band tick `v` has sent (R222): its count, its boundary, and whether it carries GRID_SYNTH. -/
def State.gridAt (s : State) (b v : Nat) (p : Int) : Int × Int × Bool :=
  if s.rdB b 0 COL_GRID_CTRL_MODE = 0 then
    let (k, z) := s.gridMode0 b none p
    (k, z, false)
  else
    let l := s.boundsAt b v
    match l.zipIdx.find? fun (x, _) => decide (x.pos ≤ p) with
    | some (x, i) =>
      let j := if i = 0 then (p - x.pos) / s.repLen b else 0
      (x.k + j, x.pos + j * s.repLen b, !x.index || j != 0)
    | none =>
      let (k, z) := s.gridMode0 b (if l.isEmpty then none else (s.grid b).replaced) p
      (k, z, true)

/-- REPEAT of a position: the count added to COL_GRID_REPEAT_BASE, modulo 2³² (R222). -/
def State.repeatOf (s : State) (b : Nat) (k : Int) : Nat := uNat 32 (s.rdB b 0 COL_GRID_REPEAT_BASE + k)

/-- The furthest a boundary may follow another without one synthesised between them: REPEAT_LEN × (1 + TOL), in 2⁻¹⁶ µm (R222). -/
def State.repMax (s : State) (b : Nat) : Int := s.repLen b * (2 ^ 16 + (s.rdB b 0 COL_GRID_TOL : Int))

/-- The first boundary of an index: it takes the count of the nearest MODE 0 boundary, the later on a tie, and replaces it where the web has
not passed it (R222). -/
def State.gridFirst (s : State) (b : Nat) (x : Int) : State :=
  let g := s.grid b
  let l := s.repLen b
  let z := s.gridZero b
  let k := (2 * (x - z) + l) / (2 * l)
  let m := z + k * l
  let ahead := s.clk.lastWeb.all fun w => decide (w < m)
  s.setGrid b { g with bounds := [⟨x, k, true, s.nextTick, none, false, s.tim.tb0⟩], replaced := if ahead && decide (m ≤ x) then some k else none }

/-- A synthesised boundary made in this cycle is taken back: an index of the same cycle wins (R233). -/
def State.gridUnsynth (s : State) (b : Nat) : State :=
  let g := s.grid b
  match g.bounds with
  | x :: y :: l =>
    if !x.index && x.tb0 == s.tim.tb0 then
      (s.setGrid b { g with bounds := y :: l }).wr 0 COL_GRID_SYNTH (s.rd 0 COL_GRID_SYNTH - 1)
    else s
  | _ => s

/-- An index edge gives the grid of bank `b` a boundary (R222, R233). -/
def State.gridIndex (s : State) (b : Nat) (zweb : Int) : State :=
  let s := s.gridUnsynth b
  let g := s.grid b
  let x := zweb + s.gridOrigin b
  match g.bounds with
  | [] => s.gridFirst b x
  | q :: _ =>
    let d := (x - q.pos) * 2 ^ 16
    if d < s.repLen b * (2 ^ 16 - (s.rdB b 0 COL_GRID_TOL : Int)) then s.addSat 0 COL_GRID_IGNORED 1
    else s.setGrid b { g with bounds := ⟨x, q.k + 1, true, s.nextTick, none, decide (s.repMax b < d), s.tim.tb0⟩ :: g.bounds }

/-- A boundary synthesised one REPEAT_LEN after `q`. -/
def State.synthBound (s : State) (b : Nat) (q : Bound) : Bound := ⟨q.pos + s.repLen b, q.k + 1, false, s.nextTick, none, false, s.tim.tb0⟩

/-- A boundary that counts one on from band tick `v` on. -/
def countOn (v : Nat) (x : Bound) (gap : Bool) : List Bound :=
  [{ x with k := x.k + 1, from_ := v, gap := gap }, { x with until_ := some v, gap := false }]

/-- Boundaries of bank `b` take another form with one synthesised among them (R222). -/
def State.gridPut (s : State) (b : Nat) (l : List Bound) : State := (s.setGrid b { s.grid b with bounds := l }).addSat 0 COL_GRID_SYNTH 1

/-- The tolerance after the previous boundary has been passed at an accepted line tick at `w` without an index in it: a boundary is synthesised,
ahead of an index that came beyond the tolerance, but not in that index's own cycle (R222, R233). -/
def State.gridSynth (s : State) (b : Nat) (w : Int) : State :=
  let g := s.grid b
  let past (q : Bound) := decide (s.repMax b < (w - q.pos + s.gridOrigin b) * 2 ^ 16)
  if s.rdB b 0 COL_GRID_CTRL_MODE ≠ 1 then s else
  match g.bounds.filter (·.until_.isNone) with
  | [] => s
  | x :: l =>
    if !x.gap then if past x then s.gridPut b (s.synthBound b x :: g.bounds) else s
    else if x.tb0 = s.tim.tb0 then s.setGrid b { g with bounds := g.bounds.map fun y => { y with gap := false } }
    else
      match l with
      | [] => s
      | q :: _ =>
        let n := s.synthBound b q
        if past q then
          s.gridPut b (g.bounds.flatMap fun y => if y = x then countOn s.nextTick x (decide (s.repMax b < (x.pos - n.pos) * 2 ^ 16)) ++ [n] else [y])
        else s

/-! Blind tokens in force. -/

/-- Tokens that name a band and a group, taken in or on their way. -/
def State.tokensOf (s : State) (n g : Nat) : List Token :=
  (s.led.tokens ++ s.led.inFlight).filter fun k => k.band == n && k.group == g

/-- The sub-streams of a group that tokens make blind over a whole band (R59). -/
def State.coveredMask (s : State) (n g : Nat) : Nat :=
  let len := ((s.band n).map (·.pos.length)).getD 0
  (s.tokensOf n g).foldl (fun m k => if k.l0 = 0 ∧ len ≤ k.l1 then m ||| k.mask else m) 0

/-- Token line bound: the whole band. -/
def wholeBand : Nat := 256

/-- A full-width token of a group for a whole band. -/
def State.fullToken (s : State) (reason stage n g : Nat) : Token :=
  let b := s.bankOf n
  let (x0, x1) := s.grpExtent b g
  ⟨reason, stage, n, g, s.grpMask b g, x0, x1, 0, wholeBand⟩

/-- A tile's part of a group for a whole band. -/
def State.tileToken (s : State) (reason stage n t g : Nat) : Token :=
  let b := s.bankOf n
  let (x0, x1) := s.segExtent b t g
  ⟨reason, stage, n, g, s.tileMask b t g, x0, x1, 0, wholeBand⟩

/-- What is left of cross-web extents outside another. -/
def cutOut (l : List (Int × Int)) (a : Int × Int) : List (Int × Int) :=
  l.flatMap fun (p, q) =>
    if a.2 ≤ p ∨ q ≤ a.1 then [(p, q)] else (if p < a.1 then [(p, a.1)] else []) ++ (if a.2 < q then [(a.2, q)] else [])

/-- Extents line by line, from line `i` on, as tokens: lines alike and next to each other make one. -/
def lineTokens (k : Token) : Nat → List (List (Int × Int)) → List Token
  | _, [] => []
  | i, l :: ls =>
    let rest := lineTokens k (i + 1) ls
    l.foldr (fun (p, q) r =>
      match r.find? fun x => x.l0 == i + 1 && x.x0 == p && x.x1 == q with
      | some x => { x with l0 := i } :: r.filter (· != x)
      | none => { k with x0 := p, x1 := q, l0 := i, l1 := i + 1 } :: r) rest

/-- The part of a token's span that no token covers yet (R59). -/
def State.openSpans (s : State) (k : Token) : List Token :=
  match s.band k.band with
  | none => [k]
  | some b =>
    if b.speed || b.crc then []
    else
      let ts := s.tokensOf k.band k.group
      let end_ := Nat.min k.l1 b.pos.length
      let at_ (i : Nat) := (ts.filter fun x => decide (x.l0 ≤ i) && decide (i < x.l1)).foldl (fun l x => cutOut l (x.x0, x.x1)) [(k.x0, k.x1)]
      lineTokens k k.l0 ((List.range (end_ - k.l0)).map fun i => at_ (k.l0 + i))

/-- A stage of class `k` of a tile has missed its deadline: a token for what upstream tokens leave of its span, and the count; where they
leave nothing the miss is not counted (R58, R59, R61). -/
def State.missToken (s : State) (t k : Nat) (x : Token) : State :=
  match s.openSpans x with
  | [] => s
  | l => ((l.foldl State.blind s).addSat t (BND_MISS k) 1).pip t 6

end Sys2Proof.Machine
end

