-- ==== Sys2Proof/Machine/Links.lean ====
section
/-! DEFINITION. Camera ports: training and power states (R73 to R92) and PRBS checkers (R107). The back channel is in
Machine/BackChannel.lean, what a port that is UP receives in Machine/Receive.lean. -/

namespace Sys2Proof.Machine

/-- The calibration work of a tile. -/
def State.calTile (s : State) (t : Nat) : CalTile := smGet CalTile.idle t s.cal.tiles

/-- The state with the calibration work of a tile changed. -/
def State.updCal (s : State) (t : Nat) (f : CalTile → CalTile) : State :=
  { s with cal := { s.cal with tiles := smUpd CalTile.idle t f s.cal.tiles } }

/-! Ports. -/

/-- What a port keeps beside its registers. -/
def State.port (s : State) (t p : Nat) : PortState := smGet PortState.idle (t * 2 + p) s.ports

/-- The state with a port changed. -/
def State.updPort (s : State) (t p : Nat) (f : PortState → PortState) : State :=
  { s with ports := smUpd PortState.idle (t * 2 + p) f s.ports }

/-- The lanes of the bond of local port `p` (R73). -/
def State.bond (s : State) (t p : Nat) : List Nat := (List.range (s.rd t (LNK_PORT_CFG_LANES p))).map (3 * p + ·)

/-- Lane `n` belongs to the bond of its port. -/
def State.inBond (s : State) (t n : Nat) : Bool := (s.bond t (n / 3)).contains n

/-- The state code of R85. -/
def State.portSt (s : State) (t p : Nat) : Nat := s.rd t (LNK_PORT_STATUS_STATE p)

/-- The bond lanes are in L0 (R92). -/
def State.inL0 (s : State) (t p : Nat) : Bool := s.rd t (LNK_PORT_STATUS_PSTATE p) == 0

/-- A change on every bond lane of a port. -/
def State.eachLane (s : State) (t p : Nat) (f : Nat → State → State) : State := (s.bond t p).foldl (fun s n => f n s) s

/-- The port has a sub-stream mapped in the structure of the newest band (R88). -/
def State.portMapped (s : State) (t p : Nat) : Bool := [0, 1, 2, 3].any fun u => s.is t (ING_PORT_SUB_CFG_EN p u)

/-- ABSENT of R88. -/
def State.absentNow (s : State) (t p : Nat) : Bool := s.portMapped t p && s.portSt t p != 5 && (s.port t p).hold == 0

/-- ABSENT follows its conditions; a change raises its pip and its notification (R88). -/
def State.absentUpdate (s : State) (t p : Nat) : State :=
  let a := bitN (s.absentNow t p)
  if s.rd t (LNK_PORT_STATUS_ABSENT p) = a then s
  else ((s.wr t (LNK_PORT_STATUS_ABSENT p) a).pip t (10 + p)).notify 0x0002 (t * 2 + p) a 0 0

/-- ABSENT of every port of the part, after a change of the structure in force. -/
def State.absentAll (s : State) : State := s.eachTile fun t s => (s.absentUpdate t 0).absentUpdate t 1

/-- The hold of a port, which STATUS.CAL shows (R90, R433). -/
def State.setHold (s : State) (t p h : Nat) : State :=
  (s.updPort t p fun x => { x with hold := h }).wr t (LNK_PORT_STATUS_CAL p) (bitN (h != 0))

/-- What the receiver of bond lane `k` of a port keeps. -/
def PortRx.lane (x : PortRx) (k : Nat) : LaneState := smGet LaneState.idle k x.lanes

/-- The receiver with what a bond lane keeps changed. -/
def PortRx.updLane (x : PortRx) (k : Nat) (f : LaneState → LaneState) : PortRx := { x with lanes := smUpd LaneState.idle k f x.lanes }

/-- Lanes under CTLE_MANUAL use the step CTLE_SET (R83). -/
def State.manualStep (s : State) (t n : Nat) : State :=
  if s.is t (LNK_LANE_CTRL_CTLE_MANUAL n) then s.wr t (LNK_LANE_STATUS_CTLE n) (s.rd t (LNK_LANE_CTRL_CTLE_SET n)) else s

/-- The equalisers of the bond lanes are powered: neither DISABLED nor L2 (R91, R92). -/
def State.lanesOn (s : State) (t p : Nat) : Bool := s.portSt t p != 0 && s.rd t (LNK_PORT_STATUS_PSTATE p) != 2

/-- The port enters a state of R85; lanes lose what the phases from there on establish. Only the phases of the relock from L1 remember that
they are it (R92); outside UP nothing of a packet is kept. -/
def State.enterPort (s : State) (t p c : Nat) : State :=
  let s := s.updPort t p fun x => { x with since := some s.tim.tb0, rx := .idle, relock := x.relock && decide (2 ≤ c) && decide (c ≤ 4) }
  let s := s.wr t (LNK_PORT_STATUS_STATE p) c
  let s := if s.lanesOn t p then s.eachLane t p fun n s => s.manualStep t n else s
  let s := if c = 5 then s else s.eachLane t p fun n s => s.clrF t (LNK_LANE_STATUS_MARKER n)
  let s := if c ≤ 2 ∨ 6 ≤ c then
      s.eachLane t p fun n s => (s.clrF t (LNK_LANE_STATUS_CDR_LOCK n)).clrF t (LNK_LANE_STATUS_BLOCK_LOCK n)
    else s
  s.absentUpdate t p

/-- The lanes in L2 keep nothing (R92). -/
def State.lanesL2 (s : State) (t p : Nat) : State :=
  s.eachLane t p fun n s => (s.clrF t (LNK_LANE_STATUS_CTLE n)).clrF t (LNK_LANE_STATUS_SLIP_POS n)

/-! Packets in progress. -/

/-- FXL discards a packet under the CRC or framing rows: ingest learns of it (R114). -/
def State.markDirty (s : State) (t p : Nat) : State := s.updPort t p fun x => { x with dirty := 15 }

/-- A framing error or a packet cut off (R89, R97). -/
def State.frameErr (s : State) (t p : Nat) : State := (s.addSat t (FXL_PORT_FRAME_ERR p) 1).markDirty t p

/-- The port leaves UP: a packet in progress is discarded (R89). -/
def State.cutPacket (s : State) (t p : Nat) : State :=
  if s.portSt t p = 5 ∧ (s.port t p).rx.asm.isOpen then s.frameErr t p else s

/-- A fault takes the port out of UP into SIGNAL_DETECT (R89). -/
def State.dropPort (s : State) (t p : Nat) : State := ((s.cutPacket t p).addSat t (LNK_PORT_DROPS p) 1).enterPort t p 1

/-! Commands of a port. -/

/-- The power state that CTRL.PSTATE gives lanes that are switched on: L1 is held only by a port that was UP (R92; DESIGN CHOICE, log 202). -/
def State.powerState (s : State) (t p : Nat) : State :=
  s.wr t (LNK_PORT_STATUS_PSTATE p) (if s.rd t (LNK_PORT_CTRL_PSTATE p) = 2 then 2 else 0)

/-- A write of ENABLE = 1 (R74, R85). -/
def State.portEnable (s : State) (t p : Nat) : State :=
  if s.is t (LNK_PORT_CTRL_ENABLE p) then s
  else if s.rd t (LNK_PORT_CFG_RATE p) = 3 ∨ s.rd t (LNK_PORT_CFG_LANES p) = 0 then s.setF t (LNK_PORT_ERR_CFG_INVALID p)
  else
    let s := s.setF t (LNK_PORT_CTRL_ENABLE p)
    if s.portSt t p = 0 then (s.powerState t p).enterPort t p 1 else s

/-- PORT_ENABLE (R85). -/
def execPortEnable (t : Tile) (p : Port) (s : State) : Answer := onTile s t fun s => s.portEnable t p

/-- A checker stops (R107). -/
def State.checkerStop (s : State) (t n : Nat) : State :=
  { s with prbs := smErase (t * 8 + n) s.prbs }.clrF t (LNK_LANE_PRBS_STATUS_LOCK n)

/-- The checkers of a port stop. -/
def State.prbsStop (s : State) (t p : Nat) : State := s.eachLane t p fun n s => s.checkerStop t n

/-- A write of ENABLE = 0 (R91). In TEST it leaves CTRL.TEST as it is, and a later ENABLE = 1 then trains (DESIGN CHOICE, log 206). -/
def State.portDisable (s : State) (t p : Nat) : State :=
  let s := s.clrF t (LNK_PORT_CTRL_ENABLE p)
  if s.portSt t p = 0 then s else
  let up := s.portSt t p == 5
  let s := (s.prbsStop t p).cutPacket t p
  let s := if up then s.addSat t (LNK_PORT_DROPS p) 1 else s
  let s := s.setHold t p 0
  let s := (s.lanesL2 t p).eachLane t p fun n s => s.clrF t (LNK_LANE_STATUS_SKEW n)
  (s.wr t (LNK_PORT_STATUS_PSTATE p) 2).enterPort t p 0

/-- A write of RETRAIN = 1 (R91); outside L0 it is ignored, as the lanes cannot train (DESIGN CHOICE, log 207). -/
def State.portRetrain (s : State) (t p : Nat) : State :=
  match s.portSt t p with
  | 0 => s
  | 7 => s
  | 5 => s.dropPort t p
  | _ => if s.inL0 t p then s.enterPort t p 1 else s

/-- A write of PSTATE (R92). The state code that reads outside L0 is the phase the return to L0 starts in (log 40); L2 ends the hold of a
recalibration or a self-test (DESIGN CHOICE, log 208). -/
def State.setPstate (s : State) (t p v : Nat) : State :=
  let go (s : State) := (s.wr t (LNK_PORT_CTRL_PSTATE p) v).wr t (LNK_PORT_STATUS_PSTATE p) v
  let st := s.portSt t p
  if v = 3 ∨ v = 1 ∧ st ≠ 5 then s.setF t (LNK_PORT_ERR_PSTATE_REFUSED p)
  else if st = 0 then s.wr t (LNK_PORT_CTRL_PSTATE p) v
  else
    match v with
    | 1 => (go (s.cutPacket t p)).enterPort t p 2
    | 2 =>
      let s := ((go (s.cutPacket t p)).setHold t p 0).lanesL2 t p
      if st = 7 then s else s.enterPort t p 1
    | _ =>
      match s.rd t (LNK_PORT_STATUS_PSTATE p) with
      | 1 => ((go s).updPort t p fun x => { x with relock := true }).enterPort t p 2
      | 2 => if st = 7 then go s else (go s).enterPort t p 1
      | _ => go s

/-- The port enters TEST: training is suspended (R107), with the lanes powered (R85). -/
def State.enterTest (s : State) (t p : Nat) : State := ((s.cutPacket t p).powerState t p).enterPort t p 7

/-- A write of TEST (R85, R107): with 0 the port trains if ENABLE is 1 and is DISABLED if not (DESIGN CHOICE, log 209). -/
def State.setTest (s : State) (t p : Nat) (on : Bool) : State :=
  if on == s.is t (LNK_PORT_CTRL_TEST p) then s else
  let s := s.wr t (LNK_PORT_CTRL_TEST p) (bitN on)
  if on then s.enterTest t p
  else if s.portSt t p = 7 then (s.prbsStop t p).enterPort t p (bitN (s.is t (LNK_PORT_CTRL_ENABLE p)))
  else s

/-! Training (R85 to R90). -/

/-- The step with the greatest eye height, on a tie the lowest (R83). -/
def bestStep (eyes : List (Fin 65 × Fin 1024)) : Nat :=
  ((eyes.take 16).zipIdx.foldl (fun (b, h) (x, i) => if h < x.2.val then (i, x.2.val) else (b, h)) (0, 0)).1

/-- The eye of a lane at a step. -/
def eyeAt (m : LaneMeas) (k : Nat) : Nat × Nat := match m.eyes[k]? with
  | some (w, h) => (w.val, h.val)
  | none => (0, 0)

/-- The eye of a lane is measured after an adaptation; a figure below its limit is reported (R431). -/
def State.measureEye (s : State) (t n : Nat) (e : Nat × Nat) : State :=
  let s := (s.wr t (CAL_LANE_EYE_WIDTH n) e.1).wr t (CAL_LANE_EYE_HEIGHT n) e.2
  let s := if e.1 < s.rd t CAL_QUAL_LIM_EYE_W_MIN then (s.setF t CAL_ERR_QUALITY).notify 0x0042 t 0 e.1 n else s
  if e.2 < s.rd t CAL_QUAL_LIM_EYE_H_MIN then (s.setF t CAL_ERR_QUALITY).notify 0x0042 t 1 e.2 n else s

/-- The frequency offset of a lane as its loop measures it (R84). -/
def State.setPpm (s : State) (t n : Nat) (x : Int) : State := s.wrS t (LNK_LANE_PPM_OFFSET n) (satS 16 x)

/-- CDR_LOCK completes on a lane: CTLE adapted unless manual, the offset measured (R83, R84). Out of L1 the step is kept (R92). -/
def State.laneLocks (s : State) (t : Nat) (kept : Bool) (m : LaneMeas) : State :=
  let n := m.lane.val
  let s := (s.setPpm t n m.ppm).setF t (LNK_LANE_STATUS_CDR_LOCK n)
  if kept || s.is t (LNK_LANE_CTRL_CTLE_MANUAL n) then s
  else
    let k := bestStep m.eyes
    (s.wr t (LNK_LANE_STATUS_CTLE n) k).measureEye t n (eyeAt m k)

/-- The measurements of the bond lanes, in the order of the bond. -/
def State.bondMeas (s : State) (t p : Nat) (ms : List LaneMeas) : List LaneMeas :=
  (s.bond t p).filterMap fun n => ms.find? (·.lane.val == n)

/-- The limit of the CDR loop: 300 ppm in 0.01 ppm (R84). -/
def ppmLimit : Nat := 30000

/-- The last two alignment rounds a lane has seen. -/
def lastTwo (m : LaneMeas) : Option (AlignMark × AlignMark) :=
  match m.rounds.reverse with
  | b :: a :: _ => some (a, b)
  | _ => none

/-- The greatest skew of a round in blocks: the block times of its ALIGN blocks by lane. -/
def roundSkew (times : List Nat) : Nat := times.foldl Nat.max 0 - times.foldl Nat.min (times.headD 0)

/-- An alignment round: on bond lane k of L an ALIGN block with index k and LANES L, all with one round counter (R77, R79). -/
def roundOk (l : List AlignMark) : Bool :=
  l.zipIdx.all fun (a, k) => a.idx == k && a.lanes == l.length && a.counter == (l.map (·.counter)).headD 0

/-- Two consecutive alignment rounds on all bond lanes, with consistent counters and a skew within R80 (R85). -/
def deskewed (ms : List LaneMeas) : Bool :=
  let l := ms.filterMap lastTwo
  l.length == ms.length && roundOk (l.map (·.1)) && roundOk (l.map (·.2)) &&
    (l.all fun (a, b) => b.counter == (a.counter + 1) % 256 && b.time == a.time + 4097) &&
    decide (roundSkew (l.map (·.1.time)) ≤ 32) && decide (roundSkew (l.map (·.2.time)) ≤ 32)

/-- The last round seen on all bond lanes has a skew beyond R80. -/
def skewed (ms : List LaneMeas) : Bool :=
  let l := ms.filterMap fun m => m.rounds.getLast?
  l.length == ms.length && roundOk l && decide (32 < roundSkew (l.map (·.time)))

/-- Every bond lane meets the condition of the phase (R80, R84, R85). In DESKEW a lane that has lost block lock holds the port there until it
has gained it again (DESIGN CHOICE, log 210). -/
def State.phaseMet (s : State) (t p : Nat) (ms : List LaneMeas) : Bool :=
  let bm := s.bondMeas t p ms
  let all := bm.length == (s.bond t p).length
  let locked := (s.bond t p).all fun n => s.is t (LNK_LANE_STATUS_BLOCK_LOCK n)
  s.inL0 t p &&
    match s.portSt t p with
    | 1 => all && bm.all (·.signal)
    | 2 => all && bm.all fun m => m.cdr && decide (m.ppm.natAbs ≤ ppmLimit)
    | 3 => locked
    | 4 => all && locked && deskewed bm
    | _ => false

/-- The signal detectors show what they find (R85, R108). -/
def State.setSignals (s : State) (t : Nat) (bm : List LaneMeas) : State :=
  bm.foldl (fun s m => if m.signal then s.setF t (LNK_LANE_STATUS_SIGNAL m.lane) else s) s

/-- The receiver as DESKEW leaves it: scramblers in step, 4,096 rounds before the next alignment round (R76, R79, R80). -/
def rxFrom (bm : List LaneMeas) : PortRx :=
  let c := ((bm.filterMap lastTwo).map fun (_, b) => (b.counter + 1) % 256).headD 0
  bm.zipIdx.foldl (fun x (m, k) => x.updLane k fun l => { l with scr := m.tail.toNat }) { PortRx.idle with due := 4096, counter := c }

/-- SKEW of each bond lane: its blocks behind the earliest lane (R108). -/
def State.setSkews (s : State) (t p : Nat) (l : List Nat) : State :=
  (s.bond t p).zip l |>.foldl (fun s (n, d) => s.wr t (LNK_LANE_STATUS_SKEW n) (Nat.min 63 (d - l.foldl Nat.min (l.headD 0)))) s

/-- A phase completes and the port enters the next state (R85); from L1 ALIGN is left out (R92). -/
def State.phaseComplete (s : State) (t p : Nat) (ms : List LaneMeas) : State :=
  let bm := s.bondMeas t p ms
  match s.portSt t p with
  | 1 => (s.setSignals t bm).enterPort t p 2
  | 2 =>
    let kept := (s.port t p).relock
    let s := bm.foldl (fun s m => s.laneLocks t kept m) s
    if kept then (s.eachLane t p fun n s => s.setF t (LNK_LANE_STATUS_BLOCK_LOCK n)).enterPort t p 4 else s.enterPort t p 3
  | 3 => s.enterPort t p 4
  | _ =>
    let s := s.setSkews t p ((bm.filterMap lastTwo).map fun (_, b) => b.time)
    let s := s.eachLane t p fun n s => s.setF t (LNK_LANE_STATUS_MARKER n)
    let s := if (s.port t p).hold = 1 then s.updCal t fun c => { c with lost := Nat.max c.lost (s.tim.tb0 - c.start) } else s
    ((s.setHold t p 0).enterPort t p 5).updPort t p fun x => { x with rx := rxFrom bm }

/-- The port has entered its present state in this very cycle: its phase has only begun (R91). -/
def State.justEntered (s : State) (t p : Nat) : Bool := (s.port t p).since == some s.tim.tb0

/-- A bond lane of the port loses signal in this cycle: the command waits (R91). -/
def State.lossWaits (s : State) (t p : Nat) : Bool :=
  s.pending.any fun c => match c with
    | .lossOfSignal u n => u.val == t && n.val / 3 == p && s.inBond t n
    | _ => false

/-- The present phase of the port completes in this cycle: the command waits (R91). -/
def State.phaseWaits (s : State) (t p : Nat) : Bool :=
  s.pending.any fun c => match c with
    | .phaseComplete u q m => u.val == t && q.val == p && s.phaseMet t p m
    | _ => false

/-- PHASE_COMPLETE (R85): a loss of signal in the same cycle comes first (R91). -/
def execPhaseComplete (t : Tile) (p : Port) (m : List LaneMeas) (s : State) : Answer :=
  whenEv s (s.fit t && s.phaseMet t p m && !s.justEntered t p && !s.lossWaits t p) fun s => s.phaseComplete t p m

/-- The backoff interval after `b` ms (R87). -/
def nextBackoff (b : Nat) : Nat := Nat.min (2 * b) 1000

/-- A training failure (R80, R87, R90). -/
def State.trainingFailure (s : State) (t p : Nat) (ms : List LaneMeas) : State :=
  let ph := s.portSt t p
  let b := s.rd t (LNK_PORT_STATUS_BACKOFF_MS p)
  let bm := s.bondMeas t p ms
  let s := (s.setSignals t bm).setIf (ph == 4 && bm.length == (s.bond t p).length && skewed bm) t (LNK_PORT_ERR_SKEW p)
  let s := ((s.addSat t (LNK_PORT_FAILS p) 1).wr t (LNK_PORT_STATUS_FAIL_PHASE p) ph).wr t (LNK_PORT_STATUS_BACKOFF_MS p) (nextBackoff b)
  let s := s.updPort t p fun x => { x with failed := x.hold == 1 || x.failed }
  ((s.setHold t p 0).enterPort t p 6).notify 0x0001 (t * 2 + p) ph b 0

/-- A phase of the port can time out: with a manual lane ALIGN cannot (R86), and a phase only begun cannot. -/
def State.canTimeOut (s : State) (t p : Nat) : Bool :=
  s.inL0 t p && decide (1 ≤ s.portSt t p) && decide (s.portSt t p ≤ 4) && !s.justEntered t p &&
    !(s.portSt t p == 3 && (s.bond t p).any fun n => s.is t (LNK_LANE_CTRL_SLIP_MANUAL n))

/-- TRAINING_FAILURE (R87): a phase that completes in the same cycle completes (R91). -/
def execTrainingFailure (t : Tile) (p : Port) (m : List LaneMeas) (s : State) : Answer :=
  whenEv s (s.fit t && s.canTimeOut t p && !s.phaseWaits t p) fun s => s.trainingFailure t p m

/-- BACKOFF_EXPIRY (R87). -/
def execBackoffExpiry (t : Tile) (p : Port) (s : State) : Answer :=
  whenEv s (s.fit t && s.portSt t p == 6) fun s => s.enterPort t p 1

/-- BACKOFF_RESET: the port has held UP for 1 s (R87). -/
def execBackoffReset (t : Tile) (p : Port) (s : State) : Answer :=
  whenEv s (s.fit t && s.portSt t p == 5) fun s => s.wr t (LNK_PORT_STATUS_BACKOFF_MS p) 10

/-- Loss of signal on a bond lane (R89). In a recalibration the port trains on from SIGNAL_DETECT, still held by it (DESIGN CHOICE, log 211). -/
def State.signalLoss (s : State) (t n : Nat) : State :=
  let p := n / 3
  let s := s.clrF t (LNK_LANE_STATUS_SIGNAL n)
  match s.portSt t p with
  | 5 => (s.setF t (LNK_PORT_ERR_LOS_UP p)).dropPort t p
  | 2 => if s.inL0 t p then s.enterPort t p 1 else s
  | 3 => s.enterPort t p 1
  | 4 => s.enterPort t p 1
  | _ => s

/-- What bond lane `k` of a port keeps, changed. -/
def State.updLane (s : State) (t p k : Nat) (f : LaneState → LaneState) : State :=
  s.updPort t p fun x => { x with rx := x.rx.updLane k f }

/-- The sync header of a block as the lane receives it (R76, R108). -/
def State.headOf (s : State) (t n : Nat) (b : BitVec 66) : Nat :=
  let h := b.toNat % 4
  if s.is t (LNK_LANE_CTRL_POLARITY n) then 3 - h else h

/-- The content of a block as the lane receives it, still scrambled (R76, R108). -/
def State.contentOf (s : State) (t n : Nat) (b : BitVec 66) : Nat :=
  let c := b.toNat / 4
  if s.is t (LNK_LANE_CTRL_POLARITY n) then 2 ^ 64 - 1 - c else c

/-- The sync header of one block of a lane: an invalid one of a lane with block lock counts (R86, R108; log 212). -/
def State.laneHead (s : State) (t n : Nat) (b : BitVec 66) : State :=
  let ok := headOk (s.headOf t n b)
  let s := s.updLane t (n / 3) (n % 3) fun x => { x with heads := headPush x.heads ok }
  if ok || !s.is t (LNK_LANE_STATUS_BLOCK_LOCK n) then s else s.addSat t (LNK_LANE_SYNC_ERR n) 1

/-- The validity of the last headers of a lane. -/
def State.laneHeads (s : State) (t n : Nat) : List Bool := ((s.port t (n / 3)).rx.lane (n % 3)).heads

/-- A lane loses block lock (R86): a port that is UP leaves UP (R89); in DESKEW it stays there (log 210). -/
def State.lockLoss (s : State) (t n : Nat) : State :=
  let s := (s.clrF t (LNK_LANE_STATUS_BLOCK_LOCK n)).updLane t (n / 3) (n % 3) fun x => { x with heads := [] }
  if s.portSt t (n / 3) = 5 then s.dropPort t (n / 3) else s

/-- A lane with block lock has had 16 invalid headers within 64 blocks. -/
def State.lockGone (s : State) (t n : Nat) : Bool := s.is t (LNK_LANE_STATUS_BLOCK_LOCK n) && headsLose (s.laneHeads t n)

/-- The headers of some blocks of a lane. -/
def State.laneBlocks (s : State) (t n : Nat) (l : List (BitVec 66)) : State := l.foldl (fun s b => s.laneHead t n b) s

/-- Block lock can be gained: in ALIGN, and in DESKEW where it has been lost (R86; log 210). -/
def State.lockSought (s : State) (t n : Nat) : Bool :=
  s.inBond t n && (s.portSt t (n / 3) == 3 || s.portSt t (n / 3) == 4) && !s.is t (LNK_LANE_STATUS_BLOCK_LOCK n)

/-- BLOCK_LOCK_GAIN: after 64 consecutive blocks with valid headers the lane has block lock and is slipped no more (R86). -/
def State.lockGain (s : State) (t n : Nat) (l : List (BitVec 66)) : State :=
  let s := s.laneBlocks t n l
  if headsGain (s.laneHeads t n) then s.setF t (LNK_LANE_STATUS_BLOCK_LOCK n) else s

/-- BLOCK_LOCK_GAIN (R86). -/
def execBlockLockGain (t : Tile) (n : Lane) (blocks : List (BitVec 66)) (s : State) : Answer :=
  whenEv s (s.fit t && s.lockSought t n) fun s => s.lockGain t n blocks

/-- One bit of slip (R86). -/
def State.slipLane (s : State) (t n : Nat) : State :=
  (s.updLane t (n / 3) (n % 3) fun x => { x with heads := [] }).wr t (LNK_LANE_STATUS_SLIP_POS n) ((s.rd t (LNK_LANE_STATUS_SLIP_POS n) + 1) % 66)

/-- The lane is in ALIGN. -/
def State.laneAligning (s : State) (t n : Nat) : Bool := s.inBond t n && s.portSt t (n / 3) == 3

/-- SLIP_DWELL: the firmware slips an unlocked lane that is not manual (R86). -/
def execSlipDwell (t : Tile) (n : Lane) (s : State) : Answer :=
  whenEv s (s.fit t && s.laneAligning t n && !s.is t (LNK_LANE_CTRL_SLIP_MANUAL n) && !s.is t (LNK_LANE_STATUS_BLOCK_LOCK n))
    fun s => s.slipLane t n

/-- A write of SLIP = 1: otherwise no effect (R86, R108). -/
def State.slipWrite (s : State) (t n : Nat) : State :=
  if s.laneAligning t n && s.is t (LNK_LANE_CTRL_SLIP_MANUAL n) then s.slipLane t n else s

/-- SLIP (R86). -/
def execSlip (t : Tile) (n : Lane) (s : State) : Answer := onTile s t fun s => s.slipWrite t n

/-- SLIP_MANUAL: firmware slipping of the lane stops or resumes at the present position (R86). -/
def execSlipManual (t : Tile) (n : Lane) (on : Bool) (s : State) : Answer :=
  onTile s t fun s => s.wr t (LNK_LANE_CTRL_SLIP_MANUAL n) (bitN on)

/-! PRBS checkers (R107). -/

/-- The pattern a lane's checker looks for: that of the self-test that holds the port, else PRBS_CTRL's (R107, R430). -/
def State.prbsPattern (s : State) (t n : Nat) : Nat :=
  match (s.calTile t).run with
  | some r => if 2 ≤ (s.port t (n / 3)).hold then r.pattern else s.rd t (LNK_LANE_PRBS_CTRL_PATTERN n)
  | none => s.rd t (LNK_LANE_PRBS_CTRL_PATTERN n)

/-- A checker of the lane runs: the port is in TEST, with a pattern set (R107). -/
def State.checkerOn (s : State) (t n : Nat) : Bool :=
  s.inBond t n && s.portSt t (n / 3) == 7 && decide (1 ≤ s.prbsPattern t n) && decide (s.prbsPattern t n ≤ 5)

/-- Raw bits of a lane, first received first, pass its checker: a bit counts as sent when POLARITY and INVERT are undone (R107, R108). -/
def State.prbsRun (s : State) (t n : Nat) (bits : List Bool) : PrbsTally :=
  let inv := s.is t (LNK_LANE_CTRL_POLARITY n) != s.is t (LNK_LANE_PRBS_CTRL_INVERT n)
  (bits.map (· != inv)).foldl (prbsBit (s.prbsPattern t n))
    ⟨smGet .idle (t * 8 + n) s.prbs, s.is t (LNK_LANE_PRBS_STATUS_LOCK n), false, 0, 0⟩

/-- A 64-bit count that holds at its maximum. -/
def State.addSat64 (s : State) (t : Nat) (f : Fld) (n : Nat) : State := s.wr64 t f (Nat.min (s.rd64 t f + n) (2 ^ 64 - 1))

/-- What a checker has found: LOCK, LOST and the counts (R107). -/
def State.prbsFeed (s : State) (t n : Nat) (bits : List Bool) : State :=
  let x := s.prbsRun t n bits
  let s := { s with prbs := smSet .idle (t * 8 + n) x.st s.prbs }
  let s := if 2 ≤ (s.port t (n / 3)).hold then s.updCal t fun c => { c with
      checks := smUpd LaneCheck.idle n (fun k => ⟨k.locked || x.locked || x.lost, k.errors + x.errors, k.bits + x.bits⟩) c.checks }
    else s
  let s := (s.addSat64 t (LNK_LANE_PRBS_ERR_LO n) x.errors).addSat64 t (LNK_LANE_PRBS_BITS_LO n) x.bits
  (s.wr t (LNK_LANE_PRBS_STATUS_LOCK n) (bitN x.locked)).setIf x.lost t (LNK_LANE_PRBS_STATUS_LOST n)

/-- A write of PRBS_CTRL: another pattern, or none, stops the checker, and a check of the inverted pattern starts anew (R107). -/
def State.patternWrite (s : State) (t n old v : Nat) : State := if old % 16 = v % 16 then s else s.checkerStop t n

/-- PRBS_CHECKER_LOCK: the bits on which a checker locks (R107). -/
def execPrbsCheckerLock (t : Tile) (n : Lane) (bits : List Bool) (s : State) : Answer :=
  whenEv s (s.fit t && s.checkerOn t n) fun s => s.prbsFeed t n bits

/-- PRBS_CHECKER_LOSS: the bits with 32 errors within 64 (R107). -/
def execPrbsCheckerLoss (t : Tile) (n : Lane) (bits : List Bool) (s : State) : Answer :=
  whenEv s (s.fit t && s.is t (LNK_LANE_PRBS_STATUS_LOCK n)) fun s => s.prbsFeed t n bits

/-! Counters cleared (R108, R109). -/

/-- LNK_LANE_CLR_SYNC_ERR (R108). -/
def execLnkLaneClrSyncErr (t : Tile) (n : Lane) (s : State) : Answer := onTile s t fun s => s.clrCount t (LNK_LANE_SYNC_ERR n)

/-- LNK_LANE_CLR_PRBS (R108). -/
def execLnkLaneClrPrbs (t : Tile) (n : Lane) (s : State) : Answer :=
  onTile s t fun s => (s.clrCount64 t (LNK_LANE_PRBS_ERR_LO n)).clrCount64 t (LNK_LANE_PRBS_BITS_LO n)

/-- LNK_PORT_CLR_FAILS (R108). -/
def execLnkPortClrFails (t : Tile) (p : Port) (s : State) : Answer := onTile s t fun s => s.clrCount t (LNK_PORT_FAILS p)

/-- LNK_PORT_CLR_DROPS (R108). -/
def execLnkPortClrDrops (t : Tile) (p : Port) (s : State) : Answer := onTile s t fun s => s.clrCount t (LNK_PORT_DROPS p)

/-- FXL_CLR_LINES (R109). -/
def execFxlClrLines (t : Tile) (p : Port) (s : State) : Answer :=
  onTile s t fun s => [0, 1, 2, 3].foldl (fun s u => s.clrCount t (FXL_PORT_LINES p u)) s

/-- FXL_CLR_CRC_ERR (R109). -/
def execFxlClrCrcErr (t : Tile) (p : Port) (s : State) : Answer := onTile s t fun s => s.clrCount t (FXL_PORT_CRC_ERR p)

/-- FXL_CLR_FRAME_ERR (R109). -/
def execFxlClrFrameErr (t : Tile) (p : Port) (s : State) : Answer := onTile s t fun s => s.clrCount t (FXL_PORT_FRAME_ERR p)

/-- FXL_CLR_DISCARD (R109). -/
def execFxlClrDiscard (t : Tile) (p : Port) (s : State) : Answer := onTile s t fun s => s.clrCount t (FXL_PORT_DISCARD p)

/-- FXL_CLR_TRIG (R109). -/
def execFxlClrTrig (t : Tile) (p : Port) (s : State) : Answer := onTile s t fun s => s.clrCount t (FXL_PORT_TRIG p)

end Sys2Proof.Machine
end

