-- ==== Sys2Proof/Machine/BackChannel.lean ====
section
/-! DEFINITION. The back channel of a camera port: characters, triggers and messages (R100 to R107), and the self-tests that a CMD decides. -/

namespace Sys2Proof.Machine

/-! Messages (R103 to R105). -/

/-- A message between K27.7 and K29.7 (R103). -/
def bcFrame (msg : Nat) (pay : Bytes) : Bytes :=
  let b := leBytes 1 msg ++ leBytes 1 pay.length ++ pay
  b ++ leBytes 2 (crcOf crc16Kind b)

/-- The back channel sends messages: enabled and not in PRBS mode (R102, R108). -/
def State.bcOn (s : State) (t p : Nat) : Bool :=
  s.is t (LNK_PORT_BC_CTRL_ENABLE p) && [0, 6, 7].contains (s.rd t (LNK_PORT_BC_CTRL_PRBS p))

/-! The characters (R100 to R103). -/

/-- A change of the back-channel lane of a port. -/
def State.updBack (s : State) (t p : Nat) (f : BackLane → BackLane) : State := s.updPort t p fun x => { x with back := f x.back }

/-- The six characters of a TRIG (R101). -/
def trigChars (fine stamp : Nat) : List (Bool × Nat) :=
  (true, 0x3C) :: (false, fine) :: (leBytes 4 stamp).map fun b => (false, b.toNat)

/-- The characters of a message: K27.7, the message and K29.7 (R103). -/
def messageChars (body : Bytes) : List (Bool × Nat) := (true, 0xFB) :: body.map (fun b => (false, b.toNat)) ++ [(true, 0xFD)]

/-- FINE of a TRIG for a line tick at `t` ns whose K28.1 starts at `c`, in 0.1 ns (R101). -/
def fineOf (c t : Nat) : Nat := (c - 10 * t - 800) / 8 % 16

/-- A TRIG for an accepted line tick at TB0 `now` waits for its character boundary (R101, R102). -/
def State.sendTrig (s : State) (t p line now : Nat) : State :=
  if !s.is t (FXL_PORT_CTRL_TRIG_EN p) then s
  else if s.bcOn t p then s.updBack t p fun x => { x with due := x.due ++ [(now, line)] }
  else s.setF t (FXL_PORT_ERR_TRIG_SUPPRESSED p)

/-- The next character at the boundary `c`, in 0.1 ns: a TRIG that is due or under way, then the message, then the idle pair (R100 to R102);
whether it is a K28.1. -/
def BackLane.next (x : BackLane) (c : Nat) : (Bool × Nat) × Bool × BackLane :=
  match x.trig with
  | ch :: l => (ch, false, { x with trig := l })
  | [] =>
    match x.due.filter fun (t, _) => decide (10 * t + 800 ≤ c) with
    | (t, line) :: _ => ((true, 0x3C), true, { x with trig := (trigChars (fineOf c t) line).tail, due := x.due.tail, half := false })
    | [] =>
      match x.chars with
      | ch :: l => (ch, false, { x with chars := l, half := false })
      | [] => if x.half then ((false, 0xB5), false, { x with half := false }) else ((true, 0xBC), false, { x with half := true })

/-- The ten bits of a PRBS generator in one character time, those that INJECT asks for inverted (R107). -/
def BackLane.prbs (x : BackLane) (pat : Nat) (inv : Bool) : BackLane :=
  let (l, g) := prbsGen pat 10 x.gen
  let l := l.zipIdx.map fun (b, i) => (b != inv) != decide (i < x.inject)
  { x with out := some (l.foldl (fun a b => 2 * a + bitN b) 0), gen := g, inject := x.inject - 10 }

/-- The ten bits on the lane at the boundary `c`, in 0.1 ns (R75, R100, R107, R108). -/
def State.bcChar (s : State) (t p c : Nat) : State :=
  let flip (x : BackLane) : BackLane := if s.is t (LNK_PORT_BC_CTRL_POLARITY p) then { x with out := x.out.map (1023 - ·) } else x
  if s.bcOn t p then
    let (ch, trig, x) := (s.port t p).back.next c
    let (g, rd) := encode10 x.rd ch.1 ch.2
    let s := s.updBack t p fun _ => flip { x with rd := rd, out := some g }
    if trig then s.addWrap t (FXL_PORT_TRIG p) 1 else s
  else s.updBack t p fun x => flip (x.prbs (s.rd t (LNK_PORT_BC_CTRL_PRBS p)) (s.is t (LNK_PORT_BC_CTRL_INVERT p)))

/-- The character boundary of a tile that falls in the EVTC cycle from TB0 `now` on, in 0.1 ns (R75, R100): one LTXC cycle is 8 ns, in a phase to TB0
that the spec leaves open (log 42). -/
def boundary (t now : Nat) : Option Nat :=
  let d := (Config.ltxcPhase t % 80 + 80 - 10 * now % 80) % 80
  if d < 20 then some (10 * now + d) else none

/-- The back channels send the characters whose boundary falls in the present EVTC cycle. -/
def State.bcTick (s : State) : State :=
  s.eachTile fun t s =>
    match boundary t s.tim.tb0 with
    | some c => if s.locked t .aux then [0, 1].foldl (fun s p => if s.is t (LNK_PORT_BC_CTRL_ENABLE p) then s.bcChar t p c else s) s else s
    | none => s

/-- No message is being sent and no TRIG waits or is being sent: the next message starts at the next boundary (R104, R106). -/
def State.bcFree (s : State) (t p : Nat) : Bool :=
  let x := (s.port t p).back
  s.bcOn t p && x.chars.isEmpty && x.trig.isEmpty && x.due.isEmpty

/-- A message starts. -/
def State.startMessage (s : State) (t p : Nat) (m : BcMsg) : State :=
  s.updPort t p fun x => { x with sending := some m, back := { x.back with chars := messageChars m.body } }

/-- INJECT: one bit of the generator's stream is inverted (R107). -/
def State.inject (s : State) (t p : Nat) : State :=
  if s.is t (LNK_PORT_BC_CTRL_ENABLE p) && !s.bcOn t p then s.updBack t p fun x => { x with inject := x.inject + 1 } else s

/-- INJECT (R107). -/
def execInject (t : Tile) (p : Port) (s : State) : Answer := onTile s t fun s => s.inject t p

/-- CMD (R105): TAG, OP, ADDR and DATA. -/
def cmdMsg (tag op addr data : Nat) : BcMsg :=
  ⟨false, 0, bcFrame 2 (leBytes 1 tag ++ leBytes 1 op ++ zeros 2 ++ leBytes 4 addr ++ leBytes 4 data)⟩

/-- A CMD becomes PENDING; nothing is sent while the back channel is off (R105). -/
def State.queueCmd (s : State) (t p : Nat) (m : BcMsg) : State :=
  let s := (s.wr t (FXL_PORT_CMD_STATUS_STATE p) 1).updPort t p fun x => { x with cmdTag := byteAt m.body 2 }
  if s.bcOn t p then s.updPort t p fun x => { x with cmd := some m } else s

/-- A write of CMD_CTRL (R105, R106): with SEND while PENDING it is ignored as a whole. -/
def State.cmdCtrl (s : State) (t p v : Nat) : State :=
  let store (s : State) := (s.wr t (FXL_PORT_CMD_CTRL_TAG p) (v % 256)).wr t (FXL_PORT_CMD_CTRL_OP p) (bitsOf v 9 8)
  if !v.testBit 16 then store s
  else if s.rd t (FXL_PORT_CMD_STATUS_STATE p) = 1 then s.setF t (FXL_PORT_ERR_SEND_BUSY p)
  else
    let s := store s
    let op := bitsOf v 9 8
    if op = 0 ∨ op = 3 then s.setF t (FXL_PORT_ERR_BAD_OP p)
    else s.queueCmd t p (cmdMsg (v % 256) op (s.rd t (FXL_PORT_CMD_ADDR p)) (if op = 1 then s.rd t (FXL_PORT_CMD_DATA p) else 0))

/-- SEND (R105). -/
def execSend (t : Tile) (p : Port) (v : BitVec 32) (s : State) : Answer := onTile s t fun s => s.cmdCtrl t p v.toNat

/-- EXPSET_MESSAGE: the oldest EXPSET that waits starts (R104, R106). -/
def State.startExpset (s : State) (t p : Nat) : State :=
  match (s.port t p).expq with
  | [] => s
  | m :: l => (s.updPort t p fun x => { x with expq := l }).startMessage t p m

/-- EXPSET_MESSAGE (R104). -/
def execExpsetMessage (t : Tile) (p : Port) (s : State) : Answer := whenEv s (s.locked t .aux && s.fit t && s.bcFree t p) fun s => s.startExpset t p

/-- CMD_MESSAGE: the waiting CMD starts behind every EXPSET (R106). -/
def State.startCmd (s : State) (t p : Nat) : State :=
  match (s.port t p).cmd with
  | none => s
  | some m => (s.updPort t p fun x => { x with cmd := none }).startMessage t p m

/-- CMD_MESSAGE (R105). -/
def execCmdMessage (t : Tile) (p : Port) (s : State) : Answer :=
  whenEv s (s.locked t .aux && s.fit t && s.bcFree t p && (s.port t p).expq.isEmpty) fun s => s.startCmd t p

/-! Self-tests that a CMD decides (R432, R434). -/

/-- A self-test ends: result, fail flag, pip and notification (R434). -/
def State.stFinish (s : State) (t fails : Nat) (fail aborted : Bool) (firstFail : Option Nat) : State :=
  let kind := (((s.calTile t).run).map (·.kind)).getD 0
  let s := ((s.updCal t fun c => { c with run := none }).clrF t CAL_STATUS_ST_RUNNING).setF t CAL_ST_RESULT_DONE
  let s := ((s.wr t CAL_ST_RESULT_FAIL (bitN fail)).wr t CAL_ST_RESULT_ABORTED (bitN aborted)).wr t CAL_ST_RESULT_COUNT (Nat.min fails 65535)
  let s := match firstFail with
    | some a => s.wr64 t CAL_ST_FAIL_ADDR_LO a
    | none => s
  let s := s.setIf fail t CAL_ERR_ST_FAIL
  (s.pip t 222).notify 0x0041 t kind (if aborted then 2 else bitN fail) (Nat.min fails 65535)

/-- The CMD of a far-end loopback (R432): WRITE to CAL_FAR_ADDR, with the TAG that CMD_CTRL holds (log 43). -/
def State.farCmd (s : State) (t p : Nat) : State :=
  let r := (s.calTile t).run
  let d := (r.map (·.pattern)).getD 0 + 65536 * ceilDiv ((r.map (·.dwell)).getD 0) 1000
  (s.updPort t p fun x => { x with far := true, farWait := false }).queueCmd t p
    (cmdMsg (s.rd t (FXL_PORT_CMD_CTRL_TAG p)) 1 (s.rd t CAL_FAR_ADDR) d)

/-- A far-end loopback asks for its CMD: it waits while a CMD of software is PENDING. -/
def State.farStart (s : State) (t p : Nat) : State :=
  if s.rd t (FXL_PORT_CMD_STATUS_STATE p) = 1 then s.updPort t p fun x => { x with farWait := true } else s.farCmd t p

/-- A far-end loopback ends without an OK: FAIL and an error count of 0 (R432). -/
def State.farFail (s : State) (t p : Nat) : State :=
  ((s.updPort t p fun x => { x with far := false }).setHold t p 0 |>.absentUpdate t p).stFinish t 0 true false none

/-- A CMD has ended; a far-end loopback that waits makes its own. -/
def State.cmdEnded (s : State) (t p : Nat) : State := if (s.port t p).farWait then s.farCmd t p else s

/-- CMD_TIMEOUT (R105). -/
def State.cmdTimeout (s : State) (t p : Nat) : State :=
  let s := s.wr t (FXL_PORT_CMD_STATUS_STATE p) 3
  let s := s.updPort t p fun x => { x with cmd := none }
  if (s.port t p).far then s.farFail t p else s.cmdEnded t p

/-- An ACK packet (R105): a matching one ends the CMD, any other is unsolicited. -/
def State.ack (s : State) (t p : Nat) (k : Bytes) : State :=
  if s.rd t (FXL_PORT_CMD_STATUS_STATE p) = 1 ∧ byteAt k 2 = (s.port t p).cmdTag then
    let s := (s.wr t (FXL_PORT_CMD_STATUS_STATE p) 2).wr t (FXL_PORT_CMD_STATUS_ACK_STATUS p) (byteAt k 3)
    let s := s.wr t (FXL_PORT_ACK_DATA p) (leAt k 8 4)
    if (s.port t p).far then
      if byteAt k 3 = 0 then (s.updPort t p fun x => { x with far := false }).enterTest t p else s.farFail t p
    else s.cmdEnded t p
  else s.setF t (FXL_PORT_ERR_UNSOLICITED_ACK p)

/-- SELFTEST_DWELL_END: the port leaves TEST and trains back to UP, a near-end loopback from CDR_LOCK, a far-end one from SIGNAL_DETECT
(R430, R432); a port that is not enabled is DISABLED again (R91). -/
def State.dwellEnd (s : State) (t p : Nat) : State :=
  let s := s.prbsStop t p
  if s.is t (LNK_PORT_CTRL_ENABLE p) then s.enterPort t p (if (s.port t p).hold = 2 then 2 else 1)
  else (s.setHold t p 0).enterPort t p 0

/-- SELFTEST_DWELL_END (R432). -/
def execSelftestDwellEnd (t : Tile) (p : Port) (s : State) : Answer :=
  whenEv s (s.fit t && s.portSt t p == 7 && decide (2 ≤ (s.port t p).hold)) fun s => s.dwellEnd t p


end Sys2Proof.Machine
end

