-- ==== Sys2Proof/Machine/FirIn.lean ====
section
/-! DEFINITION. Input of the profile filters (R409 to R411). -/

namespace Sys2Proof.Machine

/-- Filter channel `f` of tile `t`. -/
def State.firChan (s : State) (t f : Nat) : FirChan := smGet FirChan.idle (t * 16 + f) s.fir

/-- The state with a filter channel changed. -/
def State.updFir (s : State) (t f : Nat) (g : FirChan → FirChan) : State := { s with fir := smUpd FirChan.idle (t * 16 + f) g s.fir }

/-- SRC of an enabled channel, 0 where it is disabled. -/
def State.firSrc (s : State) (t f : Nat) : Nat := if s.is t (FIR_CH_CFG_EN f) then s.rd t (FIR_CH_CFG_SRC f) else 0

/-- Capacity of an input FIFO (R411). -/
def firDepth : Nat := 64

/-- A sample of source 1, 2 or 4 (R411). -/
def State.firPush (s : State) (t f : Nat) (x : Int) : State :=
  let s := s.updFir t f fun c => { c with last := some x }
  if firDepth ≤ (s.firChan t f).fifo.length then (s.addSat t (FIR_CH_IN_LOST f) 1).setF t FIR_ERR_IN_LOST
  else s.updFir t f fun c => { c with fifo := c.fifo ++ [x] }

/-- A hold sample (R410). -/
def State.firHold (s : State) (t f : Nat) : State := (s.addSat t (FIR_CH_HOLDS f) 1).firPush t f ((s.firChan t f).last.getD 0)

/-- A missing line of a tile-local sub-stream gives hold samples (R410). -/
def State.firHoldLine (s : State) (t u : Nat) : State :=
  (List.range 16).foldl (fun s f => if s.firSrc t f == 1 && s.rd t (FIR_CH_CFG_SUB f) == u then s.firHold t f else s) s

/-- A word of an engine's output port: none where the FIFO is full; a channel of another source discards it (R249, R409, R411). -/
def State.firEngine (s : State) (t f : Nat) (x : Int) : Option State :=
  if s.firSrc t f != 3 then some s
  else if firDepth ≤ (s.firChan t f).fifo.length then none
  else some (s.updFir t f fun c => { c with fifo := c.fifo ++ [x], last := some x })

/-- POS_WEB_SPEED at an accepted line tick (R409). -/
def State.firSpeed (s : State) (v : Nat) : State :=
  s.eachTile fun t s => (List.range 16).foldl (fun s f => if s.firSrc t f == 4 then s.firPush t f (Nat.min v 0x7FFFFF : Nat) else s) s

end Sys2Proof.Machine
end

