-- ==== Sys2Proof/Machine/Exposure.lean ====
section
/-! DEFINITION. Exposure sets, statistics and the automatic loop (R133 to R153), and the back channel switched off (R105). -/

namespace Sys2Proof.Machine

/-! Exposure sets (R133 to R135). -/

/-- The exposure unit of a port. -/
def State.exp (s : State) (t p : Nat) : ExpPort := smGet ExpPort.idle (t * 2 + p) s.path.exps

/-- The state with an exposure unit changed. -/
def State.updExp (s : State) (t p : Nat) (f : ExpPort → ExpPort) : State :=
  { s with path := { s.path with exps := smUpd ExpPort.idle (t * 2 + p) f s.path.exps } }

/-- The software shadow set (R133). -/
def State.shadowSet (s : State) (t p : Nat) : ExpSet :=
  ⟨s.rd t (EXP_PORT_SET_CTRL_SET_ID p), s.rd t (EXP_PORT_SET_CTRL_SUB_MASK p), s.rd t (EXP_PORT_SET_EXPOSURE p),
   s.rd t (EXP_PORT_SET_GAIN_RG_GAIN_R p), s.rd t (EXP_PORT_SET_GAIN_RG_GAIN_G p), s.rd t (EXP_PORT_SET_GAIN_B p)⟩

/-- The EXPSET message of a set (R103, R104). -/
def ExpSet.msg (x : ExpSet) (band : Nat) : BcMsg :=
  ⟨true, band, bcFrame 1 (leBytes 1 x.id ++ leBytes 1 x.mask ++ zeros 2 ++ leBytes 4 x.exposure ++ leBytes 2 x.gainR ++
    leBytes 2 x.gainG ++ leBytes 2 x.gainB ++ zeros 2)⟩

/-- A stage of class `k` is done with band `n`: in the cycle of its deadline tick it wins, and the tile flags it (R61). -/
def State.doneLate (s : State) (t k n : Nat) : State :=
  let s := { s with cyc := { s.cyc with done := (t, k, n) :: s.cyc.done } }
  s.setIf (s.inTickCycle && n + s.depth (s.bankOf n) k == s.bandIndex) t BND_TILE_ERR_ABORT_LATE

/-- Band tick `m` is the deadline of stages that have become done in its cycle: their tiles flag it (R61). -/
def State.doneAtTick (s : State) (m : Nat) : State :=
  s.cyc.done.foldl (fun s (t, k, n) => s.setIf (n + s.depth (s.bankOf n) k == m) t BND_TILE_ERR_ABORT_LATE) s

/-- A write of SET_CTRL.COMMIT (R133, R151). -/
def State.commitSet (s : State) (t p : Nat) : State :=
  (s.setF t (EXP_PORT_SET_CTRL_PENDING p)).lateWrite t (EXP_PORT_ERR_LATE_WRITE p)

/-- COMMIT (R133). -/
def execCommit (t : Tile) (p : Port) (s : State) : Answer := onTile s t fun s => s.commitSet t p

/-- Band tick `n` makes at most one hand-over of a port due: the software's before the loop's, with the shadow as it stood before the tick's
cycle (R133, R149, R151). -/
def State.handLatch (s : State) (n t p : Nat) : State :=
  let loop := (s.exp t p).loop
  if s.stood t (EXP_PORT_SET_CTRL_PENDING p) then
    let d := s.began.shadowSet t p
    let s := (s.serve t (EXP_PORT_SET_CTRL_PENDING p)).setIf loop.isSome t (EXP_PORT_ERR_AE_PREEMPTED p)
    s.updExp t p fun x => { x with due := some (d, n, false), loop := none }
  else
    match loop with
    | some e => s.updExp t p fun x => { x with due := some (e, n, true), loop := none }
    | none => s

/-- Sub-stream `u` is flagged NOT_SENT from band `c` on (R135). -/
def unsentFrom (l : List (Nat × Nat × Option Nat)) (u c : Nat) : List (Nat × Nat × Option Nat) :=
  match l.find? fun (v, _, e) => v == u && (e.isNone || e == some c) with
  | some (v, b, e) => if e.isNone then l else (v, b, none) :: l.filter (· != (v, b, e))
  | none => (u, c, none) :: l

/-- The exposure units as a run starts after `n` band ticks of the one before: a set not sent goes on flagging, and the bands since the last
hand-over go on counting (R135, R149). -/
def State.expRun (s : State) (n : Nat) : State :=
  { s with path := { s.path with exps := s.path.exps.map fun (k, x) =>
      (k, { x with lastHand := x.lastHand.map (· - (n : Int)), unsent := (x.unsent.filter (·.2.2.isNone)).map fun (u, _, e) => (u, 0, e) }) } }

/-- A set sent at band `c` ends the flag (R135). -/
def unsentEnd (l : List (Nat × Nat × Option Nat)) (u c : Nat) : List (Nat × Nat × Option Nat) :=
  l.map fun (v, b, e) => if v == u && e.isNone then (v, b, some c) else (v, b, e)

/-- Sub-streams of the set are flagged or cleared of NOT_SENT from band `c` on: those of its SUB_MASK (R135). -/
def State.markSent (s : State) (t p mask c : Nat) (sent : Bool) : State :=
  s.updExp t p fun x =>
    { x with unsent := (onesOf 4 mask).foldl (fun l u => if sent then unsentEnd l u c else unsentFrom l u c) x.unsent }

/-- An EXPSET has been lost with the back channel: treated as not sent (R105, R135). -/
def State.expsetLost (s : State) (t p : Nat) (m : BcMsg) : State :=
  (s.setF t (EXP_PORT_ERR_NOT_SENT p)).markSent t p (byteAt m.body 3) m.band false

/-- The set is taken over at band tick `c` (R134, R135). -/
def State.handOver (s : State) (t p : Nat) (x : ExpSet) (c : Nat) (loop : Bool) : State :=
  if x.id = 0 then s.setF t (EXP_PORT_ERR_SET_ID_INVALID p) else
  let sent := s.bcOn t p && s.portSt t p == 5
  let s := if sent then s.updPort t p fun q => { q with expq := q.expq ++ [x.msg c] } else s.setF t (EXP_PORT_ERR_NOT_SENT p)
  let s := s.markSent t p x.mask c sent
  let s := s.updExp t p fun e =>
    { e with lastHand := some (c : Int), sets := (onesOf 4 x.mask).foldl (fun l u => smInsert (2 * u + bitN loop) x (smErase (2 * u + 1 - bitN loop) l)) e.sets }
  let s := (onesOf 4 x.mask).foldl (fun s u => s.wr t ⟨(EXP_PORT_CUR p).blk, (EXP_PORT_CUR p).off, 8 * u + 7, 8 * u⟩ x.id) s
  let s := (s.wr t (EXP_PORT_LAST_COMMIT_ID p) x.id).wr t (EXP_PORT_LAST_COMMIT_AE p) (bitN loop)
  let s := s.wr64 t (EXP_PORT_COMMIT_BAND_LO p) c
  let s := if loop then s.addWrap t (EXP_PORT_AE_COMMITS p) 1 else s
  s.pip t (8 + p)

/-- EXP_HAND_OVER (R134). -/
def State.expHandOver (s : State) (t p : Nat) : State :=
  match (s.exp t p).due with
  | none => s
  | some (x, c, loop) => (s.updExp t p fun e => { e with due := none }).handOver t p x c loop

/-- EXP_HAND_OVER (R134). -/
def execExpHandOver (t : Tile) (p : Port) (s : State) : Answer := onTile s t fun s => s.expHandOver t p

/-- The messages of a back channel that goes off are lost: those that wait, and the one being sent (R105). Its triggers are not sent (R102). -/
def State.bcLose (s : State) (t p : Nat) : State :=
  let x := s.port t p
  let cut := if x.back.chars.isEmpty then none else x.sending.filter (·.expset)
  let s := s.setIf (!x.back.due.isEmpty) t (FXL_PORT_ERR_TRIG_SUPPRESSED p)
  let s := s.updPort t p fun x => { x with expq := [], cmd := none, sending := none, back := { x.back with chars := [], trig := [], due := [], half := false } }
  (cut.toList ++ x.expq).foldl (fun s m => s.expsetLost t p m) s

/-- The generator starts with the pattern that BC_CTRL names: at a point of it that the spec leaves open (R107; log 205). -/
def State.genStart (s : State) (t p : Nat) : State :=
  let (x, s) := s.fresh
  let n := (prbsTaps (s.rd t (LNK_PORT_BC_CTRL_PRBS p))).1
  s.updBack t p fun b => { b with gen := x % (2 ^ n - 1) + 1, inject := 0 }

/-- A write of BC_CTRL (R75, R105, R107): a lane that is switched off sends nothing. -/
def State.bcCtrl (s : State) (t p v : Nat) : State :=
  let was := s.bcOn t p
  let pat := s.rd t (LNK_PORT_BC_CTRL_PRBS p)
  let s := s.setWord t (LNK_PORT_BC_CTRL p).blk (LNK_PORT_BC_CTRL p).off (v &&& 0x5F)
  let s := if was && !s.bcOn t p then s.bcLose t p else s
  let on := s.is t (LNK_PORT_BC_CTRL_ENABLE p)
  let s := if on && !s.bcOn t p && (was || pat != s.rd t (LNK_PORT_BC_CTRL_PRBS p) || (s.port t p).back.gen == 0) then s.genStart t p else s
  let s := if on then s else s.updBack t p fun x => { x with out := none, rd := false, gen := 0 }
  if v.testBit 5 then s.inject t p else s

/-- BC_DISABLE (R105). -/
def execBcDisable (t : Tile) (p : Port) (v : BitVec 32) (s : State) : Answer := onTile s t fun s => s.bcCtrl t p v.toNat

/-- A write of AE_EN = 0 (R151). -/
def State.aeDisable (s : State) (t p : Nat) : State :=
  (s.clrF t (EXP_PORT_AE_CTRL_AE_EN p)).updExp t p fun x => { x with loop := none }

/-- AE_DISABLE (R151). -/
def execAeDisable (t : Tile) (p : Port) (s : State) : Answer := onTile s t fun s => s.aeDisable t p

/-! Statistics (R136 to R141). -/

/-- Window and zones of a sub-stream in band `n`: X0, W and Z (R138, R140). -/
def State.statWin (s : State) (n t p u : Nat) : Nat × Nat × Nat :=
  let w := s.rdN n t (EXP_PORT_SUB_WIN_W p u)
  let z := s.rdN n t (EXP_PORT_SUB_STAT_CTRL_ZONES p u)
  if w = 0 then (0, s.rdN n t (ING_PORT_SUB_CFG_WIDTH p u), z) else (s.rdN n t (EXP_PORT_SUB_WIN_X0 p u), w, z)

/-- The window is lawful (R138); ZONES holds 1 to 64 (R140, R153). -/
def State.statOk (s : State) (n t p u : Nat) : Bool :=
  let (x0, w, z) := s.statWin n t p u
  decide (x0 + w ≤ s.rdN n t (ING_PORT_SUB_CFG_WIDTH p u)) && decide (z ≤ w) && decide (1 ≤ z) && decide (z ≤ 64)

/-- First column of zone `z` of `Z`, from the window's start (R140). -/
def zoneEdge (w zs z : Nat) : Nat := z * w / zs

/-- Counts of the 256 bins with the samples of a line added (R139). -/
def histAdd (h : List Nat) (l : List Nat) : List Nat := l.foldl (fun h x => setAt h (x / 65536) (h.getD (x / 65536) 0 + 1)) h

/-- Sums of the zones with the samples of a line's window added (R140). -/
def zoneAdd (w : Nat) (zs : List Nat) (l : List Nat) : List Nat :=
  zs.zipIdx.map fun (a, z) =>
    a + sumN ((l.drop (zoneEdge w zs.length z)).take (zoneEdge w zs.length (z + 1) - zoneEdge w zs.length z))

/-- A corrected line of band `n` enters the statistics of its sub-stream (R137 to R141); a band already released takes none. -/
def State.statLine (s : State) (n : Nat) (l : CorLine) : State :=
  let t := l.sub / 8
  let p := l.sub / 4 % 2
  let u := l.sub % 4
  let ctrl := s.rdN n t (EXP_PORT_SUB_STAT_CTRL p u)
  if ctrl % 4 = 0 ∨ n < smGet 0 t s.path.statNext then s
  else if !s.statOk n t p u then s.setF t (EXP_PORT_ERR_CFG_INVALID p)
  else
    let (x0, w, z) := s.statWin n t p u
    let src := (if ctrl.testBit 2 then l.raw else l.planes).map fun pl => (pl.drop x0).take w
    let new : StatBand := ⟨l.sub, n, 0, l.a, l.expset, false, false, src.map fun _ => List.replicate 256 0, src.map fun _ => List.replicate z 0, false⟩
    let old := (s.path.stats.find? fun b => b.sub == l.sub && b.n == n).getD new
    let b := { old with
      lines := old.lines + 1, last := Nat.max old.last l.a, tag := if old.last ≤ l.a then l.expset else old.tag,
      mixed := old.mixed || l.mixed || old.tag != l.expset, sat := old.sat || l.sat,
      hist := (old.hist.zip src).map fun (h, x) => histAdd h x, zones := (old.zones.zip src).map fun (a, x) => zoneAdd w a x }
    { s with path := { s.path with stats := s.path.stats.filter (fun b => !(b.sub == l.sub && b.n == n)) ++ [b] } }

/-- STATISTICS_COMPLETE: the oldest band of the sub-stream that still gathers is complete (R141); no flag in the cycle of its deadline (R151). -/
def State.statComplete (s : State) (sub : Nat) : State :=
  match s.path.stats.find? fun b => b.sub == sub && !b.complete with
  | none => s
  | some b =>
    { s with path := { s.path with stats := s.path.stats.map fun x => if x.sub == sub && x.n == b.n then { x with complete := true } else x } }

/-- The statistics of a band that are not complete at their deadline are discarded, and the miss is counted (R58, R141). -/
def State.statDrop (s : State) (b : StatBand) : State :=
  (((s.addSat (b.sub / 8) (EXP_PORT_SUB_DROPPED (b.sub / 4 % 2) (b.sub % 4)) 1).addSat (b.sub / 8) (BND_MISS 1) 1).pip (b.sub / 8) 6)

/-- The last included line of the oldest band that still gathers has left correction: the band takes no more lines, and none of its lines
stands in staging or in the pipeline. -/
def State.statLast (s : State) (sub : Nat) : Bool :=
  match s.path.stats.find? fun b => b.sub == sub && !b.complete with
  | none => false
  | some b =>
    match s.band b.n with
    | none => true
    | some x =>
      let last := x.line0 + x.pos.length
      (x.closed || x.pos.length == x.size) &&
        !(smGet SubState.idle sub s.path.subs).staged.any (fun l => decide (l.a < last)) &&
        !(smGet [] (sub / 4) s.path.pipe).any (fun x => x.sub == sub && decide (x.line.a < last))

/-- STATISTICS_COMPLETE (R141). -/
def execStatisticsComplete (t : Tile) (p : Port) (sub : Sub) (s : State) : Answer :=
  whenEv s (s.fit t && s.locked t .sys && s.statLast (t.val * 8 + p.val * 4 + sub.val)) fun s => s.statComplete (t.val * 8 + p.val * 4 + sub.val)

/-! The statistics record (R142 to R145). -/

/-- A set not sent flags band `n` of sub-stream `u` (R135). -/
def ExpPort.notSent (x : ExpPort) (u n : Nat) : Bool :=
  x.unsent.any fun (v, b, e) => v == u && decide (b ≤ n) && (match e with | some c => decide (n < c) | none => true)

/-- The commanded set of sub-stream `u` with its origin. -/
def ExpPort.cmdSet (x : ExpPort) (u : Nat) : Option (ExpSet × Bool) :=
  match smGet none (2 * u) (x.sets.map fun (k, v) => (k, some v)) with
  | some e => some (e, false)
  | none => (smGet none (2 * u + 1) (x.sets.map fun (k, v) => (k, some v))).map (·, true)

/-- The average of zone `z` over the included lines (R140). -/
def zoneAvg (w lines : Nat) (zs : List Nat) (z : Nat) : Nat :=
  (satU 24 (roundDiv (zs.getD z 0) ((zoneEdge w zs.length (z + 1) - zoneEdge w zs.length z) * lines))).toNat

/-- FLAGS of a statistics record (R144). -/
def State.statFlags (s : State) (b : StatBand) (x : Band) : Nat :=
  let t := b.sub / 8
  let p := b.sub / 4 % 2
  let u := b.sub % 4
  bitN (x.steps != s.tim.tb1Steps) + 2 * bitN b.mixed + 4 * bitN b.sat + 8 * bitN (decide (b.lines < x.pos.length)) + 16 * bitN x.short +
    32 * bitN ((s.exp t p).notSent u b.n) + 64 * bitN (((s.exp t p).cmdSet u).any (·.2))

/-- A statistics record (R142, R143): KIND, PLANE, zone count and payload. -/
def State.statRecord (s : State) (b : StatBand) (x : Band) (alive kind plane zn : Nat) (pay : Bytes) : Bytes :=
  let t := b.sub / 8
  let p := b.sub / 4 % 2
  let u := b.sub % 4
  let (x0, w, _) := s.statWin b.n t p u
  withCrc (leBytes 1 0x04 ++ leBytes 1 1 ++ leBytes 1 s.clk.unit ++ leBytes 1 alive ++ leBytes 1 kind ++ leBytes 1 b.sub ++
    leBytes 2 (s.statFlags b x) ++ leBytes 8 b.n ++ leBytes 1 b.tag ++ leBytes 1 plane ++ leBytes 2 b.lines ++ leBytes 2 x0 ++
    leBytes 2 (w - 1) ++ leBytes 8 (uNat 64 x.start) ++ leBytes 8 x.tb1 ++ leBytes 4 x.job ++ leBytes 1 zn ++
    leBytes 1 (s.rdN b.n t (EXP_PORT_SUB_STAT_CTRL_SRC p u)) ++ zeros 2 ++ pay)

/-- A record goes to its queue; one that the queue cannot take is lost (R145). -/
def State.statEmit (s : State) (t p u : Nat) (rel : Option (Nat × Nat)) (mk : Nat → Bytes) : State :=
  let al := smGet 0 t s.path.statAlive
  let s := { s with path := { s.path with statAlive := smSet 0 t ((al + 1) % 256) s.path.statAlive } }
  let (ok, s) := s.commit t (s.rd t EXP_CTRL_QUEUE) 5 (itemOf (mk al) rel)
  if ok then s else s.addSat t (EXP_PORT_SUB_DROPPED p u) 1

/-- The records of one sub-stream and band (R143, R145). -/
def State.statRelease1 (s : State) (b : StatBand) (x : Band) (rel : Option (Nat × Nat)) : State :=
  let t := b.sub / 8
  let p := b.sub / 4 % 2
  let u := b.sub % 4
  let (_, w, z) := s.statWin b.n t p u
  let s := if b.mixed then s.addSat t (EXP_PORT_SUB_MIXED p u) 1 else s
  let s := (s.wr t (EXP_PORT_SUB_LAST_TAG_ID p u) b.tag).wr t (EXP_PORT_SUB_LAST_TAG_MIXED p u) (bitN b.mixed)
  let s := if s.rdN b.n t (EXP_PORT_SUB_STAT_CTRL_HIST_EN p u) = 0 then s else
    b.hist.zipIdx.foldl (fun s (h, k) => s.statEmit t p u rel fun al => s.statRecord b x al 0 k 0 (h.flatMap (leBytes 3))) s
  if s.rdN b.n t (EXP_PORT_SUB_STAT_CTRL_ZONE_EN p u) = 0 then s else
    let plane (k : Nat) : Bytes :=
      match b.zones[k]? with
      | some zs => (List.range 64).flatMap fun i => leBytes 3 (if i < z then zoneAvg w b.lines zs i else 0)
      | none => zeros 192
    s.statEmit t p u rel fun al => s.statRecord b x al 1 0xFF z (plane 0 ++ plane 1 ++ plane 2)

/-! The automatic loop (R146 to R149). -/

/-- The statistics are of an RGB format. -/
def StatBand.rgb (b : StatBand) : Bool := decide (1 < b.zones.length)

/-- The plane the loop measures: G of an RGB format, plane 0 of a monochrome one (R147). -/
def StatBand.green (b : StatBand) : Nat := bitN b.rgb

/-- The mean of zone averages over the zones of a mask and over sub-streams, in the plane `k` of each; a free value where no zone is selected
(log 44). -/
def State.zoneMean (s : State) (t p zmask : Nat) (k : StatBand → Nat) (bs : List StatBand) : Nat × State :=
  let vs := bs.flatMap fun b =>
    let (_, w, z) := s.statWin b.n t p (b.sub % 4)
    ((onesOf 64 zmask).filter (· < z)).map fun i => zoneAvg w b.lines (b.zones.getD (k b) []) i
  if vs.isEmpty then
    let (f, s) := s.fresh
    (f % 2 ^ 24, s)
  else ((roundDiv (sumN vs) vs.length).toNat, s)

/-- Clamp with a flag where it acts. -/
def clampFlag (lo hi x : Nat) : Nat × Bool := if x < lo then (lo, true) else if hi < x then (hi, true) else (x, false)

/-- The ratio of R147 and R148 for a mean `m` against its target `tgt`. -/
def aeRatio (m tgt tol step : Nat) : Nat :=
  if m = 0 then 4096 + step
  else if ((m : Int) - tgt).natAbs * 4096 ≤ tgt * tol then 4096
  else (clampI (4096 - step) (4096 + step) (roundDiv (tgt * 4096 : Nat) m)).toNat

/-- The gain of R148, with its clamp flag. -/
def aeGain (g mG mX tol step lo hi : Nat) : Nat × Bool := clampFlag lo hi ((g * aeRatio mX mG tol step + 2048) / 4096)

/-- The loop acts on band `k` of a port with the commanded set `x` (R147 to R149); `n` is the present band tick. White balance looks at the RGB
sub-streams alone (R148). -/
def State.aeAct (s : State) (t p n : Nat) (x : ExpSet) (bs : List StatBand) : State :=
  let rgb := bs.filter (·.rgb)
  let (m, s) := s.zoneMean t p (s.rd64 t (EXP_PORT_AE_ZONES_LO p)) (·.green) bs
  let s := s.wr t (EXP_PORT_AE_MEAN p) m
  let top := sumN (bs.map fun b => (b.hist.getD b.green []).getD 255 0)
  let all := sumN (bs.map fun b => sumN (b.hist.getD b.green []))
  let step := s.rd t (EXP_PORT_AE_CTRL_STEP p)
  let tol := s.rd t (EXP_PORT_AE_TOL p)
  let hot := decide (s.rd t (EXP_PORT_AE_SAT_SAT_LIMIT p) * all < top * 65536)
  let s := s.setIf hot t (EXP_PORT_AE_STATUS_SAT p)
  let r := if hot then 4096 - step else aeRatio m (s.rd t (EXP_PORT_AE_TARGET p)) tol step
  let (e, lim) := clampFlag (s.rd t (EXP_PORT_AE_EXP_MIN p)) (s.rd t (EXP_PORT_AE_EXP_MAX p)) ((x.exposure * r + 2048) / 4096)
  let s := s.setIf lim t (EXP_PORT_AE_STATUS_LIMIT_EXP p)
  let (gr, gb, s) :=
    if !rgb.isEmpty && s.is t (EXP_PORT_AE_CTRL_WB_EN p) then
      let wz := s.rd64 t (EXP_PORT_WB_ZONES_LO p)
      let (mr, s) := s.zoneMean t p wz (fun _ => 0) rgb
      let (mg, s) := s.zoneMean t p wz (fun _ => 1) rgb
      let (mb, s) := s.zoneMean t p wz (fun _ => 2) rgb
      let lo := s.rd t (EXP_PORT_AE_GAIN_LIM_GAIN_MIN p)
      let hi := s.rd t (EXP_PORT_AE_GAIN_LIM_GAIN_MAX p)
      let (gr, l1) := aeGain x.gainR mg mr tol step lo hi
      let (gb, l2) := aeGain x.gainB mg mb tol step lo hi
      (gr, gb, s.setIf (l1 || l2) t (EXP_PORT_AE_STATUS_LIMIT_GAIN p))
    else (x.gainR, x.gainB, s)
  let early := match (s.exp t p).lastHand with
    | some h => decide ((n : Int) + 1 < h + s.rd t (EXP_PORT_AE_CTRL_INTERVAL p))
    | none => false
  if (e == x.exposure && gr == x.gainR && gb == x.gainB) || early then s else
  let id := s.rd t (EXP_PORT_LAST_COMMIT_ID p)
  let y : ExpSet := ⟨if 255 ≤ id then 1 else id + 1, s.rd t (EXP_PORT_AE_CTRL_SUB_MASK p), e, gr, x.gainG, gb⟩
  s.updExp t p fun q => { q with loop := some y }

/-- The loop evaluates band `k` at band tick `n` (R146). The set of reference is the commanded set of the lowest sub-stream of SUB_MASK
(log 45). -/
def State.aeEval (s : State) (t p n : Nat) (x : Band) (bs : List StatBand) : State :=
  if !s.is t (EXP_PORT_AE_CTRL_AE_EN p) then s else
  let us := onesOf 4 (s.rd t (EXP_PORT_AE_CTRL_SUB_MASK p))
  let mine := bs.filter fun b => b.sub / 4 == t * 2 + p && us.contains (b.sub % 4)
  let ok := !us.isEmpty && !x.short && us.all fun u =>
    mine.any fun b => b.sub % 4 == u && !b.mixed && s.rdN b.n t (EXP_PORT_SUB_STAT_CTRL p u) % 4 == 3 &&
      ((s.exp t p).cmdSet u).any fun (e, _) => e.id == b.tag
  let s := s.wr t (EXP_PORT_AE_STATUS_WAITING p) (bitN !ok)
  match ok, (s.exp t p).cmdSet (us.headD 0) with
  | true, some (e, _) => s.aeAct t p n e mine
  | _, _ => s

/-- Zone averages of band `k` as filter samples; a hold sample where the band has none (R409, R410). -/
def State.firZones (s : State) (k t : Nat) (done : List StatBand) : State :=
  (List.range 16).foldl (fun s f =>
    if s.firSrc t f != 2 then s else
    let u := s.rd t (FIR_CH_CFG_SUB f)
    match (done.find? fun b => b.sub == t * 8 + u).bind fun b => (b.zones[s.rd t (FIR_CH_CFG_PLANE f)]?).map fun zs => (b, zs) with
    | some (b, zs) => s.firPush t f ((zoneAvg (s.statWin k t (u / 4) (u % 4)).2.1 b.lines zs (s.rd t (FIR_CH_CFG_ZONE f))) / 2 : Nat)
    | none => s.firHold t f) s

/-- The statistics of band `k` of a tile are due at the present band tick: complete ones are released, others discarded, and the loops
evaluate the band (R141, R145, R146). -/
def State.statRelease (s : State) (t : Nat) : State :=
  let k := smGet 0 t s.path.statNext
  let n := s.bandIndex
  let s := { s with path := { s.path with statNext := smSet 0 t (k + 1) s.path.statNext } }
  let (due, rest) := s.path.stats.partition fun b => b.sub / 8 == t && b.n == k
  let s := { s with path := { s.path with stats := rest } }
  match s.band k with
  | none => s
  | some x =>
    let due := sortBy (fun a b => decide (a.sub ≤ b.sub)) due
    let done := due.filter (·.complete)
    let s := due.foldl (fun s b =>
      if b.complete then s.statRelease1 b x (some (n, s.tb1)) else s.statDrop b) s
    ((s.aeEval t 0 n x done).aeEval t 1 n x done).firZones k t done

/-- Band tick k + D1 of the next band of the tile has been issued (R141). -/
def State.statDue (s : State) (t : Nat) : Bool :=
  let k := smGet 0 t s.path.statNext
  s.clk.ticked && decide (k + s.depth (s.bankOf k) 1 ≤ s.bandIndex)

/-- STATISTICS_RELEASE (R141). -/
def execStatisticsRelease (t : Tile) (s : State) : Answer := whenEv s (s.fit t && s.locked t .sys && s.statDue t) fun s => s.statRelease t

/-- EXP_CLR (R153). -/
def State.expClr (s : State) (t : Nat) : State :=
  [0, 1].foldl (fun s p => [0, 1, 2, 3].foldl (fun s u =>
    (s.clrCount t (EXP_PORT_SUB_MIXED p u)).clrCount t (EXP_PORT_SUB_DROPPED p u)) (s.clrCount t (EXP_PORT_AE_COMMITS p))) s

/-- EXP_CLR_COUNTERS (R153). -/
def execExpClrCounters (t : Tile) (s : State) : Answer := onTile s t fun s => s.expClr t

end Sys2Proof.Machine
end

