-- ==== Sys2Proof/Machine/Queues.lean ====
section
/-! DEFINITION. Queues (R387 to R398, R407) and check-value channels (R399 to R408). -/

namespace Sys2Proof.Machine

/-! Check-value channels. -/

/-- Channel 0 in the forerunner's mode (R403). -/
def State.chkLegacy (s : State) (t n : Nat) : Bool := n == 0 && s.is t (CHK_CH_CFG_LEGACY n)

/-- The channel works on words: MODE 0, 2 or 3, or LEGACY (R401, R403). -/
def State.chkWordMode (s : State) (t n : Nat) : Bool := s.chkLegacy t n || s.rd t (CHK_CH_CFG_MODE n) != 1

/-- A bit of CHK_INT_STATUS and the pip of its kind (R401, R402). -/
def State.chkFlag (s : State) (t n src : Nat) : State :=
  let f := if n < 32 then CHK_INT_STATUS_LO else CHK_INT_STATUS_HI
  (s.setBits t f (2 ^ (n % 32))).pip t src

/-- A mismatch of a result with its expected value (R401). -/
def State.chkMismatch (s : State) (t n : Nat) : State :=
  ((s.setF t (CHK_CH_STATUS_MISMATCH n)).addSat t (CHK_CH_COUNTS_MISMATCHES n) 1).chkFlag t n 216

/-- The alive check of a value (R402). -/
def State.chkAlive (s : State) (t n v : Nat) : State :=
  let e := (s.rd t (CHK_CH_STATUS_ALIVE_LAST n) + 1) % 256
  let bad (f : Fld) := ((s.setF t f).addSat t (CHK_CH_COUNTS_ALIVE_ERRS n) 1).chkFlag t n 217
  let s := if !s.is t (CHK_CH_STATUS_ALIVE_VALID n) || v == e then s
    else if v == (e + 255) % 256 then bad (CHK_CH_STATUS_REPEAT n)
    else bad (CHK_CH_STATUS_GAP n)
  (s.setF t (CHK_CH_STATUS_ALIVE_VALID n)).wr t (CHK_CH_STATUS_ALIVE_LAST n) v

/-- The CRC definition a channel has selected (R399). -/
def State.chkKind (s : State) (t n : Nat) : CrcKind := crcKind (s.rd t (CHK_CH_CFG_SEL n))

/-- A TAP channel checks an item popped from its queue (R401, R402), under the CFG that stood before the
cycle (R405). Of an item too short to hold the alive counter the value is free (log 97). -/
def State.chkTap (s : State) (t n q : Nat) (i : QItem) : State :=
  let old := s.began
  if old.is t (CHK_CH_CFG_EN n) && !old.chkWordMode t n && old.rd t (CHK_CH_CFG_QUEUE n) == q then
    let bs := bytesOfWords i.words
    let k := old.chkKind t n
    let r := crcFeed k k.init (bs.take (bs.length - 4))
    let res := crcResult k r
    let s := (s.wr t (CHK_CH_VALUE n) r).wr t (CHK_CH_RESULT n) res
    let s := if res == i.words.getLastD 0 % 2 ^ k.width then s else s.chkMismatch t n
    if old.is t (CHK_CH_CFG_ALIVE_EN n) then
      let o := old.rd t (CHK_CH_CFG_ALIVE_OFS n)
      if o < bs.length then s.chkAlive t n (byteAt bs o)
      else
        let (v, s) := s.fresh
        s.chkAlive t n (v % 256)
    else s
  else s

/-- Every TAP channel of a tile sees an item popped from queue `q`. -/
def State.chkTaps (s : State) (t q : Nat) (i : QItem) : State :=
  (List.range 64).foldl (fun s n => s.chkTap t n q i) s

/-- A pop by any consumer, with the TAP checks of the item (R392, R401). -/
def State.popTapped (s : State) (t q : Nat) : Option (QItem × State) :=
  (s.popItem t q).map fun (i, s) => (i, s.chkTaps t q i)

/-- The bytes fed to a channel in this cycle (R405). -/
def State.chkFed (s : State) (t n : Nat) : Bytes := smGet [] (t * 64 + n) s.cyc.fed

/-- DATA feeds its low BYTES bytes (R401, R403). -/
def State.chkData (s : State) (t n v : Nat) : State :=
  if s.is t (CHK_CH_CFG_EN n) && s.chkWordMode t n then
    let b := s.rd t (CHK_CH_CFG_BYTES n)
    let bs := leBytes (if b = 0 then 4 else b) v
    let s := { s with cyc := { s.cyc with fed := smUpd [] (t * 64 + n) (· ++ bs) s.cyc.fed } }
    s.wr t (CHK_CH_VALUE n) (crcFeed (s.chkKind t n) (s.rd t (CHK_CH_VALUE n)) bs)
  else s

/-- VALUE is loaded; data of the same cycle is fed behind it (R405). -/
def State.chkLoad (s : State) (t n v : Nat) : State := s.wr t (CHK_CH_VALUE n) (crcFeed (s.chkKind t n) v (s.chkFed t n))

/-- START loads init, ahead of data of the same cycle; in LEGACY mode it has no effect (R401, R403, R405). -/
def State.chkStart (s : State) (t n : Nat) : State :=
  if s.is t (CHK_CH_CFG_EN n) && !s.chkLegacy t n then s.chkLoad t n (s.chkKind t n).init else s

/-- Data that waits in this cycle for a channel is fed first (R405). -/
def State.chkDataFirst (s : State) (t n : Nat) : State :=
  s.waitingNow.foldl (fun s i =>
    match i with
    | .chkData u k v => if u.val = t ∧ k.val = n then (s.chkData t n v.toNat).takeEarly i else s
    | _ => s) s

/-- FINISH makes RESULT, behind data of the same cycle, and compares it under CMP_EN (R401, R403, R405). -/
def State.chkFinish (s : State) (t n : Nat) : State :=
  if s.is t (CHK_CH_CFG_EN n) && s.chkWordMode t n && !s.chkLegacy t n then
    let s := s.chkDataFirst t n
    let r := crcResult (s.chkKind t n) (s.rd t (CHK_CH_VALUE n))
    let s := s.wr t (CHK_CH_RESULT n) r
    if s.is t (CHK_CH_CFG_CMP_EN n) && r != s.rd t (CHK_CH_EXPECT n) then s.chkMismatch t n else s
  else s

/-- The command CHK_DATA with its operands. -/
def isChkData (t : Tile) (n : Fin 64) (v : BitVec 32) : Instr → Bool
  | .chkData u k x => u == t && k == n && x == v
  | _ => false

/-- CHK_DATA (R401, R405). -/
def execChkData (t : Tile) (n : Fin 64) (v : BitVec 32) (s : State) : Answer :=
  if s.tookEarly (isChkData t n v) then finish s (s.dropEarly (isChkData t n v)) else onTile s t fun s => s.chkData t n v.toNat

/-- CHK_START (R401). -/
def execChkStart (t : Tile) (n : Fin 64) (s : State) : Answer := onTile s t fun s => s.chkStart t n

/-- CHK_FINISH (R401). -/
def execChkFinish (t : Tile) (n : Fin 64) (s : State) : Answer := onTile s t fun s => s.chkFinish t n

/-- ALIVE_RESET: the next value is taken without a check (R402). -/
def State.aliveReset (s : State) (t n : Nat) : State := s.clrF t (CHK_CH_STATUS_ALIVE_VALID n)

/-- ALIVE_RESET (R402). -/
def execAliveReset (t : Tile) (n : Fin 64) (s : State) : Answer := onTile s t fun s => s.aliveReset t n

/-- ALIVE_CHECK in WORD mode (R402). -/
def State.aliveCheck (s : State) (t n v : Nat) : State :=
  if s.is t (CHK_CH_CFG_EN n) && s.is t (CHK_CH_CFG_ALIVE_EN n) && s.chkWordMode t n then s.chkAlive t n v else s

/-- ALIVE_CHECK (R402). -/
def execAliveCheck (t : Tile) (n : Fin 64) (v : BitVec 8) (s : State) : Answer := onTile s t fun s => s.aliveCheck t n v.toNat

/-! Queues. -/

/-- QUE_POP_BUF takes the words of an item; the words beyond read 0 (R392). -/
def State.fillPopBuf (s : State) (t : Nat) (ws : List Nat) : State :=
  (List.range 256).foldl (fun s i => s.wr t (QUE_POP_BUF i) (ws.getD i 0)) s

/-- A software pop (R392). -/
def State.softPop (s : State) (t q : Nat) : State :=
  let s := s.wr t QUE_POP_STATUS 0
  let s := s.setF t QUE_POP_STATUS_DONE
  if s.qOwned t q then
    (((s.setF t QUE_POP_STATUS_EMPTY).setF t QUE_POP_STATUS_OWNED).setF t QUE_ERR_OWNED).fillPopBuf t []
  else
    match s.popTapped t q with
    | none => (s.setF t QUE_POP_STATUS_EMPTY).fillPopBuf t []
    | some (i, s) => (s.wr t QUE_POP_STATUS_WORDS i.words.length).fillPopBuf t i.words

/-- A write of QUE_POP_CTRL (R392). -/
def State.popCtrl (s : State) (t v : Nat) : State :=
  let s := s.wr t QUE_POP_CTRL_QUEUE (v % 256)
  if v.testBit 8 then s.softPop t (v % 256) else s

/-- POP: a write of QUE_POP_CTRL (R392). -/
def execPop (t : Tile) (v : BitVec 32) (s : State) : Answer := onTile s t fun s => s.popCtrl t v.toNat

/-- A software push of the words in QUE_PUSH_BUF as producer 0; it is not DONE before the next cycle (R393). -/
def State.softPush (s : State) (t : Nat) : State :=
  if s.is t QUE_PUSH_STATUS_DONE && !s.cyc.pushed.contains t then
    let s := { s with cyc := { s.cyc with pushed := t :: s.cyc.pushed } }
    let ws := (List.range (s.rd t QUE_PUSH_CTRL_WORDS)).map fun i => s.rd t (QUE_PUSH_BUF i)
    let (ok, s) := s.commit t (s.rd t QUE_PUSH_CTRL_QUEUE) 0 ⟨ws, none⟩
    (s.wr t QUE_PUSH_STATUS_DONE 1).wr t QUE_PUSH_STATUS_REFUSED (bitN !ok)
  else s.setF t QUE_ERR_PUSH_BUSY

/-- A write of QUE_PUSH_CTRL: WORDS holds 1 to 256 (R393, R407; log 21). -/
def State.pushCtrl (s : State) (t v : Nat) : State :=
  let s := (s.wr t QUE_PUSH_CTRL_QUEUE (v % 256)).wr t QUE_PUSH_CTRL_WORDS (clampN 1 256 (bitsOf v 16 8))
  if v.testBit 24 then s.softPush t else s

/-- PUSH: a write of QUE_PUSH_CTRL (R393). -/
def execPush (t : Tile) (v : BitVec 32) (s : State) : Answer := onTile s t fun s => s.pushCtrl t v.toNat

/-- FLUSHING reads 1 while a producer is poisoned for the queue (R395). -/
def State.flushing (s : State) (t q : Nat) : State :=
  let p := s.que.asm.any fun (k, a) => k / 256 == t && a.queue == q && a.poisoned
  s.wr t (QUE_Q_STATUS_FLUSHING q) (bitN p)

/-- Every committed item of a queue is discarded and its cells are freed; the answer counts the cells. -/
def State.emptyQueue (s : State) (t q : Nat) : Nat × State :=
  let c := sumN ((s.qItems t q).map QItem.cells)
  let s := { s with cyc := { s.cyc with came := smSet [] (t * 256 + q) [] s.cyc.came } }
  (c, (s.setItems t q []).giveCells t c)

/-- The copies of a queue's pointers differ (R396). -/
def ptrDiffer (m : PtrCopies) : Bool := m.headA != m.headB || m.tailA != m.tailB || m.countA != m.countB

/-- The queue is reset by a pointer mismatch in this cycle, before or behind the present command (R398). -/
def State.qReset (s : State) (t q : Nat) : Bool :=
  s.cyc.reset.contains (t * 256 + q) || s.waitingNow.any fun i =>
    match i with
    | .pointerMismatch u k m => u.val == t && k.val == q && ptrDiffer m
    | _ => false

/-- A flush: the queue is emptied and producers with a partial item for it are poisoned (R395); where the queue is reset in the same cycle, the reset
alone is carried out (R398). -/
def State.flushQueue (s : State) (t q : Nat) : State :=
  if s.is t (QUE_Q_STATUS_FLUSHING q) then s.setF t QUE_ERR_FLUSH_BUSY else
  if s.qReset t q then s else
  let (_, s) := s.emptyQueue t q
  let s := { s with cyc := { s.cyc with flushed := (t * 256 + q) :: s.cyc.flushed } }
  let asm := s.que.asm.map fun (k, a) =>
    if k / 256 == t && a.queue == q && a.words.length != 0 then (k, { a with words := [], poisoned := true }) else (k, a)
  { s with que := { s.que with asm := asm } }.flushing t q

/-- QUEUE_FLUSH (R395). -/
def execQueueFlush (t : Tile) (q : Fin 256) (s : State) : Answer := onTile s t fun s => s.flushQueue t q

/-- The empty assembly buffer. -/
def Assembly.idle : Assembly := ⟨0, [], false⟩

/-- Producer `p` gives one word for queue `q`; at END the item is committed (R389). A poisoned producer's words are discarded and
counted up to its END (R395). The answer says whether an item was refused. -/
def State.feed (s : State) (t p q w : Nat) (last : Bool) : Bool × State :=
  let k := t * 256 + p
  let a := smGet Assembly.idle k s.que.asm
  let put (s : State) (a : Assembly) : State := { s with que := { s.que with asm := smSet Assembly.idle k a s.que.asm } }
  if a.poisoned then
    let s := s.addSat t (QUE_Q_POISONED a.queue) 1
    (false, if last then (put s Assembly.idle).flushing t a.queue else s)
  else
    let ws := a.words ++ [w]
    if last then
      let (ok, s) := (put s Assembly.idle).commit t q p ⟨ws, none⟩
      (!ok, s)
    else (false, put s ⟨q, ws, false⟩)

/-- The queue error record, type 0x06 (R397). -/
def errRecord (unit alive tile q flags band tb1 lost cells : Nat) (m : PtrCopies) : Bytes :=
  withCrc (leBytes 1 0x06 ++ leBytes 1 1 ++ leBytes 1 unit ++ leBytes 1 alive ++ leBytes 1 tile ++ leBytes 1 q ++ leBytes 2 flags ++
    leBytes 8 band ++ leBytes 8 tb1 ++ leBytes 4 lost ++ leBytes 4 cells ++ leBytes 2 m.headA.toNat ++ leBytes 2 m.headB.toNat ++
    leBytes 2 m.tailA.toNat ++ leBytes 2 m.tailB.toNat ++ leBytes 2 m.countA.toNat ++ leBytes 2 m.countB.toNat ++ zeros 16)

/-- A pointer mismatch resets the queue and emits an error record (R396, R397). -/
def State.ptrMismatch (s : State) (t q : Nat) (m : PtrCopies) : State :=
  let lost := Nat.max m.countA.toNat m.countB.toNat
  let (cells, s) := s.emptyQueue t q
  let s := { s with cyc := { s.cyc with reset := (t * 256 + q) :: s.cyc.reset } }
  let s := (s.addSat t (QUE_Q_LOST q) lost).setF t QUE_ERR_PTR
  let eq := s.rd t QUE_CTRL_ERR_QUEUE
  let flags := bitN (m.headA != m.headB) * 2 + bitN (m.tailA != m.tailB) * 4 + bitN (m.countA != m.countB) * 8 + bitN (eq == q) * 16
  let al := smGet 0 t s.que.alive6
  let r := errRecord (s.rd 0 CHN_ADDR_ADDR) al t q flags (s.rd64 0 BND_INDEX_LO % 2 ^ 48) s.tb1 lost cells m
  let s := { s with que := { s.que with alive6 := smSet 0 t ((al + 1) % 256) s.que.alive6 } }
  let (ok, s) := s.commit t eq 1 (itemOf r none)
  (if ok then s else s.addSat t QUE_ERRREC_LOST 1).pip t 219

/-- POINTER_MISMATCH: copies that agree are no mismatch (R396). -/
def execPointerMismatch (t : Tile) (q : Fin 256) (m : PtrCopies) (s : State) : Answer :=
  whenEv s (s.fit t && ptrDiffer m) fun s => s.ptrMismatch t q m

/-- Every QUE counter of a tile cleared (R407). -/
def State.queClr (s : State) (t : Nat) : State :=
  (List.range 256).foldl (fun s q => (((s.clrCount t (QUE_Q_PUSHED q)).clrCount t (QUE_Q_REFUSED q)).clrCount t (QUE_Q_POISONED q)).clrCount t (QUE_Q_LOST q))
    (s.clrCount t QUE_ERRREC_LOST)

/-- QUE_CLR_COUNTERS (R407). -/
def execQueClrCounters (t : Tile) (s : State) : Answer := onTile s t fun s => s.queClr t

end Sys2Proof.Machine
end

