-- ==== Sys2Proof/Machine/Net.lean ====
section
/-! DEFINITION. Frames, transmit queues, links, notifications and record senders (R331 to R344, R347, R349, R352, R355, R357 to R359). -/

namespace Sys2Proof.Machine

/-! Frames and headers (R10, R333, R352). -/

/-- A MAC address as a number with its first octet in bits [7:0], in wire order. -/
def macBytes (m : Nat) : Bytes := leBytes 6 m

/-- The one's complement sum of 16-bit words in network order, folded. -/
def onesSum : Bytes → Nat
  | a :: b :: l => a.toNat * 256 + b.toNat + onesSum l
  | [a] => a.toNat * 256
  | [] => 0

/-- A 16-bit one's complement checksum of a sum. -/
def fold16 (x : Nat) : Nat :=
  let y := x % 65536 + x / 65536
  let z := y % 65536 + y / 65536
  65535 - (z % 65536 + z / 65536)

/-- The octets of an IPv6 address held in four registers, first octet in [7:0] of the first. -/
def State.chnIp6 (s : State) : Bytes := [CHN_IPV6_0, CHN_IPV6_1, CHN_IPV6_2, CHN_IPV6_3].flatMap fun f => leBytes 4 (s.rd 0 f)

/-- A UDP datagram over IPv4: TTL 64, DSCP 0, do-not-fragment set, the UDP checksum computed (R352). -/
def udp4 (src dst : Bytes) (sp dp : Nat) (pay : Bytes) : Bytes :=
  let ulen := 8 + pay.length
  let u0 := beBytes 2 sp ++ beBytes 2 dp ++ beBytes 2 ulen
  let c := fold16 (onesSum (src ++ dst) + 17 + ulen + onesSum (u0 ++ zeros 2 ++ pay))
  let udp := u0 ++ beBytes 2 (if c = 0 then 65535 else c) ++ pay
  let h0 : Bytes := [0x45, 0] ++ beBytes 2 (20 + ulen) ++ [0, 0, 0x40, 0, 64, 17]
  h0 ++ beBytes 2 (fold16 (onesSum (h0 ++ zeros 2 ++ src ++ dst))) ++ src ++ dst ++ udp

/-- A UDP datagram over IPv6 (R352): hop limit 64, as the TTL of IPv4 (log 26). -/
def udp6 (src dst : Bytes) (sp dp : Nat) (pay : Bytes) : Bytes :=
  let ulen := 8 + pay.length
  let u0 := beBytes 2 sp ++ beBytes 2 dp ++ beBytes 2 ulen
  let c := fold16 (onesSum (src ++ dst) + 17 + ulen + onesSum (u0 ++ zeros 2 ++ pay))
  let udp := u0 ++ beBytes 2 (if c = 0 then 65535 else c) ++ pay
  [0x60, 0, 0, 0] ++ beBytes 2 ulen ++ [17, 64] ++ src ++ dst ++ udp

/-- The Ethernet header with an optional tag. -/
def ethHead (dst src : Nat) (tag : Option (Nat × Nat)) (etype : Nat) : Bytes :=
  macBytes dst ++ macBytes src ++
    (match tag with
     | some (pcp, vid) => beBytes 2 0x8100 ++ beBytes 2 (pcp * 8192 + vid)
     | none => []) ++ beBytes 2 etype

/-- Padding to the 60 octets before the FCS. -/
def padFrame (f : Bytes) : Bytes := f ++ zeros (60 - f.length)

/-- A frame with its FCS, the CRC-32 of R399 (R332). -/
def withFcs (f : Bytes) : Bytes := f ++ leBytes 4 (crcOf crc32Kind f)

/-- The tag of frames the unit sends in queue `q` of a port (R333). -/
def State.ownTag (s : State) (p q : Nat) : Option (Nat × Nat) :=
  if s.is p ETH_VLAN_TAGGED then some (q, s.rd p ETH_VLAN_VID) else none

/-! Transmit queues (R337). -/

/-- The frames of queue `q` of port `p`, in arrival order. -/
def State.txq (s : State) (p q : Nat) : List TxFrame := smGet [] (p * 8 + q) s.net.tx

/-- The state with a transmit queue set. -/
def State.setTxq (s : State) (p q : Nat) (l : List TxFrame) : State :=
  { s with net := { s.net with tx := smSet [] (p * 8 + q) l s.net.tx } }

/-- The octets a queue holds. -/
def txBytes (l : List TxFrame) : Nat := sumN (l.map fun f => f.bytes.length + 4)

/-- A frame of `n` octets fits a queue: its limit in KiB, and the port's 4 MiB (R337). -/
def State.txRoom (s : State) (p q n : Nat) : Bool :=
  decide (txBytes (s.txq p q) + n + 4 ≤ 1024 * s.rd p (ETH_QLIM q)) &&
    decide (sumN ((List.range 8).map fun k => txBytes (s.txq p k)) + n + 4 ≤ 4194304)

/-- A frame enters a queue. -/
def State.txPut (s : State) (p q : Nat) (f : TxFrame) : State := s.setTxq p q (s.txq p q ++ [f])

/-- A frame of the firmware at its port: it waits where its queue is full (R337). -/
def State.fwPut (s : State) (p q : Nat) (f : TxFrame) : State :=
  if s.net.fwWait.isEmpty && s.txRoom p q f.bytes.length then s.txPut p q f
  else { s with net := { s.net with fwWait := s.net.fwWait ++ [((p, q), f)] } }

/-- A frame of the firmware: one for port B crosses from tile 0 to tile 1, and waits while the link between them is out of service (R26,
R32). -/
def State.fwSend (s : State) (p q : Nat) (b : Bytes) : State :=
  let f : TxFrame := ⟨padFrame b, false, none⟩
  if p ≠ 1 then s.fwPut p q f
  else if s.open_ 0 1 1 && s.net.hopOut.isEmpty then (s.crossed 0 1).fwPut p q f
  else { s with net := { s.net with hopOut := s.net.hopOut ++ [((p, q), f)] } }

/-- Waiting frames of the firmware enter their queues while there is room, `fuel` at most. -/
def State.fwDrain (s : State) : Nat → State
  | 0 => s
  | n + 1 =>
    match s.net.fwWait with
    | [] => s
    | ((p, q), f) :: l =>
      if s.txRoom p q f.bytes.length then ({ s with net := { s.net with fwWait := l } }.txPut p q f).fwDrain n else s

/-- The highest non-empty queue of a port (R337). -/
def State.topQueue (s : State) (p : Nat) : Option Nat := [7, 6, 5, 4, 3, 2, 1, 0].find? fun q => !(s.txq p q).isEmpty

/-- A frame leaves a port. -/
def State.leave (s : State) (p : Nat) (b : Bytes) : State :=
  let s := { s with net := { s.net with lastOut := smSet [] p (withFcs b) s.net.lastOut } }
  s.addWrap p ETH_TX_FRAMES 1

/-! Links (R331, R347, R355). -/

/-- The rate a port may come up at: 0 400G, 1 200G. MODE 2 and 3 try both in turn (R331, R357). -/
def State.ethMode (s : State) (p : Nat) : Nat :=
  match s.rd p ETH_CFG_MODE with
  | 0 => 0
  | 1 => 1
  | _ => smGet 0 p s.net.trying

/-- The link of a port comes up. -/
def State.linkUp (s : State) (p : Nat) (r : Nat) : State :=
  (((s.setF p ETH_STATUS_LINK).wr p ETH_STATUS_SPEED r).setF p ETH_STATUS_ALIGN).notify 0x0008 p 1 r 0

/-- ETH_LINK_UP (R331): an enabled port that is down comes up at the rate its mode tries. -/
def execEthLinkUp (p : EthPort) (rate200 : Bool) (s : State) : Answer :=
  whenEv s (s.locked p .eth && s.is p ETH_CFG_EN && !s.is p ETH_STATUS_LINK && bitN rate200 == s.ethMode p) fun s => s.linkUp p (bitN rate200)

/-- The link of a port goes down: a frame that is leaving is lost (R355). -/
def State.linkDown (s : State) (p : Nat) (inFlight : Bool) : State :=
  let r := s.rd p ETH_STATUS_SPEED
  let s := (s.clrF p ETH_STATUS_LINK).clrF p ETH_STATUS_ALIGN
  let s := if inFlight then
      let s := s.setF p ETH_ERR_LINK_LOST
      match s.topQueue p with
      | some q => s.setTxq p q (s.txq p q).tail
      | none => s
    else s
  s.notify 0x0008 p 0 r 0

/-- ETH_LINK_DOWN (R347, R355). -/
def execEthLinkDown (p : EthPort) (inFlight : Bool) (s : State) : Answer :=
  whenEv s (s.is p ETH_STATUS_LINK) fun s => s.linkDown p inFlight

/-- A MODE 2 port that is down turns to its other rate after 500 ms (R331). -/
def State.modeTry (s : State) (p : Nat) : State :=
  { s with net := { s.net with trying := smUpd 0 p (1 - ·) s.net.trying } }

/-- MODE_TRY (R331). -/
def execModeTry (p : EthPort) (s : State) : Answer :=
  whenEv s (s.is p ETH_CFG_EN && !s.is p ETH_STATUS_LINK && decide (2 ≤ s.rd p ETH_CFG_MODE)) fun s => s.modeTry p

/-! LCP messages and notifications (R339, R344). -/

/-- An LCP message that the unit sends: DST 0, TTL 0 (R339). -/
def State.lcpMsg (s : State) (op session flags seq status : Nat) (pay : Bytes) : Bytes :=
  withCrc (leBytes 1 1 ++ leBytes 1 op ++ zeros 2 ++ leBytes 1 session ++ leBytes 1 flags ++ leBytes 2 seq ++ leBytes 2 pay.length ++
    leBytes 1 status ++ leBytes 1 (s.rd 0 CHN_ADDR_ADDR) ++ pay)

/-- An LCP message to a source, as a layer 2 frame or a UDP datagram, in queue CHN_LCP_CTRL.QUEUE of a port (R337, R339). -/
def State.lcpSend (s : State) (p : Nat) (src : LcpSource) (mac : Nat) (m : Bytes) : State :=
  let q := s.rd 0 CHN_LCP_CTRL_QUEUE
  let sp := s.rd 0 CHN_LCP_CTRL_UDP_PORT
  let b := match src with
    | .l2 a => ethHead a.toNat s.id.mac (s.ownTag p q) 0x88B5 ++ m
    | .udp4 ip port => ethHead mac s.id.mac (s.ownTag p q) 0x0800 ++ udp4 (leBytes 4 (s.rd 0 CHN_IPV4)) (leBytes 4 ip.toNat) sp port.toNat m
    | .udp6 ip port => ethHead mac s.id.mac (s.ownTag p q) 0x86DD ++ udp6 s.chnIp6 (leBytes 16 ip.toNat) sp port.toNat m
  s.fwSend p q b

/-- The notification at the head is sent to the subscriber (R344). -/
def State.notifySend (s : State) : State :=
  match s.net.notices, s.net.subscriber with
  | n :: _, some k =>
    match s.net.sessions.find? (·.1 == k) with
    | some (_, ss) =>
      let seq := if s.net.noticeSends = 0 then (s.net.noticeSeq + 1) % 65536 else s.net.noticeSeq
      let s := { s with net := { s.net with noticeSends := s.net.noticeSends + 1, noticeSeq := seq } }
      (s.addWrap 0 CHN_NOTIFY_SENT 1).lcpSend ss.port ss.src ss.mac (s.lcpMsg 0x30 k 0 seq 0 n.payload)
    | none => s
  | _, _ => s

/-- The notification at the head is done with; where some were lost, NOTIFY_LOST is queued in the space (R344). -/
def State.noticePop (s : State) : State :=
  let lost := s.net.noticeLost
  let s := { s with net := { s.net with notices := s.net.notices.tail, noticeSends := 0, noticeLost := 0 } }
  if lost = 0 then s else s.notify 0x000A lost 0 0 0

/-- NOTIFY: the first send of the notification at the head (R344). -/
def execLcpNotify (s : State) : Answer := whenEv s (s.locked 0 .aux && s.net.noticeSends == 0) State.notifySend

/-- NOTIFY_RESEND: the 10 ms timer expires without a NOTIFY_ACK; after 8 sends the unit gives up (R344). -/
def State.notifyAgain (s : State) : State :=
  if 8 ≤ s.net.noticeSends then (s.addSat 0 CHN_NOTIFY_GIVEUP 1).noticePop else s.notifySend

/-- A NOTIFY_ACK for the notification that has been sent waits in this cycle (R344, R355). -/
def State.ackAhead (s : State) : Bool :=
  s.pending.any fun i =>
    match i with
    | .lcpNotifyAck _ b => b.length == 2 && leAt b 0 2 == s.net.noticeSeq
    | _ => false

/-- NOTIFY_RESEND: a NOTIFY_ACK of the same cycle wins (R344, R355). -/
def execLcpNotifyResend (s : State) : Answer :=
  whenEv s (s.locked 0 .aux && s.net.noticeSends != 0 && !s.ackAhead) State.notifyAgain

/-! Destinations, record senders and TIMED datagrams (R349, R352). -/

/-- The ports a destination entry names (R359). -/
def State.dstPorts (s : State) (d : Nat) : List Nat :=
  match s.rd 0 (OUT_DST_PORT_ETH d) with
  | 1 => [1]
  | 2 => [0, 1]
  | _ => [0]

/-- The destination that sender `r` names is enabled (R352). -/
def State.recDst (s : State) (r : Nat) : Bool := s.is 0 (OUT_DST_PORT_EN (s.rd 0 (OUT_REC_CTRL_DEST r)))

/-- The ports by which a TIMED datagram of sender `r` leaves: none for a destination that is not enabled (R349, R352). -/
def State.launchPorts (s : State) (r : Nat) : List Nat := if s.recDst r then s.dstPorts (s.rd 0 (OUT_REC_CTRL_DEST r)) else []

/-- Launch times that hold port `p`, as a base and a time on it: those of fired FRAME slots, and those of TIMED datagrams from 2,000 ns before (R325,
R349). -/
def State.reserved (s : State) (p : Nat) : List (Nat × Nat) :=
  ((s.tim.launches.filter (·.port == p)).map fun l => (l.base, l.at_)) ++
    (s.net.timed.filter fun d => (s.launchPorts d.sender).contains p && decide (d.time ≤ s.tb1 + 2000)).map fun d => (1, d.time)

/-- A launch reservation holds the port (R325). -/
def State.portHeld (s : State) (p : Nat) : Bool := !(s.reserved p).isEmpty

/-- The ps that `n` octets take on a port with preamble and FCS (R331). -/
def State.wirePs (s : State) (p n : Nat) : Nat := (n + 12) * (if s.is p ETH_STATUS_SPEED then 40 else 20)

/-- A frame of `n` octets that would not end before the launch time of a reservation does not start (R325). -/
def State.launchBlocks (s : State) (p n : Nat) : Bool :=
  (s.reserved p).any fun (b, x) => decide (x * 1000 ≤ s.base b * 1000 + s.wirePs p n)

/-- A datagram for destination entry `d`, without the FCS, for one port (R352). -/
def State.dstFrame (s : State) (d q : Nat) (pay : Bytes) : Bytes :=
  let mac := s.rd 0 (OUT_DST_MAC_LO d) + 2 ^ 32 * s.rd 0 (OUT_DST_MAC_HI_MAC d)
  let tag := if s.is 0 (OUT_DST_MAC_HI_TAGGED d) then some (q, s.rd 0 (OUT_DST_MAC_HI_VID d)) else none
  let sp := s.rd 0 CHN_SRC_PORT
  let dp := s.rd 0 (OUT_DST_PORT_UDP d)
  if s.is 0 (OUT_DST_MAC_HI_V6 d) then
    ethHead mac s.id.mac tag 0x86DD ++ udp6 s.chnIp6 ([OUT_DST_IP_0 d, OUT_DST_IP_1 d, OUT_DST_IP_2 d, OUT_DST_IP_3 d].flatMap fun f => leBytes 4 (s.rd 0 f)) sp dp pay
  else
    ethHead mac s.id.mac tag 0x0800 ++ udp4 (leBytes 4 (s.rd 0 CHN_IPV4)) (leBytes 4 (s.rd 0 (OUT_DST_IP_0 d))) sp dp pay

/-- Every port of a destination has room for a datagram of `n` payload bytes in queue `q`. -/
def State.dstRoom (s : State) (d q n : Nat) : Bool := (s.dstPorts d).all fun p => s.txRoom p q (n + 66)

/-- A datagram enters queue `q` of each port its destination names. -/
def State.dstPut (s : State) (d q : Nat) (pay : Bytes) : State :=
  (s.dstPorts d).foldl (fun s p => s.txPut p q ⟨padFrame (s.dstFrame d q pay), false, none⟩) s

/-- What a sender holds. -/
def State.sender (s : State) (r : Nat) : SenderBuf := smGet ⟨[], none, 0, 0⟩ r s.net.senders

/-- The state with a sender's buffer set. -/
def State.setSender (s : State) (r : Nat) (b : SenderBuf) : State :=
  { s with net := { s.net with senders := smSet ⟨[], none, 0, 0⟩ r b s.net.senders } }

/-- The record datagram (R349). -/
def recDatagram (unit r : Nat) (late : Bool) (count : Nat) (recs : List Bytes) : Bytes :=
  leBytes 1 0x30 ++ leBytes 1 1 ++ leBytes 1 unit ++ leBytes 1 r ++ leBytes 2 (bitN late) ++ zeros 2 ++ leBytes 4 count ++ zeros 4 ++ recs.flatten

/-- The size of a sender's datagram so far. -/
def SenderBuf.size (b : SenderBuf) : Nat := 16 + sumN (b.recs.map List.length)

/-- A sender's datagram is closed (R349): queued, or with TIMED kept for its launch; one whose time has passed is sent at once with
LATE. -/
def State.closeDgram (s : State) (r : Nat) : State :=
  let b := s.sender r
  if b.recs.isEmpty then s else
  let d := s.rd 0 (OUT_REC_CTRL_DEST r)
  let q := s.rd 0 (OUT_REC_CTRL_TXQ r)
  let unit := s.rd 0 CHN_ADDR_ADDR
  let s := s.setSender r ⟨[], none, (b.count + 1) % 2 ^ 32, 0⟩
  let sent (s : State) (late : Bool) : State := (s.addWrap 0 (OUT_REC_DGRAMS r) 1).dstPut d q (recDatagram unit r late b.count b.recs)
  match s.is 0 (OUT_REC_CTRL_TIMED r), b.rel with
  | true, some (_, tb1) =>
    let t := tb1 + s.rd 0 (OUT_REC_DELAY r)
    if t < s.tb1 then sent (s.addSat 0 (OUT_REC_LATE r) 1) true
    else { s with net := { s.net with timed := s.net.timed ++ [⟨r, t, b.count, b.recs⟩] } }
  | _, _ => sent s false

/-- A sender's open datagram can be closed: one that waits for a launch takes no place in a transmit queue (R337, R349). -/
def State.dgramRoom (s : State) (r : Nat) : Bool :=
  (s.is 0 (OUT_REC_CTRL_TIMED r) && (s.sender r).rel.any fun x => decide (s.tb1 ≤ x.2 + s.rd 0 (OUT_REC_DELAY r))) || s.dstRoom (s.rd 0 (OUT_REC_CTRL_DEST r)) (s.rd 0 (OUT_REC_CTRL_TXQ r)) (s.sender r).size

/-- The head item of the sender's queue does not fit its open datagram: past MAXPAY, or of another release with TIMED (R349). -/
def State.dgramFull (s : State) (r : Nat) (i : QItem) : Bool :=
  let b := s.sender r
  !b.recs.isEmpty && (decide (s.rd 0 (OUT_REC_MAXPAY r) < b.size + 4 * i.words.length) || s.is 0 (OUT_REC_CTRL_TIMED r) && b.rel != i.rel)

/-- Sender `r` takes the head item of its queue into its datagram, closing the datagram first where the item does not fit; it waits while
the transmit queue is full (R337, R349). -/
def State.recordPop (s : State) (r : Nat) : State :=
  let t := s.rd 0 (OUT_REC_CTRL_TILE r)
  let q := s.rd 0 (OUT_REC_CTRL_QUEUE r)
  if !s.is 0 (OUT_DST_PORT_EN (s.rd 0 (OUT_REC_CTRL_DEST r))) then s.setF 0 OUT_ERR_CFG_INVALID else
  match s.qOld t q with
  | [] => s
  | i :: _ =>
    if s.dgramFull r i && !s.dgramRoom r then s else
    let s := if s.dgramFull r i then s.closeDgram r else s
    match s.popTapped t q with
    | none => s
    | some (i, s) =>
      let b := s.sender r
      s.setSender r { b with recs := b.recs ++ [bytesOfWords i.words], rel := if b.recs.isEmpty then i.rel else b.rel, since := if b.recs.isEmpty then s.tim.tb0 else b.since }

/-- Two senders name one queue. -/
def State.sameQueue (s : State) (r k : Nat) : Bool :=
  s.rd 0 (OUT_REC_CTRL_TILE r) == s.rd 0 (OUT_REC_CTRL_TILE k) && s.rd 0 (OUT_REC_CTRL_QUEUE r) == s.rd 0 (OUT_REC_CTRL_QUEUE k)

/-- Lower-numbered senders of the same queue that wait in this cycle come first (R398). -/
def State.lowerSenders (s : State) (r : Nat) : State :=
  s.waitingNow.foldl (fun s i =>
    match i with
    | .recordPop k => if k.val < r ∧ s.is 0 (OUT_REC_CTRL_EN k) ∧ s.sameQueue r k then (s.takeEarly i).recordPop k else s
    | _ => s) s

/-- The command RECORD_POP of a sender. -/
def isRecordPop (r : Fin 8) : Instr → Bool
  | .recordPop k => k == r
  | _ => false

/-- RECORD_POP (R349, R392, R398). -/
def execRecordPop (r : Fin 8) (s : State) : Answer :=
  if s.tookEarly (isRecordPop r) then finish s (s.dropEarly (isRecordPop r))
  else whenEv s (s.is 0 (OUT_REC_CTRL_EN r) && s.fit (s.rd 0 (OUT_REC_CTRL_TILE r))) fun s => (s.lowerSenders r).recordPop r

/-- The source queue of a sender is empty, and OUT_RECr_HOLD_US has passed since the first record of its open datagram (R349). -/
def State.dgramOver (s : State) (r : Nat) : Bool :=
  (s.qItems (s.rd 0 (OUT_REC_CTRL_TILE r)) (s.rd 0 (OUT_REC_CTRL_QUEUE r))).isEmpty &&
    decide (s.rd 0 (OUT_REC_HOLD_US r) * 1000 ≤ s.tim.tb0 - (s.sender r).since)

/-- DATAGRAM_HOLD: the hold time of an open datagram has passed and its source queue is empty (R349); nothing goes to a destination that is not
enabled (R352). -/
def execDatagramHold (r : Fin 8) (s : State) : Answer :=
  whenEv s (s.is 0 (OUT_REC_CTRL_EN r) && s.dgramOver r && s.dgramRoom r && s.recDst r) fun s => s.closeDgram r

/-- Where an enabled stream or sender names a destination that is not enabled, or a stream in force cannot send, OUT_ERR.CFG_INVALID is set (R351,
R352). -/
def State.outCheck (s : State) : State :=
  s.setIf ((List.range 8).any fun r => s.is 0 (OUT_REC_CTRL_EN r) && !s.recDst r) 0 OUT_ERR_CFG_INVALID

/-- A TIMED datagram leaves at its launch time by each port of its destination (R325, R349). -/
def State.dgramLaunch (s : State) (r : Nat) : State :=
  match s.net.timed.find? fun d => d.sender == r && decide (d.time ≤ s.tb1 + 1) with
  | none => s
  | some d =>
    let s := { s with net := { s.net with timed := s.net.timed.erase d } }
    let s := if s.recDst r then s.addWrap 0 (OUT_REC_DGRAMS r) 1 else s.setF 0 OUT_ERR_CFG_INVALID
    let dst := s.rd 0 (OUT_REC_CTRL_DEST r)
    let pay := recDatagram (s.rd 0 CHN_ADDR_ADDR) r false d.number d.recs
    (s.launchPorts r).foldl (fun s p => s.leave p (padFrame (s.dstFrame dst (s.rd 0 (OUT_REC_CTRL_TXQ r)) pay))) s

/-- DATAGRAM_LAUNCH (R349). -/
def execDatagramLaunch (r : Fin 8) (s : State) : Answer := finish s (s.dgramLaunch r)

/-! Counters cleared (R357 to R359). -/

/-- Every ETH counter of a port cleared (R357). -/
def State.ethClr (s : State) (p : Nat) : State :=
  [ETH_RX_FRAMES, ETH_RX_FCS_ERR, ETH_RX_LEN_ERR, ETH_RX_MACCTRL, ETH_TX_FRAMES, ETH_PASS_FRAMES, ETH_PASS_DROP, ETH_PASS_STOMP,
   ETH_FEC_CORR, ETH_FEC_UNCORR, ETH_REF_DROP, ETH_REF_STRIPES].foldl (fun s f => s.clrCount p f) s

/-- ETH_CLR_COUNTERS (R357). -/
def execEthClrCounters (p : EthPort) (s : State) : Answer := onTile s p fun s => s.ethClr p

/-- Every CHN counter cleared (R358). -/
def State.chnClr (s : State) : State :=
  [CHN_CONFLICTS, CHN_LCP_BAD, CHN_LCP_REQS, CHN_NOTIFY_SENT, CHN_NOTIFY_LOST, CHN_NOTIFY_GIVEUP].foldl (fun s f => s.clrCount 0 f) s

/-- CHN_CLR_COUNTERS (R358). -/
def execChnClrCounters (s : State) : Answer := finish s s.chnClr

/-- Every OUT counter cleared (R359). -/
def State.outClr (s : State) : State :=
  (List.range 8).foldl (fun s i => (((s.clrCount 0 (OUT_STR_LINES i)).clrCount 0 (OUT_STR_DROPPED i)).clrCount 0 (OUT_REC_DGRAMS i)).clrCount 0 (OUT_REC_LATE i)) s

/-- OUT_CLR_COUNTERS (R359). -/
def execOutClrCounters (s : State) : Answer := finish s s.outClr

end Sys2Proof.Machine
end

