-- ==== Sys2Proof/Machine/Streams.lean ====
section
/-! DEFINITION. Output streams (R350, R351, R353, R354). -/

namespace Sys2Proof.Machine

/-- The five setting registers of a stream. -/
def State.strRegs (s : State) (st : Nat) : List Nat :=
  [s.rd 0 (OUT_STR_CTRL st), s.rd 0 (OUT_STR_X0 st), s.rd 0 (OUT_STR_W st), s.rd 0 (OUT_STR_DEC st), s.rd 0 (OUT_STR_MAXPAY st)]

/-- Settings in force for band `n`; all 0 where none have been taken. -/
def State.strCfg (s : State) (n st : Nat) : List Nat :=
  ((s.net.streamCfg.find? fun (m, k, _) => k == st && decide (m ≤ n)).map (·.2.2)).getD []


/-- The settings of a stream, unpacked. -/
structure StrSet where
  st : Nat
  on : Bool
  kind : Nat
  index : Nat
  format : Nat
  scale : Nat
  dest : Nat
  queue : Nat
  x0 : Nat
  w : Nat
  dec : Nat
  maxpay : Nat

/-- A stream's settings for band `n` (R350, R359). SCALE holds 1 to 64. -/
def State.strSet (s : State) (n st : Nat) : StrSet :=
  let l := s.strCfg n st
  let c := l.getD 0 0
  ⟨st, c.testBit 0, bitsOf c 3 1, bitsOf c 9 4, bitsOf c 11 10, clampN 1 64 (bitsOf c 18 12), bitsOf c 22 19, bitsOf c 25 23,
    l.getD 1 0, l.getD 2 0, Nat.max 1 (l.getD 3 1), clampN 256 9000 (l.getD 4 8192)⟩

/-- Bytes of a pixel (R351). -/
def fmtBytes (f : Nat) : Nat := [1, 3, 4, 2].getD f 1

/-- A Q16.8 sample rounded to its top `bits` bits (R351). -/
def topBits (bits v : Nat) : Nat := Nat.min ((v + 2 ^ (23 - bits)) / 2 ^ (24 - bits)) (2 ^ bits - 1)

/-- Y of a pixel (R351). -/
def lumaOf (px : List Nat) : Nat :=
  match px with
  | [r, g, b] => (1225 * r + 2404 * g + 467 * b + 2048) / 4096
  | [y] => y
  | _ => 0

/-- A pixel in a stream format (R351). -/
def pixBytes (f : Nat) (px : List Nat) : Bytes :=
  let rgb := match px with
    | [r, g, b] => [r, g, b]
    | [y] => [y, y, y]
    | _ => [0, 0, 0]
  match f with
  | 0 => leBytes 1 (topBits 8 (lumaOf px))
  | 1 => rgb.flatMap fun v => leBytes 1 (topBits 8 v)
  | 2 => leBytes 4 (topBits 10 (rgb.getD 0 0) + 2 ^ 10 * topBits 10 (rgb.getD 1 0) + 2 ^ 20 * topBits 10 (rgb.getD 2 0))
  | _ => leBytes 2 (topBits 12 (lumaOf px))

/-- The area mean of the pixels that are not blind; none where none is left (R350). -/
def areaMean (pxs : List (List Nat)) : Option (List Nat) :=
  match pxs.filter fun p => !p.isEmpty with
  | [] => none
  | p :: l => some ((List.range p.length).map fun k => (roundDiv (sumN ((p :: l).map fun x => x.getD k 0)) (l.length + 1)).toNat)

/-- Where the columns of a source lie on tile `t`: first column, columns there, and columns of the source. -/
def State.strCols (s : State) (n kind idx t : Nat) : Nat × Nat × Nat :=
  if kind = 1 then
    let w := s.rdN n (idx / 8) (ING_PORT_SUB_CFG_WIDTH (idx / 4 % 2) (idx % 4))
    (0, w, w)
  else (s.rdN n t (STI_GRP_SEG_X0 idx), s.rdN n t (STI_GRP_SEG_W idx), s.rdN n 0 (STI_GRP_WIDTH idx))

/-- WEB_POS of line `i` of a band in a packet (R353). -/
def State.strWeb (s : State) (b : Band) (kind idx i : Nat) : Int :=
  b.pos.getD i 0 - if kind = 1 then 0 else s.webOfs b.bank idx

/-- A stream packet (R353). -/
def strPacket (unit : Nat) (c : StrSet) (flags n line : Nat) (web : Int) (x : Nat) (pxs : List Bytes) : Bytes :=
  withCrc (leBytes 1 0x20 ++ leBytes 1 1 ++ leBytes 1 unit ++ leBytes 1 c.st ++ leBytes 1 c.format ++ leBytes 1 c.scale ++ leBytes 2 flags ++
    leBytes 8 n ++ leBytes 8 line ++ leBytes 8 (uNat 64 web) ++ leBytes 4 x ++ leBytes 2 pxs.length ++ zeros 2 ++ pxs.flatten)

/-- A list cut into pieces of at most `k`. -/
def cuts (k : Nat) : Nat → List α → List (List α)
  | 0, _ => []
  | f + 1, l => if l.isEmpty then [] else l.take k :: cuts k f (l.drop k)

/-- A packet of an output line is queued, or dropped with the rest of the line (R354). `a` is the line's first source line. -/
def State.strSend (s : State) (c : StrSet) (a : Nat) (mk : Bool → Bytes) : State :=
  let g := smGet 0 c.st s.net.gaps
  if g = a + 1 then s
  else
    let p := mk (g != 0)
    if s.dstRoom c.dest c.queue p.length then
      { s with net := { s.net with gaps := smSet 0 c.st 0 s.net.gaps } }.dstPut c.dest c.queue p
    else
      let s := (s.addSat 0 (OUT_STR_DROPPED c.st) 1).setF 0 OUT_ERR_DROP
      { s with net := { s.net with gaps := smSet 0 c.st (a + 1) s.net.gaps } }

/-- The packets of an output line that tile `t` sends (R350, R353; log 63). -/
def State.strEmit (s : State) (c : StrSet) (t : Nat) (x : StreamAcc) (b : Band) : State :=
  let (sx, sw, width) := s.strCols x.n c.kind c.index t
  let c1 := if c.w = 0 then width else Nat.min width (c.x0 + c.w)
  let total := ceilDiv (c1 - c.x0) c.scale
  let qs := (List.range total).filter fun q => decide (sx ≤ c.x0 + q * c.scale) && decide (c.x0 + q * c.scale < sx + sw)
  let px (q : Nat) : Option (List Nat) :=
    let lo := c.x0 + q * c.scale
    let hi := Nat.min (Nat.min (lo + c.scale) c1) (sx + sw)
    areaMean (x.rows.flatMap fun row => (row.drop (lo - sx)).take (hi - lo))
  let cut := cuts (Nat.max 1 (c.maxpay / fmtBytes c.format)) (qs.length + 1) (qs.map fun q => (q, px q))
  let end_ := decide (b.size ≤ x.i + 1) || (b.closed && decide (b.pos.length ≤ x.i + 1))
  let s := cut.foldl (fun s ch =>
    let blind := ch.any fun (_, v) => v.isNone
    let last := end_ && (match ch.getLast? with
      | some (q, _) => q + 1 == total
      | none => false)
    s.strSend c x.a fun gap =>
      strPacket (s.rd 0 CHN_ADDR_ADDR) c (bitN blind + 2 * bitN gap + 4 * bitN b.short + 8 * bitN last) x.n x.a (s.strWeb b c.kind c.index (x.a - b.line0))
        ((ch.map (·.1)).headD 0) (ch.map fun (_, v) => pixBytes c.format (v.getD []))) s
  if smGet 0 c.st s.net.gaps = x.a + 1 || qs.getLast? != some (total - 1) then s else s.addWrap 0 (OUT_STR_LINES c.st) 1

/-- What stops a stream: a FORMAT that KIND 3 does not take, or a destination that is not enabled (R351, R352). -/
def State.strBad (s : State) (c : StrSet) : Bool :=
  (c.kind == 3 && (c.format == 1 || c.format == 2)) || !s.is 0 (OUT_DST_PORT_EN c.dest)

/-- A stream in force for band `n` that cannot send sets OUT_ERR.CFG_INVALID (R351, R352). -/
def State.strCheck (s : State) (n : Nat) : State :=
  s.setIf ((List.range 8).any fun st => (s.strSet n st).on && s.strBad (s.strSet n st)) 0 OUT_ERR_CFG_INVALID

/-- A band tick takes the settings as they stood before its cycle (R350, R355). -/
def State.strLatch (s : State) (n : Nat) : State :=
  let old := s.began
  let new := (List.range 8).filterMap fun st => if s.strCfg n st = old.strRegs st then none else some (n, st, old.strRegs st)
  { s with net := { s.net with streamCfg := new ++ s.net.streamCfg } }.strCheck n

/-- A source line of kind `kind` and index `idx` on tile `t` goes to one stream. -/
def State.strLine1 (s : State) (kind idx t : Nat) (b : Band) (a : Nat) (row : List (List Nat)) (st : Nat) : State :=
  let c := s.strSet b.n st
  if !c.on || c.kind != kind || c.index != idx || b.n % c.dec != 0 then s
  else if s.strBad c then s.setF 0 OUT_ERR_CFG_INVALID
  else
    let k := st * 8 + t
    let i := a - b.line0
    let x := smGet StreamAcc.idle k s.net.streamAcc
    let fresh := x.rows.isEmpty || x.n != b.n || x.r != i / c.scale
    let x : StreamAcc := if fresh then ⟨b.n, i / c.scale, a, i, [row]⟩ else { x with i := i, rows := x.rows ++ [row] }
    let full := (i + 1) % c.scale == 0 || decide (b.size ≤ i + 1) || (b.closed && decide (b.pos.length ≤ i + 1))
    let s := if full then s.strEmit c t x b else s
    { s with net := { s.net with streamAcc := smSet StreamAcc.idle k (if full then StreamAcc.idle else x) s.net.streamAcc } }

/-- A source line goes to every stream that selects it (R350). -/
def State.strLine (s : State) (kind idx t a : Nat) (row : List (List Nat)) : State :=
  match s.lineBand a with
  | some (b, _) => (List.range 8).foldl (fun s st => s.strLine1 kind idx t b a row st) s
  | none => s

/-- A missing corrected line of a package-wide sub-stream: none of its samples is left (R350). -/
def State.strMissing (s : State) (sub a : Nat) : State := s.strLine 1 sub (sub / 8) a []

/-- Band `n` has closed short: an output line that holds the lines present is sent (R350). -/
def State.strShort (s : State) (n : Nat) : State :=
  match s.band n with
  | none => s
  | some b =>
    let due := s.net.streamAcc.filter fun (_, x) => x.n == n && !x.rows.isEmpty && decide (b.pos.length ≤ x.i + 1)
    due.foldl (fun s (k, x) =>
      let s := s.strEmit (s.strSet n (k / 8)) (k % 8) x b
      { s with net := { s.net with streamAcc := smSet StreamAcc.idle k StreamAcc.idle s.net.streamAcc } }) s

/-- Plane lists turned into pixels by column. -/
def columnsOf (planes : List (List Nat)) : List (List Nat) :=
  (List.range (planes.headD []).length).map fun c => planes.map fun l => l.getD c 0

end Sys2Proof.Machine
end

