-- ==== Sys2Proof/Machine/Correct.lean ====
section
/-! DEFINITION. The correction pipeline: the stages of R120 to R127, coefficient memory (R128), gain fades (R123, R124) and missing lines
(R114). -/

namespace Sys2Proof.Machine

/-! Formats (R95). -/

/-- Planes and sample width of an FMT, none where R95 lists none. -/
def fmtInfo (f : Nat) : Option (Nat × Nat) :=
  match f with
  | 0x01 => some (1, 8)
  | 0x02 => some (1, 10)
  | 0x03 => some (1, 12)
  | 0x04 => some (1, 14)
  | 0x11 => some (3, 8)
  | 0x12 => some (3, 10)
  | 0x13 => some (3, 12)
  | _ => none

/-- Bytes of one plane (R95). -/
def planeBytes (w count : Nat) : Nat := 4 * ceilDiv (count * w) 32

/-- The samples of a plane: sample k in bits k × w on of the plane's bit stream (R95). -/
def unpackPlane (w count : Nat) (bs : Bytes) : List Nat :=
  (List.range count).map fun k => (leAt bs (k * w / 8) 3 >>> (k * w % 8)) % 2 ^ w

/-- The planes of a payload. -/
def unpackPlanes : Nat → Nat → Nat → Bytes → List (List Nat)
  | 0, _, _, _ => []
  | n + 1, w, count, bs => unpackPlane w count bs :: unpackPlanes n w count (bs.drop (planeBytes w count))

/-! Sub-streams. -/

/-- What a sub-stream keeps, by its package-wide number. -/
def State.sub (s : State) (sub : Nat) : SubState := smGet SubState.idle sub s.path.subs

/-- The state with a sub-stream changed. -/
def State.updSub (s : State) (sub : Nat) (f : SubState → SubState) : State :=
  { s with path := { s.path with subs := smUpd SubState.idle sub f s.path.subs } }

/-- The band that line `a` belongs to and its place in it. Line C + 1 has no band yet: it is the next line of the open band or the first
of the next one. -/
def State.lineHome (s : State) (a : Nat) : Nat × Nat :=
  match s.lineBand a with
  | some (b, i) => (b.n, i)
  | none =>
    match s.openBand with
    | some b => if b.pos.length < b.size then (b.n, b.pos.length) else (b.n + 1, 0)
    | none => (if s.clk.ticked then s.bandIndex + 1 else 0, 0)

/-- The band whose structure governs line `a`: for C + 1 the newest band's (R110). -/
def State.lineCfg (s : State) (a : Nat) : Nat :=
  match s.lineBand a with
  | some (b, _) => b.n
  | none => s.bandIndex

/-! Coefficient memory (R128). -/

/-- Planes of a sub-stream's FMT in band `n`. -/
def State.subPlanes (s : State) (n t p u : Nat) : Nat := ((fmtInfo (s.rdN n t (ING_PORT_SUB_CFG_FMT p u))).map (·.1)).getD 1

/-- INT and FRAC of each plane's delay (R126). -/
def State.alignOf (s : State) (n t p u : Nat) : List (Nat × Nat) :=
  [(s.rdN n t (COR_PORT_SUB_ALIGN_R_INT p u), s.rdN n t (COR_PORT_SUB_ALIGN_R_FRAC p u)),
   (s.rdN n t (COR_PORT_SUB_ALIGN_G_INT p u), s.rdN n t (COR_PORT_SUB_ALIGN_G_FRAC p u)),
   (s.rdN n t (COR_PORT_SUB_ALIGN_B_INT p u), s.rdN n t (COR_PORT_SUB_ALIGN_B_FRAC p u))]

/-- The alignment stage works on the sub-stream: enabled, and not a monochrome format (R132). -/
def State.alignOn (s : State) (n t p u : Nat) : Bool :=
  s.rdN n t (COR_PORT_SUB_CTRL_ALIGN_EN p u) != 0 && decide (1 < s.subPlanes n t p u)

/-- Size of the alignment history (R128). -/
def State.lbufSize (s : State) (n t p u : Nat) : Nat :=
  sumN ((s.alignOf n t p u).map fun (i, f) => if i = 0 ∧ f = 0 then 0 else (i + 2) * (4 * ceilDiv (3 * s.rdN n t (ING_PORT_SUB_CFG_WIDTH p u)) 4))

/-- Size of the dark array and of a gain bank (R128). -/
def State.coefSize (s : State) (n t p u : Nat) : Nat :=
  s.subPlanes n t p u * (4 * ceilDiv (s.rdN n t (ING_PORT_SUB_CFG_WIDTH p u)) 2)

/-- The arrays of the enabled stages of a sub-stream: base and size (R128). -/
def State.corArrays (s : State) (n t p u : Nat) : List (Nat × Nat) :=
  let on (f : Fld) := s.rdN n t f != 0
  (if on (COR_PORT_SUB_CTRL_DPR_EN p u) then [(s.rdN n t (COR_PORT_SUB_DPR_BASE p u), 4 * s.rdN n t (COR_PORT_SUB_DPR_COUNT p u))] else []) ++
  (if on (COR_PORT_SUB_CTRL_DARK_EN p u) then [(s.rdN n t (COR_PORT_SUB_DARK_BASE p u), s.coefSize n t p u)] else []) ++
  (if on (COR_PORT_SUB_CTRL_GAIN_EN p u) then
    [(s.rdN n t (COR_PORT_SUB_GAINA_BASE p u), s.coefSize n t p u), (s.rdN n t (COR_PORT_SUB_GAINB_BASE p u), s.coefSize n t p u)] else []) ++
  (if s.alignOn n t p u then [(s.rdN n t (COR_PORT_SUB_LBUF_BASE p u), s.lbufSize n t p u)] else [])

/-- Two stretches of memory share a byte. -/
def overlaps (a b : Nat × Nat) : Bool := decide (0 < a.2) && decide (0 < b.2) && decide (a.1 < b.1 + b.2) && decide (b.1 < a.1 + a.2)

/-- Mapped sub-streams of tile `t` in band `n`, as port and sub-stream. -/
def State.mappedSubs (s : State) (n t : Nat) : List (Nat × Nat) :=
  ([0, 1].flatMap fun p => [0, 1, 2, 3].map fun u => (p, u)).filter fun (p, u) => s.rdN n t (ING_PORT_SUB_CFG_EN p u) != 0

/-- An array of an enabled stage lies outside the job's part of pipeline memory or overlaps another sub-stream's (R128). -/
def State.corBad (s : State) (n t p u : Nat) : Bool :=
  let mine := s.corArrays n t p u
  let others := ((s.mappedSubs n t).filter (· != (p, u))).flatMap fun (q, v) => s.corArrays n t q v
  mine.any fun a => decide (0x400000 < a.1 + a.2) || others.any (overlaps a)

/-- SUBs_CFG is invalid (R130). -/
def State.ingBad (s : State) (n t p u : Nat) : Bool :=
  let w := s.rdN n t (ING_PORT_SUB_CFG_WIDTH p u)
  s.rdN n t (ING_PORT_SUB_CFG_EN p u) != 0 && ((fmtInfo (s.rdN n t (ING_PORT_SUB_CFG_FMT p u))).isNone || w == 0 || decide (16384 < w))

/-- Every line of the sub-stream is missing with LINE_DROP (R128, R130). -/
def State.cfgBad (s : State) (n t p u : Nat) : Bool := s.ingBad n t p u || s.corBad n t p u

/-- The flags of an invalid configuration (R128, R130). -/
def State.cfgFlags (s : State) (n t p u : Nat) : State :=
  let s := s.setIf (s.ingBad n t p u) t (ING_PORT_ERR_CFG_INVALID p)
  s.setIf (s.rdN n t (ING_PORT_SUB_CFG_EN p u) != 0 && s.corBad n t p u) t (COR_PORT_SUB_ERR_CFG_INVALID p u)

/-! Gain fades (R123, R124). -/

/-- A fade is requested (R124, R129). -/
def State.gainRequest (s : State) (t p u : Nat) : State :=
  let x := s.sub (t * 8 + p * 4 + u)
  if x.fade.isNone && x.fadeDue.isNone && !s.is t (COR_PORT_SUB_GAIN_CTRL_QUEUED p u) then s.setF t (COR_PORT_SUB_GAIN_CTRL_QUEUED p u)
  else if s.is t (COR_PORT_SUB_GAIN_CTRL_PENDING p u) then s.setF t (COR_PORT_SUB_ERR_SWAP_BUSY p u)
  else s.setF t (COR_PORT_SUB_GAIN_CTRL_PENDING p u)

/-- A write of GAIN_CTRL.SWAP (R124, R129). -/
def State.gainSwap (s : State) (t p u : Nat) : State := (s.lateWrite t (COR_PORT_SUB_ERR_LATE_WRITE p u)).gainRequest t p u

/-- GAIN_SWAP (R124). -/
def execGainSwap (t : Tile) (p : Port) (sub : Sub) (s : State) : Answer := onTile s t fun s => s.gainSwap t p sub

/-- A band tick that opens a band with lines lets a waiting request start its fade at line `l` (R124); one made in its cycle waits for the next
(R129). -/
def State.fadeLatch (s : State) (l t p u : Nat) : State :=
  if s.stood t (COR_PORT_SUB_GAIN_CTRL_QUEUED p u) && (s.sub (t * 8 + p * 4 + u)).fadeDue.isNone then
    s.updSub (t * 8 + p * 4 + u) fun x => { x with fadeDue := some (l, s.rd t (COR_PORT_SUB_CTRL_FADE_LEN p u)) }
  else s

/-- A fade starts (R123, R124). -/
def State.fadeStart (s : State) (t p u : Nat) : State :=
  match (s.sub (t * 8 + p * 4 + u)).fadeDue with
  | none => s
  | some (l, n) =>
    let q := COR_PORT_SUB_GAIN_CTRL_QUEUED p u
    let s := if s.is t q then s.clrF t q else s.clrF t (COR_PORT_SUB_GAIN_CTRL_PENDING p u)
    let s := s.updSub (t * 8 + p * 4 + u) fun x => { x with fadeDue := none, fade := some ⟨l, Nat.max 1 n, n == 0⟩ }
    (s.setF t (COR_PORT_SUB_GAIN_CTRL_FADING p u)).clrF t (COR_PORT_SUB_GAIN_CTRL_FADE_POS p u)

/-- FADE_START (R123). -/
def execFadeStart (t : Tile) (p : Port) (sub : Sub) (s : State) : Answer := onTile s t fun s => s.fadeStart t p sub

/-- A fade ends: ACTIVE names the bank faded to, and a latched request is due with the next line (R123, R124). -/
def State.fadeEnd (s : State) (t p u : Nat) (next : Option Nat) : State :=
  let act := s.rd t (COR_PORT_SUB_GAIN_CTRL_ACTIVE p u)
  let s := s.updSub (t * 8 + p * 4 + u) fun x => { x with fade := none, faded := x.fade.map (·, act) }
  let s := ((s.wr t (COR_PORT_SUB_GAIN_CTRL_ACTIVE p u) (1 - act)).clrF t
    (COR_PORT_SUB_GAIN_CTRL_FADING p u)).clrF t (COR_PORT_SUB_GAIN_CTRL_FADE_POS p u)
  match next with
  | some l =>
    if s.is t (COR_PORT_SUB_GAIN_CTRL_PENDING p u) then
      s.updSub (t * 8 + p * 4 + u) fun x => { x with fadeDue := some (l, s.rd t (COR_PORT_SUB_CTRL_FADE_LEN p u)) }
    else s
  | none => s

/-- Line `a` has left the gain stage or has been found missing: it takes its number in a running fade (R123). -/
def State.fadeLine (s : State) (t p u a : Nat) : State :=
  match (s.sub (t * 8 + p * 4 + u)).fade with
  | none => s
  | some f =>
    if a < f.first then s
    else if f.len ≤ a + 1 - f.first then s.fadeEnd t p u (some (a + 1))
    else s.wr t (COR_PORT_SUB_GAIN_CTRL_FADE_POS p u) (a + 1 - f.first)

/-- RUN from 0 to 1: a running fade ends, and the waiting request or else the latched one waits for band tick 0 (R124). -/
def State.fadeRun (s : State) (t p u : Nat) : State :=
  let s := if (s.sub (t * 8 + p * 4 + u)).fade.isSome then s.fadeEnd t p u none else s
  let s := s.updSub (t * 8 + p * 4 + u) fun x => { x with fadeDue := none, faded := none }
  if !s.is t (COR_PORT_SUB_GAIN_CTRL_QUEUED p u) && s.is t (COR_PORT_SUB_GAIN_CTRL_PENDING p u) then
    (s.setF t (COR_PORT_SUB_GAIN_CTRL_QUEUED p u)).clrF t (COR_PORT_SUB_GAIN_CTRL_PENDING p u)
  else s

/-! Missing lines (R114). -/

/-- Why a line of a sub-stream is missing (R114, R433): LINE_DROP wherever the configuration is invalid. -/
def State.missReason (s : State) (t p u a : Nat) : Nat :=
  if s.cfgBad (s.lineCfg a) t p u then 0x04 else
  let x := s.port t p
  let now := if s.absentNow t p then 1 else if s.portSt t p = 5 then 0 else if 2 ≤ x.hold then 3 else if x.hold = 1 then 2 else 0
  match ((x.marks.find? (·.1 == a)).map (·.2)).getD now with
  | 1 => 0x03
  | 2 => 0x05
  | 3 => 0x07
  | _ => if x.dirty.testBit u then 0x0A else 0x04

/-- The staging count of R131. -/
def stagedFld (p u : Nat) : Fld := ⟨(ING_PORT_STATUS p).blk, (ING_PORT_STATUS p).off, 4 * u + 2, 4 * u⟩

/-- The staging buffer of a sub-stream set, its count following. -/
def State.setStaged (s : State) (t p u : Nat) (l : List RawLine) : State :=
  (s.updSub (t * 8 + p * 4 + u) fun x => { x with staged := l }).wr t (stagedFld p u) l.length

/-- Lines that stitching keeps of a sub-stream: more than the 1,025 slots of R160 and the 256 lines of each of the 16 bands that stitching may be
at work on (R57). -/
def srcKept : Nat := 8192

/-- A line of a sub-stream, or why it is missing, enters the history that stitching works from (R159, R165, R166). -/
def State.srcPush (s : State) (sub : Nat) (l : SrcLine) : State :=
  { s with sti := { s.sti with src := smUpd ⟨0, []⟩ sub (fun h => { h with lines := (l :: h.lines).take srcKept }) s.sti.src } }

/-- A line of a sub-stream is blind: stitching gives it group scope (R114, R126, R166). -/
def State.blindLine (s : State) (reason stage sub a : Nat) : State := (s.srcPush sub ⟨a, some (reason, stage), []⟩).strMissing sub a

/-- The lines that alignment reaches back: INT up to 15, and FRAC one more (R126). -/
def histReach : Nat := 16

/-- The lowest line of a sub-stream that has still to pass alignment, at most `a`. -/
def State.lowestAhead (s : State) (sub a : Nat) : Nat :=
  (((s.sub sub).staged.map (·.a)) ++ ((smGet [] (sub / 4) s.path.pipe).filter (·.sub == sub)).map (·.line.a)).foldl Nat.min a

/-- A past line enters the alignment history; lines that no line to come reaches leave it. -/
def State.pushHist (s : State) (sub : Nat) (h : HistLine) : State :=
  let low := s.lowestAhead sub h.a
  s.updSub sub fun x => { x with hist := h :: x.hist.filter fun g => decide (low ≤ g.a + histReach) }

/-- A line of a sub-stream is missing: counted, blind, and in the history as such (R114, R123, R126). -/
def State.missLine (s : State) (t p u a reason stage : Nat) : State :=
  let sub := t * 8 + p * 4 + u
  let s := s.cfgFlags (s.lineCfg a) t p u
  let s := (s.addSat t (ING_PORT_SUB_MISSING p u) 1).blindLine reason stage sub a
  ((s.pushHist sub ⟨a, some (reason, stage), 0, []⟩).fadeLine t p u a).firHoldLine t (p * 4 + u)

/-! The stages (R120 to R127). -/

/-- Conversion to Q16.8 (R120). -/
def convert (w x : Nat) : Nat := x * 2 ^ (24 - w)

/-- A DPR entry (R128): COLUMN, PLANES, METHOD. -/
def dprEntry (w : Nat) : Nat × Nat × Nat := (bitsOf w 13 0, bitsOf w 18 16, bitsOf w 21 20)

/-- The entries in use and the count of those ignored (R121): COLUMN rises strictly and lies below WIDTH. -/
def dprUse (width : Nat) : List Nat → Option Nat → List (Nat × Nat × Nat) × Nat
  | [], _ => ([], 0)
  | w :: l, last =>
    let e := dprEntry w
    if decide (width ≤ e.1) || last.any (fun c => decide (e.1 ≤ c)) then
      let (r, k) := dprUse width l last
      (r, k + 1)
    else
      let (r, k) := dprUse width l (some e.1)
      (e :: r, k)

/-- The nearest column not listed, at most 8 away, on one side (R121). -/
def nearest (width : Nat) (listed : Nat → Bool) (c : Nat) (left : Bool) : Option Nat :=
  [1, 2, 3, 4, 5, 6, 7, 8].findSome? fun d =>
    if left then (if d ≤ c ∧ !listed (c - d) then some (c - d) else none)
    else if c + d < width ∧ !listed (c + d) then some (c + d) else none

/-- Defective-pixel replacement of plane `k` (R121); `prev` is the previous line as it left the stage. -/
def dprPlane (es : List (Nat × Nat × Nat)) (k : Nat) (prev : Option (List Nat)) (l : List Nat) : List Nat :=
  let mine := es.filter fun (_, m, _) => m.testBit k
  let cols := mine.map (·.1)
  mine.foldl (fun out (c, _, m) =>
    let a := (nearest l.length cols.contains c true).map (l.getD · 0)
    let b := (nearest l.length cols.contains c false).map (l.getD · 0)
    let v := match a, b with
      | some x, some y => some (x, y)
      | some x, none => some (x, x)
      | none, some y => some (y, y)
      | none, none => none
    let mean := v.map fun (x, y) => (x + y + 1) / 2
    let r := match m, prev with
      | 1, _ => v.map (·.1)
      | 2, _ => v.map (·.2)
      | 3, some pl => some (pl.getD c 0)
      | _, _ => mean
    match r with
    | some x => setAt out c x
    | none => out) l

/-- Coefficient of column `k` of plane `pl` in a 16-bit array (R128). -/
def State.coef (s : State) (t base width pl k : Nat) : Nat := s.memLE (pipeAddr t (base + pl * (4 * ceilDiv width 2) + 2 * k)) 2

/-- Dark offset (R122). -/
def darkSub (x d : Nat) : Nat := x - d * 16

/-- Flat gain (R123). -/
def gainMul (x g : Nat) : Nat := Nat.min 0xFFFFFF ((x * g + 0x2000) / 2 ^ 14)

/-- The gain of line j of a fade of L lines (R123). -/
def fadeGain (j len from_ to_ : Nat) : Nat :=
  let wt := (j * 4096 + len / 2) / len
  (from_ * (4096 - wt) + to_ * wt + 2048) / 4096

/-- The flat gain in force for a sample of line `a` (R123). A line behind the fade's last line, still in the pipeline, is beyond the fade: it is
in the fade of a latched request, or sees the bank faded to alone (R124). -/
def State.gainOf (s : State) (t p u n a width pl k : Nat) : Nat :=
  let act := s.rd t (COR_PORT_SUB_GAIN_CTRL_ACTIVE p u)
  let bank (b : Nat) := s.coef t (s.rdN n t (if b = 0 then COR_PORT_SUB_GAINA_BASE p u else COR_PORT_SUB_GAINB_BASE p u)) width pl k
  let part (j len : Nat) (cut : Bool) (x y : Nat) := if cut || decide (len < j) then y else fadeGain j len x y
  let now := match (s.sub (t * 8 + p * 4 + u)).fade with
  | some f =>
    if a < f.first then bank act
    else if a < f.first + f.len then part (a + 1 - f.first) f.len f.cut (bank act) (bank (1 - act))
    else if s.is t (COR_PORT_SUB_GAIN_CTRL_PENDING p u) then
      let len := s.rd t (COR_PORT_SUB_CTRL_FADE_LEN p u)
      part (a + 1 - f.first - f.len) len (len == 0) (bank (1 - act)) (bank act)
    else bank (1 - act)
  | none => bank act
  match (s.sub (t * 8 + p * 4 + u)).faded with
  | some (f, b) =>
    if a < f.first then bank b
    else if a < f.first + f.len then part (a + 1 - f.first) f.len f.cut (bank b) (bank (1 - b))
    else now
  | none => now

/-- Alignment of one plane from line n − INT and the line before it (R126). -/
def alignMix (frac : Nat) (x y : List Nat) : List Nat :=
  if frac = 0 then x else (x.zip y).map fun (a, b) => ((256 - frac) * a + frac * b + 128) / 256

/-- The line that alignment needs: it must have been corrected; a line below 0 or never seen is LINE_DROP with STAGE 0xF (R126), and one from
before a swap that began the history anew is CHANGEOVER (R282). -/
def histLine (hist : List HistLine) (since a d : Nat) : Except (Nat × Nat) HistLine :=
  if a < d then .error (0x04, 15)
  else if since ≤ a ∧ a - d < since then .error (0x08, 15)
  else
    match hist.find? (·.a == a - d) with
    | some h =>
      match h.miss with
      | some m => .error m
      | none => .ok h
    | none => .error (0x04, 15)

/-- The raw lines that plane delays need, or why one is missing (R126). -/
def alignNeeds (hist : List HistLine) (since a : Nat) (ds : List (Nat × Nat)) : Except (Nat × Nat) (List (HistLine × HistLine)) :=
  ds.mapM fun (i, f) => do
    let x ← histLine hist since a i
    let y ← if f = 0 then pure x else histLine hist since a (i + 1)
    pure (x, y)

/-- The colour matrix for one output plane (R127). -/
def matrixOut (m : List Int) (o : Int) (x : List Nat) : Nat :=
  (satU 24 (roundShr (sumI ((m.zip x).map fun (a, b) => a * b) + o * 4096) 12)).toNat

/-- A row of coefficients. -/
def State.mtxRow (s : State) (n t p u c : Nat) : List Int :=
  [0, 1, 2].map fun j => sInt 16 (s.rdN n t (COR_PORT_SUB_MTX p u c j))

/-- o_c. -/
def State.mtxOfs (s : State) (n t p u c : Nat) : Int :=
  sInt 24 (s.rdN n t (match c with | 0 => COR_PORT_SUB_OFS_0 p u | 1 => COR_PORT_SUB_OFS_1 p u | _ => COR_PORT_SUB_OFS_2 p u))

/-- The colour matrix over aligned planes (R127): a monochrome line uses m_00 and o_0 alone. -/
def State.matrix (s : State) (n t p u : Nat) (ps : List (List Nat)) : List (List Nat) :=
  match ps with
  | [a, b, c] =>
    [0, 1, 2].map fun k => (a.zip (b.zip c)).map fun (x, y, z) => matrixOut (s.mtxRow n t p u k) (s.mtxOfs n t p u k) [x, y, z]
  | [a] => [a.map fun x => matrixOut ((s.mtxRow n t p u 0).take 1) (s.mtxOfs n t p u 0) [x]]
  | _ => ps

/-- The samples of a line in Q16.8 (R120). -/
def RawLine.scaled (l : RawLine) : List (List Nat) := l.planes.map (·.map (convert (((fmtInfo l.fmt).map (·.2)).getD 8)))

/-- The stages up to the gain (R120 to R123): samples as they leave the defective-pixel stage, samples after the gain, the list of defective
pixels and the count of entries ignored. -/
def State.earlyStages (s : State) (n t p u : Nat) (l : RawLine) : List (List Nat) × List (List Nat) × List Nat × Nat :=
  let width := s.rdN n t (ING_PORT_SUB_CFG_WIDTH p u)
  let x := s.sub (t * 8 + p * 4 + u)
  let on (f : Fld) := s.rdN n t f != 0
  let base := s.rdN n t (COR_PORT_SUB_DPR_BASE p u)
  let list := if on (COR_PORT_SUB_CTRL_DPR_EN p u) then
      (List.range (s.rdN n t (COR_PORT_SUB_DPR_COUNT p u))).map fun i => s.memLE (pipeAddr t (base + 4 * i)) 4
    else []
  let (es, skipped) := dprUse width list none
  let prev := x.prev.filter fun (a, _) => a + 1 == l.a
  let dpr := l.scaled.zipIdx.map fun (pl, k) => dprPlane es k (prev.map fun (_, ps) => ps.getD k []) pl
  let dark := if on (COR_PORT_SUB_CTRL_DARK_EN p u) then
      dpr.zipIdx.map fun (pl, k) => pl.zipIdx.map fun (v, c) => darkSub v (s.coef t (s.rdN n t (COR_PORT_SUB_DARK_BASE p u)) width k c)
    else dpr
  let gain := if on (COR_PORT_SUB_CTRL_GAIN_EN p u) then
      dark.zipIdx.map fun (pl, k) => pl.zipIdx.map fun (v, c) => gainMul v (s.gainOf t p u n l.a width k c)
    else dark
  (dpr, gain, list, skipped)

/-- Entries ignored are counted once for a list content (R121; log 46). -/
def State.dprCount (s : State) (t p u : Nat) (list : List Nat) (skipped : Nat) : State :=
  let sub := t * 8 + p * 4 + u
  if (s.sub sub).dprSeen = list then s
  else
    let s := s.updSub sub fun x => { x with dprSeen := list }
    if skipped = 0 then s else (s.addSat t (COR_PORT_SUB_DPR_SKIPPED p u) skipped).setF t (COR_PORT_SUB_ERR_DPR_ORDER p u)

/-- A line enters the pipeline (R116): it passes the stages up to the gain with the coefficients as they stand, so that a coefficient written
while it is in the pipeline applies from the next line (R125, R129). -/
def State.enterLine (s : State) (t p u : Nat) (l : RawLine) : PipeLine × State :=
  let sub := t * 8 + p * 4 + u
  let (dpr, gain, list, skipped) := s.earlyStages (s.lineCfg l.a) t p u l
  (⟨sub, l, gain, some (s.tim.tb0 + ceilDiv (sumN (l.planes.map List.length)) 8 + 24)⟩, (s.dprCount t p u list skipped).updSub sub fun x => { x with prev := some (l.a, dpr) })

/-- A line in the pipeline is abandoned (R118): it is no previous line for METHOD 3 of R121. -/
def State.abandonLine (s : State) (l : PipeLine) : State := s.updSub l.sub fun x => { x with prev := x.prev.filter fun y => y.1 != l.line.a }

/-- The samples of a line in the form of R37, padded to a slot of `n` bytes. -/
def slotBytes (n : Nat) (l : List Nat) : Bytes :=
  let b := l.flatMap (leBytes 3)
  b ++ zeros (n - b.length)

/-- A line enters the alignment history in pipeline memory (R128): line `a` in slot a mod (INT + 2) of each delayed plane (DESIGN CHOICE, log 154). -/
def State.lbufLine (s : State) (n t p u a : Nat) (ps : List (List Nat)) : State :=
  let slot := 4 * ceilDiv (3 * s.rdN n t (ING_PORT_SUB_CFG_WIDTH p u)) 4
  ((s.alignOf n t p u).zip ps).foldl (fun (acc : State × Nat) (d, pl) =>
    let (s, at_) := acc
    if d.1 = 0 ∧ d.2 = 0 then (s, at_)
    else (s.setBytes (pipeAddr t (at_ + a % (d.1 + 2) * slot)) (slotBytes slot pl), at_ + (d.1 + 2) * slot))
    (s, s.rdN n t (COR_PORT_SUB_LBUF_BASE p u)) |>.1

/-- A line leaves the pipeline (R126, R127): the corrected line, none where alignment leaves it blind. -/
def State.correctLine (s : State) (t p u : Nat) (x : PipeLine) : Option CorLine × State :=
  let sub := t * 8 + p * 4 + u
  let l := x.line
  let gain := x.gain
  let raw := l.scaled
  let n := s.lineCfg l.a
  let s := (s.pushHist sub ⟨l.a, none, l.expset, gain⟩).fadeLine t p u l.a
  let mtx (ps : List (List Nat)) := if s.rdN n t (COR_PORT_SUB_CTRL_MTX_EN p u) != 0 then s.matrix n t p u ps else ps
  if s.alignOn n t p u then
    let ds := s.alignOf n t p u
    let s := s.lbufLine n t p u l.a gain
    match alignNeeds (s.sub sub).hist (s.sub sub).since l.a ds with
    | .error (r, st) => (none, s.blindLine r st sub l.a)
    | .ok hs =>
      let ps := (hs.zip ds).zipIdx.map fun (((x, y), _, f), k) => alignMix f (x.planes.getD k []) (y.planes.getD k [])
      let sets := hs.flatMap fun (x, y) => [x.expset, y.expset]
      let mixed := sets.any (· != sets.headD 0)
      (some ⟨l.a, sub, mtx ps, raw, l.expset, mixed, l.sat⟩, s.addWrap t (COR_PORT_SUB_LINES p u) 1)
  else (some ⟨l.a, sub, mtx gain, raw, l.expset, false, l.sat⟩, s.addWrap t (COR_PORT_SUB_LINES p u) 1)

end Sys2Proof.Machine
end

