-- ==== Sys2Proof/Machine/Arrays.lean ====
section
/-! DEFINITION. The arrays that the units of a tile keep in pipeline memory, and where two of them meet (R128, R170, R198, R205, R234, R416). -/

namespace Sys2Proof.Machine

/-! Stitching (R160 to R162). -/

/-- WIDTH of a package-wide sub-stream in bank `b`. -/
def State.subWidth (s : State) (b sub : Nat) : Nat := s.rdB b (sub / 8) (ING_PORT_SUB_CFG_WIDTH (sub / 4 % 2) (sub % 4))

/-- Planes of a package-wide sub-stream in bank `b`. -/
def State.subP (s : State) (b sub : Nat) : Nat :=
  ((fmtInfo (s.rdB b (sub / 8) (ING_PORT_SUB_CFG_FMT (sub / 4 % 2) (sub % 4)))).map (·.1)).getD 1

/-- P of a group (R154). -/
def State.grpP (s : State) (b g : Nat) : Nat := if s.rdB b 0 (STI_GRP_CFG_RGB g) = 0 then 1 else 3

/-- A hedgerow descriptor (R162). -/
structure Hedge where
  x0 : Nat
  len : Nat
  mode : Nat
  seam : Nat
  secBase : Nat
  /-- The bits and bytes that R162 gives as 0. -/
  rest : Nat
  deriving DecidableEq, Repr

/-- Hedgerow `h` of a tile's part of a group. -/
def State.hedge (s : State) (b t g h : Nat) : Hedge :=
  let a := pipeAddr t (s.rdB b t (STI_GRP_HEDGE_BASE g) + 16 * h)
  let w0 := s.memLE a 4
  let w3 := s.memLE (a + 12) 4
  ⟨bitsOf w0 16 0, s.memLE (a + 4) 2, s.memLE (a + 6) 1, s.memLE (a + 8) 2, bitsOf w3 21 0,
    bitsOf w0 31 17 + s.memLE (a + 7) 1 + s.memLE (a + 10) 2 + bitsOf w3 31 22⟩

/-- The hedgerows of a tile's part of a group. -/
def State.hedges (s : State) (b t g : Nat) : List Hedge := (List.range (s.rdB b t (STI_GRP_HEDGE_COUNT g))).map (s.hedge b t g)

/-- SEG_X0 and SEG_W. -/
def State.seg (s : State) (b t g : Nat) : Nat × Nat := (s.rdB b t (STI_GRP_SEG_X0 g), s.rdB b t (STI_GRP_SEG_W g))

/-- Bytes of the history of a sub-stream (R160). -/
def State.histBytes (s : State) (b sub : Nat) : Nat :=
  s.rdB b (sub / 8) (STI_SUB_HIST_SLOTS (sub % 8)) * (s.subP b sub * (4 * ceilDiv (3 * s.subWidth b sub) 4))

/-- The local sub-streams of a tile that feed a group. -/
def State.feeders (s : State) (b t g : Nat) : List Nat := (onesOf 64 (s.tileMask b t g))

/-- The arrays in pipeline memory of a tile's part of a group, with the histories of its feeders (R160 to R162). -/
def State.stiArrays (s : State) (b t g : Nat) : List (Nat × Nat) :=
  (if (s.seg b t g).2 = 0 then [] else
    (s.rdB b t (STI_GRP_MAP_BASE g), 4 * (s.seg b t g).2) :: (s.rdB b t (STI_GRP_HEDGE_BASE g), 16 * s.rdB b t (STI_GRP_HEDGE_COUNT g)) ::
      (s.hedges b t g).map fun h => (h.secBase, 4 * h.len)) ++
    (s.feeders b t g).map fun sub => (s.rdB b t (STI_SUB_HIST_BASE (sub % 8)), s.histBytes b sub)

/-! Reference comparison (R181, R186 to R188, R198). -/

/-- The state with the reference units changed. -/
def State.updRef (s : State) (f : RefState → RefState) : State := { s with ref := f s.ref }

/-- sx. -/
def State.refSx (s : State) (b g : Nat) : Nat := 1 + s.rdB b 0 (REF_GRP_CFG_SCALE_X g)

/-- sy. -/
def State.refSy (s : State) (b g : Nat) : Nat := 1 + s.rdB b 0 (REF_GRP_CFG_SCALE_Y g)

/-- LPR. -/
def State.refLpr (s : State) (b g : Nat) : Nat := s.rdB b 0 (REF_GRP_LPR g)

/-- The group's reference columns. -/
def State.refCols (s : State) (b g : Nat) : Nat := ceilDiv (s.rdB b 0 (STI_GRP_WIDTH g)) (s.refSx b g)

/-- RING_X0 and RING_COLS. -/
def State.ringCols (s : State) (b t g : Nat) : Nat × Nat := (s.rdB b t (REF_GRP_RING_X0 g), s.rdB b t (REF_GRP_RING_COLS g))

/-- The group has a reference in bank `b`. -/
def State.refOn (s : State) (b g : Nat) : Bool := s.grpOn b g && s.rdB b 0 (REF_GRP_CFG_EN g) != 0

/-- The group learns its reference (R198). -/
def State.refLearns (s : State) (b g : Nat) : Bool := s.rdB b 0 (REF_GRP_CFG_SOURCE g) != 0

/-- Bytes of a window line (R186). -/
def State.winLineBytes (s : State) (b t g : Nat) : Nat := 4 * ceilDiv (3 * (s.ringCols b t g).2 * s.grpP b g) 4

/-- The arrays of REF in pipeline memory of a tile's part of a group. -/
def State.refArrays (s : State) (b t g : Nat) : List (Nat × Nat) :=
  let cols := (s.ringCols b t g).2
  [(s.rdB b t (REF_GRP_RING_BASE g), s.rdB b t (REF_GRP_RING_SIZE g)),
   (s.rdB b t (REF_GRP_WIN_BASE g), s.rdB b t (REF_GRP_WIN_LINES g) * s.winLineBytes b t g),
   (s.rdB b t (REF_GRP_COARSE_BASE g), s.rdB b t (REF_GRP_COARSE_ROWS g) * (4 * ceilDiv (2 * ceilDiv (cols * s.refSx b g) 4) 4)),
   (s.rdB b t (REF_GRP_PATCH_BASE g), 2 * s.rdB b 0 (REF_GRP_CFG_PATCHES g))]

/-- The learn buffer of a tile (R198). -/
def State.learnBuf (s : State) (b t g : Nat) : Nat × Nat :=
  (s.rdB b t (REF_GRP_LEARN_BASE g), Nat.max 3 (s.rdB b 0 (REF_GRP_LEARN_K g)) * s.refLpr b g * (s.ringCols b t g).2 * s.grpP b g)

/-! Segmentation, the label grid, the profile filters and the compare units (R207, R210, R223, R300, R416). -/

/-- Segmentation of the group works on the tile. -/
def State.segOn (s : State) (b t g : Nat) : Bool := s.hasSeg b t g && s.rdB b t (SEG_GRP_CFG_EN g) != 0

/-- The tables of SEG in pipeline memory (R207, R210). -/
def State.segArrays (s : State) (b t g : Nat) : List (Nat × Nat) :=
  [(s.rdB b t (SEG_GRP_LUT_BASE g), 39304), (s.rdB b t (SEG_GRP_SET_BASE g), 256)]

/-- The lanes and rows of the label grid (R223). -/
def State.gridArrays (s : State) (b : Nat) : List (Nat × Nat) :=
  [(s.rdB b 0 COL_GRID_LANE_BASE, 8 * s.rdB b 0 COL_GRID_CTRL_LANES), (s.rdB b 0 COL_GRID_ROW_BASE, 8 * s.rdB b 0 COL_GRID_CTRL_ROWS)]

/-- Σ TAPS over the stages in use (R412). -/
def State.firTaps (s : State) (t f : Nat) : Nat := sumN ((List.range (s.rd t (FIR_CH_CFG_STAGES f))).map fun k => s.rd t (FIR_CH_STAGE_TAPS f k))

/-- The banks of an enabled channel: base and size. -/
def State.firArrays (s : State) (t f : Nat) : List (Nat × Nat) :=
  if s.is t (FIR_CH_CFG_EN f) then
    [(s.rd t (FIR_CH_BANKA_BASE f), 4 * s.firTaps t f), (s.rd t (FIR_CH_BANKB_BASE f), 4 * s.firTaps t f)]
  else []

/-- LEN. -/
def State.cmpLen (s : State) (u : Nat) : Nat := clampN 1 4096 (s.rd 0 (POS_CMP_LEN u))

/-- The list of an enabled compare unit (R300). -/
def State.cmpArray (s : State) (u : Nat) : List (Nat × Nat) :=
  if s.is 0 (POS_CMP_CTRL_EN u) then [(s.rd 0 (POS_CMP_BASE u) / 16 * 16, 16 * s.cmpLen u)] else []

/-! Every array of a tile. -/

/-- Who keeps arrays in pipeline memory. -/
inductive ArrayOwner where
  /-- Correction of a local sub-stream: port and sub-stream. -/
  | cor (p u : Nat)
  /-- Stitching of a group. -/
  | sti (g : Nat)
  /-- Reference comparison of a group. -/
  | ref (g : Nat)
  /-- Learning of a group. -/
  | learn (g : Nat)
  /-- Segmentation of a group. -/
  | seg (g : Nat)
  /-- A profile filter. -/
  | fir (f : Nat)
  /-- A compare unit, on tile 0. -/
  | cmp (u : Nat)
  /-- The label grid, on tile 0. -/
  | grid
  deriving DecidableEq, Repr

/-- What an owner keeps on a tile with the structure of bank `b`: base and size. -/
def State.arraysOf (s : State) (b t : Nat) (o : ArrayOwner) : List (Nat × Nat) :=
  match o with
  | .cor p u => s.inBank b fun s => s.corArrays 0 t p u
  | .sti g => s.stiArrays b t g
  | .ref g => if s.refOn b g then s.refArrays b t g else []
  | .learn g => if s.refOn b g && s.refLearns b g then [s.learnBuf b t g] else []
  | .seg g => if s.segOn b t g then s.segArrays b t g else []
  | .fir f => s.inBank b fun s => s.firArrays t f
  | .cmp u => if t = 0 then s.cmpArray u else []
  | .grid => if t = 0 then s.gridArrays b else []

/-- Everyone who keeps arrays on a tile. -/
def State.arrayOwners (s : State) (b t : Nat) : List ArrayOwner :=
  ((s.inBank b fun s => s.mappedSubs 0 t).map fun (p, u) => .cor p u) ++
    (s.groups b).flatMap (fun g => [.sti g, .ref g, .learn g, .seg g]) ++ (List.range 16).flatMap (fun k => [.fir k, .cmp k]) ++ [.grid]

/-- Two stretches in a list share a byte. -/
def anyOverlap : List (Nat × Nat) → Bool
  | [] => false
  | a :: l => l.any (overlaps a) || anyOverlap l

/-- Arrays of an owner lie outside 0x00_0000 to 0x3F_FFFF, or overlap one another or another owner's (R170, R198, R205, R234, R416). -/
def State.arraysBad (s : State) (b t : Nat) (o : ArrayOwner) (mine : List (Nat × Nat)) : Bool :=
  let others := ((s.arrayOwners b t).filter (· != o)).flatMap (s.arraysOf b t)
  mine.any (fun a => decide (0x400000 < a.1 + a.2)) || anyOverlap mine || mine.any fun a => others.any (overlaps a)

end Sys2Proof.Machine
end

