-- ==== Sys2Proof/Machine/Position.lean ====
section
/-! DEFINITION. Web position: counters, speed and standstill, compare units and trigger outputs (R288 to R309). The edges that issue source
ticks are in Machine/Encoder.lean. Latencies in ns are not modelled. -/

namespace Sys2Proof.Machine

/-- The state with the position interface changed. -/
def State.updPos (s : State) (f : Pos → Pos) : State := { s with pos := f s.pos }

/-! Positions (R50, R291). -/

/-- TRAVEL of WEB_CHAN (R291). -/
def State.webTravel (s : State) : Int := sInt 64 (s.rd64 0 (POS_CH_TRAVEL_LO (s.rd 0 POS_CTRL_WEB_CHAN)))

/-- POS_UM_PER_COUNT in 2⁻³² µm. -/
def State.umPerCount (s : State) : Int := (s.rd 0 POS_UM_PER_COUNT_LO + 2 ^ 32 * s.rd 0 POS_UM_PER_COUNT_HI_INT : Nat)

/-- The selected counter times POS_UM_PER_COUNT, in 2⁻³² µm (R50, R291). -/
def State.webProduct (s : State) : Int := s.webTravel * s.umPerCount

/-- WEB_POS of an index event now (R292). -/
def State.zWeb (s : State) : Int := roundShr ((s.webTravel - s.pos.runTravel) * s.umPerCount) 32

/-! Speed (R295, R296). -/

/-- The time stamps of a channel. -/
def State.posTimes (s : State) (c : Nat) : List Nat := smGet [] c s.pos.times

/-- N of R295; an absolute channel has no SPD_AVG, and N is 1 (log 58). -/
def State.spdN (s : State) (c : Nat) : Nat := if c < 4 then 2 ^ s.rd 0 (POS_CH_CFG_SPD_AVG c) else 1

/-- SPEED and PERIOD of a channel now (R295). Stamps are at least 1 ns apart (R289). -/
def State.posSpeed (s : State) (c : Nat) : Nat × Nat :=
  let ts := s.posTimes c
  let k := Nat.min (ts.length - 1) (s.spdN c)
  if k = 0 ∨ (4 ≤ c ∧ s.is 0 (POS_ABS_STATUS_FAULT (c - 4))) then (0, 0) else
  let dt := Nat.max 1 (ts.getD 0 0 - ts.getD k 0)
  let sp := (roundDiv (k * 1000000000 : Nat) dt).toNat
  let pe := (roundDiv dt k).toNat
  let since := s.tim.tb0 - ts.getD 0 0
  let sp := if pe < since then Nat.min sp (roundDiv 1000000000 since).toNat else sp
  (Nat.min sp 0xFFFFFFFF, Nat.min pe 0xFFFFFFFF)

/-- POS_WEB_SPEED in µm/s (R295). -/
def State.webSpeed (s : State) : Nat :=
  Nat.min (roundShr ((s.posSpeed (s.rd 0 POS_CTRL_WEB_CHAN)).1 * s.umPerCount) 32).toNat 0xFFFFFFFF

/-- A DIV below 1.0 sets CFG_INVALID (R297). -/
def State.divCheck (s : State) : State := s.setIf (decide (s.rd64 0 POS_LTG_DIV_LO < 2 ^ 32)) 0 POS_ERR_CFG_INVALID

/-- POS_STATUS follows WEB_CHAN and the line trigger generator (R296, R297). -/
def State.posStatus (s : State) : State :=
  let c := s.rd 0 POS_CTRL_WEB_CHAN
  let s := s.wr 0 POS_STATUS_MOVING (s.rd 0 (POS_CH_STATUS_MOVING c))
  let s := s.wr 0 POS_STATUS_REVERSE (s.rd 0 (POS_CH_STATUS_REVERSE c))
  let s := s.wr 0 POS_STATUS_STANDSTILL (s.rd 0 (POS_CH_STATUS_STANDSTILL c))
  let held := match s.pos.x with
    | some x => decide (s.webTravel * 2 ^ 32 < x - (s.rd64 0 POS_LTG_DIV_LO : Int))
    | none => false
  s.wr 0 POS_STATUS_LTG_HELD (bitN held)

/-- REVERSE of a channel. -/
def State.posReverse (s : State) (c : Nat) : Bool :=
  if c < 4 then s.is 0 (POS_CH_STATUS_REVERSE c) else s.is 0 (POS_ABS_STATUS_REVERSE (c - 4))

/-- A channel comes to standstill (R296). -/
def State.standstillNow (s : State) (c : Nat) : State :=
  let s := s.updPos fun x => { x with times := smSet [] c [] x.times }
  if c < 4 then (((s.clrF 0 (POS_CH_STATUS_MOVING c)).setF 0 (POS_CH_STATUS_STANDSTILL c)).pip 0 (20 + c)).posStatus else s

/-- The standstill time of a channel has run out in a POSC cycle before this one: it has moved since its last standstill, and no valid edge has come
for POS_STANDSTILL ms; an edge in the very cycle wins (R296, R308). -/
def State.standstillDue (s : State) (c : Nat) : Bool :=
  match s.posTimes c with
  | t :: _ => decide ((t + s.rd 0 POS_STANDSTILL_MS * 1000000) / 4 < s.tim.tb0 / 4)
  | [] => false

/-- A valid edge in a direction at ns `now`; a standstill that has come before it counts (R295, R296). -/
def State.validEdge (s : State) (c now : Nat) (rev : Bool) : State :=
  let s := if s.standstillDue c then s.standstillNow c else s
  let ts := s.posTimes c
  let turn := !ts.isEmpty && s.posReverse c != rev
  let ts := if turn then [now] else (now :: ts).take 129
  let s := s.updPos fun x => { x with times := smSet [] c ts x.times }
  if c < 4 then
    ((s.setF 0 (POS_CH_STATUS_MOVING c)).clrF 0 (POS_CH_STATUS_STANDSTILL c)).wr 0 (POS_CH_STATUS_REVERSE c) (bitN rev)
  else s.wr 0 (POS_ABS_STATUS_REVERSE (c - 4)) (bitN rev)

/-- STANDSTILL (R296). -/
def execStandstill (c : Fin 6) (s : State) : Answer := whenEv s (s.locked 0 .aux && s.standstillDue c) fun s => s.standstillNow c

/-! Trigger outputs (R299). -/

/-- A pulse starts, or its width restarts, on an output. -/
def State.trigPulse (s : State) (o : Nat) : State :=
  s.updPos fun x => { x with high := if x.high.contains o then x.high else x.high ++ [o] }

/-- Pulses on the outputs that a source drives. -/
def State.trigSource (s : State) (src unit : Nat) : State :=
  (List.range 16).foldl (fun s o =>
    if s.is 0 (POS_TRIG_CFG_OE o) && s.rd 0 (POS_TRIG_CFG_SRC o) == src && (src == 2 || s.rd 0 (POS_TRIG_CFG_UNIT o) == unit) then s.trigPulse o else s) s

/-- The level of a trigger output at its ball; none while it is high-impedance (R299, R467). -/
def State.trigLevel (s : State) (o : Nat) : Option Bool :=
  if !s.is 0 (POS_TRIG_CFG_OE o) then none else
  let u := s.rd 0 (POS_TRIG_CFG_UNIT o)
  let v := match s.rd 0 (POS_TRIG_CFG_SRC o) with
    | 1 => true
    | 2 => s.pos.high.contains o
    | 3 => decide (u < 16) && s.is 0 (POS_CMP_STATUS_HIGH u)
    | 4 => s.pos.high.contains o
    | _ => false
  some (v != s.is 0 (POS_TRIG_CFG_INV o))

/-- TRIGGER_PULSE_END (R299). -/
def execTriggerPulseEnd (n : Fin 16) (s : State) : Answer :=
  whenEv s (s.locked 0 .aux && s.pos.high.contains n) fun s => s.updPos fun x => { x with high := x.high.filter (· != n.val) }

/-! Compare units (R300 to R304). -/

/-- Bytes of tile `t` from package address `a` on lie inside a region in force: one of the bank of the newest band, or of the bank still
serving bands before a swap (R274). -/
def State.regionHolds (s : State) (a len : Nat) : Bool :=
  let inB (b : Nat) := (smGet [] b s.regions).any fun r => decide (r.lo ≤ a) && decide (a + len ≤ r.hi)
  inB s.bank || (s.retiring.isSome && inB (1 - s.bank))

/-- A list entry (R301). -/
structure CmpEntry where
  pos : Int
  width : Nat
  rev : Bool

/-- MODE; 3 is treated as 0 (R309). -/
def State.cmpMode (s : State) (u : Nat) : Nat := if s.rd 0 (POS_CMP_CTRL_MODE u) = 3 then 0 else s.rd 0 (POS_CMP_CTRL_MODE u)
/-- CHAN; 6 and 7 are treated as 0 (R309). -/
def State.cmpChan (s : State) (u : Nat) : Nat := if 5 < s.rd 0 (POS_CMP_CTRL_CHAN u) then 0 else s.rd 0 (POS_CMP_CTRL_CHAN u)
/-- The index of the current entry. -/
def State.cmpRd (s : State) (u : Nat) : Nat := s.rd 0 (POS_CMP_RD u)
/-- The producer index. -/
def State.cmpWr (s : State) (u : Nat) : Nat := s.rd 0 (POS_CMP_WR u)

/-- The counter a unit watches. Absolute channels use TRAVEL (R309). -/
def State.cmpCount (s : State) (u : Nat) : Int :=
  let c := s.cmpChan u
  if 4 ≤ c then (smGet AbsState.idle (c - 4) s.pos.abs).travel
  else if s.is 0 (POS_CMP_CTRL_CTR u) then sInt 64 (s.rd64 0 (POS_CH_TRAVEL_LO c)) else sInt 64 (s.rd64 0 (POS_CH_COUNT_LO c))

/-- The pipeline memory address of entry `i` (R300). -/
def State.cmpAddr (s : State) (u i : Nat) : Nat := pipeAddr 0 (s.rd 0 (POS_CMP_BASE u) / 16 * 16 + 16 * i)

/-- Entry `i` of a unit's list as it stands in memory (R301; log 59). -/
def State.cmpEntry (s : State) (u i : Nat) : CmpEntry :=
  let a := s.cmpAddr u i
  ⟨sInt 64 (s.memLE a 8), Nat.max 1 (s.memLE (a + 8) 2), (s.memLE (a + 10) 2).testBit 0⟩

/-- The unit has a current entry: EMPTY reads 0 (R309). -/
def State.cmpHas (s : State) (u : Nat) : Bool :=
  s.is 0 (POS_CMP_CTRL_EN u) &&
    match s.cmpMode u with
    | 0 => !s.is 0 (POS_CMP_STATUS_DONE u)
    | 1 => true
    | _ => s.cmpRd u != s.cmpWr u

/-- EMPTY follows (R309). -/
def State.cmpEmpty (s : State) (u : Nat) : State := s.wr 0 (POS_CMP_STATUS_EMPTY u) (bitN !s.cmpHas u)

/-- An entry fires (R304). `again`: in the pulse of the entry before it (R302). -/
def State.cmpFire (s : State) (u : Nat) (again : Bool) : State :=
  let s := s.setIf (s.is 0 (POS_CMP_STATUS_HIGH u) && !again) 0 (POS_CMP_STATUS_OVERLAP u)
  ((s.setF 0 (POS_CMP_STATUS_HIGH u)).addWrap 0 (POS_CMP_FIRED u) 1).pip 0 (32 + u)

/-- The unit advances to its next entry; the answer says whether it wrapped to entry 0 in CYCLIC mode (R300, R303). -/
def State.cmpAdvance (s : State) (u : Nat) : Bool × State :=
  let r := s.cmpRd u
  let l := s.cmpLen u
  match s.cmpMode u with
  | 0 => (false, (if l ≤ r + 1 then s.setF 0 (POS_CMP_STATUS_DONE u) else s.wr 0 (POS_CMP_RD u) (r + 1)).cmpEmpty u)
  | 1 => (decide (l ≤ r + 1), s.wr 0 (POS_CMP_RD u) ((r + 1) % l))
  | _ => (false, (s.wr 0 (POS_CMP_RD u) ((r + 1) % l)).cmpEmpty u)

/-- The unit is the marker unit (R305). -/
def State.isMarker (s : State) (u : Nat) : Bool := s.is 0 POS_MARK_CTRL_EN && s.rd 0 POS_MARK_CTRL_UNIT == u

/-- An entry has become current: it fires at the present count, is passed over or caught up where it is behind, and else waits (R303). -/
def State.cmpSettle (s : State) (u : Nat) (wrap again : Bool) : Nat → State
  | 0 => s
  | fuel + 1 =>
    if !s.cmpHas u || s.pos.bad.contains u then s else
    let e := s.cmpEntry u (s.cmpRd u)
    let v := s.cmpCount u
    if v = e.pos then
      let (w, s) := (s.cmpFire u again).cmpAdvance u
      s.cmpSettle u w true fuel
    else if wrap || (if e.rev then decide (e.pos < v) else decide (v < e.pos)) then s
    else
      let s := if s.isMarker u then s.addSat 0 POS_MARK_MISSED 1 else s
      let s := if s.is 0 (POS_CMP_CTRL_CATCHUP u) then s.cmpFire u false
        else (s.setF 0 (POS_CMP_STATUS_MISSED u)).addSat 0 (POS_CMP_MISSED_COUNT u) 1
      let (w, s) := s.cmpAdvance u
      s.cmpSettle u w (s.is 0 (POS_CMP_CTRL_CATCHUP u)) fuel

/-- As many entries as the list holds, and one. -/
def State.cmpFuel (s : State) (u : Nat) : Nat := s.cmpLen u + 1

/-- The counter of channel `c` has moved from `p c` by travel: the current entries it has reached fire (R302). -/
def State.cmpMoved (s : State) (c : Nat) (d : Int) : State :=
  (List.range 16).foldl (fun s u =>
    if s.cmpHas u && !s.pos.bad.contains u && s.cmpChan u == c then
      let e := s.cmpEntry u (s.cmpRd u)
      let v := s.cmpCount u
      let p := v - d
      if (!e.rev && decide (p < e.pos) && decide (e.pos ≤ v)) || (e.rev && decide (v ≤ e.pos) && decide (e.pos < p)) then
        let (w, s) := (s.cmpFire u false).cmpAdvance u
        s.cmpSettle u w true (s.cmpFuel u)
      else s
    else s) s

/-- The check that an enabled unit's list lies inside a region; the answer says whether the unit may run (R300). -/
def State.cmpCheck (s : State) (u : Nat) : State :=
  if !s.is 0 (POS_CMP_CTRL_EN u) then s else
  if s.regionHolds (s.cmpAddr u 0) (16 * s.cmpLen u) then
    if s.pos.bad.contains u then
      let s := s.updPos fun x => { x with bad := x.bad.filter (· != u) }
      s.cmpSettle u false false (s.cmpFuel u)
    else s
  else (s.setF 0 POS_ERR_CFG_INVALID).updPos fun x => { x with bad := if x.bad.contains u then x.bad else x.bad ++ [u] }

/-- RESTART, or EN set (R300). -/
def State.cmpRestart (s : State) (u : Nat) : State :=
  let s := (s.clrF 0 (POS_CMP_STATUS_DONE u)).wr 0 (POS_CMP_RD u) (if s.cmpMode u = 2 then s.cmpWr u else 0)
  let s := (s.updPos fun x => { x with bad := if x.bad.contains u then x.bad else x.bad ++ [u] }).cmpEmpty u
  if s.is 0 (POS_CMP_CTRL_EN u) then s.cmpCheck u else s.updPos fun x => { x with bad := x.bad.filter (· != u) }

/-- RESTART: a write of POS_CMPu_CTRL.RESTART (R300). -/
def execRestart (u : Fin 16) (s : State) : Answer := finish s (s.cmpRestart u)

/-- A write of POS_CMPu_CTRL (R300, R309). -/
def State.cmpCtrl (s : State) (u v : Nat) : State :=
  let was := s.is 0 (POS_CMP_CTRL_EN u)
  let s := s.wr 0 ⟨0xE, (POS_CMP_CTRL u).off, 7, 0⟩ v
  let on := s.is 0 (POS_CMP_CTRL_EN u)
  if (on && !was) || v.testBit 8 then s.cmpRestart u
  else (if on then s else s.updPos fun x => { x with bad := x.bad.filter (· != u) }).cmpEmpty u

/-- COMPARE_ENABLE: a write of POS_CMPu_CTRL (R300). -/
def execCompareEnable (u : Fin 16) (v : BitVec 32) (s : State) : Answer := finish s (s.cmpCtrl u v.toNat)

/-- The producer index moves; an entry of an empty ring becomes current (R300, R303). -/
def State.cmpSetWr (s : State) (u v : Nat) : State :=
  let had := s.cmpHas u
  let s := (s.wr 0 (POS_CMP_WR u) (v % s.cmpLen u)).cmpEmpty u
  if s.is 0 (POS_CMP_CTRL_EN u) && s.cmpMode u == 2 && !had then s.cmpSettle u false false (s.cmpFuel u) else s

/-- COMPARE_PULSE_END (R304). -/
def execComparePulseEnd (u : Fin 16) (s : State) : Answer :=
  whenEv s (s.locked 0 .aux && s.is 0 (POS_CMP_STATUS_HIGH u)) fun s => s.clrF 0 (POS_CMP_STATUS_HIGH u)

/-! Markers (R232, R305, R306). -/

/-- The unit that POS_MARK_CTRL names can take markers (R305). -/
def State.markOk (s : State) : Bool :=
  let u := s.rd 0 POS_MARK_CTRL_UNIT
  s.cmpMode u == 2 && s.cmpChan u == s.rd 0 POS_CTRL_WEB_CHAN && s.is 0 (POS_CMP_CTRL_CTR u) && s.is 0 (POS_CMP_CTRL_EN u)

/-- The count of a marker position (R305); where POS_UM_PER_COUNT is 0 the quotient is not given (log 60). -/
def State.markTarget (s : State) (p : Int) : Int :=
  let um := s.umPerCount.toNat
  if um = 0 then (Config.free (p.toNat + 2 * s.freeCtr) : Int)
  else s.pos.lineTravel + roundDiv ((p + (s.rd 0 POS_MARK_OFFSET : Int) - s.clk.lastWeb.getD 0) * 2 ^ 32) um

/-- A ring entry's 16 bytes (R301). -/
def cmpBytes (pos : Int) (width : Nat) : Bytes := leBytes 8 (uNat 64 pos) ++ leBytes 2 width ++ zeros 6

/-- The entries of a ring from its current one on, as bytes. -/
def State.cmpPending (s : State) (u : Nat) : List (Int × Bytes) :=
  (List.range ((s.cmpWr u + s.cmpLen u - s.cmpRd u) % s.cmpLen u)).map fun i =>
    let j := (s.cmpRd u + i) % s.cmpLen u
    ((s.cmpEntry u j).pos, s.bytes (s.cmpAddr u j) 16)

/-- A marker entry is inserted in ascending order (R306). The answer says whether there was room. -/
def State.markInsert (s : State) (u : Nat) (pos : Int) : Bool × State :=
  let l := s.cmpLen u
  let pend := s.cmpPending u
  if l ≤ pend.length + 1 then (false, s) else
  let lo := pend.takeWhile fun x => decide (x.1 ≤ pos)
  let all := lo ++ (pos, cmpBytes pos (s.rd 0 POS_MARK_CTRL_WIDTH)) :: pend.drop lo.length
  let r := s.cmpRd u
  let s := all.zipIdx.foldl (fun s ((_, bs), i) => s.setBytes (s.cmpAddr u ((r + i) % l)) bs) s
  let s := (s.wr 0 (POS_CMP_WR u) ((s.cmpWr u + 1) % l)).cmpEmpty u
  (true, if lo.isEmpty then s.cmpSettle u false false (s.cmpFuel u) else s)

/-- A marker position comes to the marker ring; `gap` is MIN_GAP of its band's job (R232, R264, R305, R306). -/
def State.markerInsert (s : State) (p : Int) (gap : Nat) : State :=
  let near := match s.sgm.lastMark with
    | some q => decide (q ≤ p) && decide (p - q < (gap : Int))
    | none => false
  if near then s.addSat 0 COL_MARK_MERGED 1
  else if !s.is 0 POS_MARK_CTRL_EN then s
  else if !s.markOk then s.setF 0 POS_ERR_CFG_INVALID
  else
    let (ok, s) := s.markInsert (s.rd 0 POS_MARK_CTRL_UNIT) (s.markTarget p)
    if ok then { s.addWrap 0 COL_MARK_APPENDED 1 with sgm := { s.sgm with lastMark := some p } }
    else (s.addSat 0 COL_MARK_LOST 1).setF 0 COL_ERR_MARK_FULL

/-! Runs and counters. -/

/-- POS at the 0-to-1 transition of RUN (R292, R297). -/
def State.posRunStart (s : State) : State :=
  let x := s.webTravel * 2 ^ 32 + (s.rd64 0 POS_LTG_DIV_LO : Int)
  let s := s.updPos fun p => { p with x := some x, runTravel := s.webTravel, lineTravel := s.webTravel }
  let s := s.divCheck
  (s.wr64 0 POS_LTG_NEXT_LO (uNat 64 (-(-x / 2 ^ 32)))).posStatus

/-- POS at an accepted line tick (R299, R305). -/
def State.posLine (s : State) : State := (s.updPos fun p => { p with lineTravel := s.webTravel }).trigSource 2 0

/-- POS_CLR.COUNTERS (R309). -/
def State.posClr (s : State) : State :=
  let s := ([POS_LTG_TICKS, POS_MARK_MISSED]).foldl (fun s f => s.clrCount 0 f) s
  let s := (List.range 4).foldl (fun s c => ((s.clrCount 0 (POS_CH_ZCOUNT c)).clrCount 0 (POS_CH_FILT_FAULTS c)).clrCount 0 (POS_CH_QUAD_FAULTS c)) s
  let s := (List.range 2).foldl (fun s a => s.clrCount 0 (POS_ABS_ERRORS a)) s
  (List.range 16).foldl (fun s u => (s.clrCount 0 (POS_CMP_FIRED u)).clrCount 0 (POS_CMP_MISSED_COUNT u)) s

/-- POS_CLR_COUNTERS (R309). -/
def execPosClrCounters (s : State) : Answer := finish s s.posClr

end Sys2Proof.Machine
end

