-- ==== Sys2Proof/Machine/Cal.lean ====
section
/-! DEFINITION. Calibration and self-test (R424 to R438). The sensor readings are in Machine/Power.lean. -/

namespace Sys2Proof.Machine

/-! Requests (R424, R427, R430). -/

/-- A request made while the tile is inspecting is deferred and counted (R427). -/
def State.defer (s : State) (t : Nat) : State := if s.inspecting then s.addSat t CAL_DEFERRED 1 else s

/-- A recalibration is requested: a request that waits already becomes forced when either one is (R437). -/
def State.calRequest (s : State) (t : Nat) (r : CalReq) : State :=
  match (s.calTile t).cal with
  | some q => s.updCal t fun c =>
      { c with cal := some { q with forced := q.forced || r.forced, hard := q.hard || r.hard, forcedAt := if q.forced then q.forcedAt else r.forcedAt } }
  | none => (((s.updCal t fun c => { c with cal := some r, calDue := false }).setF t CAL_STATUS_CAL_PENDING).defer t)

/-- A write of FORCE in the cycle of a band tick counts from the next one (R437). -/
def State.forceLate (s : State) (t : Nat) (force : Bool) : State := if force then s.lateWrite t CAL_ERR_LATE_WRITE else s

/-- TB0 of a FORCE written now. -/
def State.forcedNow (s : State) (force : Bool) : Option Nat := if force then some s.tim.tb0 else none

/-- CAL of CAL_CTRL (R427, R428). -/
def State.calWrite (s : State) (t : Nat) (force : Bool) : State := (s.forceLate t force).calRequest t ⟨true, force, false, s.forcedNow force⟩

/-- CAL (R427). -/
def execCal (t : Tile) (force : Bool) (s : State) : Answer := onTile s t fun s => s.calWrite t force

/-- The self-test that CAL_ST_CFG describes (R430). -/
def State.stCfg (s : State) (t : Nat) (force : Bool) : StReq :=
  ⟨s.rd t CAL_ST_CFG_KIND, s.rd t CAL_ST_CFG_PORT, s.rd t CAL_ST_CFG_PATTERN, s.rd t CAL_ST_CFG_MASK, s.rd t CAL_ST_DWELL, force, s.forcedNow force⟩

/-- ST of CAL_CTRL (R430): a reserved kind, or a forced test of KIND 0 or 1 while RUN is 1, is refused. A request that waits takes the newly
latched configuration and stays forced (log 64). -/
def State.stWrite (s : State) (t : Nat) (force : Bool) : State :=
  let s := s.forceLate t force
  let r := s.stCfg t force
  if decide (4 ≤ r.kind) || force && decide (r.kind < 2) && s.is 0 BND_CTRL_RUN then s.setF t CAL_ERR_ST_REFUSED
  else
    let old := (s.calTile t).st
    let s := (s.setF t CAL_STATUS_ST_PENDING).clrF t CAL_ST_RESULT_DONE
    match old with
    | some q => s.updCal t fun c =>
        { c with st := some { r with forced := r.forced || q.forced, forcedAt := if q.forced then q.forcedAt else r.forcedAt } }
    | none => (s.updCal t fun c => { c with st := some r, stDue := false }).defer t

/-- ST (R430). -/
def execSt (t : Tile) (force : Bool) (s : State) : Answer := onTile s t fun s => s.stWrite t force

/-- Nothing runs on the tile (R429). -/
def State.calFree (s : State) (t : Nat) : Bool := !s.is t CAL_STATUS_RUNNING && (s.calTile t).run.isNone

/-- A recalibration can start (R427, R428). -/
def State.calReady (s : State) (t : Nat) : Bool :=
  (s.calTile t).cal.isSome && s.calFree t && (!s.inspecting || (s.calTile t).calDue)

/-- A self-test can start: one of KIND 0 or 1 only while RUN is 0 (R427, R428, R430). -/
def State.stReady (s : State) (t : Nat) : Bool :=
  match (s.calTile t).st with
  | some r => s.calFree t && if r.kind < 2 then !s.is 0 BND_CTRL_RUN else !s.inspecting || (s.calTile t).stDue
  | none => false

/-- CANCEL removes the work that has not started, but for a request forced under R424 (R427). Work that a band tick has opened has started there,
where the tile is free for it; work that starts later in the cycle runs all the same (R437). -/
def State.calCancel (s : State) (t : Nat) : State :=
  let c := s.calTile t
  let keep := (c.cal.map (·.hard)).getD false || c.calDue && s.calReady t
  let keepSt := c.stDue && s.stReady t && !s.calReady t
  let s := s.updCal t fun c =>
    { c with
      st := if keepSt then c.st else none
      stDue := keepSt
      cal := if keep then c.cal else none
      calDue := keep && c.calDue
      cancelled := some (s.tim.tb0, if keep then none else c.cal, if keepSt then none else c.st) }
  (s.wr t CAL_STATUS_ST_PENDING (bitN keepSt)).wr t CAL_STATUS_CAL_PENDING (bitN keep)

/-- CANCEL (R427). -/
def execCancel (t : Tile) (s : State) : Answer := onTile s t fun s => s.calCancel t

/-! The gap (R428). -/

/-- A write of CAL_GAP_CTRL.ARM (R428, R437). -/
def State.gapArm (s : State) : State := (s.forceLate 0 true).setF 0 CAL_GAP_CTRL_ARMED

/-- GAP_ARM (R428). -/
def execGapArm (s : State) : Answer := finish s s.gapArm

/-- GAP_DISARM (R428). -/
def execGapDisarm (s : State) : Answer := finish s (s.clrF 0 CAL_GAP_CTRL_ARMED)

/-- The time of a tile's deferred work at a band tick of TB0 `now` (R428). A request whose like is running is served after that run, and a FORCE
written in the cycle of the tick counts from the next one (R437). -/
def CalTile.mark (c : CalTile) (opened running : Bool) (now : Nat) : CalTile :=
  { c with
    calDue := c.calDue || !running && (match c.cal with | some r => opened || r.hard || r.forced && r.forcedAt != some now | none => false)
    stDue := c.stDue || c.run.isNone && (match c.st with | some r => opened || r.forced && r.forcedAt != some now | none => false) }

/-- The work that CANCEL has removed in the cycle of TB0 `now`. -/
def CalTile.taken (c : CalTile) (now : Nat) : Option CalReq × Option StReq :=
  match c.cancelled with
  | some (k, q, r) => if k = now then (q, r) else (none, none)
  | none => (none, none)

/-- A band tick finds the work of a tile; what it opens of the work that CANCEL has removed in its cycle runs (R428, R437). -/
def State.calMark (s : State) (opened : Bool) (t : Nat) : State :=
  let c := s.calTile t
  let running := s.is t CAL_STATUS_RUNNING
  let (q, r) := c.taken s.tim.tb0
  let b := ({ c with cal := q, calDue := false, st := r, stDue := false } : CalTile).mark opened running s.tim.tb0
  let s := if b.calDue then (s.updCal t fun c => { c with cal := q }).setF t CAL_STATUS_CAL_PENDING else s
  let s := if b.stDue then (s.updCal t fun c => { c with st := r }).setF t CAL_STATUS_ST_PENDING else s
  s.updCal t (·.mark opened running s.tim.tb0)

/-- The band tick opens the time of deferred work: the web is slow, the armed gap is reached, or the work is forced (R428). A gap armed in the
cycle of the tick counts from the next one (R437). -/
def State.calBand (s : State) (empty : Bool) (w : Int) : State :=
  let gap := s.stood 0 CAL_GAP_CTRL_ARMED && !empty && decide (sInt 64 (s.rd64 0 CAL_GAP_POS_LO) ≤ w)
  let slow := s.rd 0 BND_CTRL_SRC == 0 && decide (s.webSpeed < s.rd 0 CAL_IDLE_SPEED)
  let s := if gap then s.serve 0 CAL_GAP_CTRL_ARMED else s
  s.eachTile fun t s => s.calMark (gap || slow) t

/-! Work (R425, R429, R430). -/

/-- A local port that is UP is recalibrated (R90, R425). -/
def State.calPort (s : State) (t p : Nat) : State :=
  if s.portSt t p = 5 then
    (((s.cutPacket t p).updPort t p fun x => { x with failed := false }).setHold t p 1).enterPort t p 2
  else s.updPort t p fun x => { x with failed := false }

/-- A recalibration run starts (R425). -/
def State.calStart (s : State) (t : Nat) : State :=
  let r := (s.calTile t).cal.getD ⟨false, false, false, none⟩
  let ps := [0, 1].filter fun p => s.portSt t p == 5
  let st := s.stReady t
  let s := s.updCal t fun c => { c with cal := none, calDue := false, ports := ps, stDue := c.stDue || st, start := s.tim.tb0, lost := 0 }
  let s := (((s.clrF t CAL_STATUS_CAL_PENDING).setF t CAL_STATUS_RUNNING).wr t CAL_STATUS_CAUSE
    ((if r.soft then 3 else 1) + bitN (r.forced || r.hard))).wr t CAL_TEMP_LAST (s.rd t CAL_TEMP_NOW)
  ((s.pip t 220).calPort t 0).calPort t 1

/-- A self-test starts: a loopback takes its port (R430, R432, R433). -/
def State.stStart (s : State) (t : Nat) (r : StReq) : State :=
  let s := s.updCal t fun c => { c with st := none, stDue := false, run := some r, checks := [] }
  let s := (s.clrF t CAL_STATUS_ST_PENDING).setF t CAL_STATUS_ST_RUNNING
  match r.kind with
  | 2 => ((s.cutPacket t r.port).setHold t r.port 2).enterTest t r.port
  | 3 => (s.setHold t r.port 3 |>.absentUpdate t r.port).farStart t r.port
  | _ => s

/-- Work that CANCEL has removed in this cycle and that starts in it (R437). -/
def State.workBack (s : State) (t : Nat) : State :=
  let (q, r) := (s.calTile t).taken s.tim.tb0
  let a := if (s.calTile t).cal.isNone then s.updCal t fun c => { c with cal := q } else s
  let b := if (s.calTile t).st.isNone then s.updCal t fun c => { c with st := r } else s
  if s.calReady t || s.stReady t then s else if a.calReady t then a else if b.stReady t then b else s

/-- Work starts: a recalibration before a self-test (R429). -/
def State.workStart (s : State) (t : Nat) : State :=
  if s.calReady t then s.calStart t
  else match (s.calTile t).st with
    | some r => s.stStart t r
    | none => s

/-- Every port of the run is UP again or has failed (R425). -/
def State.calDone (s : State) (t : Nat) : Bool := [0, 1].all fun p => (s.port t p).hold != 1

/-- The end of a recalibration run (R425, R426, R436). CAL_LOST_US is rounded as R9 rounds (DESIGN CHOICE, log 251). -/
def State.calEnd (s : State) (t : Nat) : State :=
  let fails := ofOnes ([0, 1].filter fun p => (s.port t p).failed)
  let us := Nat.min (roundDiv (s.calTile t).lost 1000).toNat (2 ^ 32 - 1)
  let s := (s.clrF t CAL_STATUS_RUNNING).updCal t fun c => { c with ports := [] }
  let s := (s.addWrap t CAL_RUNS 1).wr t CAL_LOST_US us
  (s.pip t 221).notify 0x0040 t (s.rd t CAL_STATUS_CAUSE) us fails

/-- CAL_RUN_END (R425). -/
def execCalRunEnd (t : Tile) (s : State) : Answer :=
  whenEv s (s.fit t && s.is t CAL_STATUS_RUNNING && s.calDone t) fun s => s.calEnd t

/-! The memory a self-test covers (R430). -/

/-- The memory regions of a test as first address and length: engine stores, cluster memory, pipeline memory
below 0x40_0000, queue pool. -/
def testSpans (t kind mask : Nat) : List (Nat × Nat) :=
  if kind = 0 then
    (if mask.testBit 0 then (List.range 8).flatMap fun c => (List.range 16).map fun e => (addrOf t (0x40 + c) (e * 0x10000), 0xC000) else []) ++
    (if mask.testBit 1 then [(addrOf t 0x48 0, 0x400000)] else []) ++
    (if mask.testBit 2 then [(addrOf t 0x50 0, 0x400000)] else []) ++
    (if mask.testBit 3 then [(addrOf t 0x50 0x400000, 0x200000)] else [])
  else (onesOf 8 mask).flatMap fun c => (List.range 16).map fun e => (addrOf t (0x40 + c) (e * 0x10000), 0xC000)

/-- An address lies in the regions. -/
def inSpans (l : List (Nat × Nat)) (a : Nat) : Bool := l.any fun (b, n) => decide (b ≤ a) && decide (a < b + n)

/-- The tested memory is left zero-filled and its seals are cleared (R430, R451). -/
def State.zeroSpans (s : State) (l : List (Nat × Nat)) : State :=
  { s with mem := s.mem.filter (fun c => !inSpans l c.1), lcs := { s.lcs with seals := s.lcs.seals.filter fun g => !inSpans l (g * 64) } }

/-- Bytes that nothing constrains, from an address on. -/
def State.freeBytes (s : State) (a n : Nat) : State :=
  let k := s.freeCtr
  { s with freeCtr := k + n }.setBytes a ((List.range n).map fun i => BitVec.ofNat 8 (Config.free (k + i)))

/-- A stripe with contents that nothing constrains, from free value `k` on. -/
def RefStripe.undefine (k : Nat) (x : RefStripe) : RefStripe :=
  let a := k + x.raw.length
  let b := a + 4 * x.lines * x.cols
  { x with
    raw := x.raw.zipIdx.map fun (_, i) => BitVec.ofNat 8 (Config.free (k + i))
    rows := x.rows.zipIdx.map fun (l, i) => l.zipIdx.map fun (c, j) => c.zipIdx.map fun (_, n) => Config.free (a + 4 * (i * x.cols + j) + n) % 256
    cells := x.cells.zipIdx.map fun (l, i) => l.zipIdx.map fun (_, j) => Config.free (b + i * x.cols + j) % 256 }

/-- Stripes from free value `k` on, and the next free value. -/
def undefineStripes : Nat → List RefStripe → List RefStripe × Nat
  | k, [] => ([], k)
  | k, x :: l =>
    let (r, n) := undefineStripes (k + x.raw.length + 8 * (x.lines + x.cells.length) * x.cols) l
    (x.undefine k :: r, n)

/-- Sets of stripes from free value `k` on, and the next free value. -/
def undefineSets : Nat → List (List RefStripe) → List (List RefStripe) × Nat
  | k, [] => ([], k)
  | k, x :: l =>
    let (y, k) := undefineStripes k x
    let (r, n) := undefineSets k l
    (y :: r, n)

/-- The stripes that lie in the pipeline memory of a tile are undefined (R437). -/
def State.ringsUndefined (s : State) (t : Nat) : State :=
  (s.ref.rings.filter fun (k, _) => k / 8 % 8 == t).foldl (fun s (k, r) =>
    let (cur, a) := undefineStripes s.freeCtr r.cur
    let (sets, b) := undefineSets a r.sets
    { s with freeCtr := b }.updRef fun x => { x with rings := smSet RefRing.idle k { r with cur := cur, sets := sets } x.rings }) s

/-- The queues of a tile are reset with no record (R430). -/
def State.resetQueues (s : State) (t : Nat) : State :=
  let s := (List.range 256).foldl (fun s q => if (s.qItems t q).isEmpty then s else (s.emptyQueue t q).2) s
  { s with que := { s.que with asm := s.que.asm.filter fun (k, _) => k / 256 != t } }

/-- The engines of the clusters in MASK are left IDLE (R430). -/
def State.idleEngines (s : State) (t mask : Nat) : State :=
  { s with eng := { s.eng with engs := s.eng.engs.filter fun (k, _) => !(k / 128 == t && mask.testBit (k % 128 / 16)) } }

/-- Stripes that lie in the pipeline memory of a tile read as zeros (R181, R430). -/
def State.ringsZero (s : State) (t : Nat) : State :=
  let blank (x : RefStripe) : RefStripe :=
    { x with raw := zeros x.raw.length, rows := x.rows.map (·.map (·.map fun _ => 0)), cells := x.cells.map (·.map fun _ => 0) }
  s.updRef fun x => { x with rings := x.rings.map fun (k, r) =>
    if k / 8 % 8 = t then (k, { r with cur := r.cur.map blank, sets := r.sets.map (·.map blank) }) else (k, r) }

/-- What a test of KIND 0 or 1 leaves (R430). -/
def State.testLeaves (s : State) (t : Nat) (r : StReq) : State :=
  let s := s.zeroSpans (testSpans t r.kind r.mask)
  match r.kind with
  | 0 =>
    let s := if r.mask.testBit 2 then s.ringsZero t else s
    if r.mask.testBit 3 then s.resetQueues t else s
  | 1 => (onesOf 8 r.mask).foldl (fun s c => (List.range 16).foldl (fun s e => s.wr t (ENG_E_STATUS_STATE (c * 16 + e)) 0) s) (s.idleEngines t r.mask)
  | _ => s

/-- A lane of a loopback fails: its checker never locks, or the bit error ratio is above 10⁻¹² (R433). -/
def LaneCheck.fails (x : LaneCheck) : Bool := !x.locked || decide (x.bits < x.errors * 10 ^ 12)

/-- The bond lanes of a local port that fail a loopback (R433). -/
def State.lanesFailed (s : State) (t p : Nat) : List Nat := (s.bond t p).filter fun n => (smGet LaneCheck.idle n (s.calTile t).checks).fails

/-- The failures of a self-test that ends, and the first: words and engines as the test has found them, lanes as their checkers have (R433,
R434). -/
def State.stFound (s : State) (t : Nat) (r : StReq) (fails ff : Nat) : Nat × Nat :=
  if r.kind < 2 then (fails, ff) else ((s.lanesFailed t r.port).length, (s.lanesFailed t r.port).headD 0)

/-- The end of the self-test that runs: a loopback ends when its port is back (R430, R434). -/
def State.stEnd (s : State) (t : Nat) (r : StReq) (fails ff : Nat) : State :=
  let (n, a) := s.stFound t r fails ff
  let s := s.testLeaves t r
  s.stFinish t n (n != 0) false (if n = 0 then none else some a)

/-- The self-test can end now: a loopback's port is no longer held. -/
def State.stOver (s : State) (t : Nat) : Bool :=
  match (s.calTile t).run with
  | some r => decide (r.kind < 2) || (s.port t r.port).hold == 0
  | none => false

/-- SELFTEST_END (R434). -/
def execSelftestEnd (t : Tile) (fails : Nat) (firstFail : BitVec 40) (s : State) : Answer :=
  whenEv s (s.fit t && s.stOver t) fun s =>
    match (s.calTile t).run with
    | some r => s.stEnd t r fails firstFail.toNat
    | none => s

/-- RUN is set during a test of KIND 0 or 1: it aborts, and the tested memory is undefined (R437);
queues whose memory was tested are reset (log 65). -/
def State.stAbort (s : State) (t : Nat) : State :=
  match (s.calTile t).run with
  | some r =>
    if r.kind < 2 then
      let s := (testSpans t r.kind r.mask).foldl (fun s (a, n) => s.freeBytes a n) s
      let s := if r.kind = 0 && r.mask.testBit 2 then s.ringsUndefined t else s
      let s := if r.kind = 0 && r.mask.testBit 3 then s.resetQueues t else s
      s.stFinish t 0 false true none
    else s
  | none => s

/-- Every tile's test of KIND 0 or 1 aborts at a 0-to-1 transition of RUN (R437). -/
def State.calRunStart (s : State) : State := s.eachTile fun t s => s.stAbort t

/-! Package figures (R435). -/

/-- A figure above its limit (R435). -/
def State.figureLimit (s : State) (v lim code : Nat) : State :=
  if v ≠ 0xFFFF ∧ lim < v then (s.setF 0 CAL_ERR_QUALITY).notify 0x0042 0 code v 0xFF else s

/-- CAL_PTP_RESID (R435): the domain TB1 follows. -/
def State.ptpResid (s : State) : Nat :=
  let sel := s.rd 0 TIM_STATUS_SEL
  if 2 ≤ sel then 0xFFFF else Nat.min ((smGet [] sel s.cal.ptp).foldl Nat.max 0) 65534

/-- CAL_STITCH_RESID (R435): over the enabled groups, leaving out those without a value. -/
def State.stitchResid (s : State) : Nat :=
  match ((s.groups s.bank).map fun g => s.rd 0 (REF_GRP_STITCH_RES g)).filter (· != 0xFFFF) with
  | [] => 0xFFFF
  | v :: l => l.foldl Nat.max v

/-- Tile 0 updates the package figures (R435). -/
def State.qualityUpdate (s : State) : State :=
  let p := s.ptpResid
  let q := s.stitchResid
  let s := (s.wr 0 CAL_PTP_RESID p).wr 0 CAL_STITCH_RESID q
  (s.figureLimit p (s.rd 0 CAL_QUAL_LIM2_PTP_MAX) 2).figureLimit q (s.rd 0 CAL_QUAL_LIM2_STITCH_MAX) 3

/-- QUALITY_UPDATE (R435). -/
def execQualityUpdate (s : State) : Answer := finish s s.qualityUpdate

end Sys2Proof.Machine
end

