-- ==== Sys2Proof/Machine/Stitch.lean ====
section
/-! DEFINITION. Stitching (R154 to R172): delays, import windows, cross-web sampling, hedgerows, missing sources, trims. -/

namespace Sys2Proof.Machine

/-! What stitching keeps. -/

/-- The state with the stitchers changed. -/
def State.updSti (s : State) (f : Stitch → Stitch) : State := { s with sti := f s.sti }

/-- A corrected line enters the history of its sub-stream in pipeline memory (R160): line `a` in slot a mod SLOTS (DESIGN CHOICE, log 154). -/
def State.histStore (s : State) (b sub a : Nat) (ps : List (List Nat)) : State :=
  let slots := s.rdB b (sub / 8) (STI_SUB_HIST_SLOTS (sub % 8))
  if slots = 0 ∨ s.rdB b (sub / 8) (STI_SUB_CFG_EN (sub % 8)) = 0 then s
  else
    let plane := 4 * ceilDiv (3 * s.subWidth b sub) 4
    s.setBytes (pipeAddr (sub / 8) (s.rdB b (sub / 8) (STI_SUB_HIST_BASE (sub % 8)) + a % slots * (ps.length * plane))) (ps.flatMap (slotBytes plane))

/-- The history of a sub-stream. -/
def State.srcHist (s : State) (sub : Nat) : SrcHist := smGet ⟨0, []⟩ sub s.sti.src

/-- The number of the most recent line tick, none before the first. -/
def State.lastLine (s : State) : Option Nat := s.clk.lastWeb.map fun _ => s.rd64 0 BND_LINE_LO

/-- Plane G of a group, or plane 0 of a monochrome one (R164, R168). -/
def State.grpPlane (s : State) (b g : Nat) : Nat := if s.rdB b 0 (STI_GRP_CFG_RGB g) = 0 then 0 else 1

/-- TRIM_X and TRIM_Y in effect for a line (R169). -/
def State.trimAt (s : State) (sub n : Nat) : Int × Int :=
  (((smGet [] sub s.sti.trims).find? fun (f, _, _) => decide (f ≤ n)).map (·.2)).getD (0, 0)

/-! Along-web delay (R159). -/

/-- D of a sub-stream for stitched line `n`, and whether the trim was cut (R159). -/
def State.delayOf (s : State) (b sub n : Nat) : Nat × Bool :=
  let t := sub / 8
  let u := sub % 8
  let slots := s.rdB b t (STI_SUB_HIST_SLOTS u)
  let ty := (s.trimAt sub n).2
  if slots = 0 then (0, ty != 0)
  else
    let d : Int := (s.rdB b t (STI_SUB_DELAY_INT u) * 256 + s.rdB b t (STI_SUB_DELAY_FRAC u) : Nat) + ty
    let c := clampI 0 (((slots : Int) - 2) * 256 + 255) d
    (c.toNat, c != d)

/-- What is known of a line of a sub-stream that stitched line `n` needs: nothing yet, its planes, or why it is missing (R113, R115, R118,
R165, R170). -/
def State.srcLine (s : State) (sub n : Nat) (a : Int) : Option (Except (Nat × Nat) (List (List Nat))) :=
  let h := s.srcHist sub
  if a < 0 then some (.error (0x04, 15))
  else if h.since ≤ n ∧ a < h.since then some (.error (0x08, 15))
  else (h.lines.find? fun l => (l.a : Int) == a).map fun l =>
    match l.miss with
    | some m => .error m
    | none => .ok l.planes

/-- y' of a sub-stream for stitched line `n` (R159): line n − I, and with F not 0 the line before it. -/
def State.delayed (s : State) (b sub n : Nat) : Option (Except (Nat × Nat) (List (List Nat))) :=
  let (d, _) := s.delayOf b sub n
  let i := d / 256
  let f := d % 256
  match s.srcLine sub n ((n : Int) - i) with
  | none => none
  | some x =>
    if f = 0 then some x else
    match s.srcLine sub n ((n : Int) - i - 1) with
    | none => none
    | some y => some do
      let p ← x
      let q ← y
      pure ((p.zip q).map fun (u, v) => (u.zip v).map fun (c, e) => ((256 - f) * c + f * e + 128) / 256)

/-! Import windows (R158, R167). -/

/-- An import window's progress. -/
def State.imp (s : State) (t i : Nat) : ImpWin := smGet ⟨0, []⟩ (t * 4 + i) s.sti.imps

/-- The state with a window's progress changed. -/
def State.updImp (s : State) (t i : Nat) (f : ImpWin → ImpWin) : State :=
  s.updSti fun x => { x with imps := smUpd ⟨0, []⟩ (t * 4 + i) f x.imps }

/-- The enabled windows of a tile that carry column `c` of a sub-stream (R158). -/
def State.impsFor (s : State) (b t sub c : Nat) : List Nat :=
  [0, 1, 2, 3].filter fun i =>
    s.rdB b t (STI_IMP_CFG_EN i) != 0 && s.rdB b t (STI_IMP_CFG_SUB i) == sub &&
      decide (s.rdB b t (STI_IMP_X0 i) ≤ c) && decide (c < s.rdB b t (STI_IMP_X0 i) + s.rdB b t (STI_IMP_COUNT i))

/-- The delayed line of a source as tile `t` has it: its own, or what its import window has brought (R158, R165, R167). -/
def State.sourceFor (s : State) (b t sub c n : Nat) : Option (Except (Nat × Nat) (List (List Nat))) :=
  if sub / 8 = t then s.delayed b sub n else
  match s.impsFor b t sub c with
  | i :: _ =>
    let w := s.imp t i
    if w.late.contains n then some (.error (0x01, 2))
    else if n < w.next then s.delayed b sub n
    else none
  | [] => some (.error (0x01, 2))

/-- The next line of a window is complete on the tile that holds its sub-stream (R158). -/
def State.impReady (s : State) (t i : Nat) : Bool :=
  let w := s.imp t i
  let b := s.bankOf (s.lineCfg w.next)
  s.rdB b t (STI_IMP_CFG_EN i) != 0 && (match s.lastLine with | some c => decide (w.next ≤ c) | none => false) &&
    (s.delayed b (s.rdB b t (STI_IMP_CFG_SUB i)) w.next).isSome

/-- IMPORTED_LINE: the next line of a window reaches the importing tile (R158). -/
def State.importLine (s : State) (t i : Nat) : State := s.updImp t i fun w => { w with next := w.next + 1 }

/-- IMPORTED_LINE (R158). -/
def execImportedLine (t : Tile) (i : Fin 4) (s : State) : Answer := whenEv s (s.fit t && s.impReady t i) fun s => s.importLine t i

/-- The wait of a window's next line has expired: WAIT of port 0 line ticks have followed its own (R167). -/
def State.impExpired (s : State) (t i : Nat) : Bool :=
  let w := s.imp t i
  let b := s.bankOf (s.lineCfg w.next)
  s.rdB b t (STI_IMP_CFG_EN i) != 0 &&
    (match s.lastLine with | some c => decide (w.next + s.rdB b t (ING_PORT_CTRL_WAIT 0) ≤ c) | none => false)

/-- IMPORT_LATE: the line is built without its import (R167). -/
def State.importLate (s : State) (t i : Nat) : State :=
  ((s.addSat t (STI_IMP_LATE i) 1).setF t STI_ERR_IMPORT_LATE).updImp t i fun w => { next := w.next + 1, late := (w.next :: w.late).take srcKept }

/-- The window's line arrives in this cycle: a command that waits brings it (R171). -/
def State.impComes (s : State) (t i : Nat) : Bool :=
  s.impReady t i && s.pending.any fun c => match c with
    | .importedLine u j => u.val == t && j.val == i
    | _ => false

/-- IMPORT_LATE (R167): an arrival in the same cycle wins (R171). -/
def execImportLate (t : Tile) (i : Fin 4) (s : State) : Answer :=
  whenEv s (s.fit t && s.impExpired t i && !s.impComes t i) fun s => s.importLate t i

/-! Map words and hedgerows (R161, R162). -/

/-- The map word of segment column `c` (R161). -/
def State.mapWord (s : State) (b t g c : Nat) : Nat := s.memLE (pipeAddr t (s.rdB b t (STI_GRP_MAP_BASE g) + 4 * c)) 4

/-- The secondary word of hedgerow column `k` (R162). -/
def State.secWord (s : State) (t : Nat) (h : Hedge) (k : Nat) : Nat := s.memLE (pipeAddr t (h.secBase + 4 * k)) 4

/-- SUB of a map word. -/
def wordSub (w : Nat) : Nat := bitsOf w 29 24
/-- SRC_X of a map word. -/
def wordX (w : Nat) : Nat := bitsOf w 23 0

/-- Every map word of a tile's part of a group, primary and secondary. -/
def State.mapWords (s : State) (b t g : Nat) : List Nat :=
  (List.range (s.seg b t g).2).map (s.mapWord b t g) ++
    (s.hedges b t g).flatMap fun h => (List.range h.len).map (s.secWord t h)

/-! The configuration rule (R157, R170). -/

/-- Stretches follow one another from `x` to `w` with neither gap nor overlap. -/
def tilesExactly (w : Nat) : Nat → List (Nat × Nat) → Bool
  | x, [] => x == w
  | x, (a, n) :: l => a == x && tilesExactly w (x + n) l

/-- The segments of an enabled group do not cover its columns exactly once (R157). -/
def State.segsBad (s : State) (b g : Nat) : Bool :=
  let l := (s.tiles.map fun t => s.seg b t g).filter (·.2 != 0)
  !tilesExactly (s.rdB b 0 (STI_GRP_WIDTH g)) 0 (sortBy (fun x y => decide (x.1 ≤ y.1)) l)

/-- A map word breaks R170. -/
def State.wordBad (s : State) (b t g w : Nat) : Bool :=
  let sub := wordSub w
  let c := wordX w / 256
  s.subGroup b sub != some g || !s.fit (sub / 8) || decide (s.subWidth b sub ≤ c) || s.subP b sub != s.grpP b g ||
    (sub / 8 != t && (s.impsFor b t sub c).isEmpty)

/-- The hedgerows break R162. -/
def hedgesBad (x0 x1 : Nat) : List Hedge → Bool
  | [] => false
  | h :: l =>
    decide (h.x0 < x0) || decide (x1 < h.x0 + h.len) || h.len == 0 || decide (512 < h.len) || decide (1 < h.mode) || h.rest != 0 ||
      h.secBase % 4 != 0 || (if h.mode = 0 then decide (h.len < h.seam) else h.seam != 0) || hedgesBad (h.x0 + h.len) x1 l

/-- SLOTS breaks R170 for a feeder. -/
def State.slotsBad (s : State) (b sub : Nat) : Bool :=
  let t := sub / 8
  let u := sub % 8
  let slots := s.rdB b t (STI_SUB_HIST_SLOTS u)
  let i := s.rdB b t (STI_SUB_DELAY_INT u)
  if slots = 0 then i != 0 || s.rdB b t (STI_SUB_DELAY_FRAC u) != 0 else decide (slots < i + 2)

/-- The group is invalid on a tile (R170). -/
def State.stiBad (s : State) (b t g : Nat) : Bool :=
  let (x0, w) := s.seg b t g
  s.segsBad b g || x0 % 4 != 0 || (s.mapWords b t g).any (s.wordBad b t g) || hedgesBad x0 (x0 + w) (s.hedges b t g) ||
    s.arraysBad b t (.sti g) (s.stiArrays b t g) || (s.feeders b t g).any (s.slotsBad b)

/-- The flags of an invalid group: R157 is checked by the firmware and flagged on tile 0 (R157, R170). -/
def State.stiFlags (s : State) (b t g : Nat) : State :=
  (s.setIf (s.segsBad b g) 0 STI_ERR_CFG_INVALID).setIf (s.stiBad b t g) t STI_ERR_CFG_INVALID

/-- The structure of a bank takes effect: its groups are checked on every tile that computes columns of them or holds their sub-streams, and R157
is flagged on tile 0 whether or not any tile does (R157, R170). -/
def State.stiCheck (s : State) (b : Nat) : State :=
  (s.groups b).foldl (fun s g =>
    (s.eachTile fun t s => if s.hasSeg b t g || s.tileMask b t g != 0 then s.stiFlags b t g else s).setIf (s.segsBad b g) 0 STI_ERR_CFG_INVALID) s

/-! One stitched line (R161 to R166). -/

/-- A source of a column: its samples by plane, or why it is missing. -/
structure Sampled where
  sub : Nat
  val : Except (Nat × Nat) (List Nat)

/-- The sample of R161 from a delayed line. -/
def samplePlane (x : Nat) (y : List Nat) : Nat :=
  let i := x / 256
  let f := x % 256
  let j := Nat.min (i + 1) (y.length - 1)
  ((256 - f) * y.getD i 0 + f * y.getD j 0 + 128) / 256

/-- X of a map word with the trim in effect, and whether the clamp acted (R161). -/
def State.sampleX (s : State) (b w n : Nat) : Nat × Bool :=
  let x : Int := (wordX w : Int) + (s.trimAt (wordSub w) n).1
  let c := clampI 0 (((s.subWidth b (wordSub w) : Int) - 1) * 256) x
  (c.toNat, c != x)

/-- The samples that a map word gives for line `n`; none where its line is not known yet. -/
def State.sample (s : State) (b t n w : Nat) : Option Sampled :=
  (s.sourceFor b t (wordSub w) (wordX w / 256) n).map fun y =>
    ⟨wordSub w, y.map fun ps => ps.map (samplePlane (s.sampleX b w n).1)⟩

/-- The blend of hedgerow column `k` (R163). -/
def hedgeMix (h : Hedge) (k p q : Nat) : Nat :=
  if h.mode = 0 then (if k < h.seam then p else q)
  else
    let w := ((2 * k + 1) * 4096 + h.len) / (2 * h.len)
    (p * (4096 - w) + q * w + 2048) / 4096

/-- A column of a stitched line: its planes, or reason, stage and missing sources (R163, R165). -/
def columnOf (p : Sampled) (sec : Option (Hedge × Nat × Sampled)) : Except (Nat × Nat × Nat) (List Nat) :=
  match sec with
  | none =>
    match p.val with
    | .ok v => .ok v
    | .error (r, st) => .error (r, st, 2 ^ p.sub)
  | some (h, k, q) =>
    match p.val, q.val with
    | .ok v, .ok w => .ok ((v.zip w).map fun (a, b) => hedgeMix h k a b)
    | .ok v, .error _ => .ok v
    | .error _, .ok w => .ok w
    | .error (r, st), .error _ => .error (r, st, 2 ^ p.sub ||| 2 ^ q.sub)

/-- The hedgerow column that stitched column `x` is. -/
def hedgeAt (hs : List Hedge) (x : Nat) : Option (Hedge × Nat) :=
  (hs.find? fun h => decide (h.x0 ≤ x) && decide (x < h.x0 + h.len)).map fun h => (h, x - h.x0)

/-- The maximal runs of contiguous blind columns alike in reason and stage, from column `c` on (R166). -/
def blindRuns : Nat → List (Except (Nat × Nat × Nat) (List Nat)) → List BlindRun
  | _, [] => []
  | c, .ok _ :: l => blindRuns (c + 1) l
  | c, .error (r, st, m) :: l =>
    match blindRuns (c + 1) l with
    | x :: xs => if x.reason = r ∧ x.stage = st ∧ x.c0 = c + 1 then { x with c0 := c, mask := x.mask ||| m } :: xs else ⟨r, st, m, c, c + 1⟩ :: x :: xs
    | [] => [⟨r, st, m, c, c + 1⟩]

/-- A hedgerow's part of a line (R164, R165); `pl` is the plane measured. -/
def hedgeLine (pl : Nat) (ps : List (Sampled × Sampled)) : HedgeLine :=
  let one := ps.any fun (p, q) => p.val.toBool != q.val.toBool
  let diffs := ps.map fun (p, q) =>
    match p.val, q.val with
    | .ok v, .ok w => some ((v.getD pl 0 : Int) - w.getD pl 0).natAbs
    | _, _ => none
  ⟨one, (diffs.mapM fun x => x).map fun l => (sumN l, l.length)⟩

/-- Every column of line `n` of a tile's part of a group, and its hedgerows; none while a line that a source needs is not known. -/
def State.buildCols (s : State) (b t g n : Nat) : Option (List (Except (Nat × Nat × Nat) (List Nat)) × List HedgeLine) := do
  let (x0, w) := s.seg b t g
  let hs := s.hedges b t g
  let cols ← (List.range w).mapM fun c => do
    let p ← s.sample b t n (s.mapWord b t g c)
    match hedgeAt hs (x0 + c) with
    | none => pure (columnOf p none)
    | some (h, k) => do
      let q ← s.sample b t n (s.secWord t h k)
      pure (columnOf p (some (h, k, q)))
  let hl ← hs.mapM fun h => do
    let ps ← (List.range h.len).mapM fun k => do
      let p ← s.sample b t n (s.mapWord b t g (h.x0 - x0 + k))
      let q ← s.sample b t n (s.secWord t h k)
      pure (p, q)
    pure (hedgeLine (s.grpPlane b g) ps)
  pure (cols, hl)

/-- The stitched line; with an invalid configuration every column is blind with ENG_LATE and STAGE 2 (R170). -/
def State.buildLine (s : State) (t g n : Nat) : Option StLine :=
  let b := s.bankOf (s.lineCfg n)
  if s.stiBad b t g then
    let w := (s.seg b t g).2
    some ⟨g, n, List.replicate w [], [⟨0x01, 2, s.tileMask b t g, 0, w⟩], []⟩
  else
    (s.buildCols b t g n).map fun (cols, hl) =>
      ⟨g, n, cols.map fun c => (match c with | .ok v => v | .error _ => []), blindRuns 0 cols, hl⟩

/-- TRIM_CLAMP where a trim is cut for line `n` (R159, R161). -/
def State.trimFlags (s : State) (t g n : Nat) : State :=
  let b := s.bankOf (s.lineCfg n)
  let ws := s.mapWords b t g
  let s := s.setIf (ws.any fun w => (s.sampleX b w n).2) t STI_ERR_TRIM_CLAMP
  ((ws.map wordSub).eraseDups).foldl (fun s sub => s.setIf (s.delayOf b sub n).2 (sub / 8) STI_ERR_TRIM_CLAMP) s

/-! The stitcher (R167). -/

/-- The next line to build of a tile's part of a group. -/
def State.stNext (s : State) (t g : Nat) : Nat := smGet 0 (t * 8 + g) s.sti.next

/-- The line that the stitcher builds next: the lowest number, on equal numbers the lowest group (R167). -/
def State.stPick (s : State) (t : Nat) : Option StLine :=
  match s.lastLine with
  | none => none
  | some c =>
    ((List.range 8).filterMap fun g =>
      let n := s.stNext t g
      if n ≤ c && s.hasSeg (s.bankOf (s.lineCfg n)) t g then s.buildLine t g n else none).foldl (fun m x =>
        match m with
        | some y => if x.a < y.a then some x else some y
        | none => some x) none

/-- STITCH_LINE_START: a line enters the stitcher (R167). -/
def State.stitchStart (s : State) (t : Nat) : State :=
  match s.stPick t with
  | none => s
  | some l =>
    let b := s.bankOf (s.lineCfg l.a)
    let s := s.stiFlags b t l.group
    let s := if s.stiBad b t l.group then s else s.trimFlags t l.group l.a
    s.updSti fun x => { x with next := smSet 0 (t * 8 + l.group) (l.a + 1) x.next, built := smUpd [] t (· ++ [l]) x.built }

/-- STITCH_LINE_START (R167). -/
def execStitchLineStart (t : Tile) (s : State) : Answer := onClock s t .sys fun s => s.stitchStart t

/-- The token of a blind run of a line (R166). -/
def State.runToken (s : State) (t g a : Nat) (r : BlindRun) : Token :=
  let (n, i) := s.lineHome a
  let b := s.bankOf n
  let x0 := s.edge b g ((s.seg b t g).1 + r.c0)
  ⟨r.reason, r.stage, n, g, r.mask, x0, x0 + roundShr ((r.c1 - r.c0) * s.rdB b 0 (STI_GRP_PITCH g) : Nat) 16, i, i + 1⟩

/-- Blind runs of a line go to the ledger (R166). -/
def State.blindRunsOut (s : State) (t g a : Nat) (rs : List BlindRun) : State := rs.foldl (fun s r => s.blind (s.runToken t g a r)) s

/-- A line's part in the measure of each hedgerow (R164). -/
def State.madLine (s : State) (t g n : Nat) (hs : List HedgeLine) : State :=
  hs.zipIdx.foldl (fun s (h, i) =>
    match h.diff with
    | none => s
    | some (d, c) => s.updSti fun x =>
      { x with mad := smUpd (0, 0, 0) ((t * 8 + g) * 16 + i) (fun (m, a, k) => if m = n + 1 then (m, a + d, k + c) else (n + 1, d, c)) x.mad }) s

/-- The band's stitching of a group on a tile is complete: HEDGEh_MAD (R164). -/
def State.madEnd (s : State) (t g n : Nat) : State :=
  (List.range 16).foldl (fun s h =>
    let (m, a, k) := smGet (0, 0, 0) ((t * 8 + g) * 16 + h) s.sti.mad
    if m = n + 1 ∧ k ≠ 0 then
      (s.wr t (STI_GRP_HEDGE_MAD_MAD g h) (roundDiv a k).toNat).setF t (STI_GRP_HEDGE_MAD_VALID g h)
    else s.clrF t (STI_GRP_HEDGE_MAD_VALID g h)) s

/-- Every line of band `n` has been completed by a tile's part of a group, and the band takes no more lines. -/
def State.stitchWhole (s : State) (t g n : Nat) : Bool :=
  match s.band n with
  | none => false
  | some b =>
    (b.closed || b.pos.length == b.size) &&
      (List.range b.pos.length).all fun i => (smGet [] (t * 8 + g) s.sti.done).any (·.a == b.line0 + i)

/-- STITCH_LINE_COMPLETE: the line in the stitcher that entered first is complete; the answer gives it to its consumers (R167, R168). -/
def State.stitchComplete (s : State) (t : Nat) : Option StLine × State :=
  match smGet [] t s.sti.built with
  | [] => (none, s)
  | l :: rest =>
    let s := s.updSti fun x => { x with built := smSet [] t rest x.built, done := smUpd [] (t * 8 + l.group) (l :: ·) x.done }
    let s := s.addWrap t (STI_GRP_LINES l.group) 1
    let s := s.addSat t (STI_GRP_SINGLE l.group) ((l.hedges.filter (·.single)).length)
    let s := s.blindRunsOut t l.group l.a l.runs
    let n := (s.lineHome l.a).1
    let s := s.madLine t l.group n l.hedges
    (some l, if s.stitchWhole t l.group n then s.madEnd t l.group n else s)

/-- A band that closes short after its last line was completed ends its measures (R56, R164). -/
def State.stitchShort (s : State) (n : Nat) : State :=
  s.eachTile fun t s => (List.range 8).foldl (fun s g =>
    if s.hasSeg (s.bankOf n) t g && s.stitchWhole t g n then s.madEnd t g n else s) s

/-- The blind runs of a line that a deadline drops: columns of missing sources keep their reason, the rest are ENG_LATE (R171). -/
def State.abortRuns (s : State) (t g a : Nat) : List BlindRun :=
  let b := s.bankOf (s.lineCfg a)
  let (x0, w) := s.seg b t g
  let hs := s.hedges b t g
  let m := s.tileMask b t g
  let late : Except (Nat × Nat × Nat) (List Nat) := .error (0x01, 2, m)
  if s.stiBad b t g then [⟨0x01, 2, m, 0, w⟩] else
  blindRuns 0 ((List.range w).map fun c =>
    match s.sample b t a (s.mapWord b t g c) with
    | none => late
    | some p =>
      match hedgeAt hs (x0 + c) with
      | none => match columnOf p none with
        | .ok _ => late
        | e => e
      | some (h, k) =>
        match s.sample b t a (s.secWord t h k) with
        | none => late
        | some q => match columnOf p (some (h, k, q)) with
          | .ok _ => late
          | e => e)

/-- At band tick n + D2 every segment line of band `n` that is not complete is dropped (R167, R171); whether ENG_LATE
is the reason of a column. -/
def State.stitchAbort (s : State) (t g n : Nat) : Bool × State :=
  match s.band n with
  | none => (false, s)
  | some b =>
    let have_ := smGet [] (t * 8 + g) s.sti.done
    let gone := ((List.range b.pos.length).map (b.line0 + ·)).filter fun a => !have_.any (·.a == a)
    let s' := gone.foldl (fun s a => s.blindRunsOut t g a (s.abortRuns t g a)) s
    let end_ := b.line0 + b.pos.length
    (gone.any fun a => (s.abortRuns t g a).any fun r => r.reason == 0x01 && r.stage == 2, s'.updSti fun x =>
      { x with
        built := smUpd [] t (fun l => l.filter (fun y => !(y.group == g && gone.contains y.a))) x.built
        next := smUpd 0 (t * 8 + g) (Nat.max end_) x.next })

/-! The decimated copy (R168). -/

/-- A block of the decimated copy of band `n`: the mean over segment columns 4q to 4q + 3 and lines 4r to 4r + 3 of the band, none where
the block holds a blind column (R168). -/
def State.decBlock (s : State) (t g n q r : Nat) : Option Nat :=
  let b := s.bankOf n
  let (x0, w) := s.seg b t g
  let pl := s.grpPlane b g
  match s.band n with
  | none => none
  | some bd =>
    let cols := ([0, 1, 2, 3].map (4 * q + ·)).filter fun c => decide (c < w) && decide (x0 + c < s.rdB b 0 (STI_GRP_WIDTH g))
    let rows := ([0, 1, 2, 3].map (4 * r + ·)).filter (· < bd.pos.length)
    let vals := rows.flatMap fun i =>
      let l := (smGet [] (t * 8 + g) s.sti.done).find? (·.a == bd.line0 + i)
      cols.map fun c =>
        match l with
        | none => none
        | some l => (l.cols.getD c [])[pl]?
    (vals.mapM fun x => x).map fun l => (roundDiv (sumN l) l.length).toNat

/-! Trims (R169). -/

/-- A write of STI_TRIM_CTRL.COMMIT (R169, R171). -/
def State.trimCommit (s : State) (t : Nat) : State := (s.setF t STI_TRIM_CTRL_PENDING).lateWrite t STI_ERR_LATE_WRITE

/-- TRIM_COMMIT (R169). -/
def execTrimCommit (t : Tile) (s : State) : Answer := onTile s t fun s => s.trimCommit t

/-- The shadow trims of a tile. -/
def State.trimShadow (s : State) (t : Nat) : List (Int × Int) :=
  (List.range 8).map fun u => (sInt 16 (s.rd t (STI_SUB_TRIM_X u)), sInt 16 (s.rd t (STI_SUB_TRIM_Y u)))

/-- A band tick makes a tile's hand-over due, from line `first` on, with the shadow as it stood before the tick's cycle (R169, R171). -/
def State.trimLatch (s : State) (first t : Nat) : State :=
  let reg := s.sti.reg.filter (·.1 / 8 == t)
  let p := s.stood t STI_TRIM_CTRL_PENDING
  if !p && reg.isEmpty then s else
  let soft := if p then some (s.began.trimShadow t) else none
  let s := if p then s.serve t STI_TRIM_CTRL_PENDING else s
  s.updSti fun x => { x with due := smInsert t ⟨first, soft, reg⟩ x.due, reg := x.reg.filter (·.1 / 8 != t) }

/-- Registration owns the trims of a sub-stream: its group tracks (R169). -/
def State.trimOwned (s : State) (sub : Nat) : Bool :=
  match s.subGroup s.bank sub with
  | some g => s.is 0 (STI_GRP_CFG_TRACK g)
  | none => false

/-- A sub-stream's trims take effect from a line on. -/
def State.setTrim (s : State) (sub first : Nat) (v : Int × Int) : State :=
  let s := (s.wrS (sub / 8) (STI_SUB_TRIM_NOW_X (sub % 8)) v.1).wrS (sub / 8) (STI_SUB_TRIM_NOW_Y (sub % 8)) v.2
  s.updSti fun x => { x with trims := smUpd [] sub (fun l => ((first, v) :: l).take srcKept) x.trims }

/-- TRIM_HAND_OVER (R169, R171). -/
def State.trimHandOver (s : State) (t : Nat) : State :=
  match (s.sti.due.find? (·.1 == t)).map (·.2) with
  | none => s
  | some d =>
    let s := s.updSti fun x => { x with due := smErase t x.due }
    let s := match d.soft with
      | none => s
      | some vs => vs.zipIdx.foldl (fun s (v, u) =>
          if s.trimOwned (t * 8 + u) then s.setIf (d.reg.any (·.1 == t * 8 + u)) t STI_ERR_TRIM_OWNED
          else s.setTrim (t * 8 + u) d.first v) s
    d.reg.foldl (fun s (sub, v) => s.setTrim sub d.first v) s

/-- TRIM_HAND_OVER (R169). -/
def execTrimHandOver (t : Tile) (s : State) : Answer := onTile s t fun s => s.trimHandOver t

/-- A run starts: no line of it is known yet (R113, R165). -/
def State.stitchRun (s : State) : State :=
  s.updSti fun x => { x with src := [], imps := [], next := [], built := [], done := [], mad := [], due := [], trims := x.trims.filterMap (fun (k, l) => l.head?.map fun (_, v) => (k, [(0, v)])) }

/-- Completed lines of bands before `n` are given up. -/
def State.stitchPrune (s : State) (n : Nat) : State :=
  match s.band n with
  | none => s
  | some b =>
    if b.pos.isEmpty then s else
    s.updSti fun x => { x with done := (x.done.map fun (k, l) => (k, l.filter fun y => decide (b.line0 ≤ y.a))).filter (!·.2.isEmpty) }

/-- STI_CLR (R172). -/
def State.stiClr (s : State) (t : Nat) : State :=
  let s := (List.range 8).foldl (fun s g => (s.clrCount t (STI_GRP_LINES g)).clrCount t (STI_GRP_SINGLE g)) s
  [0, 1, 2, 3].foldl (fun s i => s.clrCount t (STI_IMP_LATE i)) s

/-- STI_CLR_COUNTERS (R172). -/
def execStiClrCounters (t : Tile) (s : State) : Answer := onTile s t fun s => s.stiClr t

end Sys2Proof.Machine
end

