-- ==== Sys2Proof/Machine/Stripe.lean ====
section
/-! DEFINITION. Reference stripes, their checks, the rings and the lead (R173 to R185). -/

namespace Sys2Proof.Machine

/-! Geometry of the reference (R173). -/

/-- BND_LINE_PITCH of a bank, in 2⁻¹⁶ µm, at least 1. -/
def State.linePitch (s : State) (b : Nat) : Nat := Nat.max 1 (s.rdB b 0 BND_LINE_PITCH)

/-! The codes of a stripe (R177 to R179). -/

/-- The tokens of one line section (R178): indices below `n`, last first in `acc`; `prev` is the line above. -/
def expandToks (n : Nat) (prev : Option (List Nat)) : Nat → Bytes → List Nat → Option (List Nat)
  | _, [], acc => some acc.reverse
  | 0, _ :: _, _ => none
  | f + 1, x :: r, acc =>
    let b := x.toNat
    if b < 0x80 then
      if 1 ≤ r.length ∧ byteAt r 0 < n then expandToks n prev f (r.drop 1) (List.replicate (b + 1) (byteAt r 0) ++ acc) else none
    else if b < 0xC0 then
      if 2 ≤ r.length ∧ byteAt r 1 < n then
        expandToks n prev f (r.drop 2) (List.replicate (b % 64 * 256 + byteAt r 0 + 129) (byteAt r 1) ++ acc)
      else none
    else if b < 0xE0 then
      let k := b % 32 + 1
      let ids := (r.take k).map (·.toNat)
      if k ≤ r.length ∧ ids.all (· < n) then expandToks n prev f (r.drop k) (ids.reverse ++ acc) else none
    else if b < 0xF0 then
      match prev with
      | none => none
      | some p =>
        let k := b % 16 * 256 + byteAt r 0 + 1
        let c := (p.drop acc.length).take k
        if 1 ≤ r.length ∧ c.length = k then expandToks n prev f (r.drop 1) (c.reverse ++ acc) else none
    else none

/-- Line sections that expand to `cols` indices each and take up every byte (R178, R179, R180). -/
def expandSections (n cols : Nat) : Nat → Option (List Nat) → Bytes → Option (List (List Nat))
  | 0, _, bs => if bs.isEmpty then some [] else none
  | k + 1, prev, bs =>
    let len := leAt bs 0 4
    if bs.length < 4 + len then none else
    match expandToks n prev len ((bs.drop 4).take len) [] with
    | none => none
    | some l => if l.length = cols then (expandSections n cols k (some l) (bs.drop (4 + len))).map (l :: ·) else none

/-- Groups of `n` consecutive entries, `k` of them. -/
def chunks (n : Nat) : Nat → List α → List (List α)
  | 0, _ => []
  | k + 1, l => l.take n :: chunks n k (l.drop n)

/-- The samples of a body by line, column and plane; none on a code error (R177, R178). -/
def stripeBody (code lines cols planes : Nat) (bs : Bytes) : Option (List (List (List Nat))) :=
  if code = 0 then
    if bs.length = lines * cols * planes then
      some ((chunks (cols * planes) lines bs).map fun l => (chunks planes cols l).map (·.map (·.toNat)))
    else none
  else if code = 1 then
    let n := leAt bs 0 2
    if 4 ≤ bs.length ∧ 1 ≤ n ∧ n ≤ 256 ∧ 4 + n * planes ≤ bs.length then
      let pal := (chunks planes n (bs.drop 4)).map (·.map (·.toNat))
      (expandSections n cols lines none (bs.drop (4 + n * planes))).map fun ls => ls.map (·.map (pal.getD · []))
    else none
  else none

/-! The checks of R180. -/

/-- SHADOW holds a job whose number is known: it is not INVALID, and a load in progress has given its header (R266, R287). -/
def State.shadowNamed (s : State) : Bool := s.rd 0 CFG_STATUS_SHADOW != 6 && !s.cfg.load.any fun l => decide (l.pos < 64)

/-- The bank that a JOB_ID names: the ACTIVE job's, or the SHADOW job's, which is the retiring job's after a swap (R180, R185, R266). Where both
have one number the ACTIVE job is meant (DESIGN CHOICE, log 152). -/
def State.jobBank (s : State) (job : Nat) : Option Nat :=
  if s.rd 0 CFG_ACTIVE_JOB = job then some s.bank
  else if s.shadowNamed ∧ s.rd 0 CFG_SHADOW_JOB = job then some s.shadow
  else none

/-- A discard of a stripe on a tile (R180, R183). -/
def State.refDiscard (s : State) (t : Nat) (f : Fld) : State := (s.addSat t REF_DISCARD 1).setF t f

/-- The header conditions of R180 that do not depend on a job. -/
def stripeHeadBad (k : Bytes) : Bool :=
  byteAt k 0 != 0x10 || byteAt k 1 != 1 || decide (7 < byteAt k 2) || decide (leAt k 20 2 < 1) || decide (1024 < leAt k 20 2) ||
    decide (leAt k 28 4 < 1) || (byteAt k 5 != 1 && byteAt k 5 != 3)

/-- The header conditions of R180 against the structure of bank `b`. -/
def State.stripeFits (s : State) (b : Nat) (k : Bytes) : Bool :=
  let g := byteAt k 2
  let (sx, sy) := (s.refSx b g, s.refSy b g)
  let (l0, ln, x0, cs) := (leAt k 16 4, leAt k 20 2, leAt k 24 4, leAt k 28 4)
  s.grpOn b g && byteAt k 4 == (sx - 1) + 2 * (sy - 1) && byteAt k 5 == s.grpP b g && decide (l0 + ln ≤ s.refLpr b g) &&
    decide (x0 + cs ≤ s.refCols b g) && (x0 * sx) % 4 == 0 && (l0 * sy) % 4 == 0 &&
    ((cs * sx) % 4 == 0 || x0 + cs == s.refCols b g) && ((ln * sy) % 4 == 0 || l0 + ln == s.refLpr b g)

/-- The stripe decoded: its samples and privet cells; none on a code error (R177 to R180). -/
def decodeStripe (k : Bytes) (defClass : Nat) : Option RefStripe :=
  let (ln, cs, bl, pl) := (leAt k 20 2, leAt k 28 4, leAt k 32 4, leAt k 36 4)
  let (sx, sy) := (1 + byteAt k 4 % 2, 1 + byteAt k 4 / 2 % 2)
  let rows := ceilDiv (ln * sy) 4
  let ccols := ceilDiv (cs * sx) 4
  match stripeBody (byteAt k 3) ln cs (byteAt k 5) ((k.drop 48).take bl) with
  | none => none
  | some body =>
    let mk (c : List (List Nat)) : RefStripe := ⟨leAt k 8 4, byteAt k 2, leAt k 12 4, leAt k 16 4, ln, leAt k 24 4, cs, k, body, c⟩
    if pl = 0 then some (mk (List.replicate rows (List.replicate ccols defClass)))
    else (expandSections 16 ccols rows none ((k.drop (48 + bl)).take pl)).map mk

/-! Rings (R181 to R183). -/

/-- The key of a ring. -/
def ringKey (b t g : Nat) : Nat := (b * 8 + t) * 8 + g

/-- The ring of a tile and group in bank `b`. -/
def State.ring (s : State) (b t g : Nat) : RefRing := smGet RefRing.idle (ringKey b t g) s.ref.rings

/-- A stripe's first global line index and the one after its last (R173). -/
def RefStripe.span (x : RefStripe) (lpr : Nat) : Nat × Nat := (x.rep * lpr + x.line0, x.rep * lpr + x.line0 + x.lines)

/-- The stretches of lines that complete sets hold and that have not been freed. -/
def RefRing.spans (r : RefRing) (lpr : Nat) : List (Nat × Nat) :=
  (r.sets.filterMap fun st => (st.head?).map fun x => (Nat.max r.low (x.span lpr).1, (x.span lpr).2)).filter fun (a, b) => decide (a < b)

/-- Where the contiguous lines from `h` on end. -/
def reach (l : List (Nat × Nat)) : Nat → Nat → Nat
  | 0, h => h
  | f + 1, h => match l.find? fun (a, b) => decide (a ≤ h) && decide (h < b) with
    | some (_, b) => reach l f b
    | none => h

/-- The horizon: the greatest G for which every line from the oldest held up to G is present (R182). -/
def RefRing.horizon (r : RefRing) (lpr : Nat) : Option Nat :=
  let l := r.spans lpr
  match l.map (·.1) with
  | [] => none
  | a :: as => some (reach l l.length (as.foldl Nat.min a) - 1)

/-- The HORIZON registers of a tile follow the ring of the ACTIVE job (R182). -/
def State.horizonRegs (s : State) (t g : Nat) : State :=
  let lpr := s.refLpr s.bank g
  match (s.ring s.bank t g).horizon lpr with
  | some h => (s.wr t (REF_GRP_HORIZON_REP g) (h / lpr)).wr t (REF_GRP_HORIZON_LINE g) (h % lpr)
  | none => s

/-- The state with a ring set, the HORIZON registers following. -/
def State.setRing (s : State) (b t g : Nat) (r : RefRing) : State :=
  (s.updRef fun x => { x with rings := smSet RefRing.idle (ringKey b t g) r x.rings }).horizonRegs t g

/-- The stripe overlaps the columns a tile stores (R181). -/
def State.stores (s : State) (b t : Nat) (x : RefStripe) : Bool :=
  let (x0, n) := s.ringCols b t x.group
  overlaps (x.x0, x.cols) (x0, n)

/-- Stripes together cover the ring columns that the group has (R182). -/
def covers (x0 x1 : Nat) (l : List RefStripe) : Bool :=
  let sp := l.map fun x => (x.x0, x.x0 + x.cols)
  decide (x1 ≤ reach sp sp.length x0)

/-- The tiles that would store a stripe. -/
def State.storeTiles (s : State) (b : Nat) (x : RefStripe) : List Nat := s.tiles.filter fun t => s.stores b t x

/-- Every line of the stripe lies at or below the horizon of every tile that would store it (R180). -/
def State.duplicate (s : State) (b : Nat) (x : RefStripe) : Bool :=
  let lpr := s.refLpr b x.group
  let ts := s.storeTiles b x
  !ts.isEmpty && ts.all fun t => match (s.ring b t x.group).horizon lpr with
    | some h => decide ((x.span lpr).2 ≤ h + 1)
    | none => false

/-- A complete stripe is checked on the tile of its port and forwarded to the tiles that store part of it (R176, R180, R348). -/
def State.stripeCheck (s : State) (t : Nat) (k : Bytes) : State :=
  if !crcGood k then s.refDiscard t REF_ERR_CRC
  else if stripeHeadBad k then s.refDiscard t REF_ERR_DECODE
  else
    let g := byteAt k 2
    match s.jobBank (leAt k 8 4) with
    | none => s.refDiscard t REF_ERR_JOB
    | some b =>
      if !s.stripeFits b k then s.refDiscard t REF_ERR_DECODE else
      match decodeStripe k (s.rdB b 0 (REF_GRP_CFG_DEF_CLASS g)) with
      | none => s.refDiscard t REF_ERR_DECODE
      | some x =>
        let q := leAt k 40 4
        let last := smGet 0 g s.ref.seqs
        let s := s.setIf (last != 0 && q != last % 2 ^ 32) t REF_ERR_SEQ
        let s := s.updRef fun r => { r with seqs := smSet 0 g (q + 1) r.seqs }
        if s.duplicate b x then s.refDiscard t REF_ERR_DUPLICATE
        else s.updRef fun r => { r with coming := (s.storeTiles b x).foldl (fun m u => smUpd [] u (· ++ [x]) m) r.coming }

/-- WEB_POS of an absolute line, while its band is kept. -/
def State.posOf (s : State) (a : Nat) : Option Int := (s.lineBand a).bind fun (b, i) => b.pos[i]?

/-- REPEAT, IN_REPEAT and the repeat count of line `a` in a group's frame (R222). -/
def State.repeatAt (s : State) (b g a : Nat) : Option (Nat × Int × Int) :=
  (s.lineBand a).bind fun (bd, i) => bd.pos[i]?.map fun w =>
    let p := w - s.webOfs b g
    let (k, z, _) := s.gridAt b (s.gridView bd.n) p
    (s.repeatOf b k, p - z, k)

/-- The next band to warp of a tile and group. -/
def State.warpAt (s : State) (t g : Nat) : Nat := smGet 0 (t * 8 + g) s.ref.warpNext

/-- The oldest band with lines that a tile's group has not warped. -/
def State.nextWarp (s : State) (t g : Nat) : Option Band := s.clk.bands.reverse.find? fun b => decide (s.warpAt t g ≤ b.n) && !(b.closed && b.pos.isEmpty)

/-- The lines that R183 frees in the ring of the job that the oldest band not yet warped belongs to, and the sets that end with them: lines more
than LEAD_EXTRA / sy below the one that the band's first stitched line samples with a zero solution. -/
def State.freeRing (s : State) (t g : Nat) : State :=
  match (s.nextWarp t g).filter fun b => !b.pos.isEmpty with
  | none => s
  | some bd =>
    let b := bd.bank
    let lpr := s.refLpr b g
    match s.repeatAt b g bd.line0 with
    | none => s
    | some (r, ir, _) =>
      let at_ : Int := (r * lpr : Nat) + ir * 2 ^ 16 / (s.refSy b g * s.linePitch b : Nat)
      let low := (at_ - (s.rdB b 0 (REF_GRP_MARGINS_LEAD_EXTRA g) / s.refSy b g : Nat)).toNat
      let x := s.ring b t g
      let low := Nat.max x.low low
      s.setRing b t g { x with low := low, sets := x.sets.filter fun st => st.any fun y => decide (low < (y.span lpr).2) }

/-- Bytes a ring holds. -/
def RefRing.bytes (r : RefRing) : Nat := sumN ((r.cur ++ r.sets.flatten).map (·.raw.length))

/-- A sample of a stripe: the planes at a global line and a column, none outside it. -/
def RefStripe.pix (x : RefStripe) (lpr gl c : Nat) : Option (List Nat) :=
  let (a, e) := x.span lpr
  if a ≤ gl ∧ gl < e ∧ x.x0 ≤ c ∧ c < x.x0 + x.cols then (x.rows.getD (gl - a) [])[c - x.x0]? else none

/-- A column that a tile stores (R181). -/
def State.ownCol (s : State) (b t g c : Nat) : Bool := decide ((s.ringCols b t g).1 ≤ c) && decide (c < (s.ringCols b t g).1 + (s.ringCols b t g).2)

/-- Coarse rows of a repeat (R181). -/
def State.coarseRows (s : State) (b g : Nat) : Nat := ceilDiv (s.refLpr b g * s.refSy b g) 4

/-- Coarse pixel (`q`, `r`) of repeat `rep`, Q8.8, from the reference samples that `pix` gives by global line and column (R181). -/
def State.coarseMean (s : State) (b g : Nat) (pix : Nat → Nat → Option (List Nat)) (rep q r : Nat) : Option Nat :=
  let (sx, sy, lpr) := (s.refSx b g, s.refSy b g, s.refLpr b g)
  let ls := ((List.range (4 / sy)).map (4 * r / sy + ·)).filter (· < lpr)
  let cs := ((List.range (4 / sx)).map (4 * q / sx + ·)).filter (· < s.refCols b g)
  let vs := ls.flatMap fun l => cs.map fun c => (pix (rep * lpr + l) c).bind fun v => v[s.grpPlane b g]?
  if vs.isEmpty then none
  else (vs.mapM fun x => x).map fun l => (roundDiv (sumN l * 256 : Nat) l.length).toNat

/-- Bytes of a coarse row: a word of 16 bits for each coarse pixel of the columns stored (DESIGN CHOICE, log 154). -/
def State.coarseLine (s : State) (b t g : Nat) : Nat := 4 * ceilDiv (2 * ceilDiv ((s.ringCols b t g).2 * s.refSx b g) 4) 4

/-- A stripe as it lies in pipeline memory: its bytes in the ring, one stripe behind the other and round to its start, and the coarse copy of its
own columns, row by row in the coarse ring (R181; log 154). -/
def State.stripeBytes (s : State) (b t : Nat) (x : RefStripe) (at_ : Nat) : State :=
  let g := x.group
  let base := pipeAddr t (s.rdB b t (REF_GRP_RING_BASE g))
  let room := s.rdB b t (REF_GRP_RING_SIZE g) - at_
  let s := (s.setBytes (base + at_) (x.raw.take room)).setBytes base (x.raw.drop room)
  let (sx, sy) := (s.refSx b g, s.refSy b g)
  let (x0, n) := s.ringCols b t g
  let pix (gl c : Nat) := if s.ownCol b t g c then x.pix (s.refLpr b g) gl c else none
  (List.range (ceilDiv (x.lines * sy) 4)).foldl (fun s i =>
    (List.range (ceilDiv (n * sx) 4)).foldl (fun s k =>
      let r := x.line0 * sy / 4 + i
      let q := x0 * sx / 4 + k
      match s.coarseMean b g pix x.rep q r with
      | none => s
      | some v =>
        let row := (x.rep * s.coarseRows b g + r) % Nat.max 1 (s.rdB b t (REF_GRP_COARSE_ROWS g))
        s.setBytes (pipeAddr t (s.rdB b t (REF_GRP_COARSE_BASE g) + row * s.coarseLine b t g + 2 * k)) (leBytes 2 v)) s) s

/-- A stripe reaches a tile: stored in its ring, or discarded there for want of room, or because neither job bears its number any longer (R180 to
R183). -/
def State.storeStripe (s : State) (t : Nat) (x : RefStripe) : State :=
  match s.jobBank x.job with
  | none => s.refDiscard t REF_ERR_JOB
  | some b =>
    let g := x.group
    let s := s.freeRing t g
    let r := s.ring b t g
    let same := match r.cur with
      | y :: _ => y.rep == x.rep && y.line0 == x.line0 && y.lines == x.lines
      | [] => false
    let cur := if same then r.cur else []
    let size := s.rdB b t (REF_GRP_RING_SIZE g)
    if size < { r with cur := cur }.bytes + x.raw.length then
      s.setRing b t g { r with cur := cur } |>.refDiscard t REF_ERR_RING_FULL
    else
      let (x0, n) := s.ringCols b t g
      let cur := cur ++ [x]
      let x1 := Nat.min (x0 + n) (s.refCols b g)
      let s := s.stripeBytes b t x r.at_
      let r := { r with at_ := (r.at_ + x.raw.length) % size }
      s.setRing b t g (if covers x0 x1 cur then { r with cur := [], sets := r.sets ++ [cur] } else { r with cur := cur })

/-- STRIPE_STORE: the oldest stripe on its way to the tile is stored (R181). -/
def State.stripeStore (s : State) (t : Nat) : State :=
  match smGet [] t s.ref.coming with
  | [] => s
  | x :: l => (s.updRef fun r => { r with coming := smSet [] t l r.coming }).storeStripe t x

/-- STRIPE_STORE (R181). -/
def execStripeStore (t : Tile) (s : State) : Answer := onClock s t .sys fun s => s.stripeStore t

/-! The content of the reference. -/

/-- The stripes that hold a reference pixel, newest first. -/
def RefRing.holding (r : RefRing) (lpr gl c : Nat) : Option RefStripe :=
  if gl < r.low then none else
  (r.sets.reverse.flatten).find? fun x => decide ((x.span lpr).1 ≤ gl) && decide (gl < (x.span lpr).2) && decide (x.x0 ≤ c) && decide (c < x.x0 + x.cols)

/-- Learning of a group for the job of a bank. -/
def State.learnB (s : State) (b g : Nat) : Learn := smGet Learn.idle (b * 8 + g) s.ref.learns

/-- Learning of a group. -/
def State.learn (s : State) (g : Nat) : Learn := s.learnB s.bank g

/-- The image that a learning group registers to: the learned reference, or its first captured repeat (R199, R200). -/
def Learn.pixels (l : Learn) : List (Nat × List Nat) := if l.image.isEmpty then l.caps.headD [] else l.image

/-- The reference pixel at global line `gl` and column `c`, as a tile holds it: a stripe's in the columns that the tile stores alone (R181,
R200). -/
def State.refPix (s : State) (b t g gl c : Nat) : Option (List Nat) :=
  let lpr := s.refLpr b g
  if s.refLearns b g then
    match (s.learnB b g).pixels with
    | [] => none
    | l => some (smGet [] (gl % lpr * s.refCols b g + c) l)
  else if s.ownCol b t g c then ((s.ring b t g).holding lpr gl c).bind fun x => x.pix lpr gl c
  else none

/-- The privet class of cell (`a`, `r`) of repeat `rep` (R175, R200). -/
def State.refClass (s : State) (b t g rep r a : Nat) : Option Nat :=
  let lpr := s.refLpr b g
  let dc := s.rdB b 0 (REF_GRP_CFG_DEF_CLASS g)
  if s.refLearns b g then some dc
  else
    let l := 4 * r / s.refSy b g
    let c := 4 * a / s.refSx b g
    ((s.ring b t g).holding lpr (rep * lpr + l) c).map fun x =>
      (x.cells.getD (r - x.line0 * s.refSy b g / 4) []).getD (a - x.x0 * s.refSx b g / 4) dc

/-- The newest coarse row that a ring's stripes have given, counted over the repeats. -/
def State.coarseTop (s : State) (b t g : Nat) : Nat :=
  let r := s.ring b t g
  (r.cur ++ r.sets.flatten).foldl (fun m x => Nat.max m (x.rep * s.coarseRows b g + ceilDiv ((x.line0 + x.lines) * s.refSy b g) 4 - 1)) 0

/-- Coarse pixel (`q`, `r`) of repeat `rep`, Q8.8, while it is one of the COARSE_ROWS newest rows (R181); a learned reference has every row. -/
def State.coarse (s : State) (b t g rep q r : Nat) : Option Nat :=
  if s.refLearns b g || decide (s.coarseTop b t g < rep * s.coarseRows b g + r + s.rdB b t (REF_GRP_COARSE_ROWS g)) then
    s.coarseMean b g (s.refPix b t g) rep q r
  else none

/-! The configuration rule (R205). -/

/-- Q0 of patch `j` (R187). -/
def State.patchQ0 (s : State) (b g j : Nat) : Nat :=
  s.memLE (pipeAddr (s.rdB b 0 (REF_GRP_CFG_SOLVE_TILE g)) (s.rdB b 0 (REF_GRP_PATCH_BASE g) + 2 * j)) 2

/-- The tile whose segment holds a patch (R187). -/
def State.patchTile (s : State) (b g j : Nat) : Option Nat :=
  let q := s.patchQ0 b g j
  let w := s.rdB b 0 (REF_GRP_SEARCH_PATCH_W g)
  s.tiles.find? fun t =>
    let (x0, n) := s.seg b t g
    decide (x0 ≤ 4 * q) && decide (4 * (q + w) ≤ x0 + n)

/-- What R205 says of a group beside its arrays fails. -/
def State.refRuleBad (s : State) (b g : Nat) : Bool :=
  let np := s.rdB b 0 (REF_GRP_CFG_PATCHES g)
  let lim := 2000 * 2 ^ 16
  let track := s.rdB b 0 (STI_GRP_CFG_TRACK g) != 0
  ((List.range np).any fun j => (s.patchTile b g j).isNone) ||
    decide (lim < s.rdB b 0 (REF_GRP_SEARCH_SX g) * 4 * s.rdB b 0 (STI_GRP_PITCH g)) ||
    decide (lim < s.rdB b 0 (REF_GRP_SEARCH_SY g) * 4 * s.linePitch b) ||
    !s.fit (s.rdB b 0 (REF_GRP_CFG_SOLVE_TILE g)) ||
    (track && s.subGroup b (s.rdB b 0 (REF_GRP_TRACK_ANCHOR g)) != some g)

/-- The tiles on which an array of the group breaks R205. -/
def State.refArrayTiles (s : State) (b g : Nat) : List Nat := s.tiles.filter fun t => s.arraysBad b t (.ref g) (s.refArrays b t g)

/-- The group's reference is invalid (R205). -/
def State.refBad (s : State) (b g : Nat) : Bool := s.refRuleBad b g || !(s.refArrayTiles b g).isEmpty

/-- REF_ERR.CFG_INVALID of a group: an array's on its own tile, the rest on tile 0 (R205; DESIGN CHOICE, log 216). -/
def State.refFlag (s : State) (b g : Nat) : State :=
  (s.refArrayTiles b g).foldl (fun s t => s.setF t REF_ERR_CFG_INVALID) (s.setIf (s.refRuleBad b g) 0 REF_ERR_CFG_INVALID)

/-- The structure of a bank takes effect: its references are checked (R205). -/
def State.refCheck (s : State) (b : Nat) : State := (s.groups b).foldl (fun s g => if s.refOn b g then s.refFlag b g else s) s

/-! The lead (R184). -/

/-- Band `n` is blind for a group with REF_LATE (R184, R200, R205). -/
def State.refLate (s : State) (g n : Nat) : Bool := s.ref.late.contains (g, n)

/-- A band becomes REF_LATE for a group: the token of R62. -/
def State.markLate (s : State) (g n : Nat) : State :=
  if s.refLate g n then s
  else (s.updRef fun r => { r with late := (g, n) :: r.late }).blind (s.fullToken 0x02 15 n g)

/-- G_req of R184 from REPEAT and IN_REPEAT, as the structure of bank `b` has it. -/
def State.leadReq (s : State) (b g r : Nat) (ir : Int) : Int :=
  let d : Nat := s.refSy b g * s.linePitch b * 2 ^ 16
  let ahead : Nat := ((s.rdB b 0 REF_LEAD_MIN + 1) * bandLines (s.rdB b 0 BND_BAND_SIZE_B) * (2 ^ 16 + s.rdB b 0 BND_PITCH_TOL_TOL) +
    s.rdB b 0 (REF_GRP_MARGINS_LEAD_EXTRA g) * 2 ^ 16) * s.linePitch b
  ((r * s.refLpr b g : Nat) : Int) + -(-(ir * 2 ^ 32 + (ahead : Int)) / (d : Int)) + 1

/-- Some tile that stores reference of the group in bank `b` has a horizon below `req` (R184). -/
def State.horizonShort (s : State) (b g : Nat) (req : Int) : Bool :=
  s.tiles.any fun t => (s.ringCols b t g).2 != 0 && (match (s.ring b t g).horizon (s.refLpr b g) with
    | some h => decide ((h : Int) < req)
    | none => true)

/-- The stripes that commands of this cycle bring are stored: storing wins over the lead check of the same cycle (R204). -/
def State.storesAhead (s : State) : State :=
  s.pending.foldl (fun s c => match c with
    | .stripeStore t => if s.fit t && s.locked t .sys then s.stripeStore t else s
    | _ => s) s

/-- The lead falls short at the latest line, for the job of bank `b` (R184, R285). -/
def State.leadShort (s : State) (b g : Nat) : Bool :=
  match s.lastLine.bind fun a => s.repeatAt b g a with
  | none => true
  | some (r, ir, _) => s.storesAhead.horizonShort b g (s.leadReq b g r ir)

/-- The next lead check of a group is due: band tick n − REF_LEAD_MIN has been issued, ticks before 0 counting as 0 (R184). -/
def State.leadDue (s : State) (g : Nat) : Bool :=
  s.clk.ticked && decide (smGet 0 g s.ref.leadNext ≤ s.bandIndex + s.rd 0 REF_LEAD_MIN)

/-- While the swap is armed, the next check against the job in SHADOW is due, by that job's own REF_LEAD_MIN (R285). -/
def State.leadNextDue (s : State) (g : Nat) : Bool :=
  s.clk.ticked && s.rd 0 CFG_STATUS_SHADOW == 4 && decide (smGet 0 g s.ref.leadAhead ≤ s.bandIndex + s.rdB s.shadow 0 REF_LEAD_MIN)

/-- The swap is armed: the bands whose tick n − REF_LEAD_MIN is still to come are checked against the job in SHADOW too; those whose tick has gone
by have no result for it and are not REF_LATE for it (R285; DESIGN CHOICE, log 217). -/
def State.leadArm (s : State) : State :=
  let n := if s.clk.ticked then s.bandIndex + s.rdB s.shadow 0 REF_LEAD_MIN + 1 else 0
  s.updRef fun r => { r with leadAhead := (List.range 8).foldl (fun m g => smSet 0 g n m) [], lateNext := [] }

/-- The check of a band against the job in SHADOW (R285). -/
def State.leadNextJob (s : State) (g : Nat) : State :=
  let n := smGet 0 g s.ref.leadAhead
  let b := s.shadow
  let s := s.updRef fun r => { r with leadAhead := smSet 0 g (n + 1) r.leadAhead }
  if s.refOn b g ∧ (s.refBad b g ∨ (¬ s.refLearns b g ∧ s.leadShort b g)) then s.updRef fun r => { r with lateNext := (g, n) :: r.lateNext }
  else s

/-- A band of a group is REF_LATE in the structure of bank `b`: an invalid configuration leaves every band so (R205), a short lead is counted
(R184). -/
def State.leadLate (s : State) (b g n : Nat) : State :=
  if s.refBad b g then (s.refFlag b g).markLate g n else (s.eachTile fun t s => s.addSat t (REF_GRP_LATE g) 1).markLate g n

/-- The check of a band against the job in force: a group that learns passes here; its bands before the learned reference are blind from their
own tick (R200). -/
def State.leadThisJob (s : State) (g : Nat) : State :=
  let n := smGet 0 g s.ref.leadNext
  let b := s.bank
  let s := s.updRef fun r => { r with leadNext := smSet 0 g (n + 1) r.leadNext }
  if s.refOn b g ∧ (s.refBad b g ∨ (¬ s.refLearns b g ∧ s.leadShort b g)) then s.leadLate b g n else s

/-- LEAD_CHECK (R184, R285). -/
def State.leadCheck (s : State) (g : Nat) : State :=
  let s := if s.leadNextDue g then s.leadNextJob g else s
  if s.leadDue g then s.leadThisJob g else s

/-- At a swap at band tick `m` the bands from `m` take the results for their own job: what the old job's check has counted for them is taken back,
as far as the counter still holds it (R285; DESIGN CHOICE, log 215). Called after the banks have changed. -/
def State.leadSwap (s : State) (m : Nat) : State :=
  let old := s.shadow
  let back (g : Nat) : Nat := if s.refBad old g || s.refLearns old g then 0 else s.ref.late.countP fun (h, n) => h == g && decide (m ≤ n)
  let s := s.eachTile fun t s => (List.range 8).foldl (fun s g => s.wr t (REF_GRP_LATE g) (s.rd t (REF_GRP_LATE g) - back g)) s
  let l := s.ref.lateNext.filter fun (_, n) => decide (m ≤ n)
  let own (k : Token) : Bool := k.reason != 0x02 || k.stage != 15 || decide (k.band < m)
  let s := { s with led := { s.led with inFlight := s.led.inFlight.filter own, tokens := s.led.tokens.filter own } }
  let s := s.updRef fun r => { r with late := r.late.filter fun (_, n) => decide (n < m), lateNext := [], leadNext := r.leadAhead }
  l.foldl (fun s (g, n) => s.leadLate s.bank g n) s

/-- LEAD_CHECK (R184). -/
def execLeadCheck (g : Group) (s : State) : Answer := whenEv s (s.leadDue g || s.leadNextDue g) fun s => s.leadCheck g

/-- A band opens while a group that learns has no learned reference: REF_LATE (R200). -/
def State.learnBand (s : State) (n : Nat) : State :=
  (s.groups s.bank).foldl (fun s g =>
    if s.refOn s.bank g && s.refLearns s.bank g && !s.is 0 (REF_GRP_STATUS_LEARNED g) then s.markLate g n else s) s

end Sys2Proof.Machine
end

