-- ==== Sys2Proof/Machine/Register.lean ====
section
/-! DEFINITION. Registration: the decimated copy, the correlator, the outcome rules, seam tracking, the warp, the learned reference and the
registration record (R168, R186 to R203). -/

namespace Sys2Proof.Machine

/-! The decimated copy (R168). -/

/-- The live copy of a tile's part of a group, newest row first. -/
def State.decRows (s : State) (t g : Nat) : List DecRow := smGet [] (t * 8 + g) s.ref.dec

/-- Row `r` of the decimated copy of band `n` from the lines completed. -/
def State.decRow (s : State) (t g n r : Nat) : DecRow :=
  let w := (s.seg (s.bankOf n) t g).2
  ⟨n, ((s.band n).map (·.line0)).getD 0 + 4 * r, (List.range (ceilDiv w 4)).map fun q => s.decBlock t g n q r⟩

/-- Rows kept: ROWS is at most 63 (R188), and band n + 1 may already have delivered its own. -/
def decKept : Nat := 256

/-- A row enters the live copy, unless it stands there. -/
def State.pushDec (s : State) (t g n r : Nat) : State :=
  let x := s.decRow t g n r
  if (s.decRows t g).any (·.a == x.a) then s
  else s.updRef fun y => { y with dec := smUpd [] (t * 8 + g) (fun l => (x :: l).take decKept) y.dec }

/-- Rows of band `n`, once it takes no more lines. -/
def State.bandRows (s : State) (n : Nat) : Option Nat :=
  match s.band n with
  | some b => if b.closed || b.pos.length == b.size then some (ceilDiv b.pos.length 4) else none
  | none => none

/-- A completed line ends its block of four, or the last block of its band: the row it completes, if any (R168). -/
def State.decStep (s : State) (t g a : Nat) : Option Nat × State :=
  let (n, i) := s.lineHome a
  let last := (s.bandRows n).isSome && (match s.band n with | some b => i + 1 == b.pos.length | none => false)
  if i % 4 = 3 ∨ last then (some (i / 4), s.pushDec t g n (i / 4)) else (none, s)

/-- The live copy of a band is whole on every tile of the group. -/
def State.decWhole (s : State) (g n : Nat) : Bool :=
  match s.bandRows n with
  | none => false
  | some k => s.tiles.all fun t => !s.hasSeg (s.bankOf n) t g || (s.decRows t g).countP (·.n == n) == k

/-! The correlator (R187, R188). -/

/-- The registers of a solution as it stands in effect. -/
def State.solNow (s : State) (g : Nat) : Sol :=
  ⟨s.rdS 0 (REF_GRP_SOL_DY g), s.rdS 0 (REF_GRP_SOL_DX g), s.rdS 0 (REF_GRP_SOL_SCALE g), s.rdS 0 (REF_GRP_SOL_SKEW g),
   (List.range 64).map fun k => sInt 16 (s.rd 0 (REF_GRP_NODE g (k / 2)) >>> (16 * (k % 2)))⟩

/-- INIT of a bank (R192). -/
def State.solInit (s : State) (b g : Nat) : Sol :=
  ⟨s.rdSB b 0 (REF_GRP_INIT_DY g), s.rdSB b 0 (REF_GRP_INIT_DX g), s.rdSB b 0 (REF_GRP_INIT_SCALE g), s.rdSB b 0 (REF_GRP_INIT_SKEW g),
   List.replicate 64 0⟩

/-- The last good solution of the job in bank `b`, its INIT where there is none (R192). -/
def State.solGood (s : State) (b g : Nat) : Sol := ((s.ref.good.find? (·.1 == b * 8 + g)).map (·.2)).getD (s.solInit b g)

/-- A group whose first band of a new job has still to be solved, with KEEP_SOL: what the old job finds good stays good for the new one (R192). -/
def State.solKept (s : State) (b g : Nat) : Bool :=
  b != s.bank && (s.ref.fresh.any (·.1 == g)) && s.rdB s.bank 0 (REF_GRP_CFG_KEEP_SOL g) != 0

/-- A solution becomes the last good one of the job in bank `b`, and of the new job where that keeps it (R192). -/
def State.setGood (s : State) (b g : Nat) (sol : Sol) : State :=
  let kept := s.solKept b g
  s.updRef fun x =>
    let l := smInsert (b * 8 + g) sol x.good
    { x with good := if kept then smInsert (s.bank * 8 + g) sol l else l }

/-- The solution that predicts the offsets of band `n`: the one in effect, and INIT in the first band of a job without KEEP_SOL (R188, R192). -/
def State.predict (s : State) (b g n : Nat) : Sol :=
  if (s.ref.fresh.any fun (h, m) => h == g && decide (m ≤ n)) && s.rdB b 0 (REF_GRP_CFG_KEEP_SOL g) == 0 then s.solInit b g else s.solNow g

/-- c of R188 from pairs of live and reference cells: the greatest c with c − 1/2 ≤ 255 × ncc, 0 with a variance of zero. -/
def nccScore (ps : List (Nat × Nat)) : Nat :=
  let m : Int := ps.length
  let sa : Int := sumN (ps.map (·.1))
  let sb : Int := sumN (ps.map (·.2))
  let n : Int := m * sumN (ps.map fun (a, b) => a * b) - sa * sb
  let va : Int := m * sumN (ps.map fun (a, _) => a * a) - sa * sa
  let vb : Int := m * sumN (ps.map fun (_, b) => b * b) - sb * sb
  if n ≤ 0 ∨ va ≤ 0 ∨ vb ≤ 0 then 0
  else (List.range 255).countP fun (k : Nat) => decide ((2 * (k : Int) + 1) * (2 * (k : Int) + 1) * (va * vb) ≤ 510 * n * (510 * n))

/-- The coarse row that holds stitched line `a` with a zero solution, counted over the repeats (R173, R181; log 47). -/
def State.coarseRowOf (s : State) (b g a : Nat) : Option Int :=
  (s.repeatAt b g a).map fun (r, ir, _) => ((r * s.coarseRows b g : Nat) : Int) + ir * 2 ^ 16 / (s.linePitch b * 4 : Nat)

/-- The cells of a patch: decimated column, coarse row and live value, by cell. -/
def State.patchCells (s : State) (b t g n j : Nat) : List (Nat × Int × Option Nat) :=
  let q0 := s.patchQ0 b g j
  let w := s.rdB b 0 (REF_GRP_SEARCH_PATCH_W g)
  let rows := ((s.decRows t g).filter fun r => decide (r.n ≤ n)).take (s.rdB b 0 (REF_GRP_SEARCH_ROWS g))
  let x0 := (s.seg b t g).1 / 4
  rows.flatMap fun r =>
    match s.coarseRowOf b g r.a with
    | none => (List.range w).map fun k => (q0 + k, 0, none)
    | some cr => (List.range w).map fun k => (q0 + k, cr, (r.cells.getD (q0 + k - x0) none))

/-- The score of an offset: 0 with fewer than half the cells valid (R188). -/
def State.offsetScore (s : State) (b t g : Nat) (cells : List (Nat × Int × Option Nat)) (ox oy : Int) : Nat :=
  let full := s.rdB b 0 (REF_GRP_SEARCH_PATCH_W g) * s.rdB b 0 (REF_GRP_SEARCH_ROWS g)
  let rows := Nat.max 1 (s.coarseRows b g)
  let ps := cells.filterMap fun (q, r, v) => do
    let a ← v
    let q' := (q : Int) + ox
    let r' := r + oy
    if q' < 0 ∨ r' < 0 then none else do
      let c ← s.coarse b t g (r'.toNat / rows) q'.toNat (r'.toNat % rows)
      pure (a, c)
  if 2 * ps.length < full then 0 else nccScore ps

/-- A better peak: the higher c, then the smaller |ox| + |oy|, the smaller oy, the smaller ox (R188). -/
def peakBefore (x y : Nat × Int × Int) : Bool :=
  let (c, ox, oy) := x
  let (d, px, py) := y
  let m := ox.natAbs + oy.natAbs
  let n := px.natAbs + py.natAbs
  decide (d < c) || c == d && (decide (m < n) || m == n && (decide (oy < py) || oy == py && decide (ox < px)))

/-- 1024 × δ (R188): a quarter of a decimated cell in 1/256 pixel; a free value where δ is 0/0 (log 48). -/
def peakDelta (lo mid hi : Nat) (free : Nat) : Int :=
  let den : Int := 2 * ((lo : Int) - 2 * mid + hi)
  if den = 0 then (free % 1025 : Nat) - 512
  else clampI (-512) 512 (roundDiv (-(1024 * ((lo : Int) - hi))) (-den).toNat)

/-- 2u of a stitched position x in whole pixels: u = x − WIDTH / 2 (R187). -/
def State.twoU (s : State) (b g x : Nat) : Int := 2 * (x : Int) - s.rdB b 0 (STI_GRP_WIDTH g)

/-- DX + S u and DY + K u at 2u, over 2,000,000 and over 2,000,000 × BND_LINE_PITCH, in 1/256 (R189). -/
def solDxAt (sol : Sol) (u2 : Int) : Int := sol.dx * 2000000 + sol.scale * u2
/-- The along-web part. -/
def State.solDy (s : State) (b g : Nat) (sol : Sol) (u2 : Int) : Int :=
  sol.dy * (2000000 * s.linePitch b : Nat) + sol.skew * (s.rdB b 0 (STI_GRP_PITCH g) : Nat) * u2

/-- The measure of one patch (R188). -/
def State.measurePatch (s : State) (b g n j free : Nat) : PatchRes :=
  let q0 := s.patchQ0 b g j
  let w := s.rdB b 0 (REF_GRP_SEARCH_PATCH_W g)
  let x := 4 * q0 + 2 * w
  match s.patchTile b g j with
  | none => ⟨0, 0, 0, x⟩
  | some t =>
    let u2 := s.twoU b g x
    let px := roundDiv (solDxAt (s.predict b g n) u2) (2000000 * 1024)
    let py := roundDiv (s.solDy b g (s.predict b g n) u2) (2000000 * s.linePitch b * 1024)
    let mx := s.rdB b 0 (REF_GRP_SEARCH_SX g)
    let my := s.rdB b 0 (REF_GRP_SEARCH_SY g)
    let cells := s.patchCells b t g n j
    let sc := s.offsetScore b t g cells
    let all := (List.range (2 * my + 1)).flatMap fun (i : Nat) => (List.range (2 * mx + 1)).map fun (k : Nat) =>
      let ox := px - mx + (k : Int)
      let oy := py - my + (i : Int)
      (sc ox oy, ox, oy)
    let (c, ox, oy) := all.foldl (fun m y => if peakBefore y m then y else m) (all.headD (0, 0, 0))
    if (ox - px).natAbs = mx ∨ (oy - py).natAbs = my ∨ c < s.rdB b 0 (REF_GRP_REG_PATCH_MIN g) then ⟨0, 0, 0, x⟩
    else ⟨c, 1024 * ox + peakDelta (sc (ox - 1) oy) c (sc (ox + 1) oy) (Config.free free),
      1024 * oy + peakDelta (sc ox (oy - 1)) c (sc ox (oy + 1)) (Config.free (free + 1)), x⟩

/-- The group registers band `n`: it has patches, and the band is not REF_LATE or learning has its first repeat (R184, R187, R199). -/
def State.registers (s : State) (g n : Nat) : Bool :=
  let b := s.bankOf n
  s.refOn b g && s.rdB b 0 (REF_GRP_CFG_PATCHES g) != 0 &&
    (!s.refLate g n || (s.refLearns b g && !(s.learnB b g).caps.isEmpty))

/-- The patches of a band are measured once its live copy is whole (R187, R188). -/
def State.refMeasure (s : State) (g n : Nat) : State :=
  if s.ref.patches.any (·.1 == (g, n)) || !s.decWhole g n || !s.registers g n then s
  else
    let b := s.bankOf n
    let np := s.rdB b 0 (REF_GRP_CFG_PATCHES g)
    let f := s.freeCtr
    let res := (List.range np).map fun j => s.measurePatch b g n j (f + 2 * j)
    { s.updRef fun x => { x with patches := ((g, n), res) :: x.patches } with freeCtr := f + 2 * np }

/-! The outcome rules (R192). -/

/-- The outcome kept for a band. -/
def State.refOut (s : State) (g n : Nat) : Option RefOut := s.ref.outs.find? fun o => o.group == g && o.n == n

/-- An outcome is kept. -/
def State.pushOut (s : State) (o : RefOut) : State := s.updRef fun x => { x with outs := o :: x.outs }

/-- A solution in effect reads on every tile (R206). -/
def State.setSol (s : State) (g : Nat) (x : Sol) : State :=
  s.eachTile fun t s =>
    let s := (((s.wrS t (REF_GRP_SOL_DY g) x.dy).wrS t (REF_GRP_SOL_DX g) x.dx).wrS t (REF_GRP_SOL_SCALE g) x.scale).wrS t (REF_GRP_SOL_SKEW g) x.skew
    (List.range 32).foldl (fun s j =>
      s.wr t (REF_GRP_NODE g j) (uNat 16 (x.nodes.getD (2 * j) 0) + 2 ^ 16 * uNat 16 (x.nodes.getD (2 * j + 1) 0))) s

/-- The outcome of a solve with a confidence (R192). -/
def State.refOutcome (s : State) (g n : Nat) (sol : Sol) (conf used : Nat) (clamped track : Bool) (res : Nat) : State :=
  let b := s.bankOf n
  let hold := s.rd 0 (REF_GRP_STATUS_HOLD_COUNT g)
  let ok := decide (s.rdB b 0 (REF_GRP_REG_CONF_MIN g) ≤ conf)
  let past := decide (s.rdB b 0 (REF_GRP_REG_HOLD g) < hold + 1)
  let policy := s.rdB b 0 (REF_GRP_CFG_FAIL_POLICY g) != 0
  let fail := !ok && past && !policy
  let use := if ok then sol else s.solGood b g
  let held := !ok && (!past || policy)
  let expired := !ok && past && policy
  let hold' := if ok then 0 else Nat.min 0xFFFF (hold + 1)
  let s := s.pushOut ⟨g, n, use, conf, used, held, expired, fail, clamped, track, res, hold'⟩
  let s := if ok then s.setGood b g sol else s
  let s := s.eachTile fun t s =>
    (((s.wr t (REF_GRP_STATUS_CONF g) conf).wr t (REF_GRP_STATUS_HELD g) (bitN held)).wr t (REF_GRP_STATUS_EXPIRED g) (bitN expired)).wr t
      (REF_GRP_STATUS_HOLD_COUNT g) hold'
  if fail then (s.eachTile fun t s => s.addSat t (REF_GRP_FAILS g) 1).blind (s.fullToken 0x09 15 n g)
  else s.setSol g use

/-! Seam tracking (R193, R194). -/

/-- Residuals of a sub-stream's patches: weight, dx residual over 2,000,000 and dy residual over 2,000,000 × pitch, weighted sums. -/
structure SeamSum where
  sub : Nat
  count : Nat
  w : Nat
  rx : Int
  ry : Int
  deriving DecidableEq, Repr

/-- The sums of the used patches by sub-stream (R193). -/
def State.seamSums (s : State) (b g : Nat) (sol : Sol) (mask : Nat) (ps : List PatchRes) : List SeamSum :=
  (ps.zipIdx.filter fun (p, j) => mask.testBit j && p.c != 0).foldl (fun l (p, j) =>
    match s.patchTile b g j with
    | none => l
    | some t =>
      let sub := wordSub (s.mapWord b t g (p.x - (s.seg b t g).1))
      let u2 := s.twoU b g p.x
      let rx := p.dx * 2000000 - solDxAt sol u2
      let ry := p.dy * (2000000 * s.linePitch b : Nat) - s.solDy b g sol u2
      let old := (l.find? (·.sub == sub)).getD ⟨sub, 0, 0, 0, 0⟩
      ⟨sub, old.count + 1, old.w + p.c, old.rx + p.c * rx, old.ry + p.c * ry⟩ :: l.filter (·.sub != sub)) []

/-- r_t and ry_t in 1/256, relative to the anchor, of the sub-streams with at least two used patches; none where the anchor has fewer
(R193; log 49). -/
def State.seamOffsets (s : State) (b g : Nat) (l : List SeamSum) : List (Nat × Int × Int) :=
  let two := l.filter (2 ≤ ·.count)
  match two.find? (·.sub == s.rdB b 0 (REF_GRP_TRACK_ANCHOR g)) with
  | none => []
  | some a => two.map fun x =>
    (x.sub, roundDiv (x.rx * a.w - a.rx * x.w) (x.w * a.w * 2000000),
      roundDiv (x.ry * a.w - a.ry * x.w) (x.w * a.w * (2000000 * s.linePitch b)))

/-- The stitch residual of the group in µm (R194). -/
def State.stitchRes (s : State) (b g : Nat) (rs : List (Nat × Int × Int)) : Nat :=
  let r (sub : Nat) := (rs.find? (·.1 == sub)).map (·.2)
  let one (x y : Int × Int) : Nat :=
    Nat.max ((x.1 - y.1).natAbs * s.rdB b 0 (STI_GRP_PITCH g)) ((x.2 - y.2).natAbs * s.linePitch b)
  let vs := s.tiles.flatMap fun t => (s.hedges b t g).filterMap fun h => do
    let x ← r (wordSub (s.mapWord b t g (h.x0 - (s.seg b t g).1)))
    let y ← r (wordSub (s.secWord t h 0))
    pure (one x y)
  if vs.isEmpty then 0xFFFF else Nat.min 65534 (roundDiv (vs.foldl Nat.max 0 : Nat) (2 ^ 24)).toNat

/-- The trims that a solve hands over at the next band tick (R169, R193). -/
def State.seamTrims (s : State) (b g : Nat) (rs : List (Nat × Int × Int)) : List (Nat × Int × Int) :=
  let gain : Int := s.rdB b 0 (REF_GRP_TRACK_GAIN g)
  (rs.filter (·.1 != s.rdB b 0 (REF_GRP_TRACK_ANCHOR g))).map fun (sub, rx, ry) =>
    (sub, satS 16 (s.rdS (sub / 8) (STI_SUB_TRIM_NOW_X (sub % 8)) - (gain * rx + 128) / 256),
      satS 16 (s.rdS (sub / 8) (STI_SUB_TRIM_NOW_Y (sub % 8)) + (gain * ry + 128) / 256))

/-- The solution that an item of 39 words states (R250). -/
def solOfItem (ws : List Nat) : Sol :=
  ⟨sInt 32 (ws.getD 0 0), sInt 32 (ws.getD 1 0), sInt 32 (ws.getD 2 0), sInt 32 (ws.getD 3 0),
   (List.range 64).map fun k => sInt 16 (ws.getD (5 + k / 2) 0 >>> (16 * (k % 2)))⟩

/-- A missed class 3 deadline of a group in band `n`: blind with ENG_LATE and STAGE 3, counted on the solve tile (R58, R62, R250). -/
def State.solveMiss (s : State) (g n : Nat) : State :=
  let s := s.missToken (s.rdN n 0 (REF_GRP_CFG_SOLVE_TILE g)) 3 (s.fullToken 0x01 3 n g)
  { s with eng := { s.eng with due := smUpd 0 (16 + g) (Nat.max (n + 1)) s.eng.due } }

/-- The solve of band `n` has missed its deadline: no solution of it is taken any more (R58). -/
def State.solvePast (s : State) (g n : Nat) : Bool := decide (n < smGet 0 (16 + g) s.eng.due)

/-- The first band of a job is solved: INIT is in effect unless KEEP_SOL holds, and nothing is held (R192, R204). -/
def State.solJob (s : State) (g n : Nat) : State :=
  if s.ref.fresh.any fun (h, m) => h == g && decide (m ≤ n) then
    let s := s.updRef fun x => { x with fresh := x.fresh.filter (·.1 != g) }
    let s := s.eachTile fun t s => s.clrF t (REF_GRP_STATUS_HOLD_COUNT g)
    if s.rdN n 0 (REF_GRP_CFG_KEEP_SOL g) != 0 then s else s.setSol g (s.solInit (s.bankOf n) g)
  else s

/-- A solution item of 39 words for band `n` (R192 to R194, R250). -/
def State.takeSolution (s : State) (g n : Nat) (ws : List Nat) : State :=
  let s := s.solJob g n
  let b := s.bankOf n
  let sol := solOfItem ws
  let conf := ws.getD 4 0 % 256
  let used := bitsOf (ws.getD 4 0) 15 8
  let clamped := (ws.getD 4 0).testBit 16
  if s.refLate g n then s.pushOut ⟨g, n, sol, conf, used, false, false, false, clamped, false, 0xFFFF, s.rd 0 (REF_GRP_STATUS_HOLD_COUNT g)⟩
  else
    let ps := ((s.ref.patches.find? (·.1 == (g, n))).map (·.2)).getD []
    let track := s.rdB b 0 (STI_GRP_CFG_TRACK g) != 0
    let rs := if track then s.seamOffsets b g (s.seamSums b g sol (ws.getD 37 0 + 2 ^ 32 * ws.getD 38 0) ps) else []
    let good := decide (s.rdB b 0 (REF_GRP_REG_CONF_MIN g) ≤ conf)
    let ts := if good then s.seamTrims b g rs else []
    let res := s.stitchRes b g rs
    let s := s.updSti fun x => { x with reg := ts.foldl (fun l (sub, v) => smInsert sub v l) x.reg }
    let s := s.eachTile fun t s => s.wr t (REF_GRP_STITCH_RES g) res
    s.refOutcome g n sol conf used clamped (!ts.isEmpty) res

/-- SOLUTION_ITEM: the oldest item of the group; an item for a band already settled says nothing more (R250). -/
def State.solutionItem (s : State) (g : Nat) : State :=
  match s.ref.items.find? (·.1 == g) with
  | none => s
  | some (_, n, ws) =>
    let s := s.updRef fun x => { x with items := x.items.erase (g, n, ws) }
    if (s.refOut g n).isSome || s.solvePast g n then s
    else if ws.length = 39 then (s.takeSolution g n ws).doneLate (s.rdN n 0 (REF_GRP_CFG_SOLVE_TILE g)) 3 n else s.solveMiss g n

/-- The outcome for a group whose solve is off: INIT, confidence 255, nothing held (R187). -/
def State.outcomeOf (s : State) (g n : Nat) : Option RefOut :=
  let b := s.bankOf n
  if s.rdB b 0 (REF_GRP_CFG_PATCHES g) = 0 then some ⟨g, n, s.solInit b g, 255, 0, false, false, false, false, false, 0xFFFF, 0⟩
  else s.refOut g n

/-! The warp (R195, R196, R186). -/

/-- e(x) over WIDTH − 1, in 1/256 pixel (R190, R195). -/
def elasticNum (nodes : List Int) (w x : Nat) : Int :=
  if w ≤ 1 then nodes.getD 0 0
  else
    let k := 63 * x / (w - 1)
    let f := 63 * x % (w - 1)
    nodes.getD k 0 * ((w - 1 : Nat) - (f : Int)) + nodes.getD (k + 1) 0 * f

/-- xs, ys, xr and yr of a stitched column and line in 1/256 (R195): `r` and `ir` are the line's REPEAT and IN_REPEAT. -/
def State.warpPos (s : State) (b g : Nat) (sol : Sol) (r : Nat) (ir : Int) (x : Nat) : Int × Int × Int × Int :=
  let w := s.rdB b 0 (STI_GRP_WIDTH g)
  let u2 := 2 * (x : Int) + 1 - w
  let d := Nat.max 1 (w - 1)
  let lp := s.linePitch b
  let xs := 256 * (x : Int) + 128 + roundDiv (solDxAt sol u2 * d + elasticNum sol.nodes w x * 2000000) (2000000 * d)
  let ys := roundDiv (ir * 2 ^ 24 * 2000000 + s.solDy b g sol u2) (2000000 * lp)
  (xs, ys, roundDiv xs (s.refSx b g) - 128, ((r * s.refLpr b g * 256 : Nat) : Int) + roundDiv ys (s.refSy b g))

/-- A reference pixel at a line of the window, or at the nearest line present; and whether another line had to serve (R186). -/
def State.refNear (s : State) (b t g gl c k : Nat) : List Nat × Bool :=
  match s.refPix b t g gl c with
  | some v => (v, false)
  | none =>
    match (List.range k).findSome? fun d => ((s.refPix b t g (gl + d + 1) c).orElse fun _ => if d < gl then s.refPix b t g (gl - d - 1) c else none) with
    | some v => (v, true)
    | none => (List.replicate (s.grpP b g) 0, true)

/-- What the warp hands to segmentation for one pixel: the reference planes in Q16.8, the privet class, WIN_CLAMP and MARGIN. -/
structure WarpPix where
  planes : List Nat
  cls : Nat
  win : Bool
  margin : Bool
  deriving DecidableEq, Repr

/-- One mix of two samples with weights in 1/256 (R161). -/
def mix256 (f : Nat) (a b : List Nat) : List Nat := (a.zip b).map fun (x, y) => ((256 - f) * x + f * y + 128) / 256

/-- The warp of one pixel; `low` is the lowest line of the window (R186, R195, R196; log 50). -/
def State.warpPix (s : State) (b t g : Nat) (sol : Sol) (low : Int) (r : Nat) (ir : Int) (x : Nat) : WarpPix :=
  let (xs, ys, xr, yr) := s.warpPos b g sol r ir x
  let w := s.rdB b 0 (STI_GRP_WIDTH g)
  let cols : Int := s.refCols b g
  let (rx0, rn) := s.ringCols b t g
  let wl := s.rdB b t (REF_GRP_WIN_LINES g)
  let lpr : Int := Nat.max 1 (s.refLpr b g)
  let interp := s.rdB b 0 (REF_GRP_CFG_INTERP g) != 0
  let (i, f) := if interp then (xr / 256, (xr % 256).toNat) else (roundDiv xr 256, 0)
  let (j, h) := if interp then (yr / 256, (yr % 256).toNat) else (roundDiv yr 256, 0)
  let need (c : Int) := clampI 0 (cols - 1) c
  let fix (c : Int) := clampI rx0 ((rx0 : Int) + rn - 1) (need c)
  let margin := fix i != need i || (f != 0 && fix (i + 1) != need (i + 1))
  let line (l : Int) := clampI (max 0 low) (max 0 low + wl - 1) l
  let at_ (l c : Int) := s.refNear b t g (line l).toNat (fix c).toNat wl
  let row (l : Int) := if f = 0 then at_ l i else (mix256 f ((at_ l i).1.map (· * 2 ^ 16)) ((at_ l (i + 1)).1.map (· * 2 ^ 16)), (at_ l i).2 || (at_ l (i + 1)).2)
  let rowQ (l : Int) := if f = 0 then ((row l).1.map (· * 2 ^ 16), (row l).2) else row l
  let planes := if h = 0 then (rowQ j).1 else mix256 h (rowQ j).1 (rowQ (j + 1)).1
  let far := line j != j || (rowQ j).2 || (h != 0 && (line (j + 1) != j + 1 || (rowQ (j + 1)).2))
  let rep := yr / 256 / lpr
  let ysr := ys - (rep - r) * lpr * s.refSy b g * 256
  let cellX := clampI 0 ((ceilDiv w 4 : Nat) - 1) (xs / 1024)
  let near := line (yr / 256)
  let cls := match s.refClass b t g rep.toNat (ysr / 1024).toNat cellX.toNat with
    | some c => c
    | none => (s.refClass b t g (near / lpr).toNat ((near % lpr).toNat * s.refSy b g / 4) cellX.toNat).getD 15
  ⟨planes, if xs < 0 ∨ (w * 256 : Nat) < xs ∨ margin then 15 else cls, far, margin⟩

/-- The lowest reference line that the first line of a band needs on a tile: the window of R186 starts there (log 50). -/
def State.warpLow (s : State) (b t g : Nat) (sol : Sol) (r : Nat) (ir : Int) : Int :=
  let (x0, n) := s.seg b t g
  let y (x : Nat) := (s.warpPos b g sol r ir x).2.2.2 / 256
  min (y x0) (y (x0 + (n - 1)))

/-- The window of a tile as it is decoded for a band: line `l` in slot l mod WIN_LINES, the planes of a column side by side (R186; DESIGN CHOICE,
log 154). -/
def State.winStore (s : State) (b t g : Nat) (low : Int) : State :=
  let wl := s.rdB b t (REF_GRP_WIN_LINES g)
  let (x0, n) := s.ringCols b t g
  (List.range wl).foldl (fun s i =>
    let l := (max 0 low).toNat + i
    let px := (List.range n).map fun c => s.refPix b t g l (x0 + c)
    if px.all Option.isNone then s
    else s.setBytes (pipeAddr t (s.rdB b t (REF_GRP_WIN_BASE g) + l % wl * s.winLineBytes b t g))
      (px.flatMap fun v => (v.getD (List.replicate (s.grpP b g) 0)).flatMap fun x => leBytes 3 (x * 2 ^ 16))) s

/-- The warp of a stitched line: one entry for each segment column. -/
def State.warpLine (s : State) (b t g : Nat) (sol : Sol) (low : Int) (a : Nat) : List WarpPix :=
  let (x0, n) := s.seg b t g
  match s.repeatAt b g a with
  | none => List.replicate n ⟨List.replicate (s.grpP b g) 0, 15, false, false⟩
  | some (r, ir, _) => (List.range n).map fun c => s.warpPix b t g sol low r ir (x0 + c)

/-! The learned reference (R198 to R200). -/

/-- The state with a group's learning changed. -/
def State.updLearn (s : State) (g : Nat) (f : Learn → Learn) : State :=
  s.updRef fun x => { x with learns := smUpd Learn.idle (s.bank * 8 + g) f x.learns }

/-- The repeat count of the newest line of a group. -/
def State.repNow (s : State) (g : Nat) : Int := ((s.lastLine.bind fun a => s.repeatAt s.bank g a).map (·.2.2)).getD (-1)

/-- LEARN_START: a write of LEARN.START on a tile, ignored while learning runs; a request that waits for its boundary stands (R198, R204). -/
def State.learnStart (s : State) (t g : Nat) : State :=
  if s.is 0 (REF_GRP_STATUS_LEARNING g) then s.setF t REF_ERR_LEARN_BUSY
  else s.updLearn g fun l => { l with req := l.req.orElse fun _ => some (s.repNow g) }

/-- LEARN_START (R198). -/
def execLearnStart (t : Tile) (g : Group) (s : State) : Answer := onTile s t fun s => s.learnStart t g

/-- The learn buffer leaves the window or overlaps another array (R198). -/
def State.learnBad (s : State) (b t g : Nat) : Bool := s.arraysBad b t (.learn g) [s.learnBuf b t g]

/-- STATUS.LEARNING, LEARNED and LEARN_COUNT on every tile. -/
def State.learnStatus (s : State) (g learning learned count : Nat) : State :=
  s.eachTile fun t s => ((s.wr t (REF_GRP_STATUS_LEARNING g) learning).wr t (REF_GRP_STATUS_LEARNED g) learned).wr t
    (REF_GRP_STATUS_LEARN_COUNT g) count

/-- LEARNING_BEGIN: at the first repeat boundary after the request (R198). -/
def State.learnBegin (s : State) (g : Nat) : State :=
  let b := s.bank
  let bad := s.tiles.filter fun t => s.learnBad b t g
  if bad.isEmpty then
    let first := ((s.band s.clk.nextRelease).map (·.line0)).getD 0
    (s.updLearn g fun _ => { Learn.idle with since := s.repNow g, next := first }).learnStatus g 1 0 0
  else (bad.foldl (fun s t => s.setF t REF_ERR_LEARN_MEM) s).updLearn g fun l => { l with req := none }

/-- LEARNING_BEGIN (R198): SOURCE is 1 and a boundary has passed since the request. -/
def execLearningBegin (g : Group) (s : State) : Answer :=
  whenEv s (s.refLearns s.bank g && (match (s.learn g).req with | some k => decide (k < s.repNow g) | none => false)) fun s => s.learnBegin g

/-- The sums of a capture with a stitched pixel added at a reference pixel. -/
def addSample (m : List (Nat × (Nat × List Nat))) (key : Nat) (v : List Nat) : List (Nat × (Nat × List Nat)) :=
  let (n, l) := smGet (0, v.map fun _ => 0) key m
  smInsert key (n + 1, (l.zip v).map fun (a, b) => a + b) m

/-- The value of a captured pixel: the mean narrowed to 8 bits from bits [23:16] (R199). -/
def captureValue (x : Nat × List Nat) : List Nat := x.2.map fun (a : Nat) => Nat.min 255 (roundDiv a (x.1 * 2 ^ 16)).toNat

/-- Capture `k` of a group as the tiles hold it in their learn buffers: one capture behind the other, line by line, a byte for each plane of a
column (R198; DESIGN CHOICE, log 154). -/
def State.learnStore (s : State) (b g k : Nat) (img : List (Nat × List Nat)) : State :=
  s.eachTile fun t s =>
    let (x0, n) := s.ringCols b t g
    let lpr := s.refLpr b g
    let cols := s.refCols b g
    let bytes := (List.range lpr).flatMap fun l => (List.range n).flatMap fun c => (smGet [] (l * cols + x0 + c) img).map (BitVec.ofNat 8)
    s.setBytes (pipeAddr t (s.rdB b t (REF_GRP_LEARN_BASE g) + k * (lpr * n * s.grpP b g))) bytes

/-- A captured repeat is whole: good ones are held up to K, others dropped; a pixel that no stitched pixel fell on takes a free value
(R199; log 51). -/
def State.captureEnd (s : State) (g : Nat) (c : Capture) : State :=
  let b := s.bank
  let n := s.refLpr b g * s.refCols b g
  let k := Nat.max 3 (s.rdB b 0 (REF_GRP_LEARN_K g))
  let l := s.learn g
  if !c.good || k ≤ l.caps.length then s
  else
    let f := s.freeCtr
    let p := s.grpP b g
    let img := (List.range n).map fun i => match smGet (0, []) i c.sums with
      | (0, _) => (i, (List.range p).map fun j => Config.free (f + i * p + j) % 256)
      | x => (i, captureValue x)
    let s := { s.updLearn g fun l => { l with caps := l.caps ++ [img] } with freeCtr := f + n * p }
    (s.learnStore b g l.caps.length img).learnStatus g 1 0 (l.caps.length + 1)

/-- A line of repeat count `k` is the first of a repeat: the repeat before it is whole (R199). -/
def State.captureTurn (s : State) (g : Nat) (k : Int) : State :=
  match (s.learn g).cur with
  | some c => if c.k = k then s else (s.captureEnd g c).updLearn g fun l => { l with cur := some ⟨k, true, []⟩ }
  | none => s.updLearn g fun l => { l with cur := some ⟨k, true, []⟩ }

/-- The solution that a line of a band is captured with: INIT for the first repeat, then the band's own with a confidence of at least CONF_MIN; the
outer option is none while the band has no outcome yet (R199). -/
def State.captureSol (s : State) (g : Nat) (bd : Band) : Option (Option Sol) :=
  if (s.learn g).caps.isEmpty then some (some (s.solInit bd.bank g))
  else match s.outcomeOf g bd.n with
    | some o => some (if s.rdB bd.bank 0 (REF_GRP_REG_CONF_MIN g) ≤ o.conf then some o.sol else none)
    | none => if s.solvePast g bd.n then some none else none

/-- Line `i` of a band enters the capture of its repeat. The repeat is good only where no tile lacks the line, no token of the group covers it, and
the band has a solution (R199; log 52). -/
def State.captureLine (s : State) (g : Nat) (bd : Band) (sol : Option Sol) (i r : Nat) (ir : Int) : State :=
  let b := bd.bank
  let a := bd.line0 + i
  let blind := bd.allBlind || (s.tokensOf bd.n g).any fun x => x.reason != 0x02 && decide (x.l0 ≤ i) && decide (i < x.l1)
  let lines := s.tiles.filterMap fun t => if s.hasSeg b t g then some (t, (smGet [] (t * 8 + g) s.sti.done).find? (·.a == a)) else none
  match sol with
  | none => s.updLearn g fun l => { l with cur := l.cur.map fun c => { c with good := false } }
  | some x =>
    let whole := lines.all (·.2.isSome) && !blind
    let sums := lines.foldl (fun m (t, o) => match o with
      | none => m
      | some ln => ln.cols.zipIdx.foldl (fun m (v, c) =>
          let (_, _, xr, yr) := s.warpPos b g x r ir ((s.seg b t g).1 + c)
          let rc := clampI 0 ((s.refCols b g : Int) - 1) ((xr + 128) / 256)
          addSample m (((yr / 256) % Nat.max 1 (s.refLpr b g)).toNat * s.refCols b g + rc.toNat) v) m)
      ((s.learn g).cur.map (·.sums) |>.getD [])
    s.updLearn g fun l => { l with cur := l.cur.map fun c => { c with good := c.good && whole, sums := sums } }

/-- The next lines of a group that learns enter the capture, in order, as soon as their band's live copy is whole and, beyond the first repeat, its
outcome is known; `last` is a band that is released and waits no longer (R199; log 52). -/
def State.captureRun (s : State) (g : Nat) (last : Option Nat) : Nat → State
  | 0 => s
  | f + 1 =>
    let a := (s.learn g).next
    let on (s : State) : State := s.updLearn g fun l => { l with next := a + 1 }
    match s.lineBand a with
    | none => s
    | some (bd, i) =>
      if last != some bd.n && !s.decWhole g bd.n then s else
      match s.repeatAt bd.bank g a with
      | none => (on s).captureRun g last f
      | some (r, ir, k) =>
        if k < (s.learn g).since ∨ bd.bank ≠ s.bank then (on s).captureRun g last f
        else
          let s := s.captureTurn g k
          match s.captureSol g bd with
          | some sol => (on (s.captureLine g bd sol i r ir)).captureRun g last f
          | none => if last = some bd.n then (on (s.captureLine g bd none i r ir)).captureRun g last f else s

/-- The lines of the bands that are kept, and one. -/
def State.lineFuel (s : State) : Nat := sumN (s.clk.bands.map (·.pos.length)) + 1

/-- A group that learns captures what it can (R199). -/
def State.learnStep (s : State) (g : Nat) : State := if s.is 0 (REF_GRP_STATUS_LEARNING g) then s.captureRun g none s.lineFuel else s

/-- At the release of a band what is left of it enters the capture (R199). -/
def State.learnRelease (s : State) (bd : Band) (g : Nat) : State :=
  if !s.is 0 (REF_GRP_STATUS_LEARNING g) then s
  else (s.updLearn g fun l => { l with next := Nat.max l.next bd.line0 }).captureRun g (some bd.n) s.lineFuel

/-- SOLUTION_ITEM (R250). -/
def execSolutionItem (g : Group) (s : State) : Answer := finish s (if s.locked (s.rd 0 (REF_GRP_CFG_SOLVE_TILE g)) .sys then (s.solutionItem g).learnStep g else s)

/-- The median of K values; for even K the mean of the two middle ones (R199). -/
def medianOf (l : List Nat) : Nat :=
  let x := sortBy (fun a b => decide (a ≤ b)) l
  let k := x.length
  if k % 2 = 1 then x.getD (k / 2) 0 else (roundDiv (x.getD (k / 2 - 1) 0 + x.getD (k / 2) 0 : Nat) 2).toNat

/-- K good repeats are held (R199). -/
def State.learnFull (s : State) (g : Nat) : Bool :=
  s.is 0 (REF_GRP_STATUS_LEARNING g) && decide (Nat.max 3 (s.rd 0 (REF_GRP_LEARN_K g)) ≤ (s.learn g).caps.length)

/-- The repeat count that a boundary must exceed: that of the newest line, or of the one before it where it came in this cycle (R204). -/
def State.boundaryBase (s : State) (g : Nat) : Int :=
  match s.lastLine with
  | none => -1
  | some a =>
    if s.clk.lastAccept = some s.tim.tb0 ∧ 0 < a then ((s.repeatAt s.bank g (a - 1)).map (·.2.2)).getD (s.repNow g) else s.repNow g

/-- MEDIAN_COMPLETE: the learned reference of a tile is computed (R199). -/
def State.medianComplete (s : State) (t g : Nat) : State :=
  let l := s.learn g
  let b := s.bank
  let img := (List.range (s.refLpr b g * s.refCols b g)).map fun i =>
    (i, (List.range (s.grpP b g)).map fun p => medianOf (l.caps.map fun c => (smGet [] i c).getD p 0))
  s.updLearn g fun l => { l with median := if l.median.contains t then l.median else l.median ++ [t], medianAt := s.boundaryBase g, image := img }

/-- MEDIAN_COMPLETE (R199). -/
def execMedianComplete (t : Tile) (g : Group) (s : State) : Answer :=
  whenEv s (s.fit t && s.locked t .sys && s.learnFull g) fun s => s.medianComplete t g

/-- Every tile that stores the reference has its median, and a boundary has passed since (R200). -/
def State.learnedDue (s : State) (g : Nat) : Bool :=
  let l := s.learn g
  s.learnFull g && !l.image.isEmpty && (s.tiles.all fun t => (s.ringCols s.bank t g).2 == 0 || l.median.contains t) && decide (l.medianAt < s.repNow g)

/-- LEARNED_EFFECT (R200). -/
def State.learnedEffect (s : State) (g : Nat) : State :=
  (s.updLearn g fun l => { l with done := true }).learnStatus g 0 1 (s.rd 0 (REF_GRP_STATUS_LEARN_COUNT g))

/-- LEARNED_EFFECT (R200). -/
def execLearnedEffect (g : Group) (s : State) : Answer := whenEv s (s.learnedDue g) fun s => s.learnedEffect g

/-! The registration record (R201 to R203). -/

/-- FLAGS of a registration record (R202). -/
def State.refFlags (s : State) (o : RefOut) (bd : Band) : Nat :=
  bitN (bd.steps != s.tim.tb1Steps) + 2 * bitN o.held + 4 * bitN o.expired + 8 * bitN o.fail + 16 * bitN bd.short +
    32 * bitN (s.refLearns bd.bank o.group && (s.learnB bd.bank o.group).done) + 64 * bitN o.track + 128 * bitN o.clamped

/-- The registration record, type 0x05 (R201). -/
def State.refRecord (s : State) (o : RefOut) (bd : Band) (alive : Nat) : Bytes :=
  let g := o.group
  let rep := ((s.repeatAt bd.bank g bd.line0).map (·.1)).getD 0
  withCrc (leBytes 1 0x05 ++ leBytes 1 1 ++ leBytes 1 s.clk.unit ++ leBytes 1 alive ++ leBytes 1 g ++ leBytes 1 o.conf ++
    leBytes 2 (s.refFlags o bd) ++ leBytes 8 bd.n ++ leBytes 8 (uNat 64 (bd.start - s.webOfs bd.bank g)) ++ leBytes 8 bd.tb1 ++
    leBytes 4 bd.job ++ leBytes 4 rep ++ leBytes 4 (uNat 32 o.sol.dy) ++ leBytes 4 (uNat 32 o.sol.dx) ++ leBytes 4 (uNat 32 o.sol.scale) ++
    leBytes 4 (uNat 32 o.sol.skew) ++ leBytes 1 o.used ++ leBytes 1 (s.rdB bd.bank 0 (REF_GRP_CFG_PATCHES g)) ++ leBytes 2 o.res ++
    (List.range 64).flatMap fun k => leBytes 2 (uNat 16 (o.sol.nodes.getD k 0)))

/-- The registration records of a released band, in group order (R203). -/
def State.refRelease (s : State) (bd : Band) (rel : Option (Nat × Nat)) : State :=
  if bd.pos.isEmpty then s else
  (s.groups bd.bank).foldl (fun s g =>
    if !s.refOn bd.bank g || s.refLate g bd.n then s else
    match s.outcomeOf g bd.n with
    | none => s
    | some o =>
      if bd.n % Nat.max 1 (s.rdB bd.bank 0 REF_CTRL_REC_EVERY) = 0 || o.held || o.expired || o.fail then
        let r := s.refRecord o bd s.ref.alive
        let s := s.updRef fun x => { x with alive := (x.alive + 1) % 256 }
        (s.commit 0 (s.rdB bd.bank 0 REF_CTRL_QUEUE) 3 (itemOf r rel)).2
      else s) s

/-! RUN, swaps and counters. -/

/-- A group begins with INIT and nothing held; with the solve off its confidence reads 255 (R187, R192). -/
def State.solStart (s : State) (g : Nat) : State :=
  let off := s.rd 0 (REF_GRP_CFG_PATCHES g) = 0
  let s := s.eachTile fun t s =>
    let s := s.clrF t (REF_GRP_STATUS_HOLD_COUNT g)
    if off ∧ s.refOn s.bank g then ((s.wr t (REF_GRP_STATUS_CONF g) 255).clrF t (REF_GRP_STATUS_HELD g)).clrF t (REF_GRP_STATUS_EXPIRED g) else s
  s.setSol g (s.solInit s.bank g)

/-- A run starts: no band of it is known, every group begins from INIT (R192, R203). -/
def State.refRun (s : State) : State :=
  let s := s.updRef fun x => { x with leadNext := [], late := [], dec := [], patches := [], items := [], good := [], outs := [], warpNext := [], alive := 0, fresh := [] }
  (s.groups s.bank).foldl (fun s g => s.solStart g) (s.refCheck s.bank)

/-- With KEEP_SOL the last good solution of a group, or the INIT it had without one, goes over to the new job; else that begins with none of its own
(R192). Called after the banks have changed. -/
def State.goodSwap (s : State) (g : Nat) : State :=
  let b := s.bank
  let l := s.ref.good.filter (·.1 != b * 8 + g)
  let keep := s.rd 0 (REF_GRP_CFG_KEEP_SOL g) != 0 && s.refOn s.shadow g
  s.updRef fun x => { x with good := if keep then smInsert (b * 8 + g) (s.solGood s.shadow g) l else l }

/-- The first band of a job: INIT unless KEEP_SOL, no hold, and learning requested with SOURCE = 1 (R192, R198, R204). Called after the
banks have changed; `m` is that band. -/
def State.refSwap (s : State) (m : Nat) : State :=
  let s := (s.updRef fun x => { x with fresh := (List.range 8).map fun g => (g, m) }).refCheck s.bank
  let s := (List.range 8).foldl (fun s g =>
    let s := s.goodSwap g
    let s := if s.rd 0 (REF_GRP_CFG_PATCHES g) = 0 then s.solStart g else s
    if s.refLearns s.bank g then
      (s.updLearn g fun _ => { Learn.idle with req := some (s.repNow g) }).learnStatus g 0 0 0
    else (s.updLearn g fun _ => Learn.idle).learnStatus g 0 0 0) s
  s.eachTile fun t s => (s.groups s.bank).foldl (fun s g => s.horizonRegs t g) s

/-- REF_CLR (R206). -/
def State.refClr (s : State) (t : Nat) : State :=
  (List.range 8).foldl (fun s g => (s.clrCount t (REF_GRP_LATE g)).clrCount t (REF_GRP_FAILS g)) (s.clrCount t REF_DISCARD)

/-- REF_CLR_COUNTERS (R206). -/
def execRefClrCounters (t : Tile) (s : State) : Answer := onTile s t fun s => s.refClr t

end Sys2Proof.Machine
end

