-- ==== Sys2Proof/Machine/Segment.lean ====
section
/-! DEFINITION. Segmentation: colour difference, threshold sets, morphology, brambles and classification (R207 to R221, R234). -/

namespace Sys2Proof.Machine

/-- The state with segmentation and the collector changed. -/
def State.updSgm (s : State) (f : Seg → Seg) : State := { s with sgm := f s.sgm }

/-- Segmentation of a group on a tile. -/
def State.segOf (s : State) (t g : Nat) : SegState := smGet SegState.idle (t * 8 + g) s.sgm.segs

/-- The state with segmentation of a group on a tile changed. -/
def State.updSeg (s : State) (t g : Nat) (f : SegState → SegState) : State :=
  s.updSgm fun x => { x with segs := smUpd SegState.idle (t * 8 + g) f x.segs }

/-! Colour difference (R207 to R209). -/

/-- Coordinate `k` of a node at a byte offset of the colour table, signed Q7.8 (R207). -/
def State.lutNode (s : State) (b t g ofs k : Nat) : Int :=
  sInt 16 (s.memLE (pipeAddr t (s.rdB b t (SEG_GRP_LUT_BASE g) + ofs + 2 * k)) 2)

/-- Node index and fraction of a sample (R207). -/
def lutSplit (v : Nat) : Nat × Nat := (bitsOf v 23 20, bitsOf v 19 8)

/-- The offset of node (i, j, k) (R207). -/
def lutOfs (i j k : Nat) : Nat := ((i * 17 + j) * 17 + k) * 8

/-- Coordinate `k` of an RGB pixel, by trilinear interpolation (R207), or of a grey one on the diagonal (R208). -/
def State.coord (s : State) (b t g : Nat) (px : List Nat) (k : Nat) : Int :=
  match px with
  | [r, gr, bl] =>
    let (i, fi) := lutSplit r
    let (j, fj) := lutSplit gr
    let (l, fl) := lutSplit bl
    let w (f d : Nat) : Int := if d = 0 then 4096 - f else f
    roundShr (sumI ([0, 1].flatMap fun x => [0, 1].flatMap fun y => [0, 1].map fun z =>
      w fi x * w fj y * w fl z * s.lutNode b t g (lutOfs (i + x) (j + y) (l + z)) k)) 36
  | [v] =>
    let (i, f) := lutSplit v
    roundShr ((4096 - (f : Int)) * s.lutNode b t g (i * 2456) k + f * s.lutNode b t g ((i + 1) * 2456) k) 12
  | _ => 0

/-- The square root rounded to nearest. -/
def sqrtRound (n : Nat) : Nat :=
  let r := ((List.range 24).reverse).foldl (fun r k => if (r + 2 ^ k) * (r + 2 ^ k) ≤ n then r + 2 ^ k else r) 0
  if r * r + r < n then r + 1 else r

/-- ΔE by METRIC from weighted differences, saturated to 16 bits (R209). -/
def metricDe (metric : Nat) (wd : List Int) : Nat :=
  let a := wd.map (·.natAbs)
  Nat.min 0xFFFF (match metric with
    | 1 => sumN a
    | 2 => a.foldl Nat.max 0
    | _ => sqrtRound (sumN (a.map fun x => x * x)))

/-- ΔE of a pixel against its reference, and whether it is dark (R209). -/
def State.deltaE (s : State) (b t g : Nat) (live ref : List Nat) : Nat × Bool :=
  let dc := [0, 1, 2].map fun k => s.coord b t g live k - s.coord b t g ref k
  let ws := [s.rdB b t (SEG_GRP_WEIGHT_01_W0 g), s.rdB b t (SEG_GRP_WEIGHT_01_W1 g), s.rdB b t (SEG_GRP_WEIGHT_2_W2 g)]
  (metricDe (s.rdB b t (SEG_GRP_CFG_METRIC g)) ((ws.zip dc).map fun (w, d) => roundShr (w * d) 12), decide (dc.headD 0 < 0))

/-! Threshold sets (R210, R211). -/

/-- A field of threshold set `c`: `n` bytes at offset `o` (R210). -/
def State.setField (s : State) (b t g c o n : Nat) : Nat := s.memLE (pipeAddr t (s.rdB b t (SEG_GRP_SET_BASE g) + 16 * c + o)) n

/-- MIN_AREA of a set. -/
def State.minArea (s : State) (b t g c : Nat) : Nat := s.setField b t g c 4 2
/-- DEF_CLASS of a set. -/
def State.defClass (s : State) (b t g c : Nat) : Nat := s.setField b t g c 7 1

/-- Tokens in force over a line of a band for a group, as cross-web extents (R211). -/
def State.blindExtents (s : State) (n g i : Nat) : List (Int × Int) :=
  ((s.tokensOf n g).filter fun k => decide (k.l0 ≤ i) && decide (i < k.l1)).map fun k => (k.x0, k.x1)

/-- An excluded pixel. -/
def exclPix (blind : Bool) (cls : Nat) : SegPix := ⟨false, false, blind, true, 0, false, cls, []⟩

/-- A pixel of R211; `bl` says that its column is blind. -/
def State.segPix (s : State) (b t g : Nat) (live : List Nat) (w : WarpPix) (bl : Bool) : SegPix :=
  if w.cls = 15 then exclPix false 15
  else if bl || live.isEmpty then exclPix true w.cls
  else
    let (de, dark) := s.deltaE b t g live w.planes
    let pol := s.setField b t g w.cls 6 1
    let cand := decide (s.setField b t g w.cls 0 2 ≤ de) && pol.testBit (bitN !dark)
    ⟨cand, cand && decide (s.setField b t g w.cls 2 2 ≤ de), false, false, de, dark, w.cls, (live.zip w.planes).map fun (x, y) => satS 24 ((x : Int) - y)⟩

/-- A segment line with its pixels: every column excluded where there is no reference for the band. -/
def State.segLine (s : State) (t g : Nat) (bd : Band) (i : Nat) (sol : Option (Sol × Int)) : SegLine :=
  let b := bd.bank
  let a := bd.line0 + i
  let (x0, w) := s.seg b t g
  match sol with
  | none => ⟨a, bd.n, List.replicate w (exclPix true 0)⟩
  | some (x, low) =>
    let live := ((smGet [] (t * 8 + g) s.sti.done).find? (·.a == a)).map (·.cols)
    let ext := s.blindExtents bd.n g i
    let wp := s.warpLine b t g x low a
    ⟨a, bd.n, (List.range w).map fun c =>
      let m := s.centre b g (x0 + c)
      let bl := bd.allBlind || live.isNone || ext.any fun (p, q) => decide (p ≤ m) && decide (m < q)
      s.segPix b t g ((live.getD []).getD c []) (wp.getD c ⟨[], 15, false, false⟩) bl⟩

/-! Morphology (R212). -/

/-- Lines of delay. -/
def morphDelay (m : Nat) : Nat :=
  match m with
  | 1 => 1
  | 2 => 1
  | 3 => 2
  | 4 => 2
  | _ => 0

/-- A column of a map under the neighbour rules: `x` is the column less the segment's first; `x0` and `width` place the segment in the
group (R212). -/
def mapAt (l : List Bool) (x0 width : Nat) (x : Int) : Bool :=
  let c := (x0 : Int) + x
  if c < 0 ∨ (width : Int) ≤ c then false else l.getD (clampI 0 ((l.length : Int) - 1) x).toNat false

/-- The nine neighbours of a column in three lines. -/
def nine (up mid dn : List Bool) (x0 width c : Nat) : List Bool :=
  [up, mid, dn].flatMap fun l => [-1, 0, 1].map fun d => mapAt l x0 width ((c : Int) + d)

/-- Erosion of the middle line. -/
def erode (up mid dn : List Bool) (x0 width : Nat) : List Bool :=
  (List.range mid.length).map fun c => (nine up mid dn x0 width c).all (· == true)

/-- Dilation of the middle line; excluded pixels stay clear. -/
def dilate (ex : List Bool) (up mid dn : List Bool) (x0 width : Nat) : List Bool :=
  (List.range mid.length).map fun c => !ex.getD c false && (nine up mid dn x0 width c).any (· == true)

/-- A line before morphology, none where it reads 0. -/
def candOf (w : Nat) (l : Option SegLine) : List Bool :=
  match l with
  | some l => l.px.map (·.cand)
  | none => List.replicate w false

/-- The excluded pixels of a line. -/
def exclOf (w : Nat) (l : Option SegLine) : List Bool :=
  match l with
  | some l => l.px.map (·.excl)
  | none => List.replicate w true

/-- The map of line 2 of five lines after morphology `m` (R212): `ls` gives the lines two before to two after, `top` which of them are the first of
their job, above which lines read 0. -/
def morphMap (m w x0 width : Nat) (ls : List (Option SegLine)) (top : List Bool) : List Bool :=
  let clear := List.replicate w false
  let none_ (i : Nat) := (ls.getD i none).isNone
  let up (f : Nat → List Bool) (i : Nat) := if i = 0 || top.getD i false then clear else f (i - 1)
  let c (i : Nat) := candOf w (ls.getD i none)
  let e (i : Nat) := exclOf w (ls.getD i none)
  let er (i : Nat) := if none_ i then clear else erode (up c i) (c i) (c (i + 1)) x0 width
  let di (i : Nat) := if none_ i then clear else dilate (e i) (up c i) (c i) (c (i + 1)) x0 width
  match m with
  | 1 => er 2
  | 2 => di 2
  | 3 => dilate (e 2) (up er 2) (er 2) (er 3) x0 width
  | 4 => erode (up di 2) (di 2) (di 3) x0 width
  | _ => c 2

/-! Brambles (R213 to R216). -/

/-- The runs of a map: maximal stretches of set columns, as first and last column counted from `c`. -/
def runsOf : Nat → List Bool → Option Nat → List (Nat × Nat)
  | _, [], none => []
  | c, [], some x => [(x, c - 1)]
  | c, true :: l, none => runsOf (c + 1) l (some c)
  | c, true :: l, some x => runsOf (c + 1) l (some x)
  | c, false :: l, none => runsOf (c + 1) l none
  | c, false :: l, some x => (x, c - 1) :: runsOf (c + 1) l none

/-- Two runs in lines one above the other share or diagonally touch a column (R213). -/
def runsTouch (a b : Nat × Nat) : Bool := decide (a.1 ≤ b.2 + 1) && decide (b.1 ≤ a.2 + 1)

/-- A position in line-then-column-then-plane order. -/
def posLt (a b : Nat × Nat × Nat) : Bool :=
  decide (a.1 < b.1) || a.1 == b.1 && (decide (a.2.1 < b.2.1) || a.2.1 == b.2.1 && decide (a.2.2 < b.2.2))

/-- The features of two brambles together (R213, R215, R216). -/
def Bramble.join (a b : Bramble) : Bramble :=
  let peakB := decide (a.peakDe < b.peakDe) || a.peakDe == b.peakDe && posLt (b.peakLine, b.peakX, 0) (a.peakLine, a.peakX, 0)
  let p := if peakB then b else a
  let diffB := decide (a.maxDiff.natAbs < b.maxDiff.natAbs) ||
    a.maxDiff.natAbs == b.maxDiff.natAbs && posLt (b.maxLine, b.maxX, b.maxPlane) (a.maxLine, a.maxX, a.maxPlane)
  let d := if diffB then b else a
  let first := if decide (a.line0 < b.line0) || a.line0 == b.line0 && decide (a.id ≤ b.id) then a else b
  { id := first.id, line0 := Nat.min a.line0 b.line0, last := Nat.max a.last b.last, prev := a.prev ++ b.prev, cur := a.cur ++ b.cur,
    x0 := Nat.min a.x0 b.x0, x1 := Nat.max a.x1 b.x1, area := a.area + b.area, strong := a.strong + b.strong, dark := a.dark + b.dark,
    sumDe := a.sumDe + b.sumDe, peakDe := p.peakDe, peakX := p.peakX, peakLine := p.peakLine, peakCls := p.peakCls,
    maxDiff := d.maxDiff, maxLine := d.maxLine, maxX := d.maxX, maxPlane := d.maxPlane, clsMask := a.clsMask ||| b.clsMask,
    blindAdj := a.blindAdj || b.blindAdj, lo := a.lo ++ b.lo, hi := a.hi ++ b.hi }

/-- The plane difference of greatest magnitude of a pixel, the lowest plane on a tie. -/
def maxPlaneDiff (l : List Int) : Int × Nat :=
  l.zipIdx.foldl (fun (m : Int × Nat) (d, k) => if m.1.natAbs < d.natAbs then (d, k) else m) (l.headD 0, 0)

/-- One pixel as a bramble of its own; `x` is its stitched column. -/
def pixelBramble (id a x : Nat) (p : SegPix) : Bramble :=
  let (d, k) := maxPlaneDiff p.diffs
  { id := id, line0 := a, last := a, prev := [], cur := [], x0 := x, x1 := x, area := 1, strong := bitN p.strong, dark := bitN p.dark,
    sumDe := p.de, peakDe := p.de, peakX := x, peakLine := a, peakCls := p.cls, maxDiff := d, maxLine := a, maxX := x, maxPlane := k,
    clsMask := 2 ^ p.cls, blindAdj := false, lo := [], hi := [] }

/-- A run as a bramble: its pixels joined, its lines in the edge columns, the run itself in `cur`. -/
def runBramble (id a : Nat) (px : List SegPix) (x0 w : Nat) (adj : Bool) (r : Nat × Nat) : Bramble :=
  let ps := (List.range (r.2 + 1 - r.1)).map fun i => pixelBramble id a (r.1 + i) (px.getD (r.1 + i - x0) (exclPix false 15))
  let b := ps.tail.foldl Bramble.join (ps.headD (pixelBramble id a r.1 (exclPix false 15)))
  { b with prev := [], cur := [r], blindAdj := adj, lo := if r.1 = x0 then [a] else [], hi := if r.2 + 1 = x0 + w then [a] else [] }

/-- An excluded pixel of a class other than 15 lies at a run's columns or next to them in a line (R216). -/
def adjacent (l : Option SegLine) (x0 : Nat) (r : Nat × Nat) : Bool :=
  match l with
  | none => false
  | some l => (List.range (r.2 + 3 - r.1)).any fun i =>
      let c := r.1 + i
      decide (x0 + 1 ≤ c) && (match l.px[c - 1 - x0]? with | some p => p.blind | none => false)

/-- Unlabelled runs added to those of a band. -/
def addUnlab (old : Option Unlab) (a : Nat) (r : Nat × Nat) (cause : Nat) : Unlab :=
  match old with
  | none => ⟨1, r.2 + 1 - r.1, cause, a, a, r.1, r.2⟩
  | some u => ⟨u.runs + 1, u.pixels + (r.2 + 1 - r.1), u.cause ||| cause, Nat.min u.l0 a, Nat.max u.l1 a, Nat.min u.x0 r.1, Nat.max u.x1 r.2⟩

/-- A run is not labelled (R213): `cause` is the CAUSE bit of R229. -/
def State.unlabelled (s : State) (t g n a : Nat) (r : Nat × Nat) (cause : Nat) : State :=
  let s := (s.addSat t (SEG_GRP_UNLABELLED g) 1).setF t (if cause = 2 then SEG_ERR_LABEL_FULL else SEG_ERR_RUNS_FULL)
  s.updSeg t g fun x => { x with unl := smInsert n (addUnlab ((x.unl.find? (·.1 == n)).map (·.2)) a r cause) x.unl }

/-- OPEN.NOW and PEAK follow the open brambles. -/
def State.openRegs (s : State) (t g : Nat) : State :=
  let k := (s.segOf t g).brambles.length
  (s.wr t (SEG_GRP_OPEN_NOW g) k).wr t (SEG_GRP_OPEN_PEAK g) (Nat.max k (s.rd t (SEG_GRP_OPEN_PEAK g)))

/-- The 64-byte descriptor of a kept bramble, as 16 words (R217). -/
def Frag.desc (f : Frag) : List Nat :=
  let b := f.br
  let fl := bitN (f.why == .truncated) + 2 * bitN (f.why == .continues) + 4 * bitN b.blindAdj + 8 * bitN (f.why == .shortBand) +
    16 * bitN (f.why == .changeover) + 32 * bitN f.edgeLo + 64 * bitN f.edgeHi
  wordsOf 16 (leBytes 4 b.id ++ leBytes 1 f.group ++ leBytes 1 b.peakCls ++ leBytes 2 fl ++ leBytes 8 b.line0 ++ leBytes 4 b.x0 ++ leBytes 4 b.x1 ++
    leBytes 2 (b.last + 1 - b.line0) ++ leBytes 2 b.peakDe ++ leBytes 4 b.area ++ leBytes 4 b.strong ++ leBytes 4 b.dark ++ leBytes 8 b.sumDe ++
    leBytes 4 (uNat 32 b.maxDiff) ++ leBytes 4 b.peakX ++ leBytes 2 b.clsMask ++ leBytes 1 f.peakSub ++ leBytes 1 0 ++ leBytes 4 (b.peakLine - b.line0))

/-- A bramble closes in band `n`: kept or rejected, measured and sent (R214 to R217). -/
def State.closeBramble (s : State) (t g n : Nat) (why : CloseWhy) (b : Bramble) : State :=
  let bk := s.bankOf n
  let s := s.addWrap t (SEG_GRP_BRAMBLES g) 1
  if b.strong = 0 ∨ b.area < s.minArea bk t g b.peakCls then s.addSat t (SEG_GRP_REJECTED g) 1
  else
    let (x0, w) := s.seg bk t g
    let lo := !b.lo.isEmpty && x0 != 0
    let hi := !b.hi.isEmpty && x0 + w != s.rdB bk 0 (STI_GRP_WIDTH g)
    let f : Frag := ⟨t, g, n, b, why, lo, hi, wordSub (s.mapWord bk t g (b.peakX - x0)), s.defClass bk t g b.peakCls, false, false, false⟩
    let s := s.updSeg t g fun x => { x with frags := x.frags ++ [f] }
    if s.rdB bk t (SEG_GRP_CFG_CLS_EN g) = 0 then s else s.updSgm fun x => { x with descs := x.descs ++ [(t, g, n, f.desc)] }

/-- Every open bramble of a group on a tile closes (R214). -/
def State.closeAll (s : State) (t g n : Nat) (why : CloseWhy) : State :=
  let l := (s.segOf t g).brambles
  (l.foldl (fun s b => s.closeBramble t g n why b) (s.updSeg t g fun x => { x with brambles := [] })).openRegs t g

/-- A run of line `a` is labelled: it joins, merges or opens brambles; with 4,096 open none is opened (R213). -/
def State.labelRun (s : State) (t g n a : Nat) (px : List SegPix) (adj : Bool) (r : Nat × Nat) : State :=
  let x := s.segOf t g
  let (x0, w) := s.seg (s.bankOf n) t g
  let (js, rest) := x.brambles.partition fun b => b.prev.any (runsTouch r)
  match js with
  | [] =>
    if 4096 ≤ x.brambles.length then s.unlabelled t g n a r 2
    else
      let id := t * 2 ^ 29 + g * 2 ^ 26 + x.serial % 2 ^ 26
      (s.updSeg t g fun y => { y with brambles := y.brambles ++ [runBramble id a px x0 w adj r], serial := (y.serial + 1) % 2 ^ 26 }).openRegs t g
  | j :: js =>
    let m := js.foldl Bramble.join j
    let m' := { (m.join (runBramble m.id a px x0 w adj r)) with id := m.id }
    s.updSeg t g fun y => { y with brambles := insertBy (fun p q => decide (p.line0 < q.line0) || p.line0 == q.line0 && decide (p.id ≤ q.id)) m' rest }

/-- One line of a group on a tile is labelled (R213, R214): `map` is its map after morphology, `raw` the line itself, `up` and `dn` the
lines around it. -/
def State.labelLine (s : State) (t g : Nat) (raw : SegLine) (up dn : Option SegLine) (map : List Bool) : State :=
  let n := raw.n
  let a := raw.a
  let b := s.bankOf n
  let (x0, _) := s.seg b t g
  let px := raw.px.zipIdx.map fun (p, c) => { p with strong := p.strong && map.getD c false }
  let runs := (runsOf x0 map none)
  let maxlen := s.rdB b t (SEG_GRP_MAXLEN g)
  let s := s.updSeg t g fun x => { x with brambles := x.brambles.map fun y =>
    { y with blindAdj := y.blindAdj || y.prev.any (adjacent (some raw) x0) } }
  let (full, on) := (s.segOf t g).brambles.partition fun y => decide (maxlen ≤ y.last + 1 - y.line0)
  let s := s.updSeg t g fun x => { x with brambles := on }
  let s := full.foldl (fun s y => s.closeBramble t g n (if runs.any (fun r => y.prev.any (runsTouch r)) then .continues else .plain) y) s
  let s := (runs.take 2048).foldl (fun s r => s.labelRun t g n a px (adjacent up x0 r || adjacent (some raw) x0 r || adjacent dn x0 r) r) s
  let s := (runs.drop 2048).foldl (fun s r => s.unlabelled t g n a r 4) s
  let (gone, left) := (s.segOf t g).brambles.partition (·.cur.isEmpty)
  let s := s.updSeg t g fun x => { x with brambles := left.map fun y => { y with prev := y.cur, cur := [] } }
  (gone.foldl (fun s y => s.closeBramble t g n .plain y) s).openRegs t g

/-- A line of the buffer. -/
def SegState.line (x : SegState) (a : Int) : Option SegLine := x.buf.find? fun l => (l.a : Int) == a

/-- The band's part of a job: bank and job of the band of a line. -/
def State.jobOf (s : State) (n : Nat) : Option (Nat × Nat) := (s.band n).map fun b => (b.bank, b.job)

/-- A line of the buffer over the columns of the segment that another line has: one of another job lies where its own columns do, and beyond them
reads its edge columns (R212). -/
def State.overSeg (s : State) (t g x0 w : Nat) (l : SegLine) : SegLine :=
  let (y0, _) := s.seg (s.bankOf l.n) t g
  if y0 = x0 ∧ l.px.length = w then l
  else { l with px := (List.range w).map fun (c : Nat) => l.px.getD (clampI 0 ((l.px.length : Int) - 1) ((x0 : Int) + c - y0)).toNat (exclPix false 15) }

/-- A line is the first of its job among those of the buffer. -/
def State.topLine (s : State) (x : SegState) (a : Int) : Bool :=
  match x.line a, x.line (a - 1) with
  | some l, some k => s.jobOf l.n != s.jobOf k.n
  | _, _ => false

/-- Band `n` has ended and its last line has been labelled: what is open closes where the band closed short or the job ends (R214). -/
def State.bandLabelled (s : State) (t g : Nat) (bd : Band) (jobEnds : Bool) : State :=
  let s := if bd.short then s.closeAll t g bd.n .shortBand else if jobEnds then s.closeAll t g bd.n .changeover else s
  s.updSeg t g fun x => { x with done4 := Nat.max x.done4 (bd.n + 1), ends := ((bd.n, x.brambles) :: x.ends).take 16 }

/-- The band after `n` belongs to a new job: its record has another bank, or its tick has made the swap due (R214, R280). -/
def State.jobEnds (s : State) (n : Nat) : Bool :=
  (s.clk.swapDue.any fun (m, _) => m == n + 1) ||
    (match s.band n, s.band (n + 1) with
     | some a, some b => a.bank != b.bank || a.job != b.job
     | _, _ => false)

/-- The next line of a group on a tile is labelled, from the lines around it in the buffer. A line that is not there has been dropped. -/
def State.labelNext (s : State) (t g : Nat) : State :=
  let x := s.segOf t g
  match x.line x.next with
  | none => s.updSeg t g fun x => { x with next := x.next + 1 }
  | some raw =>
    let b := s.bankOf raw.n
    let (x0, w) := s.seg b t g
    let at_ (d : Int) := (x.line ((x.next : Int) + d)).map (s.overSeg t g x0 w)
    let ds : List Int := [-2, -1, 0, 1, 2]
    let top := ds.map fun d => s.topLine x ((x.next : Int) + d)
    let m := morphMap (s.rdB b t (SEG_GRP_CFG_MORPH g)) w x0 (s.rdB b 0 (STI_GRP_WIDTH g)) (ds.map at_) top
    let s := s.labelLine t g raw (at_ (-1)) (at_ 1) m
    let s := s.updSeg t g fun x => { x with next := x.next + 1 }
    match s.band raw.n with
    | some bd => if raw.a + 1 = bd.line0 + bd.pos.length then s.bandLabelled t g bd (s.jobEnds bd.n) else s
    | none => s

/-- Lines up to but not including `end_` are labelled. -/
def State.labelUpTo (s : State) (t g end_ : Nat) : State :=
  (List.range (end_ - (s.segOf t g).next)).foldl (fun s _ => s.labelNext t g) s

/-- It is known how line `a` of a tile's group stands: it is in the buffer, its band has been dropped or is not segmented there, or no line follows
and none can before the next one is labelled without it: the newest band with lines is closed (R212; log 219). -/
def State.lineKnown (s : State) (t g a : Nat) : Bool :=
  let x := s.segOf t g
  (x.line a).isSome ||
    (match s.lineBand a with
     | some (bd, _) => decide (bd.n < s.warpAt t g) || !s.segOn bd.bank t g
     | none => (s.clk.bands.find? fun b => !b.pos.isEmpty).all fun b => b.closed || !s.segOn b.bank t g)

/-- The lines that can be labelled are: those whose following lines, as far as MORPH reads them, are known (R212). -/
def State.labelReady (s : State) (t g end_ : Nat) : State :=
  (List.range (end_ - (s.segOf t g).next)).foldl (fun s _ =>
    let x := s.segOf t g
    match x.line x.next with
    | none => s.labelNext t g
    | some l =>
      let d := morphDelay (s.rdB (s.bankOf l.n) t (SEG_GRP_CFG_MORPH g))
      if (List.range d).all fun i => s.lineKnown t g (x.next + 1 + i) then s.labelNext t g else s) s

/-! The configuration rule (R234). -/

/-- A SEG table leaves the window or overlaps another array (R234). -/
def State.segBad (s : State) (b t g : Nat) : Bool := s.arraysBad b t (.seg g) (s.arraysOf b t (.seg g))

/-! A band through segmentation (R197, R220). -/

/-- The solution that band `n` is segmented with: none where it is blind over the full width for want of one, or has no reference (R192). -/
def State.segSol (s : State) (t g : Nat) (bd : Band) : Option (Sol × Int) :=
  if !s.refOn bd.bank g || s.refLate g bd.n then none else
  match s.outcomeOf g bd.n with
  | some o =>
    if o.fail then none else
    match s.repeatAt bd.bank g bd.line0 with
    | some (r, ir, _) => some (o.sol, s.warpLow bd.bank t g o.sol r ir)
    | none => none
  | none => none

/-- The solve of a band is settled: no solve is needed, its outcome stands, or the band is blind without one (R192, R197). -/
def State.solSettled (s : State) (g : Nat) (bd : Band) : Bool :=
  !s.refOn bd.bank g || s.refLate g bd.n || (s.outcomeOf g bd.n).isSome || s.solvePast g bd.n

/-- Every line of the band has been stitched or dropped on the tile. -/
def State.stitchSettled (s : State) (t g : Nat) (bd : Band) : Bool :=
  !s.hasSeg bd.bank t g || decide (bd.line0 + bd.pos.length ≤ s.stNext t g) &&
    !(smGet [] t s.sti.built).any fun l => l.group == g && decide (l.a < bd.line0 + bd.pos.length)

/-- The warp of the group's next band can start on the tile: the band has ended, its lines are stitched, its solve is settled. -/
def State.warpReady (s : State) (t g : Nat) : Bool :=
  match s.nextWarp t g with
  | none => false
  | some bd => bd.closed && s.hasSeg bd.bank t g && s.stitchSettled t g bd && s.solSettled g bd

/-- WIN_CLAMP and MARGIN of a line's warp (R186, R196). -/
def State.warpFlags (s : State) (t g : Nat) (bd : Band) (sol : Option (Sol × Int)) : State :=
  match sol with
  | none => s
  | some (x, low) =>
    let ws := (List.range bd.pos.length).flatMap fun i => s.warpLine bd.bank t g x low (bd.line0 + i)
    (s.setIf (ws.any (·.win)) t REF_ERR_WIN_CLAMP).setIf (ws.any (·.margin)) t REF_ERR_MARGIN

/-- The lines of a band go through segmentation (R220): those whose neighbours are known are labelled; with the last line of a band that closes short
or ends a job every bramble closes (R212, R214). -/
def State.segBand (s : State) (t g : Nat) (bd : Band) : State :=
  let b := bd.bank
  let bad := s.segBad b t g
  let s := if bad then (s.setF t SEG_ERR_CFG_INVALID).blind (s.tileToken 0x01 4 bd.n t g) else s
  let sol := if bad then none else s.segSol t g bd
  let s := s.warpFlags t g bd sol
  let lines := (List.range bd.pos.length).map fun i => s.segLine t g bd i sol
  let s := s.updSeg t g fun x => { x with
    buf := (lines.reverse ++ x.buf).take (bd.pos.length + 8), next := if x.buf.isEmpty then bd.line0 else x.next }
  s.labelReady t g (bd.line0 + bd.pos.length)

/-- Class 4 of a tile's group is done for band `n`: trivially where it does not segment the group or the band is empty (R220). -/
def State.done4 (s : State) (t g n : Nat) : Bool :=
  match s.band n with
  | none => true
  | some bd => bd.pos.isEmpty || !s.segOn bd.bank t g || decide (n < (s.segOf t g).done4)

/-! Verdicts (R218). -/

/-- The verdict of a bramble that class 5 has not done yet. -/
def Frag.judge (f : Frag) (w : Nat) : Frag := { f with verdict := true, cls := w % 256, drop := w.testBit 8 }

/-- Brambles of band `n` have descriptors, and their classification is not done. -/
def State.judged (s : State) (t g n : Nat) : Bool :=
  s.rdB (s.bankOf n) t (SEG_GRP_CFG_CLS_EN g) != 0 && !(s.segOf t g).done5.contains n

/-- One verdict for a bramble of band `n`; one for a bramble without a descriptor, or that comes once classification of the band is done, names no
descriptor of it (R218, R221; log 220). -/
def State.takeVerdict (s : State) (t g n : Nat) (ws : List Nat) : State :=
  let id := ws.getD 0 0
  let w := ws.getD 1 0
  match ((s.segOf t g).frags.find? fun f => f.n == n && f.br.id == id).filter fun _ => s.judged t g n with
  | none => s.setF t SEG_ERR_VERDICT_BAD
  | some f =>
    if f.verdict then s.setF t SEG_ERR_VERDICT_DUP
    else
      let s := s.updSeg t g fun x => { x with frags := x.frags.map fun y => if y.n == n && y.br.id == id then y.judge w else y }
      if w.testBit 8 then s.addSat t (SEG_GRP_DROPPED g) 1 else s

/-- VERDICT: the oldest verdict of a group on a tile (R218). -/
def State.verdict (s : State) (t g : Nat) : State :=
  match s.sgm.verdicts.find? fun (u, h, _) => u == t && h == g with
  | none => s
  | some v => (s.updSgm fun x => { x with verdicts := x.verdicts.erase v }).takeVerdict t g v.2.2.1 v.2.2.2

/-- VERDICT (R218). -/
def execVerdict (t : Tile) (g : Group) (s : State) : Answer := onClock s t .sys fun s => s.verdict t g

/-- The verdicts of band `n` that are on their way are taken (R221). -/
def State.verdictsIn (s : State) (t g n : Nat) : State :=
  let (mine, rest) := s.sgm.verdicts.partition fun (u, h, m, _) => u == t && h == g && m == n
  mine.foldl (fun s (_, _, _, ws) => s.takeVerdict t g n ws) (s.updSgm fun x => { x with verdicts := rest })

/-- Class 5 is done for band `n` of a group on a tile: the verdicts present count, and brambles without one take DEF_CLASS with NO_VERDICT (R218,
R221). -/
def State.classDone (s : State) (t g n : Nat) : State :=
  let s := s.verdictsIn t g n
  let cls := s.rdB (s.bankOf n) t (SEG_GRP_CFG_CLS_EN g) != 0
  let open_ := (s.segOf t g).frags.countP fun f => f.n == n && !f.verdict
  let s := s.updSeg t g fun x => { x with done5 := n :: x.done5, frags := x.frags.map fun f =>
    if f.n == n && !f.verdict && cls then { f with noVerdict := true } else f }
  if cls then s.addSat t (SEG_GRP_NOVERDICT g) open_ else s

/-! Missed deadlines (R219). -/

/-- Blind tokens from line `from_` to the end of band `n`, for each band touched; `mk` gives a whole band's. Upstream tokens stand (R59, R61,
R219, R225). -/
def State.backSpans (s : State) (n from_ : Nat) (mk : Nat → Token) : State :=
  (s.clk.bands.reverse.filter fun b => decide (b.n ≤ n) && !b.pos.isEmpty && decide (from_ < b.line0 + b.pos.length)).foldl (fun s b =>
    (s.openSpans { mk b.n with l0 := from_ - b.line0 }).foldl State.blind s) s

/-- Such tokens of a tile's segment. -/
def State.backTokens (s : State) (reason stage n t g from_ : Nat) : State := s.backSpans n from_ fun m => s.tileToken reason stage m t g

/-- The earliest first line of brambles, or the first line of band `n` (R219). -/
def State.backFrom (s : State) (n : Nat) (fs : List Frag) : Nat :=
  (fs.map (·.br.line0)).foldl Nat.min (((s.band n).map (·.line0)).getD 0)

/-- The brambles of band `n` of a group on a tile are discarded and the blind token reaches back over them, but for those of `kept`, which are
reported all the same (R219). -/
def State.segDiscard (s : State) (stage t g n : Nat) (kept : List Nat) : State :=
  let gone := (s.segOf t g).frags.filter fun f => f.n == n
  let from_ := s.backFrom n (gone.filter fun f => !kept.contains f.br.id)
  let s := s.updSeg t g fun x => { x with frags := x.frags.filter (·.n != n) }
  let s := s.updSgm fun x => { x with descs := x.descs.filter fun (u, h, m, _) => !(u == t && h == g && m == n) }
  s.backTokens 0x01 stage n t g from_

/-- The brambles that were open at the end of band n − 1, whose first line is `line0`'s: those open now where no line of band `n` has been labelled,
else those kept from the last band before it that was labelled whole (R214). -/
def SegState.openAt (x : SegState) (n line0 : Nat) : List Bramble :=
  if x.next ≤ line0 then x.brambles else ((x.ends.find? fun (m, _) => decide (m < n)).map (·.2)).getD []

/-- Class 4 misses band `n` (R219): what was open at the end of band n − 1 closes with TRUNCATED and is reported with band `n`; of what is open
beyond, the brambles begun in a later line that has been labelled stand. -/
def State.segMiss (s : State) (t g n : Nat) : State :=
  let line0 := ((s.band n).map (·.line0)).getD 0
  let end_ := line0 + ((s.band n).map (·.pos.length)).getD 0
  let s := s.labelUpTo t g line0
  let whole := s.done4 t g n
  let old := (s.segOf t g).openAt n line0
  let ids := old.map (·.id)
  let s := s.segDiscard 4 t g n ids
  let s := s.updSeg t g fun x => { x with
    brambles := if whole then x.brambles.filter fun y => decide (line0 ≤ y.line0) else []
    frags := x.frags.filter fun f => decide (f.n ≤ n) || !ids.contains f.br.id }
  let s := old.foldl (fun s y => s.closeBramble t g n .truncated y) s
  let s := (s.openRegs t g).addSat t (SEG_GRP_TRUNCATED g) old.length
  let s := s.updSeg t g fun x => { x with
    buf := x.buf.filter (·.n != n), next := Nat.max x.next end_, done4 := Nat.max x.done4 (n + 1)
    ends := (n, (((x.ends.find? (·.1 == n)).map (·.2)).getD []).filter fun y => !ids.contains y.id) :: x.ends.filter (·.1 != n) }
  s.updRef fun x => { x with warpNext := smUpd 0 (t * 8 + g) (Nat.max (n + 1)) x.warpNext }

/-! RUN and counters. -/

/-- A run starts: no bramble is open. -/
def State.segRun (s : State) : State :=
  let s := s.updSgm fun x => { x with
    segs := (x.segs.map fun (k, y) => (k, { SegState.idle with serial := y.serial })).filter fun (_, y) => decide (y ≠ SegState.idle)
    verdicts := [], descs := [], slots := [], void := [], band := 0, turn := 0, got := [], gotUnl := [], ready := [], alive := 0, marks := [], lastMark := none }
  s.eachTile fun t s => (List.range 8).foldl (fun s g => (s.clrF t (SEG_GRP_OPEN_NOW g)).clrF t (SEG_GRP_OPEN_PEAK g)) s

/-- SEG_CLR (R235). -/
def State.segClr (s : State) (t : Nat) : State :=
  (List.range 8).foldl (fun s g => [SEG_GRP_BRAMBLES g, SEG_GRP_REJECTED g, SEG_GRP_TRUNCATED g, SEG_GRP_UNLABELLED g, SEG_GRP_DROPPED g,
    SEG_GRP_NOVERDICT g].foldl (fun s f => s.clrCount t f) s) s

/-- SEG_CLR_COUNTERS (R235). -/
def execSegClrCounters (t : Tile) (s : State) : Answer := onTile s t fun s => s.segClr t

end Sys2Proof.Machine
end

