-- ==== Sys2Proof/Machine/Collect.lean ====
section
/-! DEFINITION. The collector: result slots, merging, order, the storm cap, defect and saturated records, marker positions (R222 to R236). -/

namespace Sys2Proof.Machine

/-! Result slots (R224, R225). -/

/-- The tile segments some group in band `n`. -/
def State.slotWork (s : State) (t n : Nat) : Bool :=
  match s.band n with
  | none => false
  | some bd => !bd.pos.isEmpty && (List.range 8).any fun g => s.segOn bd.bank t g

/-- Class 5 of a tile's group is done for band `n`. -/
def State.done5 (s : State) (t g n : Nat) : Bool :=
  match s.band n with
  | none => true
  | some bd => bd.pos.isEmpty || !s.segOn bd.bank t g || (s.segOf t g).done5.contains n

/-- Kept brambles of band `n` on a tile and its unlabelled runs by group, out of segmentation. -/
def State.takeFrags (s : State) (t n : Nat) : List Frag × List (Nat × Unlab) × State :=
  let fs := (List.range 8).flatMap fun g => (s.segOf t g).frags.filter (·.n == n)
  let us := (List.range 8).flatMap fun g => ((s.segOf t g).unl.filter (·.1 == n)).map fun (_, u) => (g, u)
  (fs, us, (List.range 8).foldl (fun s g => s.updSeg t g fun x => { x with frags := x.frags.filter (·.n != n), unl := smErase n x.unl }) s)

/-- A tile's results of band `n` are replaced by COL_LATE (R225). -/
def State.colLate (s : State) (t n : Nat) (fs : List Frag) : State :=
  let b := s.bankOf n
  let s := (List.range 8).foldl (fun s g =>
    if s.hasSeg b t g then s.backTokens 0x06 6 n t g (s.backFrom n (fs.filter (·.group == g))) else s) s
  let s := s.addSat 0 COL_LATE_BANDS 1
  s.updSgm fun x => { x with void := (t, n) :: x.void }

/-- A tile's slot for band `n` can be served. -/
def State.slotReady (s : State) (t n : Nat) : Bool :=
  !s.slotWork t n || s.sgm.void.contains (t, n) || s.sgm.slots.any fun (k, x) => k / 2 == t && x.n == n

/-! Merging (R226, R227). -/

/-- The lines of an edge profile as intervals, in rising order; beyond 8 one interval from the first to the last (R216). -/
def profile (lines : List Nat) : List (Nat × Nat) :=
  let l := sortBy (fun a b => decide (a ≤ b)) lines
  let iv := l.foldr (fun a m => match m with
    | (p, q) :: r => if p = a + 1 then (a, q) :: r else if p = a then m else (a, a) :: m
    | [] => [(a, a)]) []
  if iv.length ≤ 8 then iv else [(l.headD 0, l.getLastD 0)]

/-- Two profiles meet: some line of one within one line of some line of the other (R226). -/
def profilesMeet (a b : List Nat) : Bool :=
  (profile a).any fun (p, q) => (profile b).any fun (u, v) => decide (p ≤ v + 1) && decide (u ≤ q + 1)

/-- The high edge of one fragment meets the low edge of another (R226). -/
def State.meetsHi (s : State) (a b : Frag) : Bool :=
  let bk := s.bankOf a.n
  let (x0, w) := s.seg bk a.tile a.group
  a.edgeHi && b.edgeLo && (s.seg bk b.tile b.group).1 == x0 + w && profilesMeet a.br.hi b.br.lo

/-- Two fragments merge. -/
def State.fragsMeet (s : State) (a b : Frag) : Bool := s.meetsHi a b || s.meetsHi b a

/-- The classes of fragments that merge, directly or through others (R226). -/
def State.fragClasses (s : State) (fs : List Frag) : List (List Frag) :=
  fs.foldl (fun cs f =>
    let (j, k) := cs.partition fun c => c.any (s.fragsMeet f)
    (j.flatten ++ [f]) :: k) []

/-- The fragment that a feature comes from: the greatest by `key`, on a tie the one nearest the datum (R227). -/
def pickFrag (key : Frag → Nat) (f : Frag) (l : List Frag) : Frag :=
  l.foldl (fun m x => if key m < key x || (key m == key x && decide (x.br.x0 < m.br.x0)) then x else m) f

/-- A class of fragments as one bramble (R227). -/
def State.mergeClass (s : State) (l : List Frag) : Option Merged :=
  match l with
  | [] => none
  | f :: rest =>
    let all := f :: rest
    let p := pickFrag (·.br.peakDe) f rest
    let d := pickFrag (·.br.maxDiff.natAbs) f rest
    let c := pickFrag (·.br.area) f rest
    let sum (k : Frag → Nat) := sumN (all.map k)
    let br := { p.br with
      id := (all.map (·.br.id)).foldl Nat.min f.br.id, line0 := (all.map (·.br.line0)).foldl Nat.min f.br.line0,
      last := (all.map (·.br.last)).foldl Nat.max f.br.last, x0 := (all.map (·.br.x0)).foldl Nat.min f.br.x0,
      x1 := (all.map (·.br.x1)).foldl Nat.max f.br.x1, area := sum (·.br.area), strong := sum (·.br.strong), dark := sum (·.br.dark),
      sumDe := sum (·.br.sumDe), maxDiff := d.br.maxDiff }
    let edge := all.any fun x => (x.edgeLo && !all.any (fun y => s.meetsHi y x)) || (x.edgeHi && !all.any (fun y => s.meetsHi x y))
    some ⟨{ p with br := br, cls := c.cls }, decide (1 < all.length), edge, all.any (·.noVerdict), all.map (·.why), all.any (·.br.blindAdj)⟩

/-! Order and cap (R228). -/

/-- BBOX_W as it is, before it is held. -/
def Merged.width (m : Merged) : Nat := m.frag.br.x1 + 1 - m.frag.br.x0
/-- H. -/
def Merged.height (m : Merged) : Nat := m.frag.br.last + 1 - m.frag.br.line0
/-- x_c (R230). -/
def Merged.xc (m : Merged) : Nat := m.frag.br.x0 + m.width / 2
/-- l_c (R230). -/
def Merged.lc (m : Merged) : Nat := m.frag.br.line0 + m.height / 2

/-- XWEB_POS of a record (R230). -/
def State.xweb (s : State) (b : Nat) (m : Merged) : Int := s.centre b m.frag.group m.xc

/-- The order of R228 within a group. -/
def State.recLe (s : State) (n : Nat) (x y : Merged) : Bool :=
  let b := s.bankOf n
  let k := s.id.variant.tiles
  let turn (m : Merged) := (m.frag.tile + k - n % k) % k
  let (p, q) := (s.xweb b x, s.xweb b y)
  decide (p < q) || p == q && (decide (turn x < turn y) || turn x == turn y &&
    (decide (x.frag.br.line0 < y.frag.br.line0) || x.frag.br.line0 == y.frag.br.line0 && decide (x.frag.br.id ≤ y.frag.br.id)))

/-- The collector has all slots of band `n`: fragments are merged, ordered and capped (R226 to R228). -/
def State.colFinish (s : State) (n : Nat) : State :=
  let fs := s.sgm.got.filter (!·.drop)
  let one (g : Nat) : Option Collected :=
    let ms := sortBy (s.recLe n) ((s.fragClasses (fs.filter (·.group == g))).filterMap s.mergeClass)
    let us := (s.sgm.gotUnl.filter (·.1 == g)).map (·.2)
    if ms.isEmpty && us.isEmpty then none else some ⟨n, g, ms.take 1024, ms.drop 1024, us⟩
  let cs := (List.range 8).filterMap one
  let s := s.addSat 0 COL_CAPPED (sumN (cs.map (·.rest.length)))
  (s.updSgm fun x => { x with ready := x.ready ++ cs, got := [], gotUnl := [], band := n + 1, turn := 0 }).clrF 0 COL_STATUS_SERVING

/-- One tile's slot of the band in turn is read and emptied; the last one ends the band (R224). -/
def State.serveOne (s : State) (t n : Nat) : State :=
  let sl := (s.sgm.slots.find? fun (k, x) => k / 2 == t && x.n == n).map (·.2)
  let s := (s.setF 0 COL_STATUS_SERVING).wr 0 COL_STATUS_TURN (n % s.id.variant.tiles)
  let s := s.updSgm fun x => { x with
    slots := x.slots.filter fun (k, y) => !(k / 2 == t && y.n == n)
    got := x.got ++ (sl.map (·.frags)).getD [], gotUnl := x.gotUnl ++ (sl.map (·.unl)).getD [], turn := x.turn + 1 }
  let s := s.doneLate 0 6 n
  if s.id.variant.tiles ≤ s.sgm.turn then s.colFinish n else s

/-- The tile whose turn it is in band `n`. -/
def State.turnTile (s : State) : Nat := (s.sgm.band + s.sgm.turn) % s.id.variant.tiles

/-- The collector can serve: band tick n + D5 has been issued and the slot in turn is full (R224). -/
def State.serveDue (s : State) : Bool :=
  let n := s.sgm.band
  s.clk.ticked && decide (n + s.depth (s.bankOf n) 5 ≤ s.bandIndex) && s.slotReady s.turnTile n

/-- The services that this cycle's COLLECTOR_SERVE commands will make come first where a tile's results need a slot that still holds another band
(R233). -/
def State.serveAhead (s : State) (t n : Nat) : State :=
  (List.range (s.pending.count .collectorServe - s.sgm.ahead)).foldl (fun s _ =>
    if s.locked 0 .sys && s.serveDue && s.sgm.slots.any (fun (k, _) => k == t * 2 + n % 2) then
      (s.serveOne s.turnTile s.sgm.band).updSgm fun x => { x with ahead := x.ahead + 1 }
    else s) s

/-- A tile's results of band `n` are complete: they fill its slot, unless the slot still holds another band (R224, R225, R233). -/
def State.slotFill (s : State) (t n : Nat) : State :=
  if !s.slotWork t n || !((List.range 8).all fun g => s.done4 t g n && s.done5 t g n) || s.sgm.void.contains (t, n) ||
      (s.sgm.slots.any fun (k, x) => k / 2 == t && x.n == n) then s
  else
    let (fs, us, s) := s.takeFrags t n
    let s := s.serveAhead t n
    if n < s.sgm.band then s
    else if s.sgm.slots.any (fun (k, _) => k == t * 2 + n % 2) then (s.setF 0 COL_ERR_SLOT_FULL).colLate t n fs
    else s.updSgm fun x => { x with slots := smInsert (t * 2 + n % 2) ⟨n, fs, us⟩ x.slots }

/-- COLLECTOR_SERVE (R224); a service that the cycle's results have called for is not made again (R233). -/
def execCollectorServe (s : State) : Answer :=
  if 0 < s.sgm.ahead then finish s (s.updSgm fun x => { x with ahead := x.ahead - 1 })
  else whenEv s (s.locked 0 .sys && s.serveDue) fun s => s.serveOne s.turnTile s.sgm.band

/-- The collector has missed its deadline over some tokens' spans: it counts where upstream tokens leave a part of one (R59, R61, R225). -/
def State.colMiss (s : State) (l : List Token) : State :=
  if l.all fun k => (s.openSpans k).isEmpty then s else (s.addSat 0 (BND_MISS 6) 1).pip 0 6

/-- The segments of a tile in the groups of band `n`, as tokens of the collector. -/
def State.colTokens (s : State) (t n : Nat) : List Token :=
  ((List.range 8).filter (s.hasSeg (s.bankOf n) t)).map fun g => s.tileToken 0x06 6 n t g

/-- Band tick n + D6: tiles not served are COL_LATE, and the band ends with what was served (R225). -/
def State.colDeadline (s : State) (n : Nat) : State :=
  if n < s.sgm.band then s else
  let s := if s.sgm.band < n then s.updSgm fun x => { x with band := n, turn := 0, got := [], gotUnl := [] } else s
  let k := s.id.variant.tiles
  let left := ((List.range k).drop s.sgm.turn).map fun i => (n + i) % k
  let s := left.foldl (fun s t =>
    if s.slotWork t n && !s.sgm.void.contains (t, n) then
      let sl := ((s.sgm.slots.find? fun (j, x) => j / 2 == t && x.n == n).map (·.2.frags)).getD []
      let (fs, _, s) := s.takeFrags t n
      let s := s.updSgm fun x => { x with slots := x.slots.filter fun (j, y) => !(j / 2 == t && y.n == n) }
      (s.colMiss (s.colTokens t n)).colLate t n (fs ++ sl)
    else s) s
  s.colFinish n

/-! The label grid's lanes and rows (R223). -/

/-- A grid table is out of range (R234). -/
def State.gridBad (s : State) (b : Nat) : Bool :=
  let l := s.rdB b 0 COL_GRID_CTRL_LANES
  let r := s.rdB b 0 COL_GRID_CTRL_ROWS
  decide (64 < l) || decide (256 < r) || decide (0x400000 < s.rdB b 0 COL_GRID_LANE_BASE + 8 * l) ||
    decide (0x400000 < s.rdB b 0 COL_GRID_ROW_BASE + 8 * r)

/-- The lane of an XWEB_POS (R223). -/
def State.laneOf (s : State) (b : Nat) (x : Int) : Option Nat :=
  (List.range (s.rdB b 0 COL_GRID_CTRL_LANES)).find? fun j =>
    let a := pipeAddr 0 (s.rdB b 0 COL_GRID_LANE_BASE + 8 * j)
    decide (sInt 32 (s.memLE a 4) ≤ x) && decide (x < sInt 32 (s.memLE (a + 4) 4))

/-- Y0 and Y1 of a row (R223). -/
def State.rowAt (s : State) (b r : Nat) : Nat × Nat :=
  let a := pipeAddr 0 (s.rdB b 0 COL_GRID_ROW_BASE + 8 * r)
  (s.memLE a 4, s.memLE (a + 4) 4)

/-- The row of an IN_REPEAT (R223). -/
def State.rowOf (s : State) (b : Nat) (y : Int) : Option Nat :=
  (List.range (s.rdB b 0 COL_GRID_CTRL_ROWS)).find? fun r => decide (((s.rowAt b r).1 : Int) ≤ y) && decide (y < (s.rowAt b r).2)

/-- Lane and row of a position; none where either is not found (R223, R234). -/
def State.labelOf (s : State) (b : Nat) (x y : Int) : Option (Nat × Nat) :=
  if s.gridBad b then none else do
    let l ← s.laneOf b x
    let r ← s.rowOf b y
    pure (l, r)

/-! Records (R229 to R231). -/

/-- WEB_POS_g of an absolute line; 0 for a line that no band of the run holds (log 24). -/
def State.webPosG (s : State) (b g a : Nat) : Int := ((s.posOf a).getD 0) - s.webOfs b g

/-- Where line `a` of a group ends. -/
def State.webEndG (s : State) (b g a : Nat) : Int :=
  match s.lineBand a with
  | some (bd, i) => s.lineEnd bd i - s.webOfs b g
  | none => s.webPosG b g a

/-- The outcomes of the bands that lines `l0` to `l1` lie in. -/
def State.outsOver (s : State) (g l0 l1 : Nat) : List RefOut :=
  (s.clk.bands.filter fun b => !b.pos.isEmpty && decide (b.line0 ≤ l1) && decide (l0 < b.line0 + b.pos.length)).filterMap fun b => s.outcomeOf g b.n

/-- REG_HELD and REG_EXPIRED over a stretch of lines (R231). -/
def State.heldBits (s : State) (g l0 l1 : Nat) : Nat :=
  let os := s.outsOver g l0 l1
  2 * bitN (os.any (·.held)) + 4 * bitN (os.any (·.expired))

/-- A learned reference is in effect in a band (R200). -/
def State.learnedIn (s : State) (g : Nat) (bd : Band) : Bool := s.refLearns bd.bank g && (s.learnB bd.bank g).done && !s.refLate g bd.n

/-- The marker position of a defect record (R232). -/
structure RecOut where
  bytes : Bytes
  cls : Option Nat
  mark : Int
  deriving DecidableEq, Repr

/-- The defect record, type 0x01 (R230, R231). -/
def State.defectRecord (s : State) (bd : Band) (m : Merged) (alive : Nat) : RecOut :=
  let b := bd.bank
  let f := m.frag
  let br := f.br
  let g := f.group
  let lc := m.lc
  let home := ((s.lineBand lc).map (·.1)).getD bd
  let w := s.webPosG b g lc
  let (k, z, synth) := s.gridAt b (s.gridView home.n) w
  let ir := w - z
  let x := s.xweb b m
  let lab := s.labelOf b x ir
  let has (c : CloseWhy) := bitN (m.marks.contains c)
  let fl := bitN (home.steps != s.tim.tb1Steps) + s.heldBits g br.line0 br.last + 8 * has .truncated + 16 * has .continues +
    32 * bitN m.merged + 64 * bitN m.edge + 128 * bitN (decide (br.area < 2 * br.dark)) + 256 * bitN m.blindAdj + 512 * has .shortBand +
    1024 * has .changeover + 2048 * bitN (s.learnedIn g home) + 4096 * bitN synth + 8192 * bitN m.noVerdict + 16384 * bitN lab.isNone +
    32768 * bitN (decide (0xFFFF < m.width))
  let (lane, row) := lab.getD (0, 0)
  let out := s.outcomeOf g home.n
  let conf := (out.map fun o => o.conf + 256 * Nat.min 255 o.hold).getD 0
  let bytes := withCrc (leBytes 1 0x01 ++ leBytes 1 1 ++ leBytes 1 s.clk.unit ++ leBytes 1 alive ++ leBytes 1 g ++ leBytes 1 f.cls ++ leBytes 2 fl ++
    leBytes 8 bd.n ++ leBytes 8 (uNat 64 w) ++ leBytes 4 (uNat 32 x) ++ leBytes 4 br.x0 ++ leBytes 4 br.line0 ++ leBytes 2 (Nat.min 0xFFFF m.width) ++
    leBytes 2 m.height ++ leBytes 4 br.area ++ leBytes 4 (uNat 32 br.maxDiff) ++ leBytes 2 (roundDiv br.sumDe (Nat.max 1 br.area)).toNat ++
    leBytes 1 br.peakCls ++ leBytes 1 f.peakSub ++ leBytes 4 (s.repeatOf b k) ++ leBytes 4 (uNat 32 ir) ++ leBytes 1 lane ++ leBytes 1 row ++
    leBytes 2 conf ++ leBytes 8 home.tb1 ++ leBytes 4 bd.job)
  let mark := if s.rdB b 0 COL_MARK_CTRL_SNAP != 0 && lab.isSome then w - ir + (s.rowAt b row).1 else w
  ⟨bytes, some f.cls, mark⟩

/-- The saturated record, type 0x03 (R229). -/
def State.satRecord (s : State) (bd : Band) (c : Collected) (alive : Nat) : RecOut :=
  let b := bd.bank
  let g := c.group
  let fs := c.rest.map (·.frag.br)
  let l0s := fs.map (·.line0) ++ c.unl.map (·.l0)
  let l1s := fs.map (·.last) ++ c.unl.map (·.l1)
  let x0s := fs.map (·.x0) ++ c.unl.map (·.x0)
  let x1s := fs.map (·.x1) ++ c.unl.map (·.x1)
  let l0 := l0s.foldl Nat.min (l0s.headD 0)
  let l1 := l1s.foldl Nat.max 0
  let x0 := x0s.foldl Nat.min (x0s.headD 0)
  let x1 := x1s.foldl Nat.max 0
  let cause := bitN (!fs.isEmpty) ||| (c.unl.map (·.cause)).foldl (· ||| ·) 0
  let fl := bitN (bd.steps != s.tim.tb1Steps) + s.heldBits g l0 l1 + 512 * bitN (bd.short || c.rest.any (·.marks.contains .shortBand)) +
    2048 * bitN (s.learnedIn g bd)
  let w0 := s.webPosG b g l0
  let w1 := s.webEndG b g l1
  let e0 := s.edge b g x0
  let area := Nat.min 0xFFFFFFFF (sumN (fs.map (·.area)) + sumN (c.unl.map (·.pixels)))
  let mean := (fs.map fun r => (roundDiv r.sumDe (Nat.max 1 r.area)).toNat).foldl Nat.max 0
  let bytes := withCrc (leBytes 1 0x03 ++ leBytes 1 1 ++ leBytes 1 s.clk.unit ++ leBytes 1 alive ++ leBytes 1 g ++ leBytes 1 cause ++ leBytes 2 fl ++
    leBytes 8 bd.n ++ leBytes 8 (uNat 64 w0) ++ leBytes 4 (clampI 0 0xFFFFFFFF (w1 - w0)).toNat ++ leBytes 4 (uNat 32 e0) ++
    leBytes 4 (uNat 32 (s.edge b g (x1 + 1) - e0)) ++ leBytes 4 bd.job ++ leBytes 4 fs.length ++ leBytes 4 area ++ leBytes 8 bd.tb1 ++
    leBytes 2 mean ++ leBytes 2 (Nat.min 0xFFFF (sumN (c.unl.map (·.runs)))))
  ⟨bytes, none, w0⟩

/-! Release (R228, R232). -/

/-- A record of type 0x01 or 0x03 is released: to the queue, behind those held, or lost (R228). -/
def State.colOut (s : State) (b : Nat) (rel : Option (Nat × Nat)) (mk : Nat → RecOut) : RecOut × State :=
  let r := mk s.sgm.alive
  let i := itemOf r.bytes rel
  let s := s.updSgm fun x => { x with alive := (x.alive + 1) % 256 }
  let done (s : State) := s.addWrap 0 COL_RECORDS 1
  let hold (s : State) := done (s.updSgm fun x => { x with held := x.held ++ [i] })
  if s.sgm.held.isEmpty then
    let (ok, s') := s.commit 0 (s.rdB b 0 COL_CTRL_QUEUE) 4 i
    (r, if ok then done s' else hold s')
  else if s.sgm.held.length < 4096 then (r, hold s)
  else (r, (s.addSat 0 COL_LOST 1).setF 0 COL_ERR_QFULL)

/-- COL_RECORD_SEND: the oldest held record goes to the queue (R228). -/
def State.colSend (s : State) : State :=
  match s.sgm.held with
  | [] => s
  | i :: l =>
    let (ok, s') := s.commit 0 (s.rd 0 COL_CTRL_QUEUE) 4 i
    if ok then s'.updSgm fun x => { x with held := l } else s'

/-- COL_RECORD_SEND (R228). -/
def execColRecordSend (s : State) : Answer := onClock s 0 .sys State.colSend

/-- The record asks for a marker (R232). -/
def State.marked (s : State) (b : Nat) (r : RecOut) : Bool :=
  s.rdB b 0 COL_MARK_CTRL_EN != 0 && (match r.cls with
    | some c => (s.rdB b 0 (COL_MARK_CLASS (c / 32))).testBit (c % 32)
    | none => s.rdB b 0 COL_MARK_CTRL_SAT != 0)

/-- The collector's part of the release of band `bd`: defect records and the saturated record group by group, then the marker positions in
ascending order (R228, R232). -/
def State.colRelease (s : State) (bd : Band) (rel : Option (Nat × Nat)) : State :=
  let b := bd.bank
  let cs := s.sgm.ready.filter (·.n == bd.n)
  let s := s.updSgm fun x => { x with ready := x.ready.filter (·.n != bd.n) }
  let s := s.setIf (!cs.isEmpty && s.gridBad b) 0 COL_ERR_CFG_INVALID
  let (ms, s) := cs.foldl (fun (acc : List Int × State) c =>
    let put (acc : List Int × State) (mk : State → Nat → RecOut) : List Int × State :=
      let (r, s') := acc.2.colOut b rel (mk acc.2)
      (if s'.marked b r then acc.1 ++ [r.mark] else acc.1, s')
    let acc := c.kept.foldl (fun acc m => put acc fun s al => s.defectRecord bd m al) acc
    if c.rest.isEmpty && c.unl.isEmpty then acc else put acc fun s al => s.satRecord bd c al) ([], s)
  s.updSgm fun x => { x with marks := x.marks ++ (sortBy (fun a b => decide (a ≤ b)) ms).map fun p => (p, s.rdB b 0 COL_MARK_CTRL_MIN_GAP) }

/-- COL_CLR (R236). -/
def State.colClr (s : State) : State :=
  [COL_GRID_SYNTH, COL_GRID_IGNORED, COL_MARK_APPENDED, COL_MARK_MERGED, COL_MARK_LOST, COL_LATE_BANDS, COL_CAPPED, COL_LOST, COL_RECORDS].foldl
    (fun s f => s.clrCount 0 f) s

/-- COL_CLR_COUNTERS (R236). -/
def execColClrCounters (s : State) : Answer := finish s s.colClr

end Sys2Proof.Machine
end

