-- ==== Sys2Proof/Machine/Engine.lean ====
section
/-! DEFINITION. Vector engines: registers, stores, entries, faults, ports and debug (R237 to R250, R255 to R262). -/

namespace Sys2Proof.Machine

/-! An engine's state. -/

/-- The key of an engine. -/
def engKey (t n : Nat) : Nat := t * 128 + n

/-- The state with the engines changed. -/
def State.updEngs (s : State) (f : Engines → Engines) : State := { s with eng := f s.eng }

/-- Engine `n` of tile `t`. -/
def State.engOf (s : State) (t n : Nat) : EngState := smGet EngState.idle (engKey t n) s.eng.engs

/-- The state with an engine changed. -/
def State.updEng (s : State) (t n : Nat) (f : EngState → EngState) : State :=
  s.updEngs fun x => { x with engs := smUpd EngState.idle (engKey t n) f x.engs }

/-- A scalar register; s0 reads 0 (R237). -/
def EngState.sreg (x : EngState) (r : Nat) : Nat := if r = 0 then 0 else smGet 0 r x.s % 2 ^ 32
/-- A lane of a vector register. -/
def EngState.lane (x : EngState) (r k : Nat) : Nat := smGet 0 (16 * r + k) x.v % 2 ^ 24
/-- The lanes of a vector register. -/
def EngState.lanes (x : EngState) (r : Nat) : List Nat := (List.range 16).map (x.lane r)
/-- A lane of an accumulator, signed 48 bits. -/
def EngState.accLane (x : EngState) (r k : Nat) : Int := sInt 48 (smGet 0 (16 * r + k) x.acc)
/-- A predicate. -/
def EngState.pred (x : EngState) (r : Nat) : Nat := smGet 0 r x.p % 2 ^ 16

/-- A scalar register written; writes to s0 are ignored (R237). -/
def EngState.setS (x : EngState) (r v : Nat) : EngState := if r = 0 then x else { x with s := smSet 0 r (v % 2 ^ 32) x.s }
/-- Lanes of a vector register written where `on` holds. -/
def EngState.setV (x : EngState) (r : Nat) (on : Nat → Bool) (f : Nat → Nat) : EngState :=
  { x with v := (List.range 16).foldl (fun m k => if on k then smSet 0 (16 * r + k) (f k % 2 ^ 24) m else m) x.v }
/-- Lanes of an accumulator written where `on` holds. -/
def EngState.setAcc (x : EngState) (r : Nat) (on : Nat → Bool) (f : Nat → Int) : EngState :=
  { x with acc := (List.range 16).foldl (fun m k => if on k then smSet 0 (16 * r + k) (uNat 48 (f k)) m else m) x.acc }
/-- A predicate written. -/
def EngState.setP (x : EngState) (r v : Nat) : EngState := { x with p := smSet 0 r (v % 2 ^ 16) x.p }

/-- STATUS.STATE follows the engine (R262). -/
def State.engState (s : State) (t n : Nat) : State :=
  let x := s.engOf t n
  s.wr t (ENG_E_STATUS_STATE n) (if x.halted then 4 else x.run)

/-- The engine issues instructions: it runs an entry, is not halted and does not stand at the barrier. -/
def EngState.issues (x : EngState) : Bool := (x.run == 1 || x.run == 2 || x.run == 3) && !x.halted && !x.bar

/-- With BP_EN the engine halts before it issues the instruction at BP_ADDR (R259). -/
def State.bpHalt (s : State) (t e : Nat) : State :=
  if (s.engOf t e).issues && s.is t (ENG_E_DBG_BP_EN e) && s.rd t (ENG_E_DBG_BP_ADDR e) == (s.engOf t e).pc then
    ((s.setF t (ENG_E_DBG_HALT e)).updEng t e fun x => { x with halted := true }).engState t e
  else s

/-! Stores (R37, R238, R239). -/

/-- A byte address in an engine's data store. -/
def dataAddr (t n off : Nat) : Nat := addrOf t (0x40 + n / 16) (n % 16 * 0x10000 + off)
/-- The address of an instruction in an engine's program store. -/
def progAddr (t n pc : Nat) : Nat := addrOf t (0x40 + n / 16) (n % 16 * 0x10000 + 0xA000 + 4 * pc)
/-- A byte address in the memory of the engine's cluster. -/
def clusterAddr (t n off : Nat) : Nat := addrOf t 0x48 (n / 16 * 0x80000 + off)

/-- The place of a store access: the address with a signed offset, none where it is misaligned or leaves the store (R238). -/
def storeOfs (limit base : Nat) (ofs : Int) (len : Nat) : Option Nat :=
  let a := uNat 32 ((base : Int) + ofs)
  if a % 4 = 0 ∧ a + len ≤ limit then some a else none

/-- The band-local part of an engine's data store is zero-filled, and the seals of the granules it covers are cleared (R244, R451). -/
def State.zeroFill (s : State) (t n lo hi : Nat) : State :=
  let a := dataAddr t n lo
  let b := dataAddr t n hi
  { s with mem := s.mem.filter (fun (k, _) => !(decide (a ≤ k) && decide (k < b))),
           lcs := { s.lcs with seals := s.lcs.seals.filter fun g => !(decide (a ≤ 64 * g) && decide (64 * g + 64 ≤ b)) } }

/-! Assignment (R242). -/

/-- An engine is assigned in a bank: enabled, and its instance enabled (R242). -/
def State.assigned (s : State) (b t e : Nat) : Bool :=
  s.rdB b t (ENG_E_CFG_EN e) != 0 && s.rdB b t (ENG_INST_CFG_EN (s.rdB b t (ENG_E_CFG_INST e))) != 0

/-! Input ports (R246, R247). -/

/-- Capacity of a port's FIFO. -/
def fifoDepth : Nat := 64

/-- SRC of an input port. -/
def State.engSrc (s : State) (b t e port : Nat) : Nat := if port = 0 then s.rdB b t (ENG_E_IN0_SRC e) else s.rdB b t (ENG_E_IN1_SRC e)

/-- The FIFO of a port. -/
def EngState.fifo (x : EngState) (port : Nat) : List FifoEntry := if port = 0 then x.fifo0 else x.fifo1
/-- The FIFO of a port set. -/
def EngState.setFifo (x : EngState) (port : Nat) (l : List FifoEntry) : EngState :=
  if port = 0 then { x with fifo0 := l } else { x with fifo1 := l }
/-- What is on its way to a port. -/
def EngState.way (x : EngState) (port : Nat) : List FifoEntry := if port = 0 then x.way0 else x.way1
/-- What is on its way to a port, set. -/
def EngState.setWay (x : EngState) (port : Nat) (l : List FifoEntry) : EngState :=
  if port = 0 then { x with way0 := l } else { x with way1 := l }
/-- The band of the item whose rest a port discards. -/
def EngState.skip (x : EngState) (port : Nat) : Option Nat := if port = 0 then x.skip0 else x.skip1
/-- The mark of R246 that the rest of an item is discarded. -/
def EngState.setSkip (x : EngState) (port : Nat) (v : Option Nat) : EngState :=
  if port = 0 then { x with skip0 := v } else { x with skip1 := v }

/-- A source of R247 exists. -/
def srcOk (src : Nat) : Bool :=
  src == 0 || (decide (1 ≤ src) && decide (src ≤ 8)) || (decide (0x10 ≤ src) && decide (src ≤ 0x2F)) || decide (0x80 ≤ src)

/-- A source delivers beats, words, or as written (R247). -/
def srcBeats (src : Nat) : Bool := (decide (1 ≤ src) && decide (src ≤ 8)) || (decide (0x10 ≤ src) && decide (src ≤ 0x27))
/-- A source delivers words only. -/
def srcWords (src : Nat) : Bool := decide (0x28 ≤ src) && decide (src ≤ 0x2F)

/-- The band of an entry. -/
def FifoEntry.band : FifoEntry → Nat
  | .beat n _ _ => n
  | .word n _ _ => n
  | .mark n => n
  | .lost n => n

/-- The entry carries END. -/
def FifoEntry.ends : FifoEntry → Bool
  | .beat _ _ l => l
  | .word _ _ l => l
  | .mark _ => false
  | .lost _ => true

/-- The entry is a band mark. -/
def FifoEntry.isMark : FifoEntry → Bool
  | .mark _ => true
  | _ => false

/-- Entries lost at a port. -/
def State.inLost (s : State) (t e n : Nat) : State := (s.addSat t (ENG_E_IN_LOST e) n).setF t (ENG_E_ERR_IN_GAP e)

/-- A beat or word from a fixed pipeline arrives at a port (R246); one of a band that the engine has missed is discarded (R244). -/
def State.pushEntry (s : State) (t e port : Nat) (x : FifoEntry) : State :=
  let g := s.engOf t e
  let rest := if x.ends then none else some x.band
  if x.band < g.floor then s
  else if (g.skip port).isSome then s.updEng t e fun y => y.setSkip port rest
  else if fifoDepth ≤ (g.fifo port).length then (s.inLost t e 1).updEng t e fun y => y.setSkip port rest
  else s.updEng t e fun y => y.setFifo port (y.fifo port ++ [x])

/-- The newest beat or word and the rest of its item leave a FIFO, given newest first; the answer counts them (R246). -/
def dropNewest : List FifoEntry → List FifoEntry × Nat
  | [] => ([], 0)
  | .mark n :: l => let (r, k) := dropNewest l; (.mark n :: r, k)
  | x :: l =>
    let item := l.takeWhile fun y => !y.isMark && !y.ends
    (l.drop item.length, item.length + (if x.isMark then 0 else 1))

/-- A band mark arrives at a port: it is never lost (R246). -/
def State.pushMark (s : State) (t e port n : Nat) : State :=
  let g := s.engOf t e
  if n < g.floor then s
  else
    let l := g.fifo port
    let s := s.updEng t e fun y => y.setSkip port none
    if l.length < fifoDepth then s.updEng t e fun y => y.setFifo port (l ++ [.mark n])
    else if l.all (·.isMark) then s.updEng t e fun y => y.setFifo port (l.drop 1 ++ [.mark n])
    else
      let (r, k) := dropNewest l.reverse
      (s.inLost t e k).updEng t e fun y => y.setFifo port (r.reverse ++ [.mark n])

/-- The engines of a tile and their ports that a source feeds in bank `b`. -/
def State.listeners (s : State) (b t src : Nat) : List (Nat × Nat) :=
  (List.range 128).flatMap fun e => if s.assigned b t e then ([0, 1].filter fun p => s.engSrc b t e p == src).map fun p => (e, p) else []

/-- Entries from a pipeline tap set out for the ports of every engine that names it in bank `b` (R247). -/
def State.sendTap (s : State) (b t src : Nat) (l : List FifoEntry) : State :=
  (s.listeners b t src).foldl (fun s (e, p) => s.updEng t e fun x => x.setWay p (x.way p ++ l)) s

/-- An item of band `n` from a pipeline tap of a tile. -/
def State.tap (s : State) (t src n : Nat) (item : List FifoEntry) : State := s.sendTap (s.bankOf n) t src item

/-- The oldest entry on its way to a port arrives. -/
def State.arrive (s : State) (t e port : Nat) : State :=
  match (s.engOf t e).way port with
  | [] => s
  | x :: l =>
    let s := s.updEng t e fun y => y.setWay port l
    match x with
    | .mark n => s.pushMark t e port n
    | x => s.pushEntry t e port x

/-- What an EVTC cycle brings to the input ports: one entry of each, which is 16 samples, as the correction pipeline gives them (R117); the spec
does not say how fast the other taps deliver (DESIGN CHOICE, log 223). -/
def State.arrivals (s : State) : State :=
  let l := (s.eng.engs.filter fun (_, x) => !x.way0.isEmpty || !x.way1.isEmpty).map (·.1)
  l.foldl (fun s k => (s.arrive (k / 128) (k % 128) 0).arrive (k / 128) (k % 128) 1) s

/-- Beats of 16 lanes from a plane of samples; lanes beyond it are 0. -/
def beatsOf (n : Nat) (l : List Nat) : List FifoEntry :=
  (List.range (ceilDiv l.length 16)).map fun i => .beat n ((List.range 16).map fun k => l.getD (16 * i + k) 0) false

/-- The last entry of an item carries END. -/
def endItem : List FifoEntry → List FifoEntry
  | [] => []
  | [.beat n l _] => [.beat n l true]
  | [.word n w _] => [.word n w true]
  | x :: l => x :: endItem l

/-- The header beat of a line (R247). -/
def headBeat (n line flags expset : Nat) : FifoEntry :=
  .beat n ([line % 2 ^ 24, line / 2 ^ 24 % 2 ^ 24, flags, expset] ++ List.replicate 12 0) false

/-- Band marks of a tap up to the newest band it has finished (R246). -/
def State.tapMarks (s : State) (t src : Nat) (done : State → Band → Bool) : State :=
  let k := t * 256 + src
  let from_ := smGet 0 k s.eng.marks
  let todo := (s.clk.bands.reverse.filter fun b => decide (from_ ≤ b.n)).takeWhile fun b => (b.pos.isEmpty && b.closed) || done s b
  todo.foldl (fun s b =>
    let s := s.sendTap b.bank t src [.mark b.n]
    s.updEngs fun x => { x with marks := smSet 0 k (b.n + 1) x.marks }) s

/-! The output port (R246, R249). -/

/-- An item of words for a destination that takes items whole. -/
def State.engItem (s : State) (t dst n : Nat) (ws : List Nat) : State :=
  if 0x10 ≤ dst ∧ dst ≤ 0x17 then s.updSgm fun x => { x with verdicts := x.verdicts ++ [(t, dst - 0x10, n, ws)] }
  else s.updRef fun x => { x with items := x.items ++ [(dst - 0x20, n, ws)] }

/-- A destination of R249 that takes word items whole. -/
def dstItems (d : Nat) : Bool := decide (0x10 ≤ d) && decide (d ≤ 0x17) || decide (0x20 ≤ d) && decide (d ≤ 0x27)

/-- DST of an engine for an entry of band `n`. -/
def State.dstOf (s : State) (t e n : Nat) : Nat := s.rdB (s.bankOf n) t (ENG_E_OUT_DST e)

/-- The END, marked LOST, of an item that a missed deadline has cut short reaches a destination: what the destination has taken of it is given up, and a
solution counts as one of another length (R244, R250; log 224). -/
def State.lostItem (s : State) (t e dst n : Nat) : State :=
  let s := s.updEng t e fun y => { y with taken := [] }
  if 0x20 ≤ dst ∧ dst ≤ 0x27 then s.engItem t dst n [] else s

/-- The output port's assembly buffer of a queue drops its partial item; its END ends a poisoning (R244, R395). -/
def State.dropAssembly (s : State) (t e : Nat) : State :=
  let a := smGet Assembly.idle (t * 256 + 8 + e) s.que.asm
  let s := { s with que := { s.que with asm := smSet Assembly.idle (t * 256 + 8 + e) Assembly.idle s.que.asm } }
  if a.poisoned then s.flushing t a.queue else s

/-- A word for a destination other than engines (R249): none where it must wait. -/
def State.giveWord (s : State) (t e dst n w : Nat) (last : Bool) : Option State :=
  if dst = 0x40 then
    let (bad, s) := s.feed t (8 + e) (s.rdB (s.bankOf n) t (ENG_E_OUT_QUEUE e)) w last
    some (s.setIf bad t (ENG_E_ERR_OUT_LOST e))
  else if 0x30 ≤ dst ∧ dst ≤ 0x3F then s.firEngine t (dst - 0x30) (sInt 24 w)
  else if dstItems dst then
    let ws := (s.engOf t e).taken ++ [w]
    some (if last then (s.updEng t e fun y => { y with taken := [] }).engItem t dst n ws else s.updEng t e fun y => { y with taken := ws })
  else some (s.setF t (ENG_E_ERR_CFG_INVALID e))

/-- An entry leaves the output port (R249): none where it must wait. -/
def State.engGive (s : State) (t e : Nat) (x : FifoEntry) : Option State :=
  let b := s.bankOf x.band
  let dst := s.dstOf t e x.band
  if dst = 0 then some s
  else if dst = 1 then
    let ls := s.listeners b t (0x80 + e)
    if ls.any fun (f, p) => decide (fifoDepth ≤ ((s.engOf t f).fifo p).length) then none
    else some (ls.foldl (fun s (f, p) => s.updEng t f fun y => y.setFifo p (y.fifo p ++ [x])) s)
  else
    match x with
    | .word n w last => s.giveWord t e dst n w last
    | .lost n => some (if dst = 0x40 then s.dropAssembly t e else s.lostItem t e dst n)
    | _ => some (s.setF t (ENG_E_ERR_CFG_INVALID e))

/-- The destination that the oldest entry of an output port is bound for, as a number: engines take from each other alone. -/
def State.outKey (s : State) (t e n : Nat) : Nat :=
  let dst := s.dstOf t e n
  let q := if dst = 0x40 then s.rdB (s.bankOf n) t (ENG_E_OUT_QUEUE e) else if dst ≤ 1 then e else 0
  (t * 256 + dst) * 256 + q

/-- The engines of a tile with something in the output port, with the destination of the oldest entry, in engine order. -/
def State.writers (s : State) (t : Nat) : List (Nat × Nat) :=
  (s.eng.engs.filter fun (k, _) => k / 128 == t).filterMap fun (k, x) => x.out.head?.map fun y => (k % 128, s.outKey t (k % 128) y.band)

/-- A destination that is free takes the items of several engines whole, in engine order starting one place after the engine served last (R249). -/
def State.turnOf (s : State) (l : List (Nat × Nat)) (e key : Nat) : Bool :=
  match smGet (none, 127) key s.eng.serves with
  | (some f, _) => f == e
  | (none, last) => l.all fun (f, k) => k != key || decide ((e + 127 - last) % 128 ≤ (f + 127 - last) % 128)

/-- One entry of some output port reaches its destination, if any can. -/
def State.outOne (s : State) (t : Nat) : Option State :=
  let l := s.writers t
  l.findSome? fun (e, key) =>
    if !s.turnOf l e key then none
    else
      match (s.engOf t e).out with
      | [] => none
      | x :: rest => (s.engGive t e x).map fun s =>
          (s.updEng t e fun y => { y with out := rest }).updEngs fun z =>
            { z with serves := smSet (none, 127) key (if x.ends then (none, e) else (some e, (smGet (none, 127) key z.serves).2)) z.serves }

/-- Output ports of a tile give what their destinations can take. -/
def State.outServe (s : State) (t : Nat) : State :=
  (List.range (sumN (s.eng.engs.map fun (_, x) => x.out.length))).foldl (fun s _ => (s.outOne t).getD s) s

/-- Output ports of every tile at the end of an EVTC cycle (log 223). -/
def State.outputs (s : State) : State :=
  if s.eng.engs.any fun (_, x) => !x.out.isEmpty then s.eachTile fun t s => s.outServe t else s

/-- The program writes an entry to its output port: none while the port's FIFO is full (R246). -/
def State.engOut (s : State) (t e : Nat) (x : FifoEntry) : Option State :=
  if fifoDepth ≤ (s.engOf t e).out.length then none
  else some (s.updEng t e fun y => { y with out := y.out ++ [x], part := !x.ends })

/-! Entries (R240 to R245). -/

/-- The registers at the start of an entry for band `n` (R240, R257). -/
def State.enter (s : State) (t e run bank n pc : Nat) (s14 : List (Nat × Nat)) : State :=
  (s.updEng t e fun x => { x with s := s14.filter (·.2 != 0), v := [], acc := [], p := [], pc := pc, run := run, bank := bank, band := n, latches := 0, bar := false }).engState t e |>.bpHalt t e

/-- s1 to s4 for a band (R240). -/
def State.bandRegs (s : State) (n : Nat) : List (Nat × Nat) :=
  match s.band n with
  | some b => [(1, n % 2 ^ 32), (2, n / 2 ^ 32 % 2 ^ 16), (3, b.line0 % 2 ^ 32), (4, b.size)]
  | none => [(1, n % 2 ^ 32), (2, n / 2 ^ 32 % 2 ^ 16)]

/-- INIT_ENTRY: an assignment's INIT begins (R242). -/
def State.initEntry (s : State) (t e : Nat) : State :=
  let b := if s.assigned s.bank t e then s.bank else s.shadow
  let s := s.clrF t (ENG_E_STATUS_INIT_DONE e)
  (s.updEng t e fun x => { x with initDue := false, past := false }).enter t e 1 b 0 (s.rdB b t (ENG_E_ENTRY_IB_INIT e)) []

/-- INIT_ENTRY (R242). -/
def execInitEntry (e : EngineId) (s : State) : Answer :=
  let x := s.engOf e.tile e.t
  whenEv s (s.fit e.tile && s.locked e.tile .core && x.initDue && !x.halted && (x.run == 0 || x.run == 5)) fun s => s.initEntry e.tile e.t

/-- INIT of an engine is over: it has ended with DONE, or was abandoned at a resume (R242, R259). -/
def State.initOver (s : State) (t e : Nat) : Bool := s.is t (ENG_E_STATUS_INIT_DONE e) || (s.engOf t e).past

/-- The band of an engine's next BAND entry: empty bands are passed over (R243). -/
def State.nextBand (s : State) (m : Nat) : Nat :=
  ((s.clk.bands.reverse.filter fun b => decide (m ≤ b.n)).find? fun b => !b.pos.isEmpty).map (·.n) |>.getD m

/-- An engine can start the BAND entry of a band (R243): it is assigned there, its INIT has ended and START_LAG has passed. -/
def State.bandEntryDue (s : State) (t e : Nat) : Bool :=
  let x := s.engOf t e
  let m := s.nextBand x.next
  let b := s.bankOf m
  x.run == 0 && !x.halted && !x.initDue && s.clk.ticked && s.initOver t e && s.assigned b t e &&
    (match s.band m with | some bd => !bd.pos.isEmpty | none => false) && decide (m + s.rdB b t (ENG_E_CFG_START_LAG e) ≤ s.bandIndex)

/-- BAND_ENTRY (R243). -/
def State.bandEntry (s : State) (t e : Nat) : State :=
  let m := s.nextBand (s.engOf t e).next
  let b := s.bankOf m
  s.enter t e 2 b m (s.rdB b t (ENG_E_ENTRY_IB_BAND e)) (s.bandRegs m)

/-- BAND_ENTRY (R243). -/
def execBandEntry (e : EngineId) (s : State) : Answer :=
  whenEv s (s.fit e.tile && s.locked e.tile .core && s.bandEntryDue e.tile e.t) fun s => s.bandEntry e.tile e.t

/-- The used cycles of an entry: a count of time, which the model leaves free (log 53). -/
def State.cyclesUsed (s : State) (t e : Nat) : State :=
  let (f, s) := s.fresh
  let c := f % 2 ^ 32
  let s := (s.wr t (ENG_E_CYCLES_LAST e) c).wr t (ENG_E_CYCLES_MAX e) (Nat.max c (s.rd t (ENG_E_CYCLES_MAX e)))
  s.setIf (decide (s.rdB (s.engOf t e).bank t (ENG_E_BUDGET e) < c)) t (ENG_E_ERR_OVER_BUDGET e)

/-- An ABORT entry ends: the band-local data store is zero-filled (R244). -/
def State.abortEnd (s : State) (t e : Nat) : State :=
  let x := s.engOf t e
  ((s.zeroFill t e (s.rdB x.bank t (ENG_E_LOCAL_BASE e)) 40960).updEng t e fun x => { x with run := 0 }).engState t e

/-- The engines of an instance of a tile in bank `b`: those enabled that name it (R241). -/
def State.instEngs (s : State) (b t i : Nat) : List Nat :=
  (List.range 128).filter fun e => s.rdB b t (ENG_E_CFG_EN e) != 0 && s.rdB b t (ENG_E_CFG_INST e) == i

/-- Every enabled engine of an instance has executed DONE for band `n` (R241). -/
def State.instDone (s : State) (b t i n : Nat) : Bool := (s.instEngs b t i).all fun e => (s.engOf t e).done.contains n

/-- The engines of an instance are done with band `n`: a classification instance lets its tile's slot fill (R218, R224). -/
def State.instEnd (s : State) (b t i n : Nat) : State :=
  let k := s.rdB b t (ENG_INST_CFG_CLASS i)
  if k = 5 then (s.classDone t (s.rdB b t (ENG_INST_CFG_GROUP i)) n).slotFill t n else s

/-- DONE ends the running entry: what the engine has written by then counts, and a tick of the same cycle comes too late (R241, R258). -/
def State.engDone (s : State) (t e : Nat) : State :=
  let x := s.engOf t e
  let s := s.wr t (ENG_E_STATUS_WAIT e) 0
  match x.run with
  | 1 => ((s.setF t (ENG_E_STATUS_INIT_DONE e)).updEng t e fun x => { x with run := 0 }).engState t e
  | 2 =>
    let s := (s.outServe t).cyclesUsed t e
    let s := (s.updEng t e fun x => { x with run := 0, done := x.band :: x.done, next := x.band + 1 }).engState t e
    let i := s.rdB x.bank t (ENG_E_CFG_INST e)
    let s := s.doneLate t (s.rdB x.bank t (ENG_INST_CFG_CLASS i)) x.band
    if s.instDone x.bank t i x.band then s.instEnd x.bank t i x.band else s
  | 3 => s.abortEnd t e
  | _ => s

/-- ABORT_HUNG: an ABORT entry is ended by force (R244). -/
def State.abortHung (s : State) (t e : Nat) : State := (s.setF t (ENG_E_ERR_ABORT_HUNG e)).abortEnd t e

/-- ABORT_HUNG (R244). -/
def execAbortHung (e : EngineId) (s : State) : Answer :=
  whenEv s (s.fit e.tile && s.locked e.tile .core && (s.engOf e.tile e.t).run == 3 && !(s.engOf e.tile e.t).halted) fun s => s.abortHung e.tile e.t

/-! Faults (R255). -/

/-- A fault with its code (R255). -/
def State.engFault (s : State) (t e code : Nat) : State :=
  let x := s.engOf t e
  let s := ((s.wr t (ENG_E_STATUS_FAULT e) code).wr t (ENG_E_FAULT_PC e) x.pc).setF t (ENG_E_ERR_FAULT e)
  let s := (s.setBits t (ENG_FAULT_MAP (e / 32)) (2 ^ (e % 32))).setF t ENG_ERR_FAULT
  if s.rdB x.bank t (ENG_E_CFG_FAULT_STOP e) != 0 then
    ((s.setF t (ENG_E_DBG_HALT e)).updEng t e fun x => { x with halted := true }).engState t e
  else if x.run = 3 then s.abortHung t e
  else (s.updEng t e fun x => { x with run := 5 }).engState t e

/-! Issue. -/

/-- What an instruction comes to: it completes and the next one follows, it goes to a target, it waits with a code of STATUS.WAIT, it
faults, it arrives at its barrier, or it ends the entry. -/
inductive EngRes where
  | next (s : State)
  | jump (s : State) (pc : Int)
  | wait (s : State) (code : Nat)
  | fault (code : Nat)
  | bar
  | done

/-- The engine goes on at an instruction; a breakpoint there halts it (R255, R259). -/
def State.engGo (s : State) (t e pc : Nat) : State :=
  ((s.updEng t e fun x => { x with pc := pc }).wr t (ENG_E_STATUS_WAIT e) 0).bpHalt t e

/-- An instruction of an engine, whether it issues or not. -/
def State.engRun (s : State) (t e : Nat) (r : State → EngState → EngRes) : State :=
  let x := s.engOf t e
  match r s x with
  | .next s' => if x.pc = 2047 then s'.engFault t e 4 else s'.engGo t e (x.pc + 1)
  | .jump s' pc => if pc < 0 ∨ 2047 < pc then s.engFault t e 4 else s'.engGo t e pc.toNat
  | .wait s' c => s'.wr t (ENG_E_STATUS_WAIT e) c
  | .fault c => s.engFault t e c
  | .bar => (s.updEng t e fun x => { x with bar := true }).wr t (ENG_E_STATUS_WAIT e) 3
  | .done => s.engDone t e

/-- An instruction command: it acts where the engine issues instructions. -/
def engAnswer (e : EngineId) (r : State → EngState → EngRes) (s : State) : Answer :=
  whenEv s (s.fit e.tile && s.locked e.tile .core && (s.engOf e.tile e.t).issues) fun s => s.engRun e.tile e.t r

/-! Missed deadlines (R244). -/

/-- Entries of band `n` and before leave an input FIFO, their band mark included (R244). -/
def dropBands (n : Nat) (l : List FifoEntry) : List FifoEntry := l.filter fun x => decide (n < x.band)

/-- A partial item of the output port is closed with END, marked LOST (R244). -/
def State.closeOut (s : State) (t e n : Nat) : State :=
  if (s.engOf t e).part then s.updEng t e fun y => { y with out := y.out ++ [.lost n], part := false } else s

/-- The ABORT entry for band `n` (R244). -/
def State.abortEntry (s : State) (t e n : Nat) : State :=
  let b := s.bankOf n
  (s.enter t e 3 b n (s.rdB b t (ENG_E_ENTRY_A_ABORT e)) (s.bandRegs n)).wr t (ENG_E_STATUS_WAIT e) 0

/-- Band `n` is over for an engine: what its ports hold of the band goes, and it takes up the bands after it (R244). -/
def State.passBand (s : State) (t e n : Nat) : State :=
  s.updEng t e fun x => { x with
    fifo0 := dropBands n x.fifo0, fifo1 := dropBands n x.fifo1, skip0 := x.skip0.filter (n < ·), skip1 := x.skip1.filter (n < ·),
    next := Nat.max x.next (n + 1), floor := Nat.max x.floor (n + 1) }

/-- An engine that has not executed DONE for band `n` at its deadline (R242, R244, R258, R259): one still in INIT misses the band, late, and goes
on; a halted one takes its ABORT when it resumes; one whose ABORT runs takes no second. -/
def State.engMiss (s : State) (t e n : Nat) : State :=
  let x := s.engOf t e
  if x.done.contains n then s
  else
    let init := x.run == 1 || x.initDue
    let s := s.setIf init t (ENG_E_ERR_INIT_LATE e)
    if x.halted then s.updEng t e fun x => { x with missed := some n }
    else if init || !s.initOver t e then s.passBand t e n
    else
      let s := (s.closeOut t e n).passBand t e n
      if x.run = 3 then s else s.abortEntry t e n

/-! Barriers and pips (R256, R257). -/

/-- The members of a cluster's barrier in bank `b`. -/
def State.barMembers (s : State) (b t c : Nat) : List Nat := (onesOf 16 (s.rdB b t (ENG_CL_BAR_MASK c))).map (16 * c + ·)

/-- The engine stands at the barrier of bank `b`: that of the job its entry runs for (R256, R264). -/
def EngState.waitsIn (x : EngState) (b : Nat) : Bool := x.bar && x.bank == b

/-- The barrier of a cluster can be released for the engines whose entries run in bank `b`: some member has arrived, and every other runs no INIT or
BAND entry (R256). -/
def State.barReady (s : State) (b t c : Nat) : Bool :=
  let ms := (s.barMembers b t c).map (s.engOf t)
  ms.any (·.waitsIn b) && ms.all fun x => x.waitsIn b || x.halted || (x.run != 1 && x.run != 2)

/-- BARRIER_RELEASE: every engine that has arrived resumes. -/
def State.barRelease (s : State) (b t c : Nat) : State :=
  ((s.barMembers b t c).foldl (fun s e =>
    let x := s.engOf t e
    if x.waitsIn b then (s.updEng t e fun y => { y with bar := false }).engRun t e fun s _ => .next s else s) s).addWrap t (ENG_CL_BAR_GEN c) 1

/-- The releases of a cluster that are due: in the bank of the newest band, then in the other. -/
def State.barReleases (s : State) (t c : Nat) : State :=
  [s.bank, s.shadow].foldl (fun s b => if s.barReady b t c then s.barRelease b t c else s) s

/-- BARRIER_RELEASE (R256). -/
def execBarrierRelease (t : Tile) (c : Cluster) (s : State) : Answer := whenEv s (s.fit t && s.locked t .core) fun s => s.barReleases t c

/-- A pip reaches consumer input `n` of a cluster: the latch of every engine in it (R257). -/
def State.clusterPip (s : State) (t c n : Nat) : State :=
  (List.range 16).foldl (fun s i =>
    let e := 16 * c + i
    if (s.engOf t e).latches.testBit n then s.setBits t (ENG_E_DBG_PIPOVR e) (2 ^ n)
    else s.updEng t e fun x => { x with latches := x.latches ||| 2 ^ n }) s

/-- A latch of some engine of a cluster is set: the consumer is busy (R362). -/
def State.clusterBusy (s : State) (t c n : Nat) : Bool := (List.range 16).any fun i => (s.engOf t (16 * c + i)).latches.testBit n

/-! Debug (R259, R260). -/

/-- LCS_STATE.STATE is FIELD. -/
def State.inField (s : State) : Bool := s.rd 0 LCS_STATE_STATE == 2

/-- The origin is the LCP session of an open vendor debug session with a SCOPE bit (R452). -/
def State.vendor (s : State) (o : Origin) (bit : Nat) : Bool :=
  s.is 0 LCS_STATE_DEBUG && s.lcs.scope.testBit bit && (match o with | .session n => n.val == s.rd 0 LCS_STATE_DEBUG_SESSION | _ => false)

/-- Engine debug is open to an origin (R260, R450). -/
def State.debugOpen (s : State) (o : Origin) : Bool := !s.inField || s.vendor o 0

/-- An access refused by the life cycle (R450). -/
def State.lcsRefuse (s : State) (o : Origin) (t : Nat) (f : Fld) (write : Bool) : State := (s.setF 0 LCS_ERR_ACCESS).refuse o t f write

/-- The debug session remembers an engine it has halted or given a breakpoint (R452). -/
def State.debugTouch (s : State) (t e : Nat) : State :=
  if s.inField && !s.lcs.debugEngs.contains (engKey t e) then { s with lcs := { s.lcs with debugEngs := s.lcs.debugEngs ++ [engKey t e] } } else s

/-- DBG.HALT set (R259). -/
def State.engHalt (s : State) (t e : Nat) : State :=
  (((s.setF t (ENG_E_DBG_HALT e)).updEng t e fun x => { x with halted := true, haltTb0 := some s.tim.tb0 }).engState t e).debugTouch t e

/-- HALT (R259, R260). -/
def execHalt (o : Origin) (e : EngineId) (s : State) : Answer :=
  onTile s e.tile fun s => if s.debugOpen o then s.engHalt e.tile e.t else s.lcsRefuse o e.tile (ENG_E_DBG e.t) true

/-- DBG.HALT cleared: the halted entry is abandoned and one ABORT runs for the last band missed (R259). -/
def State.engResume (s : State) (t e : Nat) : State :=
  let x := s.engOf t e
  let s := s.clrF t (ENG_E_DBG_HALT e)
  if !x.halted then s else
  let s := s.updEng t e fun x => { x with halted := false, missed := none }
  match x.missed with
  | some n =>
    let s := (s.closeOut t e n).passBand t e n
    (s.updEng t e fun y => { y with past := y.past || x.run == 1 }).abortEntry t e n
  | none => s.engState t e

/-- RESUME (R259, R260). -/
def execResume (o : Origin) (e : EngineId) (s : State) : Answer :=
  onTile s e.tile fun s => if s.debugOpen o then s.engResume e.tile e.t else s.lcsRefuse o e.tile (ENG_E_DBG e.t) true

/-- What DBG_DATA names (R262). -/
def State.dbgRead (s : State) (t e : Nat) : Nat :=
  let x := s.engOf t e
  let r := s.rd t (ENG_E_DBG_SEL_REG e)
  let k := s.rd t (ENG_E_DBG_SEL_LANE e)
  if r < 0x10 then x.sreg r
  else if 0x20 ≤ r ∧ r < 0x40 then uNat 32 (sInt 24 (x.lane (r - 0x20) k))
  else if 0x40 ≤ r ∧ r < 0x44 then
    let a := x.accLane (r - 0x40) k
    if s.is t (ENG_E_DBG_SEL_HIGH e) then uNat 32 (a / 2 ^ 32) else uNat 32 a
  else if 0x48 ≤ r ∧ r < 0x50 then x.pred (r - 0x48)
  else if r = 0x50 then x.pc
  else 0

/-- A write of DBG_DATA to the register it names (R259, R262). -/
def State.dbgWrite (s : State) (t e v : Nat) : State :=
  let r := s.rd t (ENG_E_DBG_SEL_REG e)
  let k := s.rd t (ENG_E_DBG_SEL_LANE e)
  let hi := s.is t (ENG_E_DBG_SEL_HIGH e)
  s.updEng t e fun x =>
    if r < 0x10 then x.setS r v
    else if 0x20 ≤ r ∧ r < 0x40 then x.setV (r - 0x20) (· == k) fun _ => v
    else if 0x40 ≤ r ∧ r < 0x44 then
      let a := uNat 48 (x.accLane (r - 0x40) k)
      x.setAcc (r - 0x40) (· == k) fun _ => if hi then ((a % 2 ^ 32 + 2 ^ 32 * (v % 2 ^ 16) : Nat) : Int) else ((a / 2 ^ 32 * 2 ^ 32 + v % 2 ^ 32 : Nat) : Int)
    else if 0x48 ≤ r ∧ r < 0x50 then x.setP (r - 0x48) v
    else if r = 0x50 then { x with pc := v % 2048 }
    else x

/-- The program store of an engine holds a sealed granule (R452). -/
def State.progSealed (s : State) (t e : Nat) : Bool :=
  s.lcs.seals.any fun g => decide (progAddr t e 0 ≤ 64 * g) && decide (64 * g < progAddr t e 2048)

/-- A DBG_DATA access (R259, R260, R452): refused while the engine runs, where debug is closed, and for reads beside sealed programs. -/
def State.dbgData (s : State) (o : Origin) (t e : Nat) (w : Option Nat) : Option Nat × State :=
  if !s.debugOpen o then (none, s.lcsRefuse o t (ENG_E_DBG_DATA e) w.isSome)
  else if !(s.engOf t e).halted then (none, s.refuse o t (ENG_E_DBG_DATA e) w.isSome)
  else
    match w with
    | some v => (none, s.dbgWrite t e v)
    | none => if s.inField && s.progSealed t e then (none, s.lcsRefuse o t (ENG_E_DBG_DATA e) false) else (some (s.dbgRead t e), s)

/-- DBG_DATA: an access to the debug data register (R259). -/
def execDbgData (o : Origin) (e : EngineId) (w : Option (BitVec 32)) (s : State) : Answer :=
  onTile s e.tile fun s => (s.dbgData o e.tile e.t (w.map (·.toNat))).2

/-! The configuration rule (R261). -/

/-- CLASS of an engine instance. -/
def State.instClass (s : State) (b t i : Nat) : Nat := s.rdB b t (ENG_INST_CFG_CLASS i)
/-- GROUP of an engine instance. -/
def State.instGroup (s : State) (b t i : Nat) : Nat := s.rdB b t (ENG_INST_CFG_GROUP i)

/-- A destination of R249 exists. -/
def dstOk (d : Nat) : Bool := decide (d ≤ 1) || dstItems d || (decide (0x30 ≤ d) && decide (d ≤ 0x3F)) || d == 0x40

/-- An engine breaks R261. -/
def State.engBad (s : State) (b t e : Nat) : Bool :=
  let l := s.rdB b t (ENG_E_LOCAL_BASE e)
  l % 64 != 0 || decide (40960 < l) || !srcOk (s.engSrc b t e 0) || !srcOk (s.engSrc b t e 1) || !dstOk (s.rdB b t (ENG_E_OUT_DST e))

/-- The instance breaks R261: it is blind in every band. -/
def State.instBad (s : State) (b t i : Nat) : Bool :=
  let k := s.instClass b t i
  s.rdB b t (ENG_INST_CFG_EN i) == 0 || k == 0 || k == 1 || (s.instEngs b t i).any fun e => s.engBad b t e

/-- The instance exists: it is enabled, or an enabled engine names it. -/
def State.instUsed (s : State) (b t i : Nat) : Bool := s.rdB b t (ENG_INST_CFG_EN i) != 0 || !(s.instEngs b t i).isEmpty

/-- Broken instances of bank `b` are flagged as the structure takes effect (R261). -/
def State.engCheck (s : State) (b : Nat) : State :=
  s.eachTile fun t s => s.setIf ((List.range 32).any fun i => s.instUsed b t i && s.instBad b t i) t ENG_ERR_CFG_INVALID

/-! Runs, swaps and counters. -/

/-- Every engine assigned at RUN starts with band 0. -/
def State.engRunStart (s : State) : State :=
  s.updEngs fun x => { x with
    engs := (x.engs.map fun (k, y) => (k, { y with next := 0, floor := 0, done := [], missed := none, fifo0 := [], fifo1 := [], way0 := [], way1 := [], skip0 := none, skip1 := none, out := [], part := false, taken := [] })).filter
      fun (_, y) => decide (y ≠ EngState.idle)
    marks := [], due := [], serves := [] }

/-- ENG_CLR (R262). -/
def State.engClr (s : State) (t : Nat) : State :=
  (List.range 128).foldl (fun s e => (s.clrCount t (ENG_E_IN_LOST e)).clrF t (ENG_E_CYCLES_MAX e)) s

/-- ENG_CLR_COUNTERS (R262). -/
def execEngClrCounters (t : Tile) (s : State) : Answer := onTile s t fun s => s.engClr t

end Sys2Proof.Machine
end

