-- ==== Sys2Proof/Machine/Operands.lean ====
section
/-! DEFINITION. Operand forms of the engine instructions: lanes as the M field reads them, narrowing, predicated lanes and store
addresses (R238, R251, R253). -/

namespace Sys2Proof.Machine

/-! Lanes (R253). -/

/-- A 24-bit lane as a number: unsigned under M 2, else signed. -/
def laneVal (m v : Nat) : Int := if m = 2 then (v : Int) else sInt 24 v

/-- Narrowing of an exact result shifted right by `k` to 24 bits (R253). -/
def narrow (m : Nat) (x : Int) (k : Nat) : Nat :=
  match m with
  | 0 => uNat 24 (x / 2 ^ k)
  | 1 => uNat 24 (satS 24 (roundShr x k))
  | _ => uNat 24 (satU 24 (roundShr x k))

/-- An accumulator sum: it wraps under M 0 and saturates at the signed 48-bit limits otherwise (R253). -/
def accNarrow (m : Nat) (x : Int) : Int := if m = 0 then sInt 48 (uNat 48 x) else satS 48 x

/-- The lanes that take part (R253). -/
def EngState.laneOn (x : EngState) (p : Bool) (pg k : Nat) : Bool := !p || (x.pred pg).testBit k

/-- A scalar register as a signed number. -/
def EngState.sregS (x : EngState) (r : Nat) : Int := sInt 32 (x.sreg r)

/-- A vector of 16 lanes as 48 bytes (R238). -/
def laneBytes (l : List Nat) : Bytes := l.flatMap (leBytes 3)

/-- A 32-bit word and the byte address of a scalar or vector access in the data store of an engine, none where it faults (R238). -/
def EngState.dataRef (x : EngState) (t e a : Nat) (ofs : Int) (len : Nat) : Option Nat :=
  (storeOfs 40960 (x.sreg a) ofs len).map (dataAddr t e)

/-- The byte address of an access to the engine's cluster memory, none where it faults (R238, R239). -/
def EngState.clusterRef (x : EngState) (t e a : Nat) (ofs : Int) (len : Nat) : Option Nat :=
  (storeOfs 524288 (x.sreg a) ofs len).map (clusterAddr t e)

/-- The state with scalar register `r` of an engine written. -/
def State.putS (s : State) (t e r v : Nat) : State := s.updEng t e fun x => x.setS r v

/-- The state with the lanes of a vector register that take part written. -/
def State.putV (s : State) (t e r : Nat) (on : Nat → Bool) (f : Nat → Nat) : State := s.updEng t e fun x => x.setV r on f

end Sys2Proof.Machine
end

