-- ==== Sys2Proof/Machine/Flags.lean ====
section
/-! DEFINITION. Conditions, predicates and reductions of the engine instructions (R253, R254). The block has no processor status register:
these are its comparison results. -/

namespace Sys2Proof.Machine

/-- The condition of VCMP by k[2:0] (R254). -/
def laneCond (c : Nat) (a b : Int) : Bool :=
  match c with
  | 0 => decide (a = b)
  | 1 => decide (a ≠ b)
  | 2 => decide (a < b)
  | 3 => decide (a ≤ b)
  | 4 => decide (b < a)
  | _ => decide (b ≤ a)

/-- The predicate of a lane-wise test: 0 for lanes that take no part (R253). -/
def predOf (on test : Nat → Bool) : Nat := ofOnes ((List.range 16).filter fun k => on k && test k)

/-- PLOG's operation by k[1:0] (R254). -/
def predOp (op a b : Nat) : Nat :=
  match op with
  | 0 => a &&& b
  | 1 => a ||| b
  | 2 => a ^^^ b
  | _ => a &&& (0xFFFF ^^^ b)

/-- The least of a list of numbers. -/
def minI : List Int → Option Int
  | [] => none
  | x :: l => some (l.foldl min x)

/-- The greatest of a list of numbers. -/
def maxI : List Int → Option Int
  | [] => none
  | x :: l => some (l.foldl max x)

/-- Eight lanes sorted ascending (SORT8 of R254). -/
def sortLanes (m : Nat) (l : List Nat) : List Nat := sortBy (fun a b => decide (laneVal m a ≤ laneVal m b)) l

/-- DIV (R254): truncated toward 0; −2³¹ / −1 wraps to −2³¹; 0 for a divisor of 0. -/
def divS (a b : Int) : Nat := if b = 0 then 0 else uNat 32 (Int.tdiv a b)

end Sys2Proof.Machine
end

