-- ==== Sys2Proof/Machine/EngOps.lean ====
section
/-! DEFINITION. The engine instructions (R251 to R254), one operation for each row of R254 with its operands named, the decoder of
instruction words and the single step of R259. -/

namespace Sys2Proof.Machine

/-! Shared forms. -/

/-- A scalar instruction that writes `d` and goes on. -/
def resS (t e d : Nat) (f : EngState → Nat) (s : State) (x : EngState) : EngRes := .next (s.putS t e d (f x))

/-- A branch: the target is relative to the branch (R254). -/
def resBranch (c : EngState → Bool) (imm : BitVec 14) (s : State) (x : EngState) : EngRes :=
  if c x then .jump s (x.pc + imm.toInt) else .next s

/-- A lane-wise vector instruction that writes `d` where its lanes take part; M = 3 is illegal (R253). -/
def resV (t e d : Nat) (c : VCtl) (f : EngState → Nat → Nat) (s : State) (x : EngState) : EngRes :=
  if c.m = 3 then .fault 1 else .next (s.putV t e d (x.laneOn c.p c.pg) (f x))

/-- A vector instruction that writes a scalar. -/
def resVS (t e d : Nat) (c : VCtl) (f : EngState → Nat) (s : State) (x : EngState) : EngRes :=
  if c.m = 3 then .fault 1 else .next (s.putS t e d (f x))

/-- The word at an address of a store. -/
def resLoad (t e d code : Nat) (a : Option Nat) (s : State) : EngRes :=
  match a with
  | some a => .next (s.putS t e d (s.memLE a 4))
  | none => .fault code

/-- A word stored at an address. -/
def resStore (v code : Nat) (a : Option Nat) (s : State) : EngRes :=
  match a with
  | some a => .next (s.setBytes a (leBytes 4 v))
  | none => .fault code

/-- The 16 lanes of 48 bytes loaded into a vector register (R238). -/
def resLoadV (t e v code : Nat) (a : Option Nat) (s : State) : EngRes :=
  match a with
  | some a => .next (s.putV t e v (fun _ => true) fun k => s.memLE (a + 3 * k) 3)
  | none => .fault code

/-- A vector register stored as 48 bytes (R238). -/
def resStoreV (v code : Nat) (a : Option Nat) (s : State) (x : EngState) : EngRes :=
  match a with
  | some a => .next (s.setBytes a (laneBytes (x.lanes v)))
  | none => .fault code

/-- A stream instruction runs in BAND entries alone (R255). -/
def resStream (r : State → EngState → EngRes) (s : State) (x : EngState) : EngRes := if x.run = 2 then r s x else .fault 6

/-- A read of a port whose SRC names no source stalls and sets CFG_INVALID (R247). -/
def State.badSource (s : State) (t e b port : Nat) : State := s.setIf (!srcOk (s.engSrc b t e port)) t (ENG_E_ERR_CFG_INVALID e)

/-- An entry given to the output port; it waits while the port's FIFO is full (R246). -/
def resOut (t e : Nat) (y : FifoEntry) (s : State) : EngRes :=
  match s.engOut t e y with
  | some s => .next s
  | none => .wait s 2

/-! The instructions. -/

/-- ADD. -/
def opAdd (t e : Nat) (d : SReg) (a : SReg) (b : SReg) : State → EngState → EngRes :=
  resS t e d fun x => x.sreg a + x.sreg b

/-- ADD as a command (R254). -/
def execEngAdd (e : EngineId) (d : SReg) (a : SReg) (b : SReg) (s : State) : Answer :=
  engAnswer e (opAdd e.tile e.t d a b) s

/-- SUB. -/
def opSub (t e : Nat) (d : SReg) (a : SReg) (b : SReg) : State → EngState → EngRes :=
  resS t e d fun x => x.sreg a + (2 ^ 32 - x.sreg b)

/-- SUB as a command (R254). -/
def execEngSub (e : EngineId) (d : SReg) (a : SReg) (b : SReg) (s : State) : Answer :=
  engAnswer e (opSub e.tile e.t d a b) s

/-- AND. -/
def opAnd (t e : Nat) (d : SReg) (a : SReg) (b : SReg) : State → EngState → EngRes :=
  resS t e d fun x => x.sreg a &&& x.sreg b

/-- AND as a command (R254). -/
def execEngAnd (e : EngineId) (d : SReg) (a : SReg) (b : SReg) (s : State) : Answer :=
  engAnswer e (opAnd e.tile e.t d a b) s

/-- OR. -/
def opOr (t e : Nat) (d : SReg) (a : SReg) (b : SReg) : State → EngState → EngRes :=
  resS t e d fun x => x.sreg a ||| x.sreg b

/-- OR as a command (R254). -/
def execEngOr (e : EngineId) (d : SReg) (a : SReg) (b : SReg) (s : State) : Answer :=
  engAnswer e (opOr e.tile e.t d a b) s

/-- XOR. -/
def opXor (t e : Nat) (d : SReg) (a : SReg) (b : SReg) : State → EngState → EngRes :=
  resS t e d fun x => x.sreg a ^^^ x.sreg b

/-- XOR as a command (R254). -/
def execEngXor (e : EngineId) (d : SReg) (a : SReg) (b : SReg) (s : State) : Answer :=
  engAnswer e (opXor e.tile e.t d a b) s

/-- SHL. -/
def opShl (t e : Nat) (d : SReg) (a : SReg) (b : SReg) : State → EngState → EngRes :=
  resS t e d fun x => x.sreg a <<< (x.sreg b % 32)

/-- SHL as a command (R254). -/
def execEngShl (e : EngineId) (d : SReg) (a : SReg) (b : SReg) (s : State) : Answer :=
  engAnswer e (opShl e.tile e.t d a b) s

/-- SHR. -/
def opShr (t e : Nat) (d : SReg) (a : SReg) (b : SReg) : State → EngState → EngRes :=
  resS t e d fun x => x.sreg a >>> (x.sreg b % 32)

/-- SHR as a command (R254). -/
def execEngShr (e : EngineId) (d : SReg) (a : SReg) (b : SReg) (s : State) : Answer :=
  engAnswer e (opShr e.tile e.t d a b) s

/-- SRA. -/
def opSra (t e : Nat) (d : SReg) (a : SReg) (b : SReg) : State → EngState → EngRes :=
  resS t e d fun x => uNat 32 (x.sregS a / 2 ^ (x.sreg b % 32))

/-- SRA as a command (R254). -/
def execEngSra (e : EngineId) (d : SReg) (a : SReg) (b : SReg) (s : State) : Answer :=
  engAnswer e (opSra e.tile e.t d a b) s

/-- MUL. -/
def opMul (t e : Nat) (d : SReg) (a : SReg) (b : SReg) : State → EngState → EngRes :=
  resS t e d fun x => uNat 32 (x.sregS a * x.sregS b)

/-- MUL as a command (R254). -/
def execEngMul (e : EngineId) (d : SReg) (a : SReg) (b : SReg) (s : State) : Answer :=
  engAnswer e (opMul e.tile e.t d a b) s

/-- MULH. -/
def opMulh (t e : Nat) (d : SReg) (a : SReg) (b : SReg) : State → EngState → EngRes :=
  resS t e d fun x => uNat 32 (x.sregS a * x.sregS b / 2 ^ 32)

/-- MULH as a command (R254). -/
def execEngMulh (e : EngineId) (d : SReg) (a : SReg) (b : SReg) (s : State) : Answer :=
  engAnswer e (opMulh e.tile e.t d a b) s

/-- DIV: a divisor of 0 sets DIV0. -/
def opDiv (t e : Nat) (d : SReg) (a : SReg) (b : SReg) : State → EngState → EngRes :=
  fun s x =>
  .next ((s.setIf (x.sreg b == 0) t (ENG_E_ERR_DIV0 e)).putS t e d (divS (x.sregS a) (x.sregS b)))

/-- DIV as a command (R254). -/
def execEngDiv (e : EngineId) (d : SReg) (a : SReg) (b : SReg) (s : State) : Answer :=
  engAnswer e (opDiv e.tile e.t d a b) s

/-- SLT. -/
def opSlt (t e : Nat) (d : SReg) (a : SReg) (b : SReg) : State → EngState → EngRes :=
  resS t e d fun x => bitN (decide (x.sregS a < x.sregS b))

/-- SLT as a command (R254). -/
def execEngSlt (e : EngineId) (d : SReg) (a : SReg) (b : SReg) (s : State) : Answer :=
  engAnswer e (opSlt e.tile e.t d a b) s

/-- SLTU. -/
def opSltu (t e : Nat) (d : SReg) (a : SReg) (b : SReg) : State → EngState → EngRes :=
  resS t e d fun x => bitN (decide (x.sreg a < x.sreg b))

/-- SLTU as a command (R254). -/
def execEngSltu (e : EngineId) (d : SReg) (a : SReg) (b : SReg) (s : State) : Answer :=
  engAnswer e (opSltu e.tile e.t d a b) s

/-- ADDI. -/
def opAddi (t e : Nat) (d : SReg) (a : SReg) (imm : BitVec 18) : State → EngState → EngRes :=
  resS t e d fun x => uNat 32 (x.sreg a + imm.toInt)

/-- ADDI as a command (R254). -/
def execEngAddi (e : EngineId) (d : SReg) (a : SReg) (imm : BitVec 18) (s : State) : Answer :=
  engAnswer e (opAddi e.tile e.t d a imm) s

/-- ANDI. -/
def opAndi (t e : Nat) (d : SReg) (a : SReg) (imm : BitVec 18) : State → EngState → EngRes :=
  resS t e d fun x => x.sreg a &&& imm.toNat

/-- ANDI as a command (R254). -/
def execEngAndi (e : EngineId) (d : SReg) (a : SReg) (imm : BitVec 18) (s : State) : Answer :=
  engAnswer e (opAndi e.tile e.t d a imm) s

/-- ORI. -/
def opOri (t e : Nat) (d : SReg) (a : SReg) (imm : BitVec 18) : State → EngState → EngRes :=
  resS t e d fun x => x.sreg a ||| imm.toNat

/-- ORI as a command (R254). -/
def execEngOri (e : EngineId) (d : SReg) (a : SReg) (imm : BitVec 18) (s : State) : Answer :=
  engAnswer e (opOri e.tile e.t d a imm) s

/-- LUI. -/
def opLui (t e : Nat) (d : SReg) (imm : BitVec 18) : State → EngState → EngRes :=
  resS t e d fun _ => imm.toNat <<< 14

/-- LUI as a command (R254). -/
def execEngLui (e : EngineId) (d : SReg) (imm : BitVec 18) (s : State) : Answer :=
  engAnswer e (opLui e.tile e.t d imm) s

/-- BEQ. -/
def opBeq (a : SReg) (b : SReg) (imm : BitVec 14) : State → EngState → EngRes :=
  resBranch (fun x => x.sreg a == x.sreg b) imm

/-- BEQ as a command (R254). -/
def execEngBeq (e : EngineId) (a : SReg) (b : SReg) (imm : BitVec 14) (s : State) : Answer :=
  engAnswer e (opBeq a b imm) s

/-- BNE. -/
def opBne (a : SReg) (b : SReg) (imm : BitVec 14) : State → EngState → EngRes :=
  resBranch (fun x => x.sreg a != x.sreg b) imm

/-- BNE as a command (R254). -/
def execEngBne (e : EngineId) (a : SReg) (b : SReg) (imm : BitVec 14) (s : State) : Answer :=
  engAnswer e (opBne a b imm) s

/-- BLT. -/
def opBlt (a : SReg) (b : SReg) (imm : BitVec 14) : State → EngState → EngRes :=
  resBranch (fun x => decide (x.sregS a < x.sregS b)) imm

/-- BLT as a command (R254). -/
def execEngBlt (e : EngineId) (a : SReg) (b : SReg) (imm : BitVec 14) (s : State) : Answer :=
  engAnswer e (opBlt a b imm) s

/-- BGE. -/
def opBge (a : SReg) (b : SReg) (imm : BitVec 14) : State → EngState → EngRes :=
  resBranch (fun x => decide (x.sregS b ≤ x.sregS a)) imm

/-- BGE as a command (R254). -/
def execEngBge (e : EngineId) (a : SReg) (b : SReg) (imm : BitVec 14) (s : State) : Answer :=
  engAnswer e (opBge a b imm) s

/-- JMP. -/
def opJmp (target : BitVec 11) : State → EngState → EngRes :=
  fun s _ => .jump s target.toNat

/-- JMP as a command (R254). -/
def execEngJmp (e : EngineId) (target : BitVec 11) (s : State) : Answer :=
  engAnswer e (opJmp target) s

/-- JAL. -/
def opJal (t e : Nat) (target : BitVec 11) : State → EngState → EngRes :=
  fun s x => .jump (s.putS t e 15 (x.pc + 1)) target.toNat

/-- JAL as a command (R254). -/
def execEngJal (e : EngineId) (target : BitVec 11) (s : State) : Answer :=
  engAnswer e (opJal e.tile e.t target) s

/-- JR. -/
def opJr (a : SReg) : State → EngState → EngRes :=
  fun s x => .jump s ((x.sreg a % 2048 : Nat) : Int)

/-- JR as a command (R254). -/
def execEngJr (e : EngineId) (a : SReg) (s : State) : Answer :=
  engAnswer e (opJr a) s

/-- BEND: a band mark is consumed and the branch taken. -/
def opBend (t e : Nat) (port : Fin 2) (target : BitVec 11) : State → EngState → EngRes :=
  resStream fun s x =>
  match x.fifo port with
  | [] => .wait (s.badSource t e x.bank port) 1
  | .mark _ :: l => .jump (s.updEng t e fun y => y.setFifo port l) target.toNat
  | _ => .next s

/-- BEND as a command (R254). -/
def execEngBend (e : EngineId) (port : Fin 2) (target : BitVec 11) (s : State) : Answer :=
  engAnswer e (opBend e.tile e.t port target) s

/-- DONE ends the entry (R241). -/
def opDone : State → EngState → EngRes :=
  fun _ _ => .done

/-- DONE ends the entry as a command (R254); one that retires in the cycle in which HALT is written takes effect before the engine halts (R258). -/
def execEngDone (e : EngineId) (s : State) : Answer :=
  let x := s.engOf e.tile e.t
  if x.halted && x.haltTb0 == some s.tim.tb0 && { x with halted := false }.issues then
    whenEv s (s.fit e.tile && s.locked e.tile .core) fun s => s.engRun e.tile e.t (opDone)
  else engAnswer e (opDone) s

/-- NOP. -/
def opNop : State → EngState → EngRes :=
  fun s _ => .next s

/-- NOP as a command (R254). -/
def execEngNop (e : EngineId) (s : State) : Answer :=
  engAnswer e (opNop) s

/-- LDS. -/
def opLds (t e : Nat) (d : SReg) (a : SReg) (imm : BitVec 18) : State → EngState → EngRes :=
  fun s x => resLoad t e d 2 (x.dataRef t e a imm.toInt 4) s

/-- LDS as a command (R254). -/
def execEngLds (e : EngineId) (d : SReg) (a : SReg) (imm : BitVec 18) (s : State) : Answer :=
  engAnswer e (opLds e.tile e.t d a imm) s

/-- STS. -/
def opSts (t e : Nat) (d : SReg) (a : SReg) (imm : BitVec 18) : State → EngState → EngRes :=
  fun s x => resStore (x.sreg d) 2 (x.dataRef t e a imm.toInt 4) s

/-- STS as a command (R254). -/
def execEngSts (e : EngineId) (d : SReg) (a : SReg) (imm : BitVec 18) (s : State) : Answer :=
  engAnswer e (opSts e.tile e.t d a imm) s

/-- LDC (R239). -/
def opLdc (t e : Nat) (d : SReg) (a : SReg) (imm : BitVec 18) : State → EngState → EngRes :=
  fun s x => resLoad t e d 3 (x.clusterRef t e a imm.toInt 4) s

/-- LDC as a command (R254). -/
def execEngLdc (e : EngineId) (d : SReg) (a : SReg) (imm : BitVec 18) (s : State) : Answer :=
  engAnswer e (opLdc e.tile e.t d a imm) s

/-- STC (R239). -/
def opStc (t e : Nat) (d : SReg) (a : SReg) (imm : BitVec 18) : State → EngState → EngRes :=
  fun s x => resStore (x.sreg d) 3 (x.clusterRef t e a imm.toInt 4) s

/-- STC as a command (R254). -/
def execEngStc (e : EngineId) (d : SReg) (a : SReg) (imm : BitVec 18) (s : State) : Answer :=
  engAnswer e (opStc e.tile e.t d a imm) s

/-- PIP: the cluster source line n (R257, R361). -/
def opPip (t e : Nat) (n : Fin 4) : State → EngState → EngRes :=
  fun s _ => .next (s.pip t (184 + 4 * (e / 16) + n))

/-- PIP as a command (R254). -/
def execEngPip (e : EngineId) (n : Fin 4) (s : State) : Answer :=
  engAnswer e (opPip e.tile e.t n) s

/-- WAITP (R257). -/
def opWaitp (t e : Nat) (n : Fin 4) : State → EngState → EngRes :=
  fun s x =>
  if x.latches.testBit n then .next (s.updEng t e fun y => { y with latches := y.latches &&& (15 ^^^ 2 ^ n.val) }) else .wait s 4

/-- WAITP as a command (R254). -/
def execEngWaitp (e : EngineId) (n : Fin 4) (s : State) : Answer :=
  engAnswer e (opWaitp e.tile e.t n) s

/-- BAR: an engine outside the mask of its entry's job does not wait (R256, R264). -/
def opBar (t e : Nat) : State → EngState → EngRes :=
  fun s x =>
  if (s.rdB x.bank t (ENG_CL_BAR_MASK (e / 16))).testBit (e % 16) then .bar else .next s

/-- BAR as a command (R254). -/
def execEngBar (e : EngineId) (s : State) : Answer :=
  engAnswer e (opBar e.tile e.t) s

/-- SRDS; the END of a lost item carries no data: its word is a free value (log 224). -/
def opSrds (t e : Nat) (d : SReg) (b : SReg) (port : Fin 2) : State → EngState → EngRes :=
  resStream fun s x =>
  if srcBeats (s.engSrc x.bank t e port) then .fault 5 else
  match x.fifo port with
  | [] => .wait (s.badSource t e x.bank port) 1
  | .mark _ :: _ => .next ((s.putS t e d 0xFFFFFFFF).putS t e b 0xFFFFFFFF)
  | .beat _ _ _ :: _ => .fault 5
  | .lost _ :: l =>
    let (f, s) := s.fresh
    .next (((s.updEng t e fun y => y.setFifo port l).putS t e d f).putS t e b 1)
  | .word _ w last :: l => .next (((s.updEng t e fun y => y.setFifo port l).putS t e d w).putS t e b (bitN last))

/-- SRDS as a command (R254). -/
def execEngSrds (e : EngineId) (d : SReg) (b : SReg) (port : Fin 2) (s : State) : Answer :=
  engAnswer e (opSrds e.tile e.t d b port) s

/-- SWRS. -/
def opSwrs (t e : Nat) (a : SReg) (last : Bool) : State → EngState → EngRes :=
  resStream fun s x => resOut t e (.word x.band (x.sreg a) last) s

/-- SWRS as a command (R254). -/
def execEngSwrs (e : EngineId) (a : SReg) (last : Bool) (s : State) : Answer :=
  engAnswer e (opSwrs e.tile e.t a last) s

/-- VLD. -/
def opVld (t e : Nat) (v : VReg) (a : SReg) (imm : BitVec 17) : State → EngState → EngRes :=
  fun s x => resLoadV t e v 2 (x.dataRef t e a imm.toInt 48) s

/-- VLD as a command (R254). -/
def execEngVld (e : EngineId) (v : VReg) (a : SReg) (imm : BitVec 17) (s : State) : Answer :=
  engAnswer e (opVld e.tile e.t v a imm) s

/-- VLDC. -/
def opVldc (t e : Nat) (v : VReg) (a : SReg) (imm : BitVec 17) : State → EngState → EngRes :=
  fun s x => resLoadV t e v 3 (x.clusterRef t e a imm.toInt 48) s

/-- VLDC as a command (R254). -/
def execEngVldc (e : EngineId) (v : VReg) (a : SReg) (imm : BitVec 17) (s : State) : Answer :=
  engAnswer e (opVldc e.tile e.t v a imm) s

/-- VST. -/
def opVst (t e : Nat) (v : VReg) (a : SReg) (imm : BitVec 17) : State → EngState → EngRes :=
  fun s x => resStoreV v 2 (x.dataRef t e a imm.toInt 48) s x

/-- VST as a command (R254). -/
def execEngVst (e : EngineId) (v : VReg) (a : SReg) (imm : BitVec 17) (s : State) : Answer :=
  engAnswer e (opVst e.tile e.t v a imm) s

/-- VSTC. -/
def opVstc (t e : Nat) (v : VReg) (a : SReg) (imm : BitVec 17) : State → EngState → EngRes :=
  fun s x => resStoreV v 3 (x.clusterRef t e a imm.toInt 48) s x

/-- VSTC as a command (R254). -/
def execEngVstc (e : EngineId) (v : VReg) (a : SReg) (imm : BitVec 17) (s : State) : Answer :=
  engAnswer e (opVstc e.tile e.t v a imm) s

/-- A beat is read from a port, which `rest` is left of: its lanes, and END to the predicate with P = 1 (R254). -/
def State.takeBeat (s : State) (t e : Nat) (d : VReg) (x : VCtl) (port : Nat) (rest : List FifoEntry) (last : Bool) (f : Nat → Nat) : State :=
  s.updEng t e fun z =>
    let z := (z.setFifo port rest).setV d (fun _ => true) f
    if x.p then z.setP x.pg (if last then 0xFFFF else 0) else z

/-- SRDV: with P = 1 the predicate takes END; the END of a lost item carries no data: its lanes are free values (log 224). -/
def opSrdv (t e : Nat) (d : VReg) (x : VCtl) : State → EngState → EngRes :=
  resStream fun s y =>
  if x.m = 3 then .fault 1 else
  let port := x.k.val % 2
  if srcWords (s.engSrc y.bank t e port) then .fault 5 else
  match y.fifo port with
  | [] => .wait (s.badSource t e y.bank port) 1
  | .mark _ :: _ => .next s
  | .word _ _ _ :: _ => .fault 5
  | .beat _ ls last :: l => .next (s.takeBeat t e d x port l last fun k => ls.getD k 0)
  | .lost _ :: l =>
    let (f, s) := s.fresh
    .next (s.takeBeat t e d x port l true fun k => f / 2 ^ (24 * k))

/-- SRDV as a command (R254). -/
def execEngSrdv (e : EngineId) (d : VReg) (x : VCtl) (s : State) : Answer :=
  engAnswer e (opSrdv e.tile e.t d x) s

/-- SWRV. -/
def opSwrv (t e : Nat) (a : VReg) (x : VCtl) : State → EngState → EngRes :=
  resStream fun s y =>
  if x.m = 3 then .fault 1 else resOut t e (.beat y.band (y.lanes a) (x.k.val % 2 == 1)) s

/-- SWRV as a command (R254). -/
def execEngSwrv (e : EngineId) (a : VReg) (x : VCtl) (s : State) : Answer :=
  engAnswer e (opSwrv e.tile e.t a x) s

/-- VADD. -/
def opVadd (t e : Nat) (d : VReg) (a : VReg) (b : VReg) (x : VCtl) : State → EngState → EngRes :=
  resV t e d x fun y k => narrow x.m ((laneVal x.m (y.lane a k)) + (laneVal x.m (y.lane b k))) 0

/-- VADD as a command (R254). -/
def execEngVadd (e : EngineId) (d : VReg) (a : VReg) (b : VReg) (x : VCtl) (s : State) : Answer :=
  engAnswer e (opVadd e.tile e.t d a b x) s

/-- VSUB. -/
def opVsub (t e : Nat) (d : VReg) (a : VReg) (b : VReg) (x : VCtl) : State → EngState → EngRes :=
  resV t e d x fun y k => narrow x.m ((laneVal x.m (y.lane a k)) - (laneVal x.m (y.lane b k))) 0

/-- VSUB as a command (R254). -/
def execEngVsub (e : EngineId) (d : VReg) (a : VReg) (b : VReg) (x : VCtl) (s : State) : Answer :=
  engAnswer e (opVsub e.tile e.t d a b x) s

/-- VMUL. -/
def opVmul (t e : Nat) (d : VReg) (a : VReg) (b : VReg) (x : VCtl) : State → EngState → EngRes :=
  resV t e d x fun y k => narrow x.m ((laneVal x.m (y.lane a k)) * (laneVal x.m (y.lane b k))) x.k

/-- VMUL as a command (R254). -/
def execEngVmul (e : EngineId) (d : VReg) (a : VReg) (b : VReg) (x : VCtl) (s : State) : Answer :=
  engAnswer e (opVmul e.tile e.t d a b x) s

/-- VMAC. -/
def opVmac (t e : Nat) (d : AccReg) (a : VReg) (b : VReg) (x : VCtl) : State → EngState → EngRes :=
  fun s y =>
  if x.m = 3 then .fault 1 else
  .next (s.updEng t e fun z => z.setAcc d (y.laneOn x.p x.pg) fun k =>
    accNarrow x.m (y.accLane d k + laneVal x.m (y.lane a k) * laneVal x.m (y.lane b k)))

/-- VMAC as a command (R254). -/
def execEngVmac (e : EngineId) (d : AccReg) (a : VReg) (b : VReg) (x : VCtl) (s : State) : Answer :=
  engAnswer e (opVmac e.tile e.t d a b x) s

/-- VMIN. -/
def opVmin (t e : Nat) (d : VReg) (a : VReg) (b : VReg) (x : VCtl) : State → EngState → EngRes :=
  resV t e d x fun y k => uNat 24 (min (laneVal x.m (y.lane a k)) (laneVal x.m (y.lane b k)))

/-- VMIN as a command (R254). -/
def execEngVmin (e : EngineId) (d : VReg) (a : VReg) (b : VReg) (x : VCtl) (s : State) : Answer :=
  engAnswer e (opVmin e.tile e.t d a b x) s

/-- VMAX. -/
def opVmax (t e : Nat) (d : VReg) (a : VReg) (b : VReg) (x : VCtl) : State → EngState → EngRes :=
  resV t e d x fun y k => uNat 24 (max (laneVal x.m (y.lane a k)) (laneVal x.m (y.lane b k)))

/-- VMAX as a command (R254). -/
def execEngVmax (e : EngineId) (d : VReg) (a : VReg) (b : VReg) (x : VCtl) (s : State) : Answer :=
  engAnswer e (opVmax e.tile e.t d a b x) s

/-- VABSD. -/
def opVabsd (t e : Nat) (d : VReg) (a : VReg) (b : VReg) (x : VCtl) : State → EngState → EngRes :=
  resV t e d x fun y k => narrow x.m (((laneVal x.m (y.lane a k)) - (laneVal x.m (y.lane b k))).natAbs : Int) 0

/-- VABSD as a command (R254). -/
def execEngVabsd (e : EngineId) (d : VReg) (a : VReg) (b : VReg) (x : VCtl) (s : State) : Answer :=
  engAnswer e (opVabsd e.tile e.t d a b x) s

/-- VSHL. -/
def opVshl (t e : Nat) (d : VReg) (a : VReg) (x : VCtl) : State → EngState → EngRes :=
  resV t e d x fun y k => narrow x.m ((laneVal x.m (y.lane a k)) * 2 ^ x.k.val) 0

/-- VSHL as a command (R254). -/
def execEngVshl (e : EngineId) (d : VReg) (a : VReg) (x : VCtl) (s : State) : Answer :=
  engAnswer e (opVshl e.tile e.t d a x) s

/-- VSHR. -/
def opVshr (t e : Nat) (d : VReg) (a : VReg) (x : VCtl) : State → EngState → EngRes :=
  resV t e d x fun y k => narrow x.m (laneVal x.m (y.lane a k)) x.k

/-- VSHR as a command (R254). -/
def execEngVshr (e : EngineId) (d : VReg) (a : VReg) (x : VCtl) (s : State) : Answer :=
  engAnswer e (opVshr e.tile e.t d a x) s

/-- VSAT: M 0 is illegal. -/
def opVsat (t e : Nat) (d : VReg) (a : VReg) (x : VCtl) : State → EngState → EngRes :=
  fun s y =>
  if x.m = 0 then .fault 1 else
  resV t e d x (fun y k =>
    let v := (laneVal x.m (y.lane a k))
    uNat 24 (if x.m = 1 then satS (x.k.val + 1) v else satU (x.k.val + 1) v)) s y

/-- VSAT as a command (R254). -/
def execEngVsat (e : EngineId) (d : VReg) (a : VReg) (x : VCtl) (s : State) : Answer :=
  engAnswer e (opVsat e.tile e.t d a x) s

/-- VCMP: conditions 6 and 7 are illegal. -/
def opVcmp (t e : Nat) (d : PReg) (a : VReg) (b : VReg) (x : VCtl) : State → EngState → EngRes :=
  fun s y =>
  if x.m = 3 ∨ 5 < x.k.val % 8 then .fault 1 else
  .next (s.updEng t e fun z => z.setP d (predOf (y.laneOn x.p x.pg) fun k => laneCond (x.k.val % 8) (laneVal x.m (y.lane a k)) (laneVal x.m (y.lane b k))))

/-- VCMP as a command (R254). -/
def execEngVcmp (e : EngineId) (d : PReg) (a : VReg) (b : VReg) (x : VCtl) (s : State) : Answer :=
  engAnswer e (opVcmp e.tile e.t d a b x) s

/-- VSEL. -/
def opVsel (t e : Nat) (d : VReg) (a : VReg) (b : VReg) (x : VCtl) : State → EngState → EngRes :=
  fun s y =>
  if x.m = 3 then .fault 1 else
  .next (s.putV t e d (fun _ => true) fun k => if (y.pred x.pg).testBit k then y.lane a k else y.lane b k)

/-- VSEL as a command (R254). -/
def execEngVsel (e : EngineId) (d : VReg) (a : VReg) (b : VReg) (x : VCtl) (s : State) : Answer :=
  engAnswer e (opVsel e.tile e.t d a b x) s

/-- PLOG. -/
def opPlog (t e : Nat) (d : PReg) (a : PReg) (b : PReg) (x : VCtl) : State → EngState → EngRes :=
  fun s y =>
  if x.m = 3 then .fault 1 else .next (s.updEng t e fun z => z.setP d (predOp (x.k.val % 4) (y.pred a) (y.pred b)))

/-- PLOG as a command (R254). -/
def execEngPlog (e : EngineId) (d : PReg) (a : PReg) (b : PReg) (x : VCtl) (s : State) : Answer :=
  engAnswer e (opPlog e.tile e.t d a b x) s

/-- VSLIDE. -/
def opVslide (t e : Nat) (d : VReg) (a : VReg) (b : VReg) (x : VCtl) : State → EngState → EngRes :=
  fun s y =>
  if 15 < x.k.val then .fault 1 else
  resV t e d x (fun y k => if k + x.k.val < 16 then y.lane a (k + x.k.val) else y.lane b (k + x.k.val - 16)) s y

/-- VSLIDE as a command (R254). -/
def execEngVslide (e : EngineId) (d : VReg) (a : VReg) (b : VReg) (x : VCtl) (s : State) : Answer :=
  engAnswer e (opVslide e.tile e.t d a b x) s

/-- VBCAST. -/
def opVbcast (t e : Nat) (d : VReg) (a : VReg) (x : VCtl) : State → EngState → EngRes :=
  resV t e d x fun y _ => y.lane a (x.k.val % 16)

/-- VBCAST as a command (R254). -/
def execEngVbcast (e : EngineId) (d : VReg) (a : VReg) (x : VCtl) (s : State) : Answer :=
  engAnswer e (opVbcast e.tile e.t d a x) s

/-- VMOVS. -/
def opVmovs (t e : Nat) (d : VReg) (a : SReg) (x : VCtl) : State → EngState → EngRes :=
  resV t e d x fun y _ => y.sreg a % 2 ^ 24

/-- VMOVS as a command (R254). -/
def execEngVmovs (e : EngineId) (d : VReg) (a : SReg) (x : VCtl) (s : State) : Answer :=
  engAnswer e (opVmovs e.tile e.t d a x) s

/-- VEXT. -/
def opVext (t e : Nat) (d : SReg) (a : VReg) (x : VCtl) : State → EngState → EngRes :=
  resVS t e d x fun y => uNat 32 (sInt 24 (y.lane a (x.k.val % 16)))

/-- VEXT as a command (R254). -/
def execEngVext (e : EngineId) (d : SReg) (a : VReg) (x : VCtl) (s : State) : Answer :=
  engAnswer e (opVext e.tile e.t d a x) s

/-- VRED: k[1:0] of 3 is illegal; MIN and MAX over no lanes are free values (log 54). -/
def opVred (t e : Nat) (d : SReg) (a : VReg) (x : VCtl) : State → EngState → EngRes :=
  fun s y =>
  if x.m = 3 ∨ x.k.val % 4 = 3 then .fault 1 else
  let vs := ((List.range 16).filter (y.laneOn x.p x.pg)).map fun k => laneVal x.m (y.lane a k)
  let put (r : Option Int) : EngRes :=
    match r with
    | some v => .next (s.putS t e d (uNat 32 v))
    | none => let (f, s) := s.fresh; .next (s.putS t e d f)
  match x.k.val % 4 with
  | 0 => put (some (sumI vs))
  | 1 => put (minI vs)
  | _ => put (maxI vs)

/-- VRED as a command (R254). -/
def execEngVred (e : EngineId) (d : SReg) (a : VReg) (x : VCtl) (s : State) : Answer :=
  engAnswer e (opVred e.tile e.t d a x) s

/-- ACCOP CLR. -/
def opAccopClr (t e : Nat) (d : AccReg) (x : VCtl) : State → EngState → EngRes :=
  fun s y =>
  if x.m = 3 then .fault 1 else .next (s.updEng t e fun z => z.setAcc d (y.laneOn x.p x.pg) fun _ => 0)

/-- ACCOP CLR as a command (R254). -/
def execEngAccopClr (e : EngineId) (d : AccReg) (x : VCtl) (s : State) : Answer :=
  engAnswer e (opAccopClr e.tile e.t d x) s

/-- ACCOP RD. -/
def opAccopRd (t e : Nat) (d : VReg) (a : AccReg) (b : Fin 32) (x : VCtl) : State → EngState → EngRes :=
  resV t e d x fun y k => narrow x.m (y.accLane a k) b

/-- ACCOP RD as a command (R254). -/
def execEngAccopRd (e : EngineId) (d : VReg) (a : AccReg) (b : Fin 32) (x : VCtl) (s : State) : Answer :=
  engAnswer e (opAccopRd e.tile e.t d a b x) s

/-- ACCOP RED. -/
def opAccopRed (t e : Nat) (d : AccReg) (a : AccReg) (x : VCtl) : State → EngState → EngRes :=
  fun s y =>
  if x.m = 3 then .fault 1 else
  let v := satS 48 (sumI ((List.range 16).map (y.accLane a)))
  .next (s.updEng t e fun z => z.setAcc d (y.laneOn x.p x.pg) fun k => if k = 0 then v else 0)

/-- ACCOP RED as a command (R254). -/
def execEngAccopRed (e : EngineId) (d : AccReg) (a : AccReg) (x : VCtl) (s : State) : Answer :=
  engAnswer e (opAccopRed e.tile e.t d a x) s

/-- ACCOP XLO. -/
def opAccopXlo (t e : Nat) (d : SReg) (a : AccReg) (x : VCtl) : State → EngState → EngRes :=
  resVS t e d x fun y => uNat 32 (y.accLane a 0)

/-- ACCOP XLO as a command (R254). -/
def execEngAccopXlo (e : EngineId) (d : SReg) (a : AccReg) (x : VCtl) (s : State) : Answer :=
  engAnswer e (opAccopXlo e.tile e.t d a x) s

/-- ACCOP XHI. -/
def opAccopXhi (t e : Nat) (d : SReg) (a : AccReg) (x : VCtl) : State → EngState → EngRes :=
  resVS t e d x fun y => uNat 32 (y.accLane a 0 / 2 ^ 32)

/-- ACCOP XHI as a command (R254). -/
def execEngAccopXhi (e : EngineId) (d : SReg) (a : AccReg) (x : VCtl) (s : State) : Answer :=
  engAnswer e (opAccopXhi e.tile e.t d a x) s

/-- SORT8. -/
def opSort8 (t e : Nat) (d : VReg) (a : VReg) (x : VCtl) : State → EngState → EngRes :=
  resV t e d x fun y k =>
  let h := (y.lanes a).drop (k / 8 * 8)
  (sortLanes x.m (h.take 8)).getD (k % 8) 0

/-- SORT8 as a command (R254). -/
def execEngSort8 (e : EngineId) (d : VReg) (a : VReg) (x : VCtl) (s : State) : Answer :=
  engAnswer e (opSort8 e.tile e.t d a x) s

/-- HISTADD: va and scalar a are both named by field a, the scalar by its low 4 bits (R251, R254). -/
def opHistadd (t e : Nat) (a : VReg) (x : VCtl) : State → EngState → EngRes :=
  fun s y =>
  let d := a.val % 16
  if x.m = 3 then .fault 1 else
  let bins : List Nat := ((List.range 16).filter fun k => y.laneOn x.p x.pg k).map fun (k : Nat) => Nat.min 255 (y.lane a k >>> x.k.val)
  if bins.any fun (b : Nat) => (y.dataRef t e d ((4 * b : Nat) : Int) 4).isNone then .fault 2 else
  .next (bins.foldl (fun s (b : Nat) =>
    match y.dataRef t e d ((4 * b : Nat) : Int) 4 with
    | some q => s.setBytes q (leBytes 4 (s.memLE q 4 + 1))
    | none => s) s)

/-- HISTADD as a command (R254). -/
def execEngHistadd (e : EngineId) (a : VReg) (x : VCtl) (s : State) : Answer :=
  engAnswer e (opHistadd e.tile e.t a x) s

/-! Decoding (R251, R254). -/

/-- A register number of a field. -/
def finOf (n : Nat) (x : Nat) (h : 0 < n) : Fin n := ⟨x % n, Nat.mod_lt x h⟩

/-- The scalar register of a 4-bit field. -/
def fieldS (w lo : Nat) : SReg := finOf 16 (w >>> lo) (by decide)
/-- The vector register of a 5-bit field. -/
def fieldV (w lo : Nat) : VReg := finOf 32 (w >>> lo) (by decide)
/-- The predicate of a field. -/
def fieldP (w lo : Nat) : PReg := finOf 8 (w >>> lo) (by decide)
/-- The accumulator of a field. -/
def fieldA (w lo : Nat) : AccReg := finOf 4 (w >>> lo) (by decide)
/-- The control fields of a V-format instruction. -/
def fieldC (w : Nat) : VCtl := ⟨w.testBit 7, fieldP w 8, finOf 4 (w >>> 5) (by decide), finOf 32 w (by decide)⟩

/-- The operation of an instruction word of an engine; none for an illegal instruction (R254). Fields that must be 0 are not looked at
(log 56). -/
def engDecode (t e w : Nat) : Option (State → EngState → EngRes) :=
  let d := fieldS w 22
  let a := fieldS w 18
  let b := fieldS w 14
  let i14 := BitVec.ofNat 14 w
  let i17 := BitVec.ofNat 17 w
  let i18 := BitVec.ofNat 18 w
  let tg := BitVec.ofNat 11 w
  let jp : Fin 2 := finOf 2 (w >>> 25) (by decide)
  let mv := fieldV w 21
  let ms := fieldS w 17
  let va := fieldV w 16
  let vb := fieldV w 11
  let c := fieldC w
  match w / 2 ^ 26 % 64 with
  | 0x00 => some (opNop)
  | 0x01 => some (opAdd t e d a b)
  | 0x02 => some (opSub t e d a b)
  | 0x03 => some (opAnd t e d a b)
  | 0x04 => some (opOr t e d a b)
  | 0x05 => some (opXor t e d a b)
  | 0x06 => some (opShl t e d a b)
  | 0x07 => some (opShr t e d a b)
  | 0x08 => some (opSra t e d a b)
  | 0x09 => some (opMul t e d a b)
  | 0x0A => some (opMulh t e d a b)
  | 0x0B => some (opDiv t e d a b)
  | 0x0C => some (opSlt t e d a b)
  | 0x0D => some (opSltu t e d a b)
  | 0x0E => some (opAddi t e d a i18)
  | 0x0F => some (opAndi t e d a i18)
  | 0x10 => some (opOri t e d a i18)
  | 0x11 => some (opLui t e d i18)
  | 0x12 => some (opBeq a b i14)
  | 0x13 => some (opBne a b i14)
  | 0x14 => some (opBlt a b i14)
  | 0x15 => some (opBge a b i14)
  | 0x16 => some (opJmp tg)
  | 0x17 => some (opJal t e tg)
  | 0x18 => some (opJr a)
  | 0x19 => some (opBend t e jp tg)
  | 0x1A => some (opDone)
  | 0x1B => some (opLds t e d a i18)
  | 0x1C => some (opSts t e d a i18)
  | 0x1D => some (opLdc t e d a i18)
  | 0x1E => some (opStc t e d a i18)
  | 0x1F => some (opPip t e (finOf 4 w (by decide)))
  | 0x20 => some (opWaitp t e (finOf 4 w (by decide)))
  | 0x21 => some (opBar t e)
  | 0x22 => some (opSrds t e d b (finOf 2 w (by decide)))
  | 0x23 => some (opSwrs t e a (w.testBit 0))
  | 0x24 => some (opVld t e mv ms i17)
  | 0x25 => some (opVst t e mv ms i17)
  | 0x26 => some (opVldc t e mv ms i17)
  | 0x27 => some (opVstc t e mv ms i17)
  | 0x28 => some (opSrdv t e mv c)
  | 0x29 => some (opSwrv t e va c)
  | 0x2A => some (opVadd t e mv va vb c)
  | 0x2B => some (opVsub t e mv va vb c)
  | 0x2C => some (opVmul t e mv va vb c)
  | 0x2D => some (opVmac t e (fieldA w 21) va vb c)
  | 0x2E => some (opVmin t e mv va vb c)
  | 0x2F => some (opVmax t e mv va vb c)
  | 0x30 => some (opVabsd t e mv va vb c)
  | 0x31 => some (opVshl t e mv va c)
  | 0x32 => some (opVshr t e mv va c)
  | 0x33 => some (opVsat t e mv va c)
  | 0x34 => some (opVcmp t e (fieldP w 21) va vb c)
  | 0x35 => some (opVsel t e mv va vb c)
  | 0x36 => some (opPlog t e (fieldP w 21) (fieldP w 16) (fieldP w 11) c)
  | 0x37 => some (opVslide t e mv va vb c)
  | 0x38 => some (opVbcast t e mv va c)
  | 0x39 => some (opVmovs t e mv (fieldS w 16) c)
  | 0x3A => some (opVext t e (fieldS w 21) va c)
  | 0x3B => some (opVred t e (fieldS w 21) va c)
  | 0x3C =>
    match w % 8 with
    | 0 => some (opAccopClr t e (fieldA w 21) c)
    | 1 => some (opAccopRd t e mv (fieldA w 16) (finOf 32 (w >>> 11) (by decide)) c)
    | 2 => some (opAccopRed t e (fieldA w 21) (fieldA w 16) c)
    | 3 => some (opAccopXlo t e (fieldS w 21) (fieldA w 16) c)
    | 4 => some (opAccopXhi t e (fieldS w 21) (fieldA w 16) c)
    | _ => none
  | 0x3D => some (opSort8 t e mv va c)
  | 0x3E => some (opHistadd t e va c)
  | _ => none

/-! Pairs (R252). -/

/-- The class of an opcode (R254). -/
inductive OpClass where
  | s | v | c
  deriving DecidableEq, Repr

/-- A part of an engine that both instructions of a pair may not use (R252). -/
inductive OpUnit where
  | data | cluster | stream
  deriving DecidableEq, Repr

/-- Class of an instruction word (R254). -/
def opClass (w : Nat) : OpClass :=
  let op := w / 2 ^ 26 % 64
  if (0x12 ≤ op ∧ op ≤ 0x1A) ∨ (0x1F ≤ op ∧ op ≤ 0x21) then .c else if op < 0x24 then .s else .v

/-- The store or the stream ports that an instruction word uses (R254). -/
def opUnit (w : Nat) : Option OpUnit :=
  match w / 2 ^ 26 % 64 with
  | 0x1B => some .data
  | 0x1C => some .data
  | 0x24 => some .data
  | 0x25 => some .data
  | 0x3E => some .data
  | 0x1D => some .cluster
  | 0x1E => some .cluster
  | 0x26 => some .cluster
  | 0x27 => some .cluster
  | 0x22 => some .stream
  | 0x23 => some .stream
  | 0x28 => some .stream
  | 0x29 => some .stream
  | _ => none

/-- A register of an engine. -/
inductive EngReg where
  | s (n : Nat)
  | v (n : Nat)
  | acc (n : Nat)
  | p (n : Nat)
  deriving DecidableEq, Repr

/-- What an instruction word reads and what it writes (R251, R254); s0 reads 0 and takes no write. -/
def opRegs (w : Nat) : List EngReg × List EngReg :=
  let op := w / 2 ^ 26 % 64
  let sd : EngReg := .s (fieldS w 22)
  let sa : EngReg := .s (fieldS w 18)
  let sb : EngReg := .s (fieldS w 14)
  let vd : EngReg := .v (fieldV w 21)
  let va : EngReg := .v (fieldV w 16)
  let vb : EngReg := .v (fieldV w 11)
  let ms : EngReg := .s (fieldS w 17)
  let pg : EngReg := .p (fieldP w 8)
  let ad : EngReg := .acc (fieldA w 21)
  let aa : EngReg := .acc (fieldA w 16)
  let dS : EngReg := .s (fieldS w 21)
  -- a V-class instruction under P reads pg, and the lanes of its destination that it leaves
  let g (l : List EngReg) (d : List EngReg) : List EngReg := if w.testBit 7 then pg :: d ++ l else l
  let (r, x) : List EngReg × List EngReg :=
    if op = 0 then ([], [])
    else if op ≤ 0x0D then ([sa, sb], [sd])
    else if op ≤ 0x10 then ([sa], [sd])
    else if op = 0x11 then ([], [sd])
    else if op = 0x1B ∨ op = 0x1D then ([sa], [sd])
    else if op = 0x1C ∨ op = 0x1E then ([sa, sd], [])
    else if op = 0x22 then ([], [sd, sb])
    else if op = 0x23 then ([sa], [])
    else if op = 0x24 ∨ op = 0x26 then ([ms], [vd])
    else if op = 0x25 ∨ op = 0x27 then ([ms, vd], [])
    else if op = 0x28 then ([], if w.testBit 7 then [vd, pg] else [vd])
    else if op = 0x29 then ([va], [])
    else if op = 0x2D then (g [va, vb, ad] [], [ad])
    else if op = 0x31 ∨ op = 0x32 ∨ op = 0x33 ∨ op = 0x38 ∨ op = 0x3D then (g [va] [vd], [vd])
    else if op = 0x34 then (g [va, vb] [], [.p (fieldP w 21)])
    else if op = 0x35 then ([pg, va, vb], [vd])
    else if op = 0x36 then ([.p (fieldP w 16), .p (fieldP w 11)], [.p (fieldP w 21)])
    else if op = 0x39 then (g [.s (fieldS w 16)] [vd], [vd])
    else if op = 0x3A ∨ op = 0x3B then (g [va] [], [dS])
    else if op = 0x3C then
      match w % 8 with
      | 0 => (g [] [ad], [ad])
      | 1 => (g [aa] [vd], [vd])
      | 2 => (g [aa] [ad], [ad])
      | _ => ([aa], [dS])
    else if op = 0x3E then (g [va, .s (fieldS w 16)] [], [])
    else (g [va, vb] [vd], [vd])
  (r.filter (· != .s 0), x.filter (· != .s 0))

/-- Two instructions in a row issue in the same cycle (R252). -/
def opPair (i j : Nat) : Bool :=
  let (ri, wi) := opRegs i
  let (rj, wj) := opRegs j
  ((opClass i == .s && opClass j == .v) || (opClass i == .v && opClass j == .s)) && rj.all (!wi.contains ·) && wj.all (fun r => !ri.contains r && !wi.contains r) &&
    !((opUnit i).isSome && opUnit i == opUnit j)

/-! Single step (R259, R260). -/

/-- The word of an engine's program store at its PC. -/
def State.engWord (s : State) (t e : Nat) : Nat := s.memLE (progAddr t e (s.engOf t e).pc) 4

/-- The instruction at an engine's PC issues. -/
def State.engIssue (s : State) (t e : Nat) : State := s.engRun t e ((engDecode t e (s.engWord t e)).getD fun _ _ => .fault 1)

/-- DBG.STEP while halted: one instruction of the program store issues, or a pair (R252, R259); a breakpoint at the second of a pair keeps it back. -/
def State.engStep (s : State) (t e : Nat) : State :=
  let x := s.engOf t e
  if !x.halted || x.bar || !(x.run == 1 || x.run == 2 || x.run == 3) then s else
  let w := s.engWord t e
  let s := (s.updEng t e fun y => { y with halted := false }).engIssue t e
  let y := s.engOf t e
  let two := y.issues && y.pc == x.pc + 1 && opPair w (s.engWord t e)
  ((if two then s.engIssue t e else s).updEng t e fun y => { y with halted := true }).engState t e

/-- STEP: a write of DBG.STEP (R259, R260). -/
def execStep (o : Origin) (e : EngineId) (s : State) : Answer :=
  onTile s e.tile fun s => if s.debugOpen o then (if s.locked e.tile .core then s.engStep e.tile e.t else s) else s.lcsRefuse o e.tile (ENG_E_DBG e.t) true

end Sys2Proof.Machine
end

