-- ==== Sys2Proof/Machine/Access.lean ====
section
/-! DEFINITION. Who may read and write the memory windows (R38, R125, R128, R160, R260, R388, R416, R450, R451). -/

namespace Sys2Proof.Machine

/-- How an access completes (R343). -/
inductive AccStatus where
  | ok | addr | access
  deriving DecidableEq, Repr

/-- A band of each bank in force: the newest, and the last one before a swap while its bank is RETIRING. -/
def State.banksNow (s : State) : List Nat :=
  s.bandIndex :: (match s.retiring with
    | some m => [m - 1]
    | none => [])

/-- A byte offset lies in one of some stretches. -/
def inAny (off : Nat) (l : List (Nat × Nat)) : Bool := l.any fun (a, n) => decide (a ≤ off) && decide (off < a + n)

/-- The line histories of a tile, written by the pipeline alone (R128, R160). -/
def State.histories (s : State) (t : Nat) : List (Nat × Nat) :=
  s.banksNow.flatMap fun n =>
    ((s.mappedSubs n t).filter fun (p, u) => s.alignOn n t p u).map (fun (p, u) => (s.rdN n t (COR_PORT_SUB_LBUF_BASE p u), s.lbufSize n t p u)) ++
    (List.range 8).flatMap fun g => (s.feeders (s.bankOf n) t g).map fun sub =>
      (s.rdN n t (STI_SUB_HIST_BASE (sub % 8)), s.histBytes (s.bankOf n) sub)

/-- The gain banks of a sub-stream that are being faded from: also the one of a fade that ends in this cycle (R125, R129). -/
def State.fadeBanks (s : State) (t p u : Nat) : List Nat :=
  (if (s.sub (t * 8 + p * 4 + u)).fade.isSome then [s.rd t (COR_PORT_SUB_GAIN_CTRL_ACTIVE p u)] else []) ++
  (if s.began.is t (COR_PORT_SUB_GAIN_CTRL_FADING p u) then [s.began.rd t (COR_PORT_SUB_GAIN_CTRL_ACTIVE p u)] else [])

/-- The sub-stream whose gain bank being faded from holds an offset, in a structure in force (R125, R264). -/
def State.fadingFrom (s : State) (t off : Nat) : Option (Nat × Nat) :=
  s.banksNow.findSome? fun n =>
    (s.mappedSubs n t).find? fun (p, u) =>
      (s.fadeBanks t p u).any fun b =>
        inAny off [(s.rdN n t (if b = 0 then COR_PORT_SUB_GAINA_BASE p u else COR_PORT_SUB_GAINB_BASE p u), s.coefSize n t p u)]

/-- Base of the coefficient bank in use (R416). -/
def State.firBase (s : State) (t f : Nat) : Nat :=
  if s.is t (FIR_CH_STATUS_BANK f) then s.rd t (FIR_CH_BANKB_BASE f) else s.rd t (FIR_CH_BANKA_BASE f)

/-- An offset lies in the coefficient bank that some enabled channel uses; before a swap of the present cycle (R416, R420). -/
def State.firInUse (s : State) (t off : Nat) : Bool :=
  (List.range 16).any fun f =>
    let base := if s.began.is t (FIR_CH_STATUS_BANK f) then s.rd t (FIR_CH_BANKB_BASE f) else s.rd t (FIR_CH_BANKA_BASE f)
    s.is t (FIR_CH_CFG_EN f) && inAny off [(base, 4 * s.firTaps t f)]

/-- A byte lies in a sealed granule (R451). -/
def State.sealed (s : State) (a : Nat) : Bool := s.lcs.seals.contains (a / 64)

/-- The rule that refuses an access to the byte at `a` of a memory window, with the flags it sets beside SYS_ERR; none where it is allowed.
No origin stands for DMA. -/
def State.winRule (s : State) (o : Option Origin) (a : Nat) (write : Bool) : Option (State → State) :=
  let lcs : State → State := fun s => s.setF 0 LCS_ERR_ACCESS
  let readRule : Option (State → State) := if s.inField && s.sealed a then some lcs else none
  match windowOf a with
  | none => none
  | some (.pool t _) => some fun s => s.setF t QUE_ERR_ACCESS
  | some (.progStore _ _ _ _) =>
    if write then (if o == some .image then none else some fun s => s)
    else
      let open_ := match o with
        | some o => s.vendor o 1
        | none => false
      if s.inField && !open_ then some lcs else readRule
  | some (.dataStore _ _ _ _) => if write then none else readRule
  | some (.cluster _ _ _) => if write then none else readRule
  | some (.pipe t off) =>
    if !write then readRule
    else if inAny off (s.histories t) then some fun s => s
    else if s.firInUse t off then some fun s => s.setF t FIR_ERR_WRITE_BUSY
    else
      match s.fadingFrom t off with
      | some (p, u) => some fun s => s.setF t (COR_PORT_SUB_ERR_WRITE_BUSY p u)
      | none => none

/-- The rule that refuses an access to any of four bytes. -/
def State.winRule4 (s : State) (o : Option Origin) (a : Nat) (write : Bool) : Option (State → State) :=
  ([0, 1, 2, 3].findSome? fun i => s.winRule o (a + i) write)

end Sys2Proof.Machine
end

