-- ==== Sys2Proof/Machine/Fir.lean ====
section
/-! DEFINITION. Profile filters (R409 to R422). Work times are not modelled (R413). -/

namespace Sys2Proof.Machine

/-! Configuration (R409, R410, R412, R416, R421). -/

/-- A bank breaks R416. A bank of a channel without stages has no bytes, and none to lie anywhere (DESIGN CHOICE, log 250). -/
def State.firBankBad (s : State) (t f : Nat) : Bool :=
  let mine := s.firArrays t f
  mine.any (fun (a, n) => decide (0 < n) && (decide (0x400000 < a + n) || !s.regionHolds (pipeAddr t a) n)) || s.arraysBad s.bank t (.fir f) mine

/-- A stage has TAPS or DEC outside its range (R412). -/
def State.firStageBad (s : State) (t f k : Nat) : Bool :=
  let n := s.rd t (FIR_CH_STAGE_TAPS f k)
  let d := s.rd t (FIR_CH_STAGE_DEC f k)
  n == 0 || decide (384 < n) || d == 0 || decide (64 < d) || decide (47 < s.rd t (FIR_CH_STAGE_SHIFT f k))

/-- CFG_INVALID holds for a channel (R421). -/
def State.firBad (s : State) (t f : Nat) : Bool :=
  s.is t (FIR_CH_CFG_EN f) &&
    (decide (5 ≤ s.rd t (FIR_CH_CFG_SRC f)) || (List.range (s.rd t (FIR_CH_CFG_STAGES f))).any (s.firStageBad t f) || decide (384 < s.firTaps t f) ||
      s.firBankBad t f ||
      (s.rd t (FIR_CH_CFG_SRC f) == 2 &&
        let u := s.rd t (FIR_CH_CFG_SUB f)
        !(s.rd t (EXP_PORT_SUB_STAT_CTRL_ZONE_EN (u / 4) (u % 4)) != 0 && decide (s.rd t (FIR_CH_CFG_ZONE f) < (s.statWin s.bandIndex t (u / 4) (u % 4)).2.2))))

/-- The check at a write of a channel's registers (R421). -/
def State.firCheck (s : State) (t f : Nat) : State := s.setIf (s.firBad t f) t FIR_ERR_CFG_INVALID

/-- FIR_ERR written: CFG_INVALID is set again where it still holds for a channel (R421). -/
def State.firRecheck (s : State) (t : Nat) : State := (List.range 16).foldl (fun s f => s.firCheck t f) s

/-! Boundaries (R414, R415, R417). -/

/-- A synchronising reset is requested (R415). -/
def State.firSync (s : State) (t f : Nat) : State := s.setF t (FIR_CH_STATUS_SYNC_PENDING f)

/-- FIR_SYNC (R415). -/
def execFirSync (t : Tile) (f : Fin 16) (s : State) : Answer := onTile s t fun s => s.firSync t f

/-- A bank swap is requested; a second one is refused (R417). -/
def State.firSwap (s : State) (t f : Nat) : State :=
  if s.is t (FIR_CH_STATUS_SWAP_PENDING f) then s.setF t FIR_ERR_SWAP_BUSY else s.setF t (FIR_CH_STATUS_SWAP_PENDING f)

/-- FIR_SWAP (R417). -/
def execFirSwap (t : Tile) (f : Fin 16) (s : State) : Answer := onTile s t fun s => s.firSwap t f

/-- A request of an earlier cycle waits for the boundary: one of the present cycle comes after a sample that enters in the cycle (R420; for
a swap DEDUCED, log 248). -/
def State.firWaits (s : State) (t : Nat) (x : Fld) : Bool := s.began.is t x && s.is t x

/-- The bank swap and then the reset that an input boundary takes (R414, R417, R420). -/
def State.firBoundary (s : State) (t f : Nat) : State :=
  let reset := s.firWaits t (FIR_CH_STATUS_SYNC_PENDING f)
  let s := if s.firWaits t (FIR_CH_STATUS_SWAP_PENDING f) then
      (s.wr t (FIR_CH_STATUS_BANK f) (1 - s.rd t (FIR_CH_STATUS_BANK f))).clrF t (FIR_CH_STATUS_SWAP_PENDING f)
    else s
  if reset then
    let s := ((s.clrF t (FIR_CH_STATUS_SYNC_PENDING f)).clrF t (FIR_CH_STATUS_THR0_ON f)).clrF t (FIR_CH_STATUS_THR1_ON f)
    s.updFir t f fun c => { FirChan.idle with fifo := c.fifo }
  else s

/-! The cascade (R412, R414). -/

/-- Coefficient `k` of a bank (R416). -/
def State.firCoef (s : State) (t base k : Nat) : Int := sInt 24 (s.memLE (pipeAddr t (base + 4 * k)) 3)

/-- What an input gives at a stage: the stage after it, and the result where it is emitted, with INVALID and whether it saturated. DEDUCED: the
sum is narrowed once, when all products are added (log 249). -/
def firStage (taps dec shift : Nat) (cs : List Int) (x : Int) (inv : Bool) (g : FirStage) : FirStage × Option (Int × Bool × Bool) :=
  let xs := ((x, inv) :: g.xs).take taps
  let i := g.count + 1
  let g' : FirStage := ⟨i, xs.take (taps - 1)⟩
  if i % dec = 0 then
    let sum := sumI ((cs.zip xs).map fun (c, y, _) => c * y)
    let acc := satS 48 sum
    let r := roundShr acc shift
    (g', some (satS 24 r, decide (i < taps) || xs.any (·.2), acc != sum || satS 24 r != r))
  else (g', none)

/-- A value goes through stages `k` on; the answer is the channel output with INVALID, if one comes (R412). -/
def State.firStages (s : State) (t f base : Nat) : List Nat → Int → Bool → Option (Int × Bool) × State
  | [], x, inv => (some (x, inv), s)
  | k :: ks, x, inv =>
    let taps := s.rd t (FIR_CH_STAGE_TAPS f k)
    let cs := (List.range taps).map (s.firCoef t base)
    let (g, r) := firStage taps (s.rd t (FIR_CH_STAGE_DEC f k)) (s.rd t (FIR_CH_STAGE_SHIFT f k)) cs x inv ((s.firChan t f).stages.getD k .idle)
    let s := s.updFir t f fun c => { c with stages := setAt c.stages k g }
    match r with
    | none => (none, s)
    | some (y, inv', sat) =>
      let s := if sat then (s.setF t FIR_ERR_SAT).addSat t (FIR_CH_SAT f) 1 else s
      s.firStages t f (base + 4 * taps) ks y inv'

/-! Thresholds (R418, R419). -/

/-- The threshold item (R419). -/
def thrItem (f k on : Nat) (y : Int) (band tb1 : Nat) : Bytes :=
  leBytes 1 0x70 ++ leBytes 1 f ++ leBytes 1 k ++ leBytes 1 on ++ leBytes 4 (uNat 32 y) ++ leBytes 8 band ++ leBytes 8 tb1

/-- THRk_ON. -/
def thrOn (f k : Nat) : Fld := if k = 0 then FIR_CH_STATUS_THR0_ON f else FIR_CH_STATUS_THR1_ON f

/-- A change of state of a threshold (R419). -/
def State.thrChange (s : State) (t f k : Nat) (on : Bool) (y : Int) : State :=
  let s := s.wr t (thrOn f k) (bitN on)
  let e := s.rd t (FIR_CH_THR_CTRL_EDGE f k)
  let s := if (e = 0 ∧ on) ∨ (e = 1 ∧ !on) ∨ 2 ≤ e then s.pip t (152 + 16 * k + f) else s
  if s.is t (FIR_CH_CFG_Q_EN f) then
    let (ok, s) := s.commit t (s.rd t (FIR_CH_CFG_QUEUE f)) 6 (itemOf (thrItem f k (bitN on) y s.bandIndex s.tb1) none)
    if ok then s else (s.setF t FIR_ERR_Q_LOST).addSat t (FIR_CH_QLOST f) 1
  else s

/-- A channel output is tested against a threshold (R418). -/
def State.thrTest (s : State) (t f k : Nat) (y : Int) : State :=
  if !s.is t (FIR_CH_THR_CTRL_EN f k) then s else
  let l := sInt 24 (s.rd t (FIR_CH_THR_LEVEL f k))
  let h : Int := s.rd t (FIR_CH_THR_HYST f k)
  let on := s.is t (thrOn f k)
  let meets := match s.is t (FIR_CH_THR_CTRL_DIR f k), on with
    | false, false => decide (l ≤ y)
    | false, true => decide (y < l - h)
    | true, false => decide (y ≤ l)
    | true, true => decide (l + h < y)
  let c := s.firChan t f
  let n := if meets then (if k = 0 then c.pers0 else c.pers1) + 1 else 0
  let full := decide (Nat.max 1 (s.rd t (FIR_CH_THR_CTRL_PERSIST f k)) ≤ n)
  let n := if full then 0 else n
  let s := s.updFir t f fun c => if k = 0 then { c with pers0 := n } else { c with pers1 := n }
  if full then s.thrChange t f k (!on) y else s

/-- A channel output (R412, R414, R418). -/
def State.firOutput (s : State) (t f : Nat) (y : Int) (inv : Bool) : State :=
  let s := ((s.addSat t (FIR_CH_OUTPUTS f) 1).wr t (FIR_CH_OUT_Y f) (uNat 24 y)).wr t (FIR_CH_OUT_INVALID f) (bitN inv)
  let s := s.wr t (FIR_CH_STATUS_INVALID f) (bitN inv)
  if inv then s else (s.thrTest t f 0 y).thrTest t f 1 y

/-- FIR_INPUT: a boundary, and the next sample of the FIFO if there is one (R412). A disabled channel takes none; one whose configuration is
invalid takes it without a result (log 250). -/
def State.firInput (s : State) (t f : Nat) : State :=
  let s := s.firBoundary t f
  match (s.firChan t f).fifo with
  | [] => s
  | x :: l =>
    if !s.is t (FIR_CH_CFG_EN f) then s else
    let s := s.updFir t f fun c => { c with fifo := l }
    if s.firBad t f then s.setF t FIR_ERR_CFG_INVALID
    else
      let (r, s) := s.firStages t f (s.firBase t f) (List.range (s.rd t (FIR_CH_CFG_STAGES f))) x false
      match r with
      | some (y, inv) => s.firOutput t f y inv
      | none => s

/-- FIR_INPUT (R412). -/
def execFirInput (t : Tile) (f : Fin 16) (s : State) : Answer := onClock s t .sys fun s => s.firInput t f

/-- The line mean of a corrected line (R409; log 62). -/
def State.firLine (s : State) (n t u : Nat) (planes : List (List Nat)) : State :=
  let (x0, w, _) := s.statWin n t (u / 4) (u % 4)
  (List.range 16).foldl (fun s f =>
    if s.firSrc t f == 1 && s.rd t (FIR_CH_CFG_SUB f) == u then
      let l := (((planes.getD (s.rd t (FIR_CH_CFG_PLANE f)) []).drop x0).take w)
      if l.isEmpty then s.firHold t f else s.firPush t f (((roundDiv (sumN l) l.length).toNat / 2 : Nat) : Int)
    else s) s

/-- RUN from 0 to 1 (R415). -/
def State.firRun (s : State) : State := s.eachTile fun t s => (List.range 16).foldl (fun s f => s.firSync t f) s

/-- FIR_CLR.COUNTERS (R422). -/
def State.firClr (s : State) (t : Nat) : State :=
  (List.range 16).foldl (fun s f => [FIR_CH_OUTPUTS f, FIR_CH_IN_LOST f, FIR_CH_HOLDS f, FIR_CH_SAT f, FIR_CH_QLOST f].foldl (fun s x => s.clrCount t x) s) s

/-- FIR_CLR_COUNTERS (R422). -/
def execFirClrCounters (t : Tile) (s : State) : Answer := onTile s t fun s => s.firClr t

end Sys2Proof.Machine
end

