-- ==== Sys2Proof/Machine/Taps.lean ====
section
/-! DEFINITION. The pipeline taps that feed the engines (R246 to R248): their items, and their band marks. -/

namespace Sys2Proof.Machine

/-! Items. -/

/-- A corrected line on its sub-stream's tap (R247). -/
def State.tapCorrected (s : State) (n : Nat) (l : CorLine) : State :=
  let item := headBeat n l.a (bitN l.sat + 2 * bitN l.mixed) l.expset :: l.planes.flatMap (beatsOf n)
  s.tap (l.sub / 8) (1 + l.sub % 8) n (endItem item)

/-- A stitched segment line on its group's tap: SAT, MIXED and EXPSET of a line made of several sources are open and take free values
(R247; log 85). -/
def State.tapStitched (s : State) (t n : Nat) (l : StLine) : State :=
  let (x, s) := s.fresh
  let w := (s.seg (s.bankOf n) t l.group).2
  let planes := (List.range (s.grpP (s.bankOf n) l.group)).map fun p => (List.range w).map fun c => (l.cols.getD c []).getD p 0
  let head := headBeat n l.a (x % 4 + 4 * bitN (!l.runs.isEmpty)) (x / 4 % 256)
  s.tap t (0x10 + l.group) n (endItem (head :: planes.flatMap (beatsOf n)))

/-- A row of the decimated copy (R247). -/
def State.tapDec (s : State) (t g n a : Nat) : State :=
  match (s.decRows t g).find? fun r => r.n == n && r.a == a with
  | none => s
  | some r => s.tap t (0x18 + g) n (endItem (beatsOf n (r.cells.map fun c => match c with
    | some v => if v = 0xFFFFFF then 0xFFFFFE else v
    | none => 0xFFFFFF)))

/-- Rows of the decimated copy of a band that are still missing are delivered: all of them once stitching has been aborted, or with `ready`
the last one of a band closed short whose lines have all been stitched (R56, R168, R171). -/
def State.fillRows (s : State) (t g n : Nat) (ready : Bool) : State :=
  match s.band n, s.bandRows n with
  | some b, some k =>
    (List.range k).foldl (fun s r =>
      let a := b.line0 + 4 * r
      let lines := (List.range (Nat.min 4 (b.pos.length - 4 * r))).map (a + ·)
      let whole := lines.all fun l => (smGet [] (t * 8 + g) s.sti.done).any (·.a == l)
      if (s.decRows t g).any (·.a == a) || (ready && !whole) then s else (s.pushDec t g n r).tapDec t g n a) s
  | _, _ => s

/-- The patch item of a band on the solve tile, of a learning group's REF_LATE bands too once there is a repeat to register to (R199, R248). -/
def State.tapPatches (s : State) (g n : Nat) : State :=
  if !s.registers g n then s
  else
    match (s.ref.patches.find? (·.1 == (g, n))).map (·.2) with
    | none => s
    | some l =>
      let lane (q : Nat) (f : PatchRes → Nat) : FifoEntry := .beat n ((List.range 16).map fun k => (l[16 * q + k]?.map f).getD 0) false
      let item := (List.range (ceilDiv l.length 16)).flatMap fun q =>
        [lane q (·.c), lane q fun p => uNat 24 p.dx, lane q fun p => uNat 24 p.dy, lane q (·.x)]
      s.tap (s.rdN n 0 (REF_GRP_CFG_SOLVE_TILE g)) (0x20 + g) n (endItem item)

/-- The patches of a band are measured, and their item goes to the registration program. -/
def State.measure (s : State) (g n : Nat) : State :=
  if s.ref.patches.any (·.1 == (g, n)) then s
  else
    let s := (s.learnStep g).refMeasure g n
    if s.ref.patches.any (·.1 == (g, n)) then s.tapPatches g n else s

/-- Descriptors of a group on a tile go to the classification engines (R217). -/
def State.tapDescs (s : State) (t g : Nat) : State :=
  let (mine, rest) := s.sgm.descs.partition fun (u, h, _, _) => u == t && h == g
  mine.foldl (fun s (_, _, n, ws) => s.tap t (0x28 + g) n (endItem (ws.map fun w => .word n w false))) (s.updSgm fun x => { x with descs := rest })

/-! Band marks (R246). -/

/-- The band takes no more lines. -/
def Band.full (b : Band) : Bool := b.closed || b.pos.length == b.size

/-- Every line of a band of a sub-stream has left the line path. -/
def State.corDone (s : State) (t u : Nat) (b : Band) : Bool :=
  let sub := t * 8 + u
  let last := b.line0 + b.pos.length
  s.rdB b.bank t (ING_PORT_SUB_CFG_EN (u / 4) (u % 4)) == 0 ||
    (b.full && decide (last ≤ s.rd64 t (ING_PORT_SUB_EXPECT_LO (u / 4) (u % 4))) &&
      !((s.sub sub).staged.any fun l => decide (l.a < last)) && !((smGet [] (sub / 4) s.path.pipe).any fun x => x.sub == sub && decide (x.line.a < last)))

/-- A tap of a tile has given every item of a band. -/
def State.tapDone (s : State) (t src : Nat) (b : Band) : Bool :=
  let g := src % 8
  if src ≤ 8 then s.corDone t (src - 1) b
  else if src < 0x18 then b.full && s.stitchSettled t g b
  else if src < 0x20 then b.full && s.stitchSettled t g b && (!s.hasSeg b.bank t g || (s.decRows t g).countP (·.n == b.n) == (s.bandRows b.n).getD 0)
  else if src < 0x28 then
    t == s.rdB b.bank 0 (REF_GRP_CFG_SOLVE_TILE g) && s.decWhole g b.n && (!s.registers g b.n || s.ref.patches.any (·.1 == (g, b.n)))
  else b.full && s.done4 t g b.n && !(s.sgm.descs.any fun (u, h, n, _) => u == t && h == g && n == b.n)

/-- The fixed taps. -/
def tapSources : List Nat := (List.range 8).map (· + 1) ++ (List.range 32).map (· + 0x10)

/-- The band marks of a tile's taps that are due. -/
def State.markTile (s : State) (t : Nat) : State := tapSources.foldl (fun s src => s.tapMarks t src fun s b => s.tapDone t src b) s

/-- The band marks of every tap that are due. -/
def State.markAll (s : State) : State := s.eachTile fun t s => s.markTile t

end Sys2Proof.Machine
end

