-- ==== Sys2Proof/Machine/Xover.lean ====
section
/-! DEFINITION. The crossover span of a job change (R283). -/

namespace Sys2Proof.Machine

/-- The swaps that a line's side is judged by: first band (none while the swap is armed and not due), SWAP_POS and CFG_XOVER. -/
def State.swapsNow (s : State) : List (Option Nat × Int × Nat) :=
  (if s.rd 0 CFG_STATUS_SHADOW = 4 ∧ ¬ s.cfg.immediate then
    [(s.clk.swapDue.map (·.1), sInt 64 (s.rd64 0 CFG_SWAP_POS_LO), s.rdB s.shadow 0 CFG_XOVER_BLIND)] else []) ++
    s.cfg.swaps.map fun (m, p, x) => (some m, p, x)

/-- Line `i` of a band lies on the wrong side of SWAP_POS for a group whose bit is set (R283). -/
def State.crossing (s : State) (b : Band) (g i : Nat) : Bool :=
  let w := b.pos.getD i 0 - s.webOfs b.bank g
  s.swapsNow.any fun (m, p, x) =>
    x.testBit g && (if m.any (fun k => decide (k ≤ b.n)) then decide (w < p) else decide (p ≤ w))

/-- The blind tokens of the crossover span in a band (R62, R283; log 93). -/
def State.xoverTokens (s : State) (b : Band) : List Token :=
  (s.groups b.bank).flatMap fun g =>
    let k := s.fullToken 0x08 15 b.n g
    lineTokens k 0 ((List.range b.pos.length).map fun i => if s.crossing b g i then [(k.x0, k.x1)] else [])

/-- The band before a band tick has its lines: those in the crossover span are blind from here on (R283). -/
def State.xoverBand (s : State) (n : Nat) : State :=
  if n = 0 then s else
  match s.band (n - 1) with
  | none => s
  | some b => (s.xoverTokens b).foldl State.blind s

end Sys2Proof.Machine
end

