-- ==== Sys2Proof/Machine/Hooks.lean ====
section
/-! DEFINITION. What the blocks do with the events of the band clock: a 0-to-1 transition of RUN and its end, an accepted line tick, a
band tick, a band that closes short. -/

namespace Sys2Proof.Machine

/-! RUN (R113, R124, R222, R281, R297, R415, R428, R437). -/

/-- The ports and sub-streams of a tile as RUN starts: no line is known, E is 0 where a sub-stream is mapped (R113), fades end (R124). -/
def State.pathRun (s : State) (t : Nat) : State :=
  [0, 1].foldl (fun s p =>
    let s := s.updPort t p fun x => { x with marks := [], dirty := 0 }
    [0, 1, 2, 3].foldl (fun s u =>
      let s := s.fadeRun t p u
      let s := if s.is t (ING_PORT_SUB_CFG_EN p u) then s.wr64 t (ING_PORT_SUB_EXPECT_LO p u) 0 else s
      (s.updSub (t * 8 + p * 4 + u) fun x => { x with staged := [], hist := [], prev := none, since := 0 }).wr t
        ⟨(ING_PORT_STATUS p).blk, (ING_PORT_STATUS p).off, 4 * u + 2, 4 * u⟩ 0) s) s

/-- Statistics, the pipeline and the label grids hold nothing of an earlier run (R145, R222). -/
def State.runClean (s : State) : State :=
  { s with
    path := { s.path with pipe := [], stats := [], statNext := [], statAlive := [], missed0 := [], masterStamp := 0, nextStamp := 0 }
    grids := s.grids.map fun (b, g) => (b, { g with bounds := [], replaced := none })
    cfg := { s.cfg with swaps := [] } }

/-- A 0-to-1 transition of RUN. -/
def State.hookRunStart (s : State) : State :=
  let s := (s.eachTile fun t s => s.pathRun t).runClean
  let s := ((((s.stitchRun.stiCheck s.bank).engCheck s.bank).refRun).segRun).engRunStart
  ((s.posRunStart).firRun).calRunStart

/-- RUN goes to 0: an armed swap is disarmed (R281), unless its tick has come (R286), and so is the gap (R428). -/
def State.hookRunStop (s : State) : State :=
  let s := s.clrF 0 CAL_GAP_CTRL_ARMED
  if s.rd 0 CFG_STATUS_SHADOW = 4 ∧ s.clk.swapDue.isNone then
    { (s.wr 0 CFG_STATUS_SHADOW 3).setF 0 CFG_ERR_DISARMED with cfg := { s.cfg with uncond := false, immediate := false } }
  else s

/-! Line ticks (R101, R114, R222, R299, R305, R409). -/

/-- What a port was at a line tick (R114): 1 ABSENT, 2 recalibrating, 3 held by a self-test, 0 in order. -/
def State.portMark (s : State) (t p : Nat) : Nat :=
  let x := s.port t p
  if s.absentNow t p then 1 else if s.portSt t p = 5 then 0 else if 2 ≤ x.hold then 3 else if x.hold = 1 then 2 else 0

/-- A tick that finds the port ABSENT makes its line blind, one that has come ahead of it too (R88). -/
def State.absentLine (s : State) (line t p : Nat) : State :=
  [0, 1, 2, 3].foldl (fun s u =>
    let l := (s.sub (t * 8 + p * 4 + u)).staged
    if l.any (·.a == line) then (s.setStaged t p u (l.filter (·.a != line))).missLine t p u line (s.missReason t p u line) 15 else s) s

/-- An accepted line tick at TB0 `now` at a port: its mark, and its TRIG (R88, R101, R114). -/
def State.portLine (s : State) (line now t p : Nat) : State :=
  let m := s.portMark t p
  let s := s.updPort t p fun x => { x with marks := (line, m) :: x.marks }
  (if m = 1 then s.absentLine line t p else s).sendTrig t p line now

/-- Repeat boundaries are synthesised in the grids in force (R222). -/
def State.gridsLine (s : State) (w : Int) : State :=
  let s := s.gridSynth s.bank w
  if s.retiring.isSome then s.gridSynth s.shadow w else s

/-- A line that went missing ahead of its own tick reaches the streams with it (R350). -/
def State.strAhead (s : State) (line : Nat) : State :=
  (s.sti.src.filter fun (_, h) => h.lines.head?.any fun l => l.a == line && l.miss.isSome).foldl (fun s (sub, _) => s.strMissing sub line) s

/-- An accepted line tick. -/
def State.hookLine (s : State) (line : Nat) (w : Int) (now : Nat) : State :=
  let s := s.eachTile fun t s => (s.portLine line now t 0).portLine line now t 1
  let s := { s with path := { s.path with masterStamp := s.path.nextStamp } }
  let s := ((s.strAhead line).gridsLine w).posLine
  s.firSpeed s.webSpeed

/-! Band ticks (R133, R124, R169, R200, R280, R350, R428). -/

/-- A swap that DISARM has taken back in this cycle stands again: a swap tick of the cycle wins (R286). -/
def State.rearm (s : State) (c : Bool × Bool) : State :=
  { (s.wr 0 CFG_STATUS_SHADOW 4).setF 0 CFG_ERR_LATE_WRITE with cfg := { s.cfg with uncond := c.1, immediate := c.2, disarmed := none } }

/-- The marks of a swap that DISARM has taken back in this cycle. -/
def State.disarmedNow (s : State) : Option (Bool × Bool) :=
  if s.rd 0 CFG_STATUS_SHADOW = 3 then (s.cfg.disarmed.filter fun (k, _) => k == s.tim.tb0).map (·.2) else none

/-- An armed swap becomes due at a band tick that opens a band with lines (R280); an immediate one that RUN = 1 has overtaken counts from
there too (R281). One armed in the tick's cycle counts from the next such tick, which swaps where this one reached SWAP_POS (R286). -/
def State.swapTick (s : State) (n : Nat) (empty : Bool) (w : Int) : State :=
  let at_ := decide (sInt 64 (s.rd64 0 CFG_SWAP_POS_LO) ≤ w)
  let due (u i : Bool) := !empty && s.clk.swapDue.isNone && (u || i || at_)
  let go (s : State) : State := { s with clk := { s.clk with swapDue := some (n, w) } }
  if s.cfg.armTb0 = some s.tim.tb0 then
    if s.rd 0 CFG_STATUS_SHADOW = 4 ∧ ¬ empty ∧ at_ then
      { s.setF 0 CFG_ERR_LATE_WRITE with cfg := { s.cfg with uncond := true } }
    else s
  else
    match s.disarmedNow with
    | some c => if due c.1 c.2 then go (s.rearm c) else s
    | none => if s.rd 0 CFG_STATUS_SHADOW = 4 ∧ due s.cfg.uncond s.cfg.immediate then go s else s

/-- The hand-overs of band tick `n` (R268). -/
def State.handOvers (s : State) (n : Nat) (empty : Bool) : State :=
  let l := s.rd64 0 BND_LINE_LO
  let first := if empty then l + 1 else l
  let s := s.eachTile fun t s => ((s.handLatch n t 0).handLatch n t 1).trimLatch first t
  s.strLatch n

/-- A waiting gain fade of every sub-stream starts with the first line of a band (R124). -/
def State.fades (s : State) : State :=
  let l := s.rd64 0 BND_LINE_LO
  s.eachTile fun t s => [0, 1].foldl (fun s p => [0, 1, 2, 3].foldl (fun s u => s.fadeLatch l t p u) s) s

/-- A band tick. -/
def State.hookBand (s : State) (n : Nat) (empty : Bool) (w : Int) : State :=
  let s := ((s.lateFlags).doneAtTick n).handOvers n empty
  let s := if empty then s else (s.fades).learnBand n
  (((s.swapTick n empty w).xoverBand n).calBand empty w).markAll

/-- Band `n` has closed short (R56). -/
def State.hookShort (s : State) (n : Nat) : State :=
  let s := s.stitchShort n
  let s := s.eachTile fun t s => (List.range 8).foldl (fun s g => if s.hasSeg (s.bankOf n) t g then s.fillRows t g n true else s) s
  let s := (s.groups (s.bankOf n)).foldl (fun s g => s.measure g n) s
  (s.strShort n).markAll

end Sys2Proof.Machine
end

