-- ==== Sys2Proof/Machine/Ledger.lean ====
section
/-! DEFINITION. The blind ledger: span lists, blind records and coverage totals (R62 to R71). -/

namespace Sys2Proof.Machine

/-! Spans of a band. -/

/-- Where line `l` of a band starts in the frame of a group; past the last line, where the band ends (R50, R156). -/
def State.lineStartG (s : State) (b : Band) (g l : Nat) : Int :=
  (if l < b.pos.length then b.pos.getD l 0 else s.bandEnd b) - s.webOfs b.bank g

/-- The span of one token in its band (R63). -/
def State.spanOf (s : State) (b : Band) (k : Token) : Span :=
  let (f0, f1) := s.grpExtent b.bank k.group
  { reason := k.reason, stage := k.stage, mask := k.mask, x0 := k.x0, x1 := k.x1
    w0 := s.lineStartG b k.group k.l0, w1 := s.lineStartG b k.group (Nat.min k.l1 b.pos.length)
    b0 := b.n, b1 := b.n, job := b.job, bank := b.bank, time := b.tb1, steps := b.steps
    partial_ := decide (k.x1 - k.x0 < f1 - f0), cont := false, merged := false, short := b.short, stepped := false }

/-- Same reason, mask and cross-web extent: spans that may join (R63, R64). -/
def Span.alike (a b : Span) : Bool := a.reason == b.reason && a.mask == b.mask && a.x0 == b.x0 && a.x1 == b.x1

/-- Order by REASON, then WEB_START, then XWEB_START (R65). -/
def Span.le (a b : Span) : Bool :=
  decide (a.reason < b.reason) || a.reason == b.reason && (decide (a.w0 < b.w0) || a.w0 == b.w0 && decide (a.x0 ≤ b.x0))

/-- Order of the records of a release within a group: by REASON, then by WEB_START, then by the first band covered (R68). -/
def Span.before (a b : Span) : Bool :=
  decide (a.reason < b.reason) || a.reason == b.reason && (decide (a.w0 < b.w0) || a.w0 == b.w0 && decide (a.b0 ≤ b.b0))

/-- Two spans made one: the stretch of both, the marks of either (R63, R64). -/
def Span.join (a b : Span) : Span :=
  { a with w0 := min a.w0 b.w0, w1 := max a.w1 b.w1, b0 := Nat.min a.b0 b.b0, b1 := Nat.max a.b1 b.b1,
           short := a.short || b.short, stepped := a.stepped || b.stepped }

/-- A span enters a span list: it joins the first span of its kind that it touches (R63). -/
def addSpan (x : Span) : List Span → List Span
  | [] => [x]
  | y :: l => if x.alike y && decide (x.w0 ≤ y.w1) && decide (y.w0 ≤ x.w1) then y.join x :: l else y :: addSpan x l

/-- The span lists of a group for a band: every token in order along the web, spans that touch joined (R63). -/
def State.spansOf (s : State) (b : Band) (toks : List Token) : List Span :=
  (sortBy Span.le (toks.map (s.spanOf b))).foldl (fun l x => addSpan x l) []

/-- The tokens of a group for a band: those taken in, and the whole-band tokens of SPEED (R51) and of failed Cerette links (R33). -/
def State.ledgerTokens (s : State) (b : Band) (g : Nat) : List Token :=
  if b.pos.isEmpty then [] else
  (s.led.tokens.filter fun k => k.band == b.n && k.group == g) ++
    (if b.speed then [s.fullToken 0x0B 15 b.n g] else []) ++ (if b.crc then [s.fullToken 0x0A 15 b.n g] else [])

/-- The spans of band `n` + 1 of a group, for the decision whether a span goes on (R64). -/
def State.nextSpans (s : State) (n g : Nat) : List Span :=
  match s.band (n + 1) with
  | some b => s.spansOf b (s.ledgerTokens b g)
  | none => []

/-- A span at the end of band `n` goes on when the next band of the same job is blind alike at its first line (R64). -/
def Span.goesOn (x : Span) (bandEnd : Int) (next : List Span) : Bool :=
  decide (bandEnd ≤ x.w1) && next.any fun y => x.alike y && y.bank == x.bank && decide (y.w0 ≤ bandEnd)

/-- The greatest WEB_LEN (R66). -/
def maxWebLen : Int := 0xFFFFFFFF

/-! Records (R65 to R69). -/

/-- The spans beyond the first MAXREC − 1, merged into one; `width` is the group's full width (R65). -/
def mergeSpans (width : Int) : List Span → List Span
  | [] => []
  | x :: l =>
    let j := l.foldl (fun a b =>
      { a with b0 := Nat.min a.b0 b.b0, b1 := Nat.max a.b1 b.b1, w0 := min a.w0 b.w0, w1 := max a.w1 b.w1,
               x0 := min a.x0 b.x0, x1 := max a.x1 b.x1, mask := a.mask ||| b.mask, cont := a.cont || b.cont,
               short := a.short || b.short, stepped := a.stepped || b.stepped,
               time := if b.b0 < a.b0 then b.time else a.time, steps := if b.b0 < a.b0 then b.steps else a.steps }) x
    [{ j with merged := true, partial_ := decide (j.x1 - j.x0 < width) }]

/-- The cap of R65 on the closed spans of a band and group. -/
def capSpans (width : Int) (maxrec : Nat) (l : List Span) : List Span :=
  if l.length ≤ maxrec then l else l.take (maxrec - 1) ++ mergeSpans width (l.drop (maxrec - 1))

/-- FLAGS of a blind record (R67). -/
def Span.flags (x : Span) (step : Bool) : Nat :=
  bitN (step || x.stepped) + 2 * bitN x.partial_ + 4 * bitN x.cont + 8 * bitN x.merged + 16 * bitN x.short + 256 * x.stage

/-- The blind record, type 0x02 (R66). -/
def Span.record (x : Span) (unit alive g : Nat) (step : Bool) : Bytes :=
  withCrc (leBytes 1 0x02 ++ leBytes 1 1 ++ leBytes 1 unit ++ leBytes 1 alive ++ leBytes 1 g ++ leBytes 1 x.reason ++
    leBytes 2 (x.flags step) ++ leBytes 8 x.b0 ++ leBytes 8 (uNat 64 x.w0) ++ leBytes 4 (clampI 0 maxWebLen (x.w1 - x.w0)).toNat ++
    leBytes 4 (uNat 32 (satS 32 x.x0)) ++ leBytes 4 (uNat 32 (satU 32 (x.x1 - x.x0))) ++ leBytes 4 x.job ++ leBytes 8 x.mask ++ leBytes 8 x.time ++ zeros 4)

/-- A record for the queue of BND_BLIND_CTRL: held behind those already held, up to 256; a further one is lost (R69). -/
def State.blindOut (s : State) (i : QItem) : State :=
  if s.led.held.isEmpty then
    let (ok, s') := s.commit 0 (s.rd 0 BND_BLIND_CTRL_QUEUE) 2 i
    if ok then s' else { s' with led := { s'.led with held := [i] } }
  else if s.led.held.length < 256 then { s with led := { s.led with held := s.led.held ++ [i] } }
  else (s.addSat 0 BND_BLIND_LOST_COUNT 1).setF 0 BND_ERR_BLIND_QFULL

/-- A closed span becomes a record: ALIVE counts every record formed, whether it reaches the queue or not (R68). -/
def State.emitSpan (s : State) (g : Nat) (rel : Option (Nat × Nat)) (x : Span) : State :=
  let r := x.record s.clk.unit s.led.alive g (x.steps != s.tim.tb1Steps)
  let s := { s with led := { s.led with alive := (s.led.alive + 1) % 256 } }
  s.blindOut (itemOf r rel)

/-- A held record goes to the queue as space opens (R69). -/
def State.blindSend (s : State) : State :=
  match s.led.held with
  | [] => s
  | i :: l =>
    let (ok, s') := s.commit 0 (s.rd 0 BND_BLIND_CTRL_QUEUE) 2 i
    if ok then { s' with led := { s'.led with held := l } } else s'

/-- BLIND_RECORD_SEND (R69). -/
def execBlindRecordSend (s : State) : Answer := finish s s.blindSend

/-! Release of a band's spans. -/

/-- The spans of band `b` and group `g` at its release, those that go on and those that close (R63, R64). -/
def State.closeSpans (s : State) (b : Band) (g : Nat) : List Span × List Span :=
  let fresh := s.spansOf b (s.ledgerTokens b g)
  let carried := smGet [] g s.led.carried
  let start := s.lineStartG b g 0
  let bandEnd := s.lineStartG b g b.pos.length
  let next := s.nextSpans b.n g
  let maxBands := s.rd 0 BND_BLIND_CTRL_MAXBANDS
  let joined := carried.foldl (fun (l : List Span) c =>
    match l.find? fun y => c.alike y && decide (y.w0 ≤ start) with
    | some y => (c.join y) :: l.filter (· != y)
    | none => c :: l) fresh
  let nextLen := match s.band (b.n + 1) with
    | some nb => s.bandEnd nb - nb.start
    | none => 0
  let marked := joined.map fun x =>
    let on := x.goesOn bandEnd next
    let full := decide (maxBands ≤ b.n + 1 - x.b0) || decide (maxWebLen < x.w1 - x.w0 + nextLen)
    (on && !full, { x with cont := on && full })
  ((marked.filter (·.1)).map (·.2), (marked.filter (!·.1)).map (·.2))

/-- The spans of one group that become records at the release of band `b` (R64, R65). -/
def State.releaseGroup (s : State) (b : Band) (g : Nat) : List Span × State :=
  let (on, done) := s.closeSpans b g
  let (f0, f1) := s.grpExtent b.bank g
  (capSpans (f1 - f0) (Nat.max 1 (s.rd 0 BND_BLIND_CTRL_MAXREC)) (sortBy Span.le done),
    { s with led := { s.led with carried := smSet [] g on s.led.carried } })

/-- The spans of a group's tokens that came after their band's lists were closed: each forms a record of its own (R63). -/
def State.lateSpans (s : State) (g : Nat) : List Span :=
  (s.led.late.filter (·.group == g)).filterMap fun k => (s.band k.band).map fun b => s.spanOf b k

/-- The records of a release in order: by group, and within it by R68, late tokens among them (R63, R68). -/
def State.releaseSpans (s : State) (b : Band) (rel : Option (Nat × Nat)) (gs : List Nat) : State :=
  let s := (List.range 8).foldl (fun s g =>
    let (l, s) := if gs.contains g then s.releaseGroup b g else ([], s)
    (sortBy Span.before (l ++ s.lateSpans g)).foldl (fun s x => s.emitSpan g rel x) s) s
  { s with led := { s.led with late := [] } }

/-! Coverage totals (R70, R71). -/

/-- The totals of group `g` move at a repeat boundary: REP to LASTREP, and the length beyond the boundary counts anew (R70). -/
def State.moveRepeat (s : State) (b g : Nat) (k : Int) (lowest : Bool) : State :=
  let s := s.wr 0 (BND_COV_LASTREP g) (s.rd 0 (BND_COV_REP g))
  let s := s.wr 0 (BND_COV_REP g) (smGet 0 g s.led.left)
  let s := { s with led := { s.led with left := smSet 0 g 0 s.led.left, rep := smSet none g (some k) s.led.rep } }
  if lowest then (s.wr 0 BND_COV_REPEAT (s.repeatOf b k)).pip 0 2 else s

/-- The line counts its blind length, split at the next repeat boundary by the boundaries of band tick `v` (R70). -/
def State.addBlind (s : State) (b v g : Nat) (p q : Int) : State :=
  let (_, z, _) := s.gridAt b v p
  let (_, z', _) := s.gridAt b v (q - 1)
  let cut := if z < z' then z' else q
  let inRep := (cut - p).toNat
  let s := s.wr 0 (BND_COV_REP g) (s.rd 0 (BND_COV_REP g) + inRep)
  let s := { s with led := { s.led with left := smUpd 0 g (· + (q - cut).toNat) s.led.left } }
  s.add64 0 (BND_COV_JOB_LO g) (q - p).toNat

/-- The ledger accounts for line `i` of band `b` in group `g` (R70). -/
def State.accountLine (s : State) (b : Band) (g : Nat) (toks : List Token) (lowest : Bool) (i : Nat) : State :=
  let p := s.lineStartG b g i
  let q := s.lineStartG b g (i + 1)
  let (k, _, _) := s.gridAt b.bank (s.gridView b.n) p
  let s := match smGet none g s.led.rep with
    | none =>
      let s := { s with led := { s.led with rep := smSet none g (some k) s.led.rep } }
      if lowest then s.wr 0 BND_COV_REPEAT (s.repeatOf b.bank k) else s
    | some k' => if k' < k then s.moveRepeat b.bank g k lowest else s
  if (toks.any fun t => decide (t.l0 ≤ i) && decide (i < t.l1)) && decide (p < q) then s.addBlind b.bank (s.gridView b.n) g p q else s

/-- The coverage totals of a group at the release of band `b` (R70). -/
def State.accountBand (s : State) (b : Band) (g : Nat) : State :=
  let toks := s.ledgerTokens b g
  let lowest := (s.groups b.bank).head? == some g
  (List.range b.pos.length).foldl (fun s i => s.accountLine b g toks lowest i) s

/-- The job totals move in the cycle after the release of band m − 1; from there on the repeats are those of the new job's grid, whose first
line begins its count anew (R70; log 196). -/
def State.moveJob (s : State) : State :=
  let s := (List.range 8).foldl (fun s g =>
    (s.wr64 0 (BND_COV_PREVJOB_LO g) (s.rd64 0 (BND_COV_JOB_LO g))).wr64 0 (BND_COV_JOB_LO g) 0) s
  { (s.wr64 0 BND_COV_JOB_LEN_LO 0).pip 0 3 with led := { s.led with rep := [] } }

/-- A 0-to-1 transition of RUN clears every total and the ledger's sequence (R68, R70, R72). -/
def State.clearTotals (s : State) : State :=
  let s := (List.range 8).foldl (fun s g =>
    ((((s.clrF 0 (BND_COV_REP g)).clrF 0 (BND_COV_LASTREP g)).wr64 0 (BND_COV_JOB_LO g) 0).wr64 0 (BND_COV_PREVJOB_LO g) 0)) s
  let s := ((s.wr64 0 BND_COV_JOB_LEN_LO 0).clrF 0 BND_COV_REPEAT).clrF 0 BND_BLIND_LOST
  { s with led := { s.led with alive := 0, rep := [], left := [], carried := [] } }

/-- The ledger's part of the release of band `b`: records group by group, then the totals (R63 to R70). -/
def State.ledgerRelease (s : State) (b : Band) (rel : Option (Nat × Nat)) : State :=
  let gs := if b.pos.isEmpty then [] else s.groups b.bank
  let s := s.releaseSpans b rel gs
  let s := gs.foldl (fun s g => s.accountBand b g) s
  let s := if b.pos.isEmpty then s else s.add64 0 BND_COV_JOB_LEN_LO (s.bandEnd b - b.start).toNat
  { s with led := { s.led with tokens := s.led.tokens.filter (·.band != b.n) } }

/-! Tokens arrive. -/

/-- A late token's length is added to the totals in force at its arrival (R63). -/
def State.lateLength (s : State) (k : Token) : State :=
  match s.band k.band with
  | none => s
  | some b =>
    let x := s.spanOf b k
    let n := (x.w1 - x.w0).toNat
    (s.wr 0 (BND_COV_REP k.group) (s.rd 0 (BND_COV_REP k.group) + n)).add64 0 (BND_COV_JOB_LO k.group) n

/-- The oldest token on its way reaches tile 0: into the lists of its band, or as a late one once they are closed (R63). -/
def State.tokenArrive (s : State) : State :=
  match s.led.inFlight with
  | [] => s
  | k :: l =>
    let s := { s with led := { s.led with inFlight := l } }
    if k.band < s.clk.nextRelease then
      { s.lateLength k with led := { s.led with late := s.led.late ++ [k] } }
    else { s with led := { s.led with tokens := s.led.tokens ++ [k] } }

/-- BLIND_TOKEN_ARRIVAL (R63). -/
def execBlindTokenArrival (s : State) : Answer := finish s s.tokenArrive

end Sys2Proof.Machine
end

