-- ==== Sys2Proof/Machine/BandClock.lean ====
section
/-! DEFINITION. The band clock: source ticks, the rate limiter, line ticks, band ticks, drains and the RUN bit (R46 to R56, R61, R72). -/

namespace Sys2Proof.Machine

/-! Positions. -/

/-- WEB_POS of line `l` accepted now (R50). -/
def State.webPosNow (s : State) (l : Nat) : Int :=
  satS 64 (if s.is 0 BND_CTRL_WEB_SRC then roundShr (l * s.rd 0 BND_LINE_PITCH : Nat) 16 else roundShr (s.webProduct - s.clk.origin) 32)

/-- The spacing of two lines exceeds the pitch by more than the tolerance (R51). -/
def State.tooFast (s : State) (d : Int) : Bool :=
  !s.is 0 BND_CTRL_WEB_SRC && decide ((s.rd 0 BND_LINE_PITCH * (2 ^ 16 + s.rd 0 BND_PITCH_TOL_TOL) : Nat) < d * 2 ^ 32)

/-! Band ticks. -/

/-- Band tick: band `n` opens; `empty` for a drain tick (R52, R53, R54, R56). -/
def State.bandTick (s : State) (empty : Bool) (w : Int) : State :=
  let n := if s.clk.ticked then s.bandIndex + 1 else 0
  let b : Band :=
    { n := n, bank := s.bank, job := s.rd 0 CFG_ACTIVE_JOB, size := bandLines (s.rd 0 BND_BAND_SIZE_B)
      line0 := s.rd64 0 BND_LINE_LO, pos := [], fin := none, tb1 := s.tb1, tb0 := s.tim.tb0
      short := false, empty := empty, closed := empty, speed := false, crc := s.d2dFailed && !empty, steps := s.tim.tb1Steps }
  let s := { s with clk := { s.clk with bands := b :: s.clk.bands.map (fun (b : Band) => { b with closed := true }), ticked := true, tickTb0 := some s.tim.tb0, unit := s.began.rd 0 CHN_ADDR_ADDR } }
  let s := s.wr64 0 BND_INDEX_LO n
  let s := if empty then s else s.wr64 0 BND_BAND_LINE0_LO (s.rd64 0 BND_LINE_LO)
  let s := (s.clrF 0 BND_STATUS_SPEED).pipAll 0
  s.hookBand n empty w

/-- A new line needs a new band: none is open, or the open one holds its B lines (R52, R56). -/
def State.needBand (s : State) : Bool :=
  match s.openBand with
  | some b => decide (b.size ≤ b.pos.length)
  | none => true

/-- The end of the last line before this one becomes known, unless its band has been released (R50). -/
def State.endLine (s : State) (w : Int) : State :=
  match s.clk.bands.find? (!·.pos.isEmpty) with
  | some b => if b.n < s.clk.nextRelease then s else s.updBand b.n (fun b => if b.fin.isNone then { b with fin := some w } else b)
  | none => s

/-- The speed check of a line in the open band (R51). -/
def State.speedCheck (s : State) (w : Int) : State :=
  match s.clk.lastWeb, s.openBand with
  | some v, some b =>
    if s.tooFast (w - v) then
      ((s.updBand b.n fun b => { b with speed := true }).setF 0 BND_STATUS_SPEED).setF 0 BND_ERR_OVERSPEED
    else s
  | _, _ => s

/-- The drain ticks due when band `k` closes short (R56). -/
def State.drainTicks (s : State) (k : Nat) : Nat :=
  match s.retiring with
  | some m => Nat.max (s.depth s.bank 6 + 1) (m + s.depth (1 - s.bank) 6 - k)
  | none => s.depth s.bank 6 + 1

/-- The open band closes short and the drain starts (R56); BND_ERR.IDLE is not set where RUN is cleared in the cycle of its band tick
(R61). -/
def State.shortBand (s : State) (b : Band) (flag : Bool) : State :=
  let s := s.updBand b.n fun b => { b with short := true, closed := true }
  let s := { s with clk := { s.clk with drainLeft := s.drainTicks b.n } }
  let s := ((s.setIf flag 0 BND_ERR_IDLE).setF 0 BND_STATUS_DRAINING).clrF 0 BND_STATUS_SPEED
  (s.pip 0 5).hookShort b.n

/-- The open band closes short and the drain starts; nothing where no band is open (R56). -/
def State.closeShort (s : State) : State :=
  match s.openBand with
  | none => s
  | some b => s.shortBand b true

/-- What a line tick makes of the open band: the line joins it; in the cycle in which RUN is written 0 the band closes at once with no
lines; where FLUSH is written in the cycle of the band tick of a job swap it closes short with its line (R61). -/
def State.lineInBand (s : State) (w : Int) (new : Bool) : State :=
  match s.openBand with
  | none => s
  | some b =>
    if s.is 0 BND_CTRL_RUN then
      let s := s.updBand b.n fun b => { b with pos := b.pos ++ [w] }
      let s := { s with clk := { s.clk with drainLeft := 0 } }
      if new && s.clk.swapDue.isSome && s.clk.flushTb0 == some s.tim.tb0 then s.closeShort else s
    else s.shortBand b false

/-- An accepted line tick at time `t` (R49 to R53): the line counter advances, the band tick is issued where a band begins, and TRIG
messages and trigger balls follow. -/
def State.lineTick (s : State) (t : Nat) : State :=
  let l := if s.clk.lastWeb.isNone then 0 else (s.rd64 0 BND_LINE_LO + 1) % 2 ^ 64
  let s := s.wr64 0 BND_LINE_LO l
  let w := s.webPosNow l
  let new := s.needBand
  let s := if new then s.endLine w else s
  let s := if new then ((s.clrF 0 BND_STATUS_DRAINING).clrF 0 BND_STATUS_WAITING).bandTick false w else s
  let s := s.speedCheck w
  let s := s.lineInBand w new
  let s := { s with clk := { s.clk with lastAccept := some t, lastWeb := some w, lineTb0 := some s.tim.tb0 } }
  let s := (s.setF 0 BND_STATUS_TICKING).pipAll 1
  (s.hookLine l w t).readyUpdate

/-! The rate limiter (R49). -/

/-- T_min in ns: the period of BND_MAX_LINE_RATE rounded up to whole POSC cycles of 4 ns. -/
def State.tMin (s : State) : Nat := 4 * ceilDiv 1000000000 (4 * Nat.max 1 (s.rd 0 BND_MAX_LINE_RATE_HZ))

/-- The clock takes source ticks: RUN is 1 and no drain started by clearing RUN is in progress, or RUN has been written 0 in this very cycle
(R56, R61). -/
def State.taking (s : State) : Bool :=
  (s.is 0 BND_CTRL_RUN && !s.clk.stopping) || (!s.is 0 BND_CTRL_RUN && s.clk.stopTb0 == some s.tim.tb0)

/-- The time at which a held tick is released: last_accepted + T_min (R49). -/
def State.heldTime (s : State) : Nat := s.clk.lastAccept.getD 0 + s.tMin

/-- A tick is held and its release has come (R49). -/
def State.heldDue (s : State) : Bool := s.is 0 BND_STATUS_HOLDING && s.taking && decide (s.heldTime ≤ s.tim.tb0)

/-- The release of a held tick at last_accepted + T_min (R49, R61). -/
def State.heldRelease (s : State) : State := if s.heldDue then (s.clrF 0 BND_STATUS_HOLDING).lineTick s.heldTime else s

/-- A tick from the source at the present time (R49). A held tick whose release falls in the same cycle goes first, and the new one becomes
the held tick (R61). -/
def State.sourceTick (s : State) : State :=
  if !s.taking then s else
  let s := { s with clk := { s.clk with issued := true } }
  let s := s.heldRelease
  if s.is 0 BND_STATUS_HOLDING then s.add64 0 BND_SKIPPED_LO 1
  else
    match s.clk.lastAccept with
    | some a => if s.tim.tb0 < a + s.tMin then s.setF 0 BND_STATUS_HOLDING else s.lineTick s.tim.tb0
    | none => s.lineTick s.tim.tb0

/-- HELD_TICK_RELEASE (R49). -/
def execHeldTickRelease (s : State) : Answer := onAux s fun s => s.heldRelease

/-! The schedule of SRC = 1 (R46, R48). -/

/-- The time base of TB_SEL in 2⁻³² ns; 3 is treated as 0 (R72). -/
def State.schedBase (s : State) : Nat :=
  match s.rd 0 BND_CTRL_TB_SEL with
  | 1 => s.tim.tb1
  | 2 => s.tim.tb3
  | _ => s.tim.tb0 * 2 ^ 32

/-- BND_TB_PERIOD in 2⁻³² ns. -/
def State.tbPeriod (s : State) : Nat := s.rd64 0 BND_TB_PERIOD_LO

/-- The first exact time is at hand: its source tick is issued and the schedule advances by one period (R48). -/
def State.schedTick (s : State) : State :=
  match s.clk.schedule with
  | some x =>
    let s := { s with clk := { s.clk with schedule := some (x + s.tbPeriod), schedTb0 := some s.tim.tb0 } }
    s.sourceTick
  | none => s

/-- A tick of the schedule is due: the base is at least the exact time less 1 ns. A period below 2 ns gives one tick in a TSUC cycle
(R46). -/
def State.schedDue (s : State) : Bool :=
  s.taking && s.rd 0 BND_CTRL_SRC == 1 && (decide (2 ^ 33 ≤ s.tbPeriod) || s.clk.schedTb0 != some s.tim.tb0) &&
    match s.clk.schedule with
    | some x => decide (x ≤ s.schedBase + 2 ^ 32)
    | none => false

/-- TB_SCHEDULE_TICK (R48). -/
def execTbScheduleTick (s : State) : Answer := whenEv s (s.locked 0 .aux && s.schedDue) State.schedTick

/-! Drains (R56). -/

/-- No line tick for BND_IDLE_TIMEOUT (R56). -/
def State.idleTimeout (s : State) : State := (s.clrF 0 BND_STATUS_TICKING).closeShort

/-- FLUSH is written: the open band closes short (R56). -/
def State.flush (s : State) : State := { s.closeShort with clk := { s.closeShort.clk with flushTb0 := some s.tim.tb0 } }

/-- FLUSH (R56). -/
def execFlush (s : State) : Answer := finish s s.flush

/-- Outages as a new run begins: one that goes on covers it from its first band (R42). -/
def outagesAfresh (l : List Outage) : List Outage := (l.filter (·.last.isNone)).map fun o => { o with first := 0 }

/-- The counters, the WEB_POS origin and the coverage totals start at 0 (R53, R72); the clock waits for its first line. -/
def State.runStart (s : State) : State :=
  let s := if s.clk.ticked then s.expRun (s.bandIndex + 1) else s
  let s := (((s.wr64 0 BND_INDEX_LO 0).wr64 0 BND_LINE_LO 0).wr64 0 BND_BAND_LINE0_LO 0).clearTotals
  let sched := if s.rd 0 BND_CTRL_SRC = 1 ∧ ¬ s.is 0 BND_CTRL_WAIT_START then some (s.schedBase + s.tbPeriod) else none
  let s := { s with clk := { s.clk with bands := [], nextRelease := 0, lastAccept := none, origin := s.webProduct, lastWeb := none, schedule := sched, ticked := false, issued := false, drainLeft := 0, restart := false, swapDue := none, stopped := [], outages := outagesAfresh s.clk.outages } }
  let s := (((s.setF 0 BND_STATUS_RUNNING).setF 0 BND_STATUS_WAITING).clrF 0 BND_STATUS_HOLDING).clrF 0 BND_STATUS_TICKING
  s.hookRunStart.readyUpdate

/-- The drain has ended: the clock waits, or it stops where RUN was cleared (R56). -/
def State.drainEnd (s : State) : State :=
  let s := s.clrF 0 BND_STATUS_DRAINING
  let stop := s.clk.stopping
  let s := { s with clk := { s.clk with stopping := false } }
  let s := if s.is 0 BND_CTRL_RUN then
      if s.clk.restart then s.runStart else s.setF 0 BND_STATUS_WAITING
    else s
  (if stop && !s.is 0 BND_CTRL_RUN then s.clrF 0 BND_STATUS_WAITING else s).readyUpdate

/-- A drain tick opens an empty band; the last one ends the drain (R56). -/
def State.drainTick (s : State) : State :=
  if s.is 0 BND_STATUS_DRAINING then
    let s := s.bandTick true 0
    let left := s.clk.drainLeft - 1
    let s := { s with clk := { s.clk with drainLeft := left } }
    if left = 0 then s.drainEnd else s
  else s

/-- DRAIN_TICK (R56). -/
def execDrainTick (s : State) : Answer := finish s s.drainTick

/-! BND_CTRL (R47, R56, R72). -/

/-- The five fields of BND_CTRL that take writes only while RUN is 0, as a word. -/
def bndFive (v : Nat) : Nat := v &&& 0x3F7E

/-- A write carries a value for one of the five fields that differs from the one in force (R47). -/
def State.fiveDiffer (s : State) (v : Nat) : Bool := bndFive v != bndFive (s.word 0 BND_CTRL.blk BND_CTRL.off)

/-- A write of RUN = 1 is refused (R47). -/
def State.runRefused (s : State) (v : Nat) : Bool :=
  bitsOf v 2 1 == 3 || decide (5 ≤ s.rd 0 BND_BAND_SIZE_B) || !depthsOk (s.word 0 BND_DEPTH.blk BND_DEPTH.off)

/-- A write of BND_CTRL with RUN = 1 (R47). -/
def State.runSet (s : State) (v : Nat) : State :=
  let flush := fun (s : State) => if v.testBit 16 then s.flush else s
  if s.is 0 BND_CTRL_RUN then flush (s.setIf (s.fiveDiffer v) 0 BND_ERR_CFG_WHILE_RUN)
  else
    let s := s.setWord 0 BND_CTRL.blk BND_CTRL.off (bndFive v)
    if s.runRefused v then s.setF 0 BND_ERR_CFG_INVALID
    else
      let s := s.setF 0 BND_CTRL_RUN
      if s.clk.stopping then { s with clk := { s.clk with restart := true } } else flush s.runStart

/-- The band open as RUN is cleared closes short; one whose band tick falls in this cycle has no lines and sets no flag (R56, R61). -/
def State.closeAtStop (s : State) : State :=
  match s.openBand with
  | none => s
  | some b =>
    if s.clk.tickTb0 == some s.tim.tb0 && b.pos.length == 1 then (s.updBand b.n fun b => { b with pos := [] }).shortBand b false
    else s.shortBand b true

/-- RUN goes to 0: an open band closes short and drains, a drain goes on, a waiting clock stops (R56, R61). -/
def State.runStop (s : State) : State :=
  let s := (s.clrF 0 BND_CTRL_RUN).clrF 0 BND_STATUS_RUNNING
  let s := if s.pending.contains .heldTickRelease then s else s.clrF 0 BND_STATUS_HOLDING
  let s := (s.clrF 0 BND_STATUS_WAITING).closeAtStop
  let s := { s with clk := { s.clk with stopping := s.is 0 BND_STATUS_DRAINING, restart := false, stopTb0 := some s.tim.tb0 } }
  s.hookRunStop.readyUpdate

/-- A write of BND_CTRL with RUN = 0 (R47, R56). -/
def State.runClear (s : State) (v : Nat) : State :=
  if s.is 0 BND_CTRL_RUN then
    let s := s.setIf (s.fiveDiffer v) 0 BND_ERR_CFG_WHILE_RUN
    if s.clk.restart then
      ({ s.clrF 0 BND_CTRL_RUN with clk := { s.clk with restart := false } }).hookRunStop
    else s.runStop
  else
    let s := s.setWord 0 BND_CTRL.blk BND_CTRL.off (bndFive v)
    if v.testBit 16 then s.flush else s

/-- RUN_SET: a write of BND_CTRL by an origin with RUN = 1 (R47). -/
def execRunSet (_o : Origin) (v : BitVec 32) (s : State) : Answer := finish s (s.runSet v.toNat)

/-- RUN_CLEAR: a write of BND_CTRL by an origin with RUN = 0 (R56). -/
def execRunClear (_o : Origin) (v : BitVec 32) (s : State) : Answer := finish s (s.runClear v.toNat)

/-- BND_MISS_CLR (R72). -/
def State.missClr (s : State) (t clr : Nat) : State := (onesOf 8 clr).foldl (fun s k => s.clrCount t (BND_MISS k)) s

/-- BND_MISS_CLR (R72). -/
def execBndMissClr (t : Tile) (clr : BitVec 8) (s : State) : Answer := onTile s t fun s => s.missClr t clr.toNat

end Sys2Proof.Machine
end

