-- ==== Sys2Proof/Machine/Bridge.lean ====
section
/-! DEFINITION. The bridge of the two Ethernet ports: received frames, pass-through, the transparent clock and transmission (R26, R318, R332
to R337, R339, R355). -/

namespace Sys2Proof.Machine

/-! Parsing of frames. -/

/-- The frame carries an 802.1Q tag. -/
def fTagged (f : Bytes) : Bool := beAt f 12 2 == 0x8100
/-- The tag's priority. -/
def fPcp (f : Bytes) : Nat := beAt f 14 2 / 8192
/-- The tag's VID. -/
def fVid (f : Bytes) : Nat := beAt f 14 2 % 4096
/-- The octets before the EtherType's payload. -/
def fHead (f : Bytes) : Nat := if fTagged f then 18 else 14
/-- The EtherType behind at most one tag. -/
def fType (f : Bytes) : Nat := beAt f (fHead f - 2) 2
/-- The frame carries a second tag (R332). -/
def fDouble (f : Bytes) : Bool := fTagged f && (fType f == 0x8100 || fType f == 0x88A8)
/-- The destination address, first octet in bits [7:0]. -/
def fDst (f : Bytes) : Nat := leAt f 0 6

/-- A UDP datagram in the frame: offset of the UDP header, where the IP header has no options and no fragment. -/
def fUdp (f : Bytes) : Option Nat :=
  let h := fHead f
  if fType f = 0x0800 ∧ byteAt f h = 0x45 ∧ byteAt f (h + 9) = 17 ∧ beAt f (h + 6) 2 % 16384 = 0 then some (h + 20)
  else if fType f = 0x86DD ∧ byteAt f (h + 6) = 17 then some (h + 40)
  else none

/-- The offset of a PTP message in the frame (R314). -/
def fPtp (f : Bytes) : Option Nat :=
  if fType f = 0x88F7 then some (fHead f)
  else match fUdp f with
    | some u => if beAt f (u + 2) 2 = 319 ∨ beAt f (u + 2) 2 = 320 then some (u + 8) else none
    | none => none

/-- The IP destination of a UDP datagram takes LCP messages: the unit's own address, or the chain's for DST 63 (R339). -/
def State.lcpIp (s : State) (f : Bytes) (u : Nat) : Bool :=
  let all := byteAt f (u + 10) == 63
  if fType f = 0x0800 then
    let d := (f.drop (u - 4)).take 4
    d == leBytes 4 (s.rd 0 CHN_IPV4) || all && d == [239, 76, 89, 78]
  else
    let d := (f.drop (u - 16)).take 16
    d == s.chnIp6 || all && d == [0xFF, 0x02] ++ zeros 12 ++ [0x4C, 0x59]

/-- The offset of an LCP message in the frame (R339). -/
def State.fLcp (s : State) (f : Bytes) : Option Nat :=
  if fType f = 0x88B5 then some (fHead f)
  else match fUdp f with
    | some u => if beAt f (u + 2) 2 = s.rd 0 CHN_LCP_CTRL_UDP_PORT ∧ s.lcpIp f u then some (u + 8) else none
    | none => none

/-- A non-zero UDP checksum that fails (R339). -/
def udpBad (f : Bytes) (u : Nat) : Bool :=
  let len := beAt f (u + 4) 2
  let src := if fType f = 0x0800 then (f.drop (u - 8)).take 8 else (f.drop (u - 32)).take 32
  beAt f (u + 6) 2 != 0 && fold16 (onesSum src + 17 + len + onesSum ((f.drop u).take len)) != 0

/-- A VLAN register matches the frame (R333). -/
def vlanMatch (tagged : Bool) (vid : Nat) (f : Bytes) : Bool :=
  if tagged then fTagged f && fVid f == vid else !fTagged f || fVid f == 0

/-- A MAC address from its octets. -/
def macOf (l : Bytes) : Nat := leNat l

/-- The PTP peer-delay address (R314). -/
def ptpPeer : Nat := macOf [0x01, 0x80, 0xC2, 0x00, 0x00, 0x0E]

/-- The peer-delay addresses of the three transports (R314, R318): that of layer 2, 224.0.0.107 and FF02::6B. -/
def ptpPeers : List Nat := [ptpPeer, macOf [0x01, 0x00, 0x5E, 0x00, 0x00, 0x6B], macOf [0x33, 0x33, 0x00, 0x00, 0x00, 0x6B]]

/-- The PTP destination addresses of R314, as MAC addresses. -/
def ptpDsts : List Nat :=
  [macOf [0x01, 0x1B, 0x19, 0, 0, 0], ptpPeer, macOf [0x01, 0x00, 0x5E, 0x00, 0x01, 0x81], macOf [0x01, 0x00, 0x5E, 0x00, 0x00, 0x6B],
   macOf [0x33, 0x33, 0x00, 0x00, 0x01, 0x81], macOf [0x33, 0x33, 0x00, 0x00, 0x00, 0x6B]]

/-- The group addresses of R333 beside those of PTP: broadcast, the IPv6 addresses of CHN_IPV6 and the chain multicast address. -/
def State.groupDsts (s : State) : List Nat :=
  [macOf [0xFF, 0xFF, 0xFF, 0xFF, 0xFF, 0xFF], macOf ([0x33, 0x33, 0xFF] ++ s.chnIp6.drop 13), macOf [0x33, 0x33, 0, 0, 0, 1],
   macOf [0x03, 0x4C, 0x59, 0x4E, 0, 0]]

/-- An LCP message is bad (R339): CRC, VERSION, LEN, REPLY set, OP NOTIFY, or a DST of another unit. -/
def State.lcpBad (s : State) (m : Bytes) : Bool :=
  let len := leAt m 8 2
  decide (m.length < 16 + len) || crc32c (m.take (12 + len)) != leAt m (12 + len) 4 || byteAt m 0 != 1 || byteAt m 5 % 2 == 1 ||
    byteAt m 1 == 0x30 || (byteAt m 2 != s.rd 0 CHN_ADDR_ADDR && byteAt m 2 != 63)

/-- Where a frame goes (R333, R334): to the internal port, to the other line port. -/
def State.route (s : State) (p : Nat) (f : Bytes) : Bool × Bool :=
  let own := vlanMatch (s.is p ETH_VLAN_TAGGED) (s.rd p ETH_VLAN_VID) f
  let ownPtp := vlanMatch (s.is 0 TIM_VLAN_TAGGED) (s.rd 0 TIM_VLAN_VID) f
  let lcp63 := match s.fLcp f with
    | some o => byteAt f (o + 2) == 63
    | none => false
  if fDouble f then (false, true)
  else if (fPtp f).isSome then
    if ptpPeers.contains (fDst f) then (ownPtp, false)
    else if fDst f = s.id.mac then (ownPtp, !ownPtp)
    else (ownPtp && ptpDsts.contains (fDst f), true)
  else if !own then (false, true)
  else if fDst f = s.id.mac then (true, false)
  else if lcp63 then (true, false)
  else if s.groupDsts.contains (fDst f) then (true, true)
  else (false, true)

/-! The transparent clock (R318). -/

/-- Bytes replaced at an offset. -/
def patch (f : Bytes) (o : Nat) (b : Bytes) : Bytes := f.take o ++ b ++ f.drop (o + b.length)

/-- A change of a UDP payload at offset `o`, with the checksum handled as IEEE 1588 lays down: zero over IPv4, compensated in the two
trailing octets over IPv6. -/
def patchUdp (f : Bytes) (o : Nat) (b : Bytes) : Bytes :=
  let g := patch f o b
  match fUdp f with
  | none => g
  | some u =>
    if fType f = 0x0800 then patch g (u + 6) [0, 0]
    else
      let e := u + beAt f (u + 4) 2 - 2
      let old := onesSum ((f.drop o).take b.length) + beAt f e 2
      let new := onesSum b
      patch g e (beBytes 2 (65535 - fold16 (old + (65535 * 8 - new % (65535 * 8)))))

/-- The number of the primary domain: under PROFILE 1 it is 0 (R314). -/
def State.primary (s : State) : Nat := if s.is 0 TIM_CTRL_PROFILE then 0 else s.rd 0 TIM_DOMAIN_PRI

/-- The receive stamp of a frame that came in at port `p` at TB0 `rx`, at the MDI reference plane, in 2⁻¹⁶ ns (R316). -/
def State.rxPlane (s : State) (p : Nat) (rx : Nat) : Int := rx * 65536 + sInt 16 (s.rd 0 (TIM_PORT_LAT_RX p)) * 8192

/-- The transmit stamp of a message sent now, at the MDI reference plane, in 2⁻¹⁶ ns (R316). -/
def State.txStamp (s : State) (p : Nat) : Int := s.tim.tb0 * 65536 + sInt 16 (s.rd 0 (TIM_PORT_LAT_TX p)) * 8192

/-- The residence time from the receive stamp at port `ip` to the transmit stamp at port `p`, in 2⁻¹⁶ ns, with the rate ratio of the frame's
domain (R316, R318). -/
def State.residence (s : State) (p ip rx dom : Nat) : Int :=
  let d := s.txStamp p - s.rxPlane ip rx
  let r := if dom = s.primary then s.rdS 0 (TIM_TB_RATE 1) else if dom = s.rd 0 TIM_DOMAIN_SEC then s.rdS 0 (TIM_TB_RATE 2) else 0
  roundShr (d * (2 ^ 40 + r)) 40

/-- A passing PTP frame leaves by port `p`: its correction, and what a later Follow_Up needs (R318). -/
def State.ptpCorrect (s : State) (p ip rx : Nat) (f : Bytes) : Bytes × State :=
  match fPtp f with
  | none => (f, s)
  | some o =>
    if !s.is 0 TIM_CTRL_TC_EN then (f, s) else
    let ty := byteAt f o % 16
    let two := (byteAt f (o + 6)).testBit 1
    let dom := byteAt f (o + 4)
    let src := beAt f (o + 20) 10
    let seq := beAt f (o + 30) 2
    let res := s.residence p ip rx dom
    let p2p := s.is 0 TIM_CTRL_DELAY || s.is 0 TIM_CTRL_PROFILE
    let link : Int := if ty = 0 ∧ p2p then (s.rd 0 (TIM_PORT_PDELAY ip) * 65536 : Nat) else 0
    let corr := sInt 64 (beAt f (o + 8) 8)
    let put (c : Int) (s : State) := (patchUdp f (o + 8) (beBytes 8 (uNat 64 (corr + c))), s.addWrap 0 (TIM_PORT_TC_FRAMES p) 1)
    if ty = 0 ∧ two then
      let w : PtpWait := ⟨9, ip, dom, src, seq, res + link, 0, 0⟩
      (f, { s with tim := { s.tim with waits := s.tim.waits ++ [w] } })
    else if ty = 0 then put (res + link) s
    else if ty = 1 ∨ ty = 2 then put res s
    else if ty = 8 then
      match s.tim.waits.find? fun w => w.kind == 9 && w.srcId == src && w.seq == seq && w.domain == dom with
      | some w =>
        let s := { s with tim := { s.tim with waits := s.tim.waits.erase w } }
        let (f', s) := put w.corr s
        if s.is 0 TIM_CTRL_PROFILE then
          let (v, s) := s.fresh
          (patchUdp f' (o + 54) (beBytes 4 v), s)
        else (f', s)
      | none => (f, s)
    else (f, s)

/-! Transmission (R336, R337). -/

/-- The port serves its highest non-empty queue at a frame boundary (R337). -/
def State.transmit (s : State) (p : Nat) : State :=
  match s.topQueue p with
  | none => s
  | some q =>
    match s.txq p q with
    | [] => s
    | f :: l =>
      let s := s.setTxq p q l
      let (b, s) := match f.ptp with
        | some (ip, rx) => s.ptpCorrect p ip rx f.bytes
        | none => (f.bytes, s)
      let s := s.leave p b
      let s := if f.pass then s.addWrap p ETH_PASS_FRAMES 1 else s
      s.fwDrain s.net.fwWait.length

/-- The frame that a port serves next would not end before a launch (R325, R337). -/
def State.nextBlocked (s : State) (p : Nat) : Bool :=
  match s.topQueue p with
  | some q => (s.txq p q).head?.any fun f => s.launchBlocks p f.bytes.length
  | none => false

/-- TRANSMIT: a port whose link is up and whose next frame ends before any launch (R325, R337). -/
def execTransmit (p : EthPort) (s : State) : Answer :=
  whenEv s (s.locked p .eth && s.is p ETH_STATUS_LINK && !s.nextBlocked p) fun s => s.transmit p

/-! Reception (R332, R334, R336). -/

/-- The transmit queue of a passing frame (R337). -/
def State.passQueue (s : State) (p : Nat) (f : Bytes) : Nat :=
  if (fPtp f).isSome then 7 else if fTagged f then fPcp f else s.rd p ETH_PASS_Q

/-- The conditions of R336 under which a frame starts on the egress port before it has been received whole. -/
def State.cutThrough (s : State) (p o : Nat) (q : Nat) : Bool :=
  ((List.range 8).all fun k => decide (k < q) || (s.txq o k).isEmpty) && !s.portHeld o &&
    (s.rd p ETH_STATUS_SPEED == 0 || s.rd o ETH_STATUS_SPEED == 1) && s.is o ETH_STATUS_LINK

/-- A frame passes to the other line port; one that finds its queue at the limit is dropped, and counted unless it is a
PTP frame (R337; log 233). -/
def State.passOn (s : State) (p o : Nat) (f : Bytes) : State :=
  let q := s.passQueue o f
  if !s.is o ETH_STATUS_LINK then s
  else if s.txRoom o q f.length then
    s.txPut o q ⟨f, true, if (fPtp f).isSome then some (p, s.tim.tb0) else none⟩
  else if (fPtp f).isSome then s
  else (s.addSat o ETH_PASS_DROP 1).setF o ETH_ERR_PASS_DROP

/-- A frame found too long or with a bad FCS: where its egress has started it ends with its FCS inverted (R336, R355). -/
def State.stomp (s : State) (p o : Nat) (f : Bytes) : State :=
  let (_, other) := s.route p f
  let b := f.take (f.length - 4)
  if other && s.cutThrough p o (s.passQueue o f) then
    let s := { s with net := { s.net with lastOut := smSet [] o (b ++ (leBytes 4 (crcOf crc32Kind b)).map (~~~ ·)) s.net.lastOut } }
    ((s.addWrap o ETH_TX_FRAMES 1).addSat o ETH_PASS_STOMP 1).setF o ETH_ERR_STOMP
  else s

/-- A frame arrives on port `p`, from its destination address to its FCS (R332, R334, R339). What is handed to the internal port is the
operand of the command that carries it out (log 27); here it is checked. -/
def State.frameIn (s : State) (p : Nat) (f : Bytes) : State :=
  let o := 1 - p
  if f.length < 64 then (s.addSat p ETH_RX_LEN_ERR 1).setF p ETH_ERR_LEN
  else if 9216 < f.length then ((s.addSat p ETH_RX_LEN_ERR 1).setF p ETH_ERR_LEN).stomp p o f
  else
    let b := f.take (f.length - 4)
    if leAt f (f.length - 4) 4 ≠ crcOf crc32Kind b then ((s.addSat p ETH_RX_FCS_ERR 1).setF p ETH_ERR_FCS).stomp p o f
    else
      let s := s.addWrap p ETH_RX_FRAMES 1
      if fType b = 0x8808 then s.addSat p ETH_RX_MACCTRL 1
      else
        let (toI, toO) := s.route p b
        let s := if toO then s.passOn p o b else s
        match toI, s.fLcp b with
        | true, some m =>
          let drop := match fUdp b with
            | some u => udpBad b u
            | none => false
          if !drop && s.lcpBad (b.drop m) then (s.addSat 0 CHN_LCP_BAD 1).setF 0 CHN_ERR_LCP_BAD else s
        | _, _ => s

/-- FRAME_RECEIVE: on a port whose link is up (R332, R334). -/
def execFrameReceive (p : EthPort) (frame : Bytes) (s : State) : Answer :=
  whenEv s (s.locked p .eth && s.is p ETH_STATUS_LINK) fun s => s.frameIn p frame

/-! ARP and NDP (R333). -/

/-- The answer to an ARP request for CHN_IPV4. -/
def State.arpReply (s : State) (p : Nat) (mac : Nat) (ip : Nat) : State :=
  let q := s.rd 0 CHN_LCP_CTRL_QUEUE
  s.fwSend p q (ethHead mac s.id.mac (s.ownTag p q) 0x0806 ++ [0, 1, 8, 0, 6, 4, 0, 2] ++ macBytes s.id.mac ++ leBytes 4 (s.rd 0 CHN_IPV4) ++
    macBytes mac ++ leBytes 4 ip)

/-- ARP: a request for CHN_IPV4 is answered; addresses are numbers with their first octet in [7:0] (R333). -/
def execArp (p : EthPort) (senderMac : BitVec 48) (senderIp targetIp : BitVec 32) (s : State) : Answer :=
  whenEv s (s.locked 0 .aux && s.is p ETH_STATUS_LINK && targetIp.toNat == s.rd 0 CHN_IPV4) fun s => s.arpReply p senderMac.toNat senderIp.toNat

/-- The neighbour advertisement for CHN_IPV6: solicited and override set, the target's link-layer address as its option. -/
def State.ndpReply (s : State) (p : Nat) (mac : Nat) (ip : Bytes) : State :=
  let q := s.rd 0 CHN_LCP_CTRL_QUEUE
  let me := s.chnIp6
  let body : Bytes := [0x60, 0, 0, 0] ++ me ++ [2, 1] ++ macBytes s.id.mac
  let c := fold16 (onesSum (me ++ ip) + 58 + 32 + onesSum ([136, 0, 0, 0] ++ body))
  s.fwSend p q (ethHead mac s.id.mac (s.ownTag p q) 0x86DD ++ [0x60, 0, 0, 0, 0, 32, 58, 255] ++ me ++ ip ++ [136, 0] ++ beBytes 2 c ++ body)

/-- NDP: a solicitation for CHN_IPV6 is answered (R333). -/
def execNdp (p : EthPort) (senderMac : BitVec 48) (senderIp targetIp : BitVec 128) (s : State) : Answer :=
  whenEv s (s.locked 0 .aux && s.is p ETH_STATUS_LINK && targetIp.toNat == leNat s.chnIp6) fun s => s.ndpReply p senderMac.toNat (leBytes 16 senderIp.toNat)

end Sys2Proof.Machine
end

