-- ==== Sys2Proof/Machine/BusDecode.lean ====
section
/-! DEFINITION. A register access before its effect: which register an address names (R7, R17, R35, R36), what a write makes of each field
(R14, R15), the values that a register stores in place of those outside its range, and the holds and latches of pairs (R13). -/

namespace Sys2Proof.Machine

/-- A register that an address names: tile, block, offset, the row of its table and its indices. -/
structure RegRef where
  t : Nat
  blk : Nat
  off : Nat
  row : RegRow
  ix : List Nat
  deriving DecidableEq, Repr

/-- The register at an address: none where the tile, the block or the offset has none (R7, R35, R36). -/
def State.regAt (s : State) (a : Nat) : Option RegRef :=
  match findReg (addrBlk a) (addrOff a) with
  | some (r, ix) => if placeOk s.id (addrTile a) r.place then some ⟨addrTile a, addrBlk a, addrOff a, r, ix⟩ else none
  | none => none

/-- The register is an instance of the one that `f` names. -/
def RegRef.named (r : RegRef) (f : Fld) : Bool := r.blk == f.blk && r.row.off == f.off

/-- The register is an instance of one of some. -/
def RegRef.among (r : RegRef) (l : List Fld) : Bool := l.any r.named

/-- Its first and its second index. -/
def RegRef.i (r : RegRef) : Nat := r.ix.headD 0
def RegRef.j (r : RegRef) : Nat := r.ix.getD 1 0

/-- It is a structure register (R263, R371). -/
def RegRef.structured (r : RegRef) : Bool := r.row.structured r.ix

/-- The whole word of the register, as a field. -/
def RegRef.fld (r : RegRef) : Fld := ⟨r.blk, r.off, 31, 0⟩

/-- Its package address. -/
def RegRef.addr (r : RegRef) : Nat := addrOf r.t r.blk r.off

/-! Fields (R14, R15). -/

/-- What a write of `v` makes of a field of the word `old`. -/
def FieldRow.write (f : FieldRow) (v old : Nat) : Nat :=
  let x := bitsOf old f.hi f.lo
  let y := bitsOf v f.hi f.lo
  match f.acc with
  | .rw => withBits old f.hi f.lo y
  | .rws => withBits old f.hi f.lo y
  | .w1c => withBits old f.hi f.lo (x - (x &&& y))
  | .w1s => withBits old f.hi f.lo (x ||| y)
  | .ro => old
  | .wo => old

/-- The word that a write of `v` leaves of `old`: bits without a field keep their reset value 0. -/
def RegRow.write (r : RegRow) (old v : Nat) : Nat := r.fields.foldl (fun w f => f.write v w) old

/-- The bits of fields of code W1C. -/
def RegRow.w1cMask (r : RegRow) : Nat := r.fields.foldl (fun m f => if f.acc = .w1c then withBits m f.hi f.lo (2 ^ 32 - 1) else m) 0

/-- A written word without the 1s for W1C bits that hardware sets in the same cycle: those stay set (R16). -/
def State.keepSet (s : State) (b : Nat) (r : RegRef) (v : Nat) : Nat :=
  let now := s.wordB b r.t r.blk r.off
  let hw := smGet 0 (regKey b r.t r.blk r.off) s.cyc.set ||| (now - (now &&& s.began.wordB b r.t r.blk r.off))
  v - (v &&& hw &&& r.row.w1cMask)

/-- Bits that read 0: fields of code WO (R15). -/
def RegRow.read (r : RegRow) (w : Nat) : Nat :=
  r.fields.foldl (fun w f => match f.acc with
    | .wo => withBits w f.hi f.lo 0
    | _ => w) w

/-- The register is written by software alone in full: its word is WO. -/
def RegRow.isWo (r : RegRow) : Bool := r.fields.any fun f => f.acc == .wo

/-! Ranges. -/

/-- A field that stores the nearest limit in place of a value outside its range; `zero`: 0 is stored as it is. -/
structure Clamp where
  f : Fld
  min : Nat
  max : Nat
  zero : Bool
  deriving DecidableEq, Repr

def clampsA : List Clamp := [
  ⟨BND_MAX_LINE_RATE_HZ, 1, 100000, false⟩, ⟨BND_IDLE_TIMEOUT_US, 100, 1000000, false⟩, ⟨BND_DRAIN_PERIOD_US, 16, 10000, false⟩,
  ⟨BND_BLIND_CTRL_MAXBANDS, 1, 4096, false⟩, ⟨BND_BLIND_CTRL_MAXREC, 1, 255, false⟩, ⟨FXL_PORT_CMD_TMO_US 0, 10, 65535, false⟩,
  ⟨ING_PORT_CTRL_WAIT 0, 2, 15, false⟩, ⟨COR_PORT_SUB_CTRL_FADE_LEN 0 0, 0, 4096, false⟩, ⟨COR_PORT_SUB_DPR_COUNT 0 0, 0, 1024, false⟩,
  ⟨EXP_PORT_AE_CTRL_INTERVAL 0, 2, 255, false⟩, ⟨EXP_PORT_AE_CTRL_STEP 0, 0, 0x800, false⟩, ⟨STI_GRP_HEDGE_COUNT 0, 0, 16, false⟩,
  ⟨STI_SUB_HIST_SLOTS 0, 2, 1025, true⟩, ⟨STI_IMP_COUNT 0, 1, 1024, false⟩, ⟨REF_CTRL_REC_EVERY, 1, 255, false⟩,
  ⟨REF_LEAD_MIN, 1, 15, false⟩, ⟨REF_GRP_CFG_PATCHES 0, 0, 64, false⟩, ⟨REF_GRP_LPR 0, 1, 0xFFFFF, false⟩,
  ⟨REF_GRP_LEARN_K 0, 3, 15, false⟩, ⟨SEG_GRP_MAXLEN 0, 16, 4096, false⟩, ⟨COL_GRID_LEN, 1000, 0xFFFFFFFF, false⟩]

def clampsB : List Clamp := [
  ⟨POS_STANDSTILL_MS, 1, 65535, false⟩, ⟨POS_MARK_OFFSET, 0, 50000000, false⟩, ⟨POS_ABS_CFG_CLKDIV 0, 12, 249, false⟩,
  ⟨POS_ABS_CFG_ERR_LIMIT 0, 1, 15, false⟩, ⟨POS_CMP_LEN 0, 1, 4096, false⟩, ⟨TIM_STEP_LIMIT, 1000, 0xFFFFFFFF, false⟩,
  ⟨TIM_SLEW_MAX, 1, 100, false⟩, ⟨TIM_QUAL_COUNT, 1, 255, false⟩, ⟨TIM_ANNOUNCE_TIMEOUT, 2, 10, false⟩,
  ⟨TIM_ACT_PERIOD 0, 100, 0xFFFFFFFF, true⟩, ⟨CHN_LCP_CTRL_TMO, 1, 255, false⟩, ⟨OUT_STR_CTRL_SCALE 0, 1, 127, false⟩,
  ⟨OUT_STR_DEC 0, 1, 511, false⟩, ⟨OUT_STR_MAXPAY 0, 256, 9000, false⟩, ⟨OUT_REC_MAXPAY 0, 256, 9000, false⟩, ⟨DMA_HOPS, 1, 65535, false⟩,
  ⟨QUE_Q_CFG_QUOTA 0, 0, 32768, false⟩, ⟨FIR_CH_CFG_STAGES 0, 1, 3, false⟩, ⟨FIR_CH_THR_CTRL_PERSIST 0 0, 1, 65535, false⟩,
  ⟨CAL_DELTA_T, 16, 512, false⟩, ⟨CAL_ST_DWELL, 10, 1000000, false⟩, ⟨PWR_THERM_WARN, 960, 1760, false⟩, ⟨PWR_FLASH_LEN, 1, 511, false⟩]

/-- A clamp acts on a written word. -/
def Clamp.act (c : Clamp) (v : Nat) : Nat :=
  let x := bitsOf v c.f.hi c.f.lo
  if c.zero && x == 0 then v else withBits v c.f.hi c.f.lo (clampN c.min c.max x)

/-- The word that a register stores for a written one. -/
def RegRef.clamped (r : RegRef) (v : Nat) : Nat :=
  ((clampsA ++ clampsB).filter fun c => r.named c.f).foldl (fun v c => c.act v) v

/-! Pairs (R13). -/

/-- The entry of an origin for an address. -/
def findHold (l : List PairHold) (o : Origin) (a : Nat) : Option Nat := (l.find? fun h => h.origin == o && h.addr == a).map (·.word)

/-- The list without the entry of an origin for an address. -/
def dropHold (l : List PairHold) (o : Origin) (a : Nat) : List PairHold := l.filter fun h => !(h.origin == o && h.addr == a)

/-- The list with the entry of an origin for an address set. -/
def putHold (l : List PairHold) (o : Origin) (a w : Nat) : List PairHold := ⟨o, a, w⟩ :: dropHold l o a

/-- A low word is written: it is held for the origin. -/
def State.holdLow (s : State) (o : Origin) (r : RegRef) (v : Nat) : State :=
  { s with holds := putHold s.holds o r.addr v, lowSeen := if r.row.isWo then putHold s.lowSeen o r.addr v else s.lowSeen }

/-- The low word that a high-word write at `r` completes, and the state in which the hold is used up. `cur` is the low word as it stands. -/
def State.takeLow (s : State) (o : Origin) (r : RegRef) (cur : Nat) : Nat × State :=
  let a := r.addr - 4
  match findHold s.holds o a with
  | some w => (w, { s with holds := dropHold s.holds o a })
  | none => (if r.row.isWo then (findHold s.lowSeen o a).getD 0 else cur, s)

end Sys2Proof.Machine
end

