-- ==== Sys2Proof/Machine/Cfg.lean ====
section
/-! DEFINITION. The state of bank SHADOW: refusing a load, and arming and disarming the swap (R266, R278 to R281, R284, R286). -/

namespace Sys2Proof.Machine

/-- CFG_STATUS.SHADOW (R266). -/
def State.shadowSt (s : State) : Nat := s.rd 0 CFG_STATUS_SHADOW

def State.setShadow (s : State) (c : Nat) : State := s.wr 0 CFG_STATUS_SHADOW c

def State.updCfg (s : State) (f : Cfg → Cfg) : State := { s with cfg := f s.cfg }

/-- The stripes of the job in SHADOW are freed (R278). -/
def State.freeShadowRings (s : State) : State :=
  let b := s.shadow
  s.updRef fun x => { x with rings := x.rings.filter fun (k, _) => k / 64 != b }

/-- The RETIRING bank becomes FREE, and the job totals move (R70, R267). -/
def State.freeBank (s : State) : State := ({ s with retiring := none }.setShadow 0).freeShadowRings.moveJob

/-- What a refusal reports (R279). -/
def State.refusal (s : State) (code sec ofs session : Nat) : State :=
  let s := ((s.setF 0 CFG_ERR_REFUSED).wr 0 CFG_REFUSE_CODE code).wr 0 CFG_REFUSE_SECTION sec
  ((s.wr 0 CFG_REFUSE_OFS ofs).addSat 0 CFG_LOADS_REFUSED 1).notify 0x0004 code sec ofs session

/-- The load is refused at a section and a byte offset: SHADOW is INVALID (R278, R279; log 67). -/
def State.loadRefuse (s : State) (code sec ofs : Nat) : State :=
  let l := s.cfg.load
  let s := s.refusal code sec ofs (s.rd 0 CFG_STATUS_SESSION)
  let s := ((s.setShadow 6).wr 0 CFG_SHADOW_JOB 0).freeShadowRings
  let s := if l.any (·.install == 2) then s.wr 0 CFG_INSTALL_ID 0 else s
  let s := s.setIf (l.any (·.session == 0)) 0 PWR_BOOT_IMAGE_REFUSED
  s.updCfg fun c => { c with load := none }

/-- The load is aborted or timed out where it stands (R278). -/
def State.loadStop (s : State) : State :=
  match s.cfg.load with
  | some l => s.loadRefuse 0x0E l.idx l.bytes.length
  | none => s

/-- CFG_CTRL.ABORT is written: a verification that completes in the same cycle wins, whichever comes first (R278, R286). -/
def State.cfgAbort (s : State) : State :=
  if s.shadowSt = 2 ∧ s.pending.contains .verifyComplete then s.setF 0 CFG_ERR_ABORT_LATE
  else if s.shadowSt = 1 ∨ s.shadowSt = 2 then s.loadStop
  else s.setIf (s.shadowSt == 3 && s.cfg.load.any (·.doneAt == some s.tim.tb0)) 0 CFG_ERR_ABORT_LATE

/-- CFG_ABORT (R278). -/
def execCfgAbort (s : State) : Answer := finish s s.cfgAbort

/-- LOAD_TIMEOUT: no image byte for 1 s while a load is open (R278). -/
def execLoadTimeout (s : State) : Answer := whenEv s (s.shadowSt == 1) State.loadStop

/-! Arming (R280, R281, R284, R286). -/

/-- SWAP_POS. -/
def State.swapPos (s : State) : Int := sInt 64 (s.rd64 0 CFG_SWAP_POS_LO)

/-- The label grid of SHADOW counts from SWAP_POS where GRID_REL is set (R284). -/
def State.armGrid (s : State) : State :=
  let x := s.swapPos
  s.setGrid s.shadow (if s.is 0 CFG_SWAP_CTRL_GRID_REL then ⟨x, x, none, []⟩ else .idle)

/-- The swap is armed. -/
def State.armed (s : State) (uncond immediate : Bool) : State :=
  (s.armGrid.leadArm.setShadow 4).updCfg fun c => { c with uncond := uncond, immediate := immediate, armTb0 := some s.tim.tb0 }

/-- A band tick of this cycle has opened a band whose first line reaches SWAP_POS (R286). -/
def State.armLate (s : State) : Bool :=
  s.inTickCycle && s.newest.any fun b => !b.pos.isEmpty && decide (s.swapPos ≤ b.start)

/-- The WEB_POS of the latest accepted line is already at SWAP_POS (R281). -/
def State.swapBehind (s : State) : Bool := s.is 0 BND_STATUS_RUNNING && s.clk.lastWeb.any fun w => decide (s.swapPos ≤ w)

/-- ARM is written (R281, R286). -/
def State.armSwap (s : State) : State :=
  let now := s.is 0 CFG_SWAP_CTRL_MODE
  if s.shadowSt ≠ 3 ∨ (now ∧ s.is 0 BND_CTRL_RUN) then s.setF 0 CFG_ERR_ARM_REFUSED
  else if now then s.armed false true
  else if s.armLate then (s.armed true false).setF 0 CFG_ERR_LATE_WRITE
  else if s.swapBehind then
    if s.is 0 CFG_SWAP_CTRL_CATCHUP then s.armed true false else s.setF 0 CFG_ERR_MISSED
  else s.armed false false

/-- DISARM is written: a swap tick of the same cycle wins, whichever comes first (R281, R286). -/
def State.disarm (s : State) : State :=
  if s.shadowSt ≠ 4 then s
  else if s.clk.swapDue.isSome then s.setF 0 CFG_ERR_LATE_WRITE
  else (s.setShadow 3).updCfg fun c => { c with uncond := false, immediate := false, disarmed := some (s.tim.tb0, c.uncond, c.immediate) }

/-- A write of CFG_SWAP_CTRL. -/
def State.swapCtrl (s : State) (v : Nat) : State :=
  let s := s.setWord 0 CFG_SWAP_CTRL.blk CFG_SWAP_CTRL.off (bitsOf v 4 2 * 4)
  let s := if v.testBit 1 then s.disarm else s
  if v.testBit 0 then s.armSwap else s

/-- ARM: CFG_SWAP_CTRL is written (R280, R281). -/
def execArm (v : BitVec 32) (s : State) : Answer := finish s (s.swapCtrl v.toNat)

/-- DISARM (R281). -/
def execDisarm (s : State) : Answer := finish s s.disarm

end Sys2Proof.Machine
end

