-- ==== Sys2Proof/Machine/Claim.lean ====
section
/-! DEFINITION. Who may write the event channels and relays (R371, R372), and the words of the fabric as a hop of the cycle uses them (R373). -/

namespace Sys2Proof.Machine

/-- The word of an EVT register that a hop of this cycle uses: the word before any write of the cycle (R373). -/
def State.evtWord (s : State) (t : Nat) (f : Fld) : Nat :=
  let k := regKey s.bank t f.blk f.off
  match s.fab.old.find? (·.1 == k) with
  | some (_, w) => w
  | none => s.word t f.blk f.off

/-- An EVT register of bank `b` is written; hops of this cycle keep its old word. -/
def State.evtSet (s : State) (b t : Nat) (f : Fld) (v : Nat) : State :=
  let k := regKey b t f.blk f.off
  let w := s.wordB b t f.blk f.off
  let s := if s.fab.old.any (·.1 == k) then s else { s with fab := { s.fab with old := (k, w) :: s.fab.old } }
  s.setWordB b t f.blk f.off v

/-- What an EVT register offset belongs to. -/
inductive EvtReg where
  | chan (c off : Nat)
  | gchan (g off : Nat)
  | gattr (g : Nat)
  | relay (k : Nat)
  | other
  deriving DecidableEq, Repr

/-- The channel or relay that a register of block EVT belongs to (R374). -/
def evtReg (off : Nat) : EvtReg :=
  if 0x80 ≤ off ∧ off < 0xC0 then .relay ((off - 0x80) / 4)
  else if 0x1000 ≤ off ∧ off < 0x2000 then .chan ((off - 0x1000) / 0x40) (off % 0x40)
  else if 0x3000 ≤ off ∧ off < 0x3400 then .gchan ((off - 0x3000) / 0x20) (off % 0x20)
  else if 0x3400 ≤ off ∧ off < 0x3480 then .gattr ((off - 0x3400) / 4)
  else .other

/-- The register is a structure register: of channels 0 to 47, global channels 0 to 23 and relays 0 to 11 (R371). -/
def EvtReg.structured (r : EvtReg) : Bool :=
  match r with
  | .chan c _ => decide (c < 48)
  | .gchan g _ => decide (g < 24)
  | .gattr g => decide (g < 24)
  | .relay k => decide (k < 12)
  | .other => false

/-- The register is one of a channel or a relay. -/
def EvtReg.isChan (r : EvtReg) : Bool := r != .other

/-- OWNER and SECURE of the channel or relay in bank `b`. A global channel's stand on tile 0. -/
def State.evtAttr (s : State) (b t : Nat) (r : EvtReg) : Nat × Bool :=
  match r with
  | .chan c _ => (s.rdB b t (EVT_CH_ATTR_OWNER c), s.rdB b t (EVT_CH_ATTR_SECURE c) != 0)
  | .gchan g _ => (s.rdB b 0 (EVT_GCH_ATTR_OWNER g), s.rdB b 0 (EVT_GCH_ATTR_SECURE g) != 0)
  | .gattr g => (s.rdB b 0 (EVT_GCH_ATTR_OWNER g), s.rdB b 0 (EVT_GCH_ATTR_SECURE g) != 0)
  | .relay k => (s.rdB b t (EVT_RELAY_OWNER k), false)
  | .other => (0, false)

/-- The CON word of a channel that holds the bits of the relays. -/
def EvtReg.relayCon (r : EvtReg) : Bool :=
  match r with
  | .chan _ off => off == 0x34
  | .gchan _ off => off == 0x1C
  | _ => false

/-- A CON word enables only session relays of the channel's owner (R372). A structure channel has none, as its owner is nobody. -/
def State.relayBitsOk (s : State) (t : Nat) (r : EvtReg) (owner v : Nat) : Bool :=
  !r.relayCon || [12, 13, 14, 15].all fun k => !v.testBit (16 + k) || (!r.structured && s.rd t (EVT_RELAY_OWNER k) == owner)

/-- The register holds OWNER. -/
def EvtReg.isAttr (r : EvtReg) : Bool :=
  match r with
  | .chan _ off => off == 0x3C
  | .gattr _ => true
  | .relay _ => true
  | _ => false

/-- The register is ATTR of a channel. -/
def EvtReg.isChanAttr (r : EvtReg) : Bool :=
  match r with
  | .chan _ off => off == 0x3C
  | .gattr _ => true
  | _ => false

/-- The field of OWNER in the written word. -/
def EvtReg.ownerIn (r : EvtReg) (v : Nat) : Nat :=
  match r with
  | .relay _ => bitsOf v 18 16
  | _ => bitsOf v 2 0

/-- An LCP write of session `n` to a session channel's or a session relay's register is allowed (R372). -/
def State.evtMay (s : State) (t n : Nat) (r : EvtReg) (v : Nat) : Bool :=
  let o := (s.evtAttr s.bank t r).1
  let own := n != 0 && o == n
  let claim := n != 0 && o == 0 && r.isAttr && r.ownerIn v == n
  (own || claim) && s.relayBitsOk t r o v

/-- Relay `k` is cleared from the CON of every channel of its tile (R372). -/
def State.relayCut (s : State) (t k : Nat) : State :=
  let cut (s : State) (f : Fld) : State := s.evtSet s.bank t f (withBits (s.word t f.blk f.off) (16 + k) (16 + k) 0)
  let s := (List.range 64).foldl (fun s c => if s.rd t (EVT_CH_CON c 5) / 2 ^ (16 + k) % 2 = 1 then cut s (EVT_CH_CON c 5) else s) s
  (List.range 32).foldl (fun s g => if s.rd t (EVT_GCH_CON g 5) / 2 ^ (16 + k) % 2 = 1 then cut s (EVT_GCH_CON g 5) else s) s

/-- A write that R372 allows to a session relay: one that changes its owner away clears its bit in every CON. -/
def State.relayWrite (s : State) (t k v : Nat) : State :=
  let o := s.rd t (EVT_RELAY_OWNER k)
  let s := s.evtSet s.bank t (EVT_RELAY k) (v % 2 ^ 19)
  if o ≠ 0 ∧ o ≠ bitsOf v 18 16 then s.relayCut t k else s

/-- The words of a channel's SRC and CON registers. -/
def chanWords (c : Nat) : List Fld := (List.range 8).map (EVT_CH_SRC c) ++ (List.range 6).map (EVT_CH_CON c)
def gchanWords (g : Nat) : List Fld := [EVT_GCH_SRC_0 g, EVT_GCH_SRC_1 g] ++ (List.range 6).map (EVT_GCH_CON g)

/-- Registers of a tile cleared. -/
def State.evtClear (s : State) (t : Nat) (fs : List Fld) : State := fs.foldl (fun s f => s.evtSet s.bank t f 0) s

/-- What a session owns in the fabric is released when it closes (R372). -/
def State.evtSessionClose (s : State) (n : Nat) : State :=
  let s := s.eachTile fun t s =>
    let s := [12, 13, 14, 15].foldl (fun s k => if s.rd t (EVT_RELAY_OWNER k) = n then (s.evtSet s.bank t (EVT_RELAY k) 0).relayCut t k else s) s
    ((List.range 16).map (48 + ·)).foldl (fun s c =>
      if s.rd t (EVT_CH_ATTR_OWNER c) = n then (s.evtClear t (chanWords c)).wr t (EVT_CH_ATTR_OWNER c) 0 else s) s
  ((List.range 8).map (24 + ·)).foldl (fun s g =>
    if s.rd 0 (EVT_GCH_ATTR_OWNER g) = n then (s.eachTile fun t s => s.evtClear t (gchanWords g)).wr 0 (EVT_GCH_ATTR_OWNER g) 0 else s) s

end Sys2Proof.Machine
end

