-- ==== Sys2Proof/Machine/Dma.lean ====
section
/-! DEFINITION. The DMA channels (R375 to R386). A copy goes on by free numbers of beats in each EVTC cycle and comes to its end with DMA_COMPLETE,
DMA_ABORT or DMA_BUS_TIMEOUT. -/

namespace Sys2Proof.Machine

def State.dmaChan (s : State) (t c : Nat) : DmaChan := smGet DmaChan.idle (t * 32 + c) s.dma

def State.updDma (s : State) (t c : Nat) (f : DmaChan → DmaChan) : State := { s with dma := smUpd DmaChan.idle (t * 32 + c) f s.dma }

/-- The channel copies. -/
def State.dmaRunning (s : State) (t c : Nat) : Bool := s.rd t (DMA_CH_STATUS_STATE c) == 1

/-- STATUS.WAITING: a running channel of a higher level is served (R378). -/
def State.dmaWaiting (s : State) (t c : Nat) : Bool :=
  s.dmaRunning t c && (List.range 32).any fun d => s.dmaRunning t d && decide (s.rd t (DMA_CH_CTRL_PRIO c) < s.rd t (DMA_CH_CTRL_PRIO d))

/-- Why an access of a DMA channel to the byte at `a` fails, as STATUS.CAUSE, and the flags that the refusing rule sets (R375). -/
def State.dmaBad (s : State) (a : Nat) (write : Bool) : Option (Nat × (State → State)) :=
  if 2 ^ 40 ≤ a ∨ ¬ s.fit (addrTile a) ∨ (windowOf a).isNone then some (3, fun s => s)
  else (s.winRule none a write).map fun f => (4, f)

/-- The first failing byte of a stretch: its offset, cause and flags. -/
def State.dmaFirstBad (s : State) (a n : Nat) (write : Bool) : Option (Nat × Nat × (State → State)) :=
  (List.range n).findSome? fun i => (s.dmaBad (a + i) write).map fun (c, f) => (i, c, f)

/-- What a copy has come to: the state, the bytes of the move left, the holding buffer, and the cause and address of a failure. -/
abbrev DmaMoved := State × Nat × Bytes × Option (Nat × Nat)

/-- `left` bytes are written in ascending order from the holding buffer, which is read in ascending order, at most 512 bytes ahead of the write point;
how far ahead is free (R377; log 74). `unread` bytes of the copy have not been read. -/
def dmaCopy : Nat → State → Nat → Nat → Nat → Nat → Bytes → DmaMoved
  | 0, s, _, _, _, left, buf => (s, left, buf, none)
  | fuel + 1, s, src, dst, unread, left, buf =>
    if left = 0 then (s, 0, buf, none)
    else
      let (x, s) := s.fresh
      let (y, s) := s.fresh
      let r := Nat.min unread (if buf.isEmpty then 1 + x % 512 else x % (513 - buf.length))
      match s.dmaFirstBad src r false with
      | some (i, c, f) => (f s, left, buf, some (c, src + i))
      | none =>
        let buf := buf ++ s.bytes src r
        let w := Nat.min left (1 + y % buf.length)
        match s.dmaFirstBad dst w true with
        | some (i, c, f) => (f (s.setBytes dst (buf.take i)), left - i, [], some (c, dst + i))
        | none => dmaCopy fuel (s.setBytes dst (buf.take w)) (src + r) (dst + w) (unread - r) (left - w) (buf.drop w)

/-- A channel halts (R375, R382). -/
def State.dmaHalt (s : State) (t c cause a : Nat) : State :=
  let s := (s.wr t (DMA_CH_STATUS_STATE c) 3).wr t (DMA_CH_STATUS_CAUSE c) cause
  let s := (s.wr t (DMA_CH_ERR_ADDR_LO c) a).wr t (DMA_CH_ERR_ADDR_HI c) (a / 2 ^ 32 % 256)
  (s.setF t DMA_ERR_HALT).pip t 148

/-- A channel completes (R382, R383). -/
def State.dmaDone (s : State) (t c : Nat) : State :=
  let s := ((s.wr t (DMA_CH_STATUS_STATE c) 2).addWrap t (DMA_CH_DONES c) 1).pip t (116 + c)
  let s := s.updDma t c fun x => { x with ended := s.tim.tb0 + 1, buf := [] }
  if s.id.variant = .lyn880 then s else s.setBits t DMA_INT_STATUS (2 ^ c)

/-- SRC, DST and NEXT of a channel. -/
def State.dmaSrc (s : State) (t c : Nat) : Nat := s.rd t (DMA_CH_SRC_LO c) + 2 ^ 32 * (s.rd t (DMA_CH_SRC_HI c) % 256)
def State.dmaDst (s : State) (t c : Nat) : Nat := s.rd t (DMA_CH_DST_LO c) + 2 ^ 32 * (s.rd t (DMA_CH_DST_HI c) % 256)
def State.dmaNext (s : State) (t c : Nat) : Nat := s.rd t (DMA_CH_NEXT_LO c) + 2 ^ 32 * (s.rd t (DMA_CH_NEXT_HI c) % 256)

/-- The descriptor at NEXT is fetched into the registers (R379, R380). The answer says whether the channel goes on. -/
def State.dmaFetch (s : State) (t c : Nat) : Bool × State :=
  let a := s.dmaNext t c
  if (s.dmaChan t c).hops ≤ s.rd t (DMA_CH_HOPS_USED c) then (false, s.dmaHalt t c 1 a)
  else
    let s := s.addWrap t (DMA_CH_HOPS_USED c) 1
    if a % 32 ≠ 0 then (false, s.dmaHalt t c 5 a)
    else
      match s.dmaFirstBad a 32 false with
      | some (i, k, f) => (false, (f s).dmaHalt t c k (a + i))
      | none =>
        let d := s.bytes a 32
        let src := leAt d 0 8
        let dst := leAt d 8 8
        let next := leAt d 20 8
        let flags := leAt d 28 4
        if 2 ^ 40 ≤ src ∨ 2 ^ 40 ≤ dst ∨ 2 ^ 40 ≤ next ∨ 4 ≤ flags then (false, s.dmaHalt t c 5 a)
        else
          let s := (s.wr t (DMA_CH_SRC_LO c) src).wr t (DMA_CH_SRC_HI c) (src / 2 ^ 32)
          let s := (s.wr t (DMA_CH_DST_LO c) dst).wr t (DMA_CH_DST_HI c) (dst / 2 ^ 32)
          let s := (s.wr t (DMA_CH_NEXT_LO c) next).wr t (DMA_CH_NEXT_HI c) (next / 2 ^ 32)
          let s := s.wr t (DMA_CH_COUNT c) (leAt d 16 4)
          let s := s.wr t (DMA_CH_REMAIN c) (leAt d 16 4)
          (true, s.updDma t c fun x => { x with flags := flags, buf := [] })

/-- The copy that a channel makes is its last: no chain, or the LAST descriptor. -/
def DmaChan.isLast (x : DmaChan) : Bool := !x.chain || x.flags.testBit 0

/-- Descriptors are fetched until one has bytes to copy; a copy of none completes at once (R376, R379). -/
def State.dmaFetches (s : State) (t c : Nat) : Nat → State
  | 0 => s
  | n + 1 =>
    let (ok, s) := s.dmaFetch t c
    if ok && s.rd t (DMA_CH_COUNT c) == 0 then
      if (s.dmaChan t c).isLast then s.dmaDone t c
      else
        let s := if (s.dmaChan t c).flags.testBit 1 then s.pip t (116 + c) else s
        s.dmaFetches t c n
    else s

/-- A channel that does not run starts (R376, R379, R380). -/
def State.dmaBegin (s : State) (t c : Nat) : State :=
  let chain := s.is t (DMA_CH_CTRL_CHAIN c)
  let hops := s.rd t DMA_HOPS
  let s := ((s.wr t (DMA_CH_STATUS_STATE c) 1).wr t (DMA_CH_STATUS_CAUSE c) 0).wr t (DMA_CH_HOPS_USED c) 0
  let s := s.updDma t c fun x => ⟨0, chain, hops, s.tim.tb0 + 1, x.ended, []⟩
  if chain then s.dmaFetches t c (hops + 1)
  else
    let s := s.wr t (DMA_CH_REMAIN c) (s.rd t (DMA_CH_COUNT c))
    if s.rd t (DMA_CH_COUNT c) = 0 then s.dmaDone t c else s

/-- CTRL.START is written: ignored while the channel runs, where a start pip of the same cycle makes one start (R376, R385). -/
def State.dmaStart (s : State) (t c : Nat) : State :=
  if s.dmaRunning t c then s.setIf ((s.dmaChan t c).started != s.tim.tb0 + 1) t DMA_ERR_BUSY else s.dmaBegin t c

/-- DMA_START (R376). -/
def execDmaStart (t : Tile) (c : Fin 32) (s : State) : Answer := onTile s t fun s => s.dmaStart t c

/-- A start pip at consumer `c` (R370, R376). -/
def State.dmaPip (s : State) (t c : Nat) : State :=
  if !s.is t (DMA_CH_CTRL_EVT_EN c) then s
  else if s.dmaRunning t c then s.setF t (DMA_CH_STATUS_MISSED_START c)
  else s.dmaBegin t c

/-- The channel has copied `n` bytes more of the COUNT that began; the answer says whether it goes on. -/
def State.dmaMove (s : State) (t c n : Nat) : Bool × State :=
  let left := s.rd t (DMA_CH_REMAIN c)
  let n := Nat.min n left
  let ofs := s.rd t (DMA_CH_COUNT c) - left
  let b := (s.dmaChan t c).buf
  let (s, rest, buf, bad) := dmaCopy n s (s.dmaSrc t c + ofs + b.length) (s.dmaDst t c + ofs) (left - b.length) n b
  let s := (s.wr t (DMA_CH_REMAIN c) (left - (n - rest))).updDma t c fun x => { x with buf := buf }
  match bad with
  | some (k, a) => (false, s.dmaHalt t c k a)
  | none => (true, s)

/-! Beats (R377, R378). -/

/-- The channel that a tile serves next: of the running channels of the highest level, the first after the one served last (R378). -/
def State.dmaNextServed (s : State) (t : Nat) : Option Nat :=
  let l := (List.range 32).filter fun c => s.dmaRunning t c && !s.dmaWaiting t c
  let k := smGet 0 t s.fab.served
  (l.find? fun c => decide (k ≤ c)).or l.head?

/-- A 64-byte beat of a tile; the last byte of a copy is DMA_COMPLETE's (R377, R378). -/
def State.dmaBeat (s : State) (t : Nat) : State :=
  match s.dmaNextServed t with
  | none => s
  | some c =>
    let s := { s with fab := { s.fab with served := smSet 0 t (c + 1) s.fab.served } }
    (s.dmaMove t c (Nat.min 64 (s.rd t (DMA_CH_REMAIN c) - 1))).2

/-- The beats of an EVTC cycle: of the two NOCC cycles in it, a free number has a beat on each tile whose channels run (R41, R377). -/
def State.dmaBeats (s : State) : State :=
  if s.dma.isEmpty then s
  else s.eachTile fun t s =>
    if s.locked t .sys && (s.dmaNextServed t).isSome then
      let (x, s) := s.fresh
      match x % 3 with
      | 0 => s
      | 1 => s.dmaBeat t
      | _ => (s.dmaBeat t).dmaBeat t
    else s

/-- The last byte of a copy has been written: the channel is DONE or fetches its next descriptor (R379, R382). -/
def State.dmaCopied (s : State) (t c : Nat) : State :=
  let x := s.dmaChan t c
  if x.isLast then s.dmaDone t c
  else
    let s := if x.flags.testBit 1 then s.pip t (116 + c) else s
    s.dmaFetches t c (x.hops + 1)

/-- The copy that a running channel makes comes to its end (R382). -/
def State.dmaComplete (s : State) (t c : Nat) : State :=
  if s.dmaRunning t c then
    let (ok, s) := s.dmaMove t c (s.rd t (DMA_CH_REMAIN c))
    if ok then s.dmaCopied t c else s
  else s

/-- The end of channel `c`'s copy waits in this cycle. -/
def State.dmaEnding (s : State) (t c : Nat) : Bool :=
  s.waitingNow.any fun i =>
    match i with
    | .dmaComplete u d => u.val == t && d.val == c
    | _ => false

/-- The ends of lower channels of the tile that wait in this cycle come first: of two channels that write one byte the higher-numbered one's remains
(R385). -/
def State.dmaLower (s : State) (t c : Nat) : State :=
  s.waitingNow.foldl (fun s i =>
    match i with
    | .dmaComplete u d => if u.val = t ∧ d.val < c then (s.dmaComplete t d).takeEarly i else s
    | _ => s) s

/-- The command DMA_COMPLETE of a channel. -/
def isDmaComplete (t : Tile) (c : Fin 32) : Instr → Bool
  | .dmaComplete u d => u == t && d == c
  | _ => false

/-- DMA_COMPLETE: the copy that a running channel makes has come to its end (R382, R385). -/
def execDmaComplete (t : Tile) (c : Fin 32) (s : State) : Answer :=
  if s.tookEarly (isDmaComplete t c) then finish s (s.dropEarly (isDmaComplete t c))
  else whenEv s (s.fit t && s.locked t .sys && s.dmaRunning t c) fun s => (s.dmaLower t c).dmaComplete t c

/-- CTRL.ABORT is written when `n` bytes more have been written: a completion in the same cycle wins, whichever comes first (R381, R385). -/
def State.dmaAbort (s : State) (t c n : Nat) : State :=
  if s.dmaRunning t c then
    let (ok, s) := s.dmaMove t c (if s.dmaEnding t c then s.rd t (DMA_CH_REMAIN c) else n)
    if !ok then s
    else if s.rd t (DMA_CH_REMAIN c) ≠ 0 then s.wr t (DMA_CH_STATUS_STATE c) 4
    else
      let x := s.dmaChan t c
      if x.isLast then (s.dmaDone t c).setF t (DMA_CH_STATUS_ABORT_LATE c)
      else
        let s := if x.flags.testBit 1 then s.pip t (116 + c) else s
        s.wr t (DMA_CH_STATUS_STATE c) 4
  else s.setIf (s.rd t (DMA_CH_STATUS_STATE c) == 2 && (s.dmaChan t c).ended == s.tim.tb0 + 1) t (DMA_CH_STATUS_ABORT_LATE c)

/-- DMA_ABORT (R381). -/
def execDmaAbort (t : Tile) (c : Fin 32) (written : Nat) (s : State) : Answer := onTile s t fun s => s.dmaAbort t c written

/-- DMA_BUS_TIMEOUT: no response within 4,096 NOCC cycles when `written` bytes more have been written (R375); a response of the same cycle, which
ends the copy, wins (R385). -/
def execDmaBusTimeout (t : Tile) (c : Fin 32) (a : BitVec 40) (written : Nat) (s : State) : Answer :=
  whenEv s (s.fit t && s.locked t .sys && s.dmaRunning t c && !s.dmaEnding t c) fun s =>
    let (ok, s) := s.dmaMove t c written
    if ok then s.dmaHalt t c 2 a.toNat else s

/-- A write of DMA_CHc_CTRL (R376, R381, R384). How far a copy has come when ABORT arrives is free. -/
def State.dmaCtrl (s : State) (t c v : Nat) : State :=
  let w := bitsOf v 5 2 * 4
  if s.dmaRunning t c then
    let again := v.testBit 0 && (s.dmaChan t c).started == s.tim.tb0 + 1
    let other := decide (w ≠ s.rd t (DMA_CH_CTRL c) / 4 % 16 * 4)
    if v.testBit 1 then
      let s := s.setIf (v.testBit 0 || other) t DMA_ERR_BUSY
      let (x, s) := s.fresh
      s.dmaAbort t c (x % (s.rd t (DMA_CH_REMAIN c) + 1))
    else s.setIf (!again || other) t DMA_ERR_BUSY
  else
    let s := s.wr t (DMA_CH_CTRL c) w
    let s := if v.testBit 1 then s.dmaAbort t c 0 else s
    if v.testBit 0 then s.dmaBegin t c else s

end Sys2Proof.Machine
end

