-- ==== Sys2Proof/Machine/D2d.lean ====
section
/-! DEFINITION. Cerette links (R27 to R34, R45). What a link that comes up or fails
does to the traffic that waits for it is in Machine/Hop.lean, PLLs are in Machine/Clocks.lean. -/

namespace Sys2Proof.Machine

/-! Links. -/

/-- Both ends of a link, as tile and link: this end first (R28). -/
def State.linkEnds (s : State) (t n : Nat) : List (Nat × Nat) :=
  match s.id.neighbour t n with
  | some u => [(t, n), (u, s.id.farLink n)]
  | none => []

/-- A change at both ends of a link. -/
def State.bothEnds (s : State) (t n : Nat) (f : Nat → Nat → State → State) : State :=
  (s.linkEnds t n).foldl (fun s (a, m) => f a m s) s

/-- The end that sends to link `n` of tile `t`. -/
def State.farEnd (s : State) (t n : Nat) : Nat × Nat := (s.linkEnds t n).getD 1 (t, n)

/-- The link trains: it leaves service at both ends, and FAILED clears (R32, R45). -/
def State.linkTrain (s : State) (t n : Nat) : State :=
  s.bothEnds t n fun a m s =>
    let s := ((s.clrF a (D2D_L_STATUS_UP m)).setF a (D2D_L_STATUS_TRAINING m)).clrF a (D2D_L_STATUS_FAILED m)
    s.updLink a m fun x => { x with replays := 0, due := false }

/-- The link is retrained (R32, R45). -/
def State.linkRetrain (s : State) (t n : Nat) : State :=
  (s.linkTrain t n).bothEnds t n fun a m s => s.addSat a (D2D_L_STATUS_RETRAINS m) 1

/-- Every bonded link begins its first training as BOOT is entered; it counts as no retraining (R45, R464; log 192). -/
def State.firstTraining (s : State) : State := s.bondedLinks.foldl (fun s (t, n) => s.linkTrain t n) s

/-- A packet is in flight on an UP link, in one direction or the other: one of its replays is under way. -/
def State.linkBusy (s : State) (t n : Nat) : Bool :=
  s.is t (D2D_L_STATUS_UP n) && (s.linkEnds t n).any fun (a, m) => (s.link a m).replays != 0

/-- A write of D2D_Ln_CTRL.RETRAIN (R45): a link that is not bonded takes no write. It starts at the next packet boundary (R34). -/
def State.d2dRetrain (s : State) (t n : Nat) : State :=
  if !s.id.bonded t n then s
  else if s.linkBusy t n then s.bothEnds t n fun a m s => s.updLink a m fun x => { x with due := true }
  else ((s.linkRetrain t n).bothEnds t n fun a m s => s.updLink a m fun x => { x with fails := 0 }).readyUpdate

/-- D2D_RETRAIN (R45). -/
def execD2dRetrain (t : Tile) (l : Link) (s : State) : Answer := onTile s t fun s => s.d2dRetrain t l

/-- The flits of a packet (R27). -/
def flits (k : Bytes) : Nat := ceilDiv k.length 64

/-- A packet as a link carries it: 2 to 16 flits of 64 bytes, ending with a CRC-32C (R27, R32). One that is not whole flits, or too short or
too long, counts as a CRC mismatch: the spec does not say what becomes of it (DESIGN CHOICE, log 193). -/
def packetOk (k : Bytes) : Bool := decide (k.length % 64 = 0) && decide (2 ≤ flits k) && decide (flits k ≤ 16) && crcGood k

/-- The sender has put a packet on the link. -/
def State.sentFlits (s : State) (t n : Nat) (k : Bytes) : State := s.add64 t (D2D_L_TX_FLITS_LO n) (flits k)

/-- A packet for a link that is out of service waits in the sending tile's link queue of 64 KiB; beyond that its producer is stalled
(R32). -/
def LinkState.hold (x : LinkState) (k : Bytes) : LinkState :=
  if x.stalled.isEmpty && decide (sumN (x.held.map List.length) + k.length ≤ 65536) then { x with held := x.held ++ [k] }
  else { x with stalled := x.stalled ++ [k] }

/-- Packets of the pair that have come in order leave the receiving end (R28). -/
def State.pairDeliver (s : State) (t : Nat) : Nat → State
  | 0 => s
  | f + 1 =>
    let n := (s.link t 0).recv
    match (s.link t n).early with
    | [] => s
    | _ :: l => ((s.updLink t n fun x => { x with early := l }).updLink t 0 fun x => { x with recv := 1 - n }).pairDeliver t f

/-- A packet has come over whole: the pair of the LYN820 restores the order of its packets (R28). -/
def State.linkTake (s : State) (t n : Nat) (k : Bytes) : State :=
  if s.id.variant = .lyn820 then
    let s := s.updLink t n fun x => { x with early := x.early ++ [k] }
    s.pairDeliver t (s.link t 0 |>.early.length |> (· + (s.link t 1).early.length))
  else s

/-- A tile sends a packet on link `n`: on the LYN820 the next one takes the other link (R28). -/
def State.linkTurn (s : State) (t n : Nat) : State :=
  if s.id.variant = .lyn820 then s.updLink t 0 fun x => { x with send := 1 - n } else s

/-- The packet boundary of a link that a RETRAIN waits for (R34). -/
def State.linkBoundary (s : State) (t n : Nat) : State :=
  if (s.link t n).due && !s.linkBusy t n then s.d2dRetrain t n else s

/-- A packet arrives at link `n` of tile `t` (R32): a CRC mismatch asks for a replay, the ninth failure in a row retrains the link, and the
packet is held at its sender. -/
def State.cerettePacket (s : State) (t n : Nat) (k : Bytes) : State :=
  let (u, m) := s.farEnd t n
  let s := (s.sentFlits u m k).linkTurn u m
  if packetOk k then ((s.updLink t n fun x => { x with replays := 0 }).linkTake t n k).linkBoundary t n
  else
    let s := s.addSat t (D2D_L_CRC_ERR_COUNT n) 1
    if 8 ≤ (s.link t n).replays then (s.linkRetrain t n).updLink u m fun x => { x with held := k :: x.held }
    else (s.addSat u (D2D_L_REPLAY_COUNT m) 1).updLink t n fun x => { x with replays := x.replays + 1 }

/-- A packet is for a link that trains or is FAILED: it waits at its sender (R32, R34; for a FAILED link log 194). -/
def State.ceretteHeld (s : State) (t n : Nat) (k : Bytes) : State :=
  let (u, m) := s.farEnd t n
  (s.updLink u m fun x => x.hold k).linkTurn u m

/-- CERETTE_PACKET (R32). A packet whose link's clocks stand waits as for one that trains (R42). -/
def execCerettePacket (t : Tile) (l : Link) (pkt : Bytes) (s : State) : Answer :=
  whenEv s (s.fit t && s.id.bonded t l) fun s => if s.linkOn t l then s.cerettePacket t l pkt else s.ceretteHeld t l pkt

/-- The packets that have waited for a link that comes up are sent in order (R32). -/
def State.linkSend (s : State) (t n : Nat) : State :=
  let (u, m) := s.farEnd t n
  ((s.link t n).held ++ (s.link t n).stalled).foldl (fun s k => (s.sentFlits t n k).linkTake u m k)
    (s.updLink t n fun x => { x with held := [], stalled := [] })

/-- The link comes up; the packets held for it are sent in order (R32). -/
def State.linkCameUp (s : State) (t n : Nat) : State :=
  let s := s.bothEnds t n fun a m s =>
    (((s.setF a (D2D_L_STATUS_UP m)).clrF a (D2D_L_STATUS_TRAINING m)).clrF a (D2D_L_STATUS_FAILED m)).updLink a m fun x =>
      { x with replays := 0, fails := 0, lost := false, due := false }
  s.bothEnds t n fun a m s => s.linkSend a m

/-- The band open now is blind with CRC from here on (R33, R34; log 73). -/
def State.crcBand (s : State) : State :=
  match s.newest with
  | some b => if b.closed && s.clk.tickTb0 != some s.tim.tb0 then s else s.updBand b.n fun b => { b with crc := b.crc || !b.empty }
  | none => s

/-- The link is marked FAILED (R32, R33). One notification goes out, and it names the end of the link that RETRAIN_COMPLETE names: the spec
does not say which end or whether there is one for each (DESIGN CHOICE, log 195). -/
def State.linkFail (s : State) (t n : Nat) : State :=
  let s := s.bothEnds t n fun a m s =>
    (((s.setF a (D2D_L_STATUS_FAILED m)).clrF a (D2D_L_STATUS_TRAINING m)).setF a SYS_ERR_D2D_FAIL).updLink a m fun x => { x with fails := 0, lost := true }
  ((s.notify 0x0003 t n 0 0).crcBand).readyUpdate

/-- A retraining ends (R32): the third failure in a row marks the link FAILED, an earlier one starts another. -/
def State.retrainEnd (s : State) (t n : Nat) (up : Bool) : State :=
  if up then (s.linkCameUp t n).readyUpdate
  else if 2 ≤ (s.link t n).fails then s.linkFail t n
  else
    let s := s.linkRetrain t n
    s.bothEnds t n fun a m s => s.updLink a m fun x => { x with fails := x.fails + 1 }

/-- D2D_CLR_CRC_ERR (R45). -/
def execD2dClrCrcErr (t : Tile) (l : Link) (s : State) : Answer :=
  whenEv s (s.fit t && s.id.bonded t l) fun s => s.clrCount t (D2D_L_CRC_ERR_COUNT l)

/-- D2D_CLR_REPLAY (R45). -/
def execD2dClrReplay (t : Tile) (l : Link) (s : State) : Answer :=
  whenEv s (s.fit t && s.id.bonded t l) fun s => s.clrCount t (D2D_L_REPLAY_COUNT l)

/-- D2D_CLR_TX_FLITS (R45). -/
def execD2dClrTxFlits (t : Tile) (l : Link) (s : State) : Answer :=
  whenEv s (s.fit t && s.id.bonded t l) fun s => s.clrCount64 t (D2D_L_TX_FLITS_LO l)

end Sys2Proof.Machine
end

