-- ==== Sys2Proof/Machine/Power.lean ====
section
/-! DEFINITION. Reset phases, internal resets, supplies, thermal readings, firmware items and the boot flash (R423, R424, R458 to R476, R488
to R490). What the firmware loads at the end of BOOT is in Machine/Boot.lean. -/

namespace Sys2Proof.Machine

/-! Fuses (R439, R446, R457). -/

/-- The state that the fuse bits read as, and PARTIAL (R439). -/
def lifeOf (bits : Nat) : Nat × Bool :=
  match bits with
  | 0 => (0, false)
  | 1 => (1, false)
  | 3 => (2, false)
  | 7 => (3, false)
  | _ => (3, true)

/-- The state with the security block changed. -/
def State.updLcs (s : State) (f : Lcs → Lcs) : State := { s with lcs := f s.lcs }

/-- The registers that show the fuses and key RAM follow them (R439, R446, R449, R457). -/
def State.lcsSync (s : State) : State :=
  let f := s.lcs.fuses
  let (st, part) := lifeOf f.life
  let s := (s.wr 0 LCS_STATE_STATE st).wr 0 LCS_STATE_PARTIAL (bitN part)
  let s := s.wr 0 LCS_SLOTS (sumN ((List.range 4).map fun k =>
    16 ^ k * (bitN (f.programmed.testBit k) + 2 * bitN (f.revoked.testBit k) + 4 * bitN (s.lcs.owners.any (·.1 == k)))) + 65536 * bitN f.erased)
  let s := (List.range 4).foldl (fun s k => (List.range 12).foldl (fun s w => s.wr 0 (LCS_SLOT_HASH k w) (smGet 0 k f.hashes / 2 ^ (32 * w))) s) s
  let s := s.wr 0 LCS_JOB_KEYS (ofOnes (s.lcs.jobKeys.map (·.1)))
  (List.range 16).foldl (fun s k => s.wr 0 (LCS_JOB_KEY_ID k) (((s.lcs.jobKeys.find? (·.1 == k)).map (·.2.id)).getD 0)) s

/-- LCS_CHALLENGE is renewed from the entropy source, which nothing constrains (R443). -/
def State.renewChallenge (s : State) : State :=
  (List.range 8).foldl (fun s w => let (x, s) := s.fresh; s.wr 0 (LCS_CHALLENGE w) x) s

/-- The digest of a byte string. -/
def digest (b : Bytes) : Nat := Config.sha384 b % 2 ^ 384

/-- ARGS of a command. -/
def lcsArgs (m : Bytes) : Bytes := (m.drop 48).take (leAt m 2 2)

/-- A fuse failed its verify read (R441, R445): each bit that the command was to blow is blown or not. -/
def State.fuseFail (s : State) (c : LcsCmd) : State :=
  let a := lcsArgs c.bytes
  let (x, s) := s.fresh
  let (y, s) := s.fresh
  let blow (old new : Nat) : Nat := old ||| (new &&& x)
  let hash (k : Nat) (key : Bytes) (f : Fuses) : Fuses :=
    { f with programmed := blow f.programmed (2 ^ k), hashes := smInsert k (smGet 0 k f.hashes ||| (digest key &&& y)) f.hashes }
  (s.updLcs fun l => { l with
    fuses := match c.op with
      | 0x01 => { hash 0 (a.take 96) l.fuses with life := blow l.fuses.life 1 }
      | 0x02 => hash (byteAt a 0) ((a.drop 4).take 96) l.fuses
      | 0x04 => { l.fuses with revoked := blow l.fuses.revoked (2 ^ byteAt a 0) }
      | 0x05 => { l.fuses with life := blow l.fuses.life 3 }
      | _ => { l.fuses with life := blow l.fuses.life 7, erased := l.fuses.erased || y.testBit 0 } }).lcsSync

/-- A command blows fuses (R444). -/
def blowsFuses (op : Nat) : Bool := [1, 2, 4, 5, 6].contains op

/-- A command that is blowing fuses is cut off: the fuses read whatever pattern is left (R441); so at an internal reset too (log 253). -/
def State.fuseCut (s : State) : State :=
  match s.lcs.cmd with
  | some c => if blowsFuses c.op && c.result == 0 then s.fuseFail c else s
  | none => s

/-! Resets (R464 to R466). -/

/-- The RWS bits of a register. -/
def rwsMask (blk off : Nat) : Nat :=
  match findReg blk off with
  | some (r, _) => r.fields.foldl (fun m f => if f.acc = .rws then withBits m f.hi f.lo (2 ^ 32 - 1) else m) 0
  | none => 0

/-- A register word after an internal reset: its RWS fields are kept (R466). -/
def keptWord (k : Nat) (w : Word) : Option (Nat × Word) :=
  let m := rwsMask (addrBlk k) (addrOff k)
  let r := resetWord (addrBlk k) (addrOff k)
  let v := r &&& (2 ^ 32 - 1 - m) ||| w.toNat &&& m
  if k < 2 ^ 40 ∧ v ≠ r then some (k, BitVec.ofNat 32 v) else none

/-- The flash sector or page of an operation that a reset cuts off: its content is undefined (R489). -/
def State.flashCut (s : State) : State :=
  let free (s : State) (a n : Nat) : State :=
    { s with
      freeCtr := s.freeCtr + n
      pwr := { s.pwr with flash := (List.range n).foldl (fun m i => smSet 0xFF (a + i) (BitVec.ofNat 8 (Config.free (s.freeCtr + i))) m) s.pwr.flash } }
  match s.pwr.op with
  | some o => if o.op = 3 then free s (o.addr / 65536 * 65536) 65536 else if o.op = 2 then free s (o.addr / 256 * 256) 256 else s
  | none => s

/-- Every part of the machine but the fuses, the flash and the board around it returns to its power-on value (R466). -/
def State.cleared (s : State) (ph : Phase) : State :=
  let b := State.powerOn s.id s.lcs.fuses s.pwr.flash s.pwr.sfdp s.pwr.rails s.freeCtr
  { b with pending := s.pending, pwr := { b.pwr with phase := ph, porstHigh := s.pwr.porstHigh } }

/-- A power-on reset through PORST_N (R464, R466). -/
def State.powerOnReset (s : State) (ph : Phase) : State := ((s.flashCut.fuseCut).cleared ph).lcsSync

/-- A cause of SYS_RESET_CAUSE is set on every tile. -/
def State.addCause (s : State) (c : Nat) : State := s.eachTile fun t s => s.setBits t SYS_RESET_CAUSE c

/-- An internal reset (R465, R466): the RWS fields and SYS_RESET_CAUSE are kept. -/
def State.doReset (s : State) (causes : Nat) (thermal : Bool) : State :=
  let s := s.flashCut.fuseCut
  let c := s.cleared .hold
  let c := { c with regs := s.regs.filterMap fun (k, w) => keptWord k w, pwr := { c.pwr with held := true, thermal := thermal } }
  let c := s.tiles.foldl (fun c t => c.wr t SYS_RESET_CAUSE (s.rd t SYS_RESET_CAUSE)) c
  (c.addCause causes).lcsSync

/-- An internal reset is asserted. A SOFT one waits for the page that a PROGRAM writes (R465, R489); any other does not, and takes the
causes that wait with it. -/
def State.internalReset (s : State) (causes : Nat) (thermal : Bool) : State :=
  match s.pwr.op with
  | some o =>
    if o.op = 2 ∧ causes = 2 then { s with pwr := { s.pwr with waiting := s.pwr.waiting ||| causes } }
    else s.doReset (s.pwr.waiting ||| causes) thermal
  | none => s.doReset causes thermal

/-- A further cause while an internal reset holds HOLD (R489). -/
def State.resetAgain (s : State) (causes : Nat) (thermal : Bool) : State :=
  { s with pwr := { s.pwr with thermal := s.pwr.thermal || thermal } }.addCause causes

/-- An internal reset holds the part in HOLD. -/
def State.inReset (s : State) : Bool := s.pwr.phase == .hold && s.pwr.held

/-- The watchdog expires (R465, R489). -/
def State.watchdog (s : State) : State := if s.inReset then s.resetAgain 4 false else if s.live then s.internalReset 4 false else s

/-- PORST_N goes low: a power-on reset, whatever held HOLD (R464, R489). -/
def State.porstFall (s : State) : State :=
  let s := { s with pwr := { s.pwr with porstHigh := false } }
  if s.pwr.phase = .off then s else s.powerOnReset .hold

/-- PORST_N_FALL (R464). -/
def execPorstNFall (s : State) : Answer := always s s.porstFall

/-- HOLD ends and the fuses are read next: T_last is latched (R423, R464). -/
def State.endHold (s : State) : State :=
  s.eachTile (fun t s => s.wr t CAL_TEMP_LAST (s.rd t CAL_TEMP_NOW)) |> fun s =>
    { s with pwr := { s.pwr with phase := .fuse, held := false, thermal := false } }

/-- PORST_N is released (R464). -/
def State.porstRise (s : State) : State :=
  let s := { s with pwr := { s.pwr with porstHigh := true } }
  if s.pwr.phase = .hold ∧ ¬ s.pwr.held then s.endHold else s

/-- PORST_N_RISE (R464). -/
def execPorstNRise (s : State) : Answer := always s s.porstRise

/-- The sensors of the part that read validly. -/
def State.validTemps (s : State) : List Int :=
  s.tiles.flatMap fun t => ((List.range 8).filter fun i => s.is t (CAL_SENS_VALID i)).map fun i => sInt 16 (s.rd t (CAL_SENS i))

/-- The HOLD of an internal reset can end: after a thermal trip, once every valid sensor reads below 95.0 °C (R465). -/
def State.holdOver (s : State) : Bool :=
  s.inReset && s.pwr.porstHigh && (!s.pwr.thermal || !s.validTemps.isEmpty && s.validTemps.all fun x => decide (x < 1520))

/-- HOLD_END (R465). -/
def execHoldEnd (s : State) : Answer := always s (if s.holdOver then s.endHold else s)

/-- FUSE_DONE: the fuses are read and checked; the part enters CLOCK (R439, R443, R464). -/
def execFuseDone (s : State) : Answer :=
  always s (if s.pwr.phase = .fuse then { (s.lcsSync.renewChallenge) with pwr := { s.pwr with phase := .clock } } else s)

/-! Supplies (R458, R463, R464, R488). -/

/-- Nominal mV and tolerance in per cent of rail `k` (R458, R490). -/
def railLimits : List (Nat × Nat) := [(750, 3), (800, 3), (900, 3), (1200, 3), (1800, 5), (3300, 5), (800, 3)]

/-- A voltage lies within a rail's tolerance (R458). -/
def railOk (k mv : Nat) : Bool :=
  let (n, p) := railLimits.getD k (0, 0)
  decide (100 * ((mv : Int) - n).natAbs ≤ p * n)

/-- A rail is measured (R463, R490): leaving its tolerance is reported. The supply monitors do not reset the part (R463); below tolerance with
PORST_N low, it is OFF (R464). -/
def State.supply (s : State) (k mv : Nat) : State :=
  let ok := railOk k mv
  let was := s.pwr.rails.testBit k
  let s := { s with pwr := { s.pwr with rails := withBits s.pwr.rails k k (bitN ok) } }
  if s.pwr.phase = .off then s else
  let s := (s.wr 0 (PWR_VMON k) mv).wr 0 PWR_SUPPLY_STATUS (withBits (s.rd 0 PWR_SUPPLY_STATUS) k k (bitN ok))
  let s := if was && !ok then
      ((s.setBits 0 PWR_SUPPLY_ERR (2 ^ k)).setF 0 PWR_INT_STATUS_SUPPLY).notify 0x0060 k mv 0 0
    else s
  if !ok && decide (mv < (railLimits.getD k (0, 0)).1) && !s.pwr.porstHigh then s.powerOnReset .off else s

/-- SUPPLY (R463). -/
def execSupply (k : Fin 7) (mv : BitVec 16) (s : State) : Answer := always s (s.supply k mv.toNat)

/-- RAIL_IN_TOLERANCE: the part leaves OFF for HOLD, and for FUSE where PORST_N is high already (R464). -/
def State.railsIn (s : State) : State :=
  if s.pwr.phase = .off then
    let s := ({ s with pwr := { s.pwr with rails := 127 } }).powerOnReset .hold
    if s.pwr.porstHigh then s.endHold else s
  else s

/-- RAIL_IN_TOLERANCE (R464). -/
def execRailInTolerance (s : State) : Answer := always s s.railsIn

/-! Thermal sensors (R423, R424, R465). -/

/-- A reading within −40.0 to +150.0 °C, in 1/16 °C (R423). -/
def tempOk (x : Int) : Bool := decide (-640 ≤ x) && decide (x ≤ 2400)

/-- The greatest of a list. -/
def maxTemp : List Int → Option Int
  | [] => none
  | x :: l => some (l.foldl max x)

/-- THERMAL_WARN follows T; its rise raises source 223 and notification 0x0043 (R423, R485). -/
def State.thermWarn (s : State) (t : Nat) (x : Int) : State :=
  let hot := decide ((s.rd 0 PWR_THERM_WARN : Int) < x)
  let was := s.is t SYS_STATUS_THERMAL_WARN
  let s := s.wr t SYS_STATUS_THERMAL_WARN (bitN hot)
  if hot && !was then ((s.setF t PWR_INT_STATUS_THERMAL).pip t 223).notify 0x0043 t (uNat 32 x) 0 0 else s

/-- The thermal trigger (R424). -/
def State.thermAuto (s : State) (t : Nat) (x : Int) : State :=
  let d := (x - sInt 16 (s.rd t CAL_TEMP_LAST)).natAbs
  let lim := s.rd t CAL_DELTA_T
  if s.live && s.is t CAL_CTRL_AUTO && decide (lim < d) then s.calRequest t ⟨false, decide (2 * lim < d), decide (2 * lim < d), none⟩ else s

/-- T of a tile is known (R423). -/
def State.thermT (s : State) (t : Nat) (x : Int) : State :=
  let s := s.wrS t CAL_TEMP_NOW x
  let s := if sInt 16 (s.rd t CAL_TEMP_PEAK) < x then s.wr t CAL_TEMP_PEAK (uNat 16 x) else s
  (s.thermWarn t x).thermAuto t x

/-- The eight readings enter their registers (R423). -/
def State.sensors (s : State) (t : Nat) (r : List Int) : State :=
  (List.range 8).foldl (fun s i =>
    let x := r.getD i 4096
    if tempOk x then s.wr t (CAL_SENS i) (uNat 16 x + 65536)
    else (s.clrF t (CAL_SENS_VALID i)).setF t CAL_ERR_SENSOR) s

/-- The sensors of a tile are read (R423); three readings in a row of at least 120.0 °C assert an internal reset (R465; log 71). -/
def State.sensorRead (s : State) (t : Nat) (r : List Int) : State :=
  let s := s.sensors t r
  match maxTemp ((r.take 8).filter tempOk) with
  | none => s.updCal t fun c => { c with hot := 0 }
  | some x =>
    let s := s.thermT t x
    let n := if 1920 ≤ x then (s.calTile t).hot + 1 else 0
    let s := s.updCal t fun c => { c with hot := Nat.min n 3 }
    if 3 ≤ n then (if s.inReset then s.resetAgain 8 true else if s.live then s.internalReset 8 true else s) else s

/-! Boot flash (R470 to R473, R476). -/

/-- A byte of the boot flash; an erased one reads 0xFF. -/
def State.flashByte (s : State) (a : Nat) : Byte := smGet 0xFF a s.pwr.flash

/-- Bytes of the boot flash. -/
def State.flashBytes (s : State) (a n : Nat) : Bytes := (List.range n).map fun i => s.flashByte (a + i)

/-- The directory of the flash: KIND, OFFSET, LEN and CRC of each entry; none where MAGIC, VERSION or CRC is wrong (R471, R472). -/
def State.flashDir (s : State) : Option (List (Nat × Nat × Nat × Nat)) :=
  let h := s.flashBytes 0 16
  let n := leAt h 6 2
  let len := 16 + 16 * n
  let d := s.flashBytes 0 (len + 4)
  if h.take 4 = [0x4B, 0x4C, 0x42, 0x44] ∧ leAt h 4 2 = 1 ∧ leAt d len 4 = crc32c (d.take len) then
    some ((List.range n).map fun i => (leAt d (16 + 16 * i) 1, leAt d (20 + 16 * i) 4, leAt d (24 + 16 * i) 4, leAt d (28 + 16 * i) 4))
  else none

/-- The first item of a kind, as offset and length; with its CRC-32C wrong it is none (R471, R472). -/
def State.flashItem (s : State) (kind : Nat) : Option (Nat × Nat) :=
  match s.flashDir with
  | none => none
  | some l =>
    match l.find? (·.1 == kind) with
    | some (_, o, n, c) => if crc32c (s.flashBytes o n) = c then some (o, n) else none
    | none => none

/-- The bit of PARTS of a variant (R473). -/
def partBit : Variant → Nat
  | .lyn820 => 0
  | .lyn840 => 1
  | .lyn880 => 2

/-- A firmware item is valid (R473): its VERSION. An item that breaks the layout of BODY_LEN or ENTRY is not valid (DEDUCED, log 252). -/
def State.firmware (s : State) (kind : Nat) : Option Nat :=
  match s.flashItem kind with
  | none => none
  | some (o, n) =>
    let h := s.flashBytes o 64
    let bl := leAt h 16 4
    let all := s.flashBytes o n
    let key := (all.drop (64 + bl)).take 96
    if n = 256 + bl ∧ h.take 4 = [0x4B, 0x46, 0x57, 0x49] ∧ leAt h 4 2 = 1 ∧ leAt h 6 2 < 8 ∧ (leAt h 6 2).testBit (partBit s.id.variant) ∧
        leAt h 12 1 ≤ s.id.stepping.code ∧ leAt h 13 3 = 0 ∧ 64 ≤ bl ∧ bl ≤ 8388608 ∧ bl % 64 = 0 ∧ leAt h 20 4 < bl ∧ leAt h 20 4 % 4 = 0 ∧
        leAt h 24 40 = 0 ∧ digest key = s.id.vendorHash % 2 ^ 384 ∧ Config.ecdsaOk key (digest (all.take (160 + bl))) ((all.drop (160 + bl)).take 96) then
      some (leAt h 8 4)
    else none

/-- The slot and VERSION of the firmware that starts: the greater VERSION, A when they are equal (R472). -/
def State.firmwareStart (s : State) : Option (Nat × Nat) :=
  match s.firmware 1, s.firmware 2 with
  | some a, some b => if a < b then some (2, b) else some (1, a)
  | some a, none => some (1, a)
  | none, some b => some (2, b)
  | none, none => none

/-- A boot failure (R472). -/
def State.bootFail (s : State) (c : Nat) : State := s.wr 0 PWR_BOOT_FAIL c

/-- ENTRY and body of a firmware item (R473). -/
def State.firmwareBody (s : State) (kind : Nat) : Option (Nat × Bytes) :=
  (s.flashItem kind).map fun (o, _) => (leAt (s.flashBytes o 64) 20 4, s.flashBytes (o + 64) (leAt (s.flashBytes o 64) 16 4))

/-- CLOCK ends: the Cerette links begin to train, and the boot master starts a firmware item, or the boot fails (R464, R472, R473). -/
def State.clockDone (s : State) : State :=
  let s := { s with pwr := { s.pwr with phase := .boot } }.firstTraining
  if !s.pwr.sfdp then s.bootFail 3
  else if s.flashDir.isNone then s.bootFail 1
  else
    match s.firmwareStart with
    | none => s.bootFail 2
    | some (k, v) =>
      let s := { s with pwr := { s.pwr with mgt := s.firmwareBody k } }
      (s.wr 0 PWR_BOOT_SLOT k).eachTile fun t s => s.wr t SYS_FW_VERSION v

/-- CLOCK_DONE: every PLL that is not fused off is locked (R464). -/
def execClockDone (s : State) : Answer := always s (if s.pwr.phase = .clock ∧ s.clkOk then s.clockDone else s)

/-- An origin may reach the flash registers (R476). -/
def flashOrigin (o : Origin) : Bool :=
  match o with
  | .session n => n.val != 0
  | _ => false

/-- A write of PWR_FLASH_CTRL with START (R476): ignored while an operation is BUSY. -/
def State.flashStart (s : State) (op : Nat) : State :=
  if s.is 0 PWR_FLASH_STATUS_BUSY then s.setF 0 PWR_ERR_FLASH_BUSY
  else
    let s := s.wr 0 PWR_FLASH_CTRL_OP op
    if op = 0 then s else
    let n := s.rd 0 PWR_FLASH_LEN
    let bs := ((List.range 64).flatMap fun w => leBytes 4 (s.rd 0 (PWR_FLASH_BUF w))).take n
    let s := (s.setF 0 PWR_FLASH_STATUS_BUSY).clrF 0 PWR_FLASH_STATUS_DONE
    { s with pwr := { s.pwr with op := some ⟨op, s.rd 0 PWR_FLASH_ADDR, n, bs⟩ } }

/-- A flash operation is asked for; session 0 is refused (R476). -/
def State.flashAsk (s : State) (o : Origin) (op : Nat) : State :=
  if flashOrigin o then s.flashStart op else s.refuse o 0 PWR_FLASH_CTRL true

/-- FLASH_READ: a write of PWR_FLASH_CTRL with OP 1 and START (R476). -/
def execFlashRead (o : Origin) (s : State) : Answer := finish s (s.flashAsk o 1)

/-- FLASH_PROGRAM: a write of PWR_FLASH_CTRL with OP 2 and START (R476). -/
def execFlashProgram (o : Origin) (s : State) : Answer := finish s (s.flashAsk o 2)

/-- FLASH_ERASE: a write of PWR_FLASH_CTRL with OP 3 and START (R476). -/
def execFlashErase (o : Origin) (s : State) : Answer := finish s (s.flashAsk o 3)

/-- Flash bytes set, each at its own address. -/
def State.setFlash (s : State) (l : List (Nat × Byte)) : State :=
  { s with pwr := { s.pwr with flash := l.foldl (fun m (a, b) => smSet 0xFF a b m) s.pwr.flash } }

/-- Bytes that nothing constrains, for an operation that the flash reports as failed. -/
def State.freeFlash (s : State) (a n : Nat) : State :=
  let k := s.freeCtr
  { s with freeCtr := k + n }.setFlash ((List.range n).map fun i => (a + i, BitVec.ofNat 8 (Config.free (k + i))))

/-- What a finished flash operation has done (R476). Whether the flash reports an error is not the part's to say: a free value. A PROGRAM
wraps within its page (log 72). -/
def State.flashDo (s : State) (o : FlashOp) : State :=
  match o.op with
  | 1 =>
    let bs := s.flashBytes o.addr o.len ++ ((List.range 64).flatMap fun w => leBytes 4 (s.rd 0 (PWR_FLASH_BUF w))).drop o.len
    (List.range 64).foldl (fun s w => s.wr 0 (PWR_FLASH_BUF w) (leAt bs (4 * w) 4)) s
  | 2 =>
    let (e, s) := s.fresh
    if e % 2 = 1 then (s.freeFlash (o.addr / 256 * 256) 256).setF 0 PWR_ERR_FLASH_FAIL
    else s.setFlash (o.bytes.zipIdx.map fun (b, i) => (o.addr / 256 * 256 + (o.addr + i) % 256, b))
  | _ =>
    let (e, s) := s.fresh
    let a := o.addr / 65536 * 65536
    if e % 2 = 1 then (s.freeFlash a 65536).setF 0 PWR_ERR_FLASH_FAIL
    else { s with pwr := { s.pwr with flash := s.pwr.flash.filter fun (k, _) => !(decide (a ≤ k) && decide (k < a + 65536)) } }

/-- A flash operation finishes; a reset that waited for its page follows (R476, R489). -/
def State.flashDone (s : State) : State :=
  match s.pwr.op with
  | none => s
  | some o =>
    let s := s.flashDo o
    let s := { s with pwr := { s.pwr with op := none } }
    let s := (s.clrF 0 PWR_FLASH_STATUS_BUSY).setF 0 PWR_FLASH_STATUS_DONE
    if s.pwr.waiting = 0 then s else s.doReset s.pwr.waiting false

/-- FLASH_OP_DONE (R476). -/
def execFlashOpDone (s : State) : Answer := finish s s.flashDone

end Sys2Proof.Machine
end

