-- ==== Sys2Proof/Machine/Lcs.lean ====
section
/-! DEFINITION. Life cycle and security (R439 to R457). Access rules for the memory windows are in Machine/Access.lean. -/

namespace Sys2Proof.Machine

/-! The mailbox (R442). -/

/-- The session whose command has ended in this cycle: it owns the mailbox to the cycle's end (R442). -/
def State.mboxLast (s : State) : Nat :=
  let n := s.began.rd 0 LCS_MBOX_OWNER_SESSION
  if s.rd 0 LCS_MBOX_OWNER_SESSION = 0 ∧ s.net.sessions.any (·.1 == n) then n else 0

/-- The mailbox for an origin: claimed by a session 1 to 7 while nobody owns it; none where the access is refused (R442). -/
def State.mboxFor (s : State) (o : Origin) : Option State :=
  match o with
  | .session n =>
    let w := s.rd 0 LCS_MBOX_OWNER_SESSION
    if n.val = 0 then none
    else if s.mboxLast ≠ 0 then (if n.val = s.mboxLast then some s else none)
    else if w = 0 then some (s.wr 0 LCS_MBOX_OWNER_SESSION n)
    else if w = n.val then some s
    else none
  | _ => none

/-- A mailbox or LCS_CMD write that is refused (R442). -/
def State.mboxRefuse (s : State) (o : Origin) (f : Fld) : State := (s.setF 0 LCS_ERR_ACCESS).refuse o 0 f true

/-- A write of a mailbox word (R442). -/
def State.mboxWrite (s : State) (o : Origin) (w v : Nat) : State :=
  match s.mboxFor o with
  | some s => s.wr 0 (LCS_MBOX w) v
  | none => s.mboxRefuse o (LCS_MBOX w)

/-- LCS_MBOX_WRITE (R442). -/
def execLcsMboxWrite (o : Origin) (w : Fin 256) (v : BitVec 32) (s : State) : Answer := finish s (s.mboxWrite o w v.toNat)

/-- The content of the mailbox. -/
def State.mbox (s : State) : Bytes := (List.range 256).flatMap fun w => leBytes 4 (s.rd 0 (LCS_MBOX w))

/-! Checks (R443 to R446, R448, R452). -/

/-- What R444 says of an OP: the states that allow it, whether it is signed, and the length of ARGS. -/
def lcsOp (op : Nat) : Option (List Nat × Bool × Nat) :=
  match op with
  | 0x01 => some ([0], false, 96)
  | 0x02 => some ([1, 2], true, 100)
  | 0x03 => some ([1, 2], false, 100)
  | 0x04 => some ([1, 2], true, 4)
  | 0x05 => some ([1], true, 0)
  | 0x06 => some ([1, 2], true, 0)
  | 0x07 => some ([1, 2], true, 152)
  | 0x08 => some ([1, 2], true, 4)
  | 0x09 => some ([2], false, 248)
  | 0x0A => some ([2], false, 0)
  | 0x0B => some ([0, 1, 2, 3], false, 32)
  | _ => none

/-- The reserved bytes and the ranges of ARGS (R444, R448; log 66). -/
def argsOk (op : Nat) (a : Bytes) : Bool :=
  match op with
  | 0x02 => decide (1 ≤ byteAt a 0) && decide (byteAt a 0 ≤ 3) && leAt a 1 3 == 0
  | 0x03 => decide (byteAt a 0 ≤ 3) && leAt a 1 3 == 0
  | 0x04 => decide (byteAt a 0 ≤ 3) && leAt a 1 3 == 0
  | 0x07 => leAt a 0 4 != 0 && leAt a 4 4 == 0
  | _ => true

/-- LCS_CHALLENGE as bytes. -/
def State.challenge (s : State) : Bytes := (List.range 8).flatMap fun w => leBytes 4 (s.rd 0 (LCS_CHALLENGE w))

/-- SYS_DIE_ID of tile 0. -/
def State.dieId (s : State) : Nat := s.id.dieIds.headD 0 % 2 ^ 64

/-- A slot is usable (R446). -/
def State.slotUsable (s : State) (k : Nat) : Bool :=
  let f := s.lcs.fuses
  decide (k < 4) && f.programmed.testBit k && !f.revoked.testBit k && !f.erased && s.lcs.owners.any (·.1 == k)

/-- The loaded key of a slot. -/
def State.ownerKey (s : State) (k : Nat) : Bytes := smGet [] k s.lcs.owners

/-- An entry of key RAM for a KEY_ID: the one that holds it, or the first free one (R449). -/
def State.keyEntry (s : State) (id : Nat) : Option Nat :=
  match s.lcs.jobKeys.find? (·.2.id == id) with
  | some (k, _) => some k
  | none => (List.range 16).find? fun k => !s.lcs.jobKeys.any (·.1 == k)

/-- The job key that ARGS of INSTALL_JOB_KEY carry (R448). -/
def State.unwrap (s : State) (a : Bytes) : Option Bytes :=
  match Config.dhX s.dieId ((a.drop 8).take 96) with
  | none => none
  | some z =>
    let id := a.take 4
    let die := leBytes 8 s.dieId
    let kek := leBytes 32 (digest (leBytes 48 z ++ id ++ die))
    Config.gcmOpen kek (id ++ zeros 8) (id ++ die) ((a.drop 104).take 32) ((a.drop 136).take 16)

/-- A vendor token is valid (R452; log 66). -/
def State.tokenOk (s : State) (a : Bytes) : Bool :=
  let key := (a.drop 56).take 96
  a.take 4 == [0x4B, 0x56, 0x44, 0x54] && decide (leAt a 4 4 < 4) && decide (1 ≤ leAt a 8 4) && decide (leAt a 8 4 ≤ 86400) && leAt a 12 4 == 0 &&
    leAt a 16 8 == s.dieId && (a.drop 24).take 32 == s.challenge && digest key == s.id.vendorHash % 2 ^ 384 &&
    Config.ecdsaOk key (digest (a.take 152)) ((a.drop 152).take 96)

/-- The session of an origin owns the open vendor debug session (R452). -/
def State.debugOwner (s : State) (n : Nat) : Bool := s.is 0 LCS_STATE_DEBUG && s.rd 0 LCS_STATE_DEBUG_SESSION == n

/-- The checks of a command itself (R444, R446, R448, R449, R452; log 66). -/
def State.ownCheck (s : State) (op n : Nat) (a : Bytes) : Nat :=
  let f := s.lcs.fuses
  match op with
  | 0x02 => if f.programmed.testBit (byteAt a 0) then 5 else 0
  | 0x03 => if f.programmed.testBit (byteAt a 0) && smGet 0 (byteAt a 0) f.hashes == digest ((a.drop 4).take 96) then 0 else 7
  | 0x04 => if (List.range 4).any fun k => k != byteAt a 0 && f.programmed.testBit k && !f.revoked.testBit k then 0 else 8
  | 0x07 => if (s.unwrap a).isNone then 9 else if (s.keyEntry (leAt a 0 4)).isNone then 10 else 0
  | 0x08 => if s.lcs.jobKeys.any (·.2.id == leAt a 0 4) then 0 else 2
  | 0x09 => if s.is 0 LCS_STATE_DEBUG then 13 else if s.tokenOk a then 0 else 11
  | 0x0A => if s.debugOwner n then 0 else 1
  | _ => 0

/-- The result of a command's checks, in the order of R443; 0 is OK (R445). -/
def State.lcsCheck (s : State) (op n : Nat) (m : Bytes) : Nat :=
  match lcsOp op with
  | none => 2
  | some (states, signed, len) =>
    let a := lcsArgs m
    let slot := byteAt m 1
    if byteAt m 0 ≠ op ∨ leAt m 2 2 ≠ len ∨ leAt m 4 4 ≠ 0 ∨ (!signed && (slot != 0xFF || leAt m 16 32 != 0)) ∨ !argsOk op a then 2
    else if !states.contains (s.rd 0 LCS_STATE_STATE) then 1
    else if leAt m 8 8 ≠ s.dieId then 3
    else if signed && (m.drop 16).take 32 != s.challenge then 4
    else if signed && !s.slotUsable slot then 5
    else if signed && !Config.ecdsaOk (s.ownerKey slot) (digest (m.take (48 + len))) ((m.drop (48 + len)).take 96) then 6
    else s.ownCheck op n a

/-! Starts (R442, R453). -/

/-- A result other than OK is counted (R445). -/
def State.lcsResult (s : State) (r : Nat) : State :=
  let s := s.wr 0 LCS_CMD_STATUS_RESULT r
  if r = 0 then s else (s.addSat 0 LCS_CMDS_REFUSED 1).setF 0 LCS_ERR_REFUSED

/-- A command starts: its checks decide its result; a RETURN that passes them stops inspection first (R442, R443, R453). -/
def State.lcsBegin (s : State) (op n : Nat) : State :=
  let m := s.mbox
  let r := s.lcsCheck op n m
  let s := (s.setF 0 LCS_CMD_STATUS_BUSY).clrF 0 LCS_CMD_STATUS_DONE
  let s := { s with lcs := { s.lcs with cmd := some ⟨op, n, m, r⟩ } }
  if op = 6 ∧ r = 0 then
    let s := if s.is 0 BND_CTRL_RUN then s.runClear (s.word 0 BND_CTRL.blk BND_CTRL.off &&& 0xFFFFFFFE) else s
    { s with lcs := { s.lcs with returning := true } }.readyUpdate
  else s

/-- A write of LCS_CMD (R442): a START while BUSY is ignored and gives result BUSY. -/
def State.lcsCmdWrite (s : State) (o : Origin) (v : Nat) : State :=
  match s.mboxFor o with
  | none => s.mboxRefuse o LCS_CMD
  | some s =>
    if !v.testBit 8 then s.wr 0 LCS_CMD_OP v
    else if s.is 0 LCS_CMD_STATUS_BUSY then s.lcsResult 13
    else (s.wr 0 LCS_CMD_OP v).lcsBegin (v % 256) (originSession o)

/-- A command by its OP: the write of LCS_CMD that starts it. -/
def State.lcsStart (s : State) (o : Origin) (op : Nat) : State := s.lcsCmdWrite o (op + 256)

/-- PROVISION (R444). -/
def execProvision (o : Origin) (s : State) : Answer := finish s (s.lcsStart o 0x01)
/-- ADD_OWNER (R444). -/
def execAddOwner (o : Origin) (s : State) : Answer := finish s (s.lcsStart o 0x02)
/-- LOAD_OWNER_KEY (R444). -/
def execLoadOwnerKey (o : Origin) (s : State) : Answer := finish s (s.lcsStart o 0x03)
/-- REVOKE (R444). -/
def execRevoke (o : Origin) (s : State) : Answer := finish s (s.lcsStart o 0x04)
/-- COMMISSION (R444). -/
def execCommission (o : Origin) (s : State) : Answer := finish s (s.lcsStart o 0x05)
/-- RETURN (R444, R453). -/
def execLcsReturn (o : Origin) (s : State) : Answer := finish s (s.lcsStart o 0x06)
/-- INSTALL_JOB_KEY (R444). -/
def execInstallJobKey (o : Origin) (s : State) : Answer := finish s (s.lcsStart o 0x07)
/-- DROP_JOB_KEY (R444). -/
def execDropJobKey (o : Origin) (s : State) : Answer := finish s (s.lcsStart o 0x08)
/-- DEBUG_OPEN (R444). -/
def execDebugOpen (o : Origin) (s : State) : Answer := finish s (s.lcsStart o 0x09)
/-- DEBUG_CLOSE (R444). -/
def execDebugClose (o : Origin) (s : State) : Answer := finish s (s.lcsStart o 0x0A)
/-- ATTEST (R444). -/
def execAttest (o : Origin) (s : State) : Answer := finish s (s.lcsStart o 0x0B)

/-! Vendor debug sessions (R452). -/

/-- The vendor debug session ends: engines it halted resume and its breakpoints clear (R452). Reasons are those of notification 0x0052. -/
def State.debugEnd (s : State) (why : Nat) : State :=
  if !s.is 0 LCS_STATE_DEBUG then s else
  let n := s.rd 0 LCS_STATE_DEBUG_SESSION
  let es := s.lcs.debugEngs
  let s := es.foldl (fun s k => (s.engResume (k / 128) (k % 128)).clrF (k / 128) (ENG_E_DBG_BP_EN (k % 128))) s
  let s := (s.clrF 0 LCS_STATE_DEBUG).clrF 0 LCS_STATE_DEBUG_SESSION
  (s.updLcs fun l => { l with scope := 0, debugEnd := 0, debugEngs := [], expiring := false }).notify 0x0052 n why 0 0

/-- DURATION has passed: accesses of the session in the same cycle complete first (R456). -/
def State.debugExpire (s : State) : State :=
  if s.lcpAhead fun h => h.session.val == s.rd 0 LCS_STATE_DEBUG_SESSION then s.updLcs fun l => { l with expiring := true } else s.debugEnd 1

/-- DEBUG_EXPIRY: DURATION has passed on TB0 (R452). -/
def execDebugExpiry (s : State) : Answer :=
  whenEv s (s.locked 0 .aux && s.is 0 LCS_STATE_DEBUG && decide (s.lcs.debugEnd ≤ s.tim.tb0)) fun s => s.debugExpire

/-- Seconds left in the debug session (R457). -/
def State.debugLeft (s : State) : Nat := if s.is 0 LCS_STATE_DEBUG then ceilDiv (s.lcs.debugEnd - s.tim.tb0) 1000000000 else 0

/-- A valid token opens a vendor debug session (R452). -/
def State.debugBegin (s : State) (n : Nat) (a : Bytes) : State :=
  let s := (s.setF 0 LCS_STATE_DEBUG).wr 0 LCS_STATE_DEBUG_SESSION n
  let s := s.updLcs fun l => { l with scope := leAt a 4 4, debugEnd := s.tim.tb0 + leAt a 8 4 * 1000000000, debugEngs := [] }
  let s := s.notify 0x0051 n (leAt a 4 4) (leAt a 8 4) 0
  if s.net.sessions.any (·.1 == n) then s else s.debugEnd 2

/-! Effects (R444, R446, R449, R453, R454). -/

/-- Key RAM is cleared: job keys and loaded owner keys (R446, R449). -/
def State.clearKeys (s : State) : State := (s.updLcs fun l => { l with owners := [], jobKeys := [] }).lcsSync

/-- The state changes (R441, R455). -/
def State.lifeChange (s : State) (n life : Nat) : State :=
  let old := s.rd 0 LCS_STATE_STATE
  let s := (s.updLcs fun l => { l with fuses := { l.fuses with life := life } }).lcsSync
  s.notify 0x0050 old (s.rd 0 LCS_STATE_STATE) n 0

/-- An owner hash is fused into a slot and the key is loaded (R444). -/
def State.addOwner (s : State) (n k : Nat) (key : Bytes) : State :=
  let s := s.updLcs fun l => { l with
    fuses := { l.fuses with programmed := l.fuses.programmed ||| 2 ^ k, hashes := smInsert k (digest key) l.fuses.hashes }
    owners := smInsert k key l.owners }
  s.lcsSync.notify 0x0053 0 k 0 n

/-- REVOKE (R446): the slot's key is unloaded and every job key it installed is dropped. -/
def State.revoke (s : State) (n k : Nat) : State :=
  let gone := s.lcs.jobKeys.filter (·.2.slot == k)
  let s := s.updLcs fun l => { l with
    fuses := { l.fuses with revoked := l.fuses.revoked ||| 2 ^ k }
    owners := smErase k l.owners, jobKeys := l.jobKeys.filter (·.2.slot != k) }
  gone.foldl (fun s (_, j) => s.notify 0x0053 3 k j.id n) (s.lcsSync.notify 0x0053 1 k 0 n)

/-- Engines halted by DBG resume and every breakpoint clears as FIELD is entered (R456). -/
def State.closeDebug (s : State) : State :=
  s.eachTile fun t s => (List.range 128).foldl (fun s e =>
    let s := if (s.engOf t e).halted || s.is t (ENG_E_DBG_HALT e) then s.engResume t e else s
    if s.is t (ENG_E_DBG_BP_EN e) then s.clrF t (ENG_E_DBG_BP_EN e) else s) s

/-- INSTALL_JOB_KEY (R449). -/
def State.installKey (s : State) (n slot : Nat) (a : Bytes) : State :=
  let id := leAt a 0 4
  match s.unwrap a, s.keyEntry id with
  | some key, some k => ((s.updLcs fun l => { l with jobKeys := smInsert k ⟨id, key, slot⟩ l.jobKeys }).lcsSync).notify 0x0053 2 slot id n
  | _, _ => s

/-- DROP_JOB_KEY (R444). -/
def State.dropKey (s : State) (n slot id : Nat) : State :=
  ((s.updLcs fun l => { l with jobKeys := l.jobKeys.filter (·.2.id != id) }).lcsSync).notify 0x0053 3 slot id n

/-- The signed statement of ATTEST (R454). -/
def State.attest (s : State) (a : Bytes) : State :=
  let (e, s) := s.fresh
  let b := leBytes 96 (Config.identityKey s.dieId) ++ leBytes 8 s.dieId ++
    leBytes 4 (s.word 0 LCS_STATE.blk LCS_STATE.off) ++ leBytes 4 (s.word 0 LCS_SLOTS.blk LCS_SLOTS.off) ++
    leBytes 4 (s.word 0 SYS_FW_VERSION.blk SYS_FW_VERSION.off) ++ leBytes 4 (s.rd 0 CFG_ACTIVE_JOB) ++ a.take 32
  let r := b ++ leBytes 96 (Config.ecdsaSign s.dieId (digest b) e)
  ((List.range 62).foldl (fun s w => s.wr 0 (LCS_RESP w) (leAt r (4 * w) 4)) s).wr 0 LCS_CMD_STATUS_RESP_LEN 248

/-- Every engine store, cluster memory, and pipeline memory below 0x40_0000 is zero-filled (R453). -/
def State.zeroMemories (s : State) : State := s.zeroSpans (s.tiles.flatMap fun t => testSpans t 0 7)

/-- A RETURN has blown its fuses: keys and memory are erased and a reset follows (R453). -/
def State.returnEnd (s : State) (n : Nat) : State :=
  let s := (s.updLcs fun l => { l with fuses := { l.fuses with erased := true } }).lifeChange n 7
  (s.clearKeys.debugEnd 0).zeroMemories.internalReset 2 false

/-- The effect of a command whose checks passed (R444). -/
def State.lcsEffect (s : State) (c : LcsCmd) : State :=
  let a := lcsArgs c.bytes
  let slot := byteAt c.bytes 1
  match c.op with
  | 0x01 => (s.lifeChange c.session 1).addOwner c.session 0 (a.take 96)
  | 0x02 => s.addOwner c.session (byteAt a 0) ((a.drop 4).take 96)
  | 0x03 => (s.updLcs fun l => { l with owners := smInsert (byteAt a 0) ((a.drop 4).take 96) l.owners }).lcsSync
  | 0x04 => s.revoke c.session (byteAt a 0)
  | 0x05 => (s.lifeChange c.session 3).closeDebug
  | 0x07 => s.installKey c.session slot a
  | 0x08 => s.dropKey c.session slot (leAt a 0 4)
  | 0x09 => s.debugBegin c.session a
  | 0x0A => s.debugEnd 0
  | 0x0B => s.attest a
  | _ => s

/-- A command ends (R441 to R445): RESULT and DONE are set, BUSY is cleared and the mailbox is released; a signed command, and a token that was
refused, renew the challenge (R443, R452). -/
def State.lcsEnd (s : State) (fuseBad : Bool) : State :=
  match s.lcs.cmd with
  | none => s
  | some c =>
    let s := s.updLcs fun l => { l with cmd := none, returning := false }
    let bad := fuseBad && blowsFuses c.op && c.result == 0
    let s := s.wr 0 LCS_CMD_STATUS_RESP_LEN 0
    let s := if bad then (s.fuseFail c).setF 0 LCS_ERR_FUSE else if c.result = 0 then s.lcsEffect c else s
    let s := s.lcsResult (if bad then 12 else c.result)
    let s := (s.clrF 0 LCS_CMD_STATUS_BUSY).setF 0 LCS_CMD_STATUS_DONE
    let s := if s.rd 0 LCS_MBOX_OWNER_SESSION = c.session then s.clrF 0 LCS_MBOX_OWNER_SESSION else s
    let signed := match lcsOp c.op with
      | some (_, g, _) => g
      | none => false
    let s := if signed || c.result == 11 then s.renewChallenge else s
    if c.op = 6 ∧ c.result = 0 ∧ ¬ bad then s.returnEnd c.session else s.readyUpdate

/-- LCS_COMMAND_END (R441, R442). -/
def execLcsCommandEnd (fuseFail : Bool) (s : State) : Answer := onAux s fun s => s.lcsEnd fuseFail

/-- An LCP session closes: its mailbox is released and its vendor debug session ends (R442, R452). -/
def State.lcsSessionClose (s : State) (n : Nat) : State :=
  let s := if s.rd 0 LCS_MBOX_OWNER_SESSION = n then s.clrF 0 LCS_MBOX_OWNER_SESSION else s
  if s.debugOwner n then s.debugEnd 2 else s

/-! Internal scan (R450, R451). -/

/-- Every sealed granule is zero-filled. -/
def State.zeroSealed (s : State) : State :=
  let g := s.lcs.seals
  { s with mem := s.mem.filter fun (a, _) => !g.contains (a / 64) }.updLcs fun l => { l with seals := [] }

/-- Internal scan is entered (R450, R451): closed in FIELD. -/
def State.scanEntry (s : State) : State :=
  if s.inField then s else (s.clearKeys.zeroSealed).updLcs fun l => { l with scan := true }

/-- INTERNAL_SCAN_ENTRY (R451). -/
def execInternalScanEntry (s : State) : Answer := finish s s.scanEntry

end Sys2Proof.Machine
end

