-- ==== Sys2Proof/Machine/BusRead.lean ====
section
/-! DEFINITION. What a register reads as where its word is computed from other state, and a read access over the register map and the
memory windows (R13, R15, R36, R38, R265, R343). -/

namespace Sys2Proof.Machine

/-! Words that are computed. -/

/-- SYS registers: the fused identity, and what tile 0 knows of the part (R43). -/
def State.readSys (s : State) (r : RegRef) (w : Nat) : Nat :=
  if r.named SYS_ID then (s.id.variant.part * 256 + s.id.stepping.code) * 256 + r.t * 16 + s.id.variant.tiles
  else if r.named SYS_DIE_ID_LO then s.id.dieIds.getD r.t 0 % 2 ^ 32
  else if r.named SYS_DIE_ID_HI then s.id.dieIds.getD r.t 0 / 2 ^ 32 % 2 ^ 32
  else if r.named SYS_TILE_MAP then withBits w 7 0 (2 ^ s.id.variant.tiles - 1)
  else if r.named SYS_STATUS then
    bitN (s.is 0 SYS_STATUS_BOOT_DONE) + 2 * bitN (s.is 0 SYS_STATUS_READY) + 4 * bitN (s.is 0 SYS_STATUS_TILES_UP) + 8 * bitN s.d2dOk +
      16 * bitN s.clkOk + 32 * bitN (s.tiles.any fun t => s.is t SYS_STATUS_THERMAL_WARN)
  else w

/-- D2D registers: the bonding and the routes are fused (R28, R30, R45). The spec does not give LINK and HOPS of the route to a tile that is not
fitted: the whole register reads 0 there (DESIGN CHOICE, log 201). -/
def State.readD2d (s : State) (r : RegRef) (w : Nat) : Nat :=
  if r.off < (D2D_ROUTE 0).off then
    match s.id.neighbour r.t r.i with
    | some c => if r.named (D2D_L_STATUS 0) then withBits (withBits w 0 0 1) 6 4 c else w
    | none => 0
  else if r.named (D2D_ROUTE 0) then
    if s.fit r.i then
      s.id.routeLink r.t r.i + 16 * s.id.hops r.t r.i + 256 + 512 * bitN (s.id.variant == .lyn820 && r.t != r.i)
    else 0
  else w

/-- BND registers (R72). -/
def State.readBnd (s : State) (r : RegRef) (w : Nat) : Nat :=
  if r.named BND_STATUS then
    withBits w 7 5 (match s.openBand with
      | some b => s.rdB b.bank 0 BND_BAND_SIZE_B
      | none => s.rd 0 BND_BAND_SIZE_B)
  else if r.named BND_LATENCY then withBits w 4 0 (s.depth s.bank 6 + 1)
  else w

/-- Every engine assigned only in SHADOW has ended INIT with DONE (CFG_STATUS.INIT_DONE of R287). -/
def State.initDone (s : State) : Bool :=
  (s.shadowSt == 3 || s.shadowSt == 4) && s.tiles.all fun t => (List.range 128).all fun e =>
    !(s.assigned s.shadow t e && !s.assigned s.bank t e) || s.is t (ENG_E_STATUS_INIT_DONE e)

/-- The grid of SHADOW as it will count: from SWAP_POS once armed (R284). -/
def State.withArmGrid (s : State) : State := if s.shadowSt = 4 then s else s.armGrid

/-- CFG_STATUS.REF_READY (R285). -/
def State.refReady (s : State) : Bool :=
  let b := s.shadow
  let s := s.withArmGrid
  (s.shadowSt == 1 || s.shadowSt == 2 || s.shadowSt == 3 || s.shadowSt == 4) &&
    ((List.range 8).filter fun g => s.refOn b g && !s.refLearns b g).all fun g =>
      let (k, z, _) := s.gridAt b s.bandIndex s.swapPos
      !s.horizonShort b g (s.leadReq b g (s.repeatOf b k) (s.swapPos - z))

/-- POS registers: speeds follow the time of the last edge (R295). -/
def State.readPos (s : State) (r : RegRef) (w : Nat) : Nat :=
  if r.named (POS_CH_PERIOD 0) then (s.posSpeed r.i).2
  else if r.named (POS_CH_SPEED 0) then (s.posSpeed r.i).1
  else if r.named (POS_ABS_SPD_PERIOD 0) then (s.posSpeed (4 + r.i)).2
  else if r.named (POS_ABS_SPEED 0) then (s.posSpeed (4 + r.i)).1
  else if r.named POS_WEB_SPEED then s.webSpeed
  else w

/-- CHN_SESS: session k + 1 (R340, R358). -/
def State.readSess (s : State) (k : Nat) : Nat :=
  match s.net.sessions.find? (·.1 == k + 1) with
  | none => 0
  | some (n, x) =>
    let udp := match x.src with
      | .l2 _ => false
      | _ => true
    1 + 2 * bitN udp + 4 * bitN (s.shadowSt == 1 && s.cfg.load.any (·.session == n)) + 8 * bitN (s.net.subscriber == some n) +
      65536 * Nat.min ((s.tim.tb0 - x.last) / 1000000000) 0xFFFF

/-- PWR registers (R468, R469). -/
def State.readPwr (s : State) (r : RegRef) (w : Nat) : Nat :=
  if r.named PWR_INT_STATUS then s.intStatus r.t
  else if r.named PWR_INT_TILES then ofOnes s.intTiles
  else if r.named PWR_READY then s.pwrReady
  else w

/-- The DMA interrupt registers are not in use on the LYN880 (R383). -/
def State.readDma (s : State) (r : RegRef) (w : Nat) : Nat :=
  if s.id.variant = .lyn880 ∧ r.among [DMA_INT_STATUS, DMA_INT_EN] then 0
  else if r.named (DMA_CH_STATUS 0) then withBits w 3 3 (bitN (s.dmaWaiting r.t r.i))
  else w

/-- What a register reads as, its stored word being `w`. -/
def State.readWord (s : State) (r : RegRef) (w : Nat) : Nat :=
  match r.blk with
  | 0x00 => s.readSys r w
  | 0x1B => s.readD2d r w
  | 0x02 => s.readBnd r w
  | 0x08 => if r.named (STI_GRP_XOFS 0) && r.i == 0 then 0 else w
  | 0x0C => if r.named (ENG_E_DBG_DATA 0) then s.dbgRead r.t r.i else w
  | 0x0D => if r.named CFG_STATUS then withBits (withBits w 3 3 (bitN s.refReady)) 4 4 (bitN s.initDone) else w
  | 0x0E => s.readPos r w
  | 0x0F =>
    if r.named (TIM_TB_NS_LO 0) then s.base r.i % 2 ^ 32
    else if r.named (TIM_TB_NS_HI 0) then s.base r.i / 2 ^ 32 % 2 ^ 32
    else w
  | 0x10 =>
    if r.named ETH_MAC_LO then s.id.mac % 2 ^ 32
    else if r.named ETH_MAC_HI then s.id.mac / 2 ^ 32 % 2 ^ 16
    else w
  | 0x11 => if r.named (CHN_SESS 0) then s.readSess r.i else w
  | 0x14 => s.readDma r w
  | 0x15 => if r.named (QUE_Q_STATUS 0) then withBits w 17 17 (bitN (s.qOwned r.t r.i)) else w
  | 0x19 =>
    if r.named (LCS_VENDOR_HASH 0) then s.id.vendorHash / 2 ^ (32 * r.i) % 2 ^ 32
    else if r.named LCS_DEBUG_LEFT then s.debugLeft
    else w
  | 0x1A => s.readPwr r w
  | _ => w

/-! Read accesses. -/

/-- The bank that a read or a write of a structure register by software reaches (R265). -/
def State.viewBank (s : State) : Nat := if s.is 0 CFG_CTRL_VIEW then s.shadow else s.bank

/-- The bank of a register for software: only a structure register has two. -/
def State.softBank (s : State) (r : RegRef) : Nat := if r.structured then s.viewBank else s.bank

/-- What software reads at a register. -/
def State.regValue (s : State) (r : RegRef) : Nat := s.readWord r (r.row.read (s.wordB (s.softBank r) r.t r.blk r.off))

/-- A read that a rule refuses (R259, R260, R372), and its flags. -/
def State.readRefused (s : State) (o : Origin) (r : RegRef) : Option State :=
  if r.blk = 0x0C then
    if r.named (ENG_E_DBG_DATA 0) then
      if (s.dbgData o r.t r.i none).1.isNone then some (s.dbgData o r.t r.i none).2 else none
    else if r.named (ENG_E_DBG_SEL 0) && !s.debugOpen o then some (s.lcsRefuse o r.t r.fld false)
    else none
  else if r.blk = 0x13 then
    let x := evtReg r.off
    let (owner, secure) := s.evtAttr (s.softBank r) r.t x
    let mine := match o with
      | .session n => !x.structured && n.val != 0 && n.val == owner
      | _ => true
    if x.isChan && secure && !mine then some ((s.setF r.t EVT_ERR_ACCESS).refuse o r.t r.fld false) else none
  else none

/-- A read of a register: the low word of a pair latches the high word, which the next high-word read of the origin returns (R13). -/
def State.regRead (s : State) (o : Origin) (r : RegRef) : Nat × State :=
  if r.row.pair = 1 then
    let h := s.regAt (r.addr + 4)
    let w := (h.map s.regValue).getD 0
    (s.regValue r, { s with latches := putHold s.latches o (r.addr + 4) w })
  else if r.row.pair = 2 then
    match findHold s.latches o r.addr with
    | some w => (w, { s with latches := dropHold s.latches o r.addr })
    | none => (s.regValue r, s)
  else (s.regValue r, s)

/-- A 32-bit read at a package address (R12, R36, R38). -/
def State.busRead (s : State) (o : Origin) (a : Nat) : Nat × State × AccStatus :=
  if a % 4 ≠ 0 ∨ !s.fit (addrTile a) then (0, s.recordErr o a false false, .addr)
  else
    match windowOf a with
    | some _ =>
      match s.winRule4 (some o) a false with
      | some f => (0, (f s).recordErr o a false true, .access)
      | none => (s.memLE a 4, s, .ok)
    | none =>
      match s.regAt a with
      | none => (0, s.recordErr o a false false, .addr)
      | some r =>
        match s.readRefused o r with
        | some s' => (0, s', .access)
        | none => ((s.regRead o r).1, (s.regRead o r).2, .ok)

end Sys2Proof.Machine
end

