-- ==== Sys2Proof/Machine/Session.lean ====
section
/-! DEFINITION. Closing a session (R340, R372, R442, R452). -/

namespace Sys2Proof.Machine

/-- Session `n` is open. -/
def State.sessOpen (s : State) (n : Nat) : Bool := s.net.sessions.any (·.1 == n)

/-- The session with its number. -/
def State.sessAt (s : State) (n : Nat) : Option Session := (s.net.sessions.find? (·.1 == n)).map (·.2)

/-- The session, its kept reply and its subscription go. -/
def State.sessDrop (s : State) (n : Nat) : State :=
  let sub := s.net.subscriber == some n
  { s with net := { s.net with
      sessions := s.net.sessions.filter (·.1 != n), kept := smErase n s.net.kept
      subscriber := if sub then none else s.net.subscriber
      noticeSends := if sub then 0 else s.net.noticeSends } }

/-- A session closes (R340): a load it opened is aborted while it is LOADING. -/
def State.sessionClose (s : State) (n : Nat) : State :=
  if !s.sessOpen n then s else
  let s := if s.shadowSt = 1 ∧ s.cfg.load.any (·.session == n) then s.loadStop else s
  ((s.sessDrop n).evtSessionClose n).lcsSessionClose n

/-- No frame from its source has come for CHN_LCP_CTRL.TMO seconds (R340). -/
def State.sessOver (s : State) (x : Session) : Bool := decide (s.rd 0 CHN_LCP_CTRL_TMO * 1000000000 ≤ s.tim.tb0 - x.last)

/-- A session times out: a request of it in the same cycle completes first (R355). -/
def State.sessionTimeout (s : State) (n : Nat) : State :=
  if s.lcpAhead fun h => h.session.val == n then { s with net := { s.net with expired := n :: s.net.expired } } else s.sessionClose n

/-- SESSION_TIMEOUT: no frame from its source for CHN_LCP_CTRL.TMO seconds (R340, R355). -/
def execSessionTimeout (n : Fin 8) (s : State) : Answer := whenEv s ((s.sessAt n).any s.sessOver) fun s => s.sessionTimeout n

/-- At the end of a cycle the sessions close that have timed out behind their requests (R355), and a vendor debug session ends that has run out
behind its accesses (R456). -/
def State.sessExpire (s : State) : State :=
  let s := s.net.expired.foldl (fun s n => s.sessionClose n) { s with net := { s.net with expired := [] } }
  if s.lcs.expiring then s.debugEnd 1 else s

/-- A write of CHN_SESS_CLOSE (R340). -/
def State.sessCloseWrite (s : State) (v : Nat) : State := [1, 2, 3, 4, 5, 6, 7].foldl (fun s k => if v.testBit k then s.sessionClose k else s) s

/-- SESS_CLOSE (R340). -/
def execSessClose (v : BitVec 32) (s : State) : Answer := finish s (s.sessCloseWrite v.toNat)

/-- A write of EVT_SW_PIP: sources 224 + k pip in the next cycle (R360, R374). -/
def State.swPip (s : State) (t mask : Nat) : State :=
  { s with fab := { s.fab with soon := s.fab.soon ++ (onesOf 16 mask).map fun k => (t, 224 + k) } }

/-- SW_PIP (R360, R374). -/
def execSwPip (t : Tile) (mask : BitVec 16) (s : State) : Answer := onTile s t fun s => s.swPip t mask.toNat

end Sys2Proof.Machine
end

