-- ==== Sys2Proof/Machine/Tim.lean ====
section
/-! DEFINITION. Time bases, PTP and scheduled actions (R310 to R330). -/

namespace Sys2Proof.Machine

/-! Steps of a time base (R321, R322). -/

/-- The value of a base in 2⁻³² ns, wrapped at 64 bits of ns. -/
def tbWrap (x : Int) : Nat := uNat 96 x

/-- Base `k` moved by an amount in ns. -/
def State.moveBase (s : State) (k : Nat) (a : Int) : State :=
  match k with
  | 1 => { s with tim := { s.tim with tb1 := tbWrap (s.tim.tb1 + a * 2 ^ 32), tb1Steps := s.tim.tb1Steps + 1, stepped := s.tim.tb0 + 1 } }
  | 2 => { s with tim := { s.tim with tb2 := tbWrap (s.tim.tb2 + a * 2 ^ 32) } }
  | _ => { s with tim := { s.tim with tb3 := tbWrap (s.tim.tb3 + a * 2 ^ 32) } }

/-- The base that the line schedule counts on (R46). -/
def State.schedSel (s : State) : Nat :=
  match s.rd 0 BND_CTRL_TB_SEL with
  | 1 => 1
  | 2 => 3
  | _ => 0

/-- The time T of a slot (R324). -/
def State.slotTime (s : State) (t n : Nat) : Nat := s.rd64 t (TIM_ACT_TIME_LO n)

/-- The firing point of a slot: T, or T − 2,000 ns for FRAME (R325). -/
def State.firePoint (s : State) (t n : Nat) : Int :=
  (s.slotTime t n : Int) - (if s.rd t (TIM_ACT_CTRL_ACTION n) = 2 then 2000 else 0)

/-- The present time of a slot's base. -/
def State.slotBase (s : State) (t n : Nat) : Nat := s.base (s.rd t (TIM_ACT_CTRL_TB n))

/-- LINE_START: the first source tick of the schedule (R48, R325). -/
def State.lineStart (s : State) (t n : Nat) (late : Bool) : State :=
  if s.is 0 BND_CTRL_RUN && s.rd 0 BND_CTRL_SRC == 1 && s.is 0 BND_CTRL_WAIT_START && !s.clk.issued && !s.clk.stopping then
    let x := if late then s.schedBase else s.slotTime t n * 2 ^ 32
    { s with clk := { s.clk with schedule := some (x + s.tbPeriod) } }.sourceTick
  else s.setF t (TIM_ACT_STATUS_NO_TARGET n)

/-- FRAME: the port is prepared for the launch of a buffer; an empty one has no target (R325, R338). -/
def State.framePrepare (s : State) (t n : Nat) : State :=
  let b := s.rd t (TIM_ACT_CTRL_ARG n) % 16
  if s.rd t (ETH_LBUF_LEN b) = 0 then s.setF t (TIM_ACT_STATUS_NO_TARGET n)
  else { s with tim := { s.tim with launches := s.tim.launches ++ [⟨t, n, b, s.rd t (TIM_ACT_CTRL_TB n), s.slotTime t n⟩] } }

/-- The next time of a periodic slot: the first T + k × PERIOD after the present time, k at least 1; any other slot ends PENDING (R324,
R327). -/
def State.slotNext (s : State) (t n : Nat) : State :=
  let p := s.rd t (TIM_ACT_PERIOD n)
  if p = 0 ∨ s.rd t (TIM_ACT_CTRL_ACTION n) = 1 then (s.clrF t (TIM_ACT_STATUS_PENDING n)).clrF t (TIM_ACT_CTRL_ARM n)
  else
    let x := s.slotTime t n
    let b := s.slotBase t n
    let k := if b < x then 1 else (b - x) / p + 1
    s.wr64 t (TIM_ACT_TIME_LO n) (x + k * p)

/-- A slot executes (R325, R326). -/
def State.slotExec (s : State) (t n : Nat) (late : Bool) : State :=
  let s := (s.addWrap t (TIM_ACT_COUNT n) 1).wr t (TIM_ACT_EXEC n) (s.slotBase t n)
  let s := s.setF t (TIM_ACT_STATUS_DONE n)
  let s := if late then (s.setF t (TIM_ACT_STATUS_LATE n)).setF 0 TIM_ERR_LATE else s
  let s := { s with tim := { s.tim with fired := smSet 0 (t * 64 + n) (s.tim.tb0 + 1) s.tim.fired } }
  let s := match s.rd t (TIM_ACT_CTRL_ACTION n) with
    | 0 => s.pip t (48 + n)
    | 1 => s.lineStart t n late
    | _ => s.framePrepare t n
  s.slotNext t n

/-- A firing point already passed: the slot executes LATE, or is dropped with DROP_LATE (R326). -/
def State.slotPassed (s : State) (t n : Nat) : State :=
  if s.is t (TIM_ACT_CTRL_DROP_LATE n) then
    (((s.setF t (TIM_ACT_STATUS_DROPPED n)).setF 0 TIM_ERR_DROPPED).addSat t (TIM_ACT_DROPS n) 1).slotNext t n
  else s.slotExec t n true

/-- A pending slot is checked against the present time of its base: a firing point equal to it is not passed (R326). -/
def State.slotCheck (s : State) (t n : Nat) : State :=
  if s.is t (TIM_ACT_STATUS_PENDING n) && decide (s.firePoint t n < (s.slotBase t n : Int)) then s.slotPassed t n else s

/-- A pending slot whose base has reached its firing point less 1 ns (R325). -/
def State.slotDue (s : State) (t n : Nat) : Bool :=
  s.is t (TIM_ACT_STATUS_PENDING n) && decide (s.firePoint t n ≤ (s.slotBase t n : Int) + 1)

/-- The slot has executed in this cycle (R328). -/
def State.slotFired (s : State) (t n : Nat) : Bool := smGet 0 (t * 64 + n) s.tim.fired == s.tim.tb0 + 1

/-- A slot whose firing point falls in this cycle fires now (R325, R328). -/
def State.slotFire (s : State) (t n : Nat) : State := if s.slotDue t n then s.slotExec t n false else s

/-- Something for every slot tied to base `k`, in slot order. -/
def State.eachSlot (s : State) (k : Nat) (f : Nat → Nat → State → State) : State :=
  s.eachTile fun t s => (List.range 64).foldl (fun s n => if s.rd t (TIM_ACT_CTRL_TB n) = k then f t n s else s) s

/-- Every pending slot on a stepped base is checked, but for those that have fired in this cycle (R322, R328). -/
def State.slotsCheck (s : State) (k : Nat) : State := s.eachSlot k fun t n s => if s.slotFired t n then s else s.slotCheck t n

/-- A step of base `k` by an amount in ns; the slots that fire in its cycle count at the time before it (R322, R328). -/
def State.stepBase (s : State) (k : Nat) (a : Int) : State :=
  let s := s.eachSlot k fun t n s => s.slotFire t n
  let before := s.base k / 1000000000
  let s := s.moveBase k a
  let s := if k = 3 then s else s.addWrap 0 TIM_STEPS 1
  let s := (s.wr64 0 TIM_STEP_LAST_LO (uNat 64 a)).wr64 0 TIM_STEP_TB0_LO s.tim.tb0
  let s := s.setF 0 TIM_ERR_STEP
  let s := s.eachTile fun t s => s.setF t (TIM_TB_STATUS_VALID k)
  let s := s.notify 0x0006 (uNat 64 a % 2 ^ 32) (uNat 64 a / 2 ^ 32) k 0
  let s := if k = 1 then s.pipAll 112 else if k = 3 then s.pipAll 114 else s
  let s := if k = 1 ∧ before < s.base 1 / 1000000000 then s.pipAll 115 else s
  let s := if s.schedSel = k then
      { s with clk := { s.clk with schedule := s.clk.schedule.map fun x => tbWrap (x + a * 2 ^ 32) } }
    else s
  s.slotsCheck k

/-! TB3 (R323). -/

/-- TB3_STEP: the signed amount of a pair write of TIM_TB3_STEP (R323). -/
def execTb3Step (v : BitVec 64) (s : State) : Answer := finish s (s.stepBase 3 (sInt 64 v.toNat))

/-- A setting of TB3 is a step of the difference (R323). -/
def State.tb3Set (s : State) (v : Nat) : State := s.stepBase 3 ((v : Int) - s.base 3)

/-- TB3_SET (R323). -/
def execTb3Set (v : BitVec 64) (s : State) : Answer := finish s (s.tb3Set v.toNat)

/-- RATE of a base on every tile (R312). -/
def State.setRate (s : State) (k : Nat) (v : Nat) : State := s.eachTile fun t s => s.wr t (TIM_TB_RATE k) v

/-- TB3_RATE (R323). -/
def execTb3Rate (v : BitVec 32) (s : State) : Answer := finish s (s.setRate 3 v.toNat)

/-! Slots (R324 to R328). -/

/-- The tiles an action exists on (R325). -/
def actionOk (t a : Nat) : Bool := a == 0 || a == 1 && t == 0 || a == 2 && decide (t < 2)

/-- A write of TIM_ACTs_CTRL with ARM (R324 to R326). -/
def State.slotArm (s : State) (t n v : Nat) : State :=
  if s.is t (TIM_ACT_STATUS_PENDING n) then s.setF 0 TIM_ERR_SLOT_BUSY
  else
    let s := s.wr t (TIM_ACT_CTRL n) (v &&& 0xFF7C)
    if actionOk t (s.rd t (TIM_ACT_CTRL_ACTION n)) then
      ((s.setF t (TIM_ACT_CTRL_ARM n)).setF t (TIM_ACT_STATUS_PENDING n)).slotCheck t n
    else s.setF 0 TIM_ERR_CFG_INVALID

/-- SLOT_ARM (R324). -/
def execSlotArm (t : Tile) (n : Fin 64) (v : BitVec 32) (s : State) : Answer := onTile s t fun s => s.slotArm t n v.toNat

/-- DISARM ends PENDING; a slot that fires in the same cycle completes (R324, R328). -/
def State.slotDisarm (s : State) (t n : Nat) : State :=
  let s := s.slotFire t n
  let s := (s.clrF t (TIM_ACT_STATUS_PENDING n)).clrF t (TIM_ACT_CTRL_ARM n)
  if s.slotFired t n then
    (s.setF t (TIM_ACT_STATUS_DONE n)).setF t (TIM_ACT_STATUS_ABORT_LATE n)
  else s

/-- SLOT_DISARM (R324). -/
def execSlotDisarm (t : Tile) (n : Fin 64) (s : State) : Answer := onTile s t fun s => s.slotDisarm t n

/-- The slots of a tile that are due below slot `n` fire before it, in slot order (R328). -/
def State.slotsBelow (s : State) (t n : Nat) : State := (List.range n).foldl (fun s m => s.slotFire t m) s

/-- SLOT_FIRE (R325, R328). -/
def execSlotFire (t : Tile) (n : Fin 64) (s : State) : Answer :=
  whenEv s (s.locked t .aux && s.fit t && s.slotDue t n) fun s => (s.slotsBelow t n).slotExec t n false

/-- TB0 at which the last frame launched at a port ends. -/
def State.launchEnd (s : State) (p : Nat) : Nat := (List.range 16).foldl (fun a b => Nat.max a (smGet 0 (p * 16 + b) s.tim.launchEnd)) 0

/-- The launch of the oldest frame that holds a port: a second one starts when the first has ended, with LATE (R325, R328). -/
def State.frameLaunch (s : State) (p : Nat) : State :=
  match s.tim.launches.find? (·.port == p) with
  | none => s
  | some l =>
    let n := l.slot
    let b := l.buf
    let len := s.rd p (ETH_LBUF_LEN b)
    let f := ((List.range 512).flatMap fun i => leBytes 4 (s.rd p (ETH_LBUF (b * 512 + i)))).take len
    let busy := decide (s.tim.tb0 < s.launchEnd p)
    let s := if busy then s.setF p (TIM_ACT_STATUS_LATE n) else s
    let endAt := Nat.max s.tim.tb0 (s.launchEnd p) + ceilDiv ((len + 4) * 8) (if s.is p ETH_STATUS_SPEED then 200 else 400)
    let s := { s with tim := { s.tim with launches := s.tim.launches.erase l, launchEnd := smSet 0 (p * 16 + b) endAt s.tim.launchEnd } }
    s.leave p f

/-- The launch time of the oldest launch of a port has come, within 5 ns (R325). -/
def State.launchDue (s : State) (p : Nat) : Bool := (s.tim.launches.find? (·.port == p)).any fun l => decide (l.at_ ≤ s.base l.base + 5)

/-- FRAME_LAUNCH (R325). -/
def execFrameLaunch (p : EthPort) (s : State) : Answer :=
  whenEv s (s.locked 0 .aux && s.locked p .eth && s.is p ETH_STATUS_LINK && s.launchDue p) fun s => s.frameLaunch p

/-- TB1 has passed a whole second: its pip (R361). -/
def State.wholeSecond (s : State) : State := { s.pipAll 115 with tim := { s.tim with second := false } }

/-- WHOLE_SECOND: TB1 has passed a whole second in this cycle (R361). -/
def execWholeSecond (s : State) : Answer := whenEv s (s.locked 0 .aux && s.tim.second) State.wholeSecond

/-! The selected time (R319, R320). -/

/-- A PTP domain's receiver. -/
def State.dom (s : State) (d : Nat) : Domain := if d = 0 then s.tim.dom0 else s.tim.dom1

/-- The state with a domain's receiver set. -/
def State.setDom (s : State) (d : Nat) (x : Domain) : State :=
  if d = 0 then { s with tim := { s.tim with dom0 := x } } else { s with tim := { s.tim with dom1 := x } }

/-- The time of a source for TB1, in ns: the primary domain, or TB2 (R319). -/
def State.sourceTime (s : State) (sel : Nat) : Int :=
  if sel = 1 then s.base 2
  else match s.tim.dom0.ref with
    | some r => s.tim.tb0 + roundShr r 16 + s.rd 0 (TIM_DOM_DELAY 0)
    | none => s.base 1

/-- RATE stays within ±500 ppm (R311). -/
def rateClamp (v : Nat) : Int := clampI (-549755813) 549755813 (sInt 32 v)

/-- TB1 slews, or has no difference left to slew (R320). -/
def State.setSlewing (s : State) (b : Bool) : State :=
  (s.wr 0 TIM_STATUS_SLEWING (bitN b)).eachTile fun t s => s.wr t (TIM_TB_STATUS_SLEWING 1) (bitN b)

/-- TIM_SLEW_MAX as a RATE: ppm of 2⁴⁰. -/
def State.slewMax (s : State) : Int := s.rd 0 TIM_SLEW_MAX * 2 ^ 40 / 1000000

/-- RATE of TB1 in state SECONDARY: that of TB2, or within TIM_SLEW_MAX of it while TB1 slews, and within ±500 ppm (R311, R319, R320). -/
def State.followRate (s : State) : State :=
  if s.rd 0 TIM_STATUS_SEL = 1 then
    let r := sInt 32 (s.rd 0 (TIM_TB_RATE 2))
    if s.is 0 TIM_STATUS_SLEWING then
      let (v, s) := s.fresh
      s.setRate 1 (uNat 32 (rateClamp (uNat 32 (clampI (r - s.slewMax) (r + s.slewMax) (sInt 32 v)))))
    else s.setRate 1 (uNat 32 r)
  else s

/-- TB1 moves to a source: a difference below TIM_STEP_LIMIT is slewed, any other is a step (R320); after a step of TB1 in the same cycle the
difference left is slewed (R328). -/
def State.moveTo (s : State) (sel : Nat) : State :=
  let d := (s.base 1 : Int) - s.sourceTime sel
  let s := if (s.rd 0 TIM_STEP_LIMIT : Int) ≤ d.natAbs ∧ s.tim.stepped ≠ s.tim.tb0 + 1 then (s.setSlewing false).stepBase 1 (-d)
    else s.setSlewing (decide (2 < d.natAbs))
  if sel = 0 then
    let (r, s) := s.fresh
    s.setRate 1 (uNat 32 (rateClamp r))
  else s.followRate

/-- A change of SEL (R319): a state that follows nothing holds RATE and slews no longer. -/
def State.setSel (s : State) (n : Nat) : State :=
  let o := s.rd 0 TIM_STATUS_SEL
  if n = o then s else
  let s := ((s.wr 0 TIM_STATUS_SEL n).addWrap 0 TIM_SWITCHES 1).setF 0 TIM_ERR_SWITCH
  let s := (s.notify 0x0007 n o 0 0).pipAll 113
  if n < 2 then s.moveTo n else (s.setSlewing false).wr 0 CAL_PTP_RESID 0xFFFF

/-- The secondary can be used: SEC_EN is 1 and its domain is locked. -/
def State.secOk (s : State) : Bool := s.is 0 TIM_CTRL_SEC_EN && s.tim.dom1.locked

/-- One row of the state table of R319. -/
def State.selRow (s : State) : State :=
  match s.rd 0 TIM_STATUS_SEL with
  | 0 => if s.tim.dom0.locked then s else if s.secOk then s.setSel 1 else s.setSel 2
  | 1 => if s.secOk then s else s.setSel 2
  | _ => if s.tim.dom0.locked then s.setSel 0 else if s.secOk then s.setSel 1 else s

/-- A domain's quality has changed: the locks are reported, and the selected time is chosen at the end of the cycle (R319, R328). -/
def State.selUpdate (s : State) : State :=
  let s := (s.wr 0 TIM_STATUS_PRI_LOCK (bitN s.tim.dom0.locked)).wr 0 TIM_STATUS_SEC_LOCK (bitN s.tim.dom1.locked)
  { s with tim := { s.tim with choosing := true } }

/-- The state table of R319 at the end of a TSUC cycle in which a domain's quality has changed, so that changes of one cycle count together
(R319, R328): SECONDARY left while the primary is locked passes through HOLDOVER (log 106). -/
def State.choose (s : State) : State :=
  if s.tim.choosing then { s with tim := { s.tim with choosing := false } }.selRow.selRow else s

/-- A domain's lock: gained or lost. -/
def State.setLock (s : State) (d : Nat) (l : Bool) : State :=
  let x := s.dom d
  (if x.locked == l then s else s.setDom d { x with locked := l, since := s.tim.tb0 }).selUpdate

/-- REVERT: the primary has been locked without a break for REVERT_S seconds (R319). -/
def State.revert (s : State) : State := s.setSel 0

/-- The primary is locked, and has been without a break for REVERT_S seconds (R319). -/
def State.revertDue (s : State) : Bool :=
  s.tim.dom0.locked && decide (s.rd 0 TIM_ANNOUNCE_REVERT_S * 1000000000 ≤ s.tim.tb0 - s.tim.dom0.since)

/-- REVERT (R319). -/
def execRevert (s : State) : Answer :=
  whenEv s (s.locked 0 .aux && s.rd 0 TIM_STATUS_SEL == 1 && s.is 0 TIM_CTRL_REVERT && s.revertDue) State.revert

/-- TB1 is within 2 ns of the source it follows (R320). -/
def State.slewNear (s : State) : Bool := decide (((s.base 1 : Int) - s.sourceTime (s.rd 0 TIM_STATUS_SEL)).natAbs ≤ 2)

/-- The slew has ended (R320). -/
def State.slewEnd (s : State) : State := (s.setSlewing false).followRate

/-- SLEW_END (R320; log 28). -/
def execSlewEnd (s : State) : Answer := whenEv s (s.locked 0 .aux && s.is 0 TIM_STATUS_SLEWING && s.slewNear) State.slewEnd

/-! Domains and the servo (R315, R317). -/

/-- The domain of the unit that a message belongs to: primary, or secondary with SEC_EN; none for any other (R314, R315, R330). -/
def State.domainOf (s : State) (m : PtpMsg) : Option Nat :=
  if !s.is 0 TIM_CTRL_PTP_EN then none
  else if m.domain.val = s.primary then some 0
  else if m.domain.val = s.rd 0 TIM_DOMAIN_SEC ∧ s.is 0 TIM_CTRL_SEC_EN then some 1
  else none

/-- The message comes from the grandmaster followed, on the port it is followed on. -/
def State.fromMaster (s : State) (d : Nat) (m : PtpMsg) : Bool :=
  match (s.dom d).master with
  | some f => f.port == m.port.val && f.srcId == m.srcId.toNat
  | none => false

/-- A receive stamp corrected to the MDI reference plane, in 2⁻¹⁶ ns (R316). -/
def State.rxStamp (s : State) (m : PtpMsg) : Int := s.rxPlane m.port m.rx.toNat

/-- A timestamp carried in a message and corrections, in 2⁻¹⁶ ns (R317). -/
def ptpOrigin (m : PtpMsg) : Int := m.ts.toNat * 65536

/-- The message interval lies within the rates accepted: −7 to +4 for Sync, −3 to +4 for Announce, log₂ of seconds (R314). -/
def ptpPaced (m : PtpMsg) (lo : Int) : Bool := decide (lo ≤ m.interval.toInt) && decide (m.interval.toInt ≤ 4)

/-- A base follows its domain: TB1 in state PRIMARY, TB2 at all times (R319). -/
def State.follows (s : State) (d : Nat) : Bool := d == 1 || s.rd 0 TIM_STATUS_SEL == 0

/-- The lock of a domain after a Sync with residual offset `ofs` (R317). -/
def State.domLock (s : State) (d : Nat) (ofs : Int) : State :=
  let x := s.dom d
  let x := if ofs.natAbs ≤ s.rd 0 TIM_QUAL_OFS_LIMIT then { x with good := x.good + 1, bad := 0 } else { x with good := 0, bad := x.bad + 1 }
  let s := s.setDom d x
  let n := s.rd 0 TIM_QUAL_COUNT
  let clsOk := match x.master with
    | some f => decide (f.gm.cls.toNat ≤ s.rd 0 TIM_QUAL_CLASS_MAX)
    | none => true
  if decide (n ≤ x.good) && clsOk then s.setLock d true else if n ≤ x.bad then s.setLock d false else s

/-- The correction that the servo asks for: a step, or a RATE that slews the difference (R311, R320). The firmware's RATE is not given (log 29). -/
def State.servo (s : State) (d : Nat) (ofs : Int) : State :=
  if (s.rd 0 TIM_STEP_LIMIT : Int) ≤ ofs.natAbs then (if d = 0 then s.setSlewing false else s).stepBase (d + 1) (-ofs)
  else
    let (r, s) := s.fresh
    let s := if d = 0 then s.setSlewing (decide (2 < ofs.natAbs)) else s
    s.setRate (d + 1) (uNat 32 (rateClamp r))

/-- The servo uses a Sync whose origin time, corrections included, is `t1` and whose receive stamp is `t2`, in 2⁻¹⁶ ns (R317, R320): a step
comes before a switch of its cycle (R328). Where the base does not follow the domain, the residual offset is that of the firmware's own estimate,
which the spec does not give (log 29). -/
def State.syncUse (s : State) (d : Nat) (t1 t2 : Int) : State :=
  let s := s.setDom d { s.dom d with ref := some (t1 - t2) }
  let src := s.tim.tb0 + roundShr (t1 - t2) 16 + s.rd 0 (TIM_DOM_DELAY d)
  let (v, s) := s.fresh
  let ofs := if s.follows d then (s.base (d + 1) : Int) - src else sInt 32 v
  let s := (s.wrS 0 (TIM_DOM_OFFSET d) (satS 32 ofs)).addWrap 0 (TIM_DOM_SYNC_RX d) 1
  let s := { s with cal := { s.cal with ptp := smUpd [] d (fun l => ((satS 32 ofs).natAbs :: l).take 64) s.cal.ptp } }
  let s := s.wr 0 (TIM_DOM_STATE_STATE d) 3
  let s := (if s.follows d then s.servo d ofs else s).domLock d ofs
  if d = 1 ∧ s.rd 0 TIM_STATUS_SEL = 1 then s.moveTo 1 else s

/-- A correctionField, in 2⁻¹⁶ ns (R317). -/
def corrOf (c : BitVec 64) : Int := sInt 64 c.toNat

/-- A received Sync: one-step is used at once, two-step waits for its Follow_Up (R314, R317). -/
def State.sync (s : State) (m : PtpMsg) : State :=
  match s.domainOf m with
  | none => s
  | some d =>
    if !s.fromMaster d m || !ptpPaced m (-7) then s
    else if m.twoStep then
      let w : PtpWait := ⟨8, m.port, d, m.srcId.toNat, m.seq.toNat, corrOf m.corr, s.rxStamp m, 0⟩
      { s with tim := { s.tim with waits := s.tim.waits ++ [w] } }
    else s.syncUse d (ptpOrigin m + corrOf m.corr) (s.rxStamp m)

/-- SYNC (R317). -/
def execSync (m : PtpMsg) (s : State) : Answer := onAux s fun s => s.sync m

/-- A received Follow_Up completes the Sync with its identity and sequence number. -/
def State.followUp (s : State) (m : PtpMsg) : State :=
  match s.domainOf m with
  | none => s
  | some d =>
    match s.tim.waits.find? fun w => w.kind == 8 && w.domain == d && w.port == m.port.val && w.srcId == m.srcId.toNat && w.seq == m.seq.toNat with
    | none => s
    | some w =>
      let s := { s with tim := { s.tim with waits := s.tim.waits.erase w } }
      s.syncUse d (ptpOrigin m + corrOf m.corr + w.corr) w.stamp

/-- FOLLOW_UP (R317). -/
def execFollowUp (m : PtpMsg) (s : State) : Answer := onAux s fun s => s.followUp m

/-! PTP messages the unit sends (R314). -/

/-- The unit's clock identity and a port number as a port identity: the EUI-64 made from the MAC address. -/
def State.portId (s : State) (p : Nat) : Bytes :=
  let m := macBytes s.id.mac
  m.take 3 ++ [0xFF, 0xFE] ++ m.drop 3 ++ beBytes 2 (p + 1)

/-- A PTP message (R314): type, domain, flags, correction, sequence number, body. -/
def State.ptpMsg (s : State) (p ty dom flags seq : Nat) (corr : Int) (body : Bytes) : Bytes :=
  let sdo := if s.is 0 TIM_CTRL_PROFILE then 16 else 0
  let ctl := match ty with
    | 1 => 1
    | _ => 5
  leBytes 1 (sdo + ty) ++ [0x12] ++ beBytes 2 (34 + body.length) ++ leBytes 1 dom ++ [0] ++ beBytes 2 flags ++ beBytes 8 (uNat 64 corr) ++
    zeros 4 ++ s.portId p ++ beBytes 2 seq ++ leBytes 1 ctl ++ [0x7F] ++ body

/-- A PTP timestamp: seconds in 6 octets, nanoseconds in 4. -/
def ptpTime (ns : Nat) : Bytes := beBytes 6 (ns / 1000000000) ++ beBytes 4 (ns % 1000000000)

/-- A PTP message enters queue 7 of a port, over the transport of TIM_CTRL (R314, R337). -/
def State.ptpSend (s : State) (p : Nat) (peer event : Bool) (m : Bytes) : State :=
  let tag := if s.is 0 TIM_VLAN_TAGGED then some (s.rd 0 TIM_VLAN_PCP, s.rd 0 TIM_VLAN_VID) else none
  let tr := if s.is 0 TIM_CTRL_PROFILE then 0 else s.rd 0 TIM_CTRL_TRANSPORT
  let up := if event then 319 else 320
  let b := match tr with
    | 1 =>
      let ip : Bytes := if peer then [224, 0, 0, 107] else [224, 0, 1, 129]
      ethHead (macOf ([1, 0, 0x5E] ++ [0] ++ ip.drop 2)) s.id.mac tag 0x0800 ++ udp4 (leBytes 4 (s.rd 0 CHN_IPV4)) ip up up m
    | 2 =>
      let ip : Bytes := [0xFF, if peer then 2 else 0x0E] ++ zeros 12 ++ (if peer then [0, 0x6B] else [1, 0x81])
      ethHead (macOf ([0x33, 0x33] ++ ip.drop 12)) s.id.mac tag 0x86DD ++ udp6 s.chnIp6 ip up up m
    | _ => ethHead (if peer || s.is 0 TIM_CTRL_PROFILE then ptpPeer else macOf [1, 0x1B, 0x19, 0, 0, 0]) s.id.mac tag 0x88F7 ++ m
  s.fwSend p 7 b

/-- The next sequence number of a kind of request on a port. -/
def State.nextSeq (s : State) (k : Nat) : Nat × State :=
  let n := smGet 0 k s.tim.reqSeq
  (n, { s with tim := { s.tim with reqSeq := smSet 0 k ((n + 1) % 65536) s.tim.reqSeq } })

/-- The unit sends a Delay_Req for domain `d` on port `p` (R314). -/
def State.delayReq (s : State) (p d : Nat) : State :=
  let (n, s) := s.nextSeq (p * 4 + d)
  let w : PtpWait := ⟨1, p, d, 0, n, 0, s.txStamp p, 0⟩
  let s := { s with tim := { s.tim with waits := s.tim.waits ++ [w] } }
  s.ptpSend p false true (s.ptpMsg p 1 (if d = 0 then s.primary else s.rd 0 TIM_DOMAIN_SEC) 0 n 0 (zeros 10))

/-- The delay mechanism is peer to peer (R314). -/
def State.p2p (s : State) : Bool := s.is 0 TIM_CTRL_DELAY || s.is 0 TIM_CTRL_PROFILE

/-- DELAY_REQ: the unit follows a grandmaster on that port with the end-to-end mechanism (R314, R317). -/
def execDelayReq (p : EthPort) (d : Fin 2) (s : State) : Answer :=
  whenEv s (s.locked 0 .aux && s.is 0 TIM_CTRL_PTP_EN && !s.p2p && (match (s.dom d).master with | some f => f.port == p.val | none => false))
    fun s => s.delayReq p d

/-- The message answers a request of this unit. -/
def State.isMine (s : State) (p : Nat) (m : PtpMsg) : Bool := m.req.toNat == beNat (s.portId p)

/-- A received Delay_Resp gives the mean path delay of its domain (R317). -/
def State.delayResp (s : State) (m : PtpMsg) : State :=
  match s.domainOf m with
  | none => s
  | some d =>
    match s.tim.waits.find? fun w => w.kind == 1 && w.domain == d && w.port == m.port.val && w.seq == m.seq.toNat with
    | none => s
    | some w =>
      let s := { s with tim := { s.tim with waits := s.tim.waits.erase w } }
      match (s.dom d).ref, s.isMine m.port m with
      | some r, true =>
        s.wr 0 (TIM_DOM_DELAY d) (clampI 0 (2 ^ 32 - 1) (roundShr (ptpOrigin m - corrOf m.corr - w.stamp - r) 17)).toNat
      | _, _ => s

/-- DELAY_RESP (R317). -/
def execDelayResp (m : PtpMsg) (s : State) : Answer := onAux s fun s => s.delayResp m

/-- A peer's Pdelay_Req is answered, in one step or two (R314). -/
def State.pdelayReq (s : State) (m : PtpMsg) : State :=
  if s.is 0 TIM_CTRL_PTP_EN && s.p2p then
    let two := s.is 0 TIM_CTRL_TWO_STEP
    let p := m.port.val
    let rx := s.rxStamp m
    let tx := s.txStamp p
    let c := sInt 64 m.corr.toNat
    let reqId := beBytes 10 m.srcId.toNat
    if two then
      let s := s.ptpSend p true true (s.ptpMsg p 3 m.domain 0x0200 m.seq.toNat (-(rx % 65536)) (ptpTime (uNat 64 (rx / 65536)) ++ reqId))
      s.ptpSend p true false (s.ptpMsg p 10 m.domain 0 m.seq.toNat (c + tx % 65536) (ptpTime (uNat 64 (tx / 65536)) ++ reqId))
    else s.ptpSend p true true (s.ptpMsg p 3 m.domain 0 m.seq.toNat (c + (tx - rx)) (zeros 10 ++ reqId))
  else s

/-- PDELAY_REQ (R314). -/
def execPdelayReq (m : PtpMsg) (s : State) : Answer := onAux s fun s => s.pdelayReq m

/-- The unit sends a Pdelay_Req (R314). -/
def State.pdelaySend (s : State) (p : Nat) : State :=
  let (n, s) := s.nextSeq (p * 4 + 2)
  let w : PtpWait := ⟨2, p, 0, 0, n, 0, s.txStamp p, 0⟩
  let s := { s with tim := { s.tim with waits := s.tim.waits ++ [w] } }
  s.ptpSend p true true (s.ptpMsg p 2 s.primary 0 n 0 (zeros 20))

/-- PDELAY_REQ_SEND (R314). -/
def execPdelayReqSend (p : EthPort) (s : State) : Answer :=
  whenEv s (s.locked 0 .aux && s.is 0 TIM_CTRL_PTP_EN && s.p2p) fun s => s.pdelaySend p

/-- The link delay of a port is known (R317, R330). -/
def State.setPdelay (s : State) (p : Nat) (x : Int) : State :=
  let v := (clampI 0 (2 ^ 32 - 1) x).toNat
  let s := s.wr 0 (TIM_PORT_PDELAY p) v
  [0, 1].foldl (fun s d =>
    match (s.dom d).master with
    | some f => if f.port = p then s.wr 0 (TIM_DOM_DELAY d) v else s
    | none => s) s

/-- A received Pdelay_Resp: one-step gives the link delay, two-step waits for its Follow_Up. -/
def State.pdelayResp (s : State) (m : PtpMsg) : State :=
  match s.tim.waits.find? fun w => w.kind == 2 && w.port == m.port.val && w.seq == m.seq.toNat with
  | none => s
  | some w =>
    if !s.isMine m.port m then s else
    let s := { s with tim := { s.tim with waits := s.tim.waits.erase w } }
    let t4 := s.rxStamp m
    if m.twoStep then
      let w' : PtpWait := { w with kind := 3, srcId := m.srcId.toNat, corr := corrOf m.corr, stamp2 := t4 - w.stamp + ptpOrigin m }
      { s with tim := { s.tim with waits := s.tim.waits ++ [w'] } }
    else s.setPdelay m.port (roundShr (t4 - w.stamp - corrOf m.corr) 17)

/-- PDELAY_RESP (R317). -/
def execPdelayResp (m : PtpMsg) (s : State) : Answer := onAux s fun s => s.pdelayResp m

/-- A received Pdelay_Resp_Follow_Up gives the link delay: ((t4 − t1) − (t3 − t2) − corrections) / 2. -/
def State.pdelayFollow (s : State) (m : PtpMsg) : State :=
  match s.tim.waits.find? fun w => w.kind == 3 && w.port == m.port.val && w.seq == m.seq.toNat && w.srcId == m.srcId.toNat with
  | none => s
  | some w =>
    if !s.isMine m.port m then s else
    let s := { s with tim := { s.tim with waits := s.tim.waits.erase w } }
    s.setPdelay m.port (roundShr (w.stamp2 - ptpOrigin m - w.corr - corrOf m.corr) 17)

/-- PDELAY_RESP_FOLLOW_UP (R317). -/
def execPdelayRespFollowUp (m : PtpMsg) (s : State) : Answer := onAux s fun s => s.pdelayFollow m

/-! Announce and the best-master choice (R317). -/

/-- The dataset of a grandmaster as one number: the smaller is the better (IEEE 1588 data set comparison). -/
def announceRank (a : AnnounceData) : Nat :=
  ((((((a.prio1.toNat * 256 + a.cls.toNat) * 256 + a.accuracy.toNat) * 65536 + a.variance.toNat) * 256 + a.prio2.toNat) * 2 ^ 64 +
    a.gmId.toNat) * 65536 + a.steps.toNat)

/-- The best of the grandmasters heard; among equals the one heard first. -/
def bestForeign : List Foreign → Option Foreign
  | [] => none
  | f :: l =>
    match bestForeign l with
    | some g => if announceRank g.gm < announceRank f.gm then some g else some f
    | none => some f

/-- The grandmasters heard, each on the port where it was first heard alone (R317). -/
def firstHeard (l : List Foreign) : List Foreign :=
  l.filter fun f => (l.find? fun g => g.gm.gmId == f.gm.gmId).any fun g => g.port == f.port

/-- The registers of the grandmaster followed (R330). -/
def State.showMaster (s : State) (d : Nat) : State :=
  match (s.dom d).master with
  | some f =>
    let s := s.wr64 0 (TIM_DOM_GM_ID_LO d) (leNat (beBytes 8 f.gm.gmId.toNat))
    let s := (s.wr 0 (TIM_DOM_GM_QUAL_CLASS d) f.gm.cls.toNat).wr 0 (TIM_DOM_GM_QUAL_ACCURACY d) f.gm.accuracy.toNat
    (s.wr 0 (TIM_DOM_GM_QUAL_VARIANCE d) f.gm.variance.toNat).wr 0 (TIM_DOM_STATE_PORT d) f.port
  | none => s.wr 0 (TIM_DOM_STATE_STATE d) 1

/-- The best-master choice is made anew: the winner is followed on the port where it was first heard (R317). -/
def State.chooseMaster (s : State) (d : Nat) : State :=
  let x := s.dom d
  let best := bestForeign (firstHeard x.heard)
  let same := match x.master, best with
    | some a, some b => a.gm.gmId == b.gm.gmId && a.port == b.port && a.srcId == b.srcId
    | none, none => true
    | _, _ => false
  let s := s.setDom d (if same then { x with master := best } else { x with master := best, good := 0, bad := 0, ref := none })
  let s := if same then s else s.wr 0 (TIM_DOM_STATE_STATE d) (if best.isSome then 2 else 1)
  s.showMaster d

/-- A received Announce (R317): a clockClass above CLASS_MAX loses quality. -/
def State.announce (s : State) (m : PtpMsg) (a : AnnounceData) : State :=
  match s.domainOf m with
  | none => s
  | some d =>
    if !ptpPaced m (-3) then s else
    let x := s.dom d
    let key (f : Foreign) := f.port == m.port.val && f.srcId == m.srcId.toNat
    let heard := if x.heard.any key then x.heard.map fun f => if key f then { f with gm := a } else f
      else x.heard ++ [⟨a, m.port, m.srcId.toNat⟩]
    let s := (s.setDom d { x with heard := heard }).chooseMaster d
    match (s.dom d).master with
    | some f => if s.rd 0 TIM_QUAL_CLASS_MAX < f.gm.cls.toNat then s.setLock d false else s
    | none => s

/-- ANNOUNCE (R317). -/
def execAnnounce (m : PtpMsg) (n : AnnounceData) (s : State) : Answer := onAux s fun s => s.announce m n

/-- No Announce of the grandmaster followed for TIMEOUT intervals: it is dropped on its port and quality is lost (R317). -/
def State.announceTimeout (s : State) (d : Nat) : State :=
  let x := s.dom d
  let heard := match x.master with
    | some f => x.heard.filter fun g => !(g.port == f.port && g.srcId == f.srcId)
    | none => x.heard
  let s := (s.setDom d { x with heard := heard }).addSat 0 (TIM_DOM_ANN_TMO d) 1
  (s.chooseMaster d).setLock d false

/-- ANNOUNCE_TIMEOUT: of a domain that follows a grandmaster (R317). -/
def execAnnounceTimeout (d : Fin 2) (s : State) : Answer :=
  whenEv s (s.locked 0 .aux && (s.dom d).master.isSome) fun s => s.announceTimeout d

/-- A domain's receiver is off, or it starts to listen (R330; PTP_EN, SEC_EN): one that is off forgets what it heard and is not locked. -/
def State.domRun (s : State) (d : Nat) (on : Bool) : State :=
  if on then (if s.rd 0 (TIM_DOM_STATE_STATE d) = 0 then s.wr 0 (TIM_DOM_STATE_STATE d) 1 else s)
  else
    let x := s.dom d
    let t := if x.locked then s.tim.tb0 else x.since
    (s.setDom d { Domain.idle with since := t }).wr 0 (TIM_DOM_STATE_STATE d) 0

/-- A write of TIM_CTRL (R319): with PTP_EN 0 no domain is received, with SEC_EN 0 TB2 follows nothing. -/
def State.timCtrl (s : State) : State :=
  let on := s.is 0 TIM_CTRL_PTP_EN
  let sec := s.is 0 TIM_CTRL_SEC_EN
  let s := (s.domRun 0 on).domRun 1 (on && sec && s.rd 0 TIM_DOMAIN_SEC != s.primary)
  (if sec then s else s.setRate 2 0).selUpdate

end Sys2Proof.Machine
end

