-- ==== Sys2Proof/Machine/BusLock.lean ====
section
/-! DEFINITION. Writes that a rule turns away: structure registers while RUN is 1 (R130, R265, R371), fields that are locked in some state (R47,
R74, R307, R324, R329, R356, R384), and registers that are closed to an origin (R260, R306, R338, R372, R442, R476). -/

namespace Sys2Proof.Machine

/-- CFG_WHILE_RUN of the block of a structure register (R130, R152, R170, R205, R217, R234, R261, R287, R371). -/
def RegRef.runFlag (r : RegRef) : Option Fld :=
  match r.blk with
  | 0x02 => some BND_ERR_CFG_WHILE_RUN
  | 0x05 => some (ING_PORT_ERR_CFG_WHILE_RUN r.i)
  | 0x06 => some (COR_PORT_SUB_ERR_CFG_WHILE_RUN r.i r.j)
  | 0x07 => some (EXP_PORT_ERR_CFG_WHILE_RUN r.i)
  | 0x08 => some STI_ERR_CFG_WHILE_RUN
  | 0x09 => some REF_ERR_CFG_WHILE_RUN
  | 0x0A => some SEG_ERR_CFG_WHILE_RUN
  | 0x0B => some COL_ERR_CFG_WHILE_RUN
  | 0x0C => some ENG_ERR_CFG_WHILE_RUN
  | 0x0D => some CFG_ERR_CFG_WHILE_RUN
  | 0x13 => some EVT_ERR_CFG_WHILE_RUN
  | _ => none

/-- A CFG_WHILE_RUN or CFG_WHILE_EN flag of the register's tile set. -/
def State.flagAt (s : State) (r : RegRef) (f : Option Fld) : State :=
  match f with
  | some f => s.setF r.t f
  | none => s

/-! Locks. -/

/-- A lock on a register or on a field of it: whether it holds now, its flag, and whether every write sets the flag or only one that carries
another value (log 78). -/
structure FieldLock where
  f : Fld
  flag : Fld
  whole : Bool
  deriving DecidableEq, Repr

/-- The locks of BND, POS, TIM, LNK and ETH that hold now (R47, R74, R307, R329, R356). -/
def State.locks (s : State) (o : Origin) (r : RegRef) : List FieldLock :=
  let run := s.is 0 BND_CTRL_RUN
  let at_ (c : Bool) (l : List FieldLock) : List FieldLock := if c then l.filter fun k => r.named k.f else []
  at_ (run && o != .image) [⟨BND_TB_PERIOD_LO, BND_ERR_CFG_WHILE_RUN, true⟩, ⟨BND_TB_PERIOD_HI, BND_ERR_CFG_WHILE_RUN, true⟩,
      ⟨BND_LINE_PITCH, BND_ERR_CFG_WHILE_RUN, true⟩, ⟨BND_MAX_LINE_RATE, BND_ERR_CFG_WHILE_RUN, true⟩] ++
    at_ run [⟨POS_UM_PER_COUNT_LO, POS_ERR_CFG_WHILE_RUN, true⟩, ⟨POS_UM_PER_COUNT_HI, POS_ERR_CFG_WHILE_RUN, true⟩,
      ⟨POS_LTG_DIV_LO, POS_ERR_CFG_WHILE_RUN, true⟩, ⟨POS_LTG_DIV_HI, POS_ERR_CFG_WHILE_RUN, true⟩,
      ⟨POS_CTRL_WEB_CHAN, POS_ERR_CFG_WHILE_RUN, false⟩, ⟨POS_CH_CFG_DECODE 0, POS_ERR_CFG_WHILE_RUN, false⟩,
      ⟨POS_CH_CFG_INVERT 0, POS_ERR_CFG_WHILE_RUN, false⟩, ⟨POS_CH_CFG_MIN_EDGE 0, POS_ERR_CFG_WHILE_RUN, false⟩] ++
    at_ (s.is 0 TIM_CTRL_PTP_EN) [⟨TIM_DOMAIN, TIM_ERR_CFG_WHILE_EN, true⟩, ⟨TIM_VLAN, TIM_ERR_CFG_WHILE_EN, true⟩,
      ⟨TIM_CTRL_PROFILE, TIM_ERR_CFG_WHILE_EN, false⟩, ⟨TIM_CTRL_DELAY, TIM_ERR_CFG_WHILE_EN, false⟩,
      ⟨TIM_CTRL_TRANSPORT, TIM_ERR_CFG_WHILE_EN, false⟩, ⟨TIM_CTRL_TWO_STEP, TIM_ERR_CFG_WHILE_EN, false⟩] ++
    at_ (s.portSt r.t r.i != 0) [⟨LNK_PORT_CFG 0, LNK_PORT_ERR_CFG_WHILE_EN r.i, true⟩] ++
    at_ (s.is r.t ETH_CFG_EN) [⟨ETH_CFG_MODE, ETH_ERR_CFG_WHILE_EN, false⟩] ++
    at_ (s.is r.t (TIM_ACT_STATUS_PENDING r.i)) [⟨TIM_ACT_TIME_LO 0, TIM_ERR_SLOT_BUSY, true⟩, ⟨TIM_ACT_TIME_HI 0, TIM_ERR_SLOT_BUSY, true⟩,
      ⟨TIM_ACT_PERIOD 0, TIM_ERR_SLOT_BUSY, true⟩] ++
    at_ (s.dmaRunning r.t r.i) [⟨DMA_CH_SRC_LO 0, DMA_ERR_BUSY, true⟩, ⟨DMA_CH_SRC_HI 0, DMA_ERR_BUSY, true⟩,
      ⟨DMA_CH_DST_LO 0, DMA_ERR_BUSY, true⟩, ⟨DMA_CH_DST_HI 0, DMA_ERR_BUSY, true⟩, ⟨DMA_CH_COUNT 0, DMA_ERR_BUSY, true⟩,
      ⟨DMA_CH_NEXT_LO 0, DMA_ERR_BUSY, true⟩, ⟨DMA_CH_NEXT_HI 0, DMA_ERR_BUSY, true⟩]

/-- The tile of a lock's flag: that of the register, and tile 0 for the time bases (R324, R329, R330). -/
def FieldLock.tile (k : FieldLock) (t : Nat) : Nat := if k.flag.blk = 0x0F then 0 else t

/-- A locked field of a written word takes the value in force; the flag is set where the write carried another. -/
def State.fieldLock (s : State) (r : RegRef) (k : FieldLock) (v : Nat) : Nat × State :=
  let now := s.word r.t r.blk r.off
  let v' := withBits v k.f.hi k.f.lo (bitsOf now k.f.hi k.f.lo)
  (v', s.setIf (bitsOf v k.f.hi k.f.lo != bitsOf now k.f.hi k.f.lo) (k.tile r.t) k.flag)

/-- The written word with every locked field at its value in force. -/
def State.fieldLocks (s : State) (r : RegRef) : List FieldLock → Nat → Nat × State
  | [], v => (v, s)
  | k :: l, v =>
    let (v, s) := s.fieldLock r k v
    s.fieldLocks r l v

/-! Registers closed to a write. -/

/-- The launch buffer holds a frame that a slot has fired or that is leaving (R338). -/
def State.lbufBusy (s : State) (p b : Nat) : Bool :=
  (s.tim.launches.any fun l => l.port == p && l.buf == b) || decide (s.tim.tb0 < smGet 0 (p * 16 + b) s.tim.launchEnd)

/-- A structure register written by software (R47, R130, R265, R372): the state with the write turned away, none where the bank takes it.
K of a learning group is a structure field and START is not (R198; log 76). -/
def State.structTurned (s : State) (o : Origin) (r : RegRef) (v : Nat) : Option (State × AccStatus) :=
  let x := evtReg r.off
  if r.blk = 0x13 ∧ (s.evtAttr s.viewBank r.t x).2 then some ((s.setF r.t EVT_ERR_ACCESS).refuse o r.t r.fld true, .access)
  else if s.is 0 BND_CTRL_RUN then
    if r.named (REF_GRP_LEARN 0) then
      let s := s.setIf (bitsOf v 3 0 != s.rd r.t (REF_GRP_LEARN_K r.i)) r.t REF_ERR_CFG_WHILE_RUN
      some (if v.testBit 4 then s.learnStart r.t r.i else s, .ok)
    else some (s.flagAt r r.runFlag, .ok)
  else if r.blk = 0x13 ∧ x.isChanAttr then some (s, .ok)
  else if r.blk = 0x13 ∧ !s.relayBitsOk r.t x 0 v then some ((s.setF r.t EVT_ERR_ACCESS).refuse o r.t r.fld true, .access)
  else none

/-- A write of an event channel or relay of the sessions that R372 refuses: the firmware and images own none. -/
def State.chanTurned (s : State) (o : Origin) (r : RegRef) (v : Nat) : Bool :=
  let x := evtReg r.off
  r.blk == 0x13 && x.isChan && !x.structured && !(match o with
    | .session n => s.evtMay r.t n.val x v
    | _ => false)

/-- Registers whose write is turned away by a rule of their own (R169, R260, R306, R338, R345, R383, R476). -/
def State.ownTurned (s : State) (o : Origin) (r : RegRef) (v : Nat) : Option (State × AccStatus) :=
  if s.chanTurned o r v then some ((s.setF r.t EVT_ERR_ACCESS).refuse o r.t r.fld true, .access)
  else if r.among [ENG_E_DBG 0, ENG_E_DBG_SEL 0] && !s.debugOpen o then some (s.lcsRefuse o r.t r.fld true, .access)
  else if r.among [PWR_FLASH_CTRL, PWR_FLASH_ADDR, PWR_FLASH_LEN, PWR_FLASH_BUF 0] && !flashOrigin o then
    some (s.refuse o r.t r.fld true, .access)
  else if r.named (ETH_LBUF 0) && s.lbufBusy r.t (r.i / 512) then some ((s.setF r.t ETH_ERR_LBUF_BUSY).refuse o r.t r.fld true, .access)
  else if r.among [STI_SUB_TRIM_X 0, STI_SUB_TRIM_Y 0] && s.trimOwned (r.t * 8 + r.i) then some (s.setF r.t STI_ERR_TRIM_OWNED, .ok)
  else if r.named CHN_ADDR && bitsOf v 5 0 == 63 then some (s.setF 0 CHN_ERR_RANGE, .ok)
  else if r.among [CFG_SWAP_POS_LO, CFG_SWAP_POS_HI] && s.shadowSt == 4 then some (s.setF 0 CFG_ERR_ARM_REFUSED, .ok)
  else if r.among [DMA_INT_STATUS, DMA_INT_EN] && s.id.variant == .lyn880 then some (s, .ok)
  else none

/-- What becomes of a write before it reaches the register: turned away with a status, or the word to write. -/
def State.turned (s : State) (o : Origin) (r : RegRef) (v : Nat) : (State × AccStatus) ⊕ (Nat × State) :=
  let st := if r.structured && o != .image then s.structTurned o r v else none
  match st with
  | some x => .inl x
  | none =>
    match s.ownTurned o r v with
    | some x => .inl x
    | none =>
      let l := s.locks o r
      match l.find? (·.whole) with
      | some k => .inl (s.setF (k.tile r.t) k.flag, .ok)
      | none => .inr (s.fieldLocks r l v)

end Sys2Proof.Machine
end

