-- ==== Sys2Proof/Machine/Encoder.lean ====
section
/-! DEFINITION. Encoder edges, index events and absolute frames (R289 to R294, R297, R298, R302, R308). -/

namespace Sys2Proof.Machine

/-! The line trigger generator (R297, R298). -/

/-- A forward count of WEB_CHAN: where TRAVEL reaches X the generator issues its source tick and X moves on by DIV. -/
def State.ltgCount (s : State) : State :=
  match s.pos.x with
  | none => s
  | some x =>
    let div : Int := s.rd64 0 POS_LTG_DIV_LO
    let s := s.divCheck
    if s.webTravel * 2 ^ 32 < x then s
    else
      let x' := x + div
      let s := (s.updPos fun p => { p with x := some x' }).wr64 0 POS_LTG_NEXT_LO (uNat 64 (-(-x' / 2 ^ 32)))
      if !s.is 0 POS_CTRL_LTG_EN || div < 2 ^ 32 then s
      else
        let s := s.addWrap 0 POS_LTG_TICKS 1
        if s.rd 0 BND_CTRL_SRC = 0 then s.sourceTick else s

/-! Incremental channels (R289 to R291). -/

/-- The place of (A, B) in the sequence that counts up before INVERT (R290). -/
def grayPlace (a b : Bool) : Nat := if a then (if b then 2 else 1) else if b then 3 else 0

/-- What a change of levels counts before INVERT (R290); none for an illegal transition. DECODE 3 takes the new level of B. -/
def edgeCount (dec : Nat) (a b a' b' : Bool) : Option Int :=
  if dec = 3 then some (if a' && !a then (if b' then -1 else 1) else 0)
  else if a != a' && b != b' then none
  else
    let d : Int := if (grayPlace a b + 1) % 4 = grayPlace a' b' then 1 else -1
    some (match dec with
      | 0 => if a != a' || b != b' then d else 0
      | 1 => if a != a' then d else 0
      | _ => if a' && !a then d else 0)

/-- COUNT was written in this POSC cycle: a count of the cycle leaves the software's value (R16, R308). -/
def State.countKept (s : State) (c : Nat) : Bool := smGet 0 c s.pos.countAt == s.tim.tb0 / 4 + 1

/-- One count of an incremental channel at ns `now` (R290, R291, R295 to R297, R302, R308). -/
def State.count (s : State) (c now : Nat) (d : Int) : State :=
  let close := match s.posTimes c with
    | t :: _ => decide (now < t + 25)
    | [] => false
  let s := s.setIf close 0 POS_ERR_OVERRATE
  let s := if s.countKept c then s else s.wr64 0 (POS_CH_COUNT_LO c) (uNat 64 (sInt 64 (s.rd64 0 (POS_CH_COUNT_LO c)) + d))
  let s := s.wr64 0 (POS_CH_TRAVEL_LO c) (uNat 64 (sInt 64 (s.rd64 0 (POS_CH_TRAVEL_LO c)) + d))
  let s := s.validEdge c now (decide (d < 0))
  let s := s.cmpMoved c d
  let s := if s.rd 0 POS_CTRL_WEB_CHAN = c ∧ 0 < d then s.ltgCount else s
  s.posStatus

/-- A new level of an input becomes an edge when it holds for MIN_EDGE × 4 ns; a shorter pulse counts as filtered (R289). The answer gives the
filtered level. -/
def State.filtered (s : State) (c : Nat) (old new : Bool) (held : Nat) : Bool × State :=
  if new = old then (old, s)
  else if held < 4 * s.rd 0 (POS_CH_CFG_MIN_EDGE c) then (old, s.addSat 0 (POS_CH_FILT_FAULTS c) 1)
  else (new, s)

/-- The ns of a sample in the present TB0 step (R289). -/
def State.sampleNs (s : State) (odd : Bool) : Nat := s.tim.tb0 + bitN odd

/-- The levels of A and B in one sample; each input is filtered by itself (R289, R290). -/
def State.encoderEdge (s : State) (c : Nat) (a b : Bool) (heldA heldB : Nat) (odd : Bool) : State :=
  let oa := s.is 0 (POS_CH_STATUS_A c)
  let ob := s.is 0 (POS_CH_STATUS_B c)
  let (a, s) := s.filtered c oa a heldA
  let (b, s) := s.filtered c ob b heldB
  if oa = a ∧ ob = b then s
  else
    let s := (s.wr 0 (POS_CH_STATUS_A c) (bitN a)).wr 0 (POS_CH_STATUS_B c) (bitN b)
    match edgeCount (s.rd 0 (POS_CH_CFG_DECODE c)) oa ob a b with
    | none => s.addSat 0 (POS_CH_QUAD_FAULTS c) 1
    | some d => if d = 0 then s else s.count c (s.sampleNs odd) (if s.is 0 (POS_CH_CFG_INVERT c) then -d else d)

/-- ENCODER_EDGE (R290); one that an event of the same cycle has called for has been taken (R308). -/
def execEncoderEdge (c : Fin 4) (a b : Bool) (heldA heldB : Nat) (odd : Bool) (s : State) : Answer :=
  if s.tookEarly (· == .encoderEdge c a b heldA heldB odd) then finish s (s.dropEarly (· == .encoderEdge c a b heldA heldB odd))
  else onAux s fun s => s.encoderEdge c a b heldA heldB odd

/-- The encoder edges of channel `c` that wait in this cycle and that `at_` picks by their sample come first (R308). -/
def State.edgesFirst (s : State) (c : Nat) (at_ : Bool → Bool) : State :=
  s.waitingNow.foldl (fun s i =>
    match i with
    | .encoderEdge k a b ha hb odd =>
      if k.val = c ∧ at_ odd then (s.encoderEdge k a b ha hb odd).takeEarly i else s
    | _ => s) s

/-! Index events (R292). -/

/-- COUNT takes a value without travel: no entry fires and none falls behind (R302). -/
def State.countJump (s : State) (c v : Nat) : State := s.wr64 0 (POS_CH_COUNT_LO c) v

/-- Software writes COUNT: a count of the same POSC cycle leaves the value (R291, R308). -/
def State.countWrite (s : State) (c v : Nat) : State :=
  (s.countJump c v).updPos fun p => { p with countAt := smSet 0 c (s.tim.tb0 / 4 + 1) p.countAt }

/-- A repeat boundary from an index capture, for the grids of the jobs in force that take it (R222, R292). -/
def State.indexGrid (s : State) (c : Nat) (z : Int) : State :=
  let one (s : State) (b : Nat) : State :=
    if s.rdB b 0 COL_GRID_CTRL_MODE = 1 ∧ s.rdB b 0 COL_GRID_CTRL_CHAN = c then s.gridIndex b z else s
  if !s.is 0 BND_CTRL_RUN then s
  else
    let s := one s s.bank
    if s.retiring.isSome then one s (1 - s.bank) else s

/-- ARM is set, and was not written in this POSC cycle (R292, R308). -/
def State.zArmed (s : State) (c : Nat) : Bool :=
  s.is 0 (POS_CH_CFG_ARM c) && smGet 0 c s.pos.armAt != s.tim.tb0 / 4 + 1

/-- An index event (R292, R308). -/
def State.indexEvent (s : State) (c : Nat) : State :=
  let m := s.rd 0 (POS_CH_CFG_ZMODE c)
  if m = 0 then s else
  let z := s.zWeb
  let s := s.wr64 0 (POS_CH_ZCAP_LO c) (s.rd64 0 (POS_CH_COUNT_LO c))
  let s := ((s.addWrap 0 (POS_CH_ZCOUNT c) 1).wr64 0 (POS_CH_ZWEB_LO c) (uNat 64 z)).pip 0 (16 + c)
  let p := uNat 64 (s.rdS 0 (POS_CH_ZPRESET c))
  let s := if m = 1 then s.countJump c p
    else if m = 2 ∧ s.zArmed c then (s.countJump c p).clrF 0 (POS_CH_CFG_ARM c)
    else s
  s.indexGrid c z

/-- The level of Z in one sample: the filter, the filtered level, and for a rising edge ZGATE and the index event; a count of the same sample comes
first (R289, R292, R308). -/
def State.zEdge (s : State) (c : Nat) (z : Bool) (held : Nat) (odd : Bool) : State :=
  let oz := s.is 0 (POS_CH_STATUS_Z c)
  let (z, s) := s.filtered c oz z held
  if oz = z then s
  else
    let s := s.wr 0 (POS_CH_STATUS_Z c) (bitN z)
    if !z then s
    else
      let s := s.edgesFirst c (· == odd)
      if s.is 0 (POS_CH_CFG_ZGATE c) && !(s.is 0 (POS_CH_STATUS_A c) && s.is 0 (POS_CH_STATUS_B c)) then s else s.indexEvent c

/-- INDEX_EVENT (R292). -/
def execIndexEvent (c : Fin 4) (z : Bool) (held : Nat) (odd : Bool) (s : State) : Answer := onAux s fun s => s.zEdge c z held odd

/-- COUNT_WRITE: a software write of the COUNT pair (R291, R302). -/
def execCountWrite (c : Fin 4) (v : BitVec 64) (s : State) : Answer := finish s (s.countWrite c v.toNat)

/-! Absolute channels (R293, R294). -/

/-- One bit into the CRC-6 x⁶ + x + 1 of BiSS-C. -/
def crc6Bit (r : Nat) (b : Bool) : Nat :=
  let t := r.testBit 5 != b
  (r * 2) % 64 ^^^ (if t then 3 else 0)

/-- The bits of a value, most significant first. -/
def msbBits (n x : Nat) : List Bool := ((List.range n).map (x.testBit ·)).reverse

/-- Gray code of `n` bits decoded. -/
def grayDecode (n x : Nat) : Nat := (List.range n).foldl (fun a i => a ^^^ x >>> i) 0 % 2 ^ n

/-- The frame is bad (R294). -/
def State.absBad (s : State) (a : Nat) (f : AbsFrame) : Bool :=
  let n := s.rd 0 (POS_ABS_CFG_BITS a)
  if s.is 0 (POS_ABS_CFG_PROTO a) then
    let r := (msbBits n f.raw.toNat ++ [f.nE, f.nW]).foldl crc6Bit 0
    !f.start || 63 - r != f.crc6.toNat || !f.nE
  else !f.idleHigh

/-- The value of a frame (R293). -/
def State.absValue (s : State) (a : Nat) (f : AbsFrame) : Nat :=
  let n := s.rd 0 (POS_ABS_CFG_BITS a)
  let v := f.raw.toNat % 2 ^ n
  if !s.is 0 (POS_ABS_CFG_PROTO a) && s.is 0 (POS_ABS_CFG_GRAY a) then grayDecode n v else v

/-- A bad frame (R294). -/
def State.absBadFrame (s : State) (a : Nat) : State :=
  let x := smGet AbsState.idle a s.pos.abs
  let s := (s.addSat 0 (POS_ABS_ERRORS a) 1).updPos fun p => { p with abs := smSet AbsState.idle a { x with bad := x.bad + 1, first := x.first || decide (s.rd 0 (POS_ABS_CFG_ERR_LIMIT a) ≤ x.bad + 1) } p.abs }
  let fault := decide (s.rd 0 (POS_ABS_CFG_ERR_LIMIT a) ≤ x.bad + 1)
  let s := (s.setIf fault 0 (POS_ABS_STATUS_FAULT a)).setIf fault 0 POS_ERR_ABS_FAULT
  if fault then s.updPos fun p => { p with times := smSet [] (4 + a) [] p.times } else s

/-- A good frame (R294). -/
def State.absGoodFrame (s : State) (a v : Nat) : State :=
  let x := smGet AbsState.idle a s.pos.abs
  let n := s.rd 0 (POS_ABS_CFG_BITS a)
  let prev := s.rd64 0 (POS_ABS_POSITION_LO a)
  let s := (((s.wr64 0 (POS_ABS_POSITION_LO a) v).setF 0 (POS_ABS_STATUS_VALID a)).clrF 0 (POS_ABS_STATUS_FAULT a)).pip 0 (24 + a)
  if x.first then s.updPos fun p => { p with abs := smSet AbsState.idle a ⟨sInt 64 v, sInt 64 v, 0, false⟩ p.abs }
  else
    let d := sInt n (uNat n ((v : Int) - prev))
    let s := s.updPos fun p => { p with abs := smSet AbsState.idle a ⟨sInt 64 (uNat 64 (x.count + d)), sInt 64 (uNat 64 (x.travel + d)), 0, false⟩ p.abs }
    if d = 0 then s else (s.validEdge (4 + a) s.tim.tb0 (decide (d < 0))).cmpMoved (4 + a) d

/-- A frame of an absolute channel (R293, R294). -/
def State.absFrame (s : State) (a : Nat) (f : AbsFrame) : State :=
  let biss := s.is 0 (POS_ABS_CFG_PROTO a)
  let s := if biss && f.start then s.wr 0 (POS_ABS_STATUS_WARN a) (bitN !f.nW) else s
  if s.absBad a f then s.absBadFrame a else s.absGoodFrame a (s.absValue a f)

/-- ABS_FRAME: a frame is read while the channel is enabled (R293, R294); one that a write of the same cycle has called for has been taken
(R308). -/
def execAbsFrame (a : Fin 2) (f : AbsFrame) (s : State) : Answer :=
  if s.tookEarly (· == .absFrame a f) then finish s (s.dropEarly (· == .absFrame a f))
  else whenEv s (s.locked 0 .aux && s.is 0 (POS_ABS_CFG_EN a)) fun s => s.absFrame a f

/-- The frames of absolute channel `c` less 4 that wait in this cycle come first (R308). -/
def State.framesFirst (s : State) (c : Nat) : State :=
  s.waitingNow.foldl (fun s i =>
    match i with
    | .absFrame a f =>
      if a.val + 4 = c ∧ s.is 0 (POS_ABS_CFG_EN a) then (s.absFrame a f).takeEarly i else s
    | _ => s) s

/-- A write of POS_ABSa_CFG, already taken by the register: the first good frame after EN sets the counters (R294). -/
def State.absCfg (s : State) (a : Nat) (wasOn : Bool) : State :=
  if s.is 0 (POS_ABS_CFG_EN a) && !wasOn then
    s.updPos fun p => { p with abs := smUpd AbsState.idle a (fun x => { x with first := true, bad := 0 }) p.abs, times := smSet [] (4 + a) [] p.times }
  else s

/-! Counts before a write of a compare list (R308). -/

/-- The counts of compare unit `u`'s channel that wait in this cycle come first: a firing and its advance precede a WR write or a marker of the same
cycle (R308). -/
def State.cmpCountsFirst (s : State) (u : Nat) : State :=
  let c := s.cmpChan u
  if !s.locked 0 .aux then s
  else if c < 4 then s.edgesFirst c fun _ => true
  else s.framesFirst c

/-- A write of POS_CMPu_WR; the marker unit's is the inserter's own (R306, R308). -/
def State.cmpWrWrite (s : State) (u v : Nat) : State :=
  if s.isMarker u then s.setF 0 POS_ERR_MARK_OWNED else (s.cmpCountsFirst u).cmpSetWr u (v % 4096)

/-- CMP_WR_WRITE: a write of POS_CMPu_WR (R300, R306, R308). -/
def execCmpWrWrite (u : Fin 16) (v : BitVec 32) (s : State) : Answer := finish s (s.cmpWrWrite u v.toNat)

/-- MARKER_INSERT: the oldest position on its way (R306, R308). -/
def execMarkerInsert (s : State) : Answer :=
  finish s (match s.sgm.marks with
    | [] => s
    | (p, gap) :: l => ({ s with sgm := { s.sgm with marks := l } }.cmpCountsFirst (s.rd 0 POS_MARK_CTRL_UNIT)).markerInsert p gap)

end Sys2Proof.Machine
end

