-- ==== Sys2Proof/Machine/Ingest.lean ====
section
/-! DEFINITION. FXL packets (R93 to R99) and ingest (R110 to R118). The blocks that bring a packet are in Machine/Receive.lean. -/

namespace Sys2Proof.Machine

/-! Ingest (R110 to R114). -/

/-- The line counter of the most recent accepted line tick, −1 before the first (R112). -/
def State.lineC (s : State) : Int := if s.clk.lastWeb.isNone then -1 else s.rd64 0 BND_LINE_LO

/-- E of a sub-stream (R113). -/
def State.expect (s : State) (t p u : Nat) : Nat := s.rd64 t (ING_PORT_SUB_EXPECT_LO p u)

/-- The sub-stream is BND_CTRL.MASTER_SUB of SRC = 2 (R46). -/
def State.isMaster (s : State) (sub : Nat) : Bool := s.rd 0 BND_CTRL_SRC == 2 && s.rd 0 BND_CTRL_MASTER_SUB == sub

/-- The associated line number (R112). -/
def State.assocLine (s : State) (t p u stamp : Nat) : Int :=
  let c := s.lineC
  if s.rd 0 BND_CTRL_SRC = 2 then
    let ofs := if s.isMaster (t * 8 + p * 4 + u) then 0 else s.rd t (ING_PORT_SUB_STAMP_OFS p u)
    c + sInt 32 (uNat 32 ((stamp : Int) - ofs - s.path.masterStamp))
  else c + sInt 32 (uNat 32 ((stamp : Int) - c % 2 ^ 32))

/-- The sub-stream is mapped for line `a` (R110). -/
def State.lineMapped (s : State) (t p u a : Nat) : Bool := s.rdN (s.lineCfg a) t (ING_PORT_SUB_CFG_EN p u) != 0

/-- A line missing for the reason R114 gives, where the sub-stream is mapped for it (R113). -/
def State.missMapped (s : State) (t p u a : Nat) : State :=
  if s.lineMapped t p u a then s.missLine t p u a (s.missReason t p u a) 15 else s

/-- Lines from E up to but not including `a` are missing, and E moves on (R113). -/
def State.missUpTo (s : State) (t p u a : Nat) : State :=
  let e := s.expect t p u
  let s := (List.range (a - e)).foldl (fun s i => s.missMapped t p u (e + i)) s
  s.wr64 t (ING_PORT_SUB_EXPECT_LO p u) (Nat.max e a)

/-- LINE_WAIT_EXPIRY: lines up to C − WAIT that have not arrived are missing (R113). -/
def State.waitExpiry (s : State) (t p u : Nat) : State :=
  let c := s.lineC - s.rd t (ING_PORT_CTRL_WAIT p)
  if 0 ≤ c then s.missUpTo t p u (c.toNat + 1) else s

/-- A line is dropped under R118: counted, blind with LINE_DROP and STAGE 0, and BND_MISS_0 once for each band of the tile. -/
def State.deadlineDrop (s : State) (t p u a : Nat) : State :=
  let (n, _) := s.lineHome a
  let s := (s.addSat t (ING_PORT_SUB_DEADLINE p u) 1).setF t (ING_PORT_ERR_DEADLINE p)
  let s := s.missLine t p u a 0x04 0
  if smGet 0 t s.path.missed0 < n + 1 then
    (({ s with path := { s.path with missed0 := smSet 0 t (n + 1) s.path.missed0 } } : State).addSat t (BND_MISS 0) 1).pip t 6
  else s

/-- Band `n` is past the line-path deadline (R118). -/
def State.linePast (s : State) (a : Nat) : Bool := s.clk.ticked && decide ((s.lineHome a).1 + 2 ≤ s.bandIndex)

/-- The lines in a port's pipeline set, BUSY and CURRENT following the line in the input stage (R131). -/
def State.setPipe (s : State) (t p : Nat) (l : List PipeLine) : State :=
  let s := { s with path := { s.path with pipe := smSet [] (t * 2 + p) l s.path.pipe } }
  match l.find? (·.input.isSome) with
  | some x => (s.setF t (ING_PORT_STATUS_BUSY p)).wr t (ING_PORT_STATUS_CURRENT p) (x.sub % 4)
  | none => s.clrF t (ING_PORT_STATUS_BUSY p)

/-- The line in the input stage of a port's pipeline has had its last sample taken: its staging slot is free (R115, R116). -/
def State.leaveInput (s : State) (t p : Nat) : State :=
  let l := smGet [] (t * 2 + p) s.path.pipe
  match l.find? (·.input.isSome) with
  | none => s
  | some x =>
    let s := s.setPipe t p (l.map fun y => { y with input := none })
    s.setStaged t p (x.sub % 4) ((s.sub x.sub).staged.filter (·.a != x.line.a))

/-- The input stages whose time has come take their last sample (R117); one PIPC cycle is 1 ns. -/
def State.inputTimes (s : State) : State :=
  s.path.pipe.foldl (fun s (k, l) =>
    if s.locked (k / 2) .sys && l.any (fun x => x.input.any fun e => decide (e ≤ s.tim.tb0)) then s.leaveInput (k / 2) (k % 2) else s) s

/-- The pipeline of a port takes its next line in this cycle: the command waits (R129). -/
def State.takeWaits (s : State) (t p : Nat) : Bool :=
  s.pending.any fun c => match c with
    | .pipelineTake u q => u.val == t && q.val == p
    | _ => false

/-- Step 9 of R110: the line is staged, or dropped where the buffer is full (R115) or its deadline has passed (R129). A take of the same cycle
frees its slot first (R129). -/
def State.stage (s : State) (t p u : Nat) (l : RawLine) : State :=
  let s := if 4 ≤ (s.sub (t * 8 + p * 4 + u)).staged.length ∧ s.takeWaits t p then s.leaveInput t p else s
  let x := s.sub (t * 8 + p * 4 + u)
  if s.linePast l.a then s.deadlineDrop t p u l.a
  else if 4 ≤ x.staged.length then
    ((s.addSat t (ING_PORT_SUB_OVERFLOW p u) 1).setF t (ING_PORT_ERR_OVERFLOW p)).missLine t p u l.a 0x04 15
  else (s.setStaged t p u (insertBy (fun a b => decide (a.a ≤ b.a)) l x.staged)).addWrap t (ING_PORT_SUB_GOOD p u) 1

/-- The port was ABSENT at the tick of line `a` (R88). -/
def State.tickAbsent (s : State) (t p a : Nat) : Bool := (s.port t p).marks.any fun (b, m) => b == a && m == 1

/-- Steps 5 to 9 of R110 for an accepted line `a` (R110, R111, R113). A line whose tick found the port ABSENT is blind whatever comes (R88).
The lines counted here are the accepted lines of R114 (DESIGN CHOICE, log 213). -/
def State.acceptLine (s : State) (t p u a : Nat) (k : Bytes) : State :=
  let n := s.lineCfg a
  if !s.lineMapped t p u a then s else
  let s := s.missUpTo t p u a
  let s := s.wr64 t (ING_PORT_SUB_EXPECT_LO p u) (a + 1)
  let s := s.updPort t p fun x => { x with dirty := withBits x.dirty u u 0 }
  let fmt := byteAt k 3
  let count := leAt k 8 2
  let fl := leAt k 10 2
  if s.tickAbsent t p a then s.missMapped t p u a
  else if s.cfgBad n t p u then s.missLine t p u a 0x04 15
  else if fmt ≠ s.rdN n t (ING_PORT_SUB_CFG_FMT p u) ∨ count ≠ s.rdN n t (ING_PORT_SUB_CFG_WIDTH p u) then
    ((s.addSat t (ING_PORT_SUB_FMT_ERR p u) 1).setF t (ING_PORT_ERR_FMT p)).missMapped t p u a
  else if fl.testBit 2 && s.rdN n t (ING_PORT_CTRL_ACCEPT_TEST p) == 0 then (s.addSat t (ING_PORT_SUB_TEST p u) 1).missMapped t p u a
  else
    let s := if fl.testBit 0 then s.addSat t (ING_PORT_SUB_CAMLOST p u) 1 else s
    let s := if fl.testBit 3 then s.addSat t (ING_PORT_SUB_SAT p u) 1 else s
    let (np, w) := (fmtInfo fmt).getD (1, 8)
    s.stage t p u ⟨a, fmt, byteAt k 2, fl.testBit 3, unpackPlanes np w count (k.drop 16)⟩

/-- A stamp that is not credible (R111, R113). -/
def State.stampErr (s : State) (t p u : Nat) : State := (s.addSat t (ING_PORT_SUB_STAMP_ERR p u) 1).setF t (ING_PORT_ERR_STAMP p)

/-- A line packet that passed R97 (R110). -/
def State.ingest (s : State) (t p : Nat) (k : Bytes) : State :=
  let u := byteAt k 1
  if !s.is 0 BND_CTRL_RUN then s
  else if (leAt k 10 2).testBit 1 && s.rd 0 BND_CTRL_SRC != 2 then s.stampErr t p u
  else
    let a := s.assocLine t p u (leAt k 4 4)
    if a < s.expect t p u then s.addSat t (ING_PORT_SUB_LATE p u) 1
    else if s.lineC + 1 < a then s.stampErr t p u
    else s.acceptLine t p u a.toNat k

/-- With SRC = 2 a master packet gives a source tick; its stamp is that of the tick it produces (R46, R112). -/
def State.masterTick (s : State) (stamp : Nat) : State :=
  let s := if s.is 0 BND_STATUS_HOLDING then s else { s with path := { s.path with nextStamp := stamp } }
  s.sourceTick

/-! Packets (R93 to R99). -/

/-- The length that TYPE, FMT and COUNT require (R94, R95, R99). -/
def packetLen (k : Bytes) : Nat :=
  if byteAt k 0 = 2 then 16
  else
    let (np, w) := (fmtInfo (byteAt k 3)).getD (0, 0)
    20 + np * planeBytes w (leAt k 8 2)

/-- A CRC or framing discard (R97). -/
def State.crcErr (s : State) (t p : Nat) : State := (s.addSat t (FXL_PORT_CRC_ERR p) 1).markDirty t p

/-- The fields of a line packet that R97 checks fourth. -/
def lineFieldsOk (k : Bytes) : Bool :=
  (fmtInfo (byteAt k 3)).isSome && decide (1 ≤ leAt k 8 2) && decide (leAt k 8 2 ≤ 16384) && decide (byteAt k 1 ≤ 3)

/-- A packet has been received whole on a port (R97): the first condition that holds names the counter. -/
def State.rxPacket (s : State) (t p : Nat) (k : Bytes) : State :=
  let ty := byteAt k 0
  if !crcGood k then s.crcErr t p
  else if ty ≠ 1 ∧ ty ≠ 2 then s.addSat t (FXL_PORT_DISCARD p) 1
  else if ty = 1 ∧ !lineFieldsOk k then s.addSat t (FXL_PORT_DISCARD p) 1
  else if k.length ≠ packetLen k then s.frameErr t p
  else if ty = 2 then s.ack t p k
  else
    let u := byteAt k 1
    if !(s.rd t (FXL_PORT_CTRL_SUB_EN p)).testBit u then s.addSat t (FXL_PORT_DISCARD p) 1
    else
      let s := s.addWrap t (FXL_PORT_LINES p u) 1
      let s := if s.isMaster (t * 8 + p * 4 + u) then s.masterTick (leAt k 4 4) else s
      if s.locked t .sys then s.ingest t p k else s

/-! The pipeline's input (R116, R118). -/

/-- The head of the staging buffers that the pipeline takes next: the lowest line number, on equal numbers the lowest sub-stream; line
C + 1 waits for its tick (R116). -/
def State.nextStaged (s : State) (t p : Nat) : Option (Nat × RawLine) :=
  let heads := [0, 1, 2, 3].filterMap fun u => ((s.sub (t * 8 + p * 4 + u)).staged.head?).map fun l => (u, l)
  (heads.filter fun (_, l) => decide ((l.a : Int) ≤ s.lineC)).foldl (fun m x =>
    match m with
    | some y => if x.2.a < y.2.a then some x else some y
    | none => some x) none

/-- PIPELINE_TAKE (R116): the line before has left the input stage; the one taken stays in its buffer until its last sample is taken (R115). -/
def State.pipeTake (s : State) (t p : Nat) : State :=
  let s := s.leaveInput t p
  match s.nextStaged t p with
  | none => s
  | some (u, l) =>
    let (x, s) := s.enterLine t p u l
    s.setPipe t p (smGet [] (t * 2 + p) s.path.pipe ++ [x])

/-- PIPELINE_TAKE (R116). -/
def execPipelineTake (t : Tile) (p : Port) (s : State) : Answer := onClock s t .sys fun s => s.pipeTake t p

/-- Lines of a port's pipeline that leave it in this cycle: their commands wait (R129). -/
def State.leavingNow (s : State) (t p : Nat) : Nat :=
  s.pending.countP fun c => match c with
    | .correctedLine u q => u.val == t && q.val == p
    | _ => false

/-- LINE_PATH_DEADLINE: lines of bands past their deadline that are staged or in the pipeline are dropped (R118), but not those whose
correction completes in the same cycle (R129). -/
def State.lineDeadline (s : State) (t p : Nat) : State :=
  let pipe := smGet [] (t * 2 + p) s.path.pipe
  let k := s.leavingNow t p
  let saved := pipe.take k
  let (late, keep) := (pipe.drop k).partition fun x => s.linePast x.line.a
  let keep := saved ++ keep
  let inPipe (sub a : Nat) : Bool := pipe.any fun x => x.sub == sub && x.line.a == a
  let staged := [0, 1, 2, 3].flatMap fun u =>
    ((s.sub (t * 8 + p * 4 + u)).staged.filter fun l => s.linePast l.a && !inPipe (t * 8 + p * 4 + u) l.a).map fun l => (t * 8 + p * 4 + u, l)
  let s := if late.isEmpty then s else (late.foldl State.abandonLine s).setPipe t p keep
  let s := [0, 1, 2, 3].foldl (fun s u =>
    let l := (s.sub (t * 8 + p * 4 + u)).staged
    let gone (x : RawLine) : Bool := s.linePast x.a && !(saved.any fun y => y.sub == t * 8 + p * 4 + u && y.line.a == x.a)
    if l.any gone then s.setStaged t p u (l.filter fun x => !gone x) else s) s
  let all := sortBy (fun a b => decide (a.2.a < b.2.a) || a.2.a == b.2.a && decide (a.1 ≤ b.1)) ((late.map fun x => (x.sub, x.line)) ++ staged)
  all.foldl (fun s (sub, l) => s.deadlineDrop t p (sub % 4) l.a) s

/-- LINE_PATH_DEADLINE (R118). -/
def execLinePathDeadline (t : Tile) (p : Port) (s : State) : Answer := onTile s t fun s => (s.lineDeadline t p).markTile t

/-- ING_CLR (R131). -/
def State.ingClr (s : State) (t p : Nat) : State :=
  [0, 1, 2, 3].foldl (fun s u => [ING_PORT_SUB_GOOD p u, ING_PORT_SUB_MISSING p u, ING_PORT_SUB_OVERFLOW p u, ING_PORT_SUB_LATE p u,
    ING_PORT_SUB_STAMP_ERR p u, ING_PORT_SUB_FMT_ERR p u, ING_PORT_SUB_DEADLINE p u, ING_PORT_SUB_SAT p u, ING_PORT_SUB_CAMLOST p u,
    ING_PORT_SUB_TEST p u].foldl (fun s f => s.clrCount t f) s) s

/-- ING_CLR_COUNTERS (R131). -/
def execIngClrCounters (t : Tile) (p : Port) (s : State) : Answer := onTile s t fun s => s.ingClr t p

end Sys2Proof.Machine
end

