-- ==== Sys2Proof/Machine/Receive.lean ====
section
/-! DEFINITION. What a camera port receives while it is UP: rounds of 66-bit blocks, alignment rounds, packets (R76 to R80, R86, R97), and the
commands that take the port out of UP (R89, R91, R92, R107, R425). -/

namespace Sys2Proof.Machine

/-! Rounds (R79, R80). -/

/-- The first blocks of every lane as rounds, and what is left of the lanes; at most `n` rounds. -/
def takeRounds : Nat → List (List (BitVec 66)) → List (List (BitVec 66)) × List (List (BitVec 66))
  | 0, l => ([], l)
  | n + 1, l =>
    if l.isEmpty || l.any (·.isEmpty) then ([], l)
    else
      let (r, l') := takeRounds n (l.map List.tail)
      (l.map (·.headD 0) :: r, l')

/-- A change of the receiver of a port. -/
def State.updRx (s : State) (t p : Nat) (f : PortRx → PortRx) : State := s.updPort t p fun x => { x with rx := f x.rx }

/-- One block of lane `n` is descrambled: what it is, and the state with the lane's scrambler moved on (R76). -/
def State.laneBlock (s : State) (t n : Nat) (b : BitVec 66) : BlockKind × State :=
  let (c, prev) := descramble ((s.port t (n / 3)).rx.lane (n % 3)).scr (s.contentOf t n b)
  (blockKind (s.headOf t n b) c, s.updLane t (n / 3) (n % 3) fun x => { x with scr := prev })

/-- The blocks of a round, lane after lane. -/
def State.roundKinds (s : State) (t : Nat) : List (Nat × BitVec 66) → List BlockKind × State
  | [] => ([], s)
  | (n, b) :: l =>
    let (k, s) := s.laneBlock t n b
    let (ks, s) := s.roundKinds t l
    (k :: ks, s)

/-- One block of the stream (R78, R97). -/
def State.rxBlock (s : State) (t p : Nat) (k : BlockKind) : State :=
  if s.portSt t p ≠ 5 then s else
  let r := (s.port t p).rx.asm.step k
  let s := s.updRx t p fun x => { x with asm := r.asm }
  let s := if r.error then s.frameErr t p else s
  match r.packet with
  | some bs => s.rxPacket t p bs
  | none => s

/-- Blocks of the stream. -/
def State.rxStream (s : State) (t p : Nat) (ks : List BlockKind) : State := ks.foldl (fun s k => s.rxBlock t p k) s

/-- A block is an ALIGN block. -/
def BlockKind.isAlign (k : BlockKind) : Bool :=
  match k with
  | .align _ _ _ => true
  | _ => false

/-- The lanes on which a round shows the ALIGN block with the expected round counter (R77, R80). -/
def alignSeen (counter : Nat) (ks : List BlockKind) : List Bool :=
  ks.zipIdx.map fun (b, k) => b == .align k ks.length counter

/-- The round at the expected position of an alignment round (R80): seen on every lane within the skew of R80 it is good; a second one missed
in a row takes the port out of UP. A round without any ALIGN block is part of the stream (DESIGN CHOICE, log 203). -/
def State.alignRound (s : State) (t p : Nat) (delays : List Nat) (ks : List BlockKind) : State :=
  let x := (s.port t p).rx
  let seen := alignSeen x.counter ks
  let s := ((s.bond t p).zip seen).foldl (fun s (n, b) => s.wr t (LNK_LANE_STATUS_MARKER n) (bitN b)) s
  let s := if seen.all (·) then s.setSkews t p delays else s
  let good := seen.all (·) && decide (roundSkew delays ≤ 32)
  let s := s.updRx t p fun x =>
    { x with due := 4096, counter := (x.counter + 1) % 256, misses := if good then 0 else x.misses + 1 }
  if 2 ≤ (s.port t p).rx.misses then s.dropPort t p
  else if ks.any (·.isAlign) then s else s.rxStream t p ks

/-- One round of blocks, one on each bond lane: sync headers (R86), then an alignment round or blocks of the stream (R79). An alignment round
elsewhere is removed; the one missing at its place counts (R80). -/
def State.rxRound (s : State) (t p : Nat) (delays : List Nat) (r : List (BitVec 66)) : State :=
  if s.portSt t p ≠ 5 then s else
  let l := (s.bond t p).zip r
  let s := l.foldl (fun s (n, b) => s.laneHead t n b) s
  let gone := (s.bond t p).filter fun n => s.lockGone t n
  if !gone.isEmpty then gone.foldl (fun s n => s.lockLoss t n) s
  else
    let (ks, s) := s.roundKinds t l
    if (s.port t p).rx.due = 0 then s.alignRound t p delays ks
    else if ks.all (·.isAlign) then s
    else (s.updRx t p fun x => { x with due := x.due - 1 }).rxStream t p ks

/-- What the bond lanes of a port that is UP receive (R76 to R80, R84): whole rounds are taken, the rest waits for the other lanes. -/
def State.rxBlocks (s : State) (t p : Nat) (rx : List LaneRx) : State :=
  let bond := s.bond t p
  let s := (bond.zip rx).foldl (fun s (n, x) => s.setPpm t n x.ppm) s
  let q := bond.zipIdx.map fun (_, k) => ((s.port t p).rx.lane k).queue ++ ((rx[k]?).map (·.blocks)).getD []
  let (rounds, rest) := takeRounds ((q.map List.length).foldl Nat.max 0) q
  let s := rest.zipIdx.foldl (fun s (l, k) => s.updLane t p k fun x => { x with queue := l }) s
  rounds.foldl (fun s r => s.rxRound t p (rx.map (·.delay)) r) s

/-- What a command brings a port: nothing more where the port has received it ahead of its turn. -/
def State.rxTurn (s : State) (t p : Nat) (rx : List LaneRx) : State :=
  if 0 < (s.port t p).ahead then s.updPort t p fun x => { x with ahead := x.ahead - 1 }
  else if s.portSt t p = 5 then s.rxBlocks t p rx
  else s

/-- LINE_PACKET: what a port that is UP receives, a line packet ending in it (R97). -/
def execLinePacket (t : Tile) (p : Port) (rx : List LaneRx) (s : State) : Answer := onTile s t fun s => s.rxTurn t p rx

/-- ACK_PACKET: what a port that is UP receives, an ACK packet ending in it (R97, R105). -/
def execAckPacket (t : Tile) (p : Port) (rx : List LaneRx) (s : State) : Answer := onTile s t fun s => s.rxTurn t p rx

/-! What comes in the cycle of another event of the port (R89, R91, R106, R129). -/

/-- The blocks of a command for port `p` of tile `t`. -/
def rxOf (t p : Nat) (c : Instr) : Option (List LaneRx) :=
  match c with
  | .linePacket u q rx => if u.val = t ∧ q.val = p then some rx else none
  | .ackPacket u q rx => if u.val = t ∧ q.val = p then some rx else none
  | _ => none

/-- The port receives what commands of this cycle that wait bring it, ahead of their turn: a packet whose TERM ends in the cycle is complete
(R89, R91), and an arrival comes before an expiry of the cycle (R106, R129). -/
def State.settle (s : State) (t p : Nat) : State :=
  if s.portSt t p = 5 then
    let l := s.pending.filterMap (rxOf t p)
    let s := (l.drop (s.port t p).ahead).foldl (fun s rx => s.rxBlocks t p rx) s
    s.updPort t p fun x => { x with ahead := l.length }
  else s

/-- PORT_DISABLE (R91). -/
def execPortDisable (t : Tile) (p : Port) (s : State) : Answer := onTile s t fun s => (s.settle t p).portDisable t p

/-- PORT_RETRAIN (R91). -/
def execPortRetrain (t : Tile) (p : Port) (s : State) : Answer := onTile s t fun s => (s.settle t p).portRetrain t p

/-- A write of PSTATE that is L1 or L2 takes the port out of UP (R92). -/
def State.pstateWrite (s : State) (t p v : Nat) : State := (if v = 1 ∨ v = 2 then s.settle t p else s).setPstate t p v

/-- PSTATE (R92). -/
def execPstate (t : Tile) (p : Port) (v : Fin 4) (s : State) : Answer := onTile s t fun s => s.pstateWrite t p v

/-- A write of TEST that is 1 takes the port out of UP (R107). -/
def State.testWrite (s : State) (t p : Nat) (on : Bool) : State :=
  (if on && !s.is t (LNK_PORT_CTRL_TEST p) then s.settle t p else s).setTest t p on

/-- LNK_TEST (R107). -/
def execLnkTest (t : Tile) (p : Port) (on : Bool) (s : State) : Answer := onTile s t fun s => s.testWrite t p on

/-- LOSS_OF_SIGNAL (R89). -/
def execLossOfSignal (t : Tile) (n : Lane) (s : State) : Answer :=
  whenEv s (s.fit t && s.inBond t n) fun s => (s.settle t (n / 3)).signalLoss t n

/-- BLOCK_LOCK_LOSS: blocks of a lane with block lock, the last of which makes 16 invalid headers within 64 blocks (R86). -/
def State.blocksLoseLock (s : State) (t n : Nat) (l : List (BitVec 66)) : State :=
  let s := (s.settle t (n / 3)).laneBlocks t n l
  if s.lockGone t n then s.lockLoss t n else s

/-- BLOCK_LOCK_LOSS (R86). -/
def execBlockLockLoss (t : Tile) (n : Lane) (blocks : List (BitVec 66)) (s : State) : Answer :=
  whenEv s (s.fit t && s.inBond t n && (s.laneBlocks t n blocks).lockGone t n) fun s => s.blocksLoseLock t n blocks

/-- ALIGNMENT_LOSS: two consecutive alignment rounds have been missing or misplaced (R80, R89). -/
def execAlignmentLoss (t : Tile) (p : Port) (s : State) : Answer :=
  whenEv s (s.fit t && s.portSt t p == 5) fun s => (s.settle t p).dropPort t p

/-- A write of LNK_PORTp_CTRL: PSTATE, ENABLE and TEST act where they change, RETRAIN where it is 1. -/
def State.portCtrl (s : State) (t p v : Nat) : State :=
  let ps := bitsOf v (LNK_PORT_CTRL_PSTATE p).hi (LNK_PORT_CTRL_PSTATE p).lo
  let s := if ps = s.rd t (LNK_PORT_CTRL_PSTATE p) then s else s.pstateWrite t p ps
  let s := if v.testBit 0 == s.is t (LNK_PORT_CTRL_ENABLE p) then s else if v.testBit 0 then s.portEnable t p else (s.settle t p).portDisable t p
  let s := if v.testBit 1 then (s.settle t p).portRetrain t p else s
  s.testWrite t p (v.testBit 4)

/-- The ports that the work of a tile takes out of UP have received what this cycle brings (R89, R425, R432). -/
def State.workSettle (s : State) (t : Nat) : State :=
  if s.calReady t then (s.settle t 0).settle t 1
  else match (s.calTile t).st with
    | some r => if r.kind = 2 then s.settle t r.port else s
    | none => s

/-- WORK_START (R427, R428). -/
def execWorkStart (t : Tile) (s : State) : Answer :=
  let b := s.workBack t
  whenEv s (s.fit t && (b.calReady t || b.stReady t)) fun _ => (b.workSettle t).workStart t

/-- The ACK timeout expires: a matching ACK of the same cycle wins, and the CMD is no longer PENDING (R105, R106). -/
def State.cmdExpiry (s : State) (t p : Nat) : State :=
  let s := s.settle t p
  if s.rd t (FXL_PORT_CMD_STATUS_STATE p) = 1 then s.cmdTimeout t p else s

/-- CMD_TIMEOUT (R105). -/
def execCmdTimeout (t : Tile) (p : Port) (s : State) : Answer :=
  whenEv s (s.fit t && s.rd t (FXL_PORT_CMD_STATUS_STATE p) == 1) fun s => s.cmdExpiry t p

/-- LINE_WAIT_EXPIRY (R113): a line that arrives in the same cycle has arrived (R129). -/
def execLineWaitExpiry (t : Tile) (p : Port) (sub : Sub) (s : State) : Answer :=
  whenEv s (s.fit t && s.is 0 BND_CTRL_RUN) fun s => ((s.settle t p).waitExpiry t p sub).markTile t

end Sys2Proof.Machine
end

