-- ==== Sys2Proof/Machine/BusWrite.lean ====
section
/-! DEFINITION. What a write that reaches its register does (R15, R16 and the register sections): registers that a family writes itself, the
plain write of the fields, and the actions that follow it. -/

namespace Sys2Proof.Machine

/-- A field of the word `v` that stands where `f` stands. -/
def bitsAt (v : Nat) (f : Fld) : Nat := bitsOf v f.hi f.lo

/-- Actions taken one after the other, each under its bit of the written word. -/
def State.onBits (s : State) (v : Nat) (l : List (Nat × (State → State))) : State := l.foldl (fun s (k, f) => if v.testBit k then f s else s) s

/-! Clear registers. -/

/-- A write of a block's clear register with COUNTERS = 1. -/
def State.clrWrite (s : State) (r : RegRef) : Option State :=
  let t := r.t
  if r.named (ING_PORT_CLR 0) then some (s.ingClr t r.i)
  else if r.named EXP_CLR then some (s.expClr t)
  else if r.named STI_CLR then some (s.stiClr t)
  else if r.named REF_CLR then some (s.refClr t)
  else if r.named SEG_CLR then some (s.segClr t)
  else if r.named COL_CLR then some s.colClr
  else if r.named ENG_CLR then some (s.engClr t)
  else if r.named POS_CLR then some s.posClr
  else if r.named ETH_CLR then some (s.ethClr t)
  else if r.named CHN_CLR then some s.chnClr
  else if r.named OUT_CLR then some s.outClr
  else if r.named QUE_CLR then some (s.queClr t)
  else if r.named FIR_CLR then some (s.firClr t)
  else none

/-- A write of a clear register that has a bit per counter (R45, R108, R109). -/
def State.clrBits (s : State) (r : RegRef) (v : Nat) : Option State :=
  let t := r.t
  let i := r.i
  if r.named (D2D_L_CLR 0) then
    some (if !s.id.bonded t i then s else s.onBits v [(0, fun s => s.clrCount t (D2D_L_CRC_ERR_COUNT i)), (1, fun s => s.clrCount t (D2D_L_REPLAY_COUNT i)),
      (2, fun s => s.clrCount64 t (D2D_L_TX_FLITS_LO i))])
  else if r.named (LNK_LANE_CLR 0) then
    some (s.onBits v [(0, fun s => s.clrCount t (LNK_LANE_SYNC_ERR i)),
      (1, fun s => (s.clrCount64 t (LNK_LANE_PRBS_ERR_LO i)).clrCount64 t (LNK_LANE_PRBS_BITS_LO i))])
  else if r.named (LNK_PORT_CLR 0) then
    some (s.onBits v [(0, fun s => s.clrCount t (LNK_PORT_FAILS i)), (1, fun s => s.clrCount t (LNK_PORT_DROPS i))])
  else if r.named (FXL_PORT_CLR 0) then
    some (s.onBits v [(0, fun s => [0, 1, 2, 3].foldl (fun s u => s.clrCount t (FXL_PORT_LINES i u)) s), (1, fun s => s.clrCount t (FXL_PORT_CRC_ERR i)),
      (2, fun s => s.clrCount t (FXL_PORT_FRAME_ERR i)), (3, fun s => s.clrCount t (FXL_PORT_DISCARD i)), (4, fun s => s.clrCount t (FXL_PORT_TRIG i))])
  else none

/-! Registers that a family writes itself. -/

/-- A write of ENG_Et_DBG (R259). -/
def State.dbgCtrl (s : State) (t e v : Nat) : State :=
  let s := ((s.wr t (ENG_E_DBG_PIPOVR e) (let x := s.rd t (ENG_E_DBG_PIPOVR e); x - (x &&& bitsOf v 31 28))).wr t (ENG_E_DBG_BP_EN e) (bitsOf v 2 2)).wr t
    (ENG_E_DBG_BP_ADDR e) (bitsAt v (ENG_E_DBG_BP_ADDR e))
  let was := (s.engOf t e).halted
  let s := if v.testBit 2 then s.debugTouch t e else s
  let s := if v.testBit 0 == s.is t (ENG_E_DBG_HALT e) then s else if v.testBit 0 then s.engHalt t e else s.engResume t e
  let s := if was then s else s.bpHalt t e
  if v.testBit 1 then s.engStep t e else s

/-- A write of TIM_ACTs_CTRL (R324). -/
def State.slotCtrl (s : State) (t n v : Nat) : State :=
  if s.is t (TIM_ACT_STATUS_PENDING n) then if v.testBit 1 then s.slotDisarm t n else s.setF 0 TIM_ERR_SLOT_BUSY
  else if v.testBit 0 then s.slotArm t n v
  else
    let s := s.wr t (TIM_ACT_CTRL n) (v &&& 0xFF7C)
    if v.testBit 1 then s.slotDisarm t n else s

/-- A write of CHK_CHn_CTRL (R401, R402). -/
def State.chkCtrl (s : State) (t n v : Nat) : State :=
  s.onBits v [(0, fun s => s.chkStart t n), (1, fun s => s.chkFinish t n), (2, fun s => s.aliveReset t n),
    (3, fun s => s.aliveCheck t n (bitsOf v 15 8))]

/-- A write of CAL_CTRL (R424, R427, R430). -/
def State.calCtrl (s : State) (t v : Nat) : State :=
  (s.wr t CAL_CTRL_AUTO (bitsOf v 4 4)).onBits v [(3, fun s => s.calCancel t), (0, fun s => s.calWrite t (v.testBit 2)),
    (1, fun s => s.stWrite t (v.testBit 2))]

/-- A write of PWR_FLASH_CTRL (R476). -/
def State.flashCtrl (s : State) (v : Nat) : State := if v.testBit 2 then s.flashStart (v % 4) else s.wr 0 PWR_FLASH_CTRL_OP v

/-- Registers of the camera path, the band clock and the links that their family writes. -/
def State.ownWriteA (s : State) (r : RegRef) (v : Nat) : Option State :=
  let t := r.t
  if r.named BND_CTRL then some (if v.testBit 0 then s.runSet v else s.runClear v)
  else if r.named BND_MISS_CLR then some (s.missClr t (v % 256))
  else if r.named (D2D_L_CTRL 0) then some (if v.testBit 0 then s.d2dRetrain t r.i else s)
  else if r.named (LNK_PORT_CTRL 0) then some (s.portCtrl t r.i v)
  else if r.named (LNK_PORT_BC_CTRL 0) then some (s.bcCtrl t r.i v)
  else if r.named (FXL_PORT_CMD_CTRL 0) then some (s.cmdCtrl t r.i v)
  else if r.named CFG_SWAP_CTRL then some (s.swapCtrl v)
  else if r.named (POS_CMP_CTRL 0) then some (s.cmpCtrl r.i v)
  else if r.named (POS_CMP_WR 0) then some (s.cmpWrWrite r.i v)
  else if r.named (TIM_ACT_CTRL 0) then some (s.slotCtrl t r.i v)
  else none

/-- Registers of the services that their family writes. -/
def State.ownWriteB (s : State) (r : RegRef) (v : Nat) : Option State :=
  let t := r.t
  if r.named (ENG_E_DBG 0) then some (s.dbgCtrl t r.i v)
  else if r.named CHN_SESS_CLOSE then some (s.sessCloseWrite v)
  else if r.named EVT_SW_PIP then some (s.swPip t v)
  else if r.named (EVT_RELAY 0) ∧ 12 ≤ r.i then some (s.relayWrite t r.i v)
  else if r.named (DMA_CH_CTRL 0) then some (s.dmaCtrl t r.i v)
  else if r.named QUE_POP_CTRL then some (s.popCtrl t v)
  else if r.named QUE_PUSH_CTRL then some (s.pushCtrl t v)
  else if r.named (QUE_Q_CTRL 0) then some (if v.testBit 0 then s.flushQueue t r.i else s)
  else if r.named (CHK_CH_CTRL 0) then some (s.chkCtrl t r.i v)
  else if r.named (CHK_CH_DATA 0) then some (s.chkData t r.i v)
  else if r.named (FIR_CH_CTRL 0) then some (s.onBits v [(0, fun s => s.firSync t r.i), (1, fun s => s.firSwap t r.i)])
  else if r.named CAL_CTRL then some (s.calCtrl t v)
  else if r.named CAL_GAP_CTRL then some (s.onBits v [(0, fun s => s.gapArm), (1, fun s => s.clrF 0 CAL_GAP_CTRL_ARMED)])
  else if r.named PWR_FLASH_CTRL then some (s.flashCtrl v)
  else none

/-- Registers whose family answers an access error itself (R259, R442). -/
def State.ownWriteC (s : State) (o : Origin) (r : RegRef) (v : Nat) : Option (State × AccStatus) :=
  if r.named (ENG_E_DBG_DATA 0) then
    let ok := s.debugOpen o && (s.engOf r.t r.i).halted
    some ((s.dbgData o r.t r.i (some v)).2, if ok then .ok else .access)
  else if r.named LCS_CMD then some (s.lcsCmdWrite o v, if (s.mboxFor o).isSome then .ok else .access)
  else if r.named (LCS_MBOX 0) then some (s.mboxWrite o r.i v, if (s.mboxFor o).isSome then .ok else .access)
  else none

/-! The plain write. -/

/-- The bank that a write reaches: SHADOW for an image, the viewed bank for software (R265). -/
def State.writeBank (s : State) (o : Origin) (r : RegRef) : Nat :=
  if !r.structured then s.bank else if o == .image then s.shadow else s.viewBank

/-- Bits that a register keeps at 0 although its table gives them a field: LEGACY beyond channel 0, OWNER of a structure relay, and
LEGACY channel 0 takes VALUE (R371, R403). -/
def State.legalWord (s : State) (r : RegRef) (old v w : Nat) : Nat :=
  if r.named (CHK_CH_CFG 0) && r.i != 0 then withBits w 7 7 0
  else if r.named (CHK_CH_VALUE 0) && s.chkLegacy r.t r.i then v
  else if r.named (EVT_RELAY 0) && decide (r.i < 12) then withBits w 18 16 0
  else if r.named EVT_CTRL && r.t != 0 then w
  else if r.named (STI_GRP_XOFS 0) && r.i == 0 then old
  else w

/-- The fields of a register take a written word; it counts as written in this cycle (R16). -/
def State.putReg (s : State) (b : Nat) (r : RegRef) (v : Nat) : State :=
  let old := s.wordB b r.t r.blk r.off
  let w := s.legalWord r old v (r.row.write old (s.keepSet b r (r.clamped v)))
  let s := s.softMark b r.t r.fld (2 ^ 32 - 1)
  if r.blk = 0x13 ∧ (evtReg r.off).isChan then s.evtSet b r.t r.fld w else s.setWordB b r.t r.blk r.off w

/-! Actions that follow the plain write. -/

/-- A write of ETH_CFG (R331): a port that is disabled loses its link, one that is enabled starts with 400G under MODE 2. -/
def State.ethCfg (s : State) (p : Nat) (wasOn : Bool) : State :=
  let on := s.is p ETH_CFG_EN
  if on && !wasOn then { s with net := { s.net with trying := smErase p s.net.trying } }
  else if !on && s.is p ETH_STATUS_LINK then
    let (x, s) := s.fresh
    s.linkDown p ((s.topQueue p).isSome && x % 2 == 1)
  else s

/-- Actions of the camera path (R111, R125, R133, R151, R169). -/
def State.afterA (s : State) (r : RegRef) (v old : Nat) : State :=
  let t := r.t
  if r.named (LNK_LANE_CTRL 0) then
    let s := if s.inBond t r.i && s.lanesOn t (r.i / 3) then s.manualStep t r.i else s
    if v.testBit 7 then s.slipWrite t r.i else s
  else if r.named (LNK_LANE_PRBS_CTRL 0) then s.patternWrite t r.i old v
  else if r.named (COR_PORT_SUB_GAIN_CTRL 0 0) then if v.testBit 0 then s.gainSwap t r.i r.j else s
  else if r.among [EXP_PORT_SET_CTRL 0, EXP_PORT_SET_EXPOSURE 0, EXP_PORT_SET_GAIN_RG 0, EXP_PORT_SET_GAIN_B 0] then
    let s := s.lateWrite t (EXP_PORT_ERR_LATE_WRITE r.i)
    if r.named (EXP_PORT_SET_CTRL 0) && v.testBit 16 then s.commitSet t r.i else s
  else if r.named (EXP_PORT_AE_CTRL 0) then if old.testBit 0 && !v.testBit 0 then s.aeDisable t r.i else s
  else if r.named STI_TRIM_CTRL then if v.testBit 0 then s.trimCommit t else s
  else if r.among [STI_SUB_TRIM_X 0, STI_SUB_TRIM_Y 0] then s.lateWrite t STI_ERR_LATE_WRITE
  else if r.named (REF_GRP_LEARN 0) then if v.testBit 4 then s.learnStart t r.i else s
  else if r.named (ING_PORT_SUB_CFG 0 0) then (s.cfgFlags s.bandIndex t r.i r.j).absentAll
  else if r.blk = 0x06 ∧ r.structured then s.cfgFlags s.bandIndex t r.i r.j
  else s

/-- Actions of position and time (R292, R293, R300, R310, R322, R323). -/
def State.afterB (s : State) (r : RegRef) (v old : Nat) : State :=
  if r.named (POS_CH_CFG 0) then
    (if v.testBit 6 then s.updPos fun p => { p with armAt := smSet 0 r.i (s.tim.tb0 / 4 + 1) p.armAt } else s).posStatus
  else if r.named (POS_ABS_CFG 0) then (s.absCfg r.i (old.testBit 0)).posStatus
  else if r.among [POS_CMP_BASE 0, POS_CMP_LEN 0] then (s.cmpCheck r.i).cmpEmpty r.i
  else if r.among [POS_LTG_DIV_LO, POS_LTG_DIV_HI] then s.divCheck.posStatus
  else if r.blk = 0x0E then s.posStatus
  else if r.named TIM_CTRL then s.timCtrl
  else if r.named TIM_TB3_RATE then s.setRate 3 v
  else s

/-- EN of a check-value channel goes to 1: its counts are cleared and its next alive value is taken without a check (R402, R408). -/
def State.chkOn (s : State) (t n : Nat) : State :=
  ((s.clrF t (CHK_CH_COUNTS_MISMATCHES n)).clrF t (CHK_CH_COUNTS_ALIVE_ERRS n)).aliveReset t n

/-- Actions of the services (R268, R278, R331, R349, R350, R402, R415, R416, R468). -/
def State.afterC (s : State) (r : RegRef) (v old : Nat) : State :=
  let t := r.t
  if r.named CFG_CTRL then if v.testBit 1 then s.cfgAbort else s
  else if r.named ETH_CFG then s.ethCfg t (old.testBit 0)
  else if r.among [OUT_STR_CTRL 0, OUT_STR_X0 0, OUT_STR_W 0, OUT_STR_DEC 0, OUT_STR_MAXPAY 0] then s.lateWrite 0 OUT_ERR_LATE_WRITE
  else if r.among [FIR_CH_CFG 0, FIR_CH_STAGE 0 0, FIR_CH_BANKA_BASE 0, FIR_CH_BANKB_BASE 0] then
    let s := s.firSync t r.i
    if s.is t (FIR_CH_CFG_EN r.i) then s.firCheck t r.i else s
  else if r.named FIR_ERR then s.firRecheck t
  else if r.named PWR_READY then s.readyUpdate
  else if r.named (CHK_CH_VALUE 0) then if s.chkLegacy t r.i then s.chkLoad t r.i v else s
  else if r.named (CHK_CH_CFG 0) then if v.testBit 0 && !old.testBit 0 then s.chkOn t r.i else s
  else if r.named (OUT_REC_CTRL 0) then
    (if v.testBit 0 && !old.testBit 0 then s.setSender r.i { s.sender r.i with count := 0 } else s).outCheck
  else if r.named (OUT_DST_PORT 0) then s.outCheck.strCheck (s.rd64 0 BND_INDEX_LO)
  else s

/-- The plain write of a register word with its actions. -/
def State.plainWrite (s : State) (o : Origin) (r : RegRef) (v : Nat) : State :=
  let b := s.writeBank o r
  let old := s.wordB b r.t r.blk r.off
  let s := s.putReg b r v
  if r.structured && b != s.bank then if r.named (REF_GRP_LEARN 0) && v.testBit 4 then s.learnStart r.t r.i else s
  else
    let s := s.afterA r v old
    let s := s.afterB r v old
    s.afterC r v old

/-- A write of a register word that no rule turns away. -/
def State.wordWrite (s : State) (o : Origin) (r : RegRef) (v : Nat) : State × AccStatus :=
  match s.ownWriteC o r v with
  | some x => x
  | none =>
    match (s.ownWriteA r v).orElse (fun _ => s.ownWriteB r v) with
    | some s' => (s', .ok)
    | none =>
      match s.clrBits r v with
      | some s' => (s', .ok)
      | none =>
        match s.clrWrite r with
        | some s' => (if v.testBit 0 then s' else s, .ok)
        | none => (s.plainWrite o r v, .ok)

/-! Pairs (R13). -/

/-- A pair takes its 64-bit value as the high word at `r` is written. -/
def State.pairWrite (s : State) (o : Origin) (r : RegRef) (v : Nat) : State :=
  let b := s.writeBank o r
  let (lo, s) := s.takeLow o r (s.wordB b r.t r.blk (r.off - 4))
  let x := lo + v * 2 ^ 32
  if r.named (TIM_TB3_STEP_HI) then s.stepBase 3 (sInt 64 x)
  else if r.named (TIM_TB3_SET_HI) then s.tb3Set x
  else if r.named (POS_CH_COUNT_HI 0) then (s.countWrite r.i x).posStatus
  else
    let s := match s.regAt (r.addr - 4) with
      | some l => s.putReg b l lo
      | none => s
    s.plainWrite o r v

end Sys2Proof.Machine
end

