-- ==== Sys2Proof/Machine/Bus.lean ====
section
/-! DEFINITION. A 32-bit write at a package address over the register map and the memory windows (R12, R13, R36, R38, R343), and the commands that
are register writes. -/

namespace Sys2Proof.Machine

/-- A write at a register: turned away, held as the low word of a pair, or carried out. -/
def State.regWrite (s : State) (o : Origin) (r : RegRef) (v : Nat) : State × AccStatus :=
  match s.turned o r v with
  | .inl x => x
  | .inr (v, s) =>
    if r.row.pair = 1 then (s.holdLow o r v, .ok)
    else if r.row.pair = 2 then (s.pairWrite o r v, .ok)
    else s.wordWrite o r v

/-- A 32-bit write at a package address (R12, R36, R38). -/
def State.busWrite (s : State) (o : Origin) (a v : Nat) : State × AccStatus :=
  if a % 4 ≠ 0 ∨ !s.fit (addrTile a) then (s.recordErr o a true false, .addr)
  else
    match windowOf a with
    | some _ =>
      match s.winRule4 (some o) a true with
      | some f => ((f s).recordErr o a true true, .access)
      | none => (s.setBytes a (leBytes 4 v), .ok)
    | none =>
      match s.regAt a with
      | none => (s.recordErr o a true false, .addr)
      | some r => s.regWrite o r v

/-- REGISTER_WRITE: an origin writes a word (R12 to R16, R39). -/
def execRegisterWrite (o : Origin) (a : BitVec 40) (v : BitVec 32) (s : State) : Answer := finish s (s.busWrite o a.toNat v.toNat).1

/-- CHANNEL_CLAIM: a write of the ATTR of a local channel (R372). -/
def execChannelClaim (o : Origin) (t : Tile) (c : Fin 64) (v : BitVec 32) (s : State) : Answer :=
  finish s (s.busWrite o (addrOf t (EVT_CH_ATTR c).blk (EVT_CH_ATTR c).off) v.toNat).1

/-- RELAY_CLAIM: a write of a relay's register (R372). -/
def execRelayClaim (o : Origin) (t : Tile) (k : Fin 16) (v : BitVec 32) (s : State) : Answer :=
  finish s (s.busWrite o (addrOf t (EVT_RELAY k).blk (EVT_RELAY k).off) v.toNat).1

end Sys2Proof.Machine
end

