-- ==== Sys2Proof/Machine/Lcp.lean ====
section
/-! DEFINITION. The control protocol (R339 to R346, R348): what a well-formed request does before its operation, its reply, and the operations. A
row is a request that has arrived whole; the frame that carried it is FRAME_RECEIVE's. -/

namespace Sys2Proof.Machine

/-! STATUS values (R343). -/

def stOk : Nat := 0
def stAddr : Nat := 1
def stAccess : Nat := 2
def stLink : Nat := 3
def stSession : Nat := 4
def stBadOp : Nat := 5
def stOrder : Nat := 6
def stBusy : Nat := 7
def stRefused : Nat := 8

/-- STATUS of an access. -/
def AccStatus.code : AccStatus → Nat
  | .ok => stOk
  | .addr => stAddr
  | .access => stAccess

/-! Replies (R339, R341, R343). -/

/-- ENUMERATE and IDENTIFY, which a unit without an address answers and which answer DST 63. -/
def opTells (op : Nat) : Bool := op == 0x40 || op == 0x41

/-- A request that gets no reply (R343). -/
def State.lcpSilent (s : State) (h : LcpHdr) (op : Nat) : Bool :=
  h.noreply || (h.dst.val == 63 && !opTells op) || (s.rd 0 CHN_ADDR_ADDR == 0 && !opTells op)

/-- The reply to a request. -/
def State.lcpReply (s : State) (h : LcpHdr) (op st : Nat) (pay : Bytes) : Bytes := s.lcpMsg op h.session 1 h.seq.toNat st pay

/-- A request has been carried out: its SEQ and its reply are kept for its session, and the reply is sent (R341). -/
def State.lcpAnswer (s : State) (h : LcpHdr) (op st : Nat) (pay : Bytes) : State :=
  let m := if s.lcpSilent h op then [] else s.lcpReply h op st pay
  let s := if s.sessOpen h.session then { s with net := { s.net with kept := smInsert h.session ⟨h.seq.toNat, m⟩ s.net.kept } } else s
  if m.isEmpty then s else s.lcpSend h.port h.src h.mac.toNat m

/-- A request is turned away with a status: it is not carried out. -/
def State.lcpTurn (s : State) (h : LcpHdr) (op st : Nat) : State :=
  if s.lcpSilent h op then s else s.lcpSend h.port h.src h.mac.toNat (s.lcpReply h op st [])

/-! Forwarding along the chain (R334, R339, R345). -/

/-- The chain multicast address 03-4C-59-4E-00-00 (R333). -/
def chainMac : Nat := macOf [0x03, 0x4C, 0x59, 0x4E, 0, 0]

/-- A request with DST 63 is regenerated out of the other line port, from its source to the chain (log 79). -/
def State.lcpForward (s : State) (h : LcpHdr) (op ttl : Nat) (pay : Bytes) : State :=
  let o := 1 - h.port.val
  let q := s.rd 0 CHN_LCP_CTRL_QUEUE
  let m := withCrc (leBytes 1 1 ++ leBytes 1 op ++ leBytes 1 63 ++ leBytes 1 ttl ++ leBytes 1 h.session.val ++ leBytes 1 (2 * bitN h.noreply) ++
    leBytes 2 h.seq.toNat ++ leBytes 2 pay.length ++ zeros 2 ++ pay)
  let dp := s.rd 0 CHN_LCP_CTRL_UDP_PORT
  let b := match h.src with
    | .l2 a => ethHead chainMac a.toNat (s.ownTag o q) 0x88B5 ++ m
    | .udp4 ip port => ethHead chainMac h.mac.toNat (s.ownTag o q) 0x0800 ++ udp4 (leBytes 4 ip.toNat) [239, 76, 89, 78] port.toNat dp m
    | .udp6 ip port => ethHead chainMac h.mac.toNat (s.ownTag o q) 0x86DD ++
        udp6 (leBytes 16 ip.toNat) ([0xFF, 0x02] ++ zeros 12 ++ [0x4C, 0x59]) port.toNat dp m
  s.fwSend o q b

/-! The way of a request (R339 to R341). -/

/-- Nothing follows a reply. -/
def stay (s : State) : State := s

/-- What carrying out a request gives: the status and payload of its reply (none where the reply comes later), the state, and what
follows the reply. -/
structure LcpOut where
  res : Option (Nat × Bytes)
  s : State
  fin : State → State

/-- The frame of a session's source has come (R340): its port and MAC are those of its last frame; one whose time is over is not prolonged
(R355). -/
def State.sessTouch (s : State) (h : LcpHdr) : State :=
  { s with net := { s.net with sessions := s.net.sessions.map fun (n, x) =>
      if x.src = h.src then (n, { x with port := h.port.val, mac := h.mac.toNat, last := if s.sessOver x then x.last else s.tim.tb0 }) else (n, x) } }

/-- The session that a request names is open and bound to its source. -/
def State.sessMine (s : State) (h : LcpHdr) : Bool := (s.sessAt h.session).any (·.src == h.src)

/-- The session allows the operation (R340): SESSION 0 where it may be used, else one bound to the source; OPEN may name a free one. -/
def State.sessAllows (s : State) (h : LcpHdr) (op : Nat) (free : Bool) : Bool :=
  if h.session.val = 0 then free else s.sessMine h || (op == 0x01 && !s.sessOpen h.session)

/-- A copy of a request that is still being carried out (R355). -/
def State.lcpCopy (s : State) (h : LcpHdr) : Bool :=
  h.session.val != 0 && ((s.net.waiting.any fun x => x.h.session == h.session && x.h.seq == h.seq) ||
    (s.cfg.waiting.any fun x => x.h.session == h.session && x.h.seq == h.seq))

/-- The kept reply for a request with the SEQ last carried out (R341). -/
def State.keptReply (s : State) (h : LcpHdr) : Option Bytes :=
  if h.session.val = 0 then none else
  match s.net.kept.find? (·.1 == h.session.val) with
  | some (_, k) => if k.seq = h.seq.toNat then some k.reply else none
  | none => none

/-- A request that is for this unit, whose management core runs (R41, R42). -/
def State.lcpMine (s : State) (h : LcpHdr) : Bool := s.pwr.phase == .run && s.locked 0 .aux && (h.dst.val == 63 || h.dst.val == s.rd 0 CHN_ADDR_ADDR)

/-- A request is answered, and what follows the reply is done. -/
def LcpOut.finish (x : LcpOut) (h : LcpHdr) (op : Nat) : State :=
  match x.res with
  | some (st, pay) => x.fin (x.s.lcpAnswer h op st pay)
  | none => x.s

/-- A request as the firmware takes it (R339 to R343): `fits` where its payload fits the operation, `free` where SESSION 0 may be used. -/
def State.lcpTake (s : State) (h : LcpHdr) (op : Nat) (fits free : Bool) (act : State → LcpOut) : State :=
  let s := (s.sessTouch h).addWrap 0 CHN_LCP_REQS 1
  if s.lcpCopy h then s
  else if s.rd 0 CHN_ADDR_ADDR = 0 ∧ !opTells op then s
  else if !fits then s.lcpTurn h op stBadOp
  else if !s.sessAllows h op free then s.lcpTurn h op stSession
  else
    match s.keptReply h with
    | some m => if m.isEmpty || s.lcpSilent h op then s else s.lcpSend h.port h.src h.mac.toNat m
    | none => (act s).finish h op

/-- A request for this unit; one with DST 63 other than ENUMERATE goes on while its TTL is above 0 (R339). -/
def State.lcpRequest (s : State) (h : LcpHdr) (op : Nat) (pay : Bytes) (fits free : Bool) (act : State → LcpOut) : State :=
  let s := if h.dst.val = 63 ∧ op ≠ 0x40 ∧ 0 < h.ttl.val then s.lcpForward h op (h.ttl.val - 1) pay else s
  s.lcpTake h op fits free act

/-- A request that came in at port B has to cross to tile 0 first: it waits while the link is out of service (R26, R32), and behind the requests
of port A in the same cycle (R40, R355). -/
def State.lcpStays (s : State) (h : LcpHdr) : Bool :=
  h.port == 1 && (!(s.open_ 1 0 1 && s.net.hopIn.isEmpty) || s.lcpAhead fun x => x.port == 0)

/-- A request waits on tile 1. -/
def State.hopWait (s : State) (x : LcpReq) : State := { s with net := { s.net with hopIn := s.net.hopIn ++ [x] } }

/-- A request has come over from its port to tile 0. -/
def State.hopOver (s : State) (h : LcpHdr) : State := if h.port = 1 then s.crossed 1 0 else s

/-- The row of a request: while the firmware does not run, or for another unit, there is no such event (log 5). -/
def lcpRow (h : LcpHdr) (op : Nat) (pay : Bytes) (fits free : Bool) (act : State → LcpOut) (s : State) : Answer :=
  whenEv s (s.lcpMine h) fun s =>
    if s.lcpStays h then s.hopWait ⟨h, op, pay⟩ else (s.hopOver h).lcpRequest h op pay fits free act

/-! Sessions (R340, R342). -/

/-- OPEN grants session `n` to the source of the request. -/
def State.sessGrant (s : State) (h : LcpHdr) (n : Nat) : LcpOut :=
  let x : Session := ⟨h.src, h.port.val, h.mac.toNat, s.tim.tb0⟩
  let keep := smErase n s.net.kept
  ⟨some (stOk, leBytes 1 n), { s with net := { s.net with sessions := smInsert n x s.net.sessions, kept := keep } }, stay⟩

/-- OPEN (R340, R342): a wanted session that is bound to the same source is granted again (log 80). -/
def State.lcpOpenAct (s : State) (h : LcpHdr) (want : Nat) : LcpOut :=
  if want = 0 then
    match [1, 2, 3, 4, 5, 6, 7].find? fun n => !s.sessOpen n with
    | some n => s.sessGrant h n
    | none => ⟨some (stBusy, []), s, stay⟩
  else
    match s.sessAt want with
    | none => s.sessGrant h want
    | some x => if x.src = h.src then s.sessGrant h want else ⟨some (stBusy, []), s, stay⟩

/-- OPEN (R342). -/
def execLcpOpen (h : LcpHdr) (payload : Bytes) (s : State) : Answer :=
  lcpRow h 0x01 payload (payload.length == 1 && decide (byteAt payload 0 ≤ 7)) true (fun s => s.lcpOpenAct h (byteAt payload 0)) s

/-- CLOSE (R340, R342). -/
def execLcpClose (h : LcpHdr) (payload : Bytes) (s : State) : Answer :=
  lcpRow h 0x02 payload payload.isEmpty false (fun s => ⟨some (stOk, []), s, fun s => s.sessionClose h.session⟩) s

/-- KEEPALIVE (R342). -/
def execLcpKeepalive (h : LcpHdr) (payload : Bytes) (s : State) : Answer :=
  lcpRow h 0x03 payload payload.isEmpty false (fun s => ⟨some (stOk, []), s, stay⟩) s

/-! Register requests (R34, R39, R342). -/

/-- A link that an access from tile 0 to a tile and its answer cross is FAILED; on the LYN820 the pair is one link (R28, R30, R34). -/
def State.wayFailed (s : State) (t : Nat) : Bool :=
  let l := if s.id.variant = .lyn820 then s.packetLinks 0 t 2 ++ s.packetLinks t 0 2 else s.id.path 8 0 t ++ s.id.path 8 t 0
  l.any fun (a, n) => s.is a (D2D_L_STATUS_FAILED n)

/-- The way of `k` accesses to a tile: 0 open, 1 a link of it is out of service, 2 a link of it is FAILED (R34). Each word takes a packet in
each direction (log 197). -/
def State.wayTo (s : State) (t k : Nat) : Nat :=
  if s.wayFailed t then 2 else if !s.open_ 0 t k || !s.open_ t 0 k then 1 else 0

/-- An access has crossed to a tile and back. -/
def State.roundTrip (s : State) (t : Nat) : State := if s.fit t then (s.crossed 0 t).crossed t 0 else s

/-- The tiles that the accesses of a register request reach, one for each word. -/
def reqTiles (op : Nat) (pay : Bytes) : List Nat :=
  let a := leAt pay 0 8
  match op with
  | 0x10 => (List.range (leAt pay 8 2)).map fun i => addrTile (a + 4 * i)
  | 0x11 => (List.range ((pay.length - 8) / 4)).map fun i => addrTile (a + 4 * i)
  | 0x13 => (List.range (pay.length / 8)).map fun i => addrTile (leAt pay (8 * i) 8)
  | _ => [addrTile a, addrTile a]

/-- One word access of a request. -/
def State.lcpRd (s : State) (n : Fin 8) (a : Nat) : Nat × State × Nat :=
  if 2 ^ 40 ≤ a then (0, s.recordErr (.session n) (a % 2 ^ 40) false false, stAddr)
  else if s.fit (addrTile a) && s.wayFailed (addrTile a) then (0, s, stLink)
  else
    let (w, s, st) := (s.roundTrip (addrTile a)).busRead (.session n) a
    (w, s, st.code)

def State.lcpWr (s : State) (n : Fin 8) (a v : Nat) : State × Nat :=
  if 2 ^ 40 ≤ a then (s.recordErr (.session n) (a % 2 ^ 40) true false, stAddr)
  else if s.fit (addrTile a) && s.wayFailed (addrTile a) then (s, stLink)
  else
    let (s, st) := (s.roundTrip (addrTile a)).busWrite (.session n) a v
    (s, st.code)

/-- Words read up to the first that fails. -/
def lcpReads (n : Fin 8) : List Nat → State → Bytes → Nat × Bytes × State
  | [], s, out => (stOk, out, s)
  | a :: l, s, out =>
    let (w, s, st) := s.lcpRd n a
    if st = stOk then lcpReads n l s (out ++ leBytes 4 w) else (st, out, s)

/-- Words written up to the first that fails; the answer counts them. -/
def lcpWrites (n : Fin 8) : List (Nat × Nat) → State → Nat → Nat × Nat × State
  | [], s, k => (stOk, k, s)
  | (a, v) :: l, s, k =>
    let (s, st) := s.lcpWr n a v
    if st = stOk then lcpWrites n l s (k + 1) else (st, k, s)

/-- A register request is carried out (R342). -/
def State.lcpRegs (s : State) (h : LcpHdr) (op : Nat) (pay : Bytes) : Nat × Bytes × State :=
  let a := leAt pay 0 8
  match op with
  | 0x10 => lcpReads h.session ((List.range (leAt pay 8 2)).map fun i => a + 4 * i) s []
  | 0x13 => lcpReads h.session ((List.range (pay.length / 8)).map fun i => leAt pay (8 * i) 8) s []
  | 0x11 =>
    let (st, k, s) := lcpWrites h.session ((List.range ((pay.length - 8) / 4)).map fun i => (a + 4 * i, leAt pay (8 + 4 * i) 4)) s 0
    (st, leBytes 4 k, s)
  | _ =>
    let (old, s, st) := s.lcpRd h.session a
    if st ≠ stOk then (st, [], s)
    else
      let m := leAt pay 8 4
      let (s, st) := s.lcpWr h.session a ((old &&& (0xFFFFFFFF ^^^ m)) ||| (leAt pay 12 4 &&& m))
      (st, leBytes 4 old, s)

/-- The request has to wait for a retraining link. -/
def State.lcpBlocked (s : State) (op : Nat) (pay : Bytes) : Bool :=
  let ts := reqTiles op pay
  s.tiles.any fun t => ts.contains t && s.wayTo t (ts.count t) == 1

/-- A register request (R34, R39): behind one that waits, and for a retraining link, it waits in order. -/
def State.lcpRegAct (s : State) (h : LcpHdr) (op : Nat) (pay : Bytes) : LcpOut :=
  if !s.net.waiting.isEmpty || s.lcpBlocked op pay then
    ⟨none, { s with net := { s.net with waiting := s.net.waiting ++ [⟨h, op, pay⟩] } }, stay⟩
  else
    let (st, out, s) := s.lcpRegs h op pay
    ⟨some (st, out), s, stay⟩

/-- READ (R342). -/
def execLcpRead (h : LcpHdr) (payload : Bytes) (s : State) : Answer :=
  lcpRow h 0x10 payload (payload.length == 12 && decide (1 ≤ leAt payload 8 2) && decide (leAt payload 8 2 ≤ 2048)) true
    (fun s => s.lcpRegAct h 0x10 payload) s

/-- WRITE (R342). -/
def execLcpWrite (h : LcpHdr) (payload : Bytes) (s : State) : Answer :=
  lcpRow h 0x11 payload (payload.length % 4 == 0 && decide (12 ≤ payload.length) && decide (payload.length ≤ 8 + 4 * 2046)) false
    (fun s => s.lcpRegAct h 0x11 payload) s

/-- MODIFY (R342). -/
def execLcpModify (h : LcpHdr) (payload : Bytes) (s : State) : Answer :=
  lcpRow h 0x12 payload (payload.length == 16) false (fun s => s.lcpRegAct h 0x12 payload) s

/-- READ_LIST (R342). -/
def execLcpReadList (h : LcpHdr) (payload : Bytes) (s : State) : Answer :=
  lcpRow h 0x13 payload (payload.length % 8 == 0 && decide (8 ≤ payload.length) && decide (payload.length ≤ 8192)) true
    (fun s => s.lcpRegAct h 0x13 payload) s

/-- The oldest request that waits is carried out and answered. -/
def State.lcpResume (s : State) (x : LcpReq) : State :=
  let (st, out, s) := s.lcpRegs x.h x.op x.payload
  s.lcpAnswer x.h x.op st out

/-- Requests that wait go on in order, up to the first whose link still retrains (R34, R39). -/
def State.lcpDrain (s : State) : Nat → State
  | 0 => s
  | k + 1 =>
    match s.net.waiting with
    | [] => s
    | x :: l => if s.lcpBlocked x.op x.payload then s else ({ s with net := { s.net with waiting := l } }.lcpResume x).lcpDrain k

/-- The oldest request that waits completes with a link error and has no effect (R34). SYS_ERR.D2D_RETRAIN is set on tile 0, whose management
master carries the access out: the spec does not name the tile (DESIGN CHOICE, log 198). -/
def State.remoteTimeout (s : State) : State :=
  match s.net.waiting with
  | [] => s
  | x :: l =>
    let pay := if x.op = 0x11 then leBytes 4 0 else []
    let s := ({ s with net := { s.net with waiting := l } }.setF 0 SYS_ERR_D2D_RETRAIN).lcpAnswer x.h x.op stLink pay
    s.lcpDrain (l.length + 1)

/-- REMOTE_ACCESS_TIMEOUT: a remote register access has waited 100 µs for a retraining link (R34). -/
def execRemoteAccessTimeout (s : State) : Answer := finish s s.remoteTimeout

/-! Notifications (R344). -/

/-- NOTIFY_ACK for the notification that has been sent (R344). -/
def State.notifyAck (s : State) (seq : Nat) : State :=
  if s.net.noticeSends ≠ 0 ∧ s.net.noticeSeq = seq then s.noticePop else s

/-- NOTIFY_ACK (R342, R344). -/
def execLcpNotifyAck (h : LcpHdr) (payload : Bytes) (s : State) : Answer :=
  lcpRow h 0x31 payload (payload.length == 2) false (fun s => ⟨some (stOk, []), s.notifyAck (leAt payload 0 2), stay⟩) s

/-- SUBSCRIBE: the session becomes the notification subscriber in place of any other (R342). -/
def State.subscribe (s : State) (n : Nat) : State :=
  { s with net := { s.net with subscriber := some n, noticeSends := if s.net.subscriber = some n then s.net.noticeSends else 0 } }

/-- SUBSCRIBE (R342). -/
def execLcpSubscribe (h : LcpHdr) (payload : Bytes) (s : State) : Answer :=
  lcpRow h 0x32 payload payload.isEmpty false (fun s => ⟨some (stOk, []), s.subscribe h.session, stay⟩) s

/-! The chain (R345, R346). -/

/-- The identity payload (R346). -/
def State.identity (s : State) : Bytes :=
  leBytes 4 ((s.id.variant.part * 256 + s.id.stepping.code) * 256 + s.id.variant.tiles) ++ leBytes 8 (s.id.dieIds.headD 0) ++
    leBytes 4 (s.rd 0 SYS_FW_VERSION) ++ leBytes 1 (s.rd 0 CHN_ADDR_ADDR) ++ leBytes 1 (s.rd 0 CHN_ADDR_LOCK) ++
    leBytes 1 (s.rd 0 CHN_STATUS_POSITION) ++ leBytes 1 (s.rd 0 CHN_STATUS_RPOSITION) ++ macBytes s.id.mac ++ zeros 2 ++
    leBytes 4 (s.rd 0 CHN_IPV4)

/-- ENUMERATE assigns the address and the positions (R345); `h1` is HOP + 1. A position above 63 does not fit its field: it holds there
(log 82). -/
def State.enumerate (s : State) (port h1 : Nat) : State :=
  if port ≠ 0 then s.wr 0 CHN_STATUS_RPOSITION (Nat.min h1 63)
  else
    let addr := s.rd 0 CHN_ADDR_ADDR
    let s := if addr = 0 ∨ !s.is 0 CHN_ADDR_LOCK then
        if 62 < h1 then (s.wr 0 CHN_ADDR_ADDR 0).setF 0 CHN_ERR_RANGE else s.wr 0 CHN_ADDR_ADDR h1
      else if addr = h1 then s
      else ((s.setF 0 CHN_ERR_CONFLICT).addSat 0 CHN_CONFLICTS 1).notify 0x0009 addr h1 port 0
    s.wr 0 CHN_STATUS_POSITION (Nat.min h1 63)

/-- ENUMERATE with the address it finds: a write of CHN_ADDR in the same cycle follows it and is kept (R355). The answer gives the identity of its
reply. -/
def State.enumOld (s : State) (port h1 : Nat) : Bytes × State :=
  if s.softHas 0 CHN_ADDR then
    let u := (s.wr 0 CHN_ADDR (s.began.rd 0 CHN_ADDR)).enumerate port h1
    (u.identity, u.wr 0 CHN_ADDR (s.rd 0 CHN_ADDR))
  else ((s.enumerate port h1).identity, s.enumerate port h1)

/-- ENUMERATE: the unit replies and sends it on with HOP + 1 (R345). -/
def State.enumAct (s : State) (h : LcpHdr) (hop : Nat) : LcpOut :=
  let (id, s) := s.enumOld h.port.val (hop + 1)
  ⟨some (stOk, id), s, fun s => if hop + 1 ≤ 62 then s.lcpForward h 0x40 h.ttl.val (leBytes 1 (hop + 1) ++ zeros 3) else s⟩

/-- ENUMERATE (R342, R345). -/
def execLcpEnumerate (h : LcpHdr) (payload : Bytes) (s : State) : Answer :=
  lcpRow h 0x40 payload (payload.length == 4) true (fun s => s.enumAct h (byteAt payload 0)) s

/-- IDENTIFY: every unit, or the one whose die identifier of tile 0 matches (R342). -/
def execLcpIdentify (h : LcpHdr) (payload : Bytes) (s : State) : Answer :=
  lcpRow h 0x41 payload (payload.isEmpty || payload.length == 8) true
    (fun s =>
      if payload.isEmpty || leAt payload 0 8 == s.id.dieIds.headD 0 then ⟨some (stOk, s.identity), s, stay⟩ else ⟨none, s, stay⟩) s

/-- The part resets once the reply has left (R342, R465). -/
def State.lcpReset (s : State) (h : LcpHdr) : State :=
  let r := s.internalReset 2 false
  match (s.txq h.port (s.rd 0 CHN_LCP_CTRL_QUEUE)).getLast? with
  | some f =>
    if r.pwr.phase == .hold && !s.lcpSilent h 0x43 then { r with net := { r.net with lastOut := smSet [] h.port f.bytes r.net.lastOut } } else r
  | none => r

/-- RESET (R342). -/
def execLcpReset (h : LcpHdr) (payload : Bytes) (s : State) : Answer :=
  lcpRow h 0x43 payload (payload.length == 1 && byteAt payload 0 == 1) false (fun s => ⟨some (stOk, []), s, fun s => s.lcpReset h⟩) s

/-- An LCP RESET that waits in this cycle resets the part too (R489). -/
def State.softToo (s : State) : Bool :=
  s.pending.any fun i => match i with
    | .lcpReset h p => ((execLcpReset h p s).orElse s).inReset
    | _ => false

/-- An internal reset that a command has asserted, with the cause of an LCP RESET of the same cycle (R489). -/
def State.withSoft (s u : State) : State := if u.inReset && !s.inReset && s.softToo then u.addCause 2 else u

/-- WATCHDOG (R465, R489). -/
def execWatchdog (s : State) : Answer := always s (s.withSoft s.watchdog)

/-- SENSOR_READ: the always-on logic reads the sensors in every phase but OFF (R423, R465, R489). -/
def execSensorRead (t : Tile) (r : List Int) (s : State) : Answer :=
  always s (if s.fit t && s.pwr.phase != .off then s.withSoft (s.sensorRead t r) else s)

/-! Reference packets (R348). -/

/-- A stripe or a packet is dropped. -/
def State.refDrop (s : State) (p : Nat) : State := s.addSat p ETH_REF_DROP 1

/-- Bytes of a stripe by its header. -/
def stripeLen (k : Bytes) : Nat := 52 + leAt k 32 4 + leAt k 36 4

/-- A stripe has grown to `k`: it goes on, is discarded at its header, or is complete and checked. Bytes beyond its end are not its own
(log 81). -/
def State.stripeGrow (s : State) (p g : Nat) (k : Bytes) : State :=
  let hold (s : State) (l : List StripeIn) : State :=
    { s with net := { s.net with stripesIn := l ++ s.net.stripesIn.filter fun x => !(x.port == p && x.group == g) } }
  if k.length < 48 then hold s [⟨p, g, k⟩]
  else if 1048576 < stripeLen k then (hold s []).refDrop p
  else if k.length < stripeLen k then hold s [⟨p, g, k⟩]
  else ((hold s []).addWrap p ETH_REF_STRIPES 1).stripeCheck p (k.take (stripeLen k))

/-- A reference packet at a port (R348): offset 0 opens a stripe; any other goes on with the stripe of the port that has that many bytes
(log 81). -/
def State.refPacket (s : State) (p : Nat) (pay : Bytes) : State :=
  let ofs := leAt pay 0 4
  let b := pay.drop 4
  if ofs = 0 then
    if b.length < 3 then s.refDrop p
    else
      let g := byteAt b 2
      let s := if s.net.stripesIn.any fun x => x.port == p && x.group == g then s.refDrop p else s
      s.stripeGrow p g b
  else
    match s.net.stripesIn.find? fun x => x.port == p && x.bytes.length == ofs with
    | some x => s.stripeGrow p x.group (x.bytes ++ b)
    | none =>
      let l := s.net.stripesIn
      match l.find? fun x => x.port == p with
      | some x => { s with net := { s.net with stripesIn := l.filter fun y => y != x } }.refDrop p
      | none => s.refDrop p

/-- REF: its session must be open and bound to its source (R348). With DST 63 it is no reference packet but a request of no operation
listed. -/
def execLcpRef (h : LcpHdr) (payload : Bytes) (s : State) : Answer :=
  whenEv s (s.lcpMine h && s.rd 0 CHN_ADDR_ADDR != 0) fun s =>
    if s.lcpStays h then s.hopWait ⟨h, 0x50, payload⟩ else
    let s := s.hopOver h
    if h.dst.val = 63 then s.lcpRequest h 0x50 payload false false fun s => ⟨none, s, stay⟩
    else if h.session.val = 0 ∨ !s.sessMine h then (s.addSat 0 CHN_LCP_BAD 1).setF 0 CHN_ERR_LCP_BAD
    else (s.sessTouch h).refPacket h.port payload

end Sys2Proof.Machine
end

