-- ==== Sys2Proof/Machine/Records.lean ====
section
/-! DEFINITION. What the sections of an image write: their targets (R242, R273, R274), the seals (R451) and the records (R272). -/

namespace Sys2Proof.Machine

/-- What in an image writes a word. -/
inductive ImgSrc where
  | install | job | atSwap | code | table
  deriving DecidableEq, Repr

/-- What a part of an image comes to: the state, and a refusal code where it refuses the image. -/
abbrev ImgRes := State × Option Nat

/-! Regions (R274). -/

/-- The memory regions of a bank. -/
def State.regionsOf (s : State) (b : Nat) : List Region := smGet [] b s.regions

def State.setRegions (s : State) (b : Nat) (l : List Region) : State := { s with regions := smSet [] b l s.regions }

/-- `n` bytes lie inside a region of SHADOW of a kind. -/
def State.inRegion (s : State) (install : Bool) (a n : Nat) : Bool :=
  (s.regionsOf s.shadow).any fun r => r.install == install && decide (r.lo ≤ a) && decide (a + n ≤ r.hi)

/-- `n` bytes touch an installation region of SHADOW. -/
def State.nearInstall (s : State) (a n : Nat) : Bool :=
  (s.regionsOf s.shadow).any fun r => r.install && decide (r.lo < a + n) && decide (a < r.hi)

/-- The ACTIVE bank still serves bands: RUN is 1 or a band of it is not released. -/
def State.activeServes (s : State) : Bool :=
  s.is 0 BND_CTRL_RUN || s.clk.bands.any fun b => b.bank == s.bank && decide (s.clk.nextRelease ≤ b.n)

/-- A byte range lies in the cluster memory window or in the job's part of pipeline memory of one fitted tile (R274). -/
def State.regionPlace (s : State) (a n : Nat) : Bool :=
  (addrBlk a == 0x48 || addrBlk a == 0x50) && decide (a < 2 ^ 40) && s.fit (addrTile a) && decide (addrOff a + n ≤ 0x400000)

/-- A REGION record (R274). -/
def State.addRegion (s : State) (install : Bool) (a n : Nat) : ImgRes :=
  let l := s.regionsOf s.shadow
  let meets (r : Region) : Bool := decide (r.lo < a + n) && decide (a < r.hi)
  let bad := !install && (l.any (fun r => r.install && meets r) ||
    s.activeServes && (s.regionsOf s.bank).any fun r => !r.install && meets r)
  if !s.regionPlace a n || bad then (s, some 0x0C) else (s.setRegions s.shadow (l ++ [⟨install, a, a + n⟩]), none)

/-! Targets (R242, R273). -/

/-- The code that refuses a word at a memory address, none where it may be written. -/
def State.memTarget (s : State) (k : ImgSrc) (w : Window) (a : Nat) : Option Nat :=
  let store (t c e : Nat) : Option Nat :=
    match k with
    | .atSwap | .table => some 0x0B
    | .install | .job | .code => if s.assigned s.bank t (16 * c + e) then some 0x0D else none
  let region : Option Nat :=
    match k with
    | .atSwap | .code => some 0x0B
    | .install => if s.inRegion true a 4 then none else some 0x0B
    | .job => if s.nearInstall a 4 then some 0x0C else if s.inRegion false a 4 then none else some 0x0B
    | .table =>
      let own := s.cfg.load.any fun l => (l.install == 2 && s.inRegion true a 4) || (l.job && s.inRegion false a 4)
      if own then none else some 0x0B
  match w with
  | .pool _ _ => some 0x0B
  | .dataStore t c e _ => store t c e
  | .progStore t c e _ => store t c e
  | .cluster _ _ _ => region
  | .pipe _ _ => region

/-- The word belongs to a skipped installation section: a blob leaves it as it is (log 84). -/
def State.skippedWord (s : State) (k : ImgSrc) (a : Nat) : Bool := k == .table && s.cfg.load.any (·.install == 1) && s.inRegion true a 4

/-- Registers that no image writes: those of SYS, CLK, D2D and LCS, of CFG but CFG_XOVER, and BND_CTRL. -/
def RegRef.closed (r : RegRef) : Bool :=
  r.blk == 0x00 || r.blk == 0x01 || r.blk == 0x1B || r.blk == 0x19 || (r.blk == 0x0D && !r.named CFG_XOVER) || r.named BND_CTRL

/-- The register is one of an engine. -/
def RegRef.ofEngine (r : RegRef) : Bool := r.blk == 0x0C && r.row.dims.any (·.1 == 128)

/-- The code that refuses a word at a register, none where it may be written or queued. -/
def State.regTarget (s : State) (k : ImgSrc) (r : RegRef) (v : Nat) : Option Nat :=
  if r.closed then some 0x0B
  else if r.structured then
    if k ≠ .install ∧ k ≠ .job then some 0x0B
    else if r.ofEngine && s.assigned s.bank r.t r.i then some 0x0D
    else if r.blk == 0x13 && !s.relayBitsOk r.t (evtReg r.off) 0 v then some 0x0B
    else none
  else if r.blk == 0x13 && (evtReg r.off).isChan then some 0x0B
  else
    match k with
    | .atSwap => none
    | .install => if r.ofEngine && s.assigned s.bank r.t r.i then some 0x0D else none
    | _ => some 0x0B

/-! Writing. -/

/-- A number enters a rising list. -/
def riseAdd (k : Nat) : List Nat → List Nat
  | [] => [k]
  | x :: l => if x < k then x :: riseAdd k l else if x = k then x :: l else k :: x :: l

/-- The seal of a granule is set by an encrypted section (R451). -/
def State.sealSet (s : State) (enc : Bool) (a : Nat) : State := if enc then s.updLcs fun l => { l with seals := riseAdd (a / 64) l.seals } else s

/-- Seals of granules that plaintext covers whole are cleared (R451). -/
def State.sealClear (s : State) (enc : Bool) (a n : Nat) : State :=
  if enc then s else s.updLcs fun l => { l with seals := l.seals.filter fun g => !(decide (a ≤ 64 * g) && decide (64 * g + 64 ≤ a + n)) }

/-- A word goes to its target (R273). -/
def State.imgWord (s : State) (k : ImgSrc) (enc : Bool) (a v : Nat) : ImgRes :=
  if 2 ^ 40 ≤ a ∨ !s.fit (addrTile a) then (s, some 0x0B)
  else
    let put (s : State) : ImgRes :=
      let (s, st) := s.busWrite .image a v
      (s, if st = .ok then none else some 0x0B)
    match windowOf a with
    | some w =>
      if s.skippedWord k a then (s, none)
      else
        match s.memTarget k w a with
        | some c => (s, some c)
        | none =>
          let (s, c) := put s
          (if c.isNone then s.sealSet enc a else s, c)
    | none =>
      match s.regAt a with
      | none => (s, some 0x0B)
      | some r =>
        match s.regTarget k r v with
        | some c => (s, some c)
        | none =>
          if k = .atSwap then (s.updCfg fun c => { c with load := c.load.map fun l => { l with atSwap := l.atSwap ++ [(a, v)] } }, none)
          else put s

/-- Words from an address on, up to the first that refuses. -/
def imgWords (k : ImgSrc) (enc : Bool) : List Nat → Nat → State → ImgRes
  | [], _, s => (s, none)
  | v :: l, a, s =>
    match s.imgWord k enc a v with
    | (s, some c) => (s, some c)
    | (s, none) => imgWords k enc l (a + 4) s

/-- Words from an address on; memory that plaintext covers loses its seals. -/
def State.imgPut (s : State) (k : ImgSrc) (enc : Bool) (a : Nat) (ws : List Nat) : ImgRes :=
  match imgWords k enc ws a s with
  | (s, some c) => (s, some c)
  | (s, none) => (if (windowOf a).isSome && !s.skippedWord k a then s.sealClear enc a (4 * ws.length) else s, none)

/-! Records (R272). -/

/-- What a MODIFY reads: a register in the bank written, or a word of memory. -/
def State.imgOld (s : State) (a : Nat) : Nat :=
  match windowOf a with
  | some _ => s.memLE a 4
  | none =>
    match s.regAt a with
    | some r => s.readWord r (r.row.read (s.wordB (s.writeBank .image r) r.t r.blk r.off))
    | none => 0

/-- Body bytes of a record, none where its OP or its N is out of range. -/
def recordBody (op n : Nat) : Option Nat :=
  match op with
  | 1 => if 1 ≤ n ∧ n ≤ 1024 then some (4 * n) else none
  | 2 => if n = 1 then some 8 else none
  | 3 => if n = 0 then some 8 else none
  | 4 => if n = 0 then some 8 else none
  | 5 => if 1 ≤ n ∧ n ≤ 64 then some (4 * n) else none
  | _ => none

/-- A record with its body is applied. -/
def State.record (s : State) (k : ImgSrc) (enc : Bool) (op a : Nat) (body : Bytes) : ImgRes :=
  let x := leAt body 0 4
  let y := leAt body 4 4
  match op with
  | 1 => s.imgPut k enc a (wordsOf (body.length / 4) body)
  | 2 => s.imgPut k enc a [(s.imgOld a &&& (0xFFFFFFFF ^^^ x)) ||| (y &&& x)]
  | 3 => if x % 4 ≠ 0 then (s, some 0x0A) else s.imgPut k enc a (List.replicate (x / 4) y)
  | 4 => if y ≠ 0 then (s, some 0x0A) else s.addRegion (k == .install) a x
  | _ => s.imgPut .atSwap enc a (wordsOf (body.length / 4) body)

/-- The records of a section from byte `p` of the image on; a refusal comes with its offset. `n` bounds their number. -/
def imgRecords (k : ImgSrc) (enc : Bool) : Nat → Nat → Bytes → State → State × Option (Nat × Nat)
  | 0, p, _, s => (s, some (0x0A, p))
  | n + 1, p, bs, s =>
    let op := byteAt bs 0
    let cnt := leAt bs 2 2
    let a := byteAt bs 1 * 2 ^ 32 + leAt bs 4 4
    if bs.length < 8 then (s, some (0x0A, p))
    else if op = 0 then (s, if cnt = 0 ∧ a = 0 ∧ bs.length = 8 then none else some (0x0A, p))
    else
      match recordBody op cnt with
      | none => (s, some (0x0A, p))
      | some len =>
        if bs.length < 8 + len ∨ a % 4 ≠ 0 then (s, some (0x0A, p))
        else
          match s.record k enc op a ((bs.drop 8).take len) with
          | (s, some c) => (s, some (c, p))
          | (s, none) => imgRecords k enc n (p + 8 + len) (bs.drop (8 + len)) (s.addSat 0 CFG_LOAD_RECORDS 1)

end Sys2Proof.Machine
end

