-- ==== Sys2Proof/Machine/Load.lean ====
section
/-! DEFINITION. Loading an image (R269 to R279, R342, R447): opening a load, the header and the sections as their bytes come in, and the check
at the end. -/

namespace Sys2Proof.Machine

def State.updLoad (s : State) (f : Load → Load) : State := s.updCfg fun c => { c with load := c.load.map f }

/-! Opening (R278 step 1). -/

/-- Every structure register of ACTIVE is copied into SHADOW, with the region list. -/
def State.copyBank (s : State) : State :=
  let k : Nat := 2 ^ 40
  let m : Nat := s.shadow + 1
  let new : List (Nat × Word) := (s.regs.filter fun x => x.1 / k == s.bank + 1).map fun x => (m * k + x.1 % k, x.2)
  let low : List (Nat × Word) := s.regs.filter fun x => decide (x.1 / k < m)
  let high : List (Nat × Word) := s.regs.filter fun x => decide (m < x.1 / k)
  let s := { s with regs := low ++ new ++ high }
  (s.setRegions s.shadow (s.regionsOf s.bank)).setGrid s.shadow .idle

/-- Engines that are not assigned in ACTIVE have no INIT to run for now (R278). -/
def State.dropInit (s : State) : State :=
  s.updEngs fun x => { x with engs := x.engs.map fun (k, e) =>
    (k, if e.initDue && !s.assigned s.bank (k / 128) (k % 128) then { e with initDue := false } else e) }

/-- A load of `len` bytes is opened by a session, 0 for boot flash (R278). -/
def State.loadBegin (s : State) (session len : Nat) : State :=
  let s := (((s.dropInit).copyBank).freeShadowRings).setShadow 1
  let s := (((s.wr 0 CFG_STATUS_SESSION session).wr 0 CFG_SHADOW_JOB 0).wr 0 CFG_LOAD_BYTES 0).wr 0 CFG_LOAD_RECORDS 0
  s.updCfg fun c => { c with load := some ⟨session, len, [], 0, 0, 0, false, none, [], [], none⟩ }

/-- A load is opened: in another state than FREE, READY or INVALID it is refused and SHADOW stays (R278); a length below 200 bytes is no
image (R342). -/
def State.loadOpen (s : State) (session len : Nat) : State × Option Nat :=
  let c := s.shadowSt
  if c ≠ 0 ∧ c ≠ 3 ∧ c ≠ 6 then (s.refusal 0x0F 0 0 session, some 0x0F)
  else
    let s := s.loadBegin session len
    if len < 200 then (s.loadRefuse 0x01 0 0, some 0x01) else (s, none)

/-! The header (R270). -/

/-- FLAGS of the header. -/
def Load.flags (l : Load) : Nat := leAt l.bytes 6 2
def Load.encrypted (l : Load) : Bool := l.flags.testBit 0
def Load.hasInstall (l : Load) : Bool := l.flags.testBit 1
def Load.hasJob (l : Load) : Bool := l.flags.testBit 2
def Load.keySlot (l : Load) : Nat := byteAt l.bytes 11
def Load.jobId (l : Load) : Nat := leAt l.bytes 12 4
def Load.installId (l : Load) : Nat := leAt l.bytes 16 4
def Load.sections (l : Load) : Nat := leAt l.bytes 28 4

/-- The code that refuses a header, none where it is good (R270, R278, R279; log 83). -/
def State.headerBad (s : State) (l : Load) : Option Nat :=
  let b := l.bytes
  let form := b.take 4 == [0x4B, 0x53, 0x49, 0x4D] && leAt b 4 2 == 1 && leAt b 60 4 == crc32c (b.take 60) && decide (2 ≤ l.sections) &&
    decide (l.sections ≤ 4096) && leAt b 32 4 == l.len && (l.hasInstall || l.hasJob) && decide (bitN l.hasInstall + bitN l.hasJob < l.sections) &&
    l.jobId != 0
  if !form then some 0x01
  else if leAt b 8 2 ≠ s.id.variant.part ∨ s.id.stepping.code < byteAt b 10 then some 0x02
  else if s.rd 0 SYS_FW_VERSION < leAt b 20 4 then some 0x03
  else if l.jobId = s.rd 0 CFG_ACTIVE_JOB then some 0x10
  else if !l.hasInstall ∧ l.installId ≠ s.rd 0 CFG_INSTALL_ID then some 0x08
  else none

/-! Sections (R271). -/

/-- The section header at `p`. -/
def Load.section (l : Load) : Section :=
  let b := l.bytes.drop l.pos
  ⟨l.idx, l.pos, byteAt b 0, byteAt b 1, leAt b 4 4 + byteAt b 2 * 2 ^ 32, leAt b 8 4, leAt b 12 4⟩

/-- The KIND that the order of R269 asks for at a place; none for a blob. -/
def Load.kindAt (l : Load) : Option Nat :=
  if l.idx + 1 = l.sections then some 0x7F
  else if l.hasInstall ∧ l.idx = 0 then some 0x01
  else if l.hasJob ∧ l.idx = bitN l.hasInstall then some 0x02
  else none

/-- A section header is malformed or out of order (R269, R271; log 83). -/
def Load.sectionBad (l : Load) (x : Section) : Bool :=
  let blob := x.kind == 0x10 || x.kind == 0x11 || x.kind == 0x12
  let kind := match l.kindAt with
    | some k => x.kind == k
    | none => blob
  !kind || decide (1 < x.flags) || (x.flags == 1 && x.kind != 0x11) || byteAt l.bytes (x.at_ + 3) != 0 || x.dest % 4 != 0 ||
    (!blob && x.dest != 0) || x.len % 4 != 0 || (x.kind == 0x7F && x.len != 96) || decide (l.len < x.at_ + 16 + x.len) ||
    (x.kind == 0x7F && x.at_ + 16 + x.len != l.len)

/-- Payload bytes of a section as stored. -/
def Load.payload (l : Load) (x : Section) : Bytes := (l.bytes.drop (x.at_ + 16)).take x.len

/-- The key of an encrypted image, looked up at its first encrypted section (R276, R449). -/
def State.loadKey (s : State) (l : Load) : Option Bytes :=
  match l.key with
  | some k => some k
  | none => (s.lcs.jobKeys.find? (·.2.id == leAt l.bytes 36 4)).map (·.2.key)

/-- The plaintext of a section's payload, none where decryption fails (R276). -/
def State.plain (s : State) (l : Load) (x : Section) : Option Bytes :=
  let p := l.payload x
  if !l.encrypted || x.kind == 0x7F then some p
  else
    match s.loadKey l with
    | none => none
    | some k =>
      if x.len < 16 then none
      else
        Config.gcmOpen k ((l.bytes.drop 40).take 8 ++ leBytes 4 x.idx) ((l.bytes.drop x.at_).take 16) (p.take (x.len - 16)) (p.drop (x.len - 16))

/-! Gain banks (R275). -/

/-- The sub-stream that DEST of a GAIN_NEXT blob names. -/
def State.gainDest (s : State) (a : Nat) : Option (Nat × Nat × Nat) :=
  match windowOf a, s.regAt a with
  | none, some r => if r.named (COR_PORT_SUB_CTRL 0 0) then some (r.t, r.i, r.j) else none
  | _, _ => none

/-- A fade of the sub-stream is running, waiting or latched. -/
def State.fadeBusy (s : State) (t p u : Nat) : Bool :=
  let x := s.sub (t * 8 + p * 4 + u)
  x.fade.isSome || x.fadeDue.isSome || s.is t (COR_PORT_SUB_GAIN_CTRL_QUEUED p u) || s.is t (COR_PORT_SUB_GAIN_CTRL_PENDING p u)

/-- A register of SHADOW. -/
def State.rdShadow (s : State) (t : Nat) (f : Fld) : Nat := s.rdB s.shadow t f

/-- Size of a gain bank as SHADOW has it (R128). -/
def State.shadowGainSize (s : State) (t p u : Nat) : Nat := { s with bank := s.shadow, retiring := none }.coefSize 0 t p u

/-- The loader waits for a fade to end before it writes a gain bank. -/
def State.gainWaits (s : State) (x : Section) : Bool :=
  x.kind == 0x11 && x.flags == 1 && match s.gainDest x.dest with
    | some (t, p, u) => s.fadeBusy t p u
    | none => false

/-- A word of a gain bank. -/
def gainWords (enc : Bool) : List Nat → Nat → State → ImgRes
  | [], _, s => (s, none)
  | v :: l, a, s =>
    match s.busWrite .image a v with
    | (s, .ok) => gainWords enc l (a + 4) (s.sealSet enc a)
    | (s, _) => (s, some 0x0B)

/-- A GAIN_NEXT blob goes to the bank that ACTIVE does not name, and the swap will request a fade (R275). -/
def State.gainNext (s : State) (enc : Bool) (a : Nat) (pay : Bytes) : ImgRes :=
  match s.gainDest a with
  | none => (s, some 0x0B)
  | some (t, p, u) =>
    let base := s.rdShadow t (if s.is t (COR_PORT_SUB_GAIN_CTRL_ACTIVE p u) then COR_PORT_SUB_GAINA_BASE p u else COR_PORT_SUB_GAINB_BASE p u)
    if pay.length ≠ s.shadowGainSize t p u ∨ 0x400000 < base + pay.length then (s, some 0x0B)
    else
      let sub := t * 8 + p * 4 + u
      match gainWords enc (wordsOf (pay.length / 4) pay) (pipeAddr t base) s with
      | (s, some c) => (s, some c)
      | (s, none) =>
        ((s.sealClear enc (pipeAddr t base) pay.length).updLoad fun l => { l with gains := if l.gains.contains sub then l.gains else l.gains ++ [sub] },
          none)

/-! Applying sections (R278 steps 3 and 4). -/

/-- Regions of a kind go from SHADOW: a section that declares the new ones is about to be applied (R274). -/
def State.dropRegions (s : State) (install : Bool) : State := s.setRegions s.shadow ((s.regionsOf s.shadow).filter fun r => r.install != install)

/-- The offset of a refusal defaults to the section's (log 67). -/
def atSection (x : Section) (r : ImgRes) : State × Option (Nat × Nat) := (r.1, r.2.map fun c => (c, x.at_))

/-- The installation section (R278 step 4). -/
def State.installSection (s : State) (l : Load) (x : Section) (pay : Bytes) : State × Option (Nat × Nat) :=
  if s.is 0 BND_CTRL_RUN then
    if l.installId = s.rd 0 CFG_INSTALL_ID then (s.updLoad fun l => { l with install := 1 }, none) else (s, some (0x09, x.at_))
  else if crc32c pay ≠ l.installId then (s, some (0x08, x.at_))
  else
    imgRecords .install l.encrypted (pay.length / 8 + 1) (x.at_ + 16) pay ((s.dropRegions true).updLoad fun l => { l with install := 2 })

/-- A section whose CRC is right is decrypted and applied; a refusal comes with its code and offset. -/
def State.applySection (s : State) (l : Load) (x : Section) : State × Option (Nat × Nat) :=
  if crc32c (l.payload x) ≠ x.crc then (s, some (0x04, x.at_))
  else
    match s.plain l x with
    | none => (s, some (0x05, x.at_))
    | some pay =>
      let s := if l.encrypted && x.kind != 0x7F then s.updLoad fun y => { y with key := s.loadKey l } else s
      match x.kind with
      | 0x01 => s.installSection l x pay
      | 0x02 => imgRecords .job l.encrypted (pay.length / 8 + 1) (x.at_ + 16) pay ((s.dropRegions false).updLoad fun l => { l with job := true })
      | 0x7F => (s, none)
      | k =>
        if pay.length % 4 ≠ 0 then (s, some (0x01, x.at_))
        else if x.flags = 1 then atSection x (s.gainNext l.encrypted x.dest pay)
        else atSection x (s.imgPut (if k = 0x10 then .code else .table) l.encrypted x.dest (wordsOf (pay.length / 4) pay))

/-- The loader waits for a fade: the bytes it has are not all applied. -/
def State.loadBlocked (s : State) : Bool :=
  s.shadowSt == 1 && s.cfg.load.any fun l =>
    l.pos != 0 && decide (l.idx < l.sections) && decide (l.pos + 16 ≤ l.bytes.length) &&
      decide (l.pos + 16 + l.section.len ≤ l.bytes.length) && s.gainWaits l.section

/-- The load is refused by what stands at byte `pos`: none of the bytes from there on is applied (R279, R287). -/
def State.refuseAt (s : State) (pos code sec ofs : Nat) : State := (s.wr 0 CFG_LOAD_BYTES pos).loadRefuse code sec ofs

/-- The next part of the load whose bytes are all there: the header or a section. None where the loader waits. -/
def State.loadStep (s : State) : Option State :=
  match s.cfg.load with
  | none => none
  | some l =>
    if s.shadowSt ≠ 1 then none
    else if l.pos = 0 then
      if l.bytes.length < 64 then none
      else
        match s.headerBad l with
        | some c => some (s.refuseAt 0 c 0 0)
        | none => some ((s.wr 0 CFG_SHADOW_JOB l.jobId).updLoad fun l => { l with pos := 64 })
    else if l.sections ≤ l.idx then some (s.setShadow 2)
    else if l.bytes.length < l.pos + 16 then
      if l.len < l.pos + 16 then some (s.refuseAt l.pos 0x01 l.idx l.pos) else none
    else
      let x := l.section
      if l.sectionBad x then some (s.refuseAt l.pos 0x01 l.idx l.pos)
      else if l.bytes.length < x.at_ + 16 + x.len ∨ s.gainWaits x then none
      else
        match s.applySection l x with
        | (s, some (c, o)) => some (s.refuseAt l.pos c x.idx o)
        | (s, none) => some (s.updLoad fun l => { l with pos := x.at_ + 16 + x.len, idx := l.idx + 1 })

/-- The loader goes on as far as it can; `n` bounds the parts. -/
def loadRun : Nat → State → State
  | 0, s => s
  | n + 1, s =>
    match s.loadStep with
    | none => s
    | some s => loadRun n s

/-- CFG_LOAD_BYTES: what the loader has taken, a section that waits for a fade not among it (R287; log 228). -/
def State.loadCount (s : State) : State :=
  match s.cfg.load with
  | some l => s.wr 0 CFG_LOAD_BYTES (if s.loadBlocked then l.pos else l.bytes.length)
  | none => s

/-- Bytes are appended and applied. -/
def State.loadFeed (s : State) (b : Bytes) : State := (loadRun 4200 (s.updLoad fun l => { l with bytes := l.bytes ++ b })).loadCount

/-! The image-load commands (R342). -/

/-- Why an IMAGE_DATA request is turned away, none where its bytes are taken (log 75). -/
def State.dataTurned (s : State) (x : ImageReq) : Option Nat :=
  match s.cfg.load with
  | none => some (if s.shadowSt = 6 then stRefused else stOrder)
  | some l =>
    if l.session ≠ x.h.session.val then some stSession
    else if l.len < x.ofs + x.data.length ∨ l.bytes.length < x.ofs then some stOrder
    else none

/-- The bytes of a request go to the load; those before the count already applied are skipped. -/
def State.dataTake (s : State) (x : ImageReq) : State := s.loadFeed (x.data.drop ((s.cfg.load.map fun l => l.bytes.length - x.ofs).getD 0))

/-- The reply to a request whose bytes have been applied, or that has been in a load that is refused. -/
def State.dataReply (s : State) : Nat × Bytes :=
  match s.cfg.load with
  | some l => (stOk, leBytes 4 l.bytes.length)
  | none => (stRefused, [])

/-- An IMAGE_DATA request: four wait at most (R342). -/
def State.dataAct (s : State) (h : LcpHdr) (pay : Bytes) : LcpOut :=
  let x : ImageReq := ⟨h, leAt pay 0 4, pay.drop 4⟩
  let wait (s : State) : LcpOut := ⟨none, s.updCfg fun c => { c with waiting := c.waiting ++ [x] }, stay⟩
  if 4 ≤ s.cfg.waiting.length then ⟨some (stBusy, []), s, stay⟩
  else if !s.cfg.waiting.isEmpty then wait s
  else
    match s.dataTurned x with
    | some c => ⟨some (c, []), s, stay⟩
    | none =>
      let s := s.dataTake x
      if s.loadBlocked then wait s else ⟨some s.dataReply, s, stay⟩

/-- The oldest request that waits gives its bytes to the loader; those that are turned away are answered. `n` bounds their number. -/
def dataStart : Nat → State → State
  | 0, s => s
  | n + 1, s =>
    match s.cfg.waiting with
    | [] => s
    | y :: l =>
      match s.dataTurned y with
      | none => s.dataTake y
      | some c => dataStart n ((s.updCfg fun d => { d with waiting := l }).lcpTurn y.h 0x21 c)

/-- Requests that wait are answered once the loader has applied their bytes; `n` bounds their number. -/
def dataGoOn : Nat → State → State
  | 0, s => s
  | n + 1, s =>
    match s.cfg.waiting with
    | [] => s
    | x :: l =>
      if s.loadBlocked then s
      else
        let (c, pay) := s.dataReply
        dataGoOn n (dataStart 8 ((s.updCfg fun c => { c with waiting := l }).lcpAnswer x.h 0x21 c pay))

/-- The loader tries again: a fade may have ended or the load may be over. -/
def State.loadResume (s : State) : State := if s.cfg.waiting.isEmpty then s else dataGoOn 8 (loadRun 4200 s).loadCount

/-- IMAGE_OPEN (R278, R342). -/
def State.openAct (s : State) (h : LcpHdr) (len : Nat) : LcpOut :=
  let (s, c) := s.loadResume.loadOpen h.session len
  match c with
  | some c => ⟨some (stRefused, leBytes 1 c), s, stay⟩
  | none => ⟨some (stOk, []), s, stay⟩

/-- IMAGE_OPEN (R278, R342). -/
def execImageOpen (h : LcpHdr) (payload : Bytes) (s : State) : Answer :=
  lcpRow h 0x20 payload (payload.length == 4) false (fun s => s.openAct h (leAt payload 0 4)) s

/-- IMAGE_DATA (R278, R342). -/
def execImageData (h : LcpHdr) (payload : Bytes) (s : State) : Answer :=
  lcpRow h 0x21 payload (decide (5 ≤ payload.length) && decide (payload.length ≤ 8192)) false (fun s => s.dataAct h payload) s

/-- IMAGE_ABORT acts as CFG_CTRL.ABORT (R342). -/
def execImageAbort (h : LcpHdr) (payload : Bytes) (s : State) : Answer :=
  lcpRow h 0x22 payload payload.isEmpty false (fun s => ⟨some (stOk, []), s.cfgAbort, fun s => s.loadResume⟩) s

/-! Verification (R277, R278 step 5, R447). -/

/-- The code that refuses the signature, none where the image is accepted. -/
def State.signBad (s : State) (l : Load) : Option Nat :=
  let sig := l.bytes.drop (l.len - 96)
  if l.keySlot = 0xFF then
    if sig ≠ zeros 96 then some 0x06 else if s.inField then some 0x07 else none
  else if s.slotUsable l.keySlot && Config.ecdsaOk (s.ownerKey l.keySlot) (digest (l.bytes.take (l.len - 96))) sig then none
  else some 0x06

/-- An engine assigned in both banks has no KEEP in SHADOW (R242). -/
def State.keepBroken (s : State) : Bool :=
  s.tiles.any fun t => (List.range 128).any fun e =>
    s.assigned s.bank t e && s.assigned s.shadow t e && s.rdB s.shadow t (ENG_E_CFG_KEEP e) == 0

/-- The code with which verification refuses the image. -/
def State.verifyBad (s : State) (l : Load) : Option Nat :=
  match s.signBad l with
  | some c => some c
  | none =>
    if 5 ≤ s.rdB s.shadow 0 BND_BAND_SIZE_B ∨ !depthsOk (s.wordB s.shadow 0 BND_DEPTH.blk BND_DEPTH.off) then some 0x11
    else if s.keepBroken then some 0x0D
    else none

/-- INIT of every engine assigned only in SHADOW is due (R242). -/
def State.initsDue (s : State) : State :=
  s.eachTile fun t s => (List.range 128).foldl (fun s e =>
    if s.assigned s.shadow t e && !s.assigned s.bank t e then
      (s.updEng t e fun x => { x with initDue := true, past := false }).clrF t (ENG_E_STATUS_INIT_DONE e)
    else s) s

/-- Verification ends (R278 step 5): an image from boot flash is put in force by an immediate swap (R475). -/
def State.verifyEnd (s : State) (l : Load) : State :=
  match s.verifyBad l with
  | some c => s.loadRefuse c (l.sections - 1) (l.len - 96)
  | none =>
    let s := if l.install = 2 then s.wr 0 CFG_INSTALL_ID l.installId else s
    let s := ((s.initsDue).setShadow 3).updLoad fun l => { l with doneAt := some s.tim.tb0 }
    if l.session = 0 then s.armed false true else s

/-- VERIFY_COMPLETE (R278 step 5). -/
def execVerifyComplete (s : State) : Answer :=
  finish s (if s.shadowSt = 2 then match s.cfg.load with
    | some l => s.verifyEnd l
    | none => s
  else s)

end Sys2Proof.Machine
end

