-- ==== Sys2Proof/Machine/Boot.lean ====
section
/-! DEFINITION. The end of BOOT: the unit parameter block, the owner key block and the boot structure image (R464, R472, R474, R475). -/

namespace Sys2Proof.Machine

/-! The unit parameter block (R474). -/

/-- The bytes of a flash item that is there and has its CRC-32C. -/
def State.itemBytes (s : State) (kind : Nat) : Option Bytes := (s.flashItem kind).map fun (o, n) => s.flashBytes o n

/-- A unit parameter block that counts: 48 bytes with MAGIC, VERSION and CRC-32C as they must be. -/
def paramOk (b : Bytes) : Bool := b.length == 48 && b.take 4 == [0x4B, 0x55, 0x50, 0x42] && leAt b 4 2 == 1 && crcGood b

/-- The fields of the block are loaded; UDP_PORT 0 keeps the reset value. -/
def State.loadParams (s : State) (b : Bytes) : State :=
  let s := (s.wr 0 CHN_ADDR_ADDR (byteAt b 6)).wr 0 CHN_ADDR_LOCK (byteAt b 7)
  let s := s.wr 0 CHN_IPV4 (leAt b 8 4)
  let s := [(CHN_IPV6_0, 12), (CHN_IPV6_1, 16), (CHN_IPV6_2, 20), (CHN_IPV6_3, 24)].foldl (fun s (f, o) => s.wr 0 f (leAt b o 4)) s
  let s := if leAt b 28 2 = 0 then s else s.wr 0 CHN_LCP_CTRL_UDP_PORT (leAt b 28 2)
  let s := [0, 1].foldl (fun s p => s.wr p ETH_CFG_MODE (byteAt b 30)) s
  [0, 1].foldl (fun s p => (s.wr 0 (TIM_PORT_LAT_RX p) (leAt b (32 + 4 * p) 2)).wr 0 (TIM_PORT_LAT_TX p) (leAt b (34 + 4 * p) 2)) s

/-- The unit parameter block is loaded where it is present and good. -/
def State.bootParams (s : State) : State :=
  match s.itemBytes 3 with
  | some b => if paramOk b then (s.loadParams b).setF 0 PWR_BOOT_PARAM_OK else s
  | none => s

/-! The owner key block (R446, R475). -/

/-- The entries of a good owner key block: slot and key. -/
def ownerBlock (b : Bytes) : Option (List (Nat × Bytes)) :=
  let n := byteAt b 4
  if b.take 4 = [0x4B, 0x4F, 0x4B, 0x42] ∧ 1 ≤ n ∧ n ≤ 4 ∧ leAt b 5 3 = 0 ∧ b.length = 12 + 100 * n ∧ crcGood b then
    some ((List.range n).map fun i => (byteAt b (8 + 100 * i), (b.drop (12 + 100 * i)).take 96))
  else none

/-- A key passes the rule of LOAD_OWNER_KEY (R444, R446). -/
def State.ownerLoads (s : State) (k : Nat) (key : Bytes) : Bool :=
  let st := s.rd 0 LCS_STATE_STATE
  (st == 1 || st == 2) && decide (k < 4) && s.ownCheck 0x03 0 (leBytes 4 k ++ key) == 0

/-- The owner keys are loaded; a key that fails is skipped, and KEYS_OK says that none failed. -/
def State.bootKeys (s : State) : State :=
  match (s.itemBytes 4).bind ownerBlock with
  | none => s
  | some l =>
    let s' := l.foldl (fun s (k, key) => if s.ownerLoads k key then s.updLcs fun x => { x with owners := smInsert k key x.owners } else s) s
    s'.lcsSync.setIf (l.all fun (k, key) => s.ownerLoads k key) 0 PWR_BOOT_KEYS_OK

/-! The boot structure image (R475). -/

/-- The image is loaded as a load with session 0; verification arms an immediate swap. -/
def State.bootImage (s : State) : State :=
  match s.itemBytes 5 with
  | none => s
  | some b =>
    match s.loadOpen 0 b.length with
    | (s, none) => s.loadFeed b
    | (s, some _) => s

/-! The end of BOOT. -/

/-- Firmware has been started and every bonded Cerette link is UP (R464). -/
def State.bootReady (s : State) : Bool := s.pwr.phase == .boot && s.rd 0 PWR_BOOT_SLOT != 0 && s.d2dOk

/-- BOOT ends: parameters and keys are loaded, Ethernet is enabled, BOOTED is notified, and the boot image follows. PWR_BOOT_MS is a time,
which the model leaves free (log 90). -/
def State.bootDone (s : State) : State :=
  let s := (s.bootParams).bootKeys
  let s := (s.setF 0 SYS_STATUS_BOOT_DONE).setF 0 SYS_STATUS_TILES_UP
  let s := [0, 1].foldl (fun s p => (s.setF p ETH_CFG_EN).ethCfg p false) s
  let (ms, s) := s.fresh
  let s := { s.wr 0 PWR_BOOT_MS ms with pwr := { s.pwr with phase := .run } }
  let s := s.notify 0x0061 (s.word 0 SYS_RESET_CAUSE.blk SYS_RESET_CAUSE.off) (s.word 0 PWR_BOOT.blk PWR_BOOT.off) (s.rd 0 PWR_BOOT_MS) 0
  s.readyUpdate.bootImage

/-- BOOT_DONE (R472). -/
def execBootDone (s : State) : Answer := always s (if s.bootReady then s.bootDone else s)

end Sys2Proof.Machine
end

