-- ==== Sys2Proof/Machine/Flow.lean ====
section
/-! DEFINITION. Lines on their way: corrected lines to their consumers (R119), stitched lines to theirs (R168), a band through the warp and
segmentation (R197, R220). -/

namespace Sys2Proof.Machine

/-! Corrected lines (R119). -/

/-- A corrected line goes to the statistics, to stitching, to engines, to streams and to the filters (R119, R409). -/
def State.correctedOut (s : State) (t p u : Nat) (l : CorLine) : State :=
  let n := (s.lineHome l.a).1
  let s := ((s.statLine n l).srcPush l.sub ⟨l.a, none, l.planes⟩).histStore (s.bankOf (s.lineCfg l.a)) l.sub l.a l.planes
  let s := (s.tapCorrected n l).strLine 1 l.sub t l.a (columnsOf l.planes)
  s.firLine n t (p * 4 + u) l.planes

/-- CORRECTED_LINE: the oldest line in the pipeline of a port leaves it. -/
def State.correctedLine (s : State) (t p : Nat) : State :=
  match smGet [] (t * 2 + p) s.path.pipe with
  | [] => s
  | l :: rest =>
    let u := l.sub % 4
    let s := if l.input.isSome then s.leaveInput t p else s
    let (c, s) := (s.setPipe t p rest).correctLine t p u l
    (match c with
      | some x => s.correctedOut t p u x
      | none => s).markTile t

/-- CORRECTED_LINE (R119). -/
def execCorrectedLine (t : Tile) (p : Port) (s : State) : Answer := onClock s t .sys fun s => s.correctedLine t p

/-! Stitched lines (R168). -/

/-- STITCH_LINE_COMPLETE: a segment line goes to engines, streams and the decimated copy; the patches of a band whose copy is whole are
measured (R168, R187). -/
def State.stitchedLine (s : State) (t : Nat) : State :=
  match s.stitchComplete t with
  | (none, s) => s
  | (some l, s) =>
    let g := l.group
    let (n, i) := s.lineHome l.a
    let s := s.doneLate t 2 n
    let s := (s.tapStitched t n l).strLine 2 g t l.a l.cols
    let (r, s) := s.decStep t g l.a
    let s := if r.isSome then s.tapDec t g n (l.a - i % 4) else s
    (s.measure g n).markAll

/-- STITCH_LINE_COMPLETE (R168). -/
def execStitchLineComplete (t : Tile) (s : State) : Answer := onClock s t .sys fun s => s.stitchedLine t

/-! The warp and segmentation (R197, R220). -/

/-- ΔE and the warped reference of a line go to the streams: excluded pixels give 0 (R350). -/
def State.warpStreams (s : State) (t g : Nat) (bd : Band) (sol : Option (Sol × Int)) : State :=
  (List.range bd.pos.length).foldl (fun s i =>
    let a := bd.line0 + i
    let de := (s.segLine t g bd i sol).px.map fun p => [if p.excl then 0 else p.de * 256]
    let ref := match sol with
      | some (x, low) => (s.warpLine bd.bank t g x low a).map (·.planes)
      | none => List.replicate (s.seg bd.bank t g).2 []
    (s.strLine 3 g t a de).strLine 4 g t a ref) s

/-- Class 4 of a tile's group has moved on from band `lo` to band `hi`: with CLS_EN = 0 class 5 goes with it, and slots may fill (R220,
R224). `done`: the bands have been completed, and not missed. -/
def State.segEnd (s : State) (t g lo hi : Nat) (done : Bool) : State :=
  (List.range (hi - lo)).foldl (fun s i =>
    let n := lo + i
    match s.band n with
    | none => s
    | some bd =>
      if bd.pos.isEmpty then s
      else
        let s := if done then s.doneLate t 4 n else s
        let s := if s.segOn bd.bank t g && s.rdB bd.bank t (SEG_GRP_CFG_CLS_EN g) == 0 then s.classDone t g n else s
        s.slotFill t n) s

/-- A band goes through the warp and segmentation of a tile's group (R197, R220). -/
def State.warpBand (s : State) (t g : Nat) (bd : Band) : State :=
  let from_ := (s.segOf t g).done4
  let s :=
    if s.segOn bd.bank t g then
      let sol := if s.segBad bd.bank t g then none else s.segSol t g bd
      let s := match sol with
        | some (_, low) => s.winStore bd.bank t g low
        | none => s
      let s := s.warpStreams t g bd sol
      s.segBand t g bd
    else s
  let s := s.updRef fun x => { x with warpNext := smSet 0 (t * 8 + g) (bd.n + 1) x.warpNext }
  let s := (s.freeRing t g).tapDescs t g
  (s.segEnd t g from_ (s.segOf t g).done4 true).markTile t

/-- WARP_START: the warp of the next band starts (R197). -/
def State.warpStart (s : State) (t g : Nat) : State :=
  match s.nextWarp t g with
  | none => s
  | some bd => s.warpBand t g bd

/-- WARP_START (R197). -/
def execWarpStart (t : Tile) (g : Group) (s : State) : Answer := whenEv s (s.fit t && s.locked t .sys && s.warpReady t g) fun s => s.warpStart t g

end Sys2Proof.Machine
end

