-- ==== Sys2Proof/Machine/Deadline.lean ====
section
/-! DEFINITION. The deadline logic (R57 to R59, R61, R171, R219, R225, R241, R244, R261): which stage instances a tile has, when they are done
with a band, and what a missed deadline does. -/

namespace Sys2Proof.Machine

/-- The key of an instance's deadline pointer; the solve of a group has one for the part. -/
def dueKey (t : Nat) (i : StageInst) : Nat :=
  match i with
  | .stats p u => t * 128 + p.val * 4 + u.val
  | .stitch g => t * 128 + 8 + g.val
  | .solve g => 16 + g.val
  | .seg g => t * 128 + 24 + g.val
  | .engines k => t * 128 + 32 + k.val
  | .collector => 64

/-- The deadline class of an instance (R57). -/
def State.classOf (s : State) (b t : Nat) (i : StageInst) : Nat :=
  match i with
  | .stats _ _ => 1
  | .stitch _ => 2
  | .solve _ => 3
  | .seg _ => 4
  | .engines k => s.instClass b t k
  | .collector => 6

/-- Registration solves a group (R187). -/
def State.solves (s : State) (b g : Nat) : Bool := s.refOn b g && s.rdB b 0 (REF_GRP_CFG_PATCHES g) != 0

/-- The fixed logic that R57 places in an engine instance's class, on its tile and for its group (R241). -/
def State.fixedOf (s : State) (b t i : Nat) : Option StageInst :=
  let g : Group := Fin.ofNat 8 (s.instGroup b t i)
  if s.instBad b t i then none else
  match s.instClass b t i with
  | 2 => if s.hasSeg b t g then some (.stitch g) else none
  | 3 => if s.solves b g && s.rdB b 0 (REF_GRP_CFG_SOLVE_TILE g) == t then some (.solve g) else none
  | 4 => if s.segOn b t g then some (.seg g) else none
  | 6 => if t = 0 then some .collector else none
  | _ => none

/-- The tile has the instance in bank `b`. An engine instance whose class has fixed logic is that logic's. -/
def State.instOn (s : State) (b t : Nat) (i : StageInst) : Bool :=
  match i with
  | .stats p u => s.rdB b t (ING_PORT_SUB_CFG_EN p u) != 0 && s.rdB b t (EXP_PORT_SUB_STAT_CTRL p u) % 4 != 0
  | .stitch g => s.hasSeg b t g
  | .solve g => s.solves b g && s.rdB b 0 (REF_GRP_CFG_SOLVE_TILE g) == t
  | .seg g => s.segOn b t g
  | .engines k => s.instUsed b t k && (s.fixedOf b t k).isNone
  | .collector => t == 0

/-- The engine instances of a stage instance. -/
def State.partsOf (s : State) (b t : Nat) (i : StageInst) : List Nat :=
  match i with
  | .engines k => [k.val]
  | _ => (List.range 32).filter fun k => s.instUsed b t k && s.fixedOf b t k == some i

/-- The fixed logic of an instance is done with a band. -/
def State.fixedDone (s : State) (t : Nat) (i : StageInst) (bd : Band) : Bool :=
  match i with
  | .stats p u => !s.path.stats.any fun x => x.sub == t * 8 + p.val * 4 + u.val && x.n == bd.n && !x.complete
  | .stitch g => s.stitchWhole t g bd.n
  | .solve g => s.solSettled g bd
  | .seg g => s.done4 t g bd.n
  | .engines k => !s.instBad bd.bank t k
  | .collector => decide (bd.n < s.sgm.band)

/-! Loss of lock (R42; log 199). -/

/-- Packets between two tiles pass through tile `a`. -/
def State.passes (s : State) (a t u : Nat) : Bool := t != u && (t == a || u == a || (s.id.path 8 t u).any (·.1 == a))

/-- The instance that does the work of engine instance `k`. -/
def State.workOf (s : State) (b t k : Nat) : StageInst := (s.fixedOf b t k).getD (.engines (Fin.ofNat 32 k))

/-- The instances, with their tiles, that the domains of a PLL of tile `t` work for: engines for CORE; for SYS the pipelines, with the
stitching of the groups the tile feeds, and cluster memory; for D2D the links, with the stitching that imports over them and the collector. -/
def State.pllInsts (s : State) (b t : Nat) (p : Pll) : List (Nat × StageInst) :=
  let gs : List Group := (List.range 8).map (Fin.ofNat 8)
  let ks := ((List.range 32).filter (s.instUsed b t)).map fun k => (t, s.workOf b t k)
  let feeds (u : Nat) (g : Group) := s.tileMask b u g != 0
  match p with
  | .core => ks
  | .sys =>
    ks ++ ([0, 1].flatMap fun q => [0, 1, 2, 3].map fun u => (t, StageInst.stats (Fin.ofNat 2 q) (Fin.ofNat 4 u))) ++
      gs.flatMap (fun g => [(t, .solve g), (t, .seg g)] ++ ((s.tiles.filter fun u => u == t || feeds t g).map fun u => (u, .stitch g))) ++
      (if t = 0 then [(0, .collector)] else [])
  | .d2d =>
    (gs.flatMap fun g => (s.tiles.filter fun u => s.tiles.any fun v => feeds v g && s.passes t v u).map fun u => (u, .stitch g)) ++
      (if s.tiles.any fun v => s.passes t v 0 then [(0, .collector)] else [])
  | _ => []

/-- A loss of lock has ended the instance's work for a band: it was at work on it, or the band has started while lock was absent (R42). -/
def State.lostLock (s : State) (t : Nat) (i : StageInst) (bd : Band) : Bool :=
  s.clk.stopped.contains (dueKey t i, bd.n) ||
    s.clk.outages.any fun o => decide (o.first ≤ bd.n) && o.last.all (fun m => decide (bd.n ≤ m)) && (s.pllInsts bd.bank o.tile o.pll).contains (t, i)

/-- A stage instance is done with a band (R241). -/
def State.stageDone (s : State) (t : Nat) (i : StageInst) (bd : Band) : Bool :=
  !s.lostLock t i bd && s.fixedDone t i bd && (s.partsOf bd.bank t i).all fun k => s.instDone bd.bank t k bd.n

/-- The bands whose deadline has come and has not been dealt with: an instance of the inspection path checks no band that has been
released (R58, R60). In the cycle of the deadline's own tick a completion still wins (R61): the miss is settled in the next (log 221). -/
def State.dueBands (s : State) (t : Nat) (i : StageInst) : List Band :=
  s.clk.bands.reverse.filter fun b =>
    let k := s.classOf b.bank t i
    !b.pos.isEmpty && s.instOn b.bank t i && decide (smGet 0 (dueKey t i) s.eng.due ≤ b.n) && decide (b.n + s.depth b.bank k + bitN s.inTickCycle ≤ s.bandIndex) &&
      (k == 1 || k == 7 || decide (s.clk.nextRelease ≤ b.n))

/-- The oldest band that the instance has missed. -/
def State.missedBand (s : State) (t : Nat) (i : StageInst) : Option Band := (s.dueBands t i).find? fun b => !s.stageDone t i b

/-- The token of an engine instance alone: of a broken one the reason is ENG_LATE with its CLASS as STAGE (R62, R261). -/
def State.instToken (s : State) (t k n : Nat) : Token :=
  let b := s.bankOf n
  let c := s.instClass b t k
  let g := s.instGroup b t k
  let reason := if c = 6 ∧ ¬ s.instBad b t k then 0x06 else 0x01
  if s.rdB b t (ENG_INST_CFG_FULL k) = 0 then s.tileToken reason c n t g else s.fullToken reason c n g

/-- Segmentation of a tile's group misses a band (R219). -/
def State.segLate (s : State) (t g : Nat) (bd : Band) : State :=
  let lo := (s.segOf t g).done4
  let miss := !(s.openSpans (s.tileToken 0x01 4 bd.n t g)).isEmpty
  let s := if miss then (s.addSat t (BND_MISS 4) 1).pip t 6 else s
  let s := (s.segMiss t g bd.n).tapDescs t g
  s.segEnd t g (Nat.min lo bd.n) (bd.n + 1) false

/-- Classification misses a band (R219, R224). -/
def State.classLate (s : State) (t k : Nat) (bd : Band) : State :=
  let g := s.instGroup bd.bank t k
  let s := s.missToken t 5 (s.instToken t k bd.n)
  ((s.segDiscard 5 t g bd.n []).classDone t g bd.n).slotFill t bd.n

/-- The collector's engines miss a band that it has served: the band's results are replaced over the full width (R225; log 95). -/
def State.colUnfinished (s : State) (n : Nat) : State :=
  let cs := s.sgm.ready.filter (·.n == n)
  let s := s.updSgm fun x => { x with ready := x.ready.filter (·.n != n) }
  let s := s.colMiss ((s.groups (s.bankOf n)).map fun g => s.fullToken 0x06 6 n g)
  let s := (s.groups (s.bankOf n)).foldl (fun s g =>
    let fs := (cs.filter (·.group == g)).flatMap fun c => (c.kept ++ c.rest).map (·.frag)
    s.backSpans n (s.backFrom n fs) fun m => s.fullToken 0x06 6 m g) s
  s.addSat 0 COL_LATE_BANDS s.id.variant.tiles

/-- What a missed deadline does beside the engines (R58). -/
def State.stageMiss (s : State) (t : Nat) (i : StageInst) (bd : Band) : State :=
  let n := bd.n
  match i with
  | .stats p u =>
    let (gone, rest) := s.path.stats.partition fun x => x.sub == t * 8 + p.val * 4 + u.val && x.n == n && !x.complete
    gone.foldl State.statDrop { s with path := { s.path with stats := rest } }
  | .stitch g =>
    if s.stitchWhole t g n then s.missToken t 2 (s.tileToken 0x01 2 n t g)
    else
      let (late, s) := s.stitchAbort t g n
      let s := if late && !(bd.speed || bd.crc) then (s.addSat t (BND_MISS 2) 1).pip t 6 else s
      ((s.madEnd t g n).fillRows t g n false).measure g n
  | .solve g => s.solveMiss g n
  | .seg g => s.segLate t g bd
  | .engines k =>
    match s.instClass bd.bank t k with
    | 5 => s.classLate t k bd
    | 7 => if s.instBad bd.bank t k then s.missToken t 7 (s.instToken t k n) else (s.addSat t (BND_MISS 7) 1).pip t 6
    | c => s.missToken t c (s.instToken t k n)
  | .collector => if n < s.sgm.band then s.colUnfinished n else s.colDeadline n

/-- DEADLINE_MISS: the oldest band that an instance has missed: its engines abort, and the rest follows by its kind (R58, R244). -/
def State.deadlineMiss (s : State) (t : Nat) (i : StageInst) : State :=
  match s.missedBand t i with
  | none => s
  | some bd =>
    let es := (s.partsOf bd.bank t i).flatMap fun k => s.instEngs bd.bank t k
    let s := s.stageMiss t i bd
    let s := es.foldl (fun s e => s.engMiss t e bd.n) s
    let s := { s with eng := { s.eng with due := smUpd 0 (dueKey t i) (Nat.max (bd.n + 1)) s.eng.due } }
    s.markAll

/-- DEADLINE_MISS (R58). -/
def execDeadlineMiss (t : Tile) (i : StageInst) (s : State) : Answer := onTile s t fun s => s.deadlineMiss t i

end Sys2Proof.Machine
end

