-- ==== Sys2Proof/Machine/Hop.lean ====
section
/-! DEFINITION. Traffic that has waited for a Cerette link: LCP requests and frames between port B and tile 0 (R26, R32), register accesses (R34),
and the end of a retraining. -/

namespace Sys2Proof.Machine

/-- The meaning of an LCP request by its operation (R342, R348). -/
def lcpMeaning (op : Nat) (h : LcpHdr) (payload : Bytes) (s : State) : Answer :=
  match op with
  | 0x01 => execLcpOpen h payload s
  | 0x02 => execLcpClose h payload s
  | 0x03 => execLcpKeepalive h payload s
  | 0x10 => execLcpRead h payload s
  | 0x11 => execLcpWrite h payload s
  | 0x12 => execLcpModify h payload s
  | 0x13 => execLcpReadList h payload s
  | 0x20 => execImageOpen h payload s
  | 0x21 => execImageData h payload s
  | 0x22 => execImageAbort h payload s
  | 0x31 => execLcpNotifyAck h payload s
  | 0x32 => execLcpSubscribe h payload s
  | 0x40 => execLcpEnumerate h payload s
  | 0x41 => execLcpIdentify h payload s
  | 0x43 => execLcpReset h payload s
  | 0x50 => execLcpRef h payload s
  | _ => .next s

/-- The requests that have waited on tile 1 cross in order; one that finds the link out of service again waits on (R26, R32). -/
def State.hopRequests (s : State) : State :=
  s.net.hopIn.foldl (fun s x => (lcpMeaning x.op x.h x.payload s).orElse s) { s with net := { s.net with hopIn := [] } }

/-- The firmware's frames for port B that have waited on tile 0 cross in order (R26, R32). -/
def State.hopFrames (s : State) : State :=
  s.net.hopOut.foldl (fun s (a, f) => (s.crossed 0 1).fwPut a.1 a.2 f) { s with net := { s.net with hopOut := [] } }

/-- What waits for a link goes on where its way is open now: frames, requests of port B, register accesses (R26, R32, R34). -/
def State.linkResume (s : State) : State :=
  let s := if s.open_ 0 1 1 then s.hopFrames else s
  let s := if s.open_ 1 0 1 then s.hopRequests else s
  s.lcpDrain (s.net.waiting.length + 1)

/-- RETRAIN_COMPLETE (R32, R34): a link that retrains comes up or fails again. -/
def execRetrainComplete (t : Tile) (l : Link) (up : Bool) (s : State) : Answer :=
  whenEv s (s.fit t && s.id.bonded t l && s.is t (D2D_L_STATUS_TRAINING l) && s.locked t .d2d) fun s => (s.retrainEnd t l up).linkResume

end Sys2Proof.Machine
end

