-- ==== Sys2Proof/Machine/Clocks.lean ====
section
/-! DEFINITION. PLLs (R41, R42, R44) and the idle timeout of the band clock (R56, R61). -/

namespace Sys2Proof.Machine

/-! PLLs. -/

/-- The first band that starts from now on. -/
def State.upcoming (s : State) : Nat := if s.clk.ticked then s.bandIndex + 1 else 0

/-- What the domains of a PLL are at work on, as instance and band, ends without a result; bands that start until it locks again follow
(R42; log 199). -/
def State.pllStop (s : State) (t : Nat) (p : Pll) : State :=
  let l := s.clk.bands.flatMap fun b =>
    if b.pos.isEmpty then []
    else ((s.pllInsts b.bank t p).filter fun (u, i) =>
      s.instOn b.bank u i && decide (smGet 0 (dueKey u i) s.eng.due ≤ b.n) && !s.stageDone u i b).map fun (u, i) => (dueKey u i, b.n)
  { s with clk := { s.clk with stopped := s.clk.stopped ++ l, outages := s.clk.outages ++ [⟨t, p, s.upcoming, none⟩] } }

/-- The PLL locks again: bands that start later are worked on. -/
def State.pllResume (s : State) (t : Nat) (p : Pll) : State :=
  let n := s.upcoming
  { s with clk := { s.clk with outages := s.clk.outages.filterMap fun o =>
      if o.tile = t ∧ o.pll = p ∧ o.last.isNone then (if o.first < n then some { o with last := some (n - 1) } else none) else some o } }

/-- The PLL, or REFC, loses lock (R42, R44); READY follows. -/
def State.pllLoss (s : State) (t : Nat) (p : Pll) : State :=
  let k := pllBit p
  let s := s.wr t CLK_LOCK (withBits (s.rd t CLK_LOCK) k k 0)
  let s := s.setBits t CLK_LOSS_LOST (2 ^ k)
  (s.setIf (p != .refc) t SYS_ERR_PLL_LOSS).readyUpdate

/-- PLL_LOSS (R42): lock can be lost from CLOCK on, where the PLLs are locked (R464). -/
def execPllLoss (t : Tile) (p : Pll) (s : State) : Answer :=
  always s (if (s.pwr.phase == .clock || s.live) && s.pllFit t p && s.locked t p then (s.pllLoss t p).pllStop t p else s)

/-- A PLL locks (R42, R44); it does so with REFC toggling. -/
def State.pllLock (s : State) (t : Nat) (p : Pll) : State :=
  (((s.wr t CLK_LOCK (s.rd t CLK_LOCK ||| 2 ^ pllBit p)).setF t CLK_LOCK_REFC_PRESENT).pllResume t p).readyUpdate

/-- PLL_LOCK: PLLs lock from CLOCK on (R42, R464). What has waited for its clocks goes on. -/
def execPllLock (t : Tile) (p : Pll) (s : State) : Answer :=
  always s (if (s.pwr.phase == .clock || s.live) && s.pllFit t p then
    let s := s.pllLock t p
    if s.live then s.linkResume else s
  else s)

/-! The idle timeout (R56, R61). -/

/-- What the commands of the present cycle that can bring a source tick make of the state; those of other rows bring none. -/
def tickOf (c : Instr) (s : State) : State :=
  match c with
  | .encoderEdge c a b ha hb odd => (execEncoderEdge c a b ha hb odd s).orElse s
  | .tbScheduleTick => (execTbScheduleTick s).orElse s
  | .heldTickRelease => (execHeldTickRelease s).orElse s
  | .linePacket t p rx => (execLinePacket t p rx s).orElse s
  | .ackPacket t p rx => (execAckPacket t p rx s).orElse s
  | _ => s

/-- A line tick is accepted in the present cycle: it has been, or a command that waits and so falls in this cycle brings it. -/
def State.tickNow (s : State) : Bool :=
  s.clk.lineTb0 == some s.tim.tb0 || (s.pending.foldl (fun s c => tickOf c s) s).clk.lineTb0 == some s.tim.tb0

/-- IDLE_TIMEOUT: no line tick for BND_IDLE_TIMEOUT; a line tick of the same cycle wins (R56, R61). -/
def execIdleTimeout (s : State) : Answer := whenEv s (s.is 0 BND_STATUS_TICKING && !s.tickNow) State.idleTimeout

end Sys2Proof.Machine
end

