-- ==== Sys2Proof/Machine/Fabric.lean ====
section
/-! DEFINITION. The event fabric (R360 to R373) and what one EVTC cycle of 2 ns does: the time bases advance, and pips take one hop. -/

namespace Sys2Proof.Machine

/-- The number of the present EVTC cycle. -/
def State.cycleNo (s : State) : Nat := s.tim.tb0 / 2

/-! Channels (R363 to R366). -/

/-- The gate level of a channel (R364). -/
def State.gateLevel (s : State) (t gate : Nat) : Bool :=
  match gate with
  | 0 => true
  | 1 => s.is 0 BND_STATUS_RUNNING
  | 2 => s.is 0 BND_STATUS_TICKING
  | 3 => s.is 0 POS_STATUS_MOVING
  | 4 => s.is 0 POS_STATUS_REVERSE
  | 5 => s.is 0 SYS_STATUS_READY
  | 6 => s.rd 0 CFG_STATUS_SHADOW == 4
  | 7 => decide (s.rd 0 TIM_STATUS_SEL ≤ 1)
  | g => (s.rd t EVT_SW_LEVEL).testBit (g - 8)

/-- A field of a word. -/
def Fld.of (f : Fld) (w : Nat) : Nat := bitsOf w f.hi f.lo

/-- Bit `n` of a row of registers as a hop of this cycle uses them; `f` gives register `w` of the row. -/
def State.evtBit (s : State) (t : Nat) (f : Nat → Fld) (n : Nat) : Bool := (s.evtWord t (f (n / 32))).testBit (n % 32)

/-- A flag of a row of W1C words. -/
def State.evtFlag (s : State) (t : Nat) (f : Fld) (n : Nat) : State := s.setBits t f (2 ^ (n % 32))

/-- The low or the high word of a pair of independent flag words. -/
def loHi (lo hi : Fld) (c : Nat) : Fld := if c < 32 then lo else hi

/-- Local channel `c` of a tile in cycle `k`, one of whose sources has pipped in the cycle before (R363 to R365). -/
def State.channel (s : State) (old : State) (k t c : Nat) (outs : List TileNo) : List TileNo × State :=
  let cfg := old.evtWord t (EVT_CH_CFG c)
  let on := s.gateLevel t ((EVT_CH_CFG_GATE c).of cfg) != ((EVT_CH_CFG_GATE_INV c).of cfg != 0)
  if !on then (outs, s)
  else
    let last := smGet 0 (t * 64 + c) s.fab.last
    if last ≠ 0 ∧ k < last - 1 + (EVT_CH_CFG_MINGAP c).of cfg then (outs, s.evtFlag t (loHi EVT_LIMITED_LO EVT_LIMITED_HI c) c)
    else
      let s := { s with fab := { s.fab with last := smSet 0 (t * 64 + c) (k + 1) s.fab.last } }
      let s := (s.evtFlag t (loHi EVT_FLAG_LO EVT_FLAG_HI c) c).addWrap t (EVT_CH_COUNT c) 1
      (outs ++ [(t, c)], if t = 0 then s.trigSource 4 c else s)

/-- The channel outputs of cycle `k` from the source pips of the cycle before. -/
def State.channels (s old : State) (k : Nat) : List TileNo × State :=
  old.tiles.foldl (fun acc t =>
    let srcs := (old.fab.pips.filter (·.1 == t)).map (·.2)
    if srcs.isEmpty then acc
    else (List.range 64).foldl (fun (o, s) c =>
      if srcs.any fun n => old.evtBit t (EVT_CH_SRC c) n then s.channel old k t c o else (o, s)) acc) ([], s)

/-- The hop count that the largest distance of the part has (R366). -/
def Variant.span : Variant → Nat
  | .lyn820 => 1
  | .lyn840 => 2
  | .lyn880 => 3

/-- Global channel outputs to come from the channel outputs of the cycle before `k`: the cycle, the tile and the channel (R366). -/
def State.globals (old : State) (k : Nat) : List (Nat × TileNo) :=
  old.fab.outs.foldl (fun l (t, c) =>
    let gs := (List.range 32).filter fun g => old.evtBit t (fun w => if w = 0 then EVT_GCH_SRC_0 g else EVT_GCH_SRC_1 g) c
    gs.foldl (fun l g => old.tiles.foldl (fun l u =>
      let h := if old.is 0 EVT_CTRL_GALIGN then old.id.variant.span else old.id.hops t u
      let x := (k + 2 * h, u, g)
      if l.contains x then l else l ++ [x]) l) l) old.fab.globs

/-! Consumers (R362, R367, R368, R370). -/

/-- A gain swap request would be ignored (R124). -/
def State.gainBusy (s : State) (t p u : Nat) : Bool :=
  let x := s.sub (t * 8 + p * 4 + u)
  !(x.fade.isNone && x.fadeDue.isNone && !s.is t (COR_PORT_SUB_GAIN_CTRL_QUEUED p u)) && s.is t (COR_PORT_SUB_GAIN_CTRL_PENDING p u)

/-- The due cycle of the pip that a relay holds. -/
def State.relayDue (s : State) (t k : Nat) : Option Nat := (s.fab.relays.find? fun x => x.2 == (t, k)).map (·.1)

/-- The source of a relay pips and the relay is free (R367). -/
def State.relayPip (s : State) (t k : Nat) : State :=
  ({ s with fab := { s.fab with relays := s.fab.relays.filter fun x => x.2 != (t, k) } }).pip t (240 + k)

/-- A consumer is busy in cycle `k` (R362). A relay that raises its source in the cycle is not (R373). -/
def State.busy (s : State) (k t n : Nat) : Bool :=
  if n < 32 then s.dmaRunning t n
  else if n < 64 then s.clusterBusy t ((n - 32) / 4) ((n - 32) % 4)
  else if 96 ≤ n ∧ n < 112 then s.is t (FIR_CH_STATUS_SWAP_PENDING (n - 96))
  else if 112 ≤ n ∧ n < 120 then s.gainBusy t ((n - 112) / 4) ((n - 112) % 4)
  else if 128 ≤ n ∧ n < 160 then s.is t (EVT_CAP_STATUS_VALID (n - 128))
  else if 176 ≤ n then (s.relayDue t (n - 176)).any fun d => decide (k < d)
  else false

/-- A capture that is not VALID takes the time (R368). -/
def State.capture (s : State) (t n : Nat) : State :=
  if s.is t (EVT_CAP_STATUS_VALID n) then s
  else ((s.wr64 t (EVT_CAP_TB0_LO n) s.tim.tb0).setF t (EVT_CAP_STATUS_VALID n)).addWrap t (EVT_CAP_COUNT n) 1

/-- A relay takes a pip in cycle `k`, a raise of the same cycle first (R367, R373). -/
def State.relayTake (s : State) (k t n : Nat) : State :=
  let due := s.relayDue t n
  if due.any fun d => decide (k < d) then s
  else
    let s := if due.isSome then s.relayPip t n else s
    { s with fab := { s.fab with relays := s.fab.relays ++ [(k + 1 + s.rd t (EVT_RELAY_DELAY n), t, n)] } }

/-- What consumer `n` of a tile does on a pip (R362). -/
def State.consumerAct (s : State) (k t n : Nat) : State :=
  if n < 32 then s.dmaPip t n
  else if n < 64 then s.clusterPip t ((n - 32) / 4) ((n - 32) % 4)
  else if n < 80 then (if t = 0 then s.cmpRestart (n - 64) else s)
  else if n < 96 then s.firSync t (n - 80)
  else if n < 112 then s.firSwap t (n - 96)
  else if n < 120 then s.gainSwap t ((n - 112) / 4) ((n - 112) % 4)
  else if n < 122 then s.commitSet t (n - 120)
  else if n = 122 then (if t = 0 then s.closeShort else s)
  else if 128 ≤ n ∧ n < 160 then s.capture t (n - 128)
  else if 176 ≤ n then s.relayTake k t (n - 176)
  else s

/-- `m` pips reach one consumer in cycle `k`: they make one, and EVT_OVR shows that they were several or that the consumer was busy; an engine
input shows it in PIPOVR (R257, R370). -/
def State.consumer (s : State) (k t n m : Nat) : State :=
  let many := decide (1 < m)
  let s := if many || s.busy k t n then s.evtFlag t (EVT_OVR (n / 32)) n else s
  let s := if many && decide (32 ≤ n) && decide (n < 64) then
      (List.range 16).foldl (fun s i =>
        let e := (n - 32) / 4 * 16 + i
        s.setBits t (ENG_E_DBG_PIPOVR e) (2 ^ ((n - 32) % 4))) s
    else s
  s.consumerAct k t n

/-- The pips that reach the consumers of a tile in cycle `k`: from its channels' outputs and from the global outputs of the cycle before. -/
def State.hits (old : State) (k t : Nat) : List Nat :=
  let ls := (old.fab.outs.filter (·.1 == t)).map fun (_, c) => EVT_CH_CON c
  let gs := (old.fab.globs.filter fun x => x.1 + 1 == k && x.2.1 == t).map fun x => EVT_GCH_CON x.2.2
  (ls ++ gs).flatMap fun f => (List.range 192).filter fun n => old.evtBit t f n

/-- The consumers of every tile act in cycle `k`. -/
def State.consumers (s old : State) (k : Nat) : State :=
  old.tiles.foldl (fun s t =>
    let l := old.hits k t
    if l.isEmpty then s
    else (List.range 192).foldl (fun s n => if l.contains n then s.consumer k t n (l.count n) else s) s) s

/-! One cycle (R311, R360). -/

/-- What a time base gains in a cycle of 2 ns, in 2⁻³² ns (R311; log 91). -/
def State.gain (s : State) (k : Nat) : Nat := (2 ^ 33 + roundDiv (sInt 32 (s.rd 0 (TIM_TB_RATE k))) 128).toNat

/-- The time bases advance; TB1 may pass a whole second (R311, R361). -/
def State.advance (s : State) : State :=
  let t := { s with tim := { s.tim with
      tb0 := s.tim.tb0 + 2, tb1 := tbWrap (s.tim.tb1 + s.gain 1), tb2 := tbWrap (s.tim.tb2 + s.gain 2), tb3 := tbWrap (s.tim.tb3 + s.gain 3) } }
  { t with tim := { t.tim with second := t.base 1 / 1000000000 != s.base 1 / 1000000000 } }

/-- A cycle of TB0 begins with the registers as they stand (R16). -/
def State.newCycle (s : State) : State := { s with cyc := .from_ s.regs }

/-- Requests of port B that came behind those of port A in this cycle cross now (R40, R355). -/
def State.hopLate (s : State) : State := if s.open_ 1 0 1 then s.hopRequests else s

/-- The present EVTC cycle ends with requests of port B and sessions that have waited for it, with what arrives at the engines' ports and leaves
them, with the choice of the selected time and with the notification of READY, and the next one begins: the time bases advance, pips take one hop, an image that waits for a fade goes on, and the back channels send the characters that are
due. -/
def State.cycle (s : State) : State :=
  let s := s.hopLate.sessExpire.arrivals.outputs.dmaBeats.choose.readyNotice
  let k := s.cycleNo + 1
  let t := s.advance
  let (outs, t) := t.channels s k
  let globs := s.globals k
  let t := { t with fab := { t.fab with pips := s.fab.soon.eraseDups, soon := [], outs := outs, globs := globs.filter fun x => decide (k ≤ x.1), old := [] } }
  let t := (globs.filter (·.1 == k)).foldl (fun t x => t.evtFlag x.2.1 EVT_GFLAG x.2.2) t
  (t.consumers s k).loadResume.inputTimes.bcTick.newCycle

/-- The clocks run: the part is out of reset and the AUX PLL of tile 0, which gives EVTC and TSUC, is locked. -/
def State.clocked (s : State) : Bool := s.live && s.is 0 CLK_LOCK_AUX

/-- One EVTC cycle on an empty queue; nothing while the clocks stand (log 4). -/
def idle (s : State) : Answer := finish s (if s.clocked then s.cycle else s)

/-- RELAY_RAISE: the delay of a relay's pip has passed, and its source pips (R367). -/
def execRelayRaise (t : Tile) (k : Fin 16) (s : State) : Answer :=
  whenEv s (s.locked t .aux && s.fit t && (s.relayDue t k).any fun d => decide (d ≤ s.cycleNo)) fun s => s.relayPip t k

end Sys2Proof.Machine
end

