-- ==== Sys2Proof/Machine/Release.lean ====
section
/-! DEFINITION. The release of a band's results (R60, R63, R68 to R70, R203, R228, R264, R267, R283). -/

namespace Sys2Proof.Machine

/-- The oldest band not released, where its release tick has come (R60, R267). -/
def State.releaseDue (s : State) : Option Band :=
  match s.band s.clk.nextRelease with
  | some b => if s.clk.ticked && decide (s.releaseTick b.n ≤ s.bandIndex) then some b else none
  | none => none

/-- The release that a record belongs to: its band tick and that tick's TB1 time (R349). -/
def State.relOf (s : State) (n : Nat) : Nat × Nat :=
  let k := s.releaseTick n
  (k, ((s.band k).map (·.tb1)).getD s.tb1)

/-- The ledger has every line of the crossover span of a band in its lists (R283). -/
def State.xoverLast (s : State) (b : Band) : State := { s with led := { s.led with tokens := s.led.tokens ++ s.xoverTokens b } }

/-- Blind records, registration records, then defect and saturated records; a part that RETURN is clearing forms none (R68, R203, R228,
R453). -/
def State.recordsOf (s : State) (b : Band) : State :=
  if s.lcs.returning then { s with led := { s.led with tokens := s.led.tokens.filter (·.band != b.n) } }
  else
    let rel := some (s.relOf b.n)
    ((s.ledgerRelease b rel).refRelease b rel).colRelease b rel

/-- Groups that learn take in the band's lines (R199). -/
def State.learnLast (s : State) (b : Band) : State :=
  (s.groups b.bank).foldl (fun s g => s.learnRelease b g) s

/-- Band m − 1 has been released after the swap at m: the retired bank is FREE and the job totals move (R70, R267). -/
def State.retire (s : State) (n : Nat) : State :=
  match s.retiring with
  | some m => if n + 1 = m then s.freeBank else s
  | none => s

/-- The release of a band (R60). -/
def State.releaseBand (s : State) (b : Band) : State :=
  let ns := Nat.min (s.tim.tb0 - b.tb0) 0xFFFFFFFF
  let s := ((s.xoverLast b).learnLast b).recordsOf b
  let s := s.wr 0 BND_LATENCY_NS ns
  let s := { s with clk := { s.clk with nextRelease := b.n + 1 } }
  ((s.retire b.n).stitchPrune (b.n + 1)).readyUpdate

/-- RELEASE (R60). -/
def State.release (s : State) : State :=
  match s.releaseDue with
  | some b => s.releaseBand b
  | none => s

/-- RELEASE (R60). -/
def execRelease (s : State) : Answer := finish s s.release

end Sys2Proof.Machine
end

