-- ==== Sys2Proof/Machine/Swap.lean ====
section
/-! DEFINITION. The job swap (R264, R280 to R283, R286): what changes at its band tick. -/

namespace Sys2Proof.Machine

/-! AT_SWAP records (R282). -/

/-- What band tick `m` has handed over and not yet carried out is asked for again: the AT_SWAP records come before it. -/
def State.unlatch (s : State) (m : Nat) : State :=
  s.eachTile fun t s =>
    let s := [0, 1].foldl (fun s p =>
      match (s.exp t p).due with
      | some (x, n, loop) =>
        if n ≠ m then s
        else if loop then s.updExp t p fun e => { e with due := none, loop := some x }
        else (s.updExp t p fun e => { e with due := none }).wr t (EXP_PORT_SET_CTRL_PENDING p) 1
      | none => s) s
    match (s.sti.due.find? (·.1 == t)).map (·.2) with
    | some d =>
      let s := s.updSti fun x => { x with due := smErase t x.due, reg := d.reg ++ x.reg }
      if d.soft.isSome then s.wr t STI_TRIM_CTRL_PENDING 1 else s
    | none => s

/-- The reset word of the register that a key names. -/
def keyReset (k : Nat) : Word := BitVec.ofNat 32 (resetWord (k / 2 ^ 30 % 128) (k % 2 ^ 30))

/-- Registers written by an image at the start of a cycle, and what the cycle has made of them since: `old` stood at its start, `img` has the
image's writes, `now` is what the cycle has come to, and `soft` are the bits that software has written in it (R282, R286). -/
def laterWrites (old now img : List (Nat × Word)) (soft : List (Nat × Nat)) : List (Nat × Word) :=
  ((now ++ old).map (·.1) ++ soft.map (·.1)).foldl (fun acc k =>
    let d := keyReset k
    let m := BitVec.ofNat 32 (smGet 0 k soft) ||| (smGet d k now ^^^ smGet d k old)
    smSet d k ((smGet d k now &&& m) ||| (smGet d k img &&& ~~~m)) acc) img

/-- The writes of the AT_SWAP records in order, as if in the cycle before the tick, before any write of the present cycle (R282, R286). -/
def State.atSwapWrites (s : State) (l : List (Nat × Nat)) : State :=
  let b := { s.began with clk := { s.clk with tickTb0 := none } }
  let b := l.foldl (fun s (a, v) => (s.busWrite .image a v).1) b
  { b with
    regs := laterWrites s.cyc.regs s.regs b.regs s.cyc.soft
    cyc := { s.cyc with regs := b.regs }
    clk := { b.clk with tickTb0 := s.clk.tickTb0 } }

/-- The AT_SWAP records take part in every hand-over of band tick `m`. -/
def State.atSwap (s : State) (m : Nat) (l : List (Nat × Nat)) : State :=
  if l.isEmpty then s else (((s.unlatch m).atSwapWrites l).handOvers m false).fades

/-! The banks change (R264, R280). -/

/-- SHADOW becomes the structure of the newest band; the job numbers follow. -/
def State.flip (s : State) : State :=
  let a := s.rd 0 CFG_ACTIVE_JOB
  let b := s.rd 0 CFG_SHADOW_JOB
  let s := (({ s with bank := s.shadow }.wr 0 CFG_ACTIVE_JOB b).wr 0 CFG_SHADOW_JOB a).addWrap 0 CFG_SWAPS 1
  s.updCfg fun c => { c with load := none, uncond := false, immediate := false }

/-- Bands from `m` on belong to the new job (R55). -/
def State.bandsOf (s : State) (m : Nat) : State :=
  let size := bandLines (s.rd 0 BND_BAND_SIZE_B)
  { s with clk := { s.clk with bands := s.clk.bands.map fun b =>
      if m ≤ b.n then { b with bank := s.bank, job := s.rd 0 CFG_ACTIVE_JOB, size := size } else b } }

/-! The line path (R113, R126, R170, R282). Old values are those of band m − 1. -/

/-- A register of the old bank and of the new one differ. -/
def State.changed (s : State) (t : Nat) (f : Fld) : Bool := s.rdB s.shadow t f != s.rdB s.bank t f

/-- A sub-stream at a swap: its E where it becomes mapped, and its histories where they begin anew, from line `l`. -/
def State.subSwap (s : State) (l t p u : Nat) : State :=
  let sub := t * 8 + p * 4 + u
  let en := ING_PORT_SUB_CFG_EN p u
  let new := s.rdB s.shadow t en == 0
  if s.rd t en = 0 then s
  else
    let width := s.changed t (ING_PORT_SUB_CFG_WIDTH p u)
    let size (b : Nat) := s.inBank b fun s => s.lbufSize 0 t p u
    let s := if new then s.wr64 t (ING_PORT_SUB_EXPECT_LO p u) l else s
    let s := if new || width || s.changed t (COR_PORT_SUB_LBUF_BASE p u) || size s.shadow != size s.bank then
        s.updSub sub fun x => { x with since := l }
      else s
    if new || width || s.changed t (STI_SUB_HIST_BASE (sub % 8)) || s.changed t (STI_SUB_HIST_SLOTS (sub % 8)) then
      s.updSti fun x => { x with src := smUpd ⟨0, []⟩ sub (fun h => { h with since := l }) x.src }
    else s

/-- A group on a tile that it did not have a segment on: stitching and segmentation begin at band `m`, line `l`. -/
def State.groupSwap (s : State) (m l t g : Nat) : State :=
  if s.hasSeg s.bank t g && !s.hasSeg s.shadow t g then
    let s := s.updSti fun x => { x with next := smSet 0 (t * 8 + g) l x.next }
    let s := s.updRef fun x => { x with warpNext := smSet 0 (t * 8 + g) m x.warpNext }
    s.updSeg t g fun x => { x with buf := [], next := l, done4 := m }
  else s

/-- An import window that carries something new begins with line `l`. -/
def State.impSwap (s : State) (l t i : Nat) : State :=
  if s.is t (STI_IMP_CFG_EN i) && (s.rdB s.shadow t (STI_IMP_CFG_EN i) == 0 || s.changed t (STI_IMP_CFG_SUB i)) then s.updImp t i fun _ => ⟨l, []⟩
  else s

/-- An engine that becomes assigned takes bands from `m` on; one still in INIT is late (R242, R286). -/
def State.engSwap (s : State) (m t e : Nat) : State :=
  if s.assigned s.bank t e && !s.assigned s.shadow t e then
    let s := s.updEng t e fun x => { x with floor := m, next := m, done := [], fifo0 := [], fifo1 := [], way0 := [], way1 := [], skip0 := none, skip1 := none }
    s.setIf (!s.is t (ENG_E_STATUS_INIT_DONE e)) t (ENG_E_ERR_INIT_LATE e)
  else s

/-- A tile at a swap. -/
def State.tileSwap (s : State) (m l t : Nat) : State :=
  let s := [0, 1].foldl (fun s p => [0, 1, 2, 3].foldl (fun s u => s.subSwap l t p u) s) s
  let s := (List.range 8).foldl (fun s g => s.groupSwap m l t g) s
  let s := [0, 1, 2, 3].foldl (fun s i => s.impSwap l t i) s
  (List.range 128).foldl (fun s e => s.engSwap m t e) s

/-! Gains (R124, R275, R282). -/

/-- The fade of a sub-stream with a GAIN_NEXT blob is requested. -/
def State.gainJob (s : State) (sub : Nat) : State := s.gainRequest (sub / 8) (sub / 4 % 2) (sub % 4)

/-- A fade that begins with line `l` has the length that the new structure gives. -/
def State.fadeJob (s : State) (l t p u : Nat) : State :=
  let s := s.fadeLatch l t p u
  match (s.sub (t * 8 + p * 4 + u)).fadeDue with
  | some (k, _) =>
    if k = l then s.updSub (t * 8 + p * 4 + u) fun x => { x with fadeDue := some (l, s.rd t (COR_PORT_SUB_CTRL_FADE_LEN p u)) } else s
  | none => s

/-! The swap. -/

/-- What every swap does beside the bands: the units that look at the structure in force, the pip and the notification (R88, R280, R300). -/
def State.swapTail (s : State) (gains : List Nat) (boot : Bool) : State :=
  let s := gains.foldl (fun s sub => s.gainJob sub) s
  let s := (List.range 16).foldl (fun s u => s.cmpCheck u) s.absentAll
  let s := (s.setIf boot 0 PWR_BOOT_IMAGE_OK).pip 0 4
  s.notify 0x0005 (s.rd64 0 CFG_SWAP_BAND_LO % 2 ^ 32) (s.rd 0 CFG_SWAP_WEB_LO) (s.rd 0 CFG_SWAP_WEB_HI) (s.rd 0 CFG_ACTIVE_JOB)

/-- The swap at band tick `m`, whose first line is at `w` (R280). At band tick 0 there is no band m − 1 whose release could end RETIRING and move
the job totals, and the spec does not say when they do: they do at once (DESIGN CHOICE, log 200). -/
def State.swapAt (s : State) (m : Nat) (w : Int) (at_ : List (Nat × Nat)) (gains : List Nat) (boot : Bool) : State :=
  let s := s.atSwap m at_
  let l := ((s.band m).map (·.line0)).getD 0
  let s := ({ s.flip with retiring := some m }.setShadow 5).bandsOf m
  let s := (s.wr64 0 CFG_SWAP_BAND_LO m).wr64 0 CFG_SWAP_WEB_LO (uNat 64 w)
  let s := { s with clk := { s.clk with swapDue := none } }
  let s := s.updCfg fun c => { c with swaps := (m, s.swapPos, s.rd 0 CFG_XOVER_BLIND) :: c.swaps }
  let s := s.swapTail gains boot
  let s := s.eachTile fun t s => [0, 1].foldl (fun s p => [0, 1, 2, 3].foldl (fun s u => s.fadeJob l t p u) s) s
  let s := ((s.eachTile fun t s => s.tileSwap m l t).stiCheck s.bank).engCheck s.bank
  let s := ((s.refSwap m).leadSwap m).learnBand m
  (if m = 0 then s.freeBank else s).readyUpdate

/-- The immediate swap: the former ACTIVE is FREE at once (R281). -/
def State.swapNow (s : State) (at_ : List (Nat × Nat)) (gains : List Nat) (boot : Bool) : State :=
  let s := s.atSwapWrites at_
  let s := s.flip.setShadow 0
  let s := ((s.stiCheck s.bank).engCheck s.bank).freeShadowRings.moveJob
  ((s.swapTail gains boot).refSwap 0).readyUpdate

/-- SWAP: an armed swap whose band tick has come, or an immediate one in a cycle after the write, once no drain runs and RUN is 0 (R280, R281). -/
def State.swapDo (s : State) : State :=
  if s.shadowSt ≠ 4 then s
  else
    let at_ := (s.cfg.load.map (·.atSwap)).getD []
    let gains := (s.cfg.load.map (·.gains)).getD []
    let boot := s.cfg.load.any (·.session == 0)
    match s.clk.swapDue with
    | some (m, w) => s.swapAt m w at_ gains boot
    | none =>
      if s.cfg.immediate && s.cfg.armTb0 != some s.tim.tb0 && !s.is 0 BND_STATUS_DRAINING && !s.is 0 BND_CTRL_RUN then s.swapNow at_ gains boot else s

/-- SWAP (R280). -/
def execSwap (s : State) : Answer := finish s s.swapDo

end Sys2Proof.Machine
end

