-- ==== Sys2Proof/Machine/Dispatch.lean ====
section
/-! DEFINITION. Which meaning each command has: one arm per constructor of `Instr`. -/

namespace Sys2Proof.Machine

/-- The command's effect on everything but the queue. -/
def exec (i : Instr) (s : State) : Host.Outcome State Fault Refusal :=
  match i with
  | .registerWrite o a v => Sys2Proof.Machine.execRegisterWrite o a v s
  | .cerettePacket t l pkt => Sys2Proof.Machine.execCerettePacket t l pkt s
  | .retrainComplete t l up => Sys2Proof.Machine.execRetrainComplete t l up s
  | .d2dRetrain t l => Sys2Proof.Machine.execD2dRetrain t l s
  | .remoteAccessTimeout => Sys2Proof.Machine.execRemoteAccessTimeout s
  | .d2dClrCrcErr t l => Sys2Proof.Machine.execD2dClrCrcErr t l s
  | .d2dClrReplay t l => Sys2Proof.Machine.execD2dClrReplay t l s
  | .d2dClrTxFlits t l => Sys2Proof.Machine.execD2dClrTxFlits t l s
  | .pllLoss t p => Sys2Proof.Machine.execPllLoss t p s
  | .pllLock t p => Sys2Proof.Machine.execPllLock t p s
  | .encoderEdge c a b heldA heldB odd => Sys2Proof.Machine.execEncoderEdge c a b heldA heldB odd s
  | .tbScheduleTick => Sys2Proof.Machine.execTbScheduleTick s
  | .heldTickRelease => Sys2Proof.Machine.execHeldTickRelease s
  | .idleTimeout => Sys2Proof.Machine.execIdleTimeout s
  | .drainTick => Sys2Proof.Machine.execDrainTick s
  | .runSet o v => Sys2Proof.Machine.execRunSet o v s
  | .runClear o v => Sys2Proof.Machine.execRunClear o v s
  | .flush => Sys2Proof.Machine.execFlush s
  | .deadlineMiss t inst => Sys2Proof.Machine.execDeadlineMiss t inst s
  | .blindTokenArrival => Sys2Proof.Machine.execBlindTokenArrival s
  | .release => Sys2Proof.Machine.execRelease s
  | .blindRecordSend => Sys2Proof.Machine.execBlindRecordSend s
  | .bndMissClr t clr => Sys2Proof.Machine.execBndMissClr t clr s
  | .portEnable t p => Sys2Proof.Machine.execPortEnable t p s
  | .portDisable t p => Sys2Proof.Machine.execPortDisable t p s
  | .portRetrain t p => Sys2Proof.Machine.execPortRetrain t p s
  | .pstate t p v => Sys2Proof.Machine.execPstate t p v s
  | .lnkTest t p on => Sys2Proof.Machine.execLnkTest t p on s
  | .phaseComplete t p m => Sys2Proof.Machine.execPhaseComplete t p m s
  | .trainingFailure t p m => Sys2Proof.Machine.execTrainingFailure t p m s
  | .backoffExpiry t p => Sys2Proof.Machine.execBackoffExpiry t p s
  | .backoffReset t p => Sys2Proof.Machine.execBackoffReset t p s
  | .lossOfSignal t n => Sys2Proof.Machine.execLossOfSignal t n s
  | .blockLockLoss t n blocks => Sys2Proof.Machine.execBlockLockLoss t n blocks s
  | .alignmentLoss t p => Sys2Proof.Machine.execAlignmentLoss t p s
  | .slipDwell t n => Sys2Proof.Machine.execSlipDwell t n s
  | .slip t n => Sys2Proof.Machine.execSlip t n s
  | .slipManual t n on => Sys2Proof.Machine.execSlipManual t n on s
  | .inject t p => Sys2Proof.Machine.execInject t p s
  | .bcDisable t p v => Sys2Proof.Machine.execBcDisable t p v s
  | .linePacket t p rx => Sys2Proof.Machine.execLinePacket t p rx s
  | .ackPacket t p rx => Sys2Proof.Machine.execAckPacket t p rx s
  | .send t p v => Sys2Proof.Machine.execSend t p v s
  | .cmdTimeout t p => Sys2Proof.Machine.execCmdTimeout t p s
  | .expsetMessage t p => Sys2Proof.Machine.execExpsetMessage t p s
  | .cmdMessage t p => Sys2Proof.Machine.execCmdMessage t p s
  | .lnkLaneClrSyncErr t n => Sys2Proof.Machine.execLnkLaneClrSyncErr t n s
  | .lnkLaneClrPrbs t n => Sys2Proof.Machine.execLnkLaneClrPrbs t n s
  | .lnkPortClrFails t p => Sys2Proof.Machine.execLnkPortClrFails t p s
  | .lnkPortClrDrops t p => Sys2Proof.Machine.execLnkPortClrDrops t p s
  | .fxlClrLines t p => Sys2Proof.Machine.execFxlClrLines t p s
  | .fxlClrCrcErr t p => Sys2Proof.Machine.execFxlClrCrcErr t p s
  | .fxlClrFrameErr t p => Sys2Proof.Machine.execFxlClrFrameErr t p s
  | .fxlClrDiscard t p => Sys2Proof.Machine.execFxlClrDiscard t p s
  | .fxlClrTrig t p => Sys2Proof.Machine.execFxlClrTrig t p s
  | .lineWaitExpiry t p sub => Sys2Proof.Machine.execLineWaitExpiry t p sub s
  | .pipelineTake t p => Sys2Proof.Machine.execPipelineTake t p s
  | .correctedLine t p => Sys2Proof.Machine.execCorrectedLine t p s
  | .linePathDeadline t p => Sys2Proof.Machine.execLinePathDeadline t p s
  | .gainSwap t p sub => Sys2Proof.Machine.execGainSwap t p sub s
  | .fadeStart t p sub => Sys2Proof.Machine.execFadeStart t p sub s
  | .ingClrCounters t p => Sys2Proof.Machine.execIngClrCounters t p s
  | .commit t p => Sys2Proof.Machine.execCommit t p s
  | .expHandOver t p => Sys2Proof.Machine.execExpHandOver t p s
  | .statisticsComplete t p sub => Sys2Proof.Machine.execStatisticsComplete t p sub s
  | .statisticsRelease t => Sys2Proof.Machine.execStatisticsRelease t s
  | .aeDisable t p => Sys2Proof.Machine.execAeDisable t p s
  | .expClrCounters t => Sys2Proof.Machine.execExpClrCounters t s
  | .stitchLineStart t => Sys2Proof.Machine.execStitchLineStart t s
  | .stitchLineComplete t => Sys2Proof.Machine.execStitchLineComplete t s
  | .importedLine t inst => Sys2Proof.Machine.execImportedLine t inst s
  | .importLate t inst => Sys2Proof.Machine.execImportLate t inst s
  | .trimCommit t => Sys2Proof.Machine.execTrimCommit t s
  | .trimHandOver t => Sys2Proof.Machine.execTrimHandOver t s
  | .stiClrCounters t => Sys2Proof.Machine.execStiClrCounters t s
  | .lcpRef h payload => Sys2Proof.Machine.execLcpRef h payload s
  | .stripeStore t => Sys2Proof.Machine.execStripeStore t s
  | .leadCheck g => Sys2Proof.Machine.execLeadCheck g s
  | .solutionItem g => Sys2Proof.Machine.execSolutionItem g s
  | .warpStart t g => Sys2Proof.Machine.execWarpStart t g s
  | .learnStart t g => Sys2Proof.Machine.execLearnStart t g s
  | .learningBegin g => Sys2Proof.Machine.execLearningBegin g s
  | .medianComplete t g => Sys2Proof.Machine.execMedianComplete t g s
  | .learnedEffect g => Sys2Proof.Machine.execLearnedEffect g s
  | .refClrCounters t => Sys2Proof.Machine.execRefClrCounters t s
  | .verdict t g => Sys2Proof.Machine.execVerdict t g s
  | .collectorServe => Sys2Proof.Machine.execCollectorServe s
  | .colRecordSend => Sys2Proof.Machine.execColRecordSend s
  | .markerInsert => Sys2Proof.Machine.execMarkerInsert s
  | .segClrCounters t => Sys2Proof.Machine.execSegClrCounters t s
  | .colClrCounters => Sys2Proof.Machine.execColClrCounters s
  | .initEntry e => Sys2Proof.Machine.execInitEntry e s
  | .bandEntry e => Sys2Proof.Machine.execBandEntry e s
  | .abortHung e => Sys2Proof.Machine.execAbortHung e s
  | .barrierRelease t c => Sys2Proof.Machine.execBarrierRelease t c s
  | .engNop e => Sys2Proof.Machine.execEngNop e s
  | .engAdd e d a b => Sys2Proof.Machine.execEngAdd e d a b s
  | .engSub e d a b => Sys2Proof.Machine.execEngSub e d a b s
  | .engAnd e d a b => Sys2Proof.Machine.execEngAnd e d a b s
  | .engOr e d a b => Sys2Proof.Machine.execEngOr e d a b s
  | .engXor e d a b => Sys2Proof.Machine.execEngXor e d a b s
  | .engShl e d a b => Sys2Proof.Machine.execEngShl e d a b s
  | .engShr e d a b => Sys2Proof.Machine.execEngShr e d a b s
  | .engSra e d a b => Sys2Proof.Machine.execEngSra e d a b s
  | .engMul e d a b => Sys2Proof.Machine.execEngMul e d a b s
  | .engMulh e d a b => Sys2Proof.Machine.execEngMulh e d a b s
  | .engDiv e d a b => Sys2Proof.Machine.execEngDiv e d a b s
  | .engSlt e d a b => Sys2Proof.Machine.execEngSlt e d a b s
  | .engSltu e d a b => Sys2Proof.Machine.execEngSltu e d a b s
  | .engAddi e d a imm => Sys2Proof.Machine.execEngAddi e d a imm s
  | .engAndi e d a imm => Sys2Proof.Machine.execEngAndi e d a imm s
  | .engOri e d a imm => Sys2Proof.Machine.execEngOri e d a imm s
  | .engLui e d imm => Sys2Proof.Machine.execEngLui e d imm s
  | .engBeq e a b imm => Sys2Proof.Machine.execEngBeq e a b imm s
  | .engBne e a b imm => Sys2Proof.Machine.execEngBne e a b imm s
  | .engBlt e a b imm => Sys2Proof.Machine.execEngBlt e a b imm s
  | .engBge e a b imm => Sys2Proof.Machine.execEngBge e a b imm s
  | .engJmp e target => Sys2Proof.Machine.execEngJmp e target s
  | .engJal e target => Sys2Proof.Machine.execEngJal e target s
  | .engJr e a => Sys2Proof.Machine.execEngJr e a s
  | .engBend e port target => Sys2Proof.Machine.execEngBend e port target s
  | .engDone e => Sys2Proof.Machine.execEngDone e s
  | .engLds e d a imm => Sys2Proof.Machine.execEngLds e d a imm s
  | .engSts e d a imm => Sys2Proof.Machine.execEngSts e d a imm s
  | .engLdc e d a imm => Sys2Proof.Machine.execEngLdc e d a imm s
  | .engStc e d a imm => Sys2Proof.Machine.execEngStc e d a imm s
  | .engPip e n => Sys2Proof.Machine.execEngPip e n s
  | .engWaitp e n => Sys2Proof.Machine.execEngWaitp e n s
  | .engBar e => Sys2Proof.Machine.execEngBar e s
  | .engSrds e d b port => Sys2Proof.Machine.execEngSrds e d b port s
  | .engSwrs e a last => Sys2Proof.Machine.execEngSwrs e a last s
  | .engVld e v a imm => Sys2Proof.Machine.execEngVld e v a imm s
  | .engVst e v a imm => Sys2Proof.Machine.execEngVst e v a imm s
  | .engVldc e v a imm => Sys2Proof.Machine.execEngVldc e v a imm s
  | .engVstc e v a imm => Sys2Proof.Machine.execEngVstc e v a imm s
  | .engSrdv e d x => Sys2Proof.Machine.execEngSrdv e d x s
  | .engSwrv e a x => Sys2Proof.Machine.execEngSwrv e a x s
  | .engVadd e d a b x => Sys2Proof.Machine.execEngVadd e d a b x s
  | .engVsub e d a b x => Sys2Proof.Machine.execEngVsub e d a b x s
  | .engVmul e d a b x => Sys2Proof.Machine.execEngVmul e d a b x s
  | .engVmac e d a b x => Sys2Proof.Machine.execEngVmac e d a b x s
  | .engVmin e d a b x => Sys2Proof.Machine.execEngVmin e d a b x s
  | .engVmax e d a b x => Sys2Proof.Machine.execEngVmax e d a b x s
  | .engVabsd e d a b x => Sys2Proof.Machine.execEngVabsd e d a b x s
  | .engVshl e d a x => Sys2Proof.Machine.execEngVshl e d a x s
  | .engVshr e d a x => Sys2Proof.Machine.execEngVshr e d a x s
  | .engVsat e d a x => Sys2Proof.Machine.execEngVsat e d a x s
  | .engVcmp e d a b x => Sys2Proof.Machine.execEngVcmp e d a b x s
  | .engVsel e d a b x => Sys2Proof.Machine.execEngVsel e d a b x s
  | .engPlog e d a b x => Sys2Proof.Machine.execEngPlog e d a b x s
  | .engVslide e d a b x => Sys2Proof.Machine.execEngVslide e d a b x s
  | .engVbcast e d a x => Sys2Proof.Machine.execEngVbcast e d a x s
  | .engVmovs e d a x => Sys2Proof.Machine.execEngVmovs e d a x s
  | .engVext e d a x => Sys2Proof.Machine.execEngVext e d a x s
  | .engVred e d a x => Sys2Proof.Machine.execEngVred e d a x s
  | .engAccopClr e d x => Sys2Proof.Machine.execEngAccopClr e d x s
  | .engAccopRd e d a b x => Sys2Proof.Machine.execEngAccopRd e d a b x s
  | .engAccopRed e d a x => Sys2Proof.Machine.execEngAccopRed e d a x s
  | .engAccopXlo e d a x => Sys2Proof.Machine.execEngAccopXlo e d a x s
  | .engAccopXhi e d a x => Sys2Proof.Machine.execEngAccopXhi e d a x s
  | .engSort8 e d a x => Sys2Proof.Machine.execEngSort8 e d a x s
  | .engHistadd e a x => Sys2Proof.Machine.execEngHistadd e a x s
  | .halt o e => Sys2Proof.Machine.execHalt o e s
  | .resume o e => Sys2Proof.Machine.execResume o e s
  | .step o e => Sys2Proof.Machine.execStep o e s
  | .dbgData o e w => Sys2Proof.Machine.execDbgData o e w s
  | .engClrCounters t => Sys2Proof.Machine.execEngClrCounters t s
  | .imageOpen h payload => Sys2Proof.Machine.execImageOpen h payload s
  | .imageData h payload => Sys2Proof.Machine.execImageData h payload s
  | .imageAbort h payload => Sys2Proof.Machine.execImageAbort h payload s
  | .cfgAbort => Sys2Proof.Machine.execCfgAbort s
  | .verifyComplete => Sys2Proof.Machine.execVerifyComplete s
  | .loadTimeout => Sys2Proof.Machine.execLoadTimeout s
  | .arm v => Sys2Proof.Machine.execArm v s
  | .disarm => Sys2Proof.Machine.execDisarm s
  | .swap => Sys2Proof.Machine.execSwap s
  | .indexEvent c z heldNs odd => Sys2Proof.Machine.execIndexEvent c z heldNs odd s
  | .absFrame a f => Sys2Proof.Machine.execAbsFrame a f s
  | .standstill c => Sys2Proof.Machine.execStandstill c s
  | .comparePulseEnd u => Sys2Proof.Machine.execComparePulseEnd u s
  | .triggerPulseEnd n => Sys2Proof.Machine.execTriggerPulseEnd n s
  | .restart u => Sys2Proof.Machine.execRestart u s
  | .compareEnable u v => Sys2Proof.Machine.execCompareEnable u v s
  | .cmpWrWrite u v => Sys2Proof.Machine.execCmpWrWrite u v s
  | .countWrite c v => Sys2Proof.Machine.execCountWrite c v s
  | .posClrCounters => Sys2Proof.Machine.execPosClrCounters s
  | .sync m => Sys2Proof.Machine.execSync m s
  | .followUp m => Sys2Proof.Machine.execFollowUp m s
  | .delayReq p d => Sys2Proof.Machine.execDelayReq p d s
  | .delayResp m => Sys2Proof.Machine.execDelayResp m s
  | .pdelayReq m => Sys2Proof.Machine.execPdelayReq m s
  | .pdelayResp m => Sys2Proof.Machine.execPdelayResp m s
  | .pdelayRespFollowUp m => Sys2Proof.Machine.execPdelayRespFollowUp m s
  | .announce m n => Sys2Proof.Machine.execAnnounce m n s
  | .announceTimeout d => Sys2Proof.Machine.execAnnounceTimeout d s
  | .revert => Sys2Proof.Machine.execRevert s
  | .tb3Step v => Sys2Proof.Machine.execTb3Step v s
  | .tb3Set v => Sys2Proof.Machine.execTb3Set v s
  | .tb3Rate v => Sys2Proof.Machine.execTb3Rate v s
  | .slotArm t n v => Sys2Proof.Machine.execSlotArm t n v s
  | .slotDisarm t n => Sys2Proof.Machine.execSlotDisarm t n s
  | .slotFire t n => Sys2Proof.Machine.execSlotFire t n s
  | .frameLaunch p => Sys2Proof.Machine.execFrameLaunch p s
  | .wholeSecond => Sys2Proof.Machine.execWholeSecond s
  | .frameReceive p frame => Sys2Proof.Machine.execFrameReceive p frame s
  | .arp p senderMac senderIp targetIp => Sys2Proof.Machine.execArp p senderMac senderIp targetIp s
  | .ndp p senderMac senderIp targetIp => Sys2Proof.Machine.execNdp p senderMac senderIp targetIp s
  | .lcpOpen h payload => Sys2Proof.Machine.execLcpOpen h payload s
  | .lcpClose h payload => Sys2Proof.Machine.execLcpClose h payload s
  | .lcpKeepalive h payload => Sys2Proof.Machine.execLcpKeepalive h payload s
  | .lcpRead h payload => Sys2Proof.Machine.execLcpRead h payload s
  | .lcpWrite h payload => Sys2Proof.Machine.execLcpWrite h payload s
  | .lcpModify h payload => Sys2Proof.Machine.execLcpModify h payload s
  | .lcpReadList h payload => Sys2Proof.Machine.execLcpReadList h payload s
  | .lcpNotify => Sys2Proof.Machine.execLcpNotify s
  | .lcpNotifyResend => Sys2Proof.Machine.execLcpNotifyResend s
  | .lcpNotifyAck h payload => Sys2Proof.Machine.execLcpNotifyAck h payload s
  | .lcpSubscribe h payload => Sys2Proof.Machine.execLcpSubscribe h payload s
  | .lcpEnumerate h payload => Sys2Proof.Machine.execLcpEnumerate h payload s
  | .lcpIdentify h payload => Sys2Proof.Machine.execLcpIdentify h payload s
  | .lcpReset h payload => Sys2Proof.Machine.execLcpReset h payload s
  | .sessionTimeout n => Sys2Proof.Machine.execSessionTimeout n s
  | .sessClose v => Sys2Proof.Machine.execSessClose v s
  | .ethLinkUp p rate200 => Sys2Proof.Machine.execEthLinkUp p rate200 s
  | .ethLinkDown p inFlight => Sys2Proof.Machine.execEthLinkDown p inFlight s
  | .modeTry p => Sys2Proof.Machine.execModeTry p s
  | .transmit p => Sys2Proof.Machine.execTransmit p s
  | .recordPop r => Sys2Proof.Machine.execRecordPop r s
  | .datagramHold r => Sys2Proof.Machine.execDatagramHold r s
  | .datagramLaunch r => Sys2Proof.Machine.execDatagramLaunch r s
  | .ethClrCounters p => Sys2Proof.Machine.execEthClrCounters p s
  | .chnClrCounters => Sys2Proof.Machine.execChnClrCounters s
  | .outClrCounters => Sys2Proof.Machine.execOutClrCounters s
  | .swPip t mask => Sys2Proof.Machine.execSwPip t mask s
  | .relayRaise t k => Sys2Proof.Machine.execRelayRaise t k s
  | .channelClaim o t c v => Sys2Proof.Machine.execChannelClaim o t c v s
  | .relayClaim o t k v => Sys2Proof.Machine.execRelayClaim o t k v s
  | .dmaStart t c => Sys2Proof.Machine.execDmaStart t c s
  | .dmaAbort t c written => Sys2Proof.Machine.execDmaAbort t c written s
  | .dmaComplete t c => Sys2Proof.Machine.execDmaComplete t c s
  | .dmaBusTimeout t c a written => Sys2Proof.Machine.execDmaBusTimeout t c a written s
  | .pop t v => Sys2Proof.Machine.execPop t v s
  | .push t v => Sys2Proof.Machine.execPush t v s
  | .queueFlush t q => Sys2Proof.Machine.execQueueFlush t q s
  | .pointerMismatch t q m => Sys2Proof.Machine.execPointerMismatch t q m s
  | .queClrCounters t => Sys2Proof.Machine.execQueClrCounters t s
  | .chkStart t n => Sys2Proof.Machine.execChkStart t n s
  | .chkFinish t n => Sys2Proof.Machine.execChkFinish t n s
  | .aliveReset t n => Sys2Proof.Machine.execAliveReset t n s
  | .aliveCheck t n v => Sys2Proof.Machine.execAliveCheck t n v s
  | .chkData t n v => Sys2Proof.Machine.execChkData t n v s
  | .firInput t f => Sys2Proof.Machine.execFirInput t f s
  | .firSync t f => Sys2Proof.Machine.execFirSync t f s
  | .firSwap t f => Sys2Proof.Machine.execFirSwap t f s
  | .firClrCounters t => Sys2Proof.Machine.execFirClrCounters t s
  | .sensorRead t r => Sys2Proof.Machine.execSensorRead t r s
  | .cal t force => Sys2Proof.Machine.execCal t force s
  | .st t force => Sys2Proof.Machine.execSt t force s
  | .cancel t => Sys2Proof.Machine.execCancel t s
  | .workStart t => Sys2Proof.Machine.execWorkStart t s
  | .calRunEnd t => Sys2Proof.Machine.execCalRunEnd t s
  | .selftestEnd t fails firstFail => Sys2Proof.Machine.execSelftestEnd t fails firstFail s
  | .gapArm => Sys2Proof.Machine.execGapArm s
  | .gapDisarm => Sys2Proof.Machine.execGapDisarm s
  | .qualityUpdate => Sys2Proof.Machine.execQualityUpdate s
  | .lcsMboxWrite o w v => Sys2Proof.Machine.execLcsMboxWrite o w v s
  | .provision o => Sys2Proof.Machine.execProvision o s
  | .addOwner o => Sys2Proof.Machine.execAddOwner o s
  | .loadOwnerKey o => Sys2Proof.Machine.execLoadOwnerKey o s
  | .revoke o => Sys2Proof.Machine.execRevoke o s
  | .commission o => Sys2Proof.Machine.execCommission o s
  | .lcsReturn o => Sys2Proof.Machine.execLcsReturn o s
  | .installJobKey o => Sys2Proof.Machine.execInstallJobKey o s
  | .dropJobKey o => Sys2Proof.Machine.execDropJobKey o s
  | .debugOpen o => Sys2Proof.Machine.execDebugOpen o s
  | .debugClose o => Sys2Proof.Machine.execDebugClose o s
  | .debugExpiry => Sys2Proof.Machine.execDebugExpiry s
  | .attest o => Sys2Proof.Machine.execAttest o s
  | .internalScanEntry => Sys2Proof.Machine.execInternalScanEntry s
  | .porstNFall => Sys2Proof.Machine.execPorstNFall s
  | .porstNRise => Sys2Proof.Machine.execPorstNRise s
  | .supply k mv => Sys2Proof.Machine.execSupply k mv s
  | .railInTolerance => Sys2Proof.Machine.execRailInTolerance s
  | .watchdog => Sys2Proof.Machine.execWatchdog s
  | .holdEnd => Sys2Proof.Machine.execHoldEnd s
  | .fuseDone => Sys2Proof.Machine.execFuseDone s
  | .clockDone => Sys2Proof.Machine.execClockDone s
  | .bootDone => Sys2Proof.Machine.execBootDone s
  | .flashRead o => Sys2Proof.Machine.execFlashRead o s
  | .flashProgram o => Sys2Proof.Machine.execFlashProgram o s
  | .flashErase o => Sys2Proof.Machine.execFlashErase o s
  | .flashOpDone => Sys2Proof.Machine.execFlashOpDone s
  | .blockLockGain t n blocks => Sys2Proof.Machine.execBlockLockGain t n blocks s
  | .prbsCheckerLock t n bits => Sys2Proof.Machine.execPrbsCheckerLock t n bits s
  | .prbsCheckerLoss t n bits => Sys2Proof.Machine.execPrbsCheckerLoss t n bits s
  | .selftestDwellEnd t p => Sys2Proof.Machine.execSelftestDwellEnd t p s
  | .slewEnd => Sys2Proof.Machine.execSlewEnd s
  | .pdelayReqSend p => Sys2Proof.Machine.execPdelayReqSend p s
  | .lcsCommandEnd fuseFail => Sys2Proof.Machine.execLcsCommandEnd fuseFail s

end Sys2Proof.Machine
end

