-- ==== Sys2Proof/Machine/Pins.lean ====
section
/-! DEFINITION. What the part drives at its outputs in each phase (R467). TDO follows the TAP states of IEEE 1149.1, which the spec does not
give. -/

namespace Sys2Proof.Machine

/-- What an LVCMOS output carries: high-impedance, or driven. -/
inductive Drive where
  | z | low | high
  deriving DecidableEq, Repr

/-- A driven level. -/
def driveOf (x : Bool) : Drive := if x then .high else .low

/-- The outputs of the phases OFF to CLOCK: nothing is driven. -/
def State.silent (s : State) : Bool := s.pwr.phase != .boot && s.pwr.phase != .run

/-- READY: driven from BOOT on, high while the part is INSPECTING (R467, R468). -/
def State.readyPin (s : State) : Drive := if s.silent then .z else driveOf (s.is 0 SYS_STATUS_READY)

/-- INT_N: open-drain, pulled low under R469 once BOOT has ended. -/
def State.intPin (s : State) : Drive := if s.pwr.phase = .run ∧ s.intLow then .low else .z

/-- A trigger output: under R299 once BOOT has ended. -/
def State.trigPin (s : State) (o : Nat) : Drive :=
  if s.pwr.phase = .run then (match s.trigLevel o with
    | some x => driveOf x
    | none => .z)
  else .z

/-- The clock of an absolute channel between its frames: high once BOOT has ended (R293). -/
def State.absClockPin (s : State) : Drive := if s.pwr.phase = .run then .high else .z

/-- A back-channel transmit pair carries characters (R100): from the end of BOOT on, where it is enabled. -/
def State.backPairOn (s : State) (t p : Nat) : Bool := s.pwr.phase == .run && s.is t (LNK_PORT_BC_CTRL_ENABLE p)

/-- The Ethernet transmit lanes of port `p` are active: once ETH_CFG.EN is set at the end of BOOT. -/
def State.ethLanesOn (s : State) (p : Nat) : Bool := s.pwr.phase == .run && s.is p ETH_CFG_EN

/-- QSPI_CS_N: the boot master drives it in BOOT, at a level that the spec does not give, so that it is none here; later it is high but for a
flash operation of R476. -/
def State.qspiSelect (s : State) : Option Drive :=
  match s.pwr.phase with
  | .boot => none
  | .run => some (driveOf s.pwr.op.isNone)
  | _ => some .z

end Sys2Proof.Machine
end

