-- ==== Sys2Proof/Safety.lean ====
section
/-! DEFINITION. What counts as a safe state and a safe run of the block, and the words in which the statements about the commands are made. -/

namespace Sys2Proof

open Machine

/-- The register map and the memory windows are in canonical form: strictly rising keys and nothing listed at its unlisted value. -/
def Machine.State.canonical (s : State) : Bool :=
  smOk (fun k => BitVec.ofNat 32 (resetWord (addrBlk k) (addrOff k))) s.regs && Memory.wf s.mem

/-- A step of the block answers a next state: no command of the block stops it. -/
def Machine.State.steps (s : State) : Prop := ∃ t, step s = .next t

/-- The command answers a next state of which `P` holds. -/
def Machine.State.gives (s : State) (i : Instr) (P : State → Prop) : Prop := ∃ t, exec i s = .next t ∧ P t

/-- A set of register words: tile, block and offset of each. -/
abbrev WordSet := Nat → Nat → Nat → Prop

/-- The word of a register on tile `t`. -/
def Machine.Fld.wordAt (f : Fld) (t : Nat) : WordSet := fun tile blk off => tile = t ∧ blk = f.blk ∧ off = f.off

/-- Both words of a 64-bit pair on tile `t`, `f` naming the low one (R13). -/
def Machine.Fld.pairAt (f : Fld) (t : Nat) : WordSet := fun tile blk off => tile = t ∧ blk = f.blk ∧ (off = f.off ∨ off = f.off + 4)

/-- The words of either set. -/
def WordSet.or (A B : WordSet) : WordSet := fun tile blk off => A tile blk off ∨ B tile blk off

/-- The words of a block of a tile. -/
def blockOn (blk t : Nat) : WordSet := fun tile b _ => tile = t ∧ b = blk

/-- Every register word outside the set `K` is in `u` what it is in `s`, in both banks. -/
def Machine.State.sameWords (s u : State) (K : WordSet) : Prop :=
  ∀ b tile blk off, tile < 8 → blk < 128 → off < 2 ^ 30 → ¬ K tile blk off → u.wordB b tile blk off = s.wordB b tile blk off

/-- `u` is `s` but for register words in the set `K`, and what the present cycle remembers of them for R16. -/
def Machine.State.onlyRegs (s u : State) (K : WordSet) : Prop := u = { s with regs := u.regs, cyc := u.cyc } ∧ s.sameWords u K

end Sys2Proof
end

