-- ==== Sys2Proof/Certificates/Slice0/Obligations.lean ====
section
/-! DEFINITION. The statements about the block that are to be proved. -/

open Sys2Proof Sys2Proof.Machine

/-! The step and the queue. -/

/-- A step takes the command at the front of the queue and runs it with the queue's rest. -/
def Obligations.StepRunsFrontCommand : Prop :=
  ∀ (c : Instr) (rest : List Instr) (s : State), s.pending = c :: rest → step s = exec c { s with pending := rest }

/-- On an empty queue a step of a part whose clocks run is one EVTC cycle: TB0 gains 2 ns and the queue stays empty (the model's choice,
log 4). -/
def Obligations.EmptyQueuePassesOneCycle : Prop :=
  ∀ s : State, s.pending = [] → s.clocked → ∃ t, step s = .next t ∧ t.tim.tb0 = s.tim.tb0 + 2 ∧ t.pending = [] ∧ t.id = s.id

/-- Every command answers a next state, in every state and for every operand, and leaves the fused identity and the queue. -/
def Obligations.EveryCommandAnswers : Prop :=
  ∀ (i : Instr) (s : State), s.gives i fun t => t.id = s.id ∧ t.pending = s.pending

/-! One part from many tiles (R7, R17, R28 to R45). -/

/-- The registers whose value is fused, as firmware reads them on a tile: SYS_ID, SYS_DIE_ID_LO and the routes (R43, R45). -/
def Sys2Proof.Machine.State.fusedWords (s : State) (t : Nat) : List Nat :=
  ([SYS_ID, SYS_DIE_ID_LO] ++ (List.range 8).map D2D_ROUTE).map fun f => (s.busRead .firmware (addrOf t f.blk f.off)).1

/-- A step leaves the fused registers of every tile: no command of the block and no passing of time changes what they read (R43, R45). -/
def Obligations.EveryStepKeepsFusedRegisters : Prop :=
  ∀ (s u : State) (t : Tile), step s = .next u → u.fusedWords t = s.fusedWords t

/-- SYS_ID reads the part, the stepping, the tile and the number of tiles on every fitted tile; right after reset it does so for the part
that the model's reset state is (log 1). -/
def Obligations.IdentityRegistersRead : Prop :=
  (∀ (s : State) (t : Tile), s.fit t →
    (s.busRead .firmware (addrOf t 0 0)).1 = s.id.variant.part * 2 ^ 16 + s.id.stepping.code * 2 ^ 8 + t.val * 16 + s.id.variant.tiles ∧
    ((s.id.variant = .lyn820 ∧ s.id.variant.part = 0x0820 ∧ s.id.variant.tiles = 2) ∨ (s.id.variant = .lyn840 ∧ s.id.variant.part = 0x0840 ∧ s.id.variant.tiles = 4) ∨
      (s.id.variant = .lyn880 ∧ s.id.variant.part = 0x0880 ∧ s.id.variant.tiles = 8))) ∧
  ∀ t : Tile, State.reset.fit t ∧ (State.reset.busRead .firmware (addrOf t 0 0)).1 = 0x08801108 + 16 * t.val

/-- The package address: 40 bits, the tile in [39:37], the block in [36:30], the offset in [29:0] (R17). -/
def Obligations.PackageAddressFields : Prop :=
  (∀ t blk off, t < 8 → blk < 128 → off < 2 ^ 30 → addrOf t blk off = t <<< 37 ||| blk <<< 30 ||| off ∧ addrOf t blk off < 2 ^ 40 ∧ addrTile (addrOf t blk off) = t ∧
    addrBlk (addrOf t blk off) = blk ∧ addrOff (addrOf t blk off) = off) ∧
  ∀ a, a < 2 ^ 40 → addrOf (addrTile a) (addrBlk a) (addrOff a) = a

/-- The blocks listed for a tile (R18): tile, block number. -/
def Sys2Proof.Machine.listedBlock (t blk : Nat) : Prop :=
  (blk ≤ 0x1B ∧ (blk ∈ [0x0B, 0x0D, 0x0E, 0x11, 0x12, 0x19] → t = 0) ∧ (blk = 0x10 → t < 2)) ∨ (0x40 ≤ blk ∧ blk ≤ 0x48) ∨ blk = 0x50

/-- An access to a tile that is not fitted or to a block that is not listed completes with an address error and has no effect but the
record of R36 (R7). -/
def Obligations.UnlistedAccessFails : Prop :=
  ∀ (s : State) (o : Origin) (a : BitVec 40) (v : BitVec 32), s.live →
    (¬ s.fit (addrTile a.toNat) ∨ ¬ listedBlock (addrTile a.toNat) (addrBlk a.toNat)) →
    let t := if s.fit (addrTile a.toNat) then addrTile a.toNat else 0
    (s.busWrite o a.toNat v.toNat).2 = .addr ∧ (s.busRead o a.toNat).2.2 = .addr ∧
    s.gives (.registerWrite o a v) fun u => u.rd t SYS_ERR_ADDR_ERR = 1 ∧ u.rd t SYS_ERR_ACCESS_ERR = s.rd t SYS_ERR_ACCESS_ERR ∧
      s.onlyRegs u ((SYS_ERR.wordAt t).or (SYS_ERR_ADDR_LO.pairAt t))

/-- A write into an engine's data store or into cluster memory stores its four bytes, least significant first, at its address, and every
other byte, every register and everything else stays (R12, R37). -/
def Obligations.MemoryWindowWrite : Prop :=
  ∀ (s : State) (o : Origin) (a : BitVec 40) (v : BitVec 32), s.live → s.fit (addrTile a.toNat) → a.toNat % 4 = 0 →
    ((∃ t c e off, windowOf a.toNat = some (.dataStore t c e off)) ∨ (∃ t c off, windowOf a.toNat = some (.cluster t c off))) →
    s.gives (.registerWrite o a v) fun u => u = { s with mem := u.mem } ∧
      (∀ i < 4, u.byte (a.toNat + i) = BitVec.ofNat 8 (v.toNat / 256 ^ i)) ∧
      ∀ b, b < a.toNat ∨ a.toNat + 4 ≤ b → u.byte b = s.byte b

/-- A write of an RWS register takes effect and reads back; no other word changes (R15, R39, R43: SYS_SCRATCH). -/
def Obligations.ScratchReadsBack : Prop :=
  ∀ (s : State) (o o' : Origin) (t : Tile) (v : BitVec 32), s.live → s.fit t →
    s.gives (.registerWrite o (BitVec.ofNat 40 (addrOf t SYS_SCRATCH.blk SYS_SCRATCH.off)) v) fun u =>
      (u.busRead o' (addrOf t SYS_SCRATCH.blk SYS_SCRATCH.off)).1 = v.toNat ∧ s.onlyRegs u (SYS_SCRATCH.wordAt t)

/-- A pair takes its 64-bit value when its high word is written: the low word is held for its origin, and both words change together with the
high word (R13, at BND_TB_PERIOD while RUN is 0). -/
def Obligations.PairTakesEffectWithHighWord : Prop :=
  ∀ (s : State) (o : Origin) (lo hi : BitVec 32), s.live → ¬ s.is 0 BND_CTRL_RUN →
    s.gives (.registerWrite o (BitVec.ofNat 40 (addrOf 0 BND_TB_PERIOD_LO.blk BND_TB_PERIOD_LO.off)) lo) fun u =>
      u.regs = s.regs ∧ u.mem = s.mem ∧
      u.gives (.registerWrite o (BitVec.ofNat 40 (addrOf 0 BND_TB_PERIOD_HI.blk BND_TB_PERIOD_HI.off)) hi) fun x =>
        x.rd64 0 BND_TB_PERIOD_LO = lo.toNat + 2 ^ 32 * hi.toNat ∧ s.sameWords x (BND_TB_PERIOD_LO.pairAt 0) ∧ x.mem = s.mem ∧
        findHold x.holds o (addrOf 0 BND_TB_PERIOD_LO.blk BND_TB_PERIOD_LO.off) = none

/-! Cerette links and PLLs. -/

/-- A packet on a Cerette link (R32): a good one is counted at its sender and ends the row of failures; a CRC mismatch counts at the
receiver and, up to the eighth failed replay, a replay at the sender; one more takes the link out of service to train, and the packet is
held at its sender before those behind it. A packet for a bonded link that carries no traffic waits at its sender behind those that wait there (R32, R34). -/
def Obligations.CerettePacketChecked : Prop :=
  ∀ (s : State) (t : Tile) (l : Link) (k : Bytes), s.live → s.fit t → s.id.bonded t l →
    let c := (s.farEnd t l).1
    let m := (s.farEnd t l).2
    (s.linkOn t l → packetOk k → (s.link t l).due = false → s.gives (.cerettePacket t l k) fun u => (u.link t l).replays = 0 ∧
      u.rd64 c (D2D_L_TX_FLITS_LO m) = (s.rd64 c (D2D_L_TX_FLITS_LO m) + flits k) % 2 ^ 64 ∧ s.sameWords u ((D2D_L_TX_FLITS_LO m).pairAt c) ∧ u.mem = s.mem) ∧
    (s.linkOn t l → ¬ packetOk k → (s.link t l).replays < 8 → s.gives (.cerettePacket t l k) fun u =>
      u.rd t (D2D_L_CRC_ERR_COUNT l) = min (s.rd t (D2D_L_CRC_ERR_COUNT l) + 1) 0xFFFFFFFF ∧
      u.rd c (D2D_L_REPLAY_COUNT m) = min (s.rd c (D2D_L_REPLAY_COUNT m) + 1) 0xFFFFFFFF ∧ (u.link t l).replays = (s.link t l).replays + 1) ∧
    (s.linkOn t l → ¬ packetOk k → 8 ≤ (s.link t l).replays → s.gives (.cerettePacket t l k) fun u =>
      u.rd t (D2D_L_STATUS_UP l) = 0 ∧ u.rd t (D2D_L_STATUS_TRAINING l) = 1 ∧ u.rd c (D2D_L_STATUS_TRAINING m) = 1 ∧
      (u.link c m).held = k :: (s.link c m).held) ∧
    (¬ s.linkOn t l → s.gives (.cerettePacket t l k) fun u => u.regs = s.regs ∧ u.mem = s.mem ∧
      (u.link c m).held ++ (u.link c m).stalled = (s.link c m).held ++ (s.link c m).stalled ++ [k])

/-- Nothing waits for a Cerette link but packets in their link queues: no register access, no request and no frame. -/
def Sys2Proof.Machine.State.noneWait (s : State) : Prop := s.net.waiting = [] ∧ s.net.hopIn = [] ∧ s.net.hopOut = []

/-- RETRAIN takes a bonded link out of service at both ends and clears FAILED, at once where no packet is in flight and else at the next packet
boundary (R34); a retraining that ends well brings both ends up, and the
third in a row that fails marks both FAILED, sets SYS_ERR.D2D_FAIL on both tiles and drives READY low (R32, R33, R45). -/
def Obligations.LinkRetrains : Prop :=
  ∀ (s : State) (t : Tile) (l : Link), s.live → s.fit t → s.id.bonded t l →
    let c := (s.farEnd t l).1
    let m := (s.farEnd t l).2
    (¬ s.linkBusy t l → s.gives (.d2dRetrain t l) fun u => ∀ x ∈ [(t.val, l.val), (c, m)],
      u.rd x.1 (D2D_L_STATUS_UP x.2) = 0 ∧ u.rd x.1 (D2D_L_STATUS_TRAINING x.2) = 1 ∧ u.rd x.1 (D2D_L_STATUS_FAILED x.2) = 0 ∧
      u.rd x.1 (D2D_L_STATUS_RETRAINS x.2) = min (s.rd x.1 (D2D_L_STATUS_RETRAINS x.2) + 1) 255) ∧
    (s.linkBusy t l → s.gives (.d2dRetrain t l) fun u => u.regs = s.regs ∧ (u.link t l).due = true ∧ (u.link c m).due = true) ∧
    (s.is t (D2D_L_STATUS_TRAINING l) → s.locked t .d2d → s.noneWait → s.gives (.retrainComplete t l true) fun u => ∀ x ∈ [(t.val, l.val), (c, m)],
      u.rd x.1 (D2D_L_STATUS_UP x.2) = 1 ∧ u.rd x.1 (D2D_L_STATUS_TRAINING x.2) = 0 ∧ u.rd x.1 (D2D_L_STATUS_FAILED x.2) = 0 ∧
      (u.link x.1 x.2).held = [] ∧ (u.link x.1 x.2).stalled = []) ∧
    (s.is t (D2D_L_STATUS_TRAINING l) → s.locked t .d2d → s.noneWait → (s.link t l).fails = 2 → s.gives (.retrainComplete t l false) fun u =>
      u.rd 0 SYS_STATUS_READY = 0 ∧ ∀ x ∈ [(t.val, l.val), (c, m)],
      u.rd x.1 (D2D_L_STATUS_FAILED x.2) = 1 ∧ u.rd x.1 (D2D_L_STATUS_TRAINING x.2) = 0 ∧ u.rd x.1 SYS_ERR_D2D_FAIL = 1)

/-- A register request that has waited 100 µs for a retraining link completes with a link error, STATUS 3 in its reply, and no effect, and
SYS_ERR.D2D_RETRAIN is set (R34, R343): the reply is kept for its session, and with no other request behind it no word but that flag changes
outside CHN and ETH. That the flag is tile 0's is the model's choice (log 198). -/
def Obligations.RemoteAccessTimesOut : Prop :=
  ∀ (s : State) (x : LcpReq), s.live → s.net.waiting = [x] → s.gives .remoteAccessTimeout fun u =>
    u.net.waiting = [] ∧ u.rd 0 SYS_ERR_D2D_RETRAIN = 1 ∧ u.mem = s.mem ∧
    (s.sessOpen x.h.session → ¬ s.lcpSilent x.h x.op → u.net.kept =
      smInsert x.h.session.val ⟨x.h.seq.toNat, s.lcpReply x.h x.op 3 (if x.op = 0x11 then leBytes 4 0 else [])⟩ s.net.kept) ∧
    s.sameWords u (fun tile blk off => SYS_ERR.wordAt 0 tile blk off ∨ blk = 0x10 ∨ blk = 0x11)

/-- A PLL that loses lock drops its bit of CLK_LOCK, keeps it in CLK_LOSS, sets SYS_ERR.PLL_LOSS and drives READY low; REFC that stops does the
first two; one that locks sets its bit and shows that REFC toggles (R42, R44). -/
def Obligations.PllLossAndLock : Prop :=
  ∀ (s : State) (t : Tile) (p : Pll), s.live → s.pllFit t p →
    (s.locked t p → s.gives (.pllLoss t p) fun u =>
      u.rd t CLK_LOCK = s.rd t CLK_LOCK - 2 ^ pllBit p ∧ u.rd t CLK_LOSS_LOST = s.rd t CLK_LOSS_LOST ||| 2 ^ pllBit p ∧
      u.rd t SYS_ERR_PLL_LOSS = (if p = .refc then s.rd t SYS_ERR_PLL_LOSS else 1) ∧ (p ≠ .refc → u.rd 0 SYS_STATUS_READY = 0)) ∧
    (s.noneWait → s.gives (.pllLock t p) fun u =>
      u.rd t CLK_LOCK = s.rd t CLK_LOCK ||| 2 ^ pllBit p ||| 2 ^ 5 ∧ u.rd t CLK_LOSS_LOST = s.rd t CLK_LOSS_LOST)
/-! The band clock and the blind ledger (R46 to R72). -/

/-- A write of BND_CTRL with RUN = 1 (R47). While RUN is 0 it is refused where SRC is 3, B is 5, 6 or 7, or the depths break R57: RUN stays 0,
BND_ERR.CFG_INVALID is set, and the other fields of the write are kept; else, where no drain is running that RUN = 0 has started, the clock starts: it waits, and its counters
begin at 0 (R53, R72). While RUN is 1, and without FLUSH, it changes nothing but
BND_ERR.CFG_WHILE_RUN, which it sets exactly where it carries another value for SRC, TB_SEL, WAIT_START, WEB_SRC or MASTER_SUB. A write with RUN = 0 while the clock waits
stops it at once: RUN, RUNNING and WAITING read 0 and READY is driven low, and HOLDING reads 0 where no tick is released in the same cycle (R56, R61, R468). -/
def Obligations.RunSetAndClear : Prop :=
  (∀ (s : State) (o : Origin) (v : BitVec 32), s.live → s.is 0 BND_CTRL_RUN → ¬ v.getLsbD 0 → s.openBand = none →
    ¬ s.is 0 BND_STATUS_DRAINING → s.clk.restart = false →
    s.gives (.runClear o v) fun u => u.rd 0 BND_CTRL_RUN = 0 ∧ u.rd 0 BND_STATUS_RUNNING = 0 ∧ u.rd 0 BND_STATUS_WAITING = 0 ∧
      (.heldTickRelease ∉ s.pending → u.rd 0 BND_STATUS_HOLDING = 0) ∧ u.rd 0 SYS_STATUS_READY = 0 ∧ u.clk.stopping = false ∧ u.mem = s.mem) ∧
  ∀ (s : State) (o : Origin) (v : BitVec 32), s.live → v.getLsbD 0 →
    let d := s.depth s.bank
    (¬ s.is 0 BND_CTRL_RUN → (bitsOf v.toNat 2 1 = 3 ∨ 5 ≤ s.rd 0 BND_BAND_SIZE_B ∨
      ¬ (d 0 = 2 ∧ (∀ k, 1 ≤ k → k ≤ 7 → 2 ≤ d k) ∧ d 2 ≤ d 3 ∧ d 3 < d 4 ∧ d 4 ≤ d 5 ∧ d 5 < d 6)) →
    s.gives (.runSet o v) fun u => u.rd 0 BND_CTRL_RUN = 0 ∧ u.rd 0 BND_ERR_CFG_INVALID = 1 ∧
      u.rd 0 BND_CTRL_SRC = bitsOf v.toNat 2 1 ∧ u.rd 0 BND_CTRL_TB_SEL = bitsOf v.toNat 4 3 ∧ u.rd 0 BND_CTRL_WAIT_START = bitsOf v.toNat 5 5 ∧
      u.rd 0 BND_CTRL_WEB_SRC = bitsOf v.toNat 6 6 ∧ u.rd 0 BND_CTRL_MASTER_SUB = bitsOf v.toNat 13 8 ∧
      s.onlyRegs u ((BND_CTRL.wordAt 0).or (BND_ERR.wordAt 0))) ∧
    (¬ s.is 0 BND_CTRL_RUN → bitsOf v.toNat 2 1 ≠ 3 → s.rd 0 BND_BAND_SIZE_B < 5 →
      (d 0 = 2 ∧ (∀ k, 1 ≤ k → k ≤ 7 → 2 ≤ d k) ∧ d 2 ≤ d 3 ∧ d 3 < d 4 ∧ d 4 ≤ d 5 ∧ d 5 < d 6) → s.clk.stopping = false → ¬ v.getLsbD 16 →
    s.gives (.runSet o v) fun u => u.rd 0 BND_CTRL_RUN = 1 ∧ u.rd 0 BND_STATUS_RUNNING = 1 ∧ u.rd 0 BND_STATUS_WAITING = 1 ∧
      u.rd 0 BND_STATUS_HOLDING = 0 ∧ u.rd 0 BND_STATUS_TICKING = 0 ∧ u.rd64 0 BND_INDEX_LO = 0 ∧ u.rd64 0 BND_LINE_LO = 0 ∧
      u.rd64 0 BND_BAND_LINE0_LO = 0 ∧ u.rd 0 BND_CTRL_SRC = bitsOf v.toNat 2 1 ∧ u.clk.bands = [] ∧ u.clk.nextRelease = 0 ∧
      ∀ g < 8, u.rd 0 (BND_COV_REP g) = 0 ∧ u.rd64 0 (BND_COV_JOB_LO g) = 0) ∧
    (s.is 0 BND_CTRL_RUN → ¬ v.getLsbD 16 → s.gives (.runSet o v) fun u => s.onlyRegs u (BND_ERR.wordAt 0) ∧
      u.rd 0 BND_ERR_CFG_WHILE_RUN =
        if bitsOf v.toNat 2 1 = s.rd 0 BND_CTRL_SRC ∧ bitsOf v.toNat 4 3 = s.rd 0 BND_CTRL_TB_SEL ∧
          bitsOf v.toNat 5 5 = s.rd 0 BND_CTRL_WAIT_START ∧ bitsOf v.toNat 6 6 = s.rd 0 BND_CTRL_WEB_SRC ∧
          bitsOf v.toNat 13 8 = s.rd 0 BND_CTRL_MASTER_SUB then s.rd 0 BND_ERR_CFG_WHILE_RUN else 1)

/-- The number of the next accepted line: 0 for the first since RUN (R53). -/
def Sys2Proof.Machine.State.nextLine (s : State) : Nat := if s.clk.lastWeb.isNone then 0 else (s.rd64 0 BND_LINE_LO + 1) % 2 ^ 64

/-- The index of the next band: 0 for the first since RUN (R53). -/
def Sys2Proof.Machine.State.nextIndex (s : State) : Nat := if s.clk.ticked then s.bandIndex + 1 else 0

/-- `u` is what an accepted line tick at the time `x` makes of `s` in the registers of the clock and in what the clock keeps (R49, R50, R53): the line has its
number and its WEB_POS, TICKING is set, and a band tick has given the next band its index where no open band had room. -/
def Sys2Proof.Machine.State.lineTaken (s u : State) (x : Nat) : Prop :=
  u.rd64 0 BND_LINE_LO = s.nextLine ∧ u.clk.lastWeb = some (s.webPosNow s.nextLine) ∧ u.clk.lastAccept = some x ∧ u.rd 0 BND_STATUS_TICKING = 1 ∧
    u.rd64 0 BND_INDEX_LO = (if s.needBand then s.nextIndex else s.rd64 0 BND_INDEX_LO) ∧ (s.needBand → u.rd 0 BND_STATUS_WAITING = 0)

/-- The rate limiter at a tick of the schedule (R48, R49): a tick that comes while one is held is discarded and counted, one that comes
within T_min of the last line tick is held, and any other is a line tick of its time; in each case the schedule goes on by one period. A held tick that falls
due at the same time is released first, and the new tick becomes the held one (R61). T_min is the period of
BND_MAX_LINE_RATE rounded up to a whole POSC cycle of 4 ns. -/
def Obligations.RateLimiter : Prop :=
  (∀ s : State, 0 < s.rd 0 BND_MAX_LINE_RATE_HZ →
    s.tMin % 4 = 0 ∧ 1000000000 ≤ s.tMin * s.rd 0 BND_MAX_LINE_RATE_HZ ∧ (s.tMin - 4) * s.rd 0 BND_MAX_LINE_RATE_HZ < 1000000000) ∧
  ∀ (s : State) (x : Nat), s.live → s.locked 0 .aux → s.schedDue → s.clk.schedule = some x →
    let k := { s.clk with schedule := some (x + s.tbPeriod), schedTb0 := some s.tim.tb0, issued := true }
    (s.is 0 BND_STATUS_HOLDING → s.tim.tb0 < s.heldTime → s.gives .tbScheduleTick fun u =>
      u.rd64 0 BND_SKIPPED_LO = (s.rd64 0 BND_SKIPPED_LO + 1) % 2 ^ 64 ∧ s.sameWords u (BND_SKIPPED_LO.pairAt 0) ∧ u.clk = k) ∧
    (∀ a, ¬ s.is 0 BND_STATUS_HOLDING → s.clk.lastAccept = some a → s.tim.tb0 < a + s.tMin → s.gives .tbScheduleTick fun u =>
      u.rd 0 BND_STATUS_HOLDING = 1 ∧ s.sameWords u (BND_STATUS.wordAt 0) ∧ u.clk = k) ∧
    (¬ s.is 0 BND_STATUS_HOLDING → (∀ a, s.clk.lastAccept = some a → a + s.tMin ≤ s.tim.tb0) → s.gives .tbScheduleTick fun u =>
      s.lineTaken u s.tim.tb0 ∧ u.clk.schedule = some (x + s.tbPeriod)) ∧
    (s.is 0 BND_STATUS_HOLDING → s.heldTime ≤ s.tim.tb0 → s.tim.tb0 < s.heldTime + s.tMin → s.gives .tbScheduleTick fun u =>
      s.lineTaken u s.heldTime ∧ u.rd 0 BND_STATUS_HOLDING = 1 ∧ u.rd64 0 BND_SKIPPED_LO = s.rd64 0 BND_SKIPPED_LO)

/-- The operations of the band clock beside its source (R49, R52, R53, R56, R58, R61). A held tick is released at last_accepted + T_min. The idle timeout clears
TICKING and closes the open band short, unless a line tick comes in its cycle; FLUSH closes it short. Closing short starts a drain, and a drain tick gives an empty band its index
and ends the drain with the last one. A missed deadline is dealt with once: the statistics that a sub-stream has not completed are dropped, an engine instance of the
inspection path gives blind tokens, and each counts in BND_MISS of its class. -/
def Obligations.BandClockOperations : Prop :=
  ∀ s : State, s.live →
    let short (u : State) (b : Band) : Prop := u.openBand = none ∧ u.rd 0 BND_STATUS_DRAINING = 1 ∧ u.rd 0 BND_ERR_IDLE = 1 ∧
      u.rd 0 BND_STATUS_SPEED = 0 ∧ u.clk.drainLeft = s.drainTicks b.n ∧ (u.band b.n).map Band.short = some true
    (s.locked 0 .aux → s.heldDue → s.gives .heldTickRelease fun u => s.lineTaken u s.heldTime ∧ u.rd 0 BND_STATUS_HOLDING = 0) ∧
    (s.is 0 BND_STATUS_TICKING → ¬ s.tickNow →
      (s.openBand = none → s.gives .idleTimeout fun u => u.rd 0 BND_STATUS_TICKING = 0 ∧ s.onlyRegs u (BND_STATUS.wordAt 0)) ∧
      ∀ b, s.openBand = some b → s.gives .idleTimeout fun u => u.rd 0 BND_STATUS_TICKING = 0 ∧ short u b) ∧
    (∀ b, s.openBand = some b → s.gives .flush fun u => short u b) ∧
    (s.openBand = none → s.gives .flush fun u => u = { s with clk := { s.clk with flushTb0 := some s.tim.tb0 } }) ∧
    (s.is 0 BND_STATUS_DRAINING → s.clk.restart = false → s.gives .drainTick fun u =>
      u.rd64 0 BND_INDEX_LO = s.nextIndex ∧ u.rd64 0 BND_LINE_LO = s.rd64 0 BND_LINE_LO ∧ u.openBand = none ∧ u.clk.drainLeft = s.clk.drainLeft - 1 ∧
      (1 < s.clk.drainLeft → u.rd 0 BND_STATUS_DRAINING = 1) ∧
      (s.clk.drainLeft = 1 → u.rd 0 BND_STATUS_DRAINING = 0 ∧ u.clk.stopping = false ∧ (s.is 0 BND_CTRL_RUN → u.rd 0 BND_STATUS_WAITING = 1))) ∧
    (∀ (t : Tile) (i : StageInst) (b : Band), s.fit t → s.missedBand t i = some b →
      b.n + s.depth b.bank (s.classOf b.bank t i) ≤ s.bandIndex ∧ ¬ s.stageDone t i b ∧
      s.gives (.deadlineMiss t i) fun u => b.n < smGet 0 (dueKey t i) u.eng.due ∧
        (∀ p q, i = .stats p q → (∀ x ∈ u.path.stats, ¬ (x.sub = t.val * 8 + p.val * 4 + q.val ∧ x.n = b.n ∧ ¬ x.complete)) ∧
          ((∃ x ∈ s.path.stats, x.sub = t.val * 8 + p.val * 4 + q.val ∧ x.n = b.n ∧ ¬ x.complete) → s.rd t (BND_MISS 1) < 0xFFFFFFFF →
            s.rd t (BND_MISS 1) < u.rd t (BND_MISS 1))) ∧
        ∀ k, i = .engines k → let c := s.instClass b.bank t k
          c ∉ [5, 7] → s.openSpans (s.instToken t k b.n) ≠ [] → u.rd t (BND_MISS c) = min (s.rd t (BND_MISS c) + 1) 0xFFFFFFFF)

/-- A band is released when its release tick has come: the next band is the one after it, and BND_LATENCY_NS is the TB0 time from its band
tick, at most 0xFFFF_FFFF (R60). -/
def Obligations.ReleaseTakesOldestBand : Prop :=
  ∀ (s : State) (b : Band), s.live → s.releaseDue = some b →
    b.n = s.clk.nextRelease ∧ s.releaseTick b.n ≤ s.bandIndex ∧
    s.gives .release fun u => u.clk.nextRelease = s.clk.nextRelease + 1 ∧
      u.rd 0 BND_LATENCY_NS = min (s.tim.tb0 - b.tb0) 0xFFFFFFFF

/-- No pop or flush of a queue of tile `t` waits in the present cycle, and none has flushed queue `q` in it: what a commit finds is what it leaves (R390, R398). -/
def Sys2Proof.Machine.State.calmQueue (s : State) (t q : Nat) : Prop := s.popsAhead t = [] ∧ s.qFlushed t q = false

/-- A blind token reaches tile 0: into the lists of its band while they are open, else into a record of its own, its length added to the
totals of its group (R63). A held blind record goes to the queue of BND_BLIND_CTRL when the queue takes it, behind every item of an earlier cycle, and stays held where it does not
(R69, R389, R390). -/
def Obligations.BlindTokensAndRecords : Prop :=
  ∀ s : State, s.live →
    (∀ k l, s.led.inFlight = k :: l → s.clk.nextRelease ≤ k.band →
      exec .blindTokenArrival s = .next { s with led := { s.led with inFlight := l, tokens := s.led.tokens ++ [k] } }) ∧
    (∀ k l b, s.led.inFlight = k :: l → k.band < s.clk.nextRelease → s.band k.band = some b → k.group < 8 → s.gives .blindTokenArrival fun u =>
      u.led = { s.led with inFlight := l, late := s.led.late ++ [k] } ∧
      let n := ((s.spanOf b k).w1 - (s.spanOf b k).w0).toNat
      u.rd 0 (BND_COV_REP k.group) = (s.rd 0 (BND_COV_REP k.group) + n) % 2 ^ 32 ∧
      u.rd64 0 (BND_COV_JOB_LO k.group) = (s.rd64 0 (BND_COV_JOB_LO k.group) + n) % 2 ^ 64 ∧
      s.sameWords u (((BND_COV_REP k.group).wordAt 0).or ((BND_COV_JOB_LO k.group).pairAt 0))) ∧
    ∀ i l, s.led.held = i :: l →
      let q := s.rd 0 BND_BLIND_CTRL_QUEUE
      let cells := sumN ((s.qItems 0 q).map QItem.cells)
      s.calmQueue 0 q →
      (cells + i.cells ≤ s.began.rd 0 (QUE_Q_CFG_QUOTA q) → i.cells ≤ s.rd 0 QUE_POOL_FREE →
        s.gives .blindRecordSend fun u => u.led.held = l ∧ u.rd 0 QUE_POOL_FREE = s.rd 0 QUE_POOL_FREE - i.cells ∧
          ∃ n, (s.qItems 0 q).length - (s.qCame 0 q).length ≤ n ∧ u.qItems 0 q = (s.qItems 0 q).take n ++ i :: (s.qItems 0 q).drop n) ∧
      (s.began.rd 0 (QUE_Q_CFG_QUOTA q) < cells + i.cells → s.gives .blindRecordSend fun u =>
        u.led = s.led ∧ u.que = s.que ∧ u.rd 0 QUE_ERR_REFUSED = 1)

/-- At most MAXREC spans of a band and group leave: the first MAXREC − 1 as they are, the rest merged into one that has MERGED set, the
reason and stage of the first of them, a stretch and an extent that cover them all, every sub-stream of theirs, and PARTIAL exactly where its
extent is less than the group's full width (R65). -/
def Obligations.SpanCap : Prop :=
  ∀ (width : Int) (maxrec : Nat) (l : List Span), 1 ≤ maxrec →
    (l.length ≤ maxrec → capSpans width maxrec l = l) ∧
    (∀ h : maxrec < l.length, ∃ m, capSpans width maxrec l = l.take (maxrec - 1) ++ [m] ∧ m.merged ∧
      m.reason = (l[maxrec - 1]).reason ∧ m.stage = (l[maxrec - 1]).stage ∧ (m.partial_ ↔ m.x1 - m.x0 < width) ∧
      ∀ x ∈ l.drop (maxrec - 1), m.b0 ≤ x.b0 ∧ m.w0 ≤ x.w0 ∧ x.w1 ≤ m.w1 ∧ m.x0 ≤ x.x0 ∧ x.x1 ≤ m.x1 ∧ x.mask ||| m.mask = m.mask ∧
        (x.cont → m.cont) ∧ (x.short → m.short))

/-- The blind record of a span (R66): 64 bytes, its fields at their offsets, ended by the CRC-32C of the bytes before it. -/
def Obligations.BlindRecordLayout : Prop :=
  ∀ (x : Span) (unit alive g : Nat) (step : Bool), unit < 64 → alive < 256 → g < 8 → x.reason < 16 → x.stage < 16 → x.b0 < 2 ^ 48 → x.job < 2 ^ 32 →
    x.mask < 2 ^ 64 → x.time < 2 ^ 64 → -2 ^ 63 ≤ x.w0 → x.w0 ≤ x.w1 → x.w1 < 2 ^ 63 → x.w1 - x.w0 ≤ maxWebLen →
    -2 ^ 31 ≤ x.x0 → x.x0 ≤ x.x1 → x.x1 < 2 ^ 31 →
    let r := x.record unit alive g step
    r.length = 64 ∧ byteAt r 0 = 0x02 ∧ byteAt r 1 = 1 ∧ byteAt r 2 = unit ∧ byteAt r 3 = alive ∧ byteAt r 4 = g ∧ byteAt r 5 = x.reason ∧
      leAt r 6 2 = x.flags step ∧ leAt r 8 8 = x.b0 ∧ leIntAt r 16 8 = x.w0 ∧ (leAt r 24 4 : Int) = x.w1 - x.w0 ∧
      leIntAt r 28 4 = x.x0 ∧ (leAt r 32 4 : Int) = x.x1 - x.x0 ∧ leAt r 36 4 = x.job ∧
      leAt r 40 8 = x.mask ∧ leAt r 48 8 = x.time ∧ leAt r 56 4 = 0 ∧ leAt r 60 4 = crc32c (r.take 60)


/-! Camera links (R73 to R109). -/

/-- The words that a camera port's commands may touch: the LNK block of its tile, and the count of lost notifications. -/
def Sys2Proof.Machine.linkWords (t : Nat) : WordSet := (blockOn 0x03 t).or (CHN_NOTIFY_LOST.wordAt 0)

/-- ENABLE = 1 on a port with RATE 3 or no lane is refused; on a DISABLED port with a lawful configuration it starts training, in L2 where CTRL.PSTATE says so, and in
another state it leaves the state alone (R74, R85).
Training goes from SIGNAL_DETECT over CDR_LOCK, ALIGN and DESKEW to UP, one phase at a time; a relock out of L1 leaves out ALIGN (R92). -/
def Obligations.PortEnableAndTraining : Prop :=
  ∀ (s : State) (t : Tile) (p : Port), s.live → s.fit t →
    (¬ s.is t (LNK_PORT_CTRL_ENABLE p) → (s.rd t (LNK_PORT_CFG_RATE p) = 3 ∨ s.rd t (LNK_PORT_CFG_LANES p) = 0) → s.gives (.portEnable t p) fun u =>
      u.rd t (LNK_PORT_CTRL_ENABLE p) = 0 ∧ u.portSt t p = s.portSt t p ∧ u.rd t (LNK_PORT_ERR_CFG_INVALID p) = 1 ∧
      s.onlyRegs u ((LNK_PORT_ERR p).wordAt t)) ∧
    (¬ s.is t (LNK_PORT_CTRL_ENABLE p) → s.rd t (LNK_PORT_CFG_RATE p) ≠ 3 → s.rd t (LNK_PORT_CFG_LANES p) ≠ 0 → s.gives (.portEnable t p) fun u =>
      u.rd t (LNK_PORT_CTRL_ENABLE p) = 1 ∧ u.portSt t p = (if s.portSt t p = 0 then 1 else s.portSt t p) ∧
      (s.portSt t p = 0 → u.rd t (LNK_PORT_STATUS_PSTATE p) = if s.rd t (LNK_PORT_CTRL_PSTATE p) = 2 then 2 else 0) ∧
      s.sameWords u (linkWords t) ∧ u.mem = s.mem) ∧
    ∀ m : List LaneMeas, s.phaseMet t p m → ¬ s.justEntered t p → ¬ s.lossWaits t p →
      1 ≤ s.portSt t p ∧ s.portSt t p ≤ 4 ∧ s.gives (.phaseComplete t p m) fun u =>
        u.portSt t p = if s.portSt t p = 2 ∧ (s.port t p).relock then 4 else s.portSt t p + 1

/-- ENABLE = 0 puts a port into DISABLED with its lanes in L2; out of UP it counts in DROPS, and a packet in progress is discarded and counted as
a framing error. RETRAIN takes a port that is UP into SIGNAL_DETECT without backoff, ends a backoff with the next interval unchanged, restarts
a phase of training, and is ignored in DISABLED and in TEST (R91), and outside L0 (the model's choice, log 207). What the port receives in the same cycle comes
first: `x` is the state after it. -/
def Obligations.PortDisableAndRetrain : Prop :=
  ∀ (s : State) (t : Tile) (p : Port), s.live → s.fit t →
    let x := s.settle t p
    let cut := (x.port t p).rx.asm.isOpen
    (x.portSt t p ≠ 0 → s.gives (.portDisable t p) fun u =>
      u.rd t (LNK_PORT_CTRL_ENABLE p) = 0 ∧ u.portSt t p = 0 ∧ u.rd t (LNK_PORT_STATUS_PSTATE p) = 2 ∧
      u.rd t (LNK_PORT_DROPS p) = (if x.portSt t p = 5 then min (x.rd t (LNK_PORT_DROPS p) + 1) 0xFFFFFFFF else x.rd t (LNK_PORT_DROPS p)) ∧
      u.rd t (FXL_PORT_FRAME_ERR p) = (if x.portSt t p = 5 ∧ cut then min (x.rd t (FXL_PORT_FRAME_ERR p) + 1) 0xFFFFFFFF else x.rd t (FXL_PORT_FRAME_ERR p)) ∧
      x.sameWords u ((linkWords t).or ((FXL_PORT_FRAME_ERR p).wordAt t)) ∧ u.mem = x.mem) ∧
    (x.portSt t p = 5 → s.gives (.portRetrain t p) fun u => u.portSt t p = 1 ∧
      u.rd t (LNK_PORT_DROPS p) = min (x.rd t (LNK_PORT_DROPS p) + 1) 0xFFFFFFFF ∧
      u.rd t (LNK_PORT_STATUS_BACKOFF_MS p) = x.rd t (LNK_PORT_STATUS_BACKOFF_MS p) ∧ (cut → (u.port t p).dirty = 15)) ∧
    (s.portSt t p ∈ [1, 2, 3, 4, 6] → s.inL0 t p → s.gives (.portRetrain t p) fun u => u.portSt t p = 1 ∧
      u.rd t (LNK_PORT_DROPS p) = s.rd t (LNK_PORT_DROPS p) ∧ u.rd t (LNK_PORT_FAILS p) = s.rd t (LNK_PORT_FAILS p) ∧
      u.rd t (LNK_PORT_STATUS_BACKOFF_MS p) = s.rd t (LNK_PORT_STATUS_BACKOFF_MS p)) ∧
    (s.portSt t p ∈ [1, 2, 3, 4, 6] → ¬ s.inL0 t p → exec (.portRetrain t p) s = .next s) ∧
    (s.portSt t p ∈ [0, 7] → exec (.portRetrain t p) s = .next s)

/-- A write of PSTATE: 3, and 1 while the port is not UP, are refused with a flag and no other effect; L1 and L2 take the port out of UP, and
L0 brings it back to training, from L1 as a relock; of a DISABLED port CTRL.PSTATE alone changes (R92). What the port receives in the same cycle comes before it leaves UP:
`x` is the state after it. -/
def Obligations.PowerStates : Prop :=
  ∀ (s : State) (t : Tile) (p : Port) (v : Fin 4), s.live → s.fit t →
    let x := s.settle t p
    (v = 3 → s.gives (.pstate t p v) fun u => u.rd t (LNK_PORT_ERR_PSTATE_REFUSED p) = 1 ∧ s.onlyRegs u ((LNK_PORT_ERR p).wordAt t)) ∧
    (v = 1 → x.portSt t p ≠ 5 → s.gives (.pstate t p v) fun u => u.rd t (LNK_PORT_ERR_PSTATE_REFUSED p) = 1 ∧ x.sameWords u ((LNK_PORT_ERR p).wordAt t)) ∧
    (v = 1 → x.portSt t p = 5 → s.gives (.pstate t p v) fun u => u.rd t (LNK_PORT_STATUS_PSTATE p) = 1 ∧ u.portSt t p ≠ 5 ∧
      u.rd t (LNK_PORT_DROPS p) = x.rd t (LNK_PORT_DROPS p)) ∧
    (v = 2 → x.portSt t p = 5 → s.gives (.pstate t p v) fun u => u.rd t (LNK_PORT_STATUS_PSTATE p) = 2 ∧ u.portSt t p = 1 ∧
      u.rd t (LNK_PORT_DROPS p) = x.rd t (LNK_PORT_DROPS p)) ∧
    (v = 0 → s.portSt t p ∈ [1, 2, 3, 4] → s.rd t (LNK_PORT_STATUS_PSTATE p) = 2 → s.gives (.pstate t p v) fun u =>
      u.rd t (LNK_PORT_STATUS_PSTATE p) = 0 ∧ u.portSt t p = 1) ∧
    (v = 0 → s.portSt t p ≠ 0 → s.rd t (LNK_PORT_STATUS_PSTATE p) = 1 → s.gives (.pstate t p v) fun u =>
      u.rd t (LNK_PORT_STATUS_PSTATE p) = 0 ∧ u.portSt t p = 2 ∧ (u.port t p).relock = true) ∧
    (v ∈ [0, 2] → s.portSt t p = 0 → s.gives (.pstate t p v) fun u =>
      u.rd t (LNK_PORT_CTRL_PSTATE p) = v.val ∧ s.sameWords u ((LNK_PORT_CTRL p).wordAt t))

/-- A phase that times out counts a failure, keeps its phase, notifies, and enters BACKOFF; the next interval is twice as long, at most
1,000 ms; the port comes back to SIGNAL_DETECT, and 1 s of UP brings the interval to 10 ms (R87). A skew beyond R80 in DESKEW is flagged. A phase that completes in the same
cycle completes (R91). -/
def Obligations.TrainingFailureBacksOff : Prop :=
  ∀ (s : State) (t : Tile) (p : Port), s.live → s.fit t →
    (∀ m : List LaneMeas, s.canTimeOut t p → ¬ s.phaseWaits t p → s.gives (.trainingFailure t p m) fun u => u.portSt t p = 6 ∧
      u.rd t (LNK_PORT_FAILS p) = min (s.rd t (LNK_PORT_FAILS p) + 1) 0xFFFFFFFF ∧ u.rd t (LNK_PORT_STATUS_FAIL_PHASE p) = s.portSt t p ∧
      u.rd t (LNK_PORT_STATUS_BACKOFF_MS p) = min (2 * s.rd t (LNK_PORT_STATUS_BACKOFF_MS p)) 1000 ∧
      u.rd t (LNK_PORT_ERR_SKEW p) = (if s.portSt t p = 4 ∧ (s.bondMeas t p m).length = (s.bond t p).length ∧ skewed (s.bondMeas t p m) then 1 else s.rd t (LNK_PORT_ERR_SKEW p)) ∧
      s.sameWords u (linkWords t) ∧ u.mem = s.mem) ∧
    (∀ m : List LaneMeas, s.phaseWaits t p → exec (.trainingFailure t p m) s = .next s) ∧
    (s.portSt t p = 6 → s.gives (.backoffExpiry t p) fun u => u.portSt t p = 1 ∧
      u.rd t (LNK_PORT_STATUS_BACKOFF_MS p) = s.rd t (LNK_PORT_STATUS_BACKOFF_MS p) ∧ s.sameWords u (linkWords t)) ∧
    (s.portSt t p = 5 → s.gives (.backoffReset t p) fun u => u.rd t (LNK_PORT_STATUS_BACKOFF_MS p) = 10 ∧
      s.onlyRegs u ((LNK_PORT_STATUS p).wordAt t))

/-- Loss of signal, of block lock or of alignment takes a port out of UP at once into SIGNAL_DETECT and counts in DROPS; a packet in progress
is counted as a framing error, and loss of signal sets LOS_UP (R86, R89). A packet whose TERM ends in the same cycle is complete (R89): `x` is the state after it. -/
def Obligations.FaultsLeaveUp : Prop :=
  ∀ (s : State) (t : Tile) (p : Port) (n : Lane), s.live → s.fit t → s.inBond t n → n.val / 3 = p.val →
    let x := s.settle t p
    let left (u : State) : Prop := u.portSt t p = 1 ∧ u.rd t (LNK_PORT_DROPS p) = min (x.rd t (LNK_PORT_DROPS p) + 1) 0xFFFFFFFF ∧
      u.rd t (FXL_PORT_FRAME_ERR p) =
        (if (x.port t p).rx.asm.isOpen then min (x.rd t (FXL_PORT_FRAME_ERR p) + 1) 0xFFFFFFFF else x.rd t (FXL_PORT_FRAME_ERR p)) ∧
      u.rd t (LNK_PORT_STATUS_BACKOFF_MS p) = x.rd t (LNK_PORT_STATUS_BACKOFF_MS p) ∧ u.mem = x.mem
    x.portSt t p = 5 →
    (s.gives (.lossOfSignal t n) fun u => left u ∧ u.rd t (LNK_PORT_ERR_LOS_UP p) = 1 ∧ u.rd t (LNK_LANE_STATUS_SIGNAL n) = 0) ∧
    (∀ bl, (s.laneBlocks t n bl).lockGone t n → (x.laneBlocks t n bl).lockGone t n → s.gives (.blockLockLoss t n bl) fun u => left u ∧
      u.rd t (LNK_PORT_ERR_LOS_UP p) = x.rd t (LNK_PORT_ERR_LOS_UP p) ∧ u.rd t (LNK_LANE_STATUS_BLOCK_LOCK n) = 0) ∧
    (s.portSt t p = 5 → s.gives (.alignmentLoss t p) fun u => left u ∧ u.rd t (LNK_PORT_ERR_LOS_UP p) = x.rd t (LNK_PORT_ERR_LOS_UP p))

/-- Slipping in ALIGN goes on by one bit modulo 66: by software on a manual lane, by the firmware on a lane that is neither manual nor locked;
a lane of the bond gains block lock with 64 valid headers in a row, and SLIP_MANUAL is kept as written (R86). -/
def Obligations.LaneSlips : Prop :=
  ∀ (s : State) (t : Tile) (n : Lane), s.live → s.fit t →
    let next (u : State) : Prop := u.rd t (LNK_LANE_STATUS_SLIP_POS n) = (s.rd t (LNK_LANE_STATUS_SLIP_POS n) + 1) % 66 ∧
      s.sameWords u ((LNK_LANE_STATUS n).wordAt t) ∧ u.mem = s.mem ∧ u.laneHeads t n = []
    (s.laneAligning t n → s.is t (LNK_LANE_CTRL_SLIP_MANUAL n) → s.gives (.slip t n) next) ∧
    (¬ (s.laneAligning t n ∧ s.is t (LNK_LANE_CTRL_SLIP_MANUAL n)) → exec (.slip t n) s = .next s) ∧
    (s.laneAligning t n → ¬ s.is t (LNK_LANE_CTRL_SLIP_MANUAL n) → ¬ s.is t (LNK_LANE_STATUS_BLOCK_LOCK n) → s.gives (.slipDwell t n) next) ∧
    (∀ bl, s.lockSought t n → headsGain ((s.laneBlocks t n bl).laneHeads t n) → s.gives (.blockLockGain t n bl) fun u =>
      u.rd t (LNK_LANE_STATUS_BLOCK_LOCK n) = 1 ∧ s.sameWords u ((LNK_LANE_STATUS n).wordAt t) ∧ u.mem = s.mem) ∧
    ∀ on, s.gives (.slipManual t n on) fun u => u.rd t (LNK_LANE_CTRL_SLIP_MANUAL n) = bitN on ∧ s.onlyRegs u ((LNK_LANE_CTRL n).wordAt t)

/-- TEST and the PRBS checkers (R107): TEST = 1 takes a port into TEST and TEST = 0 back to training or to DISABLED (the model's choice, log 209); a checker that runs
shows lock as its bits decide it, counts errors and bits up to the greatest value, and
one that loses lock sets LOST; INJECT inverts one bit where the generator runs, and else none; a self-test's dwell ends in training. -/
def Obligations.PrbsTesting : Prop :=
  ∀ (s : State) (t : Tile) (p : Port) (n : Lane), s.live → s.fit t →
    (¬ s.is t (LNK_PORT_CTRL_TEST p) → s.gives (.lnkTest t p true) fun u => u.portSt t p = 7 ∧ u.rd t (LNK_PORT_CTRL_TEST p) = 1) ∧
    (s.is t (LNK_PORT_CTRL_TEST p) → s.portSt t p = 7 → s.gives (.lnkTest t p false) fun u =>
      u.portSt t p = s.rd t (LNK_PORT_CTRL_ENABLE p) ∧ u.rd t (LNK_PORT_CTRL_TEST p) = 0) ∧
    (∀ bits, let x := s.prbsRun t n bits
      let fed (u : State) : Prop := u.rd t (LNK_LANE_PRBS_STATUS_LOCK n) = bitN x.locked ∧
        u.rd t (LNK_LANE_PRBS_STATUS_LOST n) = (if x.lost then 1 else s.rd t (LNK_LANE_PRBS_STATUS_LOST n)) ∧
        u.rd64 t (LNK_LANE_PRBS_ERR_LO n) = min (s.rd64 t (LNK_LANE_PRBS_ERR_LO n) + x.errors) (2 ^ 64 - 1) ∧
        u.rd64 t (LNK_LANE_PRBS_BITS_LO n) = min (s.rd64 t (LNK_LANE_PRBS_BITS_LO n) + x.bits) (2 ^ 64 - 1) ∧
        s.sameWords u (blockOn 0x03 t) ∧ u.mem = s.mem
      (s.inBond t n → s.portSt t (n.val / 3) = 7 → 1 ≤ s.prbsPattern t n → s.prbsPattern t n ≤ 5 → s.gives (.prbsCheckerLock t n bits) fed) ∧
      (s.is t (LNK_LANE_PRBS_STATUS_LOCK n) → s.gives (.prbsCheckerLoss t n bits) fed)) ∧
    (s.is t (LNK_PORT_BC_CTRL_ENABLE p) → 1 ≤ s.rd t (LNK_PORT_BC_CTRL_PRBS p) → s.rd t (LNK_PORT_BC_CTRL_PRBS p) ≤ 5 →
      s.gives (.inject t p) fun u => (u.port t p).back.inject = (s.port t p).back.inject + 1 ∧ u.regs = s.regs) ∧
    (s.bcOn t p → exec (.inject t p) s = .next s) ∧
    (s.portSt t p = 7 → 2 ≤ (s.port t p).hold → s.is t (LNK_PORT_CTRL_ENABLE p) → s.gives (.selftestDwellEnd t p) fun u =>
      u.portSt t p = if (s.port t p).hold = 2 then 2 else 1)

/-- What the assembly of a packet becomes over blocks of the stream that bring neither a framing error nor the end of a packet; none where one does. -/
def Sys2Proof.Machine.PacketAsm.quiet (a : PacketAsm) : List BlockKind → Option PacketAsm
  | [] => some a
  | k :: l => if (a.step k).error || (a.step k).packet.isSome then none else (a.step k).asm.quiet l

/-- One round of blocks has come in on the bond of a port that is UP, where no alignment round is due (R79): its sync headers are valid and no lane loses block lock (R76, R86),
one of its blocks does `r` to the packet under assembly, and the others bring neither a framing error nor the end of a packet (R78, R97). -/
def Sys2Proof.Machine.State.roundBrings (s : State) (t p : Nat) (rx : List LaneRx) (r : AsmStep) : Prop :=
  s.portSt t p = 5 ∧ (s.port t p).ahead = 0 ∧ (s.port t p).rx.due ≠ 0 ∧ rx.length = (s.bond t p).length ∧
    (∀ k < rx.length, ((s.port t p).rx.lane k).queue = []) ∧ (∀ x ∈ rx, x.blocks.length = 1) ∧
    let l := (s.bond t p).zip (rx.map fun x => x.blocks.headD 0)
    (∀ x ∈ l, headOk (s.headOf t x.1 x.2)) ∧ (∀ n ∈ s.bond t p, ¬ headsLose (headPush (s.laneHeads t n) true)) ∧
    ∃ pre k post a, (s.roundKinds t l).1 = pre ++ k :: post ∧ k.isAlign = false ∧ (s.port t p).rx.asm.quiet pre = some a ∧ r = a.step k ∧
      (r.asm.quiet post).isSome

/-- LNK_LANEn_PPM of every lane of a tile: the frequency offset follows what a port receives (R84). -/
def Sys2Proof.Machine.ppmWords (t : Nat) : WordSet := fun tile blk off => ∃ n < 6, (LNK_LANE_PPM n).wordAt t tile blk off

/-- A CMD (R105, R106): SEND makes it PENDING, is refused while one is PENDING or for OP 0 and 3; a matching ACK ends it with DONE, STATUS and
DATA, any other sets UNSOLICITED_ACK, and its timeout makes STATE TIMEOUT unless its ACK comes in the same cycle. Back-channel messages start in order, each between K27.7 and
K29.7 (R103): an EXPSET that waits before a CMD
that waits; disabling the back channel loses the CMD that waits, and an EXPSET that waits as one not sent (R104, R105, R135). -/
def Obligations.CameraCommandsAndMessages : Prop :=
  ∀ (s : State) (t : Tile) (p : Port) (v : BitVec 32), s.live → s.fit t → (s.port t p).far = false → (s.port t p).farWait = false →
    (v.getLsbD 16 → s.rd t (FXL_PORT_CMD_STATUS_STATE p) = 1 → s.gives (.send t p v) fun u =>
      u.rd t (FXL_PORT_ERR_SEND_BUSY p) = 1 ∧ s.onlyRegs u ((FXL_PORT_ERR p).wordAt t)) ∧
    (v.getLsbD 16 → s.rd t (FXL_PORT_CMD_STATUS_STATE p) ≠ 1 → bitsOf v.toNat 9 8 ∈ [0, 3] → s.gives (.send t p v) fun u =>
      u.rd t (FXL_PORT_ERR_BAD_OP p) = 1 ∧ u.rd t (FXL_PORT_CMD_STATUS_STATE p) = s.rd t (FXL_PORT_CMD_STATUS_STATE p) ∧ u.ports = s.ports) ∧
    (v.getLsbD 16 → s.rd t (FXL_PORT_CMD_STATUS_STATE p) ≠ 1 → bitsOf v.toNat 9 8 ∈ [1, 2] → s.gives (.send t p v) fun u =>
      u.rd t (FXL_PORT_CMD_STATUS_STATE p) = 1 ∧ (u.port t p).cmdTag = v.toNat % 256 ∧
      (s.bcOn t p → (u.port t p).cmd = some (cmdMsg (v.toNat % 256) (bitsOf v.toNat 9 8) (s.rd t (FXL_PORT_CMD_ADDR p))
        (if bitsOf v.toNat 9 8 = 1 then s.rd t (FXL_PORT_CMD_DATA p) else 0)))) ∧
    (∀ (rx : List LaneRx) (r : AsmStep) (k : Bytes), s.roundBrings t p rx r → r.packet = some k → k.length = 16 → byteAt k 0 = 2 → crcGood k →
      s.gives (.ackPacket t p rx) fun u =>
      if s.rd t (FXL_PORT_CMD_STATUS_STATE p) = 1 ∧ byteAt k 2 = (s.port t p).cmdTag then
        u.rd t (FXL_PORT_CMD_STATUS_STATE p) = 2 ∧ u.rd t (FXL_PORT_CMD_STATUS_ACK_STATUS p) = byteAt k 3 ∧ u.rd t (FXL_PORT_ACK_DATA p) = leAt k 8 4
      else u.rd t (FXL_PORT_ERR_UNSOLICITED_ACK p) = 1 ∧ s.sameWords u (((FXL_PORT_ERR p).wordAt t).or (ppmWords t))) ∧
    (let x := s.settle t p;
      s.rd t (FXL_PORT_CMD_STATUS_STATE p) = 1 →
        (x.rd t (FXL_PORT_CMD_STATUS_STATE p) = 1 → (x.port t p).far = false → (x.port t p).farWait = false → s.gives (.cmdTimeout t p) fun u =>
          u.rd t (FXL_PORT_CMD_STATUS_STATE p) = 3 ∧ (u.port t p).cmd = none ∧ x.sameWords u ((FXL_PORT_CMD_STATUS p).wordAt t)) ∧
        (x.rd t (FXL_PORT_CMD_STATUS_STATE p) ≠ 1 → s.gives (.cmdTimeout t p) fun u => u.regs = x.regs ∧ u.ports = x.ports)) ∧
    (s.locked t .aux → s.bcFree t p →
      let starts (u : State) (m : BcMsg) : Prop := (u.port t p).sending = some m ∧ (u.port t p).back.chars = messageChars m.body ∧
        u.regs = s.regs ∧ u.mem = s.mem
      (∀ m l, (s.port t p).expq = m :: l → s.gives (.expsetMessage t p) fun u => starts u m ∧ (u.port t p).expq = l) ∧
      (∀ m, (s.port t p).expq = [] → (s.port t p).cmd = some m → s.gives (.cmdMessage t p) fun u => starts u m ∧ (u.port t p).cmd = none) ∧
      (∀ m l, (s.port t p).expq = m :: l → exec (.cmdMessage t p) s = .next s)) ∧
    (s.bcOn t p → ¬ v.getLsbD 0 → s.gives (.bcDisable t p v) fun u =>
      ¬ u.bcOn t p ∧ (u.port t p).cmd = none ∧ (u.port t p).expq = [] ∧ ((s.port t p).expq ≠ [] → u.rd t (EXP_PORT_ERR_NOT_SENT p) = 1))

/-! Counters, the line path, exposure sets and stitching (R97, R110 to R172). -/

/-- The command answers a next state in which the fields of `l` on tile `t` hold what they have gained in the present cycle (R16), and nothing but their words has
changed. -/
def Sys2Proof.Machine.State.clears (s : State) (i : Instr) (t : Nat) (l : List Fld) : Prop :=
  s.gives i fun u => (∀ f ∈ l, u.rd t f = gained (2 ^ (f.hi + 1 - f.lo)) (s.rd t f) (s.began.rd t f)) ∧
    s.onlyRegs u fun tile blk off => tile = t ∧ ∃ f ∈ l, blk = f.blk ∧ off = f.off

/-- A 64-bit counter holds what it has gained in the present cycle (R16). -/
def Sys2Proof.Machine.State.cleared64 (s u : State) (t : Nat) (f : Fld) : Prop := u.rd64 t f = gained (2 ^ 64) (s.rd64 t f) (s.began.rd64 t f)

/-- A write of 1 to a clear bit clears the counters of its block and changes nothing else: a counter is left with what it has gained in the same cycle, 0 where that
is nothing (R16, and the CLR row of each block's table). -/
def Obligations.CountersClear : Prop :=
  (∀ n v : Nat, 0 < n → gained n v v = 0) ∧ (∀ n v k : Nat, v < n → k < n → gained n ((v + k) % n) v = k) ∧
  ∀ (s : State) (t : Tile), s.live → s.fit t →
    (∀ l : Link, s.id.bonded t l → s.clears (.d2dClrCrcErr t l) t [D2D_L_CRC_ERR_COUNT l] ∧ s.clears (.d2dClrReplay t l) t [D2D_L_REPLAY_COUNT l] ∧
      s.gives (.d2dClrTxFlits t l) fun u => s.cleared64 u t (D2D_L_TX_FLITS_LO l) ∧ s.onlyRegs u ((D2D_L_TX_FLITS_LO l).pairAt t)) ∧
    (∀ clr : BitVec 8, s.gives (.bndMissClr t clr) fun u =>
      (∀ k : Fin 8, u.rd t (BND_MISS k) = if clr.getLsbD k then gained (2 ^ 32) (s.rd t (BND_MISS k)) (s.began.rd t (BND_MISS k)) else s.rd t (BND_MISS k)) ∧
      s.onlyRegs u fun tile blk off => tile = t ∧ ∃ k < 8, clr.getLsbD k ∧ blk = (BND_MISS k).blk ∧ off = (BND_MISS k).off) ∧
    (∀ n : Lane, s.clears (.lnkLaneClrSyncErr t n) t [LNK_LANE_SYNC_ERR n] ∧
      s.gives (.lnkLaneClrPrbs t n) fun u => s.cleared64 u t (LNK_LANE_PRBS_ERR_LO n) ∧ s.cleared64 u t (LNK_LANE_PRBS_BITS_LO n) ∧
        s.onlyRegs u (((LNK_LANE_PRBS_ERR_LO n).pairAt t).or ((LNK_LANE_PRBS_BITS_LO n).pairAt t))) ∧
    (∀ p : Port, s.clears (.lnkPortClrFails t p) t [LNK_PORT_FAILS p] ∧ s.clears (.lnkPortClrDrops t p) t [LNK_PORT_DROPS p] ∧
      s.clears (.fxlClrLines t p) t [FXL_PORT_LINES p 0, FXL_PORT_LINES p 1, FXL_PORT_LINES p 2, FXL_PORT_LINES p 3] ∧
      s.clears (.fxlClrCrcErr t p) t [FXL_PORT_CRC_ERR p] ∧ s.clears (.fxlClrFrameErr t p) t [FXL_PORT_FRAME_ERR p] ∧
      s.clears (.fxlClrDiscard t p) t [FXL_PORT_DISCARD p] ∧ s.clears (.fxlClrTrig t p) t [FXL_PORT_TRIG p] ∧
      s.clears (.ingClrCounters t p) t ([0, 1, 2, 3].flatMap fun u => [ING_PORT_SUB_GOOD p u, ING_PORT_SUB_MISSING p u, ING_PORT_SUB_OVERFLOW p u,
        ING_PORT_SUB_LATE p u, ING_PORT_SUB_STAMP_ERR p u, ING_PORT_SUB_FMT_ERR p u, ING_PORT_SUB_DEADLINE p u, ING_PORT_SUB_SAT p u,
        ING_PORT_SUB_CAMLOST p u, ING_PORT_SUB_TEST p u])) ∧
    s.clears (.expClrCounters t) t ([0, 1].flatMap fun p => EXP_PORT_AE_COMMITS p :: [0, 1, 2, 3].flatMap fun u =>
      [EXP_PORT_SUB_MIXED p u, EXP_PORT_SUB_DROPPED p u]) ∧
    s.clears (.stiClrCounters t) t (((List.range 8).flatMap fun g => [STI_GRP_LINES g, STI_GRP_SINGLE g]) ++ [0, 1, 2, 3].map STI_IMP_LATE) ∧
    s.clears (.refClrCounters t) t (REF_DISCARD :: (List.range 8).flatMap fun g => [REF_GRP_LATE g, REF_GRP_FAILS g]) ∧
    s.clears (.segClrCounters t) t ((List.range 8).flatMap fun g => [SEG_GRP_BRAMBLES g, SEG_GRP_REJECTED g, SEG_GRP_TRUNCATED g,
      SEG_GRP_UNLABELLED g, SEG_GRP_DROPPED g, SEG_GRP_NOVERDICT g]) ∧
    (s.gives (.engClrCounters t) fun u => (∀ e < 128, u.rd t (ENG_E_IN_LOST e) = gained (2 ^ 32) (s.rd t (ENG_E_IN_LOST e)) (s.began.rd t (ENG_E_IN_LOST e)) ∧
        u.rd t (ENG_E_CYCLES_MAX e) = 0) ∧
      s.onlyRegs u fun tile blk off => tile = t ∧ ∃ e < 128, ∃ f ∈ [ENG_E_IN_LOST e, ENG_E_CYCLES_MAX e], blk = f.blk ∧ off = f.off) ∧
    s.clears (.queClrCounters t) t (QUE_ERRREC_LOST :: (List.range 256).flatMap fun q =>
      [QUE_Q_PUSHED q, QUE_Q_REFUSED q, QUE_Q_POISONED q, QUE_Q_LOST q]) ∧
    s.clears (.firClrCounters t) t ((List.range 16).flatMap fun f => [FIR_CH_OUTPUTS f, FIR_CH_IN_LOST f, FIR_CH_HOLDS f, FIR_CH_SAT f, FIR_CH_QLOST f]) ∧
    (∀ p : EthPort, s.fit p → s.clears (.ethClrCounters p) p [ETH_RX_FRAMES, ETH_RX_FCS_ERR, ETH_RX_LEN_ERR, ETH_RX_MACCTRL, ETH_TX_FRAMES,
      ETH_PASS_FRAMES, ETH_PASS_DROP, ETH_PASS_STOMP, ETH_FEC_CORR, ETH_FEC_UNCORR, ETH_REF_DROP, ETH_REF_STRIPES]) ∧
    s.clears .colClrCounters 0 [COL_GRID_SYNTH, COL_GRID_IGNORED, COL_MARK_APPENDED, COL_MARK_MERGED, COL_MARK_LOST, COL_LATE_BANDS, COL_CAPPED,
      COL_LOST, COL_RECORDS] ∧
    s.clears .chnClrCounters 0 [CHN_CONFLICTS, CHN_LCP_BAD, CHN_LCP_REQS, CHN_NOTIFY_SENT, CHN_NOTIFY_LOST, CHN_NOTIFY_GIVEUP] ∧
    s.clears .outClrCounters 0 ((List.range 8).flatMap fun i => [OUT_STR_LINES i, OUT_STR_DROPPED i, OUT_REC_DGRAMS i, OUT_REC_LATE i]) ∧
    s.clears .posClrCounters 0 ([POS_LTG_TICKS, POS_MARK_MISSED] ++
      ((List.range 4).flatMap fun c => [POS_CH_ZCOUNT c, POS_CH_FILT_FAULTS c, POS_CH_QUAD_FAULTS c]) ++ [POS_ABS_ERRORS 0, POS_ABS_ERRORS 1] ++
      (List.range 16).flatMap fun u => [POS_CMP_FIRED u, POS_CMP_MISSED_COUNT u])

/-- What a camera port that is UP receives is checked in the order of R97: framing, CRC, TYPE and the fields of a LINE, length, SUB_EN; the
first check that fails counts it and drops it. A LINE packet that passes counts in LINES; while RUN is 0 it has no other effect, and while RUN is 1 the line that it is associated with,
where that is neither late nor ahead of the next tick, moves E on behind it (R110 to R113). On a port that is not UP there is no packet. -/
def Obligations.LinePacketChecked : Prop :=
  ∀ (s : State) (t : Tile) (p : Port) (rx : List LaneRx), s.live → s.fit t →
    let counted (f : Fld) (u : State) : Prop := u.rd t f = min (s.rd t f + 1) 0xFFFFFFFF ∧ s.sameWords u ((f.wordAt t).or (ppmWords t)) ∧ u.mem = s.mem ∧ u.path = s.path
    (s.portSt t p ≠ 5 → (s.port t p).ahead = 0 → exec (.linePacket t p rx) s = .next s ∧ exec (.ackPacket t p rx) s = .next s) ∧
    ∀ r, s.roundBrings t p rx r →
      (r.error → s.gives (.linePacket t p rx) fun u => counted (FXL_PORT_FRAME_ERR p) u ∧ (u.port t p).dirty = 15) ∧
      ∀ k, r.error = false → r.packet = some k →
        let sub := t.val * 8 + p.val * 4 + byteAt k 1
        (¬ crcGood k → s.gives (.linePacket t p rx) fun u => counted (FXL_PORT_CRC_ERR p) u ∧ (u.port t p).dirty = 15) ∧
        (crcGood k → (byteAt k 0 ≠ 1 ∧ byteAt k 0 ≠ 2 ∨ byteAt k 0 = 1 ∧ ¬ lineFieldsOk k) → s.gives (.linePacket t p rx) fun u =>
          counted (FXL_PORT_DISCARD p) u ∧ (u.port t p).dirty = (s.port t p).dirty) ∧
        (crcGood k → byteAt k 0 = 1 → lineFieldsOk k →
          (k.length ≠ packetLen k → s.gives (.linePacket t p rx) fun u => counted (FXL_PORT_FRAME_ERR p) u ∧ (u.port t p).dirty = 15) ∧
          (k.length = packetLen k → ¬ (s.rd t (FXL_PORT_CTRL_SUB_EN p)).testBit (byteAt k 1) → s.gives (.linePacket t p rx) fun u =>
            counted (FXL_PORT_DISCARD p) u ∧ (u.port t p).dirty = (s.port t p).dirty) ∧
          (k.length = packetLen k → (s.rd t (FXL_PORT_CTRL_SUB_EN p)).testBit (byteAt k 1) → ¬ s.isMaster sub → s.gives (.linePacket t p rx) fun u =>
            u.rd t (FXL_PORT_LINES p (byteAt k 1)) = (s.rd t (FXL_PORT_LINES p (byteAt k 1)) + 1) % 2 ^ 32 ∧
            (¬ s.is 0 BND_CTRL_RUN → s.sameWords u (((FXL_PORT_LINES p (byteAt k 1)).wordAt t).or (ppmWords t)) ∧ u.path = s.path ∧ u.mem = s.mem) ∧
            (s.is 0 BND_CTRL_RUN → s.locked t .sys → ¬ (leAt k 10 2).testBit 1 → ∀ a : Nat, s.assocLine t p (byteAt k 1) (leAt k 4 4) = a →
              s.expect t p (byteAt k 1) ≤ a → (a : Int) ≤ s.lineC + 1 → s.lineMapped t p (byteAt k 1) a → u.expect t p (byteAt k 1) = (a + 1) % 2 ^ 64)))

/-- The gain banks (R123, R124): SWAP queues a fade, a second one waits in PENDING, a third is refused with SWAP_BUSY; a write that meets the
band tick of its cycle is flagged LATE_WRITE, in whichever order the two come (R129). A fade that is due starts at FADE_POS 0 and takes its request away. The gain of the j-th line of a fade of LEN
lines lies between the two banks' gains, begins at the old and ends at the new one. -/
def Obligations.GainFade : Prop :=
  (∀ (s : State) (t : Tile) (p : Port) (u : Sub), s.live → s.fit t →
    let q := COR_PORT_SUB_GAIN_CTRL_QUEUED p u
    let w := COR_PORT_SUB_GAIN_CTRL_PENDING p u
    let x := s.sub (t * 8 + p * 4 + u)
    let late (v : State) : Prop := v.rd t (COR_PORT_SUB_ERR_LATE_WRITE p u) =
      (if s.inTickCycle then 1 else s.rd t (COR_PORT_SUB_ERR_LATE_WRITE p u)) ∧
      (¬ s.inTickCycle → (t.val, COR_PORT_SUB_ERR_LATE_WRITE p u) ∈ v.cyc.late) ∧
      s.onlyRegs v (((COR_PORT_SUB_GAIN_CTRL p u).wordAt t).or ((COR_PORT_SUB_ERR p u).wordAt t))
    (x.fade = none → x.fadeDue = none → ¬ s.is t q → s.gives (.gainSwap t p u) fun v => v.rd t q = 1 ∧ v.rd t w = s.rd t w ∧ late v) ∧
    ((x.fade ≠ none ∨ x.fadeDue ≠ none ∨ s.is t q) → ¬ s.is t w → s.gives (.gainSwap t p u) fun v => v.rd t w = 1 ∧ v.rd t q = s.rd t q ∧ late v) ∧
    ((x.fade ≠ none ∨ x.fadeDue ≠ none ∨ s.is t q) → s.is t w → s.gives (.gainSwap t p u) fun v =>
      v.rd t (COR_PORT_SUB_ERR_SWAP_BUSY p u) = 1 ∧ v.rd t w = s.rd t w ∧ v.rd t q = s.rd t q ∧ late v) ∧
    (∀ a n, x.fadeDue = some (a, n) → s.gives (.fadeStart t p u) fun v => v.rd t (COR_PORT_SUB_GAIN_CTRL_FADING p u) = 1 ∧
      v.rd t (COR_PORT_SUB_GAIN_CTRL_FADE_POS p u) = 0 ∧ v.rd t q = 0 ∧ v.rd t w = (if s.is t q then s.rd t w else 0) ∧
      (v.sub (t * 8 + p * 4 + u)).fadeDue = none ∧ ((v.sub (t * 8 + p * 4 + u)).fade).isSome ∧
      s.sameWords v ((COR_PORT_SUB_GAIN_CTRL p u).wordAt t) ∧ v.mem = s.mem)) ∧
  ∀ j len a b : Nat, 0 < len → j ≤ len →
    fadeGain 0 len a b = a ∧ fadeGain len len a b = b ∧ min a b ≤ fadeGain j len a b ∧ fadeGain j len a b ≤ max a b

/-- The stages of the line path at their events (R113 to R119, R138 to R145). When the wait of a sub-stream expires E moves on behind line C − WAIT, and a line skipped is missing;
what arrives in the same cycle has arrived (R129): `x` is the state after it. The pipeline takes the staged line with the lowest number, which stays in its buffer while it is in the input
stage; its oldest line leaves it corrected; a deadline leaves no line of a band past it staged or in the pipeline. Statistics whose last line has left correction are complete, and at the
release of a band those of its tile go. -/
def Obligations.LinePathStages : Prop :=
  ∀ (s : State) (t : Tile) (p : Port) (u : Sub), s.live → s.fit t →
    let key := t.val * 2 + p.val
    let sub := t.val * 8 + p.val * 4 + u.val
    (s.is 0 BND_CTRL_RUN →
      let x := s.settle t p
      let c := x.lineC - x.rd t (ING_PORT_CTRL_WAIT p)
      s.gives (.lineWaitExpiry t p u) fun v =>
        v.expect t p u = (if 0 ≤ c then max (x.expect t p u) (c.toNat + 1) % 2 ^ 64 else x.expect t p u) ∧
        (c = x.expect t p u → x.lineMapped t p u (x.expect t p u) →
          v.rd t (ING_PORT_SUB_MISSING p u) = min (x.rd t (ING_PORT_SUB_MISSING p u) + 1) 0xFFFFFFFF)) ∧
    ((∀ y ∈ smGet [] key s.path.pipe, y.input = none) → s.nextStaged t p = none → exec (.pipelineTake t p) s = .next s) ∧
    (s.locked t .sys →
      let y := s.leaveInput t p
      ∀ v l, y.nextStaged t p = some (v, l) → s.gives (.pipelineTake t p) fun x =>
        (∃ g, smGet [] key x.path.pipe = smGet [] key y.path.pipe ++ [g] ∧ g.sub = t.val * 8 + p.val * 4 + v ∧ g.line = l ∧ g.input.isSome) ∧
        x.rd t (ING_PORT_STATUS_BUSY p) = 1 ∧ x.rd t (ING_PORT_STATUS_CURRENT p) = v ∧
        (x.sub (t * 8 + p * 4 + v)).staged = (y.sub (t * 8 + p * 4 + v)).staged) ∧
    (smGet [] key s.path.pipe = [] → exec (.correctedLine t p) s = .next s) ∧
    (∀ l rest, s.locked t .sys → smGet [] key s.path.pipe = l :: rest → s.gives (.correctedLine t p) fun x =>
      smGet [] key x.path.pipe = rest ∧
      (¬ s.alignOn (s.lineCfg l.line.a) t p (l.sub % 4) →
        x.rd t (COR_PORT_SUB_LINES p (l.sub % 4)) = (s.rd t (COR_PORT_SUB_LINES p (l.sub % 4)) + 1) % 2 ^ 32)) ∧
    (s.leavingNow t p = 0 → s.gives (.linePathDeadline t p) fun x =>
      (∀ y ∈ smGet [] key x.path.pipe, ¬ s.linePast y.line.a) ∧ ∀ v < 4, ∀ l ∈ (x.sub (t * 8 + p * 4 + v)).staged, ¬ s.linePast l.a) ∧
    (∀ b, s.locked t .sys → s.statLast sub → (s.path.stats.find? fun b => b.sub == sub && !b.complete) = some b → s.gives (.statisticsComplete t p u) fun x =>
      x.path.stats = (s.path.stats.map fun y => if y.sub == sub && y.n == b.n then { y with complete := true } else y) ∧ x.regs = s.regs ∧ x.mem = s.mem) ∧
    (s.locked t .sys → s.statDue t → s.gives (.statisticsRelease t) fun x =>
      let k := smGet 0 t s.path.statNext
      smGet 0 t x.path.statNext = k + 1 ∧ ∀ y ∈ x.path.stats, ¬ (y.sub / 8 = t ∧ y.n = k))

/-- Exposure sets (R133 to R135, R146 to R149): COMMIT makes the set pending and is flagged LATE_WRITE in the cycle of a band tick, in whichever order the two come; a set that is due is handed
over: SET_ID 0 is refused with a flag, any other is recorded as the last commit of its band, and sent to the camera where the back channel
runs and the port is UP; clearing AE_EN ends the loop's own set. -/
def Obligations.ExposureSets : Prop :=
  ∀ (s : State) (t : Tile) (p : Port), s.live → s.fit t →
    (s.gives (.commit t p) fun u => u.rd t (EXP_PORT_SET_CTRL_PENDING p) = 1 ∧
      u.rd t (EXP_PORT_ERR_LATE_WRITE p) = (if s.inTickCycle then 1 else s.rd t (EXP_PORT_ERR_LATE_WRITE p)) ∧
      (¬ s.inTickCycle → (t.val, EXP_PORT_ERR_LATE_WRITE p) ∈ u.cyc.late) ∧
      s.onlyRegs u (((EXP_PORT_SET_CTRL p).wordAt t).or ((EXP_PORT_ERR p).wordAt t))) ∧
    ((s.exp t p).due = none → exec (.expHandOver t p) s = .next s) ∧
    (∀ x c loop, (s.exp t p).due = some (x, c, loop) → x.id = 0 → s.gives (.expHandOver t p) fun u => (u.exp t p).due = none ∧
      u.rd t (EXP_PORT_ERR_SET_ID_INVALID p) = 1 ∧ s.sameWords u ((EXP_PORT_ERR p).wordAt t) ∧ u.mem = s.mem ∧ u.ports = s.ports) ∧
    (∀ x c loop, (s.exp t p).due = some (x, c, loop) → x.id ≠ 0 → x.id < 256 → c < 2 ^ 64 → s.gives (.expHandOver t p) fun u =>
      (u.exp t p).due = none ∧ u.rd t (EXP_PORT_LAST_COMMIT_ID p) = x.id ∧ u.rd t (EXP_PORT_LAST_COMMIT_AE p) = bitN loop ∧
      u.rd64 t (EXP_PORT_COMMIT_BAND_LO p) = c ∧ u.mem = s.mem ∧
      (s.bcOn t p → s.portSt t p = 5 → (u.port t p).expq = (s.port t p).expq ++ [x.msg c]) ∧
      (¬ (s.bcOn t p ∧ s.portSt t p = 5) → u.rd t (EXP_PORT_ERR_NOT_SENT p) = 1 ∧ u.ports = s.ports)) ∧
    s.gives (.aeDisable t p) fun u => u.rd t (EXP_PORT_AE_CTRL_AE_EN p) = 0 ∧ (u.exp t p).loop = none ∧ (u.exp t p).due = (s.exp t p).due ∧
      s.sameWords u ((EXP_PORT_AE_CTRL p).wordAt t) ∧ u.mem = s.mem ∧ u.ports = s.ports

/-- Stitching (R157 to R171): an import that has arrived moves its window on by one line; one that is late, and does not arrive in the same cycle, counts in IMP_LATE, sets IMPORT_LATE and
moves on too; COMMIT makes the trims pending; a line enters the stitcher in the order of R167, and the one that entered first completes: it counts in LINES and is kept for its band; trims handed over are
in effect where registration does not own them. -/
def Obligations.StitchingCommands : Prop :=
  ∀ (s : State) (t : Tile) (i : Fin 4), s.live → s.fit t →
    (s.impReady t i → s.gives (.importedLine t i) fun u => (u.imp t i).next = (s.imp t i).next + 1 ∧ (u.imp t i).late = (s.imp t i).late ∧
      u.regs = s.regs ∧ u.mem = s.mem) ∧
    (s.impExpired t i → ¬ s.impComes t i → s.gives (.importLate t i) fun u => (u.imp t i).next = (s.imp t i).next + 1 ∧ (u.imp t i).late.head? = some (s.imp t i).next ∧
      u.rd t (STI_IMP_LATE i) = min (s.rd t (STI_IMP_LATE i) + 1) 0xFFFFFFFF ∧ u.rd t STI_ERR_IMPORT_LATE = 1 ∧
      s.sameWords u (((STI_IMP_LATE i).wordAt t).or (STI_ERR.wordAt t)) ∧ u.mem = s.mem) ∧
    (s.impComes t i → exec (.importLate t i) s = .next s) ∧
    (s.gives (.trimCommit t) fun u => u.rd t STI_TRIM_CTRL_PENDING = 1 ∧
      u.rd t STI_ERR_LATE_WRITE = (if s.inTickCycle then 1 else s.rd t STI_ERR_LATE_WRITE) ∧ (¬ s.inTickCycle → (t.val, STI_ERR_LATE_WRITE) ∈ u.cyc.late) ∧
      s.onlyRegs u ((STI_TRIM_CTRL.wordAt t).or (STI_ERR.wordAt t))) ∧
    (s.sti.due.find? (·.1 == t.val) = none → exec (.trimHandOver t) s = .next s) ∧
    (∀ d vs, s.sti.due.find? (·.1 == t.val) = some (t.val, d) → d.soft = some vs → vs.length = 8 → d.reg = [] → s.gives (.trimHandOver t) fun u =>
      u.sti.due.find? (·.1 == t.val) = none ∧ ∀ k : Fin 8, ¬ s.trimOwned (t.val * 8 + k.val) → ∃ v, vs[k.val]? = some v ∧
        u.rdS t (STI_SUB_TRIM_NOW_X k) = sInt 16 (uNat 16 v.1) ∧ u.rdS t (STI_SUB_TRIM_NOW_Y k) = sInt 16 (uNat 16 v.2) ∧
        ∀ n, d.first ≤ n → u.trimAt (t.val * 8 + k.val) n = v) ∧
    (s.stPick t = none → exec (.stitchLineStart t) s = .next s) ∧
    (∀ l, s.locked t .sys → s.stPick t = some l → s.gives (.stitchLineStart t) fun u =>
      smGet 0 (t * 8 + l.group) u.sti.next = l.a + 1 ∧ smGet [] t u.sti.built = smGet [] t s.sti.built ++ [l] ∧ u.mem = s.mem) ∧
    (smGet [] t s.sti.built = [] → exec (.stitchLineComplete t) s = .next s) ∧
    (∀ l rest, s.locked t .sys → smGet [] t s.sti.built = l :: rest → l.group < 8 → s.gives (.stitchLineComplete t) fun u =>
      smGet [] t u.sti.built = rest ∧ (smGet [] (t * 8 + l.group) u.sti.done).head? = some l ∧
      u.rd t (STI_GRP_LINES l.group) = (s.rd t (STI_GRP_LINES l.group) + 1) % 2 ^ 32)

/-! References and registration, segmentation and the collector (R173 to R236). -/

/-- A REF packet (R348, R180, R181): at port B it waits while its way to tile 0 is not open, else it has come over as `x`. Of no session of its sender it is dropped
and counted in LCP_BAD; else its session is touched and it goes to the stripe being received, which it opens or goes on with, and a packet that goes on with no stripe
begun is counted in REF_DROP. A stripe that has come is taken from its tile's arrivals and stored in the ring of its job where that has room; for a job of neither
configuration it is discarded with JOB. -/
def Obligations.ReferenceStripes : Prop :=
  (∀ (s : State) (h : LcpHdr) (pay : Bytes), s.live → s.lcpMine h → s.rd 0 CHN_ADDR_ADDR ≠ 0 →
    (s.lcpStays h → s.gives (.lcpRef h pay) fun u => u.net.hopIn = s.net.hopIn ++ [⟨h, 0x50, pay⟩] ∧ u.regs = s.regs ∧ u.mem = s.mem) ∧
    (¬ s.lcpStays h → h.dst.val ≠ 63 →
      let x := s.hopOver h
      let k := pay.drop 4
      let held (g : Nat) (l : Bytes) : Prop := s.gives (.lcpRef h pay) fun u => (⟨h.port, g, l⟩ : StripeIn) ∈ u.net.stripesIn ∧ u.ref = s.ref ∧ u.mem = s.mem
      let part (l : Bytes) : Prop := l.length < 48 ∨ stripeLen l ≤ 1048576 ∧ l.length < stripeLen l
      ((h.session.val = 0 ∨ ¬ x.sessMine h) → s.gives (.lcpRef h pay) fun u => u.rd 0 CHN_LCP_BAD = min (x.rd 0 CHN_LCP_BAD + 1) 0xFFFFFFFF ∧
        u.rd 0 CHN_ERR_LCP_BAD = 1 ∧ x.onlyRegs u ((CHN_LCP_BAD.wordAt 0).or (CHN_ERR.wordAt 0))) ∧
      (h.session.val ≠ 0 → x.sessMine h → exec (.lcpRef h pay) s = .next (s.after ((x.sessTouch h).refPacket h.port pay))) ∧
      (h.session.val ≠ 0 → x.sessMine h → leAt pay 0 4 = 0 → 3 ≤ k.length → part k → held (byteAt k 2) k) ∧
      (∀ y, h.session.val ≠ 0 → x.sessMine h → leAt pay 0 4 ≠ 0 →
        (s.net.stripesIn.find? fun z => z.port == h.port.val && z.bytes.length == leAt pay 0 4) = some y → part (y.bytes ++ k) → held y.group (y.bytes ++ k)) ∧
      (h.session.val ≠ 0 → x.sessMine h → leAt pay 0 4 ≠ 0 → (∀ y ∈ s.net.stripesIn, y.port ≠ h.port.val) → s.gives (.lcpRef h pay) fun u =>
        u.rd h.port ETH_REF_DROP = min (x.rd h.port ETH_REF_DROP + 1) 0xFFFFFFFF ∧ u.net.stripesIn = s.net.stripesIn ∧
        x.sameWords u (ETH_REF_DROP.wordAt h.port) ∧ u.mem = s.mem ∧ u.ref = s.ref))) ∧
  ∀ (s : State) (t : Tile), s.live → s.fit t →
    ((smGet [] t s.ref.coming = [] ∨ ¬ s.locked t .sys) → exec (.stripeStore t) s = .next s) ∧
    ∀ x l, smGet [] t s.ref.coming = x :: l → s.locked t .sys →
      (s.gives (.stripeStore t) fun u => smGet [] t u.ref.coming = l) ∧
      (∀ b, s.jobBank x.job = some b → x.group < 8 → (s.ring b t x.group).bytes + x.raw.length ≤ s.rdB b t (REF_GRP_RING_SIZE x.group) →
        s.gives (.stripeStore t) fun u => x ∈ (u.ring b t x.group).cur ∨ ∃ st ∈ (u.ring b t x.group).sets, x ∈ st) ∧
      (s.jobBank x.job = none → s.gives (.stripeStore t) fun u => smGet [] t u.ref.coming = l ∧ u.ref.rings = s.ref.rings ∧ u.mem = s.mem ∧
        u.rd t REF_DISCARD = min (s.rd t REF_DISCARD + 1) 0xFFFFFFFF ∧ u.rd t REF_ERR_JOB = 1 ∧
        s.sameWords u ((REF_DISCARD.wordAt t).or (REF_ERR_JOB.wordAt t)))

/-- The registration of a group (R184 to R197, R285): the lead check of a band moves on to the next band, and where the lead falls short that band is REF_LATE and
counted on every tile; a solution item is taken out of the queue of items, and one of 39 words gives its band an outcome, any other leaves it without, while one that comes too late or a
second time has no other effect; the warp of a closed band runs when its stitched lines and its solution are settled, and the next band follows. -/
def Obligations.RegistrationCommands : Prop :=
  ∀ (s : State) (t : Tile) (g : Group), s.live → s.fit t →
    let solve := s.rd 0 (REF_GRP_CFG_SOLVE_TILE g)
    let on (u : State) : State := s.after (u.learnStep g)
    (s.leadDue g → s.gives (.leadCheck g) fun u => smGet 0 g u.ref.leadNext = smGet 0 g s.ref.leadNext + 1 ∧ u.mem = s.mem) ∧
    (s.leadDue g → ¬ s.leadNextDue g →
      let n := smGet 0 g s.ref.leadNext
      let x := s.updRef fun r => { r with leadNext := smSet 0 g (n + 1) r.leadNext }
      x.refOn s.bank g → ¬ x.refLearns s.bank g → ¬ x.refBad s.bank g →
        (x.leadShort s.bank g → s.gives (.leadCheck g) fun u => u.refLate g n ∧
          ∀ y ∈ s.tiles, u.rd y (REF_GRP_LATE g) = min (s.rd y (REF_GRP_LATE g) + 1) 0xFFFFFFFF) ∧
        (¬ x.leadShort s.bank g → exec (.leadCheck g) s = .next x)) ∧
    (¬ s.leadDue g → s.leadNextDue g → s.gives (.leadCheck g) fun u => smGet 0 g u.ref.leadAhead = smGet 0 g s.ref.leadAhead + 1 ∧
      u.ref.leadNext = s.ref.leadNext ∧ u.ref.late = s.ref.late ∧ u.regs = s.regs ∧ u.mem = s.mem) ∧
    (¬ s.locked solve .sys → exec (.solutionItem g) s = .next s) ∧
    (s.locked solve .sys →
      (s.ref.items.find? (·.1 == g.val) = none → exec (.solutionItem g) s = .next (on s)) ∧
      ∀ k n ws u, s.ref.items.find? (·.1 == g.val) = some (k, n, ws) →
        u = { s with ref := { s.ref with items := s.ref.items.erase (g.val, n, ws) } } →
        (((s.refOut g n).isSome ∨ s.solvePast g n) → exec (.solutionItem g) s = .next (on u)) ∧
        (s.refOut g n = none → ¬ s.solvePast g n → exec (.solutionItem g) s = .next (on (
          if ws.length = 39 then (u.takeSolution g n ws).doneLate (s.rdN n 0 (REF_GRP_CFG_SOLVE_TILE g)) 3 n else u.solveMiss g n))) ∧
        (s.gives (.solutionItem g) fun v => v.ref.items = s.ref.items.erase (g.val, n, ws)) ∧
        (s.refOut g n = none → ¬ s.solvePast g n → s.gives (.solutionItem g) fun v => if ws.length = 39 then (v.refOut g n).isSome else v.solvePast g n)) ∧
    (s.locked t .sys → s.warpReady t g → exec (.warpStart t g) s = .next (s.after (s.warpStart t g))) ∧
    (∀ b, s.locked t .sys → s.warpReady t g → s.nextWarp t g = some b → exec (.warpStart t g) s = .next (s.after (s.warpBand t g b)) ∧
      s.gives (.warpStart t g) fun u => u.warpAt t g = b.n + 1)

/-- Learning (R198 to R200, R204, R206): START asks for a learning run, or is refused with LEARN_BUSY while one runs; it begins at the next repeat
with LEARNING set on every tile, or is given up with LEARN_MEM on the tiles whose memory does not hold it; a tile's median is taken when the
captures are complete, and when every tile's is, LEARNED replaces LEARNING at the next repeat. -/
def Obligations.LearningRuns : Prop :=
  ∀ (s : State) (t : Tile) (g : Group), s.live → s.fit t →
    (s.is 0 (REF_GRP_STATUS_LEARNING g) → s.gives (.learnStart t g) fun u => u.rd t REF_ERR_LEARN_BUSY = 1 ∧ s.onlyRegs u (REF_ERR_LEARN_BUSY.wordAt t)) ∧
    (¬ s.is 0 (REF_GRP_STATUS_LEARNING g) → s.gives (.learnStart t g) fun u =>
      (u.learn g).req = ((s.learn g).req.orElse fun _ => some (s.repNow g)) ∧ u.regs = s.regs ∧ u.mem = s.mem) ∧
    (∀ k, s.refLearns s.bank g → (s.learn g).req = some k → k < s.repNow g →
      ((∀ x ∈ s.tiles, ¬ s.learnBad s.bank x g) → s.gives (.learningBegin g) fun u => (u.learn g).req = none ∧ (u.learn g).since = s.repNow g ∧
        (u.learn g).caps = [] ∧ ∀ x ∈ s.tiles, u.rd x (REF_GRP_STATUS_LEARNING g) = 1 ∧ u.rd x (REF_GRP_STATUS_LEARNED g) = 0 ∧
        u.rd x (REF_GRP_STATUS_LEARN_COUNT g) = 0) ∧
      ((∃ x ∈ s.tiles, s.learnBad s.bank x g) → s.gives (.learningBegin g) fun u => (u.learn g).req = none ∧
        (∀ x ∈ s.tiles, s.learnBad s.bank x g → u.rd x REF_ERR_LEARN_MEM = 1) ∧
        s.sameWords u fun tile blk off => blk = REF_ERR_LEARN_MEM.blk ∧ off = REF_ERR_LEARN_MEM.off ∧ tile ∈ s.tiles)) ∧
    (s.locked t .sys → s.learnFull g → s.gives (.medianComplete t g) fun u => t.val ∈ (u.learn g).median ∧ (u.learn g).medianAt = s.boundaryBase g ∧
      (u.learn g).caps = (s.learn g).caps ∧ u.regs = s.regs ∧ u.mem = s.mem) ∧
    (s.learnedDue g → s.gives (.learnedEffect g) fun u => (u.learn g).done ∧ u.mem = s.mem ∧ ∀ x ∈ s.tiles,
      u.rd x (REF_GRP_STATUS_LEARNING g) = 0 ∧ u.rd x (REF_GRP_STATUS_LEARNED g) = 1 ∧
      u.rd x (REF_GRP_STATUS_LEARN_COUNT g) = s.rd 0 (REF_GRP_STATUS_LEARN_COUNT g))

/-- Verdicts (R218, R221): each verdict that arrives is taken off; for no bramble of its band that has a descriptor and still waits for its class it sets VERDICT_BAD, for one
that has its verdict VERDICT_DUP; else the bramble gets its class and its drop bit, and a dropped one counts. -/
def Obligations.Verdicts : Prop :=
  ∀ (s : State) (t : Tile) (g : Group), s.live → s.fit t →
    (((s.sgm.verdicts.find? fun (u, h, _) => u == t.val && h == g.val) = none ∨ ¬ s.locked t .sys) → exec (.verdict t g) s = .next s) ∧
    ∀ t' g' n ws, s.locked t .sys → (s.sgm.verdicts.find? fun (u, h, _) => u == t.val && h == g.val) = some (t', g', n, ws) →
      let mine := ((s.segOf t g).frags.find? fun f => f.n == n && f.br.id == ws.getD 0 0).filter fun _ => s.judged t g n
      let frame (K : WordSet) (u : State) : Prop := u.sgm.verdicts = s.sgm.verdicts.erase (t', g', n, ws) ∧ s.sameWords u K ∧ u.mem = s.mem
      (mine = none → s.gives (.verdict t g) fun u => u.rd t SEG_ERR_VERDICT_BAD = 1 ∧ frame (SEG_ERR.wordAt t) u ∧ u.sgm.segs = s.sgm.segs) ∧
      (∀ f, mine = some f → f.verdict → s.gives (.verdict t g) fun u => u.rd t SEG_ERR_VERDICT_DUP = 1 ∧ frame (SEG_ERR.wordAt t) u ∧
        u.sgm.segs = s.sgm.segs) ∧
      ∀ f, mine = some f → ¬ f.verdict → s.gives (.verdict t g) fun u => frame ((SEG_GRP_DROPPED g).wordAt t) u ∧
        (∃ x ∈ (u.segOf t g).frags, x.n = n ∧ x.br.id = ws.getD 0 0 ∧ x.verdict ∧ x.cls = ws.getD 1 0 % 256 ∧ x.drop = (ws.getD 1 0).testBit 8) ∧
        u.rd t (SEG_GRP_DROPPED g) = if (ws.getD 1 0).testBit 8 then min (s.rd t (SEG_GRP_DROPPED g) + 1) 0xFFFFFFFF else s.rd t (SEG_GRP_DROPPED g)

/-- The collector (R224 to R233, R306, R308): it serves one tile at a time and goes on to the next band after the last, and a service that results of the same cycle have called for already
is not made again; a record that is held goes to COL_CTRL's queue when the queue takes it. A marker comes after the counts of its cycle, which `y` holds: within MIN_GAP of the last it is
merged, one that finds the compare list full is lost with a flag, and one inserted counts and becomes the last. -/
def Obligations.Collector : Prop :=
  ∀ s : State, s.live →
    (0 < s.sgm.ahead → exec .collectorServe s = .next { s with sgm := { s.sgm with ahead := s.sgm.ahead - 1 } }) ∧
    (s.sgm.ahead = 0 → s.locked 0 .sys → s.serveDue →
      (s.sgm.turn + 1 < s.id.variant.tiles → s.gives .collectorServe fun u => u.sgm.turn = s.sgm.turn + 1 ∧ u.sgm.band = s.sgm.band ∧
        u.rd 0 COL_STATUS_SERVING = 1 ∧ u.rd 0 COL_STATUS_TURN = s.sgm.band % s.id.variant.tiles ∧
        s.sameWords u ((COL_STATUS.wordAt 0).or (BND_TILE_ERR_ABORT_LATE.wordAt 0)) ∧ u.mem = s.mem) ∧
      (s.id.variant.tiles ≤ s.sgm.turn + 1 → s.gives .collectorServe fun u => u.sgm.turn = 0 ∧ u.sgm.band = s.sgm.band + 1 ∧
        u.sgm.got = [] ∧ u.rd 0 COL_STATUS_SERVING = 0 ∧ u.mem = s.mem)) ∧
    ((s.sgm.held = [] ∨ ¬ s.locked 0 .sys) → exec .colRecordSend s = .next s) ∧
    (∀ i l, s.sgm.held = i :: l → s.locked 0 .sys →
      let q := s.rd 0 COL_CTRL_QUEUE
      let cells := sumN ((s.qItems 0 q).map QItem.cells)
      s.calmQueue 0 q →
      (cells + i.cells ≤ s.began.rd 0 (QUE_Q_CFG_QUOTA q) → i.cells ≤ s.rd 0 QUE_POOL_FREE →
        s.gives .colRecordSend fun u => u.sgm.held = l ∧ u.rd 0 QUE_POOL_FREE = s.rd 0 QUE_POOL_FREE - i.cells ∧
          ∃ n, (s.qItems 0 q).length - (s.qCame 0 q).length ≤ n ∧ u.qItems 0 q = (s.qItems 0 q).take n ++ i :: (s.qItems 0 q).drop n) ∧
      (s.began.rd 0 (QUE_Q_CFG_QUOTA q) < cells + i.cells → s.gives .colRecordSend fun u =>
        u.sgm = s.sgm ∧ u.que = s.que ∧ u.rd 0 QUE_ERR_REFUSED = 1)) ∧
    (s.sgm.marks = [] → exec .markerInsert s = .next s) ∧
    (∀ x gap l, s.sgm.marks = (x, gap) :: l →
      let y := { s with sgm := { s.sgm with marks := l } }.cmpCountsFirst (s.rd 0 POS_MARK_CTRL_UNIT)
      let near : Prop := ∃ z, y.sgm.lastMark = some z ∧ z ≤ x ∧ x - z < gap
      let k := y.rd 0 POS_MARK_CTRL_UNIT
      (near → s.gives .markerInsert fun u => u.sgm = y.sgm ∧ u.rd 0 COL_MARK_MERGED = min (y.rd 0 COL_MARK_MERGED + 1) 0xFFFFFFFF ∧
        y.sameWords u (COL_MARK_MERGED.wordAt 0) ∧ u.mem = y.mem) ∧
      (¬ near → ¬ y.is 0 POS_MARK_CTRL_EN → exec .markerInsert s = .next (s.after y)) ∧
      (¬ near → y.is 0 POS_MARK_CTRL_EN → ¬ y.markOk → s.gives .markerInsert fun u => u.rd 0 POS_ERR_CFG_INVALID = 1 ∧ u.sgm = y.sgm ∧ u.mem = y.mem) ∧
      (¬ near → y.is 0 POS_MARK_CTRL_EN → y.markOk → y.cmpLen k ≤ (y.cmpPending k).length + 1 → s.gives .markerInsert fun u =>
        u.rd 0 COL_MARK_LOST = min (y.rd 0 COL_MARK_LOST + 1) 0xFFFFFFFF ∧ u.rd 0 COL_ERR_MARK_FULL = 1 ∧ u.sgm = y.sgm ∧ u.mem = y.mem) ∧
      (¬ near → y.is 0 POS_MARK_CTRL_EN → y.markOk → (y.cmpPending k).length + 1 < y.cmpLen k → s.gives .markerInsert fun u =>
        u.sgm.lastMark = some x ∧ u.rd 0 COL_MARK_APPENDED = (y.rd 0 COL_MARK_APPENDED + 1) % 2 ^ 32))

/-! The engines (R237 to R260). -/

/-- The engine of a fitted tile whose CORE PLL is locked runs an entry and issues an instruction that is not the last of its program store and has no breakpoint set. -/
def Sys2Proof.Machine.State.engReady (s : State) (e : EngineId) : Prop :=
  s.live ∧ s.fit e.tile ∧ s.locked e.tile .core ∧ (s.engOf e.tile e.t).issues ∧ (s.engOf e.tile e.t).pc < 2047 ∧ ¬ s.is e.tile (ENG_E_DBG_BP_EN e.t)

/-- The instruction completes: the engine's registers are as `P` says, its WAIT reads 0, and no other engine, no register word outside `K` but its
STATUS, and no byte of memory has changed. -/
def Sys2Proof.Machine.State.engRuns (s : State) (i : Instr) (e : EngineId) (K : WordSet) (P : EngState → Prop) : Prop :=
  s.gives i fun u => P (u.engOf e.tile e.t) ∧ u.rd e.tile (ENG_E_STATUS_WAIT e.t) = 0 ∧ s.sameWords u (((ENG_E_STATUS e.t).wordAt e.tile).or K) ∧
    u.mem = s.mem ∧ ∀ x : EngineId, x ≠ e → u.engOf x.tile x.t = s.engOf x.tile x.t

/-- No register word. -/
def Sys2Proof.Machine.noWord : WordSet := fun _ _ _ => False

/-- The instruction writes `v` to scalar register `d`, s0 apart, and the program counter goes on by one. -/
def Sys2Proof.Machine.State.engScalar (s : State) (i : Instr) (e : EngineId) (K : WordSet) (d : SReg) (v : BitVec 32) : Prop :=
  let x := s.engOf e.tile e.t
  s.engRuns i e K fun y => y = { x with s := y.s, pc := x.pc + 1 } ∧
    ∀ r : SReg, y.sreg r = if r = d ∧ d.val ≠ 0 then v.toNat else x.sreg r

/-- The scalar instructions (R254) on the 32-bit values of their registers: shifts by the low five bits, SRA and MULH signed, DIV truncated
toward 0 with 0 and DIV0 for a divisor of 0, immediates sign extended for ADDI and zero extended for ANDI and ORI; s0 reads 0 and ignores writes
(R237). -/
def Obligations.EngineScalarInstructions : Prop :=
  ∀ (s : State) (e : EngineId) (d a b : SReg) (i : BitVec 18), s.engReady e →
    let A := BitVec.ofNat 32 ((s.engOf e.tile e.t).sreg a)
    let B := BitVec.ofNat 32 ((s.engOf e.tile e.t).sreg b)
    let gives (c : Instr) (v : BitVec 32) : Prop := s.engScalar c e noWord d v
    gives (.engAdd e d a b) (A + B) ∧ gives (.engSub e d a b) (A - B) ∧ gives (.engAnd e d a b) (A &&& B) ∧ gives (.engOr e d a b) (A ||| B) ∧
    gives (.engXor e d a b) (A ^^^ B) ∧ gives (.engShl e d a b) (A <<< (B.toNat % 32)) ∧ gives (.engShr e d a b) (A >>> (B.toNat % 32)) ∧
    gives (.engSra e d a b) (A.sshiftRight (B.toNat % 32)) ∧ gives (.engMul e d a b) (A * B) ∧
    gives (.engMulh e d a b) (((A.signExtend 64 * B.signExtend 64) >>> 32).setWidth 32) ∧
    (B ≠ 0 → gives (.engDiv e d a b) (A.sdiv B)) ∧
    (B = 0 → s.engScalar (.engDiv e d a b) e ((ENG_E_ERR e.t).wordAt e.tile) d 0 ∧
      s.gives (.engDiv e d a b) fun u => u.rd e.tile (ENG_E_ERR_DIV0 e.t) = 1) ∧
    gives (.engSlt e d a b) (if A.slt B then 1 else 0) ∧ gives (.engSltu e d a b) (if A.ult B then 1 else 0) ∧
    gives (.engAddi e d a i) (A + i.signExtend 32) ∧ gives (.engAndi e d a i) (A &&& i.setWidth 32) ∧ gives (.engOri e d a i) (A ||| i.setWidth 32) ∧
    gives (.engLui e d i) (i.setWidth 32 <<< 14) ∧
    s.engRuns (.engNop e) e noWord fun y => y = { s.engOf e.tile e.t with pc := (s.engOf e.tile e.t).pc + 1 }

/-- Branches and jumps (R254): a branch whose condition holds goes to its own address plus its signed immediate, one whose condition does not hold to
the next instruction; JAL leaves the address after it in s15; JR takes the low 11 bits of its register; DONE of an INIT entry ends it with
INIT_DONE set, DONE of a BAND entry leaves its band done (R241). -/
def Obligations.EngineControlFlow : Prop :=
  ∀ (s : State) (e : EngineId) (a b : SReg) (i : BitVec 14) (target : BitVec 11), s.engReady e →
    let x := s.engOf e.tile e.t
    let A := BitVec.ofNat 32 (x.sreg a)
    let B := BitVec.ofNat 32 (x.sreg b)
    let goes (c : Instr) (pc : Nat) : Prop := s.engRuns c e noWord fun y => y = { x with pc := pc }
    let branch (c : Instr) (cond : Prop) : Prop :=
      (cond → 0 ≤ (x.pc : Int) + i.toInt → (x.pc : Int) + i.toInt ≤ 2047 → goes c ((x.pc : Int) + i.toInt).toNat) ∧ (¬ cond → goes c (x.pc + 1))
    branch (.engBeq e a b i) (A = B) ∧ branch (.engBne e a b i) (A ≠ B) ∧ branch (.engBlt e a b i) (A.slt B) ∧ branch (.engBge e a b i) (¬ A.slt B) ∧
    goes (.engJmp e target) target.toNat ∧ goes (.engJr e a) (A.toNat % 2048) ∧
    (s.engRuns (.engJal e target) e noWord fun y => y = { x with s := y.s, pc := target.toNat } ∧
      ∀ r : SReg, y.sreg r = if r = 15 then x.pc + 1 else x.sreg r) ∧
    (x.run = 1 → s.engRuns (.engDone e) e noWord fun y => y = { x with run := 0 }) ∧
    (x.run = 1 → s.gives (.engDone e) fun u => u.rd e.tile (ENG_E_STATUS_INIT_DONE e.t) = 1 ∧ u.rd e.tile (ENG_E_STATUS_STATE e.t) = 0) ∧
    (x.run = 2 → exec (.engDone e) s = .next (s.after (s.engDone e.tile e.t)) ∧
      s.gives (.engDone e) fun u => (u.engOf e.tile e.t).run = 0 ∧ x.band ∈ (u.engOf e.tile e.t).done)

/-- Streams, barriers and pips of an engine (R246 to R257): SRDS takes the head of its FIFO, reads 0xFFFF_FFFF twice at a band mark without taking it,
and waits on an empty one; the END of an item that a missed deadline has cut short reads as an END (log 224); BEND takes a band mark and jumps; SRDV takes a beat; SWRS and SWRV put an entry
into the output port's FIFO and wait while it holds 64; WAITP consumes its latch or waits; BAR waits where the engine is in the mask of the job that its entry runs for; PIP raises its
cluster's line. -/
def Obligations.EngineStreamsAndBarriers : Prop :=
  ∀ (s : State) (e : EngineId) (d b : SReg) (v : VReg) (c : VCtl) (port : Fin 2) (n : Fin 4) (target : BitVec 11) (last : Bool), s.engReady e →
    let t := e.tile.val
    let x := s.engOf t e.t
    let waits (i : Instr) (code : Nat) : Prop := s.gives i fun u => u.engOf t e.t = x ∧ u.rd t (ENG_E_STATUS_WAIT e.t) = code ∧ u.mem = s.mem
    (x.run = 2 →
      (∀ m l, x.fifo port = .mark m :: l → s.engRuns (.engBend e port target) e noWord fun y => y = { x.setFifo port l with pc := target.toNat }) ∧
      (x.fifo port = [] → waits (.engBend e port target) 1) ∧
      (∀ m w f l, x.fifo port = .word m w f :: l → s.engRuns (.engBend e port target) e noWord fun y => y = { x with pc := x.pc + 1 }) ∧
      (¬ srcBeats (s.engSrc x.bank t e.t port) →
        (x.fifo port = [] → waits (.engSrds e d b port) 1) ∧
        (∀ m w f l, x.fifo port = .word m w f :: l → s.engRuns (.engSrds e d b port) e noWord fun y =>
          y = { x.setFifo port l with s := y.s, pc := x.pc + 1 } ∧
          ∀ r : SReg, y.sreg r = if r.val = 0 then 0 else if r = b then bitN f else if r = d then w % 2 ^ 32 else x.sreg r) ∧
        (∀ m l, x.fifo port = .lost m :: l → s.engRuns (.engSrds e d b port) e noWord fun y =>
          y = { x.setFifo port l with s := y.s, pc := x.pc + 1 } ∧
          ∀ r : SReg, r ≠ d ∨ r = b → y.sreg r = if r.val = 0 then 0 else if r = b then 1 else x.sreg r) ∧
        (∀ m l, x.fifo port = .mark m :: l → s.engRuns (.engSrds e d b port) e noWord fun y =>
          y = { x with s := y.s, pc := x.pc + 1 } ∧
          ∀ r : SReg, y.sreg r = if r.val = 0 then 0 else if r = b ∨ r = d then 0xFFFFFFFF else x.sreg r)) ∧
      (c.m ≠ 3 → ¬ srcWords (s.engSrc x.bank t e.t (c.k.val % 2)) →
        (x.fifo (c.k.val % 2) = [] → waits (.engSrdv e v c) 1) ∧
        (∀ m l, x.fifo (c.k.val % 2) = .mark m :: l → s.engRuns (.engSrdv e v c) e noWord fun y => y = { x with pc := x.pc + 1 }) ∧
        (∀ m ls f l, x.fifo (c.k.val % 2) = .beat m ls f :: l → s.engRuns (.engSrdv e v c) e noWord fun y =>
          y = { x.setFifo (c.k.val % 2) l with v := y.v, p := y.p, pc := x.pc + 1 } ∧
          (∀ (r : VReg) k, k < 16 → y.lane r k = if r = v then ls.getD k 0 % 2 ^ 24 else x.lane r k) ∧
          ∀ r : PReg, y.pred r = if c.p ∧ r = c.pg then (if f then 0xFFFF else 0) else x.pred r)) ∧
      (64 ≤ x.out.length → waits (.engSwrs e b last) 2) ∧
      (x.out.length < 64 → s.engRuns (.engSwrs e b last) e noWord fun y =>
        y = { x with out := x.out ++ [.word x.band (x.sreg b) last], part := !last, pc := x.pc + 1 }) ∧
      (c.m ≠ 3 → 64 ≤ x.out.length → waits (.engSwrv e v c) 2) ∧
      (c.m ≠ 3 → x.out.length < 64 → s.engRuns (.engSwrv e v c) e noWord fun y =>
        y = { x with out := x.out ++ [.beat x.band (x.lanes v) (c.k.val % 2 == 1)], part := !(c.k.val % 2 == 1), pc := x.pc + 1 })) ∧
    (x.latches.testBit n → s.engRuns (.engWaitp e n) e noWord fun y =>
      y = { x with latches := y.latches, pc := x.pc + 1 } ∧ ∀ k < 4, y.latches.testBit k = (x.latches.testBit k && k != n.val)) ∧
    (¬ x.latches.testBit n → waits (.engWaitp e n) 4) ∧
    (¬ (s.rdB x.bank t (ENG_CL_BAR_MASK (e.t.val / 16))).testBit (e.t.val % 16) → s.engRuns (.engBar e) e noWord fun y => y = { x with pc := x.pc + 1 }) ∧
    ((s.rdB x.bank t (ENG_CL_BAR_MASK (e.t.val / 16))).testBit (e.t.val % 16) → s.gives (.engBar e) fun u =>
      u.engOf t e.t = { x with bar := true } ∧ u.rd t (ENG_E_STATUS_WAIT e.t) = 3 ∧ s.sameWords u ((ENG_E_STATUS e.t).wordAt t) ∧ u.mem = s.mem) ∧
    s.engRuns (.engPip e n) e noWord (fun y => y = { x with pc := x.pc + 1 }) ∧
    s.gives (.engPip e n) fun u => (t, 184 + 4 * (e.t.val / 16) + n.val) ∈ u.fab.pips

/-- Loads and stores of an engine (R238, R239): the address is the scalar plus the sign-extended immediate, a multiple of 4 inside the store; a load
brings the bytes least significant first and changes no memory, a store writes its bytes and no other; HISTADD, whose scalar is named by the low four bits of its field a, adds 1 to the bin of
each lane that takes part. -/
def Obligations.EngineMemoryAccess : Prop :=
  ∀ (s : State) (e : EngineId) (d a : SReg) (v : VReg) (i : BitVec 18) (j : BitVec 17) (c : VCtl), s.engReady e →
    let t := e.tile.val
    let x := s.engOf t e.t
    let A := BitVec.ofNat 32 (x.sreg a)
    let load (cmd : Instr) (q : Nat) : Prop := s.engScalar cmd e noWord d (BitVec.ofNat 32 (s.memLE q 4))
    let store (cmd : Instr) (q n : Nat) (f : Nat → Nat) : Prop := s.gives cmd fun u =>
      (∀ k < n, u.byte (q + k) = BitVec.ofNat 8 (f k)) ∧ (∀ k, k < q ∨ q + n ≤ k → u.byte k = s.byte k) ∧
      u.engOf t e.t = { x with pc := x.pc + 1 } ∧ s.sameWords u ((ENG_E_STATUS e.t).wordAt t)
    let loadV (cmd : Instr) (q : Nat) : Prop := s.engRuns cmd e noWord fun y => y = { x with v := y.v, pc := x.pc + 1 } ∧
      ∀ (r : VReg) k, k < 16 → y.lane r k = if r = v then s.memLE (q + 3 * k) 3 else x.lane r k
    let laneByte (k : Nat) : Nat := x.lane v (k / 3) / 256 ^ (k % 3)
    let o := (A + i.signExtend 32).toNat
    let p := (A + j.signExtend 32).toNat
    let h := x.sreg (v.val % 16)
    (o % 4 = 0 → o + 4 ≤ 40960 → load (.engLds e d a i) (dataAddr t e.t o) ∧
      store (.engSts e d a i) (dataAddr t e.t o) 4 fun k => x.sreg d / 256 ^ k) ∧
    (o % 4 = 0 → o + 4 ≤ 524288 → load (.engLdc e d a i) (clusterAddr t e.t o) ∧
      store (.engStc e d a i) (clusterAddr t e.t o) 4 fun k => x.sreg d / 256 ^ k) ∧
    (p % 4 = 0 → p + 48 ≤ 40960 → loadV (.engVld e v a j) (dataAddr t e.t p) ∧ store (.engVst e v a j) (dataAddr t e.t p) 48 laneByte) ∧
    (p % 4 = 0 → p + 48 ≤ 524288 → loadV (.engVldc e v a j) (clusterAddr t e.t p) ∧ store (.engVstc e v a j) (clusterAddr t e.t p) 48 laneByte) ∧
    (c.m ≠ 3 → h % 4 = 0 → h + 1024 ≤ 40960 → s.gives (.engHistadd e v c) fun u =>
      (∀ bin < 256, u.memLE (dataAddr t e.t (h + 4 * bin)) 4 = (s.memLE (dataAddr t e.t (h + 4 * bin)) 4 +
        (((List.range 16).filter fun k => x.laneOn c.p c.pg k && Nat.min 255 (x.lane v k >>> c.k.val) == bin).length)) % 2 ^ 32) ∧
      (∀ k, k < dataAddr t e.t (h) ∨ dataAddr t e.t (h) + 1024 ≤ k → u.byte k = s.byte k) ∧
      u.engOf t e.t = { x with pc := x.pc + 1 } ∧ s.sameWords u ((ENG_E_STATUS e.t).wordAt t))

/-- The instruction writes `f k` to lane k of vector register `d` where the lane takes part and leaves every other lane. -/
def Sys2Proof.Machine.State.engLanes (s : State) (i : Instr) (e : EngineId) (d : VReg) (on : Nat → Bool) (f : Nat → Nat) : Prop :=
  let x := s.engOf e.tile e.t
  s.engRuns i e noWord fun y => y = { x with v := y.v, pc := x.pc + 1 } ∧
    ∀ (r : VReg) k, k < 16 → y.lane r k = if r = d ∧ on k then f k else x.lane r k

/-- Narrowing to 24 bits (R253): under M 0 the quotient by 2^k rounded down wraps; under M 1 and 2 the rounded quotient saturates to the signed or the
unsigned range. The lane-wise vector instructions (R254) narrow the exact result on the lanes that take part and leave every other lane. -/
def Obligations.EngineVectorLanes : Prop :=
  (∀ (x : Int) (k : Nat), narrow 0 x k = ((x / 2 ^ k) % 2 ^ 24).toNat ∧
    (∀ m, 1 ≤ m → m ≤ 2 → laneVal m (narrow m x k) = clampI (if m = 1 then -2 ^ 23 else 0) (if m = 1 then 2 ^ 23 - 1 else 2 ^ 24 - 1) (roundShr x k))) ∧
  ∀ (s : State) (e : EngineId) (d a b : VReg) (r : SReg) (p : PReg) (q : AccReg) (n : Fin 32) (c : VCtl), s.engReady e → c.m ≠ 3 →
    let x := s.engOf e.tile e.t
    let on := x.laneOn c.p c.pg
    let m := c.m.val
    let va (k : Nat) : Int := laneVal m (x.lane a k)
    let vb (k : Nat) : Int := laneVal m (x.lane b k)
    let gives (i : Instr) (f : Nat → Nat) : Prop := s.engLanes i e d on f
    gives (.engVadd e d a b c) (fun k => narrow m (va k + vb k) 0) ∧ gives (.engVsub e d a b c) (fun k => narrow m (va k - vb k) 0) ∧
    gives (.engVmul e d a b c) (fun k => narrow m (va k * vb k) c.k) ∧ gives (.engVmin e d a b c) (fun k => uNat 24 (min (va k) (vb k))) ∧
    gives (.engVmax e d a b c) (fun k => uNat 24 (max (va k) (vb k))) ∧ gives (.engVabsd e d a b c) (fun k => narrow m ((va k - vb k).natAbs : Int) 0) ∧
    gives (.engVshl e d a c) (fun k => narrow m (va k * 2 ^ c.k.val) 0) ∧ gives (.engVshr e d a c) (fun k => narrow m (va k) c.k) ∧
    (m ≠ 0 → gives (.engVsat e d a c) fun k => uNat 24 (if m = 1 then satS (c.k.val + 1) (va k) else satU (c.k.val + 1) (va k))) ∧
    (c.k.val ≤ 15 → gives (.engVslide e d a b c) fun k => if k + c.k.val < 16 then x.lane a (k + c.k.val) else x.lane b (k + c.k.val - 16)) ∧
    gives (.engVbcast e d a c) (fun _ => x.lane a (c.k.val % 16)) ∧ gives (.engVmovs e d r c) (fun _ => x.sreg r % 2 ^ 24) ∧
    gives (.engAccopRd e d q n c) (fun k => narrow m (x.accLane q k) n) ∧
    s.engLanes (.engVsel e d a b c) e d (fun _ => true) (fun k => if (x.pred c.pg).testBit k then x.lane a k else x.lane b k) ∧
    (∀ h < 2, s.engRuns (.engSort8 e d a c) e noWord fun y => y = { x with v := y.v, pc := x.pc + 1 } ∧
      (∀ (z : VReg) k, k < 16 → ¬ (z = d ∧ on k) → y.lane z k = x.lane z k) ∧
      ((∀ k < 16, on k) → ((List.range 8).map fun k => y.lane d (8 * h + k)).Perm ((List.range 8).map fun k => x.lane a (8 * h + k)) ∧
        ∀ k < 7, laneVal m (y.lane d (8 * h + k)) ≤ laneVal m (y.lane d (8 * h + k + 1)))) ∧
    (c.k.val % 8 ≤ 5 → s.engRuns (.engVcmp e p a b c) e noWord fun y => y = { x with p := y.p, pc := x.pc + 1 } ∧
      (∀ z : PReg, z ≠ p → y.pred z = x.pred z) ∧ ∀ k < 16, (y.pred p).testBit k = (on k && laneCond (c.k.val % 8) (va k) (vb k)))

/-- The vector instructions that write an accumulator, a scalar or a predicate (R254): VMAC adds the product of the lanes that take part, CLR clears
them, RED gathers the saturated sum in lane 0; XLO and XHI read the low 32 and the high bits of lane 0; VEXT reads a lane sign extended; VRED sums,
or takes the least or the greatest of the lanes that take part, a free value where none does (log 54); PLOG combines two predicates. -/
def Obligations.EngineVectorReductions : Prop :=
  ∀ (s : State) (e : EngineId) (a b : VReg) (r : SReg) (p p1 p2 : PReg) (q q1 : AccReg) (c : VCtl), s.engReady e → c.m ≠ 3 →
    let x := s.engOf e.tile e.t
    let on := x.laneOn c.p c.pg
    let m := c.m.val
    let va (k : Nat) : Int := laneVal m (x.lane a k)
    let vb (k : Nat) : Int := laneVal m (x.lane b k)
    let acc (i : Instr) (f : Nat → Int) : Prop := s.engRuns i e noWord fun y => y = { x with acc := y.acc, pc := x.pc + 1 } ∧
      ∀ (z : AccReg) k, k < 16 → y.accLane z k = if z = q ∧ on k then sInt 48 (uNat 48 (f k)) else x.accLane z k
    let ones : List Int := ((List.range 16).filter on).map va
    acc (.engVmac e q a b c) (fun k => accNarrow m (x.accLane q k + va k * vb k)) ∧ acc (.engAccopClr e q c) (fun _ => 0) ∧
    acc (.engAccopRed e q q1 c) (fun k => if k = 0 then satS 48 (((List.range 16).map (x.accLane q1)).sum) else 0) ∧
    s.engScalar (.engAccopXlo e r q c) e noWord r (BitVec.ofInt 32 (x.accLane q 0)) ∧
    s.engScalar (.engAccopXhi e r q c) e noWord r (BitVec.ofInt 32 (x.accLane q 0 / 2 ^ 32)) ∧
    s.engScalar (.engVext e r a c) e noWord r ((BitVec.ofNat 24 (x.lane a (c.k.val % 16))).signExtend 32) ∧
    (c.k.val % 4 = 0 → s.engScalar (.engVred e r a c) e noWord r (BitVec.ofInt 32 ones.sum)) ∧
    (c.k.val % 4 = 1 → ∀ v ∈ ones, (∀ w ∈ ones, v ≤ w) → s.engScalar (.engVred e r a c) e noWord r (BitVec.ofInt 32 v)) ∧
    (c.k.val % 4 = 2 → ∀ v ∈ ones, (∀ w ∈ ones, w ≤ v) → s.engScalar (.engVred e r a c) e noWord r (BitVec.ofInt 32 v)) ∧
    (c.k.val % 4 ∈ [1, 2] → ones = [] → ∃ v, s.engScalar (.engVred e r a c) e noWord r v) ∧
    s.engRuns (.engPlog e p p1 p2 c) e noWord fun y => y = { x with p := y.p, pc := x.pc + 1 } ∧
      (∀ z : PReg, z ≠ p → y.pred z = x.pred z) ∧ ∀ k < 16, (y.pred p).testBit k =
        let A := (x.pred p1).testBit k
        let B := (x.pred p2).testBit k
        match c.k.val % 4 with
        | 0 => A && B
        | 1 => A || B
        | 2 => xor A B
        | _ => A && !B

/-- Faults, entries and the debugger of an engine (R241 to R262). An instruction that faults leaves its code in FAULT and its address in FAULT_PC,
and the engine stops FAULTED, or HALTED with FAULT_STOP. INIT and BAND entries begin at their addresses with cleared registers, a BAND entry with the
band in s1 to s4. An ABORT that hangs is ended and clears the engine's local memory. A barrier releases every engine that waits at it, each job's its own. HALT, RESUME and STEP
act where the debugger is open, an engine that missed a band while halted resumes with its ABORT, STEP issues the instruction at the program counter; elsewhere they are refused with
LCS_ERR.ACCESS. -/
def Obligations.EngineEntriesAndDebug : Prop :=
  ∀ (s : State) (e : EngineId) (o : Origin), s.live → s.fit e.tile →
    let t := e.tile.val
    let x := s.engOf t e.t
    let faults (i : Instr) (code : Nat) : Prop := s.gives i fun u => u.rd t (ENG_E_STATUS_FAULT e.t) = code ∧ u.rd t (ENG_E_FAULT_PC e.t) = x.pc ∧
      u.rd t (ENG_E_ERR_FAULT e.t) = 1 ∧ u.mem = s.mem ∧
      (s.rdB x.bank t (ENG_E_CFG_FAULT_STOP e.t) = 0 → u.engOf t e.t = { x with run := 5 } ∧ u.rd t (ENG_E_STATUS_STATE e.t) = 5) ∧
      (s.rdB x.bank t (ENG_E_CFG_FAULT_STOP e.t) ≠ 0 → u.engOf t e.t = { x with halted := true } ∧ u.rd t (ENG_E_STATUS_STATE e.t) = 4)
    let on : Prop := s.locked e.tile .core
    (on → x.issues → x.pc < 2048 → x.run ≠ 3 →
      (x.pc = 2047 → faults (.engNop e) 4) ∧
      (∀ (d a : SReg) i, storeOfs 40960 (x.sreg a) (BitVec.toInt i) 4 = none → faults (.engLds e d a i) 2) ∧
      (∀ (d a : SReg) i, storeOfs 524288 (x.sreg a) (BitVec.toInt i) 4 = none → faults (.engStc e d a i) 3) ∧
      (∀ d a b c, c.m = 3 → faults (.engVadd e d a b c) 1) ∧
      (∀ port target, x.run = 1 → faults (.engBend e port target) 6)) ∧
    (on → x.initDue → ¬ x.halted → (x.run = 0 ∨ x.run = 5) → ¬ s.is t (ENG_E_DBG_BP_EN e.t) → s.gives (.initEntry e) fun u =>
      (u.engOf t e.t).run = 1 ∧ (u.engOf t e.t).initDue = false ∧ (∀ r, (u.engOf t e.t).sreg r = 0) ∧ (∀ r k, (u.engOf t e.t).lane r k = 0) ∧
      u.rd t (ENG_E_STATUS_INIT_DONE e.t) = 0 ∧ u.rd t (ENG_E_STATUS_STATE e.t) = 1 ∧ s.sameWords u ((ENG_E_STATUS e.t).wordAt t) ∧ u.mem = s.mem) ∧
    (∀ b n, on → s.bandEntryDue t e.t → n = s.nextBand x.next → s.band n = some b → n < 2 ^ 48 → b.size < 2 ^ 32 → ¬ s.is t (ENG_E_DBG_BP_EN e.t) →
      s.gives (.bandEntry e) fun u => (u.engOf t e.t).run = 2 ∧ (u.engOf t e.t).band = n ∧
      (u.engOf t e.t).pc = s.rdB (s.bankOf n) t (ENG_E_ENTRY_IB_BAND e.t) ∧
      (u.engOf t e.t).sreg 1 = n % 2 ^ 32 ∧ (u.engOf t e.t).sreg 2 = n / 2 ^ 32 ∧ (u.engOf t e.t).sreg 3 = b.line0 % 2 ^ 32 ∧
      (u.engOf t e.t).sreg 4 = b.size ∧ (∀ r, 5 ≤ r → (u.engOf t e.t).sreg r = 0) ∧ u.rd t (ENG_E_STATUS_STATE e.t) = 2 ∧ u.mem = s.mem) ∧
    (on → x.run = 3 → ¬ x.halted → s.gives (.abortHung e) fun u => u.rd t (ENG_E_ERR_ABORT_HUNG e.t) = 1 ∧ (u.engOf t e.t).run = 0 ∧
      u.rd t (ENG_E_STATUS_STATE e.t) = 0 ∧
      ∀ k, u.byte k = if dataAddr t e.t (s.rdB x.bank t (ENG_E_LOCAL_BASE e.t)) ≤ k ∧ k < dataAddr t e.t 40960 then 0 else s.byte k) ∧
    (∀ (c : Cluster) (b o : Nat), (b, o) ∈ [(s.bank, s.shadow), (s.shadow, s.bank)] → on → s.barReady b t c →
      (∀ y ∈ s.barMembers o t c, ¬ (s.engOf t y).waitsIn o) → s.gives (.barrierRelease e.tile c) fun u =>
        u.rd t (ENG_CL_BAR_GEN c) = (s.rd t (ENG_CL_BAR_GEN c) + 1) % 2 ^ 32 ∧ ∀ y ∈ s.barMembers b t c, ¬ (u.engOf t y).waitsIn b) ∧
    (s.debugOpen o →
      (s.gives (.halt o e) fun u => u.engOf t e.t = { x with halted := true, haltTb0 := some s.tim.tb0 } ∧ u.rd t (ENG_E_DBG_HALT e.t) = 1 ∧ u.rd t (ENG_E_STATUS_STATE e.t) = 4 ∧ u.mem = s.mem) ∧
      (x.halted → x.missed = none → s.gives (.resume o e) fun u => u.engOf t e.t = { x with halted := false } ∧ u.rd t (ENG_E_DBG_HALT e.t) = 0 ∧ u.mem = s.mem) ∧
      (∀ n, x.halted → x.missed = some n → ¬ s.is t (ENG_E_DBG_BP_EN e.t) → s.gives (.resume o e) fun u => (u.engOf t e.t).run = 3 ∧ (u.engOf t e.t).band = n ∧
        (u.engOf t e.t).halted = false ∧ (u.engOf t e.t).missed = none ∧ u.rd t (ENG_E_STATUS_STATE e.t) = 3) ∧
      (x.halted → x.run = 0 → exec (.step o e) s = .next s) ∧
      (on → exec (.step o e) s = .next (s.after (s.engStep t e.t))) ∧
      (on → x.halted → ¬ x.bar → (x.run = 1 ∨ x.run = 2) → x.pc < 2047 → ¬ s.is t (ENG_E_DBG_BP_EN e.t) → s.engWord t e.t / 2 ^ 26 % 64 = 0 →
        opClass (s.memLE (progAddr t e.t (x.pc + 1)) 4) ≠ .v → s.gives (.step o e) fun u => u.engOf t e.t = { x with pc := x.pc + 1 } ∧
          u.rd t (ENG_E_STATUS_STATE e.t) = 4 ∧ u.mem = s.mem) ∧
      (x.halted → s.rd t (ENG_E_DBG_SEL_REG e.t) = 5 → ∀ v : BitVec 32, s.gives (.dbgData o e (some v)) fun u =>
        (u.engOf t e.t).sreg 5 = v.toNat ∧ u.regs = s.regs ∧ u.mem = s.mem)) ∧
    (¬ s.debugOpen o → ∀ i ∈ [Instr.halt o e, .resume o e, .step o e, .dbgData o e none], s.gives i fun u =>
      u.rd 0 LCS_ERR_ACCESS = 1 ∧ u.rd t SYS_ERR_ACCESS_ERR = 1 ∧ u.eng = s.eng ∧ u.mem = s.mem)

/-! Configuration, position and time (R263 to R328). -/

/-- Loading and arming (R266 to R287): ABORT or the loader's timeout ends a load with code 0x0E and SHADOW FAILED; a verification that ends makes the
shadow READY, or ARMED for the boot image, or FAILED with its code, and comes before an ABORT of its cycle; ARM arms a READY configuration for the swap position, or refuses it, and one
written too late for the band tick of its cycle, or with CATCHUP behind the swap position, is armed for the next; DISARM takes an ARMED one back to READY unless the swap is due; the swap takes
place where it is due, or in a later cycle than the write where that was asked for at once: SHADOW is then the structure of the newest band. -/
def Obligations.ConfigurationLoadAndSwap : Prop :=
  ∀ (s : State) (v : BitVec 32), s.live →
    (∀ l, s.cfg.load = some l →
      let failed (code : Nat) (u : State) : Prop := u.rd 0 CFG_STATUS_SHADOW = 6 ∧ u.rd 0 CFG_REFUSE_CODE = code ∧ u.rd 0 CFG_ERR_REFUSED = 1 ∧
        u.cfg.load = none ∧ u.rd 0 CFG_LOADS_REFUSED = min (s.rd 0 CFG_LOADS_REFUSED + 1) 0xFFFFFFFF ∧ u.rd 0 CFG_SHADOW_JOB = 0 ∧ u.mem = s.mem
      ((s.shadowSt = 1 ∨ s.shadowSt = 2 ∧ ¬ s.pending.contains .verifyComplete) → s.gives .cfgAbort (failed 0x0E)) ∧
      (s.shadowSt = 2 → s.pending.contains .verifyComplete → s.gives .cfgAbort fun u => u.rd 0 CFG_ERR_ABORT_LATE = 1 ∧ s.onlyRegs u (CFG_ERR.wordAt 0)) ∧
      (s.shadowSt = 1 → s.gives .loadTimeout (failed 0x0E)) ∧
      (∀ c, s.shadowSt = 2 → s.verifyBad l = some c → c < 256 → s.gives .verifyComplete (failed c)) ∧
      (s.shadowSt = 2 → s.verifyBad l = none → l.session ≠ 0 → s.gives .verifyComplete fun u => u.rd 0 CFG_STATUS_SHADOW = 3 ∧ u.mem = s.mem) ∧
      (s.shadowSt = 2 → s.verifyBad l = none → l.session = 0 → s.gives .verifyComplete fun u => u.rd 0 CFG_STATUS_SHADOW = 4 ∧ u.cfg.immediate ∧
        u.mem = s.mem)) ∧
    (s.shadowSt = 3 → (∀ l, s.cfg.load = some l → l.doneAt ≠ some s.tim.tb0) → exec .cfgAbort s = .next s) ∧
    (v.getLsbD 0 → ¬ v.getLsbD 1 → (s.shadowSt ≠ 3 ∨ v.getLsbD 2 ∧ s.is 0 BND_CTRL_RUN) → s.gives (.arm v) fun u =>
      u.rd 0 CFG_ERR_ARM_REFUSED = 1 ∧ u.rd 0 CFG_STATUS_SHADOW = s.shadowSt ∧ s.onlyRegs u ((CFG_SWAP_CTRL.wordAt 0).or (CFG_ERR.wordAt 0))) ∧
    (v.getLsbD 0 → ¬ v.getLsbD 1 → s.shadowSt = 3 → v.getLsbD 2 → ¬ s.is 0 BND_CTRL_RUN → s.gives (.arm v) fun u =>
      u.rd 0 CFG_STATUS_SHADOW = 4 ∧ u.cfg.immediate ∧ u.mem = s.mem) ∧
    (v.getLsbD 0 → ¬ v.getLsbD 1 → s.shadowSt = 3 → ¬ v.getLsbD 2 → ¬ s.armLate → ¬ s.swapBehind → s.gives (.arm v) fun u =>
      u.rd 0 CFG_STATUS_SHADOW = 4 ∧ ¬ u.cfg.immediate ∧ ¬ u.cfg.uncond ∧ u.rd 0 CFG_ERR_MISSED = s.rd 0 CFG_ERR_MISSED ∧ u.mem = s.mem) ∧
    (v.getLsbD 0 → ¬ v.getLsbD 1 → s.shadowSt = 3 → ¬ v.getLsbD 2 → ¬ s.armLate → s.swapBehind → ¬ v.getLsbD 3 → s.gives (.arm v) fun u =>
      u.rd 0 CFG_STATUS_SHADOW = 3 ∧ u.rd 0 CFG_ERR_MISSED = 1 ∧ u.mem = s.mem) ∧
    (v.getLsbD 0 → ¬ v.getLsbD 1 → s.shadowSt = 3 → ¬ v.getLsbD 2 → (s.armLate ∨ s.swapBehind ∧ v.getLsbD 3) → s.gives (.arm v) fun u =>
      u.rd 0 CFG_STATUS_SHADOW = 4 ∧ u.cfg.uncond ∧ ¬ u.cfg.immediate ∧ (s.armLate → u.rd 0 CFG_ERR_LATE_WRITE = 1) ∧ u.mem = s.mem) ∧
    (s.shadowSt ≠ 4 → exec .disarm s = .next s) ∧
    (s.shadowSt = 4 → s.clk.swapDue = none → s.gives .disarm fun u => u.rd 0 CFG_STATUS_SHADOW = 3 ∧ ¬ u.cfg.immediate ∧ ¬ u.cfg.uncond ∧
      s.sameWords u (CFG_STATUS.wordAt 0) ∧ u.mem = s.mem) ∧
    (s.shadowSt = 4 → s.clk.swapDue ≠ none → s.gives .disarm fun u => u.rd 0 CFG_ERR_LATE_WRITE = 1 ∧ s.onlyRegs u (CFG_ERR.wordAt 0)) ∧
    (s.shadowSt ≠ 4 → exec .swap s = .next s) ∧
    ∀ l, s.shadowSt = 4 → s.cfg.load = some l →
      (∀ m w, s.clk.swapDue = some (m, w) → exec .swap s = .next (s.after (s.swapAt m w l.atSwap l.gains (l.session == 0))) ∧
        (l.atSwap = [] → s.gives .swap fun u => u.bank = s.shadow ∧ u.cfg.load = none ∧ u.clk.swapDue = none ∧ u.retiring = if m = 0 then none else some m)) ∧
      (s.clk.swapDue = none → s.cfg.immediate → s.cfg.armTb0 ≠ some s.tim.tb0 → ¬ s.is 0 BND_STATUS_DRAINING → ¬ s.is 0 BND_CTRL_RUN →
        exec .swap s = .next (s.after (s.swapNow l.atSwap l.gains (l.session == 0))) ∧
        (l.atSwap = [] → s.gives .swap fun u => u.bank = s.shadow ∧ u.cfg.load = none)) ∧
      (s.clk.swapDue = none → (¬ s.cfg.immediate ∨ s.is 0 BND_STATUS_DRAINING ∨ s.is 0 BND_CTRL_RUN) → exec .swap s = .next s)

/-- Encoder channels and absolute interfaces (R289 to R296, R308). Each input is filtered by itself: a level that does not hold for the filter time is counted as a fault and is
no edge; an edge that changes both signals counts as a quadrature fault, any other moves the count and the travel by its direction; a full cycle of four edges counts four forward or four back
under DECODE 0. A rising index that passes its gate is an index event, which captures the count; a write of the count jumps, and counts of its cycle leave it; a
bad absolute frame counts an error and keeps the position, a good one is the new position; a standstill clears MOVING. An edge or a frame that another event of its cycle has called for is not
taken again. -/
def Obligations.PositionInputs : Prop :=
  (∀ a b : Bool, edgeCount 0 a b (!b) a = some 1 ∧ edgeCount 0 a b b (!a) = some (-1) ∧ edgeCount 0 a b (!a) (!b) = none) ∧
  ∀ (s : State) (c : Fin 4) (a b z odd : Bool) (heldA heldB held : Nat), s.live →
    let oa := s.is 0 (POS_CH_STATUS_A c)
    let ob := s.is 0 (POS_CH_STATUS_B c)
    let oz := s.is 0 (POS_CH_STATUS_Z c)
    let short (h : Nat) : Prop := h < 4 * s.rd 0 (POS_CH_CFG_MIN_EDGE c)
    let plus (f : Fld) (n : Nat) : Nat := min (s.rd 0 f + n) 0xFFFFFFFF
    let edge := Instr.encoderEdge c a b heldA heldB odd
    let index := Instr.indexEvent c z held odd
    let on := s.locked 0 .aux
    let early (i : Instr) := s.tookEarly (· == i)
    (early edge → exec edge s = .next (s.dropEarly (· == edge))) ∧
    (¬ early edge → on →
      (oa = a → ob = b → exec edge s = .next s) ∧
      ((a = oa ∨ short heldA) → (b = ob ∨ short heldB) → s.gives edge fun u =>
        u.rd 0 (POS_CH_FILT_FAULTS c) = plus (POS_CH_FILT_FAULTS c) (bitN (a != oa) + bitN (b != ob)) ∧ s.onlyRegs u ((POS_CH_FILT_FAULTS c).wordAt 0)) ∧
      (¬ short heldA → ¬ short heldB → oa ≠ a → ob ≠ b → s.rd 0 (POS_CH_CFG_DECODE c) ≠ 3 → s.gives edge fun u =>
        u.rd 0 (POS_CH_QUAD_FAULTS c) = plus (POS_CH_QUAD_FAULTS c) 1 ∧ u.rd 0 (POS_CH_STATUS_A c) = bitN a ∧ u.rd 0 (POS_CH_STATUS_B c) = bitN b ∧
        s.onlyRegs u (((POS_CH_QUAD_FAULTS c).wordAt 0).or ((POS_CH_STATUS c).wordAt 0))) ∧
      (∀ d x, (a = oa ∨ ¬ short heldA) → (b = ob ∨ ¬ short heldB) → ¬ (oa = a ∧ ob = b) →
        edgeCount (s.rd 0 (POS_CH_CFG_DECODE c)) oa ob a b = some d → d ≠ 0 →
        x = (s.wr 0 (POS_CH_STATUS_A c) (bitN a)).wr 0 (POS_CH_STATUS_B c) (bitN b) →
        let n := if s.is 0 (POS_CH_CFG_INVERT c) then -d else d
        exec edge s = .next (s.after (x.count c (s.sampleNs odd) n)) ∧
        (s.rd 0 POS_CTRL_WEB_CHAN ≠ c → s.gives edge fun u =>
          u.rd64 0 (POS_CH_TRAVEL_LO c) = uNat 64 (sInt 64 (s.rd64 0 (POS_CH_TRAVEL_LO c)) + n) ∧
          u.rd64 0 (POS_CH_COUNT_LO c) = if s.countKept c then s.rd64 0 (POS_CH_COUNT_LO c) else uNat 64 (sInt 64 (s.rd64 0 (POS_CH_COUNT_LO c)) + n)))) ∧
    (on →
      (z = oz → exec index s = .next s) ∧
      (z ≠ oz → short held → s.gives index fun u =>
        u.rd 0 (POS_CH_FILT_FAULTS c) = plus (POS_CH_FILT_FAULTS c) 1 ∧ s.onlyRegs u ((POS_CH_FILT_FAULTS c).wordAt 0)) ∧
      (z ≠ oz → ¬ short held → ¬ z → s.gives index fun u => u.rd 0 (POS_CH_STATUS_Z c) = 0 ∧ s.onlyRegs u ((POS_CH_STATUS c).wordAt 0)) ∧
      (∀ x, z ≠ oz → ¬ short held → z → x = (s.wr 0 (POS_CH_STATUS_Z c) 1).edgesFirst c (· == odd) →
        let high := x.is 0 (POS_CH_STATUS_A c) && x.is 0 (POS_CH_STATUS_B c)
        (x.is 0 (POS_CH_CFG_ZGATE c) → ¬ high → exec index s = .next (s.after x)) ∧
        ((x.is 0 (POS_CH_CFG_ZGATE c) → high) → exec index s = .next (s.after (x.indexEvent c))) ∧
        ((x.is 0 (POS_CH_CFG_ZGATE c) → high) → x.rd 0 (POS_CH_CFG_ZMODE c) ≠ 0 → s.gives index fun u =>
          u.rd 0 (POS_CH_ZCOUNT c) = (x.rd 0 (POS_CH_ZCOUNT c) + 1) % 2 ^ 32 ∧ u.rd64 0 (POS_CH_ZCAP_LO c) = x.rd64 0 (POS_CH_COUNT_LO c)))) ∧
    (∀ v : BitVec 64, s.gives (.countWrite c v) fun u => u.rd64 0 (POS_CH_COUNT_LO c) = v.toNat ∧ u.countKept c ∧
      s.sameWords u ((POS_CH_COUNT_LO c).pairAt 0) ∧ u.mem = s.mem) ∧
    (∀ (k : Fin 2) (f : AbsFrame),
      (early (.absFrame k f) → exec (.absFrame k f) s = .next (s.dropEarly (· == .absFrame k f))) ∧
      (¬ early (.absFrame k f) → on → s.is 0 (POS_ABS_CFG_EN k) → ¬ s.is 0 (POS_ABS_CFG_PROTO k) →
        (¬ f.idleHigh → s.gives (.absFrame k f) fun u => u.rd 0 (POS_ABS_ERRORS k) = plus (POS_ABS_ERRORS k) 1 ∧
          u.rd64 0 (POS_ABS_POSITION_LO k) = s.rd64 0 (POS_ABS_POSITION_LO k) ∧ u.mem = s.mem) ∧
        (f.idleHigh → (smGet AbsState.idle k s.pos.abs).first → s.gives (.absFrame k f) fun u =>
          u.rd64 0 (POS_ABS_POSITION_LO k) = s.absValue k f % 2 ^ 64 ∧ u.rd 0 (POS_ABS_STATUS_VALID k) = 1 ∧ u.rd 0 (POS_ABS_STATUS_FAULT k) = 0 ∧
          (0, 24 + k.val) ∈ u.fab.pips ∧ u.mem = s.mem))) ∧
    ∀ k : Fin 6, on → s.standstillDue k → s.gives (.standstill k) fun u => smGet [] k u.pos.times = [] ∧ u.mem = s.mem ∧
      (k.val < 4 → u.rd 0 (POS_CH_STATUS_MOVING k) = 0 ∧ u.rd 0 (POS_CH_STATUS_STANDSTILL k) = 1)

/-- Compare units and their outputs (R299 to R306): a write of WR on the marker's unit is refused with MARK_OWNED, on a unit that is off it moves WR
modulo the list's length, after the counts of its cycle; RESTART of a unit that is off clears DONE and begins the list again; a write of CTRL that neither switches the unit on nor
restarts it sets its low byte; the pulses end. -/
def Obligations.CompareUnits : Prop :=
  ∀ (s : State) (n : Fin 16) (v : BitVec 32), s.live →
    (s.isMarker n → s.gives (.cmpWrWrite n v) fun u => u.rd 0 POS_ERR_MARK_OWNED = 1 ∧ s.onlyRegs u (POS_ERR.wordAt 0)) ∧
    (let y := s.cmpCountsFirst n;
      ¬ s.isMarker n → ¬ y.is 0 (POS_CMP_CTRL_EN n) → s.gives (.cmpWrWrite n v) fun u =>
        u.rd 0 (POS_CMP_WR n) = v.toNat % 4096 % y.cmpLen n ∧ y.sameWords u (((POS_CMP_WR n).wordAt 0).or ((POS_CMP_STATUS n).wordAt 0)) ∧ u.mem = y.mem) ∧
    (¬ s.is 0 (POS_CMP_CTRL_EN n) → s.gives (.restart n) fun u => u.rd 0 (POS_CMP_STATUS_DONE n) = 0 ∧ u.rd 0 (POS_CMP_STATUS_EMPTY n) = 1 ∧
      u.rd 0 (POS_CMP_RD n) = (if s.cmpMode n = 2 then s.cmpWr n % 2 ^ 32 else 0) ∧
      s.sameWords u (((POS_CMP_RD n).wordAt 0).or ((POS_CMP_STATUS n).wordAt 0)) ∧ u.mem = s.mem) ∧
    (exec (.restart n) s = .next (s.after (s.cmpRestart n))) ∧
    (¬ v.getLsbD 8 → (v.getLsbD 0 → s.is 0 (POS_CMP_CTRL_EN n)) → s.gives (.compareEnable n v) fun u =>
      bitsOf (u.rd 0 (POS_CMP_CTRL n)) 7 0 = v.toNat % 256 ∧ s.sameWords u (((POS_CMP_CTRL n).wordAt 0).or ((POS_CMP_STATUS n).wordAt 0)) ∧ u.mem = s.mem) ∧
    (∀ x, x = s.wr 0 ⟨0xE, (POS_CMP_CTRL n).off, 7, 0⟩ v.toNat → (v.getLsbD 8 ∨ v.getLsbD 0 ∧ ¬ s.is 0 (POS_CMP_CTRL_EN n)) →
      exec (.compareEnable n v) s = .next (s.after (x.cmpRestart n))) ∧
    (s.locked 0 .aux → s.is 0 (POS_CMP_STATUS_HIGH n) → s.gives (.comparePulseEnd n) fun u => u.rd 0 (POS_CMP_STATUS_HIGH n) = 0 ∧
      s.onlyRegs u ((POS_CMP_STATUS n).wordAt 0)) ∧
    (s.locked 0 .aux → n.val ∈ s.pos.high → s.gives (.triggerPulseEnd n) fun u => n.val ∉ u.pos.high ∧ (∀ k, k ≠ n.val → (k ∈ u.pos.high ↔ k ∈ s.pos.high)) ∧
      u.regs = s.regs ∧ u.mem = s.mem)

/-- Time bases and action slots (R310 to R328). A step or a set of TB3 moves it at once, records the step and does not count in TIM_STEPS; its rate is
written on every tile; REVERT goes back to the primary, and a slew ends within 2 ns of the source followed. A slot that is busy, or whose action its tile does not have, is not armed; one armed for a
time not passed is PENDING; DISARM takes it back, or is too late in the cycle in which it fires; slots fire in their order, and a slot that fires counts, keeps the time, raises its
line, and re-arms itself by whole periods to a time not yet reached. A frame that is launched is taken from the launches of its port. -/
def Obligations.TimeBasesAndSlots : Prop :=
  ∀ s : State, s.live →
    ((∀ (t : Tile) (n : Fin 64), ¬ s.is t (TIM_ACT_STATUS_PENDING n)) →
      let stepped (a : Int) (u : State) : Prop := u.base 3 = uNat 64 (s.base 3 + a) ∧ u.rd64 0 TIM_STEP_LAST_LO = uNat 64 a ∧
        u.rd64 0 TIM_STEP_TB0_LO = s.tim.tb0 % 2 ^ 64 ∧ u.rd 0 TIM_STEPS = s.rd 0 TIM_STEPS ∧ u.rd 0 TIM_ERR_STEP = 1 ∧ u.tim.tb1 = s.tim.tb1 ∧
        (∀ t ∈ s.tiles, (t, 114) ∈ u.fab.pips) ∧ u.mem = s.mem
      (∀ v : BitVec 64, s.gives (.tb3Step v) (stepped v.toInt)) ∧
      ∀ v : BitVec 64, s.gives (.tb3Set v) fun u => stepped ((v.toNat : Int) - s.base 3) u ∧ u.base 3 = v.toNat) ∧
    (∀ v : BitVec 32, s.gives (.tb3Rate v) fun u => (∀ t ∈ s.tiles, u.rd t (TIM_TB_RATE 3) = v.toNat) ∧
      s.onlyRegs u fun tile blk off => tile ∈ s.tiles ∧ blk = (TIM_TB_RATE 3).blk ∧ off = (TIM_TB_RATE 3).off) ∧
    (s.locked 0 .aux → s.tim.second → s.gives .wholeSecond fun u => (∀ t ∈ s.tiles, (t, 115) ∈ u.fab.pips) ∧ u.tim.second = false ∧ u.regs = s.regs ∧
      u.mem = s.mem) ∧
    (s.locked 0 .aux → s.rd 0 TIM_STATUS_SEL = 1 → s.is 0 TIM_CTRL_REVERT → s.revertDue → exec .revert s = .next (s.after (s.setSel 0)) ∧
      (((s.base 1 : Int) - s.sourceTime 0).natAbs < s.rd 0 TIM_STEP_LIMIT → s.gives .revert fun u => u.rd 0 TIM_STATUS_SEL = 0 ∧
        u.rd 0 TIM_SWITCHES = (s.rd 0 TIM_SWITCHES + 1) % 2 ^ 32 ∧ u.rd 0 TIM_ERR_SWITCH = 1 ∧ u.mem = s.mem)) ∧
    (s.locked 0 .aux → s.is 0 TIM_STATUS_SLEWING → s.slewNear → s.gives .slewEnd fun u => u.rd 0 TIM_STATUS_SLEWING = 0 ∧ u.mem = s.mem ∧
      (∀ t ∈ s.tiles, u.rd t (TIM_TB_STATUS_SLEWING 1) = 0) ∧ (s.rd 0 TIM_STATUS_SEL = 1 → ∀ t ∈ s.tiles, u.rd t (TIM_TB_RATE 1) = s.rd 0 (TIM_TB_RATE 2)) ∧
      (s.rd 0 TIM_STATUS_SEL ≠ 1 → s.sameWords u fun tile blk off => tile ∈ s.tiles ∧ blk = TIM_STATUS.blk ∧ (off = TIM_STATUS.off ∨ off = (TIM_TB_STATUS 1).off))) ∧
    ∀ (t : Tile) (n : Fin 64), s.fit t →
      (∀ v : BitVec 32, s.is t (TIM_ACT_STATUS_PENDING n) → s.gives (.slotArm t n v) fun u => u.rd 0 TIM_ERR_SLOT_BUSY = 1 ∧
        s.onlyRegs u (TIM_ERR.wordAt 0)) ∧
      (∀ (v : BitVec 32) (x : State), x = s.wr t (TIM_ACT_CTRL n) (v.toNat &&& 0xFF7C) → ¬ s.is t (TIM_ACT_STATUS_PENDING n) →
        (¬ actionOk t (bitsOf v.toNat 5 4) → s.gives (.slotArm t n v) fun u => u.rd 0 TIM_ERR_CFG_INVALID = 1 ∧ u.rd t (TIM_ACT_STATUS_PENDING n) = 0 ∧
          s.onlyRegs u (((TIM_ACT_CTRL n).wordAt t).or (TIM_ERR.wordAt 0))) ∧
        (actionOk t (bitsOf v.toNat 5 4) → (x.slotBase t n : Int) ≤ x.firePoint t n → s.gives (.slotArm t n v) fun u =>
          u.rd t (TIM_ACT_STATUS_PENDING n) = 1 ∧ u.rd t (TIM_ACT_CTRL_ARM n) = 1 ∧ u.rd t (TIM_ACT_CTRL_ARG n) = bitsOf v.toNat 15 8 ∧
          s.onlyRegs u (((TIM_ACT_CTRL n).wordAt t).or ((TIM_ACT_STATUS n).wordAt t)))) ∧
      (¬ s.slotDue t n → ¬ s.slotFired t n → s.gives (.slotDisarm t n) fun u => u.rd t (TIM_ACT_STATUS_PENDING n) = 0 ∧
        u.rd t (TIM_ACT_CTRL_ARM n) = 0 ∧ u.rd t (TIM_ACT_STATUS_ABORT_LATE n) = s.rd t (TIM_ACT_STATUS_ABORT_LATE n) ∧
        s.onlyRegs u (((TIM_ACT_CTRL n).wordAt t).or ((TIM_ACT_STATUS n).wordAt t))) ∧
      (¬ s.slotDue t n → s.slotFired t n → s.gives (.slotDisarm t n) fun u => u.rd t (TIM_ACT_STATUS_PENDING n) = 0 ∧
        u.rd t (TIM_ACT_STATUS_DONE n) = 1 ∧ u.rd t (TIM_ACT_STATUS_ABORT_LATE n) = 1) ∧
      (s.slotDue t n → s.rd t (TIM_ACT_CTRL_ACTION n) = 0 → s.gives (.slotDisarm t n) fun u => u.rd t (TIM_ACT_STATUS_PENDING n) = 0 ∧
        u.rd t (TIM_ACT_COUNT n) = (s.rd t (TIM_ACT_COUNT n) + 1) % 2 ^ 32 ∧ u.rd t (TIM_ACT_STATUS_DONE n) = 1 ∧ u.rd t (TIM_ACT_STATUS_ABORT_LATE n) = 1) ∧
      (s.locked t .aux → s.slotDue t n → exec (.slotFire t n) s = .next (s.after ((s.slotsBelow t n).slotExec t n false))) ∧
      (s.locked t .aux → s.slotDue t n → (∀ m < n.val, ¬ s.slotDue t m) → s.rd t (TIM_ACT_CTRL_ACTION n) = 0 → s.gives (.slotFire t n) fun u =>
        u.rd t (TIM_ACT_COUNT n) = (s.rd t (TIM_ACT_COUNT n) + 1) % 2 ^ 32 ∧ u.rd t (TIM_ACT_EXEC n) = s.slotBase t n % 2 ^ 32 ∧
        u.rd t (TIM_ACT_STATUS_DONE n) = 1 ∧ (t.val, 48 + n.val) ∈ u.fab.pips ∧ u.mem = s.mem ∧
        (s.rd t (TIM_ACT_PERIOD n) = 0 → u.rd t (TIM_ACT_STATUS_PENDING n) = 0 ∧ u.rd t (TIM_ACT_CTRL_ARM n) = 0) ∧
        (s.rd t (TIM_ACT_PERIOD n) ≠ 0 → u.rd t (TIM_ACT_STATUS_PENDING n) = 1 ∧ ∃ k, 1 ≤ k ∧
          s.slotBase t n < s.slotTime t n + k * s.rd t (TIM_ACT_PERIOD n) ∧
          u.slotTime t n = (s.slotTime t n + k * s.rd t (TIM_ACT_PERIOD n)) % 2 ^ 64)) ∧
      ∀ (p : EthPort) (l : Launch), s.locked 0 .aux → s.locked p .eth → s.is p ETH_STATUS_LINK → s.launchDue p →
        s.tim.launches.find? (·.port == p.val) = some l → exec (.frameLaunch p) s = .next (s.after (s.frameLaunch p)) ∧
        s.gives (.frameLaunch p) fun u => u.tim.launches = s.tim.launches.erase l ∧ u.rd p ETH_TX_FRAMES = (s.rd p ETH_TX_FRAMES + 1) % 2 ^ 32

/-- The frames of the firmware on their way to queue `q` of port `p` or standing in it. -/
def Sys2Proof.Machine.State.outbound (s : State) (p q : Nat) : Nat :=
  (s.txq p q).length + (s.net.fwWait.countP fun (k, _) => k == (p, q)) + s.net.hopOut.countP fun (k, _) => k == (p, q)

/-- PTP messages (R314 to R318), while the AUX PLL of tile 0 is locked: a two-step Sync of the master, at a rate that is accepted, waits for its Follow_Up, a one-step one is used at once, and
the domain then reports that it receives; a Delay_Resp that answers the
request sent sets the path delay to half the round trip, no less than 0; a Pdelay_Resp in one step sets the peer delay; messages of another
domain, of another master, at a rate that is not accepted, or to another request have no effect; a Pdelay_Req is answered and requests are sent in queue 7; an Announce is remembered for its
sender; an Announce timeout counts, drops the master and loses the lock. -/
def Obligations.PtpMessages : Prop :=
  ∀ (s : State) (m : PtpMsg) (d : Nat), s.live → s.locked 0 .aux →
    let wait (kind : Nat) := s.tim.waits.find? fun w => w.kind == kind && w.domain == d && w.port == m.port.val && w.seq == m.seq.toNat
    let half (x : Int) : Int := max 0 (min (2 ^ 32 - 1) (roundShr x 17))
    let used (u : State) : Prop := u.rd 0 (TIM_DOM_SYNC_RX d) = (s.rd 0 (TIM_DOM_SYNC_RX d) + 1) % 2 ^ 32 ∧ u.rd 0 (TIM_DOM_STATE_STATE d) = 3 ∧ u.mem = s.mem
    let asks (kind p k : Nat) (u : State) : Prop := (∃ w, u.tim.waits = s.tim.waits ++ [w] ∧ w.kind = kind ∧ w.domain = k ∧ w.port = p) ∧
      u.outbound p 7 = s.outbound p 7 + 1
    (s.domainOf m = none → exec (.sync m) s = .next s ∧ exec (.followUp m) s = .next s ∧ exec (.delayResp m) s = .next s ∧
      ∀ n, exec (.announce m n) s = .next s) ∧
    (s.domainOf m = some d → (¬ s.fromMaster d m ∨ ¬ ptpPaced m (-7)) → exec (.sync m) s = .next s) ∧
    (s.domainOf m = some d → s.fromMaster d m → ptpPaced m (-7) → m.twoStep → s.gives (.sync m) fun u => ∃ w, u.tim.waits = s.tim.waits ++ [w] ∧
      w.kind = 8 ∧ w.domain = d ∧ w.seq = m.seq.toNat ∧ w.srcId = m.srcId.toNat ∧ u.regs = s.regs ∧ u.mem = s.mem) ∧
    (s.domainOf m = some d → s.fromMaster d m → ptpPaced m (-7) → ¬ m.twoStep →
      exec (.sync m) s = .next (s.after (s.syncUse d (ptpOrigin m + corrOf m.corr) (s.rxStamp m))) ∧
      (¬ s.follows d → s.gives (.sync m) used)) ∧
    (∀ w, s.domainOf m = some d →
      (s.tim.waits.find? fun w => w.kind == 8 && w.domain == d && w.port == m.port.val && w.srcId == m.srcId.toNat && w.seq == m.seq.toNat) = some w →
      (∀ u, u = { s with tim := { s.tim with waits := s.tim.waits.erase w } } →
        exec (.followUp m) s = .next (s.after (u.syncUse d (ptpOrigin m + corrOf m.corr + w.corr) w.stamp))) ∧
      (¬ s.follows d → s.gives (.followUp m) fun u => used u ∧ u.tim.waits = s.tim.waits.erase w)) ∧
    (s.domainOf m = some d → wait 1 = none → exec (.delayResp m) s = .next s) ∧
    (∀ w r, s.domainOf m = some d → wait 1 = some w → (s.dom d).ref = some r → s.isMine m.port m → s.gives (.delayResp m) fun u =>
      u.tim.waits = s.tim.waits.erase w ∧ (u.rd 0 (TIM_DOM_DELAY d) : Int) = half (ptpOrigin m - corrOf m.corr - w.stamp - r) ∧
      s.sameWords u ((TIM_DOM_DELAY d).wordAt 0) ∧ u.mem = s.mem) ∧
    (¬ (s.is 0 TIM_CTRL_PTP_EN ∧ s.p2p) → exec (.pdelayReq m) s = .next s) ∧
    (s.is 0 TIM_CTRL_PTP_EN → s.p2p → exec (.pdelayReq m) s = .next (s.after (s.pdelayReq m)) ∧
      s.gives (.pdelayReq m) fun u => u.outbound m.port 7 = s.outbound m.port 7 + if s.is 0 TIM_CTRL_TWO_STEP then 2 else 1) ∧
    (∀ w, (s.tim.waits.find? fun w => w.kind == 2 && w.port == m.port.val && w.seq == m.seq.toNat) = some w → s.isMine m.port m → ¬ m.twoStep →
      s.gives (.pdelayResp m) fun u => u.tim.waits = s.tim.waits.erase w ∧
        (u.rd 0 (TIM_PORT_PDELAY m.port) : Int) = half (s.rxStamp m - w.stamp - corrOf m.corr) ∧ u.mem = s.mem) ∧
    (∀ w, (s.tim.waits.find? fun w => w.kind == 3 && w.port == m.port.val && w.seq == m.seq.toNat && w.srcId == m.srcId.toNat) = some w →
      s.isMine m.port m → s.gives (.pdelayRespFollowUp m) fun u => u.tim.waits = s.tim.waits.erase w ∧
        (u.rd 0 (TIM_PORT_PDELAY m.port) : Int) = half (w.stamp2 - ptpOrigin m - w.corr - corrOf m.corr) ∧ u.mem = s.mem) ∧
    (∀ n, s.domainOf m = some d → ¬ ptpPaced m (-3) → exec (.announce m n) s = .next s) ∧
    (∀ n, s.domainOf m = some d → ptpPaced m (-3) → exec (.announce m n) s = .next (s.after (s.announce m n)) ∧
      s.gives (.announce m n) fun u => ∃ f ∈ (u.dom d).heard, f.gm = n ∧ f.port = m.port.val ∧ f.srcId = m.srcId.toNat) ∧
    (∀ k : Fin 2, (s.dom k).master.isSome → exec (.announceTimeout k) s = .next (s.after (s.announceTimeout k)) ∧
      s.gives (.announceTimeout k) fun u => u.rd 0 (TIM_DOM_ANN_TMO k) = min (s.rd 0 (TIM_DOM_ANN_TMO k) + 1) 0xFFFFFFFF ∧ (u.dom k).locked = false ∧
        u.mem = s.mem) ∧
    (∀ (p : EthPort) (k : Fin 2) f, s.is 0 TIM_CTRL_PTP_EN → ¬ s.p2p → (s.dom k).master = some f → f.port = p.val →
      exec (.delayReq p k) s = .next (s.after (s.delayReq p k)) ∧ s.gives (.delayReq p k) (asks 1 p k)) ∧
    ∀ p : EthPort, s.is 0 TIM_CTRL_PTP_EN → s.p2p → exec (.pdelayReqSend p) s = .next (s.after (s.pdelaySend p)) ∧ s.gives (.pdelayReqSend p) (asks 2 p 0)

/-! The protocol, the Ethernet ports and the outputs (R331 to R359). -/

/-- The state in which the operation of a request is carried out: the request has crossed to tile 0, gone on along the chain, counted and touched the session of its source. -/
def Sys2Proof.Machine.State.lcpBegun (s : State) (h : LcpHdr) (op : Nat) (pay : Bytes) : State :=
  let y := s.hopOver h
  ((if h.dst.val = 63 ∧ op ≠ 0x40 ∧ 0 < h.ttl.val then y.lcpForward h op (h.ttl.val - 1) pay else y).sessTouch h).addWrap 0 CHN_LCP_REQS 1

/-- A request that is carried out at once: it is for this part, waits for no link, is no copy of one under way and not the one last carried out, and its session allows its operation. -/
def Sys2Proof.Machine.State.lcpRuns (s : State) (h : LcpHdr) (op : Nat) (free : Bool) : Prop :=
  s.lcpMine h ∧ ¬ s.lcpStays h ∧ ¬ s.lcpCopy h ∧ (s.rd 0 CHN_ADDR_ADDR ≠ 0 ∨ opTells op) ∧ s.sessAllows h op free ∧ s.keptReply h = none

/-- `u` is `z` with the reply of a request kept for its session and, unless it is to get none, on its way to its source. -/
def Sys2Proof.Machine.State.answeredIn (z : State) (h : LcpHdr) (op st : Nat) (pay : Bytes) (u : State) : Prop :=
  let q := z.rd 0 CHN_LCP_CTRL_QUEUE
  u.regs = z.regs ∧ u.mem = z.mem ∧ u.outbound h.port q = z.outbound h.port q + bitN (!z.lcpSilent h op) ∧
    (h.session.val ≠ 0 → z.sessOpen h.session → u.keptReply h = some (if z.lcpSilent h op then [] else z.lcpReply h op st pay))

/-- An LCP request that comes to this part is counted and touches its sender's session; one that has come in at port B and cannot cross to tile 0 waits; one of no session of its sender, and one whose
length does not fit, has no other effect but its answer, and with NOREPLY none at all; one that is carried out answers with what its operation gives, and keeps the answer (R339
to R343). A register request behind one that waits, or whose way is out of service, waits. Closing a session, by CLOSE, by its timeout or by a write of the close register, leaves no such session; one
that has timed out while a request of it waits in the cycle closes behind it. -/
def Obligations.LcpRequests : Prop :=
  (∀ (s : State) (h : LcpHdr) (pay : Bytes), s.live →
    let rows := [(Instr.lcpOpen h pay, 0x01), (.lcpClose h pay, 0x02), (.lcpKeepalive h pay, 0x03), (.lcpRead h pay, 0x10), (.lcpWrite h pay, 0x11),
      (.lcpModify h pay, 0x12), (.lcpReadList h pay, 0x13), (.imageOpen h pay, 0x20), (.imageData h pay, 0x21), (.imageAbort h pay, 0x22),
      (.lcpNotifyAck h pay, 0x31), (.lcpSubscribe h pay, 0x32), (.lcpEnumerate h pay, 0x40), (.lcpIdentify h pay, 0x41), (.lcpReset h pay, 0x43)]
    (¬ s.lcpMine h → ∀ i ∈ rows, exec i.1 s = .next s) ∧
    (s.lcpMine h → s.lcpStays h → ∀ i ∈ rows, s.gives i.1 fun u => u.net.hopIn = s.net.hopIn ++ [⟨h, i.2, pay⟩] ∧ u.regs = s.regs ∧ u.mem = s.mem) ∧
    (s.lcpMine h → ¬ s.lcpStays h → s.rd 0 CHN_ADDR_ADDR ≠ 0 → h.dst.val ≠ 63 → h.session.val ≠ 0 → h.noreply → ¬ s.lcpCopy h →
      let counted (u : State) : Prop := u.rd 0 CHN_LCP_REQS = (s.rd 0 CHN_LCP_REQS + 1) % 2 ^ 32 ∧ s.sameWords u (CHN_LCP_REQS.wordAt 0) ∧ u.mem = s.mem
      (¬ s.sessMine h → ∀ i ∈ rows, i.2 ≠ 0x01 → s.gives i.1 counted) ∧
      (s.sessMine h → s.keptReply h ≠ none → ∀ i ∈ rows, s.gives i.1 counted) ∧
      (s.sessMine h → pay ≠ [] → ∀ i ∈ rows, i.2 = 0x02 ∨ i.2 = 0x03 ∨ i.2 = 0x22 ∨ i.2 = 0x32 → s.gives i.1 counted) ∧
      (s.sessMine h → s.keptReply h = none → s.gives (.lcpKeepalive h []) fun u => counted u ∧ ∀ x ∈ s.net.sessions, x.2.src = h.src → ¬ s.sessOver x.2 →
        ∃ z ∈ u.net.sessions, z.1 = x.1 ∧ z.2.src = h.src ∧ z.2.last = s.tim.tb0) ∧
      (s.sessMine h → s.keptReply h = none → s.gives (.lcpSubscribe h []) fun u => counted u ∧ u.net.subscriber = some h.session.val) ∧
      (s.sessMine h → s.keptReply h = none → s.gives (.lcpClose h []) fun u => u.sessAt h.session = none) ∧
      (s.sessMine h → s.keptReply h = none → pay.length = 2 → s.net.noticeSends ≠ 0 → s.net.noticeSeq = leAt pay 0 2 → s.gives (.lcpNotifyAck h pay) fun u =>
        u.net.noticeSends = 0 ∧ (s.net.noticeLost = 0 → u.net.notices = s.net.notices.tail)))) ∧
  (∀ (s : State) (h : LcpHdr) (pay : Bytes), s.live →
    let does (i : Instr) (op : Nat) (free : Bool) (act : State → LcpOut) : Prop :=
      s.lcpRuns h op free → exec i s = .next (s.after ((act (s.lcpBegun h op pay)).finish h op))
    let regs (i : Instr) (op : Nat) (free : Bool) : Prop := does i op free (fun x => x.lcpRegAct h op pay) ∧
      (s.lcpRuns h op free → s.net.waiting = [] → ¬ (s.lcpBegun h op pay).lcpBlocked op pay → s.gives i fun u =>
        ((s.lcpBegun h op pay).lcpRegs h op pay).2.2.answeredIn h op ((s.lcpBegun h op pay).lcpRegs h op pay).1 ((s.lcpBegun h op pay).lcpRegs h op pay).2.1 u) ∧
      (s.lcpRuns h op free → (s.net.waiting ≠ [] ∨ (s.lcpBegun h op pay).lcpBlocked op pay) → s.gives i fun u =>
        u.net.waiting = s.net.waiting ++ [⟨h, op, pay⟩] ∧ u.regs = (s.lcpBegun h op pay).regs ∧ u.mem = s.mem)
    (pay.length = 12 → 1 ≤ leAt pay 8 2 → leAt pay 8 2 ≤ 2048 → regs (.lcpRead h pay) 0x10 true) ∧
    (pay.length % 4 = 0 → 12 ≤ pay.length → pay.length ≤ 8192 → regs (.lcpWrite h pay) 0x11 false) ∧
    (pay.length = 16 → regs (.lcpModify h pay) 0x12 false) ∧
    (pay.length % 8 = 0 → 8 ≤ pay.length → pay.length ≤ 8192 → regs (.lcpReadList h pay) 0x13 true) ∧
    (pay.length = 4 → does (.lcpEnumerate h pay) 0x40 true (fun x => x.enumAct h (byteAt pay 0)) ∧
      (let x := s.lcpBegun h 0x40 pay;
        s.lcpRuns h 0x40 true → h.port.val = 0 → (x.rd 0 CHN_ADDR_ADDR = 0 ∨ ¬ x.is 0 CHN_ADDR_LOCK) → ¬ x.softHas 0 CHN_ADDR → byteAt pay 0 ≤ 61 →
        s.gives (.lcpEnumerate h pay) fun u => u.rd 0 CHN_ADDR_ADDR = byteAt pay 0 + 1 ∧ u.rd 0 CHN_STATUS_POSITION = byteAt pay 0 + 1 ∧ u.mem = s.mem)) ∧
    (pay = [] → does (.lcpIdentify h pay) 0x41 true (fun x => ⟨some (stOk, x.identity), x, stay⟩) ∧
      (s.lcpRuns h 0x41 true → s.gives (.lcpIdentify h pay) fun u => (s.lcpBegun h 0x41 pay).answeredIn h 0x41 stOk (s.lcpBegun h 0x41 pay).identity u)) ∧
    (pay.length = 8 → s.lcpRuns h 0x41 true → leAt pay 0 8 ≠ s.id.dieIds.headD 0 → exec (.lcpIdentify h pay) s = .next (s.after (s.lcpBegun h 0x41 pay))) ∧
    (pay.length = 1 → byteAt pay 0 = 1 → does (.lcpReset h pay) 0x43 false (fun x => ⟨some (stOk, []), x, fun s => s.lcpReset h⟩) ∧
      (s.lcpRuns h 0x43 false → s.pwr.op = none → s.gives (.lcpReset h pay) fun u =>
        u.pwr.phase = .hold ∧ u.pwr.held ∧ ∀ t ∈ s.tiles, (u.rd t SYS_RESET_CAUSE).testBit 1)) ∧
    (pay.length = 4 → does (.imageOpen h pay) 0x20 false (fun x => x.openAct h (leAt pay 0 4)) ∧
      (s.lcpRuns h 0x20 false → 200 ≤ leAt pay 0 4 → (s.shadowSt = 0 ∨ s.shadowSt = 3 ∨ s.shadowSt = 6) → s.cfg.waiting = [] →
        s.gives (.imageOpen h pay) fun u => u.rd 0 CFG_STATUS_SHADOW = 1 ∧ u.rd 0 CFG_STATUS_SESSION = h.session.val ∧
          ∃ l, u.cfg.load = some l ∧ l.len = leAt pay 0 4 ∧ l.session = h.session.val ∧ l.bytes = [])) ∧
    (5 ≤ pay.length → pay.length ≤ 8192 → does (.imageData h pay) 0x21 false (fun x => x.dataAct h pay) ∧
      ∀ l, s.lcpRuns h 0x21 false → s.cfg.load = some l → l.session = h.session.val → l.pos = 0 → leAt pay 0 4 = l.bytes.length →
        l.bytes.length + (pay.length - 4) < 64 → l.bytes.length + (pay.length - 4) ≤ l.len → s.shadowSt = 1 → s.cfg.waiting = [] →
        s.gives (.imageData h pay) fun u => u.cfg.load = some { l with bytes := l.bytes ++ pay.drop 4 } ∧
          u.rd 0 CFG_LOAD_BYTES = l.bytes.length + (pay.length - 4)) ∧
    (pay = [] → does (.imageAbort h pay) 0x22 false (fun x => ⟨some (stOk, []), x.cfgAbort, fun s => s.loadResume⟩) ∧
      (s.lcpRuns h 0x22 false → s.shadowSt = 1 → s.cfg.load ≠ none → s.cfg.waiting = [] → s.gives (.imageAbort h pay) fun u =>
        u.rd 0 CFG_STATUS_SHADOW = 6 ∧ u.rd 0 CFG_REFUSE_CODE = 0x0E ∧ u.cfg.load = none ∧ u.mem = s.mem)) ∧
    (pay.length = 1 → byteAt pay 0 ≤ 7 → does (.lcpOpen h pay) 0x01 true (fun x => x.lcpOpenAct h (byteAt pay 0)) ∧
      (s.lcpRuns h 0x01 true → h.session.val = 0 → byteAt pay 0 ≠ 0 → s.sessAt (byteAt pay 0) = none → s.gives (.lcpOpen h pay) fun u =>
        u.sessAt (byteAt pay 0) = some ⟨h.src, h.port.val, h.mac.toNat, s.tim.tb0⟩))) ∧
  ∀ (s : State) (n : Fin 8) (v : BitVec 32), s.live →
    ((s.sessAt n).any s.sessOver → ¬ (s.lcpAhead fun h => h.session.val == n.val) → s.gives (.sessionTimeout n) fun u => u.sessAt n = none) ∧
    ((s.sessAt n).any s.sessOver → (s.lcpAhead fun h => h.session.val == n.val) → s.gives (.sessionTimeout n) fun u => u.net.expired = n.val :: s.net.expired ∧
      u.net.sessions = s.net.sessions ∧ u.regs = s.regs ∧ u.mem = s.mem) ∧
    (¬ (s.sessAt n).any s.sessOver → exec (.sessionTimeout n) s = .next s) ∧
    (s.gives (.sessClose v) fun u => ∀ k, 1 ≤ k → k ≤ 7 → v.getLsbD k → u.sessAt k = none)

/-- The Ethernet ports (R331 to R338), whose logic runs while their ETH PLL is locked: a frame shorter than 64 bytes counts in LEN_ERR and sets its flag, one with a bad FCS in FCS_ERR, a good
one in RX_FRAMES, and a MAC control frame goes no further; on a port without link there is none; ARP and NDP
requests for another address do nothing, and one for the part's address is answered in the firmware's queue; a link that comes up or goes down shows it; a mode that is
tried changes to the other; a port with nothing queued, or whose next frame would not end before a launch, sends nothing, and a frame that leaves counts. -/
def Obligations.EthernetPorts : Prop :=
  ∀ (s : State) (p : EthPort), s.live →
    let on := s.locked p .eth ∧ s.is p ETH_STATUS_LINK
    let q := s.rd 0 CHN_LCP_CTRL_QUEUE
    let replied (u : State) : Prop := u.outbound p q = s.outbound p q + 1 ∧ u.regs = s.regs ∧ u.mem = s.mem
    (∀ f : Bytes, ¬ on → exec (.frameReceive p f) s = .next s) ∧
    (∀ f : Bytes, on → f.length < 64 → s.gives (.frameReceive p f) fun u =>
      u.rd p ETH_RX_LEN_ERR = min (s.rd p ETH_RX_LEN_ERR + 1) 0xFFFFFFFF ∧ u.rd p ETH_ERR_LEN = 1 ∧
      s.onlyRegs u ((ETH_RX_LEN_ERR.wordAt p).or (ETH_ERR_LEN.wordAt p))) ∧
    (∀ f : Bytes, on → 64 ≤ f.length → f.length ≤ 9216 →
      (leAt f (f.length - 4) 4 ≠ crcOf crc32Kind (f.take (f.length - 4)) → s.gives (.frameReceive p f) fun u =>
        u.rd p ETH_RX_FCS_ERR = min (s.rd p ETH_RX_FCS_ERR + 1) 0xFFFFFFFF ∧ u.rd p ETH_ERR_FCS = 1 ∧ u.rd p ETH_RX_FRAMES = s.rd p ETH_RX_FRAMES) ∧
      (leAt f (f.length - 4) 4 = crcOf crc32Kind (f.take (f.length - 4)) → s.gives (.frameReceive p f) fun u =>
        u.rd p ETH_RX_FRAMES = (s.rd p ETH_RX_FRAMES + 1) % 2 ^ 32 ∧ u.rd p ETH_RX_FCS_ERR = s.rd p ETH_RX_FCS_ERR ∧ u.mem = s.mem ∧
        (fType (f.take (f.length - 4)) = 0x8808 → u.rd p ETH_RX_MACCTRL = min (s.rd p ETH_RX_MACCTRL + 1) 0xFFFFFFFF ∧ u.net = s.net))) ∧
    (∀ f : Bytes, on → exec (.frameReceive p f) s = .next (s.after (s.frameIn p f))) ∧
    (∀ mac ip tg, tg.toNat ≠ s.rd 0 CHN_IPV4 → exec (.arp p mac ip tg) s = .next s) ∧
    (∀ mac ip tg, s.locked 0 .aux → s.is p ETH_STATUS_LINK → tg.toNat = s.rd 0 CHN_IPV4 →
      exec (.arp p mac ip tg) s = .next (s.after (s.arpReply p (BitVec.toNat mac) (BitVec.toNat ip))) ∧ s.gives (.arp p mac ip tg) replied) ∧
    (∀ mac ip tg, tg.toNat ≠ leNat s.chnIp6 → exec (.ndp p mac ip tg) s = .next s) ∧
    (∀ mac ip tg, s.locked 0 .aux → s.is p ETH_STATUS_LINK → tg.toNat = leNat s.chnIp6 →
      exec (.ndp p mac ip tg) s = .next (s.after (s.ndpReply p (BitVec.toNat mac) (leBytes 16 (BitVec.toNat ip)))) ∧ s.gives (.ndp p mac ip tg) replied) ∧
    (∀ r : Bool, s.locked p .eth → s.is p ETH_CFG_EN → ¬ s.is p ETH_STATUS_LINK → bitN r = s.ethMode p → s.gives (.ethLinkUp p r) fun u =>
      u.rd p ETH_STATUS_LINK = 1 ∧ u.rd p ETH_STATUS_SPEED = bitN r ∧ u.rd p ETH_STATUS_ALIGN = 1 ∧
      s.sameWords u ((ETH_STATUS.wordAt p).or (CHN_NOTIFY_LOST.wordAt 0)) ∧ u.mem = s.mem) ∧
    (∀ cut : Bool, s.is p ETH_STATUS_LINK → s.gives (.ethLinkDown p cut) fun u => u.rd p ETH_STATUS_LINK = 0 ∧ u.rd p ETH_STATUS_ALIGN = 0 ∧
      u.rd p ETH_ERR_LINK_LOST = (if cut then 1 else s.rd p ETH_ERR_LINK_LOST) ∧
      s.sameWords u (((ETH_STATUS.wordAt p).or (ETH_ERR_LINK_LOST.wordAt p)).or (CHN_NOTIFY_LOST.wordAt 0)) ∧ u.mem = s.mem) ∧
    (s.is p ETH_CFG_EN → ¬ s.is p ETH_STATUS_LINK → 2 ≤ s.rd p ETH_CFG_MODE → s.gives (.modeTry p) fun u =>
      u.ethMode p = 1 - s.ethMode p ∧ u.regs = s.regs ∧ u.mem = s.mem) ∧
    ((¬ on ∨ s.topQueue p = none ∨ s.nextBlocked p) → exec (.transmit p) s = .next s) ∧
    (on → ¬ s.nextBlocked p → exec (.transmit p) s = .next (s.after (s.transmit p))) ∧
    (∀ k f l, on → ¬ s.nextBlocked p → s.topQueue p = some k → s.txq p k = f :: l → f.ptp = none → s.net.fwWait = [] →
      s.gives (.transmit p) fun u => u.rd p ETH_TX_FRAMES = (s.rd p ETH_TX_FRAMES + 1) % 2 ^ 32 ∧ u.txq p k = l ∧
        smGet [] p u.net.lastOut = withFcs f.bytes ∧
        u.rd p ETH_PASS_FRAMES = (if f.pass then (s.rd p ETH_PASS_FRAMES + 1) % 2 ^ 32 else s.rd p ETH_PASS_FRAMES) ∧
        s.sameWords u ((ETH_TX_FRAMES.wordAt p).or (ETH_PASS_FRAMES.wordAt p)) ∧ u.mem = s.mem)

/-- Notifications and record senders (R344, R349): a notification goes to the subscriber and counts; after eight sends it is given up;
with no subscriber none goes out; an acknowledgement of the cycle comes before the next send. A record is taken for a datagram only where the destination is configured and the queue holds one, after the
lower-numbered senders of its queue; a datagram
is closed when its hold time is over and its queue empty, and one whose launch time has come leaves the list of timed ones. -/
def Obligations.NotificationsAndRecords : Prop :=
  ∀ (s : State) (r : Fin 8), s.live →
    (s.net.subscriber = none → s.net.noticeSends = 0 → exec .lcpNotify s = .next s) ∧
    (∀ n l k x, s.locked 0 .aux → s.net.noticeSends = 0 → s.net.notices = n :: l → s.net.subscriber = some k →
      s.net.sessions.find? (·.1 == k) = some (k, x) →
      s.gives .lcpNotify fun u => u.rd 0 CHN_NOTIFY_SENT = (s.rd 0 CHN_NOTIFY_SENT + 1) % 2 ^ 32 ∧ u.net.noticeSends = 1 ∧
        u.net.noticeSeq = (s.net.noticeSeq + 1) % 65536 ∧ u.net.notices = s.net.notices ∧
        u.outbound x.port (s.rd 0 CHN_LCP_CTRL_QUEUE) = s.outbound x.port (s.rd 0 CHN_LCP_CTRL_QUEUE) + 1 ∧
        s.sameWords u (CHN_NOTIFY_SENT.wordAt 0) ∧ u.mem = s.mem) ∧
    ((s.net.noticeSends = 0 ∨ s.ackAhead) → exec .lcpNotifyResend s = .next s) ∧
    (s.locked 0 .aux → ¬ s.ackAhead → 8 ≤ s.net.noticeSends → s.net.noticeLost = 0 → s.gives .lcpNotifyResend fun u =>
      u.rd 0 CHN_NOTIFY_GIVEUP = min (s.rd 0 CHN_NOTIFY_GIVEUP + 1) 0xFFFFFFFF ∧ u.net.notices = s.net.notices.tail ∧ u.net.noticeSends = 0 ∧
      s.sameWords u (CHN_NOTIFY_GIVEUP.wordAt 0) ∧ u.mem = s.mem) ∧
    (∀ n l k x, s.locked 0 .aux → ¬ s.ackAhead → s.net.noticeSends ≠ 0 → s.net.noticeSends < 8 → s.net.notices = n :: l → s.net.subscriber = some k →
      s.net.sessions.find? (·.1 == k) = some (k, x) → s.gives .lcpNotifyResend fun u =>
        u.rd 0 CHN_NOTIFY_SENT = (s.rd 0 CHN_NOTIFY_SENT + 1) % 2 ^ 32 ∧ u.net.noticeSends = s.net.noticeSends + 1 ∧
        u.net.noticeSeq = s.net.noticeSeq ∧ u.net.notices = s.net.notices) ∧
    (s.tookEarly (isRecordPop r) → exec (.recordPop r) s = .next (s.after (s.dropEarly (isRecordPop r)))) ∧
    (¬ s.tookEarly (isRecordPop r) → s.is 0 (OUT_REC_CTRL_EN r) → s.fit (s.rd 0 (OUT_REC_CTRL_TILE r)) →
      let y := s.lowerSenders r
      let t := y.rd 0 (OUT_REC_CTRL_TILE r)
      let q := y.rd 0 (OUT_REC_CTRL_QUEUE r)
      let dst := y.rd 0 (OUT_REC_CTRL_DEST r)
      exec (.recordPop r) s = .next (s.after (y.recordPop r)) ∧
      (¬ y.is 0 (OUT_DST_PORT_EN dst) → s.gives (.recordPop r) fun u => u.rd 0 OUT_ERR_CFG_INVALID = 1 ∧ y.sameWords u (OUT_ERR_CFG_INVALID.wordAt 0)) ∧
      (y.is 0 (OUT_DST_PORT_EN dst) → y.qOld t q = [] → exec (.recordPop r) s = .next (s.after y)) ∧
      (∀ i x, y.is 0 (OUT_DST_PORT_EN dst) → ¬ y.dgramFull r i → (y.qOld t q).head? = some i → y.popTapped t q = some (i, x) →
        s.gives (.recordPop r) fun u => (u.sender r).recs = (x.sender r).recs ++ [bytesOfWords i.words] ∧ u.regs = x.regs ∧
          ((x.sender r).recs = [] → (u.sender r).rel = i.rel ∧ (u.sender r).since = x.tim.tb0))) ∧
    (¬ (s.is 0 (OUT_REC_CTRL_EN r) ∧ s.dgramOver r ∧ s.dgramRoom r ∧ s.recDst r) → exec (.datagramHold r) s = .next s) ∧
    (s.is 0 (OUT_REC_CTRL_EN r) → s.dgramOver r → s.dgramRoom r → s.recDst r → exec (.datagramHold r) s = .next (s.after (s.closeDgram r)) ∧
      ((s.sender r).recs ≠ [] → s.gives (.datagramHold r) fun u => (u.sender r).recs = [] ∧ (u.sender r).count = ((s.sender r).count + 1) % 2 ^ 32 ∧
        u.mem = s.mem)) ∧
    ((∀ d ∈ s.net.timed, d.sender = r.val → s.tb1 + 1 < d.time) → exec (.datagramLaunch r) s = .next s) ∧
    ∀ d, (s.net.timed.find? fun d => d.sender == r.val && decide (d.time ≤ s.tb1 + 1)) = some d →
      (s.recDst r → s.gives (.datagramLaunch r) fun u => u.net.timed = s.net.timed.erase d ∧
        u.rd 0 (OUT_REC_DGRAMS r) = (s.rd 0 (OUT_REC_DGRAMS r) + 1) % 2 ^ 32 ∧ u.mem = s.mem) ∧
      (¬ s.recDst r → s.gives (.datagramLaunch r) fun u => u.net.timed = s.net.timed.erase d ∧ u.rd 0 OUT_ERR_CFG_INVALID = 1 ∧
        s.onlyRegs { u with net := s.net } (OUT_ERR_CFG_INVALID.wordAt 0))

/-! The fabric, DMA, queues, checkers, filters, calibration, security and power (R360 to R490). -/

/-- The event fabric and DMA (R360 to R385). A software pip comes one cycle later on its line; a relay raises its pip when it is due and holds it no
more; a session claims a channel or relay that nobody owns, and one that another owns refuses it with EVT_ERR.ACCESS. START begins a transfer with
REMAIN at COUNT, ends one of no bytes at once, and is refused while one runs; a bus timeout halts with its cause and address, unless the copy ends in the same cycle; ABORT stops; a copy that has
come to its end, behind those of lower channels in the cycle, is done, or halts where an access has failed. -/
def Obligations.FabricAndDma : Prop :=
  (∀ (s : State) (t : Tile) (mask : BitVec 16), s.live → s.fit t → s.gives (.swPip t mask) fun u =>
    u.fab.soon = s.fab.soon ++ (onesOf 16 mask.toNat).map (fun k => (t.val, 224 + k)) ∧ u.regs = s.regs ∧ u.mem = s.mem) ∧
  (∀ (s : State) (t : Tile) (k : Fin 16) (due : Nat), s.live → s.fit t → s.relayDue t k = some due →
    (s.locked t .aux → due ≤ s.cycleNo → s.gives (.relayRaise t k) fun u => (t.val, 240 + k.val) ∈ u.fab.pips ∧ u.relayDue t k = none ∧ u.regs = s.regs ∧
      u.mem = s.mem) ∧
    (s.cycleNo < due → exec (.relayRaise t k) s = .next s)) ∧
  (∀ (s : State) (t : Tile) (n : Fin 8) (c : Fin 64) (k : Fin 16) (v : BitVec 32), s.live → s.fit t → n.val ≠ 0 → 48 ≤ c.val → 12 ≤ k.val →
    (s.rd t (EVT_CH_ATTR_OWNER c) = 0 → bitsOf v.toNat 2 0 = n.val → s.gives (.channelClaim (.session n) t c v) fun u =>
      u.rd t (EVT_CH_ATTR_OWNER c) = n.val ∧ s.sameWords u ((EVT_CH_ATTR c).wordAt t) ∧ u.mem = s.mem) ∧
    (s.rd t (EVT_CH_ATTR_OWNER c) ≠ 0 → s.rd t (EVT_CH_ATTR_OWNER c) ≠ n.val → s.gives (.channelClaim (.session n) t c v) fun u =>
      u.rd t EVT_ERR_ACCESS = 1 ∧ u.rd t SYS_ERR_ACCESS_ERR = 1 ∧ u.rd t (EVT_CH_ATTR c) = s.rd t (EVT_CH_ATTR c)) ∧
    (s.rd t (EVT_RELAY_OWNER k) = 0 → bitsOf v.toNat 18 16 = n.val → s.gives (.relayClaim (.session n) t k v) fun u =>
      u.rd t (EVT_RELAY_OWNER k) = n.val ∧ u.rd t (EVT_RELAY_DELAY k) = bitsOf v.toNat 15 0 ∧ s.sameWords u ((EVT_RELAY k).wordAt t) ∧ u.mem = s.mem) ∧
    (s.rd t (EVT_RELAY_OWNER k) ≠ 0 → s.rd t (EVT_RELAY_OWNER k) ≠ n.val → s.gives (.relayClaim (.session n) t k v) fun u =>
      u.rd t EVT_ERR_ACCESS = 1 ∧ u.rd t SYS_ERR_ACCESS_ERR = 1 ∧ u.rd t (EVT_RELAY k) = s.rd t (EVT_RELAY k))) ∧
  ∀ (s : State) (t : Tile) (c : Fin 32), s.live → s.fit t →
    let run := s.dmaRunning t c
    let now := (s.dmaChan t c).started = s.tim.tb0 + 1
    let early := s.tookEarly (isDmaComplete t c)
    (run → ¬ now → s.gives (.dmaStart t c) fun u => u.rd t DMA_ERR_BUSY = 1 ∧ s.onlyRegs u (DMA_ERR.wordAt t)) ∧
    (run → now → exec (.dmaStart t c) s = .next s) ∧
    (¬ run → ¬ s.is t (DMA_CH_CTRL_CHAIN c) → s.rd t (DMA_CH_COUNT c) ≠ 0 → s.gives (.dmaStart t c) fun u =>
      u.rd t (DMA_CH_STATUS_STATE c) = 1 ∧ u.rd t (DMA_CH_STATUS_CAUSE c) = 0 ∧ u.rd t (DMA_CH_REMAIN c) = s.rd t (DMA_CH_COUNT c) ∧
      u.rd t (DMA_CH_HOPS_USED c) = 0 ∧ u.mem = s.mem ∧
      s.sameWords u ((((DMA_CH_STATUS c).wordAt t).or ((DMA_CH_REMAIN c).wordAt t)).or ((DMA_CH_HOPS_USED c).wordAt t))) ∧
    (¬ run → ¬ s.is t (DMA_CH_CTRL_CHAIN c) → s.rd t (DMA_CH_COUNT c) = 0 → s.gives (.dmaStart t c) fun u =>
      u.rd t (DMA_CH_STATUS_STATE c) = 2 ∧ u.rd t (DMA_CH_DONES c) = (s.rd t (DMA_CH_DONES c) + 1) % 2 ^ 32 ∧ (t.val, 116 + c.val) ∈ u.fab.pips ∧
      u.mem = s.mem) ∧
    (¬ run → exec (.dmaStart t c) s = .next (s.after (s.dmaBegin t c))) ∧
    (∀ a : BitVec 40, run → s.locked t .sys → ¬ s.dmaEnding t c → s.gives (.dmaBusTimeout t c a 0) fun u => u.rd t (DMA_CH_STATUS_STATE c) = 3 ∧
      u.rd t (DMA_CH_STATUS_CAUSE c) = 2 ∧ u.rd t (DMA_CH_ERR_ADDR_LO c) = a.toNat % 2 ^ 32 ∧ u.rd t (DMA_CH_ERR_ADDR_HI c) = a.toNat / 2 ^ 32 ∧
      u.rd t DMA_ERR_HALT = 1 ∧ u.rd t (DMA_CH_REMAIN c) = s.rd t (DMA_CH_REMAIN c) ∧ u.mem = s.mem) ∧
    (∀ (a : BitVec 40) (n : Nat), ¬ run ∨ s.dmaEnding t c → exec (.dmaBusTimeout t c a n) s = .next s) ∧
    (run → ¬ s.dmaEnding t c → s.rd t (DMA_CH_REMAIN c) ≠ 0 → s.gives (.dmaAbort t c 0) fun u => u.rd t (DMA_CH_STATUS_STATE c) = 4 ∧ u.mem = s.mem ∧
      u.rd t (DMA_CH_REMAIN c) = s.rd t (DMA_CH_REMAIN c) ∧ s.sameWords u ((DMA_CH_STATUS c).wordAt t)) ∧
    (∀ n, ¬ run → s.rd t (DMA_CH_STATUS_STATE c) ≠ 2 → exec (.dmaAbort t c n) s = .next s) ∧
    (∀ n, exec (.dmaAbort t c n) s = .next (s.after (s.dmaAbort t c n))) ∧
    (early → exec (.dmaComplete t c) s = .next (s.after (s.dropEarly (isDmaComplete t c)))) ∧
    (¬ early → ¬ run → exec (.dmaComplete t c) s = .next s) ∧
    (¬ early → run → s.locked t .sys → exec (.dmaComplete t c) s = .next (s.after ((s.dmaLower t c).dmaComplete t c))) ∧
    (∀ x, ¬ early → run → s.locked t .sys → s.dmaLower t c = s → s.dmaMove t c (s.rd t (DMA_CH_REMAIN c)) = (true, x) → (x.dmaChan t c).isLast →
      s.gives (.dmaComplete t c) fun u => u.rd t (DMA_CH_STATUS_STATE c) = 2 ∧ u.rd t (DMA_CH_DONES c) = (x.rd t (DMA_CH_DONES c) + 1) % 2 ^ 32 ∧
        (t.val, 116 + c.val) ∈ u.fab.pips ∧ u.mem = x.mem) ∧
    (∀ x, ¬ early → run → s.locked t .sys → s.dmaLower t c = s → s.dmaMove t c (s.rd t (DMA_CH_REMAIN c)) = (false, x) →
      exec (.dmaComplete t c) s = .next (s.after x))

/-- Queues and checkers (R387 to R405). An item of an earlier cycle is popped from the head and its cells return to the pool; software cannot pop a queue that a sender
owns; a push is refused beyond the quota or the pool and else appends its words; FLUSH empties a queue, unless a reset of the same cycle does; copies of pointers that differ empty it and
count what it held. A checker starts at its CRC's initial value, feeds the bytes of each word, and its FINISH, behind data of the cycle, gives the result and compares it; an
alive counter that repeats or jumps is an error. -/
def Obligations.QueuesAndCheckers : Prop :=
  (∀ (s : State) (t : Tile) (v : BitVec 32) (q : Fin 256), s.live → s.fit t →
    let qv := v.toNat % 256
    let none_ := s.qOld t qv = [] ∨ s.qFlushed t qv
    (∀ i l, s.qItems t q = i :: l → s.qOld t q ≠ [] → ¬ s.qFlushed t q → ∃ x, s.popItem t q = some (i, x) ∧ x.qItems t q = l ∧
      x.rd t QUE_POOL_FREE = (s.rd t QUE_POOL_FREE + i.cells) % 65536 ∧ x.mem = s.mem) ∧
    (¬ v.getLsbD 8 → s.gives (.pop t v) fun u => u.rd t QUE_POP_CTRL_QUEUE = qv ∧ s.onlyRegs u (QUE_POP_CTRL.wordAt t)) ∧
    (v.getLsbD 8 → s.qOwned t qv → s.gives (.pop t v) fun u => u.rd t QUE_POP_STATUS_EMPTY = 1 ∧ u.rd t QUE_POP_STATUS_OWNED = 1 ∧
      u.rd t QUE_POP_STATUS_DONE = 1 ∧ u.rd t QUE_ERR_OWNED = 1 ∧ u.que = s.que ∧ u.mem = s.mem) ∧
    (v.getLsbD 8 → ¬ s.qOwned t qv → none_ → s.gives (.pop t v) fun u => u.rd t QUE_POP_STATUS_EMPTY = 1 ∧
      u.rd t QUE_POP_STATUS_OWNED = 0 ∧ u.rd t QUE_POP_STATUS_DONE = 1 ∧ u.que = s.que ∧ u.mem = s.mem) ∧
    (∀ i l, v.getLsbD 8 → ¬ s.qOwned t qv → ¬ none_ → s.qItems t qv = i :: l → s.gives (.pop t v) fun u => u.rd t QUE_POP_STATUS_EMPTY = 0 ∧
      u.rd t QUE_POP_STATUS_DONE = 1 ∧ u.rd t QUE_POP_STATUS_WORDS = i.words.length % 512 ∧ u.qItems t qv = l ∧
      (∀ w : Fin 256, u.rd t (QUE_POP_BUF w) = i.words.getD w 0 % 2 ^ 32) ∧ u.mem = s.mem) ∧
    (∀ x, x = s.wr t QUE_POP_CTRL_QUEUE qv → v.getLsbD 8 → exec (.pop t v) s = .next (s.after (x.softPop t qv))) ∧
    (¬ v.getLsbD 24 → s.gives (.push t v) fun u => u.rd t QUE_PUSH_CTRL_QUEUE = qv ∧ s.onlyRegs u (QUE_PUSH_CTRL.wordAt t)) ∧
    (v.getLsbD 24 → (¬ s.is t QUE_PUSH_STATUS_DONE ∨ t.val ∈ s.cyc.pushed) → s.gives (.push t v) fun u => u.rd t QUE_ERR_PUSH_BUSY = 1 ∧ u.que = s.que ∧
      u.mem = s.mem) ∧
    (v.getLsbD 24 → s.is t QUE_PUSH_STATUS_DONE → t.val ∉ s.cyc.pushed → 1 ≤ bitsOf v.toNat 16 8 → bitsOf v.toNat 16 8 ≤ 256 →
      ¬ s.qFlushed t qv → s.qLeaving t qv = [] → s.poolLeaving t = 0 →
      let ws := (List.range (bitsOf v.toNat 16 8)).map fun i => s.rd t (QUE_PUSH_BUF i)
      let i : QItem := ⟨ws, none⟩
      let used := sumN ((s.qItems t qv).map QItem.cells) + i.cells
      let quota := s.began.rd t (QUE_Q_CFG_QUOTA qv)
      let done (u : State) : Prop := u.rd t QUE_PUSH_STATUS_DONE = 1 ∧ t.val ∈ u.cyc.pushed ∧ u.mem = s.mem
      let refused (u : State) : Prop := u.que = s.que ∧ u.rd t QUE_PUSH_STATUS_REFUSED = 1 ∧ u.rd t (QUE_Q_REFUSED qv) =
        min (s.rd t (QUE_Q_REFUSED qv) + 1) 0xFFFFFFFF
      (used ≤ quota → i.cells ≤ s.rd t QUE_POOL_FREE → s.qCame t qv = [] → s.gives (.push t v) fun u =>
        u.qItems t qv = s.qItems t qv ++ [i] ∧ u.rd t QUE_PUSH_STATUS_REFUSED = 0 ∧ u.rd t QUE_POOL_FREE = s.rd t QUE_POOL_FREE - i.cells ∧
        u.rd t (QUE_Q_PUSHED qv) = (s.rd t (QUE_Q_PUSHED qv) + 1) % 2 ^ 32 ∧ done u) ∧
      (quota < used → s.gives (.push t v) fun u => refused u ∧ u.rd t QUE_ERR_REFUSED = 1 ∧ done u) ∧
      (used ≤ quota → s.rd t QUE_POOL_FREE < i.cells → s.gives (.push t v) fun u => refused u ∧ u.rd t QUE_ERR_POOL_EMPTY = 1 ∧ done u)) ∧
    (s.is t (QUE_Q_STATUS_FLUSHING q) → s.gives (.queueFlush t q) fun u => u.rd t QUE_ERR_FLUSH_BUSY = 1 ∧ s.onlyRegs u (QUE_ERR.wordAt t)) ∧
    (¬ s.is t (QUE_Q_STATUS_FLUSHING q) → s.qReset t q → exec (.queueFlush t q) s = .next s) ∧
    (¬ s.is t (QUE_Q_STATUS_FLUSHING q) → ¬ s.qReset t q → s.gives (.queueFlush t q) fun u => u.qItems t q = [] ∧
      u.rd t QUE_POOL_FREE = (s.rd t QUE_POOL_FREE + sumN ((s.qItems t q).map QItem.cells)) % 65536 ∧ u.mem = s.mem) ∧
    (∀ m : PtrCopies, m.headA = m.headB → m.tailA = m.tailB → m.countA = m.countB → exec (.pointerMismatch t q m) s = .next s) ∧
    (∀ m : PtrCopies, (m.headA ≠ m.headB ∨ m.tailA ≠ m.tailB ∨ m.countA ≠ m.countB) → q.val ≠ s.rd t QUE_CTRL_ERR_QUEUE → s.gives (.pointerMismatch t q m) fun u =>
      u.qItems t q = [] ∧ u.rd t QUE_ERR_PTR = 1 ∧
      u.rd t (QUE_Q_LOST q) = min (s.rd t (QUE_Q_LOST q) + max m.countA.toNat m.countB.toNat) 0xFFFFFFFF ∧ (t.val, 219) ∈ u.fab.pips ∧ u.mem = s.mem)) ∧
  ∀ (s : State) (t : Tile) (n : Fin 64) (v : BitVec 32) (a : BitVec 8), s.live → s.fit t → s.is t (CHK_CH_CFG_EN n) → ¬ s.chkLegacy t n →
    let k := s.chkKind t n
    let y := s.chkDataFirst t n
    let early := s.tookEarly (isChkData t n v)
    let sound (u : State) : Prop := y.sameWords u ((((CHK_CH_VALUE n).wordAt t).or ((CHK_CH_RESULT n).wordAt t)).or ((CHK_CH_STATUS n).wordAt t))
    (s.gives (.chkStart t n) fun u => u.rd t (CHK_CH_VALUE n) = crcFeed k k.init (s.chkFed t n) % 2 ^ 32 ∧ s.onlyRegs u ((CHK_CH_VALUE n).wordAt t)) ∧
    (early → exec (.chkData t n v) s = .next (s.after (s.dropEarly (isChkData t n v)))) ∧
    (¬ early → s.rd t (CHK_CH_CFG_MODE n) ≠ 1 → s.rd t (CHK_CH_CFG_BYTES n) = 0 → s.gives (.chkData t n v) fun u =>
      u.rd t (CHK_CH_VALUE n) = crcFeed k (s.rd t (CHK_CH_VALUE n)) (leBytes 4 v.toNat) % 2 ^ 32 ∧ s.onlyRegs u ((CHK_CH_VALUE n).wordAt t)) ∧
    (s.rd t (CHK_CH_CFG_MODE n) ≠ 1 →
      let r := crcResult k (y.rd t (CHK_CH_VALUE n))
      ((¬ s.is t (CHK_CH_CFG_CMP_EN n) ∨ r = s.rd t (CHK_CH_EXPECT n)) → s.gives (.chkFinish t n) fun u => u.rd t (CHK_CH_RESULT n) = r % 2 ^ 32 ∧
        sound u ∧ u.rd t (CHK_CH_STATUS_MISMATCH n) = s.rd t (CHK_CH_STATUS_MISMATCH n)) ∧
      (s.is t (CHK_CH_CFG_CMP_EN n) → r ≠ s.rd t (CHK_CH_EXPECT n) → s.gives (.chkFinish t n) fun u => u.rd t (CHK_CH_RESULT n) = r % 2 ^ 32 ∧
        u.rd t (CHK_CH_STATUS_MISMATCH n) = 1 ∧ u.rd t (CHK_CH_COUNTS_MISMATCHES n) = min (s.rd t (CHK_CH_COUNTS_MISMATCHES n) + 1) 65535 ∧
        (t.val, 216) ∈ u.fab.pips)) ∧
    (s.gives (.aliveReset t n) fun u => u.rd t (CHK_CH_STATUS_ALIVE_VALID n) = 0 ∧ s.onlyRegs u ((CHK_CH_STATUS n).wordAt t)) ∧
    (s.rd t (CHK_CH_CFG_MODE n) ≠ 1 → s.is t (CHK_CH_CFG_ALIVE_EN n) →
      let last := s.rd t (CHK_CH_STATUS_ALIVE_LAST n)
      let known := s.is t (CHK_CH_STATUS_ALIVE_VALID n)
      s.gives (.aliveCheck t n a) fun u => u.rd t (CHK_CH_STATUS_ALIVE_VALID n) = 1 ∧ u.rd t (CHK_CH_STATUS_ALIVE_LAST n) = a.toNat ∧
        u.rd t (CHK_CH_STATUS_REPEAT n) = (if known ∧ a.toNat = last then 1 else s.rd t (CHK_CH_STATUS_REPEAT n)) ∧
        u.rd t (CHK_CH_STATUS_GAP n) = (if known ∧ a.toNat ≠ last ∧ a.toNat ≠ (last + 1) % 256 then 1 else s.rd t (CHK_CH_STATUS_GAP n)))

/-- Filters and calibration (R409 to R417, R423 to R437). A coefficient swap or a reset waits for the next sample and a second swap is refused; a filter channel that is enabled takes
the head of its FIFO, and with no stage gives it out; the sensors give TEMP_NOW and its peak, and three readings of 120.0 °C in a row reset the part; CAL and ST wait, or are refused where R430
forbids them; CANCEL takes back what
may be taken back; a run that starts takes its request, and one that ends counts; a self-test that ends has its result, and leaves the memory it tested zero; the gap is armed and disarmed. -/
def Obligations.FiltersAndCalibration : Prop :=
  (∀ (s : State) (t : Tile) (f : Fin 16), s.live → s.fit t →
    let on := s.locked t .sys
    let swaps := s.firWaits t (FIR_CH_STATUS_SWAP_PENDING f)
    let resets := s.firWaits t (FIR_CH_STATUS_SYNC_PENDING f)
    (s.gives (.firSync t f) fun u => u.rd t (FIR_CH_STATUS_SYNC_PENDING f) = 1 ∧ s.onlyRegs u ((FIR_CH_STATUS f).wordAt t)) ∧
    (¬ s.is t (FIR_CH_STATUS_SWAP_PENDING f) → s.gives (.firSwap t f) fun u => u.rd t (FIR_CH_STATUS_SWAP_PENDING f) = 1 ∧
      s.onlyRegs u ((FIR_CH_STATUS f).wordAt t)) ∧
    (s.is t (FIR_CH_STATUS_SWAP_PENDING f) → s.gives (.firSwap t f) fun u => u.rd t FIR_ERR_SWAP_BUSY = 1 ∧ s.onlyRegs u (FIR_ERR.wordAt t)) ∧
    (¬ on → exec (.firInput t f) s = .next s) ∧
    (on → exec (.firInput t f) s = .next (s.after (s.firInput t f))) ∧
    (on → swaps → ¬ resets → (s.firChan t f).fifo = [] → s.gives (.firInput t f) fun u =>
      u.rd t (FIR_CH_STATUS_BANK f) = 1 - s.rd t (FIR_CH_STATUS_BANK f) ∧ u.rd t (FIR_CH_STATUS_SWAP_PENDING f) = 0 ∧
      s.onlyRegs u ((FIR_CH_STATUS f).wordAt t)) ∧
    (on → ¬ swaps → resets → (s.firChan t f).fifo = [] → s.gives (.firInput t f) fun u => u.firChan t f = .idle ∧
      u.rd t (FIR_CH_STATUS_SYNC_PENDING f) = 0 ∧ u.rd t (FIR_CH_STATUS_THR0_ON f) = 0 ∧ u.rd t (FIR_CH_STATUS_THR1_ON f) = 0 ∧
      s.sameWords u ((FIR_CH_STATUS f).wordAt t) ∧ u.mem = s.mem) ∧
    (∀ x l, on → ¬ swaps → ¬ resets → (s.firChan t f).fifo = x :: l →
      (¬ s.is t (FIR_CH_CFG_EN f) → exec (.firInput t f) s = .next s) ∧
      (s.firBad t f → s.gives (.firInput t f) fun u => (u.firChan t f).fifo = l ∧ u.rd t FIR_ERR_CFG_INVALID = 1 ∧ s.sameWords u (FIR_ERR.wordAt t) ∧
        u.mem = s.mem) ∧
      (s.is t (FIR_CH_CFG_EN f) → ¬ s.firBad t f → s.rd t (FIR_CH_CFG_STAGES f) = 0 → s.gives (.firInput t f) fun u => (u.firChan t f).fifo = l ∧
        u.rd t (FIR_CH_OUTPUTS f) = min (s.rd t (FIR_CH_OUTPUTS f) + 1) 0xFFFFFFFF ∧ u.rd t (FIR_CH_OUT_Y f) = uNat 24 x ∧
        u.rd t (FIR_CH_OUT_INVALID f) = 0 ∧ u.mem = s.mem))) ∧
  ∀ (s : State) (t : Tile) (force : Bool), s.live → s.fit t →
    let kind := s.rd t CAL_ST_CFG_KIND
    let barred := 4 ≤ kind ∨ force ∧ kind < 2 ∧ s.is 0 BND_CTRL_RUN
    (∀ r : List Int, (r.take 8).filter tempOk = [] → s.gives (.sensorRead t r) fun u => u.rd t CAL_ERR_SENSOR = 1 ∧
      (∀ i : Fin 8, u.rd t (CAL_SENS_VALID i) = 0) ∧ u.mem = s.mem) ∧
    (∀ r : List Int, exec (.sensorRead t r) s = .next (s.after (s.withSoft (s.sensorRead t r)))) ∧
    (∀ r : List Int, r ≠ [] → (∀ x ∈ r.take 8, -640 ≤ x ∧ x < 1920) → ¬ s.is t CAL_CTRL_AUTO → s.gives (.sensorRead t r) fun u =>
      (∀ x ∈ r.take 8, x ≤ sInt 16 (u.rd t CAL_TEMP_NOW)) ∧ sInt 16 (u.rd t CAL_TEMP_NOW) ∈ r.take 8 ∧
      sInt 16 (u.rd t CAL_TEMP_NOW) ≤ sInt 16 (u.rd t CAL_TEMP_PEAK) ∧ u.mem = s.mem) ∧
    (∀ r : List Int, (∃ x ∈ r.take 8, tempOk x ∧ 1920 ≤ x) → 2 ≤ (s.calTile t).hot → s.pwr.op = none → s.gives (.sensorRead t r) fun u =>
      u.pwr.phase = .hold ∧ u.pwr.thermal ∧ ∀ k ∈ s.tiles, u.rd k SYS_RESET_CAUSE_THERMAL = 1) ∧
    (exec (.cal t force) s = .next (s.after (s.calWrite t force))) ∧
    ((s.calTile t).cal = none → s.gives (.cal t force) fun u => u.rd t CAL_STATUS_CAL_PENDING = 1 ∧ ((u.calTile t).cal).isSome ∧
      u.rd t CAL_ERR_LATE_WRITE = (if force ∧ s.inTickCycle then 1 else s.rd t CAL_ERR_LATE_WRITE) ∧ u.mem = s.mem) ∧
    (∀ r, (s.calTile t).cal = some r → s.gives (.cal t force) fun u => (∃ z, (u.calTile t).cal = some z ∧ z.soft = r.soft ∧ z.forced = (r.forced || force) ∧
      z.hard = r.hard) ∧ u.mem = s.mem) ∧
    (barred → s.gives (.st t force) fun u => u.rd t CAL_ERR_ST_REFUSED = 1 ∧ u.cal = s.cal ∧ s.sameWords u (CAL_ERR.wordAt t) ∧ u.mem = s.mem) ∧
    (¬ barred → s.gives (.st t force) fun u => u.rd t CAL_STATUS_ST_PENDING = 1 ∧ u.rd t CAL_ST_RESULT_DONE = 0 ∧
      (∃ z, (u.calTile t).st = some z ∧ z.kind = kind ∧ z.mask = s.rd t CAL_ST_CFG_MASK) ∧ u.mem = s.mem) ∧
    (exec (.cancel t) s = .next (s.after (s.calCancel t))) ∧
    ((∀ r, (s.calTile t).cal = some r → ¬ r.hard) → ¬ ((s.calTile t).calDue ∧ s.calReady t) → ¬ ((s.calTile t).stDue ∧ s.stReady t ∧ ¬ s.calReady t) →
      s.gives (.cancel t) fun u => u.rd t CAL_STATUS_CAL_PENDING = 0 ∧ u.rd t CAL_STATUS_ST_PENDING = 0 ∧
        (u.calTile t).cal = none ∧ (u.calTile t).st = none ∧ s.sameWords u (CAL_STATUS.wordAt t) ∧ u.mem = s.mem) ∧
    (let b := s.workBack t;
      let z := b.workSettle t
      (¬ b.calReady t → ¬ b.stReady t → exec (.workStart t) s = .next s) ∧
      (b.calReady t ∨ b.stReady t → exec (.workStart t) s = .next (s.after (z.workStart t)) ∧
        (z.calReady t → s.gives (.workStart t) fun u => u.rd t CAL_STATUS_RUNNING = 1 ∧ u.rd t CAL_STATUS_CAL_PENDING = 0 ∧ (u.calTile t).cal = none ∧
          u.rd t CAL_TEMP_LAST = z.rd t CAL_TEMP_NOW ∧ (t.val, 220) ∈ u.fab.pips ∧ u.mem = z.mem) ∧
        (∀ r, ¬ z.calReady t → (z.calTile t).st = some r → r.kind ≠ 3 → s.gives (.workStart t) fun u => u.rd t CAL_STATUS_ST_RUNNING = 1 ∧
          u.rd t CAL_STATUS_ST_PENDING = 0 ∧ (u.calTile t).st = none ∧ (u.calTile t).run = some r ∧ u.mem = z.mem))) ∧
    (¬ (s.is t CAL_STATUS_RUNNING ∧ s.calDone t) → exec (.calRunEnd t) s = .next s) ∧
    (s.is t CAL_STATUS_RUNNING → s.calDone t → s.gives (.calRunEnd t) fun u => u.rd t CAL_STATUS_RUNNING = 0 ∧
      u.rd t CAL_RUNS = (s.rd t CAL_RUNS + 1) % 2 ^ 32 ∧ u.rd t CAL_LOST_US = min (roundDiv (s.calTile t).lost 1000).toNat (2 ^ 32 - 1) ∧
      (t.val, 221) ∈ u.fab.pips ∧ u.mem = s.mem) ∧
    (∀ fails (a : BitVec 40), ¬ s.stOver t → exec (.selftestEnd t fails a) s = .next s) ∧
    (∀ fails (a : BitVec 40) r, s.stOver t → (s.calTile t).run = some r →
      let n := (s.stFound t r fails a.toNat).1
      (r.kind < 2 → n = fails) ∧ s.gives (.selftestEnd t fails a) fun u =>
        u.rd t CAL_STATUS_ST_RUNNING = 0 ∧ u.rd t CAL_ST_RESULT_DONE = 1 ∧ u.rd t CAL_ST_RESULT_FAIL = (if n = 0 then 0 else 1) ∧
        u.rd t CAL_ST_RESULT_COUNT = min n 65535 ∧ u.rd t CAL_ST_RESULT_ABORTED = 0 ∧ (t.val, 222) ∈ u.fab.pips ∧
        (r.kind < 2 → ∀ a, inSpans (testSpans t r.kind r.mask) a → u.byte a = 0)) ∧
    (s.gives .gapArm fun u => u.rd 0 CAL_GAP_CTRL_ARMED = 1 ∧ s.onlyRegs u ((CAL_GAP_CTRL_ARMED.wordAt 0).or (CAL_ERR.wordAt 0))) ∧
    (s.gives .gapDisarm fun u => u.rd 0 CAL_GAP_CTRL_ARMED = 0 ∧ s.onlyRegs u (CAL_GAP_CTRL_ARMED.wordAt 0)) ∧
    s.gives .qualityUpdate fun u => u.rd 0 CAL_PTP_RESID = s.ptpResid % 2 ^ 32 ∧ u.rd 0 CAL_STITCH_RESID = s.stitchResid % 2 ^ 32 ∧ u.mem = s.mem

/-- The life cycle service (R439 to R453). A write of the mailbox by a session takes the mailbox and stores its word, and another session is refused with
LCS_ERR.ACCESS; to the end of the cycle in which its command has ended the mailbox is still that session's; a command starts with BUSY and is refused with BUSY's code while one runs; a command that
ends shows DONE and its result, a
refused one counts, and a fuse that fails is reported; debug access ends at its time, behind the accesses of its session in the cycle; the internal scan cannot be entered in the field. -/
def Obligations.LifeCycleService : Prop :=
  ∀ (s : State) (n : Fin 8) (w : Fin 256) (v : BitVec 32), s.live → n.val ≠ 0 →
    let o := Origin.session n
    let owner := s.rd 0 LCS_MBOX_OWNER_SESSION
    let last := s.mboxLast
    let may := last = n.val ∨ last = 0 ∧ (owner = 0 ∨ owner = n.val)
    let owner' := if last = 0 then n.val else owner
    let commands := [(1, Instr.provision o), (2, .addOwner o), (3, .loadOwnerKey o), (4, .revoke o), (5, .commission o), (7, .installJobKey o),
      (8, .dropJobKey o), (9, .debugOpen o), (10, .debugClose o), (11, .attest o)]
    (may → s.gives (.lcsMboxWrite o w v) fun u => u.rd 0 LCS_MBOX_OWNER_SESSION = owner' ∧ u.rd 0 (LCS_MBOX w) = v.toNat ∧
      s.onlyRegs u ((LCS_MBOX_OWNER.wordAt 0).or ((LCS_MBOX w).wordAt 0))) ∧
    (¬ may → s.gives (.lcsMboxWrite o w v) fun u => u.rd 0 LCS_ERR_ACCESS = 1 ∧ u.rd 0 (LCS_MBOX w) = s.rd 0 (LCS_MBOX w) ∧
      u.lcs = s.lcs ∧ u.mem = s.mem) ∧
    (may → ¬ s.is 0 LCS_CMD_STATUS_BUSY → ∀ x ∈ commands, s.gives x.2 fun u => u.rd 0 LCS_CMD_STATUS_BUSY = 1 ∧
      u.rd 0 LCS_CMD_STATUS_DONE = 0 ∧ u.rd 0 LCS_CMD_OP = x.1 ∧ u.rd 0 LCS_MBOX_OWNER_SESSION = owner' ∧
      (∃ c, u.lcs.cmd = some c ∧ c.op = x.1 ∧ c.session = n.val) ∧ u.mem = s.mem) ∧
    (exec (.lcsReturn o) s = .next (s.after (s.lcsCmdWrite o 0x106))) ∧
    (may → ¬ s.is 0 LCS_CMD_STATUS_BUSY → s.gives (.lcsReturn o) fun u => u.rd 0 LCS_CMD_STATUS_BUSY = 1 ∧
      ∃ c, u.lcs.cmd = some c ∧ c.op = 6 ∧ c.session = n.val ∧ (c.result = 0 → u.lcs.returning)) ∧
    (may → s.is 0 LCS_CMD_STATUS_BUSY → ∀ x ∈ (6, Instr.lcsReturn o) :: commands, s.gives x.2 fun u =>
      u.rd 0 LCS_CMD_STATUS_RESULT = 13 ∧ u.rd 0 LCS_CMDS_REFUSED = min (s.rd 0 LCS_CMDS_REFUSED + 1) 0xFFFFFFFF ∧ u.rd 0 LCS_ERR_REFUSED = 1 ∧
      u.lcs = s.lcs ∧ u.mem = s.mem) ∧
    (¬ may → ∀ x ∈ (6, Instr.lcsReturn o) :: commands, s.gives x.2 fun u => u.rd 0 LCS_ERR_ACCESS = 1 ∧ u.lcs = s.lcs ∧ u.mem = s.mem) ∧
    (∀ fuseBad, (s.lcs.cmd = none ∨ ¬ s.locked 0 .aux) → exec (.lcsCommandEnd fuseBad) s = .next s) ∧
    (∀ c fuseBad, s.locked 0 .aux → s.lcs.cmd = some c →
      let ended (code : Nat) (u : State) : Prop := u.lcs.cmd = none ∧ u.rd 0 LCS_CMD_STATUS_RESULT = code ∧ u.rd 0 LCS_CMD_STATUS_BUSY = 0 ∧
        u.rd 0 LCS_CMD_STATUS_DONE = 1
      let failed (u : State) : Prop := u.rd 0 LCS_CMDS_REFUSED = min (s.rd 0 LCS_CMDS_REFUSED + 1) 0xFFFFFFFF ∧ u.mem = s.mem
      (c.result ≠ 0 → c.result < 256 → s.gives (.lcsCommandEnd fuseBad) fun u => ended c.result u ∧ failed u ∧ u.lcs.fuses = s.lcs.fuses ∧
        u.lcs.owners = s.lcs.owners ∧ u.lcs.jobKeys = s.lcs.jobKeys) ∧
      (c.result = 0 → fuseBad → blowsFuses c.op → s.gives (.lcsCommandEnd fuseBad) fun u => ended 12 u ∧ failed u ∧ u.rd 0 LCS_ERR_FUSE = 1 ∧
        u.lcs.owners = s.lcs.owners) ∧
      (c.result = 0 → ¬ (fuseBad ∧ blowsFuses c.op) → c.op ≠ 6 → s.gives (.lcsCommandEnd fuseBad) fun u => ended 0 u ∧
        (c.op = 3 → u.lcs.owners = smInsert (byteAt (lcsArgs c.bytes) 0) (((lcsArgs c.bytes).drop 4).take 96) s.lcs.owners) ∧
        (c.op = 11 → u.rd 0 LCS_CMD_STATUS_RESP_LEN = 248))) ∧
    (¬ (s.is 0 LCS_STATE_DEBUG ∧ s.lcs.debugEnd ≤ s.tim.tb0) → exec .debugExpiry s = .next s) ∧
    (s.locked 0 .aux → s.is 0 LCS_STATE_DEBUG → s.lcs.debugEnd ≤ s.tim.tb0 →
      let ahead := s.lcpAhead fun h => h.session.val == s.rd 0 LCS_STATE_DEBUG_SESSION
      (ahead → s.gives .debugExpiry fun u => u.lcs.expiring ∧ u.regs = s.regs ∧ u.mem = s.mem) ∧
      (¬ ahead → s.lcs.debugEngs = [] → s.gives .debugExpiry fun u => u.rd 0 LCS_STATE_DEBUG = 0 ∧
        u.rd 0 LCS_STATE_DEBUG_SESSION = 0 ∧ u.lcs.scope = 0 ∧ u.lcs.fuses = s.lcs.fuses ∧ u.mem = s.mem)) ∧
    (s.rd 0 LCS_STATE_STATE = 2 → exec .internalScanEntry s = .next s) ∧
    (s.rd 0 LCS_STATE_STATE ≠ 2 → s.gives .internalScanEntry fun u => u.lcs.scan ∧ u.lcs.owners = [] ∧ u.lcs.jobKeys = [] ∧ u.lcs.seals = [] ∧
      ¬ u.live ∧ ∀ a, a / 64 ∈ s.lcs.seals → u.byte a = 0)

/-- Reset, boot, supplies and flash (R458 to R476). PORST_N low takes the part into reset, and from reset or without supply its rise lets it
go on; the phases follow one another: FUSE, CLOCK, BOOT, with the links training, RUN; a watchdog resets with its cause; a rail out of tolerance is shown in the supply status;
the flash takes one operation at a time, from sessions alone, and shows DONE at its end, behind which a reset that has waited for it follows. Nothing is driven before BOOT, and INT_N and the transmit
pairs only after it (R467). -/
def Obligations.ResetBootAndFlash : Prop :=
  (∀ s : State,
    (s.pwr.phase ≠ .off → s.gives .porstNFall fun u => u.pwr.phase = .hold ∧ u.pwr.porstHigh = false ∧ u.rd 0 BND_CTRL_RUN = 0 ∧ u.mem = [] ∧
      (s.lcs.cmd = none → u.lcs.fuses = s.lcs.fuses)) ∧
    (s.pwr.phase = .off → s.gives .porstNFall fun u => u = { s with pwr := { s.pwr with porstHigh := false } }) ∧
    (s.pwr.phase = .hold → s.pwr.held = false → s.gives .porstNRise fun u => u.pwr.phase = .fuse ∧ u.pwr.porstHigh) ∧
    ((s.pwr.phase ≠ .hold ∨ s.pwr.held) → s.gives .porstNRise fun u => u = { s with pwr := { s.pwr with porstHigh := true } }) ∧
    (s.holdOver → s.gives .holdEnd fun u => u.pwr.phase = .fuse ∧ ∀ t ∈ s.tiles, u.rd t CAL_TEMP_LAST = s.rd t CAL_TEMP_NOW) ∧
    (¬ s.holdOver → exec .holdEnd s = .next s) ∧
    (s.pwr.phase = .fuse → s.gives .fuseDone fun u => u.pwr.phase = .clock ∧ u.mem = s.mem) ∧
    (s.pwr.phase ≠ .fuse → exec .fuseDone s = .next s) ∧
    (s.pwr.phase = .clock → s.clkOk → s.gives .clockDone fun u => u.pwr.phase = .boot ∧ u.mem = s.mem ∧
      ∀ x ∈ s.bondedLinks, u.rd x.1 (D2D_L_STATUS_TRAINING x.2) = 1 ∧ u.rd x.1 (D2D_L_STATUS_UP x.2) = 0) ∧
    (¬ (s.pwr.phase = .clock ∧ s.clkOk) → exec .clockDone s = .next s) ∧
    (s.bootReady → exec .bootDone s = .next (s.after s.bootDone) ∧ (s.flashItem 5 = none → s.gives .bootDone fun u => u.pwr.phase = .run ∧
      u.rd 0 SYS_STATUS_BOOT_DONE = 1 ∧ u.rd 0 SYS_STATUS_TILES_UP = 1 ∧ u.mem = s.mem)) ∧
    (¬ s.bootReady → exec .bootDone s = .next s) ∧
    (s.pwr.phase = .off → s.pwr.porstHigh → s.gives .railInTolerance fun u => u.pwr.phase = .fuse ∧ u.pwr.rails = 127) ∧
    (s.pwr.phase = .off → ¬ s.pwr.porstHigh → s.gives .railInTolerance fun u => u.pwr.phase = .hold ∧ u.pwr.rails = 127) ∧
    (s.pwr.phase ≠ .off → exec .railInTolerance s = .next s) ∧
    (∀ (k : Fin 7) (mv : BitVec 16), s.pwr.phase ≠ .off → s.pwr.porstHigh → s.gives (.supply k mv) fun u => u.rd 0 (PWR_VMON k) = mv.toNat ∧
      (u.rd 0 PWR_SUPPLY_STATUS).testBit k = railOk k mv.toNat ∧ u.pwr.phase = s.pwr.phase ∧ u.mem = s.mem) ∧
    (s.live → s.pwr.op = none → s.gives .watchdog fun u => u.pwr.phase = .hold ∧ u.pwr.held ∧ u.mem = [] ∧
      ∀ t ∈ s.tiles, u.rd t SYS_RESET_CAUSE_WATCHDOG = 1 ∧ (¬ s.softToo → u.rd t SYS_RESET_CAUSE = s.rd t SYS_RESET_CAUSE ||| 4)) ∧
    (s.pwr.phase ≠ .boot → s.pwr.phase ≠ .run → s.readyPin = .z ∧ s.intPin = .z ∧ (∀ o, s.trigPin o = .z) ∧ s.absClockPin = .z ∧
      (∀ t p, s.backPairOn t p = false) ∧ ∀ p, s.ethLanesOn p = false) ∧
    (s.pwr.phase = .boot → (s.readyPin = if s.is 0 SYS_STATUS_READY then .high else .low) ∧ s.intPin = .z ∧ (∀ o, s.trigPin o = .z) ∧
      (∀ t p, s.backPairOn t p = false) ∧ ∀ p, s.ethLanesOn p = false) ∧
    (s.pwr.phase = .run → (s.intPin = .low ↔ s.intLow) ∧ s.absClockPin = .high ∧ s.qspiSelect = some (if s.pwr.op.isNone then .high else .low))) ∧
  ∀ (s : State) (n : Fin 8), s.live →
    (n.val ≠ 0 → ∀ x ∈ [(1, Instr.flashRead (.session n)), (2, .flashProgram (.session n)), (3, .flashErase (.session n))],
      (¬ s.is 0 PWR_FLASH_STATUS_BUSY → s.gives x.2 fun u => u.rd 0 PWR_FLASH_STATUS_BUSY = 1 ∧ u.rd 0 PWR_FLASH_STATUS_DONE = 0 ∧
        u.rd 0 PWR_FLASH_CTRL_OP = x.1 ∧ (∃ p, u.pwr.op = some p ∧ p.op = x.1 ∧ p.addr = s.rd 0 PWR_FLASH_ADDR) ∧
        s.sameWords u ((PWR_FLASH_STATUS.wordAt 0).or (PWR_FLASH_CTRL.wordAt 0)) ∧ u.mem = s.mem) ∧
      (s.is 0 PWR_FLASH_STATUS_BUSY → s.gives x.2 fun u => u.rd 0 PWR_ERR_FLASH_BUSY = 1 ∧ s.onlyRegs u (PWR_ERR.wordAt 0))) ∧
    (n.val = 0 → ∀ i ∈ [Instr.flashRead (.session n), .flashProgram (.session n), .flashErase (.session n)], s.gives i fun u =>
      u.rd 0 SYS_ERR_ACCESS_ERR = 1 ∧ u.pwr = s.pwr ∧ u.mem = s.mem) ∧
    (s.pwr.op = none → exec .flashOpDone s = .next s) ∧
    (∀ p, s.pwr.op = some p → s.pwr.waiting = 0 → s.gives .flashOpDone fun u => u.pwr.op = none ∧ u.rd 0 PWR_FLASH_STATUS_BUSY = 0 ∧
      u.rd 0 PWR_FLASH_STATUS_DONE = 1 ∧ u.mem = s.mem) ∧
    (∀ p, s.pwr.op = some p → s.pwr.waiting ≠ 0 → s.gives .flashOpDone fun u => u.pwr.phase = .hold ∧ u.pwr.held ∧
      ∀ t ∈ s.tiles, ∀ k, s.pwr.waiting.testBit k → k < 32 → (u.rd t SYS_RESET_CAUSE).testBit k)
end

