-- ==== Sys2Proof/Laws/Maps.lean ====
section
/-! SUPPORT. The laws of the sparse maps and of bit fields: a read after a write, the other places, and the canonical form. -/

namespace Sys2Proof.Machine

/-! Sparse maps. -/

theorem smGet_insert (d : α) (k j : Nat) (v : α) (m : List (Nat × α)) :
    smGet d j (smInsert k v m) = if j = k then v else smGet d j m := by
  induction m with
  | nil => simp [smInsert, smGet, eq_comm]
  | cons x m ih =>
    obtain ⟨i, w⟩ := x
    simp only [smInsert]
    split_ifs <;> simp_all [smGet] <;> grind

theorem smGet_erase (d : α) (k j : Nat) (m : List (Nat × α)) :
    smGet d j (smErase k m) = if j = k then d else smGet d j m := by
  induction m with
  | nil => simp [smErase, smGet]
  | cons x m ih =>
    simp only [smErase, List.filter_cons, smGet] at ih ⊢
    by_cases h : x.1 = k <;> grind [smGet]

/-- A read after a write of the same or of another key. -/
theorem smGet_set [DecidableEq α] (d : α) (k j : Nat) (v : α) (m : List (Nat × α)) :
    smGet d j (smSet d k v m) = if j = k then v else smGet d j m := by
  unfold smSet
  split
  · subst_vars; exact smGet_erase ..
  · exact smGet_insert ..

@[simp] theorem smGet_set_same [DecidableEq α] (d : α) (k : Nat) (v : α) (m : List (Nat × α)) : smGet d k (smSet d k v m) = v := by
  simp [smGet_set]

theorem smGet_set_ne [DecidableEq α] (d e : α) {k j : Nat} (v : α) (m : List (Nat × α)) (h : j ≠ k) :
    smGet d j (smSet e k v m) = smGet d j m := by
  unfold smSet
  split
  · simp [smGet_erase, h]
  · simp [smGet_insert, h]

/-- The canonical form, as two facts about the entries. -/
theorem smOk_iff [DecidableEq α] (d : Nat → α) (m : List (Nat × α)) :
    smOk d m = true ↔ m.Pairwise (fun x y => x.1 < y.1) ∧ ∀ x ∈ m, x.2 ≠ d x.1 := by
  induction m with
  | nil => simp [smOk]
  | cons x m ih =>
    cases m with
    | nil => simp [smOk]
    | cons y m =>
      have : smOk d (x :: y :: m) = true ↔ (x.2 ≠ d x.1 ∧ x.1 < y.1) ∧ smOk d (y :: m) = true := by
        simp [smOk]
      rw [this, ih]
      simp only [List.pairwise_cons, List.mem_cons]
      constructor
      · rintro ⟨⟨a, b⟩, ⟨c, e⟩, f⟩
        refine ⟨⟨?_, c, e⟩, ?_⟩
        · rintro z (rfl | hz)
          · exact b
          · exact b.trans (c z hz)
        · rintro z (rfl | hz)
          · exact a
          · exact f z hz
      · rintro ⟨⟨a, c, e⟩, f⟩
        exact ⟨⟨f x (.inl rfl), a y (.inl rfl)⟩, ⟨c, e⟩, fun z hz => f z (.inr hz)⟩

theorem mem_insert {k : Nat} {v : α} {m : List (Nat × α)} {x : Nat × α} (h : x ∈ smInsert k v m) : x = (k, v) ∨ x ∈ m := by
  induction m with
  | nil => simpa [smInsert] using h
  | cons y m ih =>
    simp only [smInsert] at h
    split_ifs at h <;> simp_all
    · rcases h with h | h
      · exact .inr (.inl h)
      · rcases ih h with h | h
        · exact .inl h
        · exact .inr (.inr h)
    · rcases h with h | h
      · exact .inl h
      · exact .inr (.inr h)

theorem pairwise_insert {k : Nat} {v : α} {m : List (Nat × α)} (h : m.Pairwise (fun x y => x.1 < y.1)) :
    (smInsert k v m).Pairwise (fun x y => x.1 < y.1) := by
  induction m with
  | nil => simp [smInsert]
  | cons y m ih =>
    simp only [List.pairwise_cons] at h
    simp only [smInsert]
    split_ifs with h1 h2
    · refine List.pairwise_cons.2 ⟨fun z hz => ?_, ih h.2⟩
      rcases mem_insert hz with rfl | hz
      · exact h1
      · exact h.1 z hz
    · exact List.pairwise_cons.2 ⟨fun z hz => h2 ▸ h.1 z hz, h.2⟩
    · refine List.pairwise_cons.2 ⟨fun z hz => ?_, List.pairwise_cons.2 h⟩
      have hk : k < y.1 := by omega
      rcases List.mem_cons.1 hz with rfl | hz
      · exact hk
      · exact hk.trans (h.1 z hz)

/-- A write keeps the canonical form. -/
theorem smOk_set [DecidableEq α] (d : Nat → α) (k : Nat) (v : α) (m : List (Nat × α)) (h : smOk d m = true) :
    smOk d (smSet (d k) k v m) = true := by
  rw [smOk_iff] at h ⊢
  unfold smSet
  split
  · exact ⟨h.1.sublist List.filter_sublist, fun x hx => h.2 x (List.mem_of_mem_filter hx)⟩
  · refine ⟨pairwise_insert h.1, fun x hx => ?_⟩
    rcases mem_insert hx with rfl | hx
    · assumption
    · exact h.2 x hx

/-! Bit fields. -/

theorem bitsOf_testBit (x hi lo i : Nat) : (bitsOf x hi lo).testBit i = (decide (i < hi + 1 - lo) && x.testBit (lo + i)) := by
  simp [bitsOf, Nat.testBit_mod_two_pow, Nat.testBit_shiftRight]

theorem withBits_testBit (x hi lo v i : Nat) (h : lo ≤ hi) :
    (withBits x hi lo v).testBit i = if lo ≤ i ∧ i ≤ hi then v.testBit (i - lo) else x.testBit i := by
  simp only [withBits, Nat.testBit_or, Nat.testBit_shiftLeft, Nat.testBit_shiftRight, Nat.testBit_mod_two_pow]
  by_cases h1 : lo ≤ i <;> by_cases h2 : i ≤ hi <;> simp_all <;> grind

/-- A field after a write of it. -/
theorem bitsOf_withBits (x hi lo v : Nat) (h : lo ≤ hi) : bitsOf (withBits x hi lo v) hi lo = v % 2 ^ (hi + 1 - lo) := by
  apply Nat.eq_of_testBit_eq
  intro i
  rw [bitsOf_testBit, withBits_testBit _ _ _ _ _ h, Nat.testBit_mod_two_pow]
  grind

/-- A field after a write of another field of the word. -/
theorem bitsOf_withBits_ne (x hi lo v hi' lo' : Nat) (h : lo' ≤ hi') (hd : hi < lo' ∨ hi' < lo) :
    bitsOf (withBits x hi' lo' v) hi lo = bitsOf x hi lo := by
  apply Nat.eq_of_testBit_eq
  intro i
  simp only [bitsOf_testBit, withBits_testBit _ _ _ _ _ h]
  grind

/-- The word a register holds keeps every field. -/
theorem bitsOf_ofNat (x hi lo : Nat) (h : hi < 32) : bitsOf (BitVec.ofNat 32 x).toNat hi lo = bitsOf x hi lo := by
  apply Nat.eq_of_testBit_eq
  intro i
  simp only [bitsOf_testBit, BitVec.toNat_ofNat, Nat.testBit_mod_two_pow]
  grind

theorem bitsOf_lt (x hi lo : Nat) : bitsOf x hi lo < 2 ^ (hi + 1 - lo) := Nat.mod_lt _ (by positivity)

end Sys2Proof.Machine
end

