-- ==== Sys2Proof/Laws/Regs.lean ====
section
/-! SUPPORT. The laws of the register map and of the memory windows: what a read of a field or of a byte gives after a write. -/

namespace Sys2Proof.Machine

/-- A field that lies in a register word of a block. -/
def Fld.ok (f : Fld) : Prop := f.lo ≤ f.hi ∧ f.hi < 32 ∧ f.blk < 128 ∧ f.off < 2 ^ 30

/-- Two fields of a tile share no bit. -/
def Fld.apart (f g : Fld) : Prop := f.blk ≠ g.blk ∨ f.off ≠ g.off ∨ f.hi < g.lo ∨ g.hi < f.lo

theorem addrOf_inj {t blk off t' blk' off' : Nat} (h1 : blk < 128) (h2 : off < 2 ^ 30) (h1' : blk' < 128)
    (h2' : off' < 2 ^ 30) (h : addrOf t blk off = addrOf t' blk' off') : t = t' ∧ blk = blk' ∧ off = off' := by
  unfold addrOf at h
  omega

theorem regKey_ne {b t blk off b' t' blk' off' : Nat} (ht : t < 8) (ht' : t' < 8) (h1 : blk < 128) (h2 : off < 2 ^ 30)
    (h1' : blk' < 128) (h2' : off' < 2 ^ 30) (h : t ≠ t' ∨ blk ≠ blk' ∨ off ≠ off') :
    regKey b t blk off ≠ regKey b' t' blk' off' := by
  unfold regKey addrOf
  split <;> split <;> omega

/-- The word of a register after a write of its word. -/
@[simp] theorem State.wordB_setWordB (s : State) (b t blk off v : Nat) : (s.setWordB b t blk off v).wordB b t blk off = v % 2 ^ 32 := by
  simp [State.wordB, State.setWordB]

/-- The word of a register after a write of another register. -/
theorem State.wordB_setWordB_ne (s : State) {b t blk off b' t' blk' off' : Nat} (v : Nat) (ht : t < 8) (ht' : t' < 8) (h1 : blk < 128)
    (h2 : off < 2 ^ 30) (h1' : blk' < 128) (h2' : off' < 2 ^ 30) (h : t ≠ t' ∨ blk ≠ blk' ∨ off ≠ off') :
    (s.setWordB b' t' blk' off' v).wordB b t blk off = s.wordB b t blk off := by
  simp only [State.wordB, State.setWordB]
  rw [smGet_set_ne]
  exact regKey_ne ht ht' h1 h2 h1' h2' h

@[simp] theorem State.bank_setWordB (s : State) (b t blk off v : Nat) : (s.setWordB b t blk off v).bank = s.bank := rfl
@[simp] theorem State.bank_wr (s : State) (t : Nat) (f : Fld) (v : Nat) : (s.wr t f v).bank = s.bank := rfl

/-- A field after a write of it. -/
theorem State.rdB_wrB (s : State) (b t : Nat) (f : Fld) (v : Nat) (h : f.ok) :
    (s.wrB b t f v).rdB b t f = v % 2 ^ (f.hi + 1 - f.lo) := by
  simp only [State.rdB, State.wrB, State.wordB_setWordB]
  have := bitsOf_ofNat (withBits (s.wordB b t f.blk f.off) f.hi f.lo v) f.hi f.lo h.2.1
  rw [BitVec.toNat_ofNat] at this
  rw [this, bitsOf_withBits _ _ _ _ h.1]

/-- A field after a write of a field that shares no bit with it. -/
theorem State.rdB_wrB_ne (s : State) {b b' t t' : Nat} {f g : Fld} (v : Nat) (ht : t < 8) (ht' : t' < 8) (hf : f.ok) (hg : g.ok)
    (h : t ≠ t' ∨ f.apart g) (hb : b = b' ∨ t ≠ t' ∨ f.blk ≠ g.blk ∨ f.off ≠ g.off) :
    (s.wrB b' t' g v).rdB b t f = s.rdB b t f := by
  by_cases hk : t ≠ t' ∨ f.blk ≠ g.blk ∨ f.off ≠ g.off
  · simp only [State.rdB, State.wrB]
    rw [State.wordB_setWordB_ne _ _ ht ht' hf.2.2.1 hf.2.2.2 hg.2.2.1 hg.2.2.2 hk]
  · simp only [not_or, not_not] at hk
    obtain ⟨rfl, hblk, hoff⟩ := hk
    have hb : b = b' := by
      rcases hb with h | h | h | h
      · exact h
      all_goals simp_all
    subst hb
    have hd : f.hi < g.lo ∨ g.hi < f.lo := by
      rcases h with h | h | h | h
      · exact absurd rfl h
      · exact absurd hblk h
      · exact absurd hoff h
      · exact h
    simp only [State.rdB, State.wrB, hblk, hoff, State.wordB_setWordB]
    have := bitsOf_ofNat (withBits (s.wordB b t g.blk g.off) g.hi g.lo v) f.hi f.lo hf.2.1
    rw [BitVec.toNat_ofNat] at this
    rw [this, bitsOf_withBits_ne _ _ _ _ _ _ hg.1 hd]

/-- A field of the newest band's bank after a write of it. -/
theorem State.rd_wr (s : State) (t : Nat) (f : Fld) (v : Nat) (h : f.ok) : (s.wr t f v).rd t f = v % 2 ^ (f.hi + 1 - f.lo) :=
  s.rdB_wrB s.bank t f v h

/-- A field of the newest band's bank after a write of another. -/
theorem State.rd_wr_ne (s : State) {t t' : Nat} {f g : Fld} (v : Nat) (ht : t < 8) (ht' : t' < 8) (hf : f.ok) (hg : g.ok)
    (h : t ≠ t' ∨ f.apart g) : (s.wr t' g v).rd t f = s.rd t f :=
  s.rdB_wrB_ne v ht ht' hf hg h (.inl rfl)

/-- A field after hardware sets it is what it is after a write of ones. -/
@[simp] theorem State.rdB_setF (s : State) (b t t' : Nat) (f g : Fld) : (s.setF t' g).rdB b t f = (s.wr t' g (2 ^ (g.hi + 1 - g.lo) - 1)).rdB b t f := rfl

theorem State.rd_setF_eq (s : State) (t t' : Nat) (f g : Fld) : (s.setF t' g).rd t f = (s.wr t' g (2 ^ (g.hi + 1 - g.lo) - 1)).rd t f := rfl

/-- A flag of one bit after it is set. -/
theorem State.rd_setF (s : State) (t : Nat) (f : Fld) (h : f.ok) : (s.setF t f).rd t f = 2 ^ (f.hi + 1 - f.lo) - 1 := by
  rw [State.rd_setF_eq, State.rd_wr _ _ _ _ h]
  exact Nat.mod_eq_of_lt (Nat.sub_lt (by positivity) (by decide))

theorem State.rd_clrF (s : State) (t : Nat) (f : Fld) (h : f.ok) : (s.clrF t f).rd t f = 0 := by
  rw [State.clrF, State.rd_wr _ _ _ _ h]
  exact Nat.zero_mod _

theorem State.rd_setF_ne (s : State) {t t' : Nat} {f g : Fld} (ht : t < 8) (ht' : t' < 8) (hf : f.ok) (hg : g.ok)
    (h : t ≠ t' ∨ f.apart g) : (s.setF t' g).rd t f = s.rd t f := s.rd_wr_ne _ ht ht' hf hg h

theorem State.rd_clrF_ne (s : State) {t t' : Nat} {f g : Fld} (ht : t < 8) (ht' : t' < 8) (hf : f.ok) (hg : g.ok)
    (h : t ≠ t' ∨ f.apart g) : (s.clrF t' g).rd t f = s.rd t f := s.rd_wr_ne _ ht ht' hf hg h

theorem State.rd_lt (s : State) (t : Nat) (f : Fld) : s.rd t f < 2 ^ (f.hi + 1 - f.lo) := bitsOf_lt ..

/-- A count that holds at its greatest value, after it has counted. -/
theorem State.rd_addSat (s : State) (t : Nat) (f : Fld) (n : Nat) (h : f.ok) :
    (s.addSat t f n).rd t f = min (s.rd t f + n) (2 ^ (f.hi + 1 - f.lo) - 1) := by
  rw [State.addSat, State.rd_wr _ _ _ _ h]
  refine Nat.mod_eq_of_lt ?_
  have : 0 < 2 ^ (f.hi + 1 - f.lo) := by positivity
  show min _ _ < _
  omega

theorem State.rd_addSat_ne (s : State) {t t' : Nat} {f g : Fld} (n : Nat) (ht : t < 8) (ht' : t' < 8) (hf : f.ok) (hg : g.ok)
    (h : t ≠ t' ∨ f.apart g) : (s.addSat t' g n).rd t f = s.rd t f := s.rd_wr_ne _ ht ht' hf hg h

/-- A pip leaves every field. -/
@[simp] theorem State.rd_pip (s : State) (t src t' : Nat) (f : Fld) : (s.pip t src).rd t' f = s.rd t' f := by
  unfold State.pip; split <;> rfl

@[simp] theorem State.mem_pip (s : State) (t src : Nat) : (s.pip t src).mem = s.mem := by unfold State.pip; split <;> rfl
@[simp] theorem State.regs_pip (s : State) (t src : Nat) : (s.pip t src).regs = s.regs := by unfold State.pip; split <;> rfl
@[simp] theorem State.bank_pip (s : State) (t src : Nat) : (s.pip t src).bank = s.bank := by unfold State.pip; split <;> rfl
@[simp] theorem State.id_pip (s : State) (t src : Nat) : (s.pip t src).id = s.id := by unfold State.pip; split <;> rfl

/-! Memory windows. -/

@[simp] theorem State.byte_setByte (s : State) (a : Nat) (v : Byte) : (s.setByte a v).byte a = v := by simp [State.byte, State.setByte]

theorem State.byte_setByte_ne (s : State) {a b : Nat} (v : Byte) (h : b ≠ a) : (s.setByte a v).byte b = s.byte b := by
  simp [State.byte, State.setByte, smGet_set_ne _ _ _ _ h]

/-- The bytes that a write of a byte string leaves and those it writes. -/
theorem State.byte_setBytes (s : State) (a : Nat) (bs : Bytes) (b : Nat) :
    (s.setBytes a bs).byte b = if h : a ≤ b ∧ b - a < bs.length then bs[b - a] else s.byte b := by
  induction bs generalizing s a with
  | nil => simp [State.setBytes]
  | cons x bs ih =>
    rw [State.setBytes, ih]
    by_cases h1 : b = a
    · subst h1; simp
    · rw [State.byte_setByte_ne _ _ h1]
      by_cases h2 : a + 1 ≤ b
      · obtain ⟨n, rfl⟩ : ∃ n, b = a + 1 + n := ⟨b - (a + 1), by omega⟩
        have e : a + 1 + n - a = n + 1 := by omega
        simp [e]
        grind
      · have : ¬ a ≤ b := by omega
        simp [h2, this]

end Sys2Proof.Machine
end

