-- ==== Sys2Proof/Laws/Address.lean ====
section
/-! SUPPORT. The laws of package addresses, of register lookup, of register reads, and of what every command leaves. -/

namespace Sys2Proof.Machine

theorem addrTile_addrOf {t blk off : Nat} (ht : t < 8) (hb : blk < 128) (ho : off < 2 ^ 30) : addrTile (addrOf t blk off) = t := by
  unfold addrTile addrOf; omega

theorem addrBlk_addrOf {t blk off : Nat} (hb : blk < 128) (ho : off < 2 ^ 30) : addrBlk (addrOf t blk off) = blk := by
  unfold addrBlk addrOf; omega

theorem addrOff_addrOf {t blk off : Nat} (ho : off < 2 ^ 30) : addrOff (addrOf t blk off) = off := by
  unfold addrOff addrOf; omega

theorem addrOf_lt {t blk off : Nat} (ht : t < 8) (hb : blk < 128) (ho : off < 2 ^ 30) : addrOf t blk off < 2 ^ 40 := by
  unfold addrOf; omega

theorem addrOf_mod4 {t blk off : Nat} : addrOf t blk off % 4 = off % 4 := by
  unfold addrOf; omega

/-- The package address survives its passage through a 40-bit operand. -/
theorem addrOf_toNat {t blk off : Nat} (ht : t < 8) (hb : blk < 128) (ho : off < 2 ^ 30) :
    (BitVec.ofNat 40 (addrOf t blk off)).toNat = addrOf t blk off := by
  rw [BitVec.toNat_ofNat]; exact Nat.mod_eq_of_lt (addrOf_lt ht hb ho)

theorem State.regAt_eq (s : State) (a : Nat) {r : RegRow} {ix : List Nat} {t k o : Nat} (h1 : addrTile a = t) (h2 : addrBlk a = k)
    (h3 : addrOff a = o) (h : findReg k o = some (r, ix)) :
    s.regAt a = if placeOk s.id t r.place then some ⟨t, k, o, r, ix⟩ else none := by
  subst h1 h2 h3
  unfold State.regAt; rw [h]

/-- The register at a package address, from the table's row. -/
theorem State.regAt_addrOf (s : State) {t blk off : Nat} (ht : t < 8) (hb : blk < 128) (ho : off < 2 ^ 30) {r : RegRow} {ix : List Nat}
    (h : findReg blk off = some (r, ix)) :
    s.regAt (addrOf t blk off) = if placeOk s.id t r.place then some ⟨t, blk, off, r, ix⟩ else none :=
  s.regAt_eq _ (addrTile_addrOf ht hb ho) (addrBlk_addrOf hb ho) (addrOff_addrOf ho) h

/-- A register block holds no memory window. -/
theorem windowOf_low {a : Nat} (h : addrBlk a < 0x40) : windowOf a = none := by
  simp only [windowOf]
  rw [if_neg (by omega), if_neg (by omega), if_neg (by omega)]

/-- A block number beyond the listed ones holds no memory window and no register. -/
theorem windowOf_unlisted {a : Nat} (h1 : ¬ (0x40 ≤ addrBlk a ∧ addrBlk a ≤ 0x48)) (h2 : addrBlk a ≠ 0x50) : windowOf a = none := by
  simp only [windowOf]
  rw [if_neg (by omega), if_neg (by omega), if_neg (by omega)]

theorem State.busRead_eq (s : State) (o : Origin) {a : Nat} {r : RegRef} (h4 : a % 4 = 0) (hf : s.fit (addrTile a)) (hw : windowOf a = none)
    (hreg : s.regAt a = some r) (hpair : r.row.pair = 0) (hr : s.readRefused o r = none) : s.busRead o a = (s.regValue r, s, .ok) := by
  unfold State.busRead
  rw [if_neg (by simp [h4, hf])]
  simp only [hw, hreg, hr, State.regRead, hpair]
  rfl

/-- What a read of a register that no rule refuses answers, the register being no half of a pair. -/
theorem State.busRead_plain (s : State) (o : Origin) {t blk off : Nat} {r : RegRow} {ix : List Nat} (ht : t < 8) (hb : blk < 0x40)
    (ho : off < 2 ^ 30) (h4 : off % 4 = 0) (hf : s.fit t) (h : findReg blk off = some (r, ix)) (hp : placeOk s.id t r.place)
    (hpair : r.pair = 0) (hr : s.readRefused o ⟨t, blk, off, r, ix⟩ = none) :
    s.busRead o (addrOf t blk off) = (s.regValue ⟨t, blk, off, r, ix⟩, s, .ok) := by
  have hb' : blk < 128 := by omega
  refine s.busRead_eq o ?_ ?_ ?_ ?_ hpair hr
  · rw [addrOf_mod4]; exact h4
  · rw [addrTile_addrOf ht hb' ho]; exact hf
  · exact windowOf_low (by rw [addrBlk_addrOf hb' ho]; exact hb)
  · rw [s.regAt_addrOf ht hb' ho h, if_pos hp]

/-! What a finished command leaves. -/

@[simp] theorem State.rd_after (s s' : State) (t : Nat) (f : Fld) : (s.after s').rd t f = s'.rd t f := rfl
@[simp] theorem State.is_after (s s' : State) (t : Nat) (f : Fld) : (s.after s').is t f = s'.is t f := rfl
@[simp] theorem State.rd64_after (s s' : State) (t : Nat) (f : Fld) : (s.after s').rd64 t f = s'.rd64 t f := rfl
@[simp] theorem State.wordB_after (s s' : State) (b t k o : Nat) : (s.after s').wordB b t k o = s'.wordB b t k o := rfl
@[simp] theorem State.byte_after (s s' : State) (a : Nat) : (s.after s').byte a = s'.byte a := rfl
@[simp] theorem State.id_after (s s' : State) : (s.after s').id = s.id := rfl
@[simp] theorem State.pending_after (s s' : State) : (s.after s').pending = s.pending := rfl

/-- A command on a live part ends in what it computed. -/
theorem finish_live {s s' : State} (h : s.live) : finish s s' = .next (s.after s') := by simp [finish, always, h]

theorem onTile_live {s : State} {t : Nat} {f : State → State} (h : s.live) (ht : s.fit t) : onTile s t f = .next (s.after (f s)) := by
  simp [onTile, finish_live h, ht]

theorem whenEv_live {s : State} {c : Bool} {f : State → State} (h : s.live) (hc : c = true) : whenEv s c f = .next (s.after (f s)) := by
  simp [whenEv, finish_live h, hc]

/-- Every command answers a next state with the identity and the queue of the state it began in. -/
theorem exec_next (i : Instr) (s : State) : ∃ t, exec i s = .next t ∧ t.id = s.id ∧ t.pending = s.pending := by
  cases i <;> first
    | exact ⟨_, rfl, rfl, rfl⟩
    | (simp only [exec, execEncoderEdge, execAbsFrame, execCollectorServe, execEngDone, execChkData, execDmaComplete, execRecordPop]
       split <;> exact ⟨_, rfl, rfl, rfl⟩)

/-- No step changes the fused identity. -/
theorem step_id {s u : State} (h : step s = .next u) : u.id = s.id := by
  unfold step at h
  split at h
  · simp only [idle, finish, always, Host.Outcome.next.injEq] at h
    subst h; rfl
  · obtain ⟨t, ht, hid, _⟩ := exec_next _ _
    rw [ht] at h; cases h; exact hid

end Sys2Proof.Machine
end

