-- ==== Sys2Proof/Laws/State.lean ====
section
/-! SUPPORT. What each named update of the state leaves: one lemma for each field it does not touch, so that no proof unfolds a record
update. -/

namespace Sys2Proof.Machine

/-! setWordB. -/

@[simp] theorem State.id_setWordB (s : State) (b t blk off v : Nat) : (s.setWordB b t blk off v).id = s.id := rfl
@[simp] theorem State.mem_setWordB (s : State) (b t blk off v : Nat) : (s.setWordB b t blk off v).mem = s.mem := rfl
@[simp] theorem State.holds_setWordB (s : State) (b t blk off v : Nat) : (s.setWordB b t blk off v).holds = s.holds := rfl
@[simp] theorem State.lowSeen_setWordB (s : State) (b t blk off v : Nat) : (s.setWordB b t blk off v).lowSeen = s.lowSeen := rfl
@[simp] theorem State.latches_setWordB (s : State) (b t blk off v : Nat) : (s.setWordB b t blk off v).latches = s.latches := rfl
@[simp] theorem State.cyc_setWordB (s : State) (b t blk off v : Nat) : (s.setWordB b t blk off v).cyc = s.cyc := rfl
@[simp] theorem State.retiring_setWordB (s : State) (b t blk off v : Nat) : (s.setWordB b t blk off v).retiring = s.retiring := rfl
@[simp] theorem State.tim_setWordB (s : State) (b t blk off v : Nat) : (s.setWordB b t blk off v).tim = s.tim := rfl
@[simp] theorem State.fab_setWordB (s : State) (b t blk off v : Nat) : (s.setWordB b t blk off v).fab = s.fab := rfl
@[simp] theorem State.que_setWordB (s : State) (b t blk off v : Nat) : (s.setWordB b t blk off v).que = s.que := rfl
@[simp] theorem State.net_setWordB (s : State) (b t blk off v : Nat) : (s.setWordB b t blk off v).net = s.net := rfl
@[simp] theorem State.links_setWordB (s : State) (b t blk off v : Nat) : (s.setWordB b t blk off v).links = s.links := rfl
@[simp] theorem State.ports_setWordB (s : State) (b t blk off v : Nat) : (s.setWordB b t blk off v).ports = s.ports := rfl
@[simp] theorem State.prbs_setWordB (s : State) (b t blk off v : Nat) : (s.setWordB b t blk off v).prbs = s.prbs := rfl
@[simp] theorem State.path_setWordB (s : State) (b t blk off v : Nat) : (s.setWordB b t blk off v).path = s.path := rfl
@[simp] theorem State.sti_setWordB (s : State) (b t blk off v : Nat) : (s.setWordB b t blk off v).sti = s.sti := rfl
@[simp] theorem State.ref_setWordB (s : State) (b t blk off v : Nat) : (s.setWordB b t blk off v).ref = s.ref := rfl
@[simp] theorem State.sgm_setWordB (s : State) (b t blk off v : Nat) : (s.setWordB b t blk off v).sgm = s.sgm := rfl
@[simp] theorem State.eng_setWordB (s : State) (b t blk off v : Nat) : (s.setWordB b t blk off v).eng = s.eng := rfl
@[simp] theorem State.lcs_setWordB (s : State) (b t blk off v : Nat) : (s.setWordB b t blk off v).lcs = s.lcs := rfl
@[simp] theorem State.pos_setWordB (s : State) (b t blk off v : Nat) : (s.setWordB b t blk off v).pos = s.pos := rfl
@[simp] theorem State.cal_setWordB (s : State) (b t blk off v : Nat) : (s.setWordB b t blk off v).cal = s.cal := rfl
@[simp] theorem State.dma_setWordB (s : State) (b t blk off v : Nat) : (s.setWordB b t blk off v).dma = s.dma := rfl
@[simp] theorem State.cfg_setWordB (s : State) (b t blk off v : Nat) : (s.setWordB b t blk off v).cfg = s.cfg := rfl
@[simp] theorem State.pwr_setWordB (s : State) (b t blk off v : Nat) : (s.setWordB b t blk off v).pwr = s.pwr := rfl
@[simp] theorem State.fir_setWordB (s : State) (b t blk off v : Nat) : (s.setWordB b t blk off v).fir = s.fir := rfl
@[simp] theorem State.regions_setWordB (s : State) (b t blk off v : Nat) : (s.setWordB b t blk off v).regions = s.regions := rfl
@[simp] theorem State.clk_setWordB (s : State) (b t blk off v : Nat) : (s.setWordB b t blk off v).clk = s.clk := rfl
@[simp] theorem State.grids_setWordB (s : State) (b t blk off v : Nat) : (s.setWordB b t blk off v).grids = s.grids := rfl
@[simp] theorem State.led_setWordB (s : State) (b t blk off v : Nat) : (s.setWordB b t blk off v).led = s.led := rfl
@[simp] theorem State.freeCtr_setWordB (s : State) (b t blk off v : Nat) : (s.setWordB b t blk off v).freeCtr = s.freeCtr := rfl
@[simp] theorem State.pending_setWordB (s : State) (b t blk off v : Nat) : (s.setWordB b t blk off v).pending = s.pending := rfl

/-! setWord. -/

@[simp] theorem State.id_setWord (s : State) (t blk off v : Nat) : (s.setWord t blk off v).id = s.id := rfl
@[simp] theorem State.mem_setWord (s : State) (t blk off v : Nat) : (s.setWord t blk off v).mem = s.mem := rfl
@[simp] theorem State.holds_setWord (s : State) (t blk off v : Nat) : (s.setWord t blk off v).holds = s.holds := rfl
@[simp] theorem State.lowSeen_setWord (s : State) (t blk off v : Nat) : (s.setWord t blk off v).lowSeen = s.lowSeen := rfl
@[simp] theorem State.latches_setWord (s : State) (t blk off v : Nat) : (s.setWord t blk off v).latches = s.latches := rfl
@[simp] theorem State.cyc_setWord (s : State) (t blk off v : Nat) : (s.setWord t blk off v).cyc = s.cyc := rfl
@[simp] theorem State.bank_setWord (s : State) (t blk off v : Nat) : (s.setWord t blk off v).bank = s.bank := rfl
@[simp] theorem State.retiring_setWord (s : State) (t blk off v : Nat) : (s.setWord t blk off v).retiring = s.retiring := rfl
@[simp] theorem State.tim_setWord (s : State) (t blk off v : Nat) : (s.setWord t blk off v).tim = s.tim := rfl
@[simp] theorem State.fab_setWord (s : State) (t blk off v : Nat) : (s.setWord t blk off v).fab = s.fab := rfl
@[simp] theorem State.que_setWord (s : State) (t blk off v : Nat) : (s.setWord t blk off v).que = s.que := rfl
@[simp] theorem State.net_setWord (s : State) (t blk off v : Nat) : (s.setWord t blk off v).net = s.net := rfl
@[simp] theorem State.links_setWord (s : State) (t blk off v : Nat) : (s.setWord t blk off v).links = s.links := rfl
@[simp] theorem State.ports_setWord (s : State) (t blk off v : Nat) : (s.setWord t blk off v).ports = s.ports := rfl
@[simp] theorem State.prbs_setWord (s : State) (t blk off v : Nat) : (s.setWord t blk off v).prbs = s.prbs := rfl
@[simp] theorem State.path_setWord (s : State) (t blk off v : Nat) : (s.setWord t blk off v).path = s.path := rfl
@[simp] theorem State.sti_setWord (s : State) (t blk off v : Nat) : (s.setWord t blk off v).sti = s.sti := rfl
@[simp] theorem State.ref_setWord (s : State) (t blk off v : Nat) : (s.setWord t blk off v).ref = s.ref := rfl
@[simp] theorem State.sgm_setWord (s : State) (t blk off v : Nat) : (s.setWord t blk off v).sgm = s.sgm := rfl
@[simp] theorem State.eng_setWord (s : State) (t blk off v : Nat) : (s.setWord t blk off v).eng = s.eng := rfl
@[simp] theorem State.lcs_setWord (s : State) (t blk off v : Nat) : (s.setWord t blk off v).lcs = s.lcs := rfl
@[simp] theorem State.pos_setWord (s : State) (t blk off v : Nat) : (s.setWord t blk off v).pos = s.pos := rfl
@[simp] theorem State.cal_setWord (s : State) (t blk off v : Nat) : (s.setWord t blk off v).cal = s.cal := rfl
@[simp] theorem State.dma_setWord (s : State) (t blk off v : Nat) : (s.setWord t blk off v).dma = s.dma := rfl
@[simp] theorem State.cfg_setWord (s : State) (t blk off v : Nat) : (s.setWord t blk off v).cfg = s.cfg := rfl
@[simp] theorem State.pwr_setWord (s : State) (t blk off v : Nat) : (s.setWord t blk off v).pwr = s.pwr := rfl
@[simp] theorem State.fir_setWord (s : State) (t blk off v : Nat) : (s.setWord t blk off v).fir = s.fir := rfl
@[simp] theorem State.regions_setWord (s : State) (t blk off v : Nat) : (s.setWord t blk off v).regions = s.regions := rfl
@[simp] theorem State.clk_setWord (s : State) (t blk off v : Nat) : (s.setWord t blk off v).clk = s.clk := rfl
@[simp] theorem State.grids_setWord (s : State) (t blk off v : Nat) : (s.setWord t blk off v).grids = s.grids := rfl
@[simp] theorem State.led_setWord (s : State) (t blk off v : Nat) : (s.setWord t blk off v).led = s.led := rfl
@[simp] theorem State.freeCtr_setWord (s : State) (t blk off v : Nat) : (s.setWord t blk off v).freeCtr = s.freeCtr := rfl
@[simp] theorem State.pending_setWord (s : State) (t blk off v : Nat) : (s.setWord t blk off v).pending = s.pending := rfl

/-! wrB. -/

@[simp] theorem State.id_wrB (s : State) (b t : Nat) (f : Fld) (v : Nat) : (s.wrB b t f v).id = s.id := rfl
@[simp] theorem State.mem_wrB (s : State) (b t : Nat) (f : Fld) (v : Nat) : (s.wrB b t f v).mem = s.mem := rfl
@[simp] theorem State.holds_wrB (s : State) (b t : Nat) (f : Fld) (v : Nat) : (s.wrB b t f v).holds = s.holds := rfl
@[simp] theorem State.lowSeen_wrB (s : State) (b t : Nat) (f : Fld) (v : Nat) : (s.wrB b t f v).lowSeen = s.lowSeen := rfl
@[simp] theorem State.latches_wrB (s : State) (b t : Nat) (f : Fld) (v : Nat) : (s.wrB b t f v).latches = s.latches := rfl
@[simp] theorem State.cyc_wrB (s : State) (b t : Nat) (f : Fld) (v : Nat) : (s.wrB b t f v).cyc = s.cyc := rfl
@[simp] theorem State.bank_wrB (s : State) (b t : Nat) (f : Fld) (v : Nat) : (s.wrB b t f v).bank = s.bank := rfl
@[simp] theorem State.retiring_wrB (s : State) (b t : Nat) (f : Fld) (v : Nat) : (s.wrB b t f v).retiring = s.retiring := rfl
@[simp] theorem State.tim_wrB (s : State) (b t : Nat) (f : Fld) (v : Nat) : (s.wrB b t f v).tim = s.tim := rfl
@[simp] theorem State.fab_wrB (s : State) (b t : Nat) (f : Fld) (v : Nat) : (s.wrB b t f v).fab = s.fab := rfl
@[simp] theorem State.que_wrB (s : State) (b t : Nat) (f : Fld) (v : Nat) : (s.wrB b t f v).que = s.que := rfl
@[simp] theorem State.net_wrB (s : State) (b t : Nat) (f : Fld) (v : Nat) : (s.wrB b t f v).net = s.net := rfl
@[simp] theorem State.links_wrB (s : State) (b t : Nat) (f : Fld) (v : Nat) : (s.wrB b t f v).links = s.links := rfl
@[simp] theorem State.ports_wrB (s : State) (b t : Nat) (f : Fld) (v : Nat) : (s.wrB b t f v).ports = s.ports := rfl
@[simp] theorem State.prbs_wrB (s : State) (b t : Nat) (f : Fld) (v : Nat) : (s.wrB b t f v).prbs = s.prbs := rfl
@[simp] theorem State.path_wrB (s : State) (b t : Nat) (f : Fld) (v : Nat) : (s.wrB b t f v).path = s.path := rfl
@[simp] theorem State.sti_wrB (s : State) (b t : Nat) (f : Fld) (v : Nat) : (s.wrB b t f v).sti = s.sti := rfl
@[simp] theorem State.ref_wrB (s : State) (b t : Nat) (f : Fld) (v : Nat) : (s.wrB b t f v).ref = s.ref := rfl
@[simp] theorem State.sgm_wrB (s : State) (b t : Nat) (f : Fld) (v : Nat) : (s.wrB b t f v).sgm = s.sgm := rfl
@[simp] theorem State.eng_wrB (s : State) (b t : Nat) (f : Fld) (v : Nat) : (s.wrB b t f v).eng = s.eng := rfl
@[simp] theorem State.lcs_wrB (s : State) (b t : Nat) (f : Fld) (v : Nat) : (s.wrB b t f v).lcs = s.lcs := rfl
@[simp] theorem State.pos_wrB (s : State) (b t : Nat) (f : Fld) (v : Nat) : (s.wrB b t f v).pos = s.pos := rfl
@[simp] theorem State.cal_wrB (s : State) (b t : Nat) (f : Fld) (v : Nat) : (s.wrB b t f v).cal = s.cal := rfl
@[simp] theorem State.dma_wrB (s : State) (b t : Nat) (f : Fld) (v : Nat) : (s.wrB b t f v).dma = s.dma := rfl
@[simp] theorem State.cfg_wrB (s : State) (b t : Nat) (f : Fld) (v : Nat) : (s.wrB b t f v).cfg = s.cfg := rfl
@[simp] theorem State.pwr_wrB (s : State) (b t : Nat) (f : Fld) (v : Nat) : (s.wrB b t f v).pwr = s.pwr := rfl
@[simp] theorem State.fir_wrB (s : State) (b t : Nat) (f : Fld) (v : Nat) : (s.wrB b t f v).fir = s.fir := rfl
@[simp] theorem State.regions_wrB (s : State) (b t : Nat) (f : Fld) (v : Nat) : (s.wrB b t f v).regions = s.regions := rfl
@[simp] theorem State.clk_wrB (s : State) (b t : Nat) (f : Fld) (v : Nat) : (s.wrB b t f v).clk = s.clk := rfl
@[simp] theorem State.grids_wrB (s : State) (b t : Nat) (f : Fld) (v : Nat) : (s.wrB b t f v).grids = s.grids := rfl
@[simp] theorem State.led_wrB (s : State) (b t : Nat) (f : Fld) (v : Nat) : (s.wrB b t f v).led = s.led := rfl
@[simp] theorem State.freeCtr_wrB (s : State) (b t : Nat) (f : Fld) (v : Nat) : (s.wrB b t f v).freeCtr = s.freeCtr := rfl
@[simp] theorem State.pending_wrB (s : State) (b t : Nat) (f : Fld) (v : Nat) : (s.wrB b t f v).pending = s.pending := rfl

/-! wr. -/

@[simp] theorem State.id_wr (s : State) (t : Nat) (f : Fld) (v : Nat) : (s.wr t f v).id = s.id := rfl
@[simp] theorem State.mem_wr (s : State) (t : Nat) (f : Fld) (v : Nat) : (s.wr t f v).mem = s.mem := rfl
@[simp] theorem State.holds_wr (s : State) (t : Nat) (f : Fld) (v : Nat) : (s.wr t f v).holds = s.holds := rfl
@[simp] theorem State.lowSeen_wr (s : State) (t : Nat) (f : Fld) (v : Nat) : (s.wr t f v).lowSeen = s.lowSeen := rfl
@[simp] theorem State.latches_wr (s : State) (t : Nat) (f : Fld) (v : Nat) : (s.wr t f v).latches = s.latches := rfl
@[simp] theorem State.cyc_wr (s : State) (t : Nat) (f : Fld) (v : Nat) : (s.wr t f v).cyc = s.cyc := rfl
@[simp] theorem State.retiring_wr (s : State) (t : Nat) (f : Fld) (v : Nat) : (s.wr t f v).retiring = s.retiring := rfl
@[simp] theorem State.tim_wr (s : State) (t : Nat) (f : Fld) (v : Nat) : (s.wr t f v).tim = s.tim := rfl
@[simp] theorem State.fab_wr (s : State) (t : Nat) (f : Fld) (v : Nat) : (s.wr t f v).fab = s.fab := rfl
@[simp] theorem State.que_wr (s : State) (t : Nat) (f : Fld) (v : Nat) : (s.wr t f v).que = s.que := rfl
@[simp] theorem State.net_wr (s : State) (t : Nat) (f : Fld) (v : Nat) : (s.wr t f v).net = s.net := rfl
@[simp] theorem State.links_wr (s : State) (t : Nat) (f : Fld) (v : Nat) : (s.wr t f v).links = s.links := rfl
@[simp] theorem State.ports_wr (s : State) (t : Nat) (f : Fld) (v : Nat) : (s.wr t f v).ports = s.ports := rfl
@[simp] theorem State.prbs_wr (s : State) (t : Nat) (f : Fld) (v : Nat) : (s.wr t f v).prbs = s.prbs := rfl
@[simp] theorem State.path_wr (s : State) (t : Nat) (f : Fld) (v : Nat) : (s.wr t f v).path = s.path := rfl
@[simp] theorem State.sti_wr (s : State) (t : Nat) (f : Fld) (v : Nat) : (s.wr t f v).sti = s.sti := rfl
@[simp] theorem State.ref_wr (s : State) (t : Nat) (f : Fld) (v : Nat) : (s.wr t f v).ref = s.ref := rfl
@[simp] theorem State.sgm_wr (s : State) (t : Nat) (f : Fld) (v : Nat) : (s.wr t f v).sgm = s.sgm := rfl
@[simp] theorem State.eng_wr (s : State) (t : Nat) (f : Fld) (v : Nat) : (s.wr t f v).eng = s.eng := rfl
@[simp] theorem State.lcs_wr (s : State) (t : Nat) (f : Fld) (v : Nat) : (s.wr t f v).lcs = s.lcs := rfl
@[simp] theorem State.pos_wr (s : State) (t : Nat) (f : Fld) (v : Nat) : (s.wr t f v).pos = s.pos := rfl
@[simp] theorem State.cal_wr (s : State) (t : Nat) (f : Fld) (v : Nat) : (s.wr t f v).cal = s.cal := rfl
@[simp] theorem State.dma_wr (s : State) (t : Nat) (f : Fld) (v : Nat) : (s.wr t f v).dma = s.dma := rfl
@[simp] theorem State.cfg_wr (s : State) (t : Nat) (f : Fld) (v : Nat) : (s.wr t f v).cfg = s.cfg := rfl
@[simp] theorem State.pwr_wr (s : State) (t : Nat) (f : Fld) (v : Nat) : (s.wr t f v).pwr = s.pwr := rfl
@[simp] theorem State.fir_wr (s : State) (t : Nat) (f : Fld) (v : Nat) : (s.wr t f v).fir = s.fir := rfl
@[simp] theorem State.regions_wr (s : State) (t : Nat) (f : Fld) (v : Nat) : (s.wr t f v).regions = s.regions := rfl
@[simp] theorem State.clk_wr (s : State) (t : Nat) (f : Fld) (v : Nat) : (s.wr t f v).clk = s.clk := rfl
@[simp] theorem State.grids_wr (s : State) (t : Nat) (f : Fld) (v : Nat) : (s.wr t f v).grids = s.grids := rfl
@[simp] theorem State.led_wr (s : State) (t : Nat) (f : Fld) (v : Nat) : (s.wr t f v).led = s.led := rfl
@[simp] theorem State.freeCtr_wr (s : State) (t : Nat) (f : Fld) (v : Nat) : (s.wr t f v).freeCtr = s.freeCtr := rfl
@[simp] theorem State.pending_wr (s : State) (t : Nat) (f : Fld) (v : Nat) : (s.wr t f v).pending = s.pending := rfl

/-! wrS. -/

@[simp] theorem State.id_wrS (s : State) (t : Nat) (f : Fld) (v : Int) : (s.wrS t f v).id = s.id := rfl
@[simp] theorem State.mem_wrS (s : State) (t : Nat) (f : Fld) (v : Int) : (s.wrS t f v).mem = s.mem := rfl
@[simp] theorem State.holds_wrS (s : State) (t : Nat) (f : Fld) (v : Int) : (s.wrS t f v).holds = s.holds := rfl
@[simp] theorem State.lowSeen_wrS (s : State) (t : Nat) (f : Fld) (v : Int) : (s.wrS t f v).lowSeen = s.lowSeen := rfl
@[simp] theorem State.latches_wrS (s : State) (t : Nat) (f : Fld) (v : Int) : (s.wrS t f v).latches = s.latches := rfl
@[simp] theorem State.cyc_wrS (s : State) (t : Nat) (f : Fld) (v : Int) : (s.wrS t f v).cyc = s.cyc := rfl
@[simp] theorem State.bank_wrS (s : State) (t : Nat) (f : Fld) (v : Int) : (s.wrS t f v).bank = s.bank := rfl
@[simp] theorem State.retiring_wrS (s : State) (t : Nat) (f : Fld) (v : Int) : (s.wrS t f v).retiring = s.retiring := rfl
@[simp] theorem State.tim_wrS (s : State) (t : Nat) (f : Fld) (v : Int) : (s.wrS t f v).tim = s.tim := rfl
@[simp] theorem State.fab_wrS (s : State) (t : Nat) (f : Fld) (v : Int) : (s.wrS t f v).fab = s.fab := rfl
@[simp] theorem State.que_wrS (s : State) (t : Nat) (f : Fld) (v : Int) : (s.wrS t f v).que = s.que := rfl
@[simp] theorem State.net_wrS (s : State) (t : Nat) (f : Fld) (v : Int) : (s.wrS t f v).net = s.net := rfl
@[simp] theorem State.links_wrS (s : State) (t : Nat) (f : Fld) (v : Int) : (s.wrS t f v).links = s.links := rfl
@[simp] theorem State.ports_wrS (s : State) (t : Nat) (f : Fld) (v : Int) : (s.wrS t f v).ports = s.ports := rfl
@[simp] theorem State.prbs_wrS (s : State) (t : Nat) (f : Fld) (v : Int) : (s.wrS t f v).prbs = s.prbs := rfl
@[simp] theorem State.path_wrS (s : State) (t : Nat) (f : Fld) (v : Int) : (s.wrS t f v).path = s.path := rfl
@[simp] theorem State.sti_wrS (s : State) (t : Nat) (f : Fld) (v : Int) : (s.wrS t f v).sti = s.sti := rfl
@[simp] theorem State.ref_wrS (s : State) (t : Nat) (f : Fld) (v : Int) : (s.wrS t f v).ref = s.ref := rfl
@[simp] theorem State.sgm_wrS (s : State) (t : Nat) (f : Fld) (v : Int) : (s.wrS t f v).sgm = s.sgm := rfl
@[simp] theorem State.eng_wrS (s : State) (t : Nat) (f : Fld) (v : Int) : (s.wrS t f v).eng = s.eng := rfl
@[simp] theorem State.lcs_wrS (s : State) (t : Nat) (f : Fld) (v : Int) : (s.wrS t f v).lcs = s.lcs := rfl
@[simp] theorem State.pos_wrS (s : State) (t : Nat) (f : Fld) (v : Int) : (s.wrS t f v).pos = s.pos := rfl
@[simp] theorem State.cal_wrS (s : State) (t : Nat) (f : Fld) (v : Int) : (s.wrS t f v).cal = s.cal := rfl
@[simp] theorem State.dma_wrS (s : State) (t : Nat) (f : Fld) (v : Int) : (s.wrS t f v).dma = s.dma := rfl
@[simp] theorem State.cfg_wrS (s : State) (t : Nat) (f : Fld) (v : Int) : (s.wrS t f v).cfg = s.cfg := rfl
@[simp] theorem State.pwr_wrS (s : State) (t : Nat) (f : Fld) (v : Int) : (s.wrS t f v).pwr = s.pwr := rfl
@[simp] theorem State.fir_wrS (s : State) (t : Nat) (f : Fld) (v : Int) : (s.wrS t f v).fir = s.fir := rfl
@[simp] theorem State.regions_wrS (s : State) (t : Nat) (f : Fld) (v : Int) : (s.wrS t f v).regions = s.regions := rfl
@[simp] theorem State.clk_wrS (s : State) (t : Nat) (f : Fld) (v : Int) : (s.wrS t f v).clk = s.clk := rfl
@[simp] theorem State.grids_wrS (s : State) (t : Nat) (f : Fld) (v : Int) : (s.wrS t f v).grids = s.grids := rfl
@[simp] theorem State.led_wrS (s : State) (t : Nat) (f : Fld) (v : Int) : (s.wrS t f v).led = s.led := rfl
@[simp] theorem State.freeCtr_wrS (s : State) (t : Nat) (f : Fld) (v : Int) : (s.wrS t f v).freeCtr = s.freeCtr := rfl
@[simp] theorem State.pending_wrS (s : State) (t : Nat) (f : Fld) (v : Int) : (s.wrS t f v).pending = s.pending := rfl

/-! setF. -/

@[simp] theorem State.id_setF (s : State) (t : Nat) (f : Fld) : (s.setF t f).id = s.id := rfl
@[simp] theorem State.mem_setF (s : State) (t : Nat) (f : Fld) : (s.setF t f).mem = s.mem := rfl
@[simp] theorem State.holds_setF (s : State) (t : Nat) (f : Fld) : (s.setF t f).holds = s.holds := rfl
@[simp] theorem State.lowSeen_setF (s : State) (t : Nat) (f : Fld) : (s.setF t f).lowSeen = s.lowSeen := rfl
@[simp] theorem State.latches_setF (s : State) (t : Nat) (f : Fld) : (s.setF t f).latches = s.latches := rfl
@[simp] theorem State.bank_setF (s : State) (t : Nat) (f : Fld) : (s.setF t f).bank = s.bank := rfl
@[simp] theorem State.retiring_setF (s : State) (t : Nat) (f : Fld) : (s.setF t f).retiring = s.retiring := rfl
@[simp] theorem State.tim_setF (s : State) (t : Nat) (f : Fld) : (s.setF t f).tim = s.tim := rfl
@[simp] theorem State.fab_setF (s : State) (t : Nat) (f : Fld) : (s.setF t f).fab = s.fab := rfl
@[simp] theorem State.que_setF (s : State) (t : Nat) (f : Fld) : (s.setF t f).que = s.que := rfl
@[simp] theorem State.net_setF (s : State) (t : Nat) (f : Fld) : (s.setF t f).net = s.net := rfl
@[simp] theorem State.links_setF (s : State) (t : Nat) (f : Fld) : (s.setF t f).links = s.links := rfl
@[simp] theorem State.ports_setF (s : State) (t : Nat) (f : Fld) : (s.setF t f).ports = s.ports := rfl
@[simp] theorem State.prbs_setF (s : State) (t : Nat) (f : Fld) : (s.setF t f).prbs = s.prbs := rfl
@[simp] theorem State.path_setF (s : State) (t : Nat) (f : Fld) : (s.setF t f).path = s.path := rfl
@[simp] theorem State.sti_setF (s : State) (t : Nat) (f : Fld) : (s.setF t f).sti = s.sti := rfl
@[simp] theorem State.ref_setF (s : State) (t : Nat) (f : Fld) : (s.setF t f).ref = s.ref := rfl
@[simp] theorem State.sgm_setF (s : State) (t : Nat) (f : Fld) : (s.setF t f).sgm = s.sgm := rfl
@[simp] theorem State.eng_setF (s : State) (t : Nat) (f : Fld) : (s.setF t f).eng = s.eng := rfl
@[simp] theorem State.lcs_setF (s : State) (t : Nat) (f : Fld) : (s.setF t f).lcs = s.lcs := rfl
@[simp] theorem State.pos_setF (s : State) (t : Nat) (f : Fld) : (s.setF t f).pos = s.pos := rfl
@[simp] theorem State.cal_setF (s : State) (t : Nat) (f : Fld) : (s.setF t f).cal = s.cal := rfl
@[simp] theorem State.dma_setF (s : State) (t : Nat) (f : Fld) : (s.setF t f).dma = s.dma := rfl
@[simp] theorem State.cfg_setF (s : State) (t : Nat) (f : Fld) : (s.setF t f).cfg = s.cfg := rfl
@[simp] theorem State.pwr_setF (s : State) (t : Nat) (f : Fld) : (s.setF t f).pwr = s.pwr := rfl
@[simp] theorem State.fir_setF (s : State) (t : Nat) (f : Fld) : (s.setF t f).fir = s.fir := rfl
@[simp] theorem State.regions_setF (s : State) (t : Nat) (f : Fld) : (s.setF t f).regions = s.regions := rfl
@[simp] theorem State.clk_setF (s : State) (t : Nat) (f : Fld) : (s.setF t f).clk = s.clk := rfl
@[simp] theorem State.grids_setF (s : State) (t : Nat) (f : Fld) : (s.setF t f).grids = s.grids := rfl
@[simp] theorem State.led_setF (s : State) (t : Nat) (f : Fld) : (s.setF t f).led = s.led := rfl
@[simp] theorem State.freeCtr_setF (s : State) (t : Nat) (f : Fld) : (s.setF t f).freeCtr = s.freeCtr := rfl
@[simp] theorem State.pending_setF (s : State) (t : Nat) (f : Fld) : (s.setF t f).pending = s.pending := rfl

/-! setBits. -/

@[simp] theorem State.id_setBits (s : State) (t : Nat) (f : Fld) (m : Nat) : (s.setBits t f m).id = s.id := rfl
@[simp] theorem State.mem_setBits (s : State) (t : Nat) (f : Fld) (m : Nat) : (s.setBits t f m).mem = s.mem := rfl
@[simp] theorem State.holds_setBits (s : State) (t : Nat) (f : Fld) (m : Nat) : (s.setBits t f m).holds = s.holds := rfl
@[simp] theorem State.lowSeen_setBits (s : State) (t : Nat) (f : Fld) (m : Nat) : (s.setBits t f m).lowSeen = s.lowSeen := rfl
@[simp] theorem State.latches_setBits (s : State) (t : Nat) (f : Fld) (m : Nat) : (s.setBits t f m).latches = s.latches := rfl
@[simp] theorem State.bank_setBits (s : State) (t : Nat) (f : Fld) (m : Nat) : (s.setBits t f m).bank = s.bank := rfl
@[simp] theorem State.retiring_setBits (s : State) (t : Nat) (f : Fld) (m : Nat) : (s.setBits t f m).retiring = s.retiring := rfl
@[simp] theorem State.tim_setBits (s : State) (t : Nat) (f : Fld) (m : Nat) : (s.setBits t f m).tim = s.tim := rfl
@[simp] theorem State.fab_setBits (s : State) (t : Nat) (f : Fld) (m : Nat) : (s.setBits t f m).fab = s.fab := rfl
@[simp] theorem State.que_setBits (s : State) (t : Nat) (f : Fld) (m : Nat) : (s.setBits t f m).que = s.que := rfl
@[simp] theorem State.net_setBits (s : State) (t : Nat) (f : Fld) (m : Nat) : (s.setBits t f m).net = s.net := rfl
@[simp] theorem State.links_setBits (s : State) (t : Nat) (f : Fld) (m : Nat) : (s.setBits t f m).links = s.links := rfl
@[simp] theorem State.ports_setBits (s : State) (t : Nat) (f : Fld) (m : Nat) : (s.setBits t f m).ports = s.ports := rfl
@[simp] theorem State.prbs_setBits (s : State) (t : Nat) (f : Fld) (m : Nat) : (s.setBits t f m).prbs = s.prbs := rfl
@[simp] theorem State.path_setBits (s : State) (t : Nat) (f : Fld) (m : Nat) : (s.setBits t f m).path = s.path := rfl
@[simp] theorem State.sti_setBits (s : State) (t : Nat) (f : Fld) (m : Nat) : (s.setBits t f m).sti = s.sti := rfl
@[simp] theorem State.ref_setBits (s : State) (t : Nat) (f : Fld) (m : Nat) : (s.setBits t f m).ref = s.ref := rfl
@[simp] theorem State.sgm_setBits (s : State) (t : Nat) (f : Fld) (m : Nat) : (s.setBits t f m).sgm = s.sgm := rfl
@[simp] theorem State.eng_setBits (s : State) (t : Nat) (f : Fld) (m : Nat) : (s.setBits t f m).eng = s.eng := rfl
@[simp] theorem State.lcs_setBits (s : State) (t : Nat) (f : Fld) (m : Nat) : (s.setBits t f m).lcs = s.lcs := rfl
@[simp] theorem State.pos_setBits (s : State) (t : Nat) (f : Fld) (m : Nat) : (s.setBits t f m).pos = s.pos := rfl
@[simp] theorem State.cal_setBits (s : State) (t : Nat) (f : Fld) (m : Nat) : (s.setBits t f m).cal = s.cal := rfl
@[simp] theorem State.dma_setBits (s : State) (t : Nat) (f : Fld) (m : Nat) : (s.setBits t f m).dma = s.dma := rfl
@[simp] theorem State.cfg_setBits (s : State) (t : Nat) (f : Fld) (m : Nat) : (s.setBits t f m).cfg = s.cfg := rfl
@[simp] theorem State.pwr_setBits (s : State) (t : Nat) (f : Fld) (m : Nat) : (s.setBits t f m).pwr = s.pwr := rfl
@[simp] theorem State.fir_setBits (s : State) (t : Nat) (f : Fld) (m : Nat) : (s.setBits t f m).fir = s.fir := rfl
@[simp] theorem State.regions_setBits (s : State) (t : Nat) (f : Fld) (m : Nat) : (s.setBits t f m).regions = s.regions := rfl
@[simp] theorem State.clk_setBits (s : State) (t : Nat) (f : Fld) (m : Nat) : (s.setBits t f m).clk = s.clk := rfl
@[simp] theorem State.grids_setBits (s : State) (t : Nat) (f : Fld) (m : Nat) : (s.setBits t f m).grids = s.grids := rfl
@[simp] theorem State.led_setBits (s : State) (t : Nat) (f : Fld) (m : Nat) : (s.setBits t f m).led = s.led := rfl
@[simp] theorem State.freeCtr_setBits (s : State) (t : Nat) (f : Fld) (m : Nat) : (s.setBits t f m).freeCtr = s.freeCtr := rfl
@[simp] theorem State.pending_setBits (s : State) (t : Nat) (f : Fld) (m : Nat) : (s.setBits t f m).pending = s.pending := rfl

/-! clrF. -/

@[simp] theorem State.id_clrF (s : State) (t : Nat) (f : Fld) : (s.clrF t f).id = s.id := rfl
@[simp] theorem State.mem_clrF (s : State) (t : Nat) (f : Fld) : (s.clrF t f).mem = s.mem := rfl
@[simp] theorem State.holds_clrF (s : State) (t : Nat) (f : Fld) : (s.clrF t f).holds = s.holds := rfl
@[simp] theorem State.lowSeen_clrF (s : State) (t : Nat) (f : Fld) : (s.clrF t f).lowSeen = s.lowSeen := rfl
@[simp] theorem State.latches_clrF (s : State) (t : Nat) (f : Fld) : (s.clrF t f).latches = s.latches := rfl
@[simp] theorem State.cyc_clrF (s : State) (t : Nat) (f : Fld) : (s.clrF t f).cyc = s.cyc := rfl
@[simp] theorem State.bank_clrF (s : State) (t : Nat) (f : Fld) : (s.clrF t f).bank = s.bank := rfl
@[simp] theorem State.retiring_clrF (s : State) (t : Nat) (f : Fld) : (s.clrF t f).retiring = s.retiring := rfl
@[simp] theorem State.tim_clrF (s : State) (t : Nat) (f : Fld) : (s.clrF t f).tim = s.tim := rfl
@[simp] theorem State.fab_clrF (s : State) (t : Nat) (f : Fld) : (s.clrF t f).fab = s.fab := rfl
@[simp] theorem State.que_clrF (s : State) (t : Nat) (f : Fld) : (s.clrF t f).que = s.que := rfl
@[simp] theorem State.net_clrF (s : State) (t : Nat) (f : Fld) : (s.clrF t f).net = s.net := rfl
@[simp] theorem State.links_clrF (s : State) (t : Nat) (f : Fld) : (s.clrF t f).links = s.links := rfl
@[simp] theorem State.ports_clrF (s : State) (t : Nat) (f : Fld) : (s.clrF t f).ports = s.ports := rfl
@[simp] theorem State.prbs_clrF (s : State) (t : Nat) (f : Fld) : (s.clrF t f).prbs = s.prbs := rfl
@[simp] theorem State.path_clrF (s : State) (t : Nat) (f : Fld) : (s.clrF t f).path = s.path := rfl
@[simp] theorem State.sti_clrF (s : State) (t : Nat) (f : Fld) : (s.clrF t f).sti = s.sti := rfl
@[simp] theorem State.ref_clrF (s : State) (t : Nat) (f : Fld) : (s.clrF t f).ref = s.ref := rfl
@[simp] theorem State.sgm_clrF (s : State) (t : Nat) (f : Fld) : (s.clrF t f).sgm = s.sgm := rfl
@[simp] theorem State.eng_clrF (s : State) (t : Nat) (f : Fld) : (s.clrF t f).eng = s.eng := rfl
@[simp] theorem State.lcs_clrF (s : State) (t : Nat) (f : Fld) : (s.clrF t f).lcs = s.lcs := rfl
@[simp] theorem State.pos_clrF (s : State) (t : Nat) (f : Fld) : (s.clrF t f).pos = s.pos := rfl
@[simp] theorem State.cal_clrF (s : State) (t : Nat) (f : Fld) : (s.clrF t f).cal = s.cal := rfl
@[simp] theorem State.dma_clrF (s : State) (t : Nat) (f : Fld) : (s.clrF t f).dma = s.dma := rfl
@[simp] theorem State.cfg_clrF (s : State) (t : Nat) (f : Fld) : (s.clrF t f).cfg = s.cfg := rfl
@[simp] theorem State.pwr_clrF (s : State) (t : Nat) (f : Fld) : (s.clrF t f).pwr = s.pwr := rfl
@[simp] theorem State.fir_clrF (s : State) (t : Nat) (f : Fld) : (s.clrF t f).fir = s.fir := rfl
@[simp] theorem State.regions_clrF (s : State) (t : Nat) (f : Fld) : (s.clrF t f).regions = s.regions := rfl
@[simp] theorem State.clk_clrF (s : State) (t : Nat) (f : Fld) : (s.clrF t f).clk = s.clk := rfl
@[simp] theorem State.grids_clrF (s : State) (t : Nat) (f : Fld) : (s.clrF t f).grids = s.grids := rfl
@[simp] theorem State.led_clrF (s : State) (t : Nat) (f : Fld) : (s.clrF t f).led = s.led := rfl
@[simp] theorem State.freeCtr_clrF (s : State) (t : Nat) (f : Fld) : (s.clrF t f).freeCtr = s.freeCtr := rfl
@[simp] theorem State.pending_clrF (s : State) (t : Nat) (f : Fld) : (s.clrF t f).pending = s.pending := rfl

/-! setIf. -/

@[simp] theorem State.id_setIf (s : State) (c : Bool) (t : Nat) (f : Fld) : (s.setIf c t f).id = s.id := by unfold State.setIf; split <;> rfl
@[simp] theorem State.mem_setIf (s : State) (c : Bool) (t : Nat) (f : Fld) : (s.setIf c t f).mem = s.mem := by unfold State.setIf; split <;> rfl
@[simp] theorem State.holds_setIf (s : State) (c : Bool) (t : Nat) (f : Fld) : (s.setIf c t f).holds = s.holds := by unfold State.setIf; split <;> rfl
@[simp] theorem State.lowSeen_setIf (s : State) (c : Bool) (t : Nat) (f : Fld) : (s.setIf c t f).lowSeen = s.lowSeen := by unfold State.setIf; split <;> rfl
@[simp] theorem State.latches_setIf (s : State) (c : Bool) (t : Nat) (f : Fld) : (s.setIf c t f).latches = s.latches := by unfold State.setIf; split <;> rfl
@[simp] theorem State.bank_setIf (s : State) (c : Bool) (t : Nat) (f : Fld) : (s.setIf c t f).bank = s.bank := by unfold State.setIf; split <;> rfl
@[simp] theorem State.retiring_setIf (s : State) (c : Bool) (t : Nat) (f : Fld) : (s.setIf c t f).retiring = s.retiring := by unfold State.setIf; split <;> rfl
@[simp] theorem State.tim_setIf (s : State) (c : Bool) (t : Nat) (f : Fld) : (s.setIf c t f).tim = s.tim := by unfold State.setIf; split <;> rfl
@[simp] theorem State.fab_setIf (s : State) (c : Bool) (t : Nat) (f : Fld) : (s.setIf c t f).fab = s.fab := by unfold State.setIf; split <;> rfl
@[simp] theorem State.que_setIf (s : State) (c : Bool) (t : Nat) (f : Fld) : (s.setIf c t f).que = s.que := by unfold State.setIf; split <;> rfl
@[simp] theorem State.net_setIf (s : State) (c : Bool) (t : Nat) (f : Fld) : (s.setIf c t f).net = s.net := by unfold State.setIf; split <;> rfl
@[simp] theorem State.links_setIf (s : State) (c : Bool) (t : Nat) (f : Fld) : (s.setIf c t f).links = s.links := by unfold State.setIf; split <;> rfl
@[simp] theorem State.ports_setIf (s : State) (c : Bool) (t : Nat) (f : Fld) : (s.setIf c t f).ports = s.ports := by unfold State.setIf; split <;> rfl
@[simp] theorem State.prbs_setIf (s : State) (c : Bool) (t : Nat) (f : Fld) : (s.setIf c t f).prbs = s.prbs := by unfold State.setIf; split <;> rfl
@[simp] theorem State.path_setIf (s : State) (c : Bool) (t : Nat) (f : Fld) : (s.setIf c t f).path = s.path := by unfold State.setIf; split <;> rfl
@[simp] theorem State.sti_setIf (s : State) (c : Bool) (t : Nat) (f : Fld) : (s.setIf c t f).sti = s.sti := by unfold State.setIf; split <;> rfl
@[simp] theorem State.ref_setIf (s : State) (c : Bool) (t : Nat) (f : Fld) : (s.setIf c t f).ref = s.ref := by unfold State.setIf; split <;> rfl
@[simp] theorem State.sgm_setIf (s : State) (c : Bool) (t : Nat) (f : Fld) : (s.setIf c t f).sgm = s.sgm := by unfold State.setIf; split <;> rfl
@[simp] theorem State.eng_setIf (s : State) (c : Bool) (t : Nat) (f : Fld) : (s.setIf c t f).eng = s.eng := by unfold State.setIf; split <;> rfl
@[simp] theorem State.lcs_setIf (s : State) (c : Bool) (t : Nat) (f : Fld) : (s.setIf c t f).lcs = s.lcs := by unfold State.setIf; split <;> rfl
@[simp] theorem State.pos_setIf (s : State) (c : Bool) (t : Nat) (f : Fld) : (s.setIf c t f).pos = s.pos := by unfold State.setIf; split <;> rfl
@[simp] theorem State.cal_setIf (s : State) (c : Bool) (t : Nat) (f : Fld) : (s.setIf c t f).cal = s.cal := by unfold State.setIf; split <;> rfl
@[simp] theorem State.dma_setIf (s : State) (c : Bool) (t : Nat) (f : Fld) : (s.setIf c t f).dma = s.dma := by unfold State.setIf; split <;> rfl
@[simp] theorem State.cfg_setIf (s : State) (c : Bool) (t : Nat) (f : Fld) : (s.setIf c t f).cfg = s.cfg := by unfold State.setIf; split <;> rfl
@[simp] theorem State.pwr_setIf (s : State) (c : Bool) (t : Nat) (f : Fld) : (s.setIf c t f).pwr = s.pwr := by unfold State.setIf; split <;> rfl
@[simp] theorem State.fir_setIf (s : State) (c : Bool) (t : Nat) (f : Fld) : (s.setIf c t f).fir = s.fir := by unfold State.setIf; split <;> rfl
@[simp] theorem State.regions_setIf (s : State) (c : Bool) (t : Nat) (f : Fld) : (s.setIf c t f).regions = s.regions := by unfold State.setIf; split <;> rfl
@[simp] theorem State.clk_setIf (s : State) (c : Bool) (t : Nat) (f : Fld) : (s.setIf c t f).clk = s.clk := by unfold State.setIf; split <;> rfl
@[simp] theorem State.grids_setIf (s : State) (c : Bool) (t : Nat) (f : Fld) : (s.setIf c t f).grids = s.grids := by unfold State.setIf; split <;> rfl
@[simp] theorem State.led_setIf (s : State) (c : Bool) (t : Nat) (f : Fld) : (s.setIf c t f).led = s.led := by unfold State.setIf; split <;> rfl
@[simp] theorem State.freeCtr_setIf (s : State) (c : Bool) (t : Nat) (f : Fld) : (s.setIf c t f).freeCtr = s.freeCtr := by unfold State.setIf; split <;> rfl
@[simp] theorem State.pending_setIf (s : State) (c : Bool) (t : Nat) (f : Fld) : (s.setIf c t f).pending = s.pending := by unfold State.setIf; split <;> rfl

/-! addSat. -/

@[simp] theorem State.id_addSat (s : State) (t : Nat) (f : Fld) (n : Nat) : (s.addSat t f n).id = s.id := rfl
@[simp] theorem State.mem_addSat (s : State) (t : Nat) (f : Fld) (n : Nat) : (s.addSat t f n).mem = s.mem := rfl
@[simp] theorem State.holds_addSat (s : State) (t : Nat) (f : Fld) (n : Nat) : (s.addSat t f n).holds = s.holds := rfl
@[simp] theorem State.lowSeen_addSat (s : State) (t : Nat) (f : Fld) (n : Nat) : (s.addSat t f n).lowSeen = s.lowSeen := rfl
@[simp] theorem State.latches_addSat (s : State) (t : Nat) (f : Fld) (n : Nat) : (s.addSat t f n).latches = s.latches := rfl
@[simp] theorem State.cyc_addSat (s : State) (t : Nat) (f : Fld) (n : Nat) : (s.addSat t f n).cyc = s.cyc := rfl
@[simp] theorem State.bank_addSat (s : State) (t : Nat) (f : Fld) (n : Nat) : (s.addSat t f n).bank = s.bank := rfl
@[simp] theorem State.retiring_addSat (s : State) (t : Nat) (f : Fld) (n : Nat) : (s.addSat t f n).retiring = s.retiring := rfl
@[simp] theorem State.tim_addSat (s : State) (t : Nat) (f : Fld) (n : Nat) : (s.addSat t f n).tim = s.tim := rfl
@[simp] theorem State.fab_addSat (s : State) (t : Nat) (f : Fld) (n : Nat) : (s.addSat t f n).fab = s.fab := rfl
@[simp] theorem State.que_addSat (s : State) (t : Nat) (f : Fld) (n : Nat) : (s.addSat t f n).que = s.que := rfl
@[simp] theorem State.net_addSat (s : State) (t : Nat) (f : Fld) (n : Nat) : (s.addSat t f n).net = s.net := rfl
@[simp] theorem State.links_addSat (s : State) (t : Nat) (f : Fld) (n : Nat) : (s.addSat t f n).links = s.links := rfl
@[simp] theorem State.ports_addSat (s : State) (t : Nat) (f : Fld) (n : Nat) : (s.addSat t f n).ports = s.ports := rfl
@[simp] theorem State.prbs_addSat (s : State) (t : Nat) (f : Fld) (n : Nat) : (s.addSat t f n).prbs = s.prbs := rfl
@[simp] theorem State.path_addSat (s : State) (t : Nat) (f : Fld) (n : Nat) : (s.addSat t f n).path = s.path := rfl
@[simp] theorem State.sti_addSat (s : State) (t : Nat) (f : Fld) (n : Nat) : (s.addSat t f n).sti = s.sti := rfl
@[simp] theorem State.ref_addSat (s : State) (t : Nat) (f : Fld) (n : Nat) : (s.addSat t f n).ref = s.ref := rfl
@[simp] theorem State.sgm_addSat (s : State) (t : Nat) (f : Fld) (n : Nat) : (s.addSat t f n).sgm = s.sgm := rfl
@[simp] theorem State.eng_addSat (s : State) (t : Nat) (f : Fld) (n : Nat) : (s.addSat t f n).eng = s.eng := rfl
@[simp] theorem State.lcs_addSat (s : State) (t : Nat) (f : Fld) (n : Nat) : (s.addSat t f n).lcs = s.lcs := rfl
@[simp] theorem State.pos_addSat (s : State) (t : Nat) (f : Fld) (n : Nat) : (s.addSat t f n).pos = s.pos := rfl
@[simp] theorem State.cal_addSat (s : State) (t : Nat) (f : Fld) (n : Nat) : (s.addSat t f n).cal = s.cal := rfl
@[simp] theorem State.dma_addSat (s : State) (t : Nat) (f : Fld) (n : Nat) : (s.addSat t f n).dma = s.dma := rfl
@[simp] theorem State.cfg_addSat (s : State) (t : Nat) (f : Fld) (n : Nat) : (s.addSat t f n).cfg = s.cfg := rfl
@[simp] theorem State.pwr_addSat (s : State) (t : Nat) (f : Fld) (n : Nat) : (s.addSat t f n).pwr = s.pwr := rfl
@[simp] theorem State.fir_addSat (s : State) (t : Nat) (f : Fld) (n : Nat) : (s.addSat t f n).fir = s.fir := rfl
@[simp] theorem State.regions_addSat (s : State) (t : Nat) (f : Fld) (n : Nat) : (s.addSat t f n).regions = s.regions := rfl
@[simp] theorem State.clk_addSat (s : State) (t : Nat) (f : Fld) (n : Nat) : (s.addSat t f n).clk = s.clk := rfl
@[simp] theorem State.grids_addSat (s : State) (t : Nat) (f : Fld) (n : Nat) : (s.addSat t f n).grids = s.grids := rfl
@[simp] theorem State.led_addSat (s : State) (t : Nat) (f : Fld) (n : Nat) : (s.addSat t f n).led = s.led := rfl
@[simp] theorem State.freeCtr_addSat (s : State) (t : Nat) (f : Fld) (n : Nat) : (s.addSat t f n).freeCtr = s.freeCtr := rfl
@[simp] theorem State.pending_addSat (s : State) (t : Nat) (f : Fld) (n : Nat) : (s.addSat t f n).pending = s.pending := rfl

/-! addWrap. -/

@[simp] theorem State.id_addWrap (s : State) (t : Nat) (f : Fld) (n : Nat) : (s.addWrap t f n).id = s.id := rfl
@[simp] theorem State.mem_addWrap (s : State) (t : Nat) (f : Fld) (n : Nat) : (s.addWrap t f n).mem = s.mem := rfl
@[simp] theorem State.holds_addWrap (s : State) (t : Nat) (f : Fld) (n : Nat) : (s.addWrap t f n).holds = s.holds := rfl
@[simp] theorem State.lowSeen_addWrap (s : State) (t : Nat) (f : Fld) (n : Nat) : (s.addWrap t f n).lowSeen = s.lowSeen := rfl
@[simp] theorem State.latches_addWrap (s : State) (t : Nat) (f : Fld) (n : Nat) : (s.addWrap t f n).latches = s.latches := rfl
@[simp] theorem State.cyc_addWrap (s : State) (t : Nat) (f : Fld) (n : Nat) : (s.addWrap t f n).cyc = s.cyc := rfl
@[simp] theorem State.bank_addWrap (s : State) (t : Nat) (f : Fld) (n : Nat) : (s.addWrap t f n).bank = s.bank := rfl
@[simp] theorem State.retiring_addWrap (s : State) (t : Nat) (f : Fld) (n : Nat) : (s.addWrap t f n).retiring = s.retiring := rfl
@[simp] theorem State.tim_addWrap (s : State) (t : Nat) (f : Fld) (n : Nat) : (s.addWrap t f n).tim = s.tim := rfl
@[simp] theorem State.fab_addWrap (s : State) (t : Nat) (f : Fld) (n : Nat) : (s.addWrap t f n).fab = s.fab := rfl
@[simp] theorem State.que_addWrap (s : State) (t : Nat) (f : Fld) (n : Nat) : (s.addWrap t f n).que = s.que := rfl
@[simp] theorem State.net_addWrap (s : State) (t : Nat) (f : Fld) (n : Nat) : (s.addWrap t f n).net = s.net := rfl
@[simp] theorem State.links_addWrap (s : State) (t : Nat) (f : Fld) (n : Nat) : (s.addWrap t f n).links = s.links := rfl
@[simp] theorem State.ports_addWrap (s : State) (t : Nat) (f : Fld) (n : Nat) : (s.addWrap t f n).ports = s.ports := rfl
@[simp] theorem State.prbs_addWrap (s : State) (t : Nat) (f : Fld) (n : Nat) : (s.addWrap t f n).prbs = s.prbs := rfl
@[simp] theorem State.path_addWrap (s : State) (t : Nat) (f : Fld) (n : Nat) : (s.addWrap t f n).path = s.path := rfl
@[simp] theorem State.sti_addWrap (s : State) (t : Nat) (f : Fld) (n : Nat) : (s.addWrap t f n).sti = s.sti := rfl
@[simp] theorem State.ref_addWrap (s : State) (t : Nat) (f : Fld) (n : Nat) : (s.addWrap t f n).ref = s.ref := rfl
@[simp] theorem State.sgm_addWrap (s : State) (t : Nat) (f : Fld) (n : Nat) : (s.addWrap t f n).sgm = s.sgm := rfl
@[simp] theorem State.eng_addWrap (s : State) (t : Nat) (f : Fld) (n : Nat) : (s.addWrap t f n).eng = s.eng := rfl
@[simp] theorem State.lcs_addWrap (s : State) (t : Nat) (f : Fld) (n : Nat) : (s.addWrap t f n).lcs = s.lcs := rfl
@[simp] theorem State.pos_addWrap (s : State) (t : Nat) (f : Fld) (n : Nat) : (s.addWrap t f n).pos = s.pos := rfl
@[simp] theorem State.cal_addWrap (s : State) (t : Nat) (f : Fld) (n : Nat) : (s.addWrap t f n).cal = s.cal := rfl
@[simp] theorem State.dma_addWrap (s : State) (t : Nat) (f : Fld) (n : Nat) : (s.addWrap t f n).dma = s.dma := rfl
@[simp] theorem State.cfg_addWrap (s : State) (t : Nat) (f : Fld) (n : Nat) : (s.addWrap t f n).cfg = s.cfg := rfl
@[simp] theorem State.pwr_addWrap (s : State) (t : Nat) (f : Fld) (n : Nat) : (s.addWrap t f n).pwr = s.pwr := rfl
@[simp] theorem State.fir_addWrap (s : State) (t : Nat) (f : Fld) (n : Nat) : (s.addWrap t f n).fir = s.fir := rfl
@[simp] theorem State.regions_addWrap (s : State) (t : Nat) (f : Fld) (n : Nat) : (s.addWrap t f n).regions = s.regions := rfl
@[simp] theorem State.clk_addWrap (s : State) (t : Nat) (f : Fld) (n : Nat) : (s.addWrap t f n).clk = s.clk := rfl
@[simp] theorem State.grids_addWrap (s : State) (t : Nat) (f : Fld) (n : Nat) : (s.addWrap t f n).grids = s.grids := rfl
@[simp] theorem State.led_addWrap (s : State) (t : Nat) (f : Fld) (n : Nat) : (s.addWrap t f n).led = s.led := rfl
@[simp] theorem State.freeCtr_addWrap (s : State) (t : Nat) (f : Fld) (n : Nat) : (s.addWrap t f n).freeCtr = s.freeCtr := rfl
@[simp] theorem State.pending_addWrap (s : State) (t : Nat) (f : Fld) (n : Nat) : (s.addWrap t f n).pending = s.pending := rfl

/-! wr64. -/

@[simp] theorem State.id_wr64 (s : State) (t : Nat) (f : Fld) (v : Nat) : (s.wr64 t f v).id = s.id := rfl
@[simp] theorem State.mem_wr64 (s : State) (t : Nat) (f : Fld) (v : Nat) : (s.wr64 t f v).mem = s.mem := rfl
@[simp] theorem State.holds_wr64 (s : State) (t : Nat) (f : Fld) (v : Nat) : (s.wr64 t f v).holds = s.holds := rfl
@[simp] theorem State.lowSeen_wr64 (s : State) (t : Nat) (f : Fld) (v : Nat) : (s.wr64 t f v).lowSeen = s.lowSeen := rfl
@[simp] theorem State.latches_wr64 (s : State) (t : Nat) (f : Fld) (v : Nat) : (s.wr64 t f v).latches = s.latches := rfl
@[simp] theorem State.cyc_wr64 (s : State) (t : Nat) (f : Fld) (v : Nat) : (s.wr64 t f v).cyc = s.cyc := rfl
@[simp] theorem State.bank_wr64 (s : State) (t : Nat) (f : Fld) (v : Nat) : (s.wr64 t f v).bank = s.bank := rfl
@[simp] theorem State.retiring_wr64 (s : State) (t : Nat) (f : Fld) (v : Nat) : (s.wr64 t f v).retiring = s.retiring := rfl
@[simp] theorem State.tim_wr64 (s : State) (t : Nat) (f : Fld) (v : Nat) : (s.wr64 t f v).tim = s.tim := rfl
@[simp] theorem State.fab_wr64 (s : State) (t : Nat) (f : Fld) (v : Nat) : (s.wr64 t f v).fab = s.fab := rfl
@[simp] theorem State.que_wr64 (s : State) (t : Nat) (f : Fld) (v : Nat) : (s.wr64 t f v).que = s.que := rfl
@[simp] theorem State.net_wr64 (s : State) (t : Nat) (f : Fld) (v : Nat) : (s.wr64 t f v).net = s.net := rfl
@[simp] theorem State.links_wr64 (s : State) (t : Nat) (f : Fld) (v : Nat) : (s.wr64 t f v).links = s.links := rfl
@[simp] theorem State.ports_wr64 (s : State) (t : Nat) (f : Fld) (v : Nat) : (s.wr64 t f v).ports = s.ports := rfl
@[simp] theorem State.prbs_wr64 (s : State) (t : Nat) (f : Fld) (v : Nat) : (s.wr64 t f v).prbs = s.prbs := rfl
@[simp] theorem State.path_wr64 (s : State) (t : Nat) (f : Fld) (v : Nat) : (s.wr64 t f v).path = s.path := rfl
@[simp] theorem State.sti_wr64 (s : State) (t : Nat) (f : Fld) (v : Nat) : (s.wr64 t f v).sti = s.sti := rfl
@[simp] theorem State.ref_wr64 (s : State) (t : Nat) (f : Fld) (v : Nat) : (s.wr64 t f v).ref = s.ref := rfl
@[simp] theorem State.sgm_wr64 (s : State) (t : Nat) (f : Fld) (v : Nat) : (s.wr64 t f v).sgm = s.sgm := rfl
@[simp] theorem State.eng_wr64 (s : State) (t : Nat) (f : Fld) (v : Nat) : (s.wr64 t f v).eng = s.eng := rfl
@[simp] theorem State.lcs_wr64 (s : State) (t : Nat) (f : Fld) (v : Nat) : (s.wr64 t f v).lcs = s.lcs := rfl
@[simp] theorem State.pos_wr64 (s : State) (t : Nat) (f : Fld) (v : Nat) : (s.wr64 t f v).pos = s.pos := rfl
@[simp] theorem State.cal_wr64 (s : State) (t : Nat) (f : Fld) (v : Nat) : (s.wr64 t f v).cal = s.cal := rfl
@[simp] theorem State.dma_wr64 (s : State) (t : Nat) (f : Fld) (v : Nat) : (s.wr64 t f v).dma = s.dma := rfl
@[simp] theorem State.cfg_wr64 (s : State) (t : Nat) (f : Fld) (v : Nat) : (s.wr64 t f v).cfg = s.cfg := rfl
@[simp] theorem State.pwr_wr64 (s : State) (t : Nat) (f : Fld) (v : Nat) : (s.wr64 t f v).pwr = s.pwr := rfl
@[simp] theorem State.fir_wr64 (s : State) (t : Nat) (f : Fld) (v : Nat) : (s.wr64 t f v).fir = s.fir := rfl
@[simp] theorem State.regions_wr64 (s : State) (t : Nat) (f : Fld) (v : Nat) : (s.wr64 t f v).regions = s.regions := rfl
@[simp] theorem State.clk_wr64 (s : State) (t : Nat) (f : Fld) (v : Nat) : (s.wr64 t f v).clk = s.clk := rfl
@[simp] theorem State.grids_wr64 (s : State) (t : Nat) (f : Fld) (v : Nat) : (s.wr64 t f v).grids = s.grids := rfl
@[simp] theorem State.led_wr64 (s : State) (t : Nat) (f : Fld) (v : Nat) : (s.wr64 t f v).led = s.led := rfl
@[simp] theorem State.freeCtr_wr64 (s : State) (t : Nat) (f : Fld) (v : Nat) : (s.wr64 t f v).freeCtr = s.freeCtr := rfl
@[simp] theorem State.pending_wr64 (s : State) (t : Nat) (f : Fld) (v : Nat) : (s.wr64 t f v).pending = s.pending := rfl

/-! clrCount. -/

@[simp] theorem State.id_clrCount (s : State) (t : Nat) (f : Fld) : (s.clrCount t f).id = s.id := by unfold State.clrCount; rw [State.id_wr]
@[simp] theorem State.mem_clrCount (s : State) (t : Nat) (f : Fld) : (s.clrCount t f).mem = s.mem := by unfold State.clrCount; rw [State.mem_wr]
@[simp] theorem State.holds_clrCount (s : State) (t : Nat) (f : Fld) : (s.clrCount t f).holds = s.holds := by unfold State.clrCount; rw [State.holds_wr]
@[simp] theorem State.lowSeen_clrCount (s : State) (t : Nat) (f : Fld) : (s.clrCount t f).lowSeen = s.lowSeen := by unfold State.clrCount; rw [State.lowSeen_wr]
@[simp] theorem State.latches_clrCount (s : State) (t : Nat) (f : Fld) : (s.clrCount t f).latches = s.latches := by unfold State.clrCount; rw [State.latches_wr]
@[simp] theorem State.bank_clrCount (s : State) (t : Nat) (f : Fld) : (s.clrCount t f).bank = s.bank := by unfold State.clrCount; rw [State.bank_wr]
@[simp] theorem State.retiring_clrCount (s : State) (t : Nat) (f : Fld) : (s.clrCount t f).retiring = s.retiring := by unfold State.clrCount; rw [State.retiring_wr]
@[simp] theorem State.tim_clrCount (s : State) (t : Nat) (f : Fld) : (s.clrCount t f).tim = s.tim := by unfold State.clrCount; rw [State.tim_wr]
@[simp] theorem State.fab_clrCount (s : State) (t : Nat) (f : Fld) : (s.clrCount t f).fab = s.fab := by unfold State.clrCount; rw [State.fab_wr]
@[simp] theorem State.que_clrCount (s : State) (t : Nat) (f : Fld) : (s.clrCount t f).que = s.que := by unfold State.clrCount; rw [State.que_wr]
@[simp] theorem State.net_clrCount (s : State) (t : Nat) (f : Fld) : (s.clrCount t f).net = s.net := by unfold State.clrCount; rw [State.net_wr]
@[simp] theorem State.links_clrCount (s : State) (t : Nat) (f : Fld) : (s.clrCount t f).links = s.links := by unfold State.clrCount; rw [State.links_wr]
@[simp] theorem State.ports_clrCount (s : State) (t : Nat) (f : Fld) : (s.clrCount t f).ports = s.ports := by unfold State.clrCount; rw [State.ports_wr]
@[simp] theorem State.prbs_clrCount (s : State) (t : Nat) (f : Fld) : (s.clrCount t f).prbs = s.prbs := by unfold State.clrCount; rw [State.prbs_wr]
@[simp] theorem State.path_clrCount (s : State) (t : Nat) (f : Fld) : (s.clrCount t f).path = s.path := by unfold State.clrCount; rw [State.path_wr]
@[simp] theorem State.sti_clrCount (s : State) (t : Nat) (f : Fld) : (s.clrCount t f).sti = s.sti := by unfold State.clrCount; rw [State.sti_wr]
@[simp] theorem State.ref_clrCount (s : State) (t : Nat) (f : Fld) : (s.clrCount t f).ref = s.ref := by unfold State.clrCount; rw [State.ref_wr]
@[simp] theorem State.sgm_clrCount (s : State) (t : Nat) (f : Fld) : (s.clrCount t f).sgm = s.sgm := by unfold State.clrCount; rw [State.sgm_wr]
@[simp] theorem State.eng_clrCount (s : State) (t : Nat) (f : Fld) : (s.clrCount t f).eng = s.eng := by unfold State.clrCount; rw [State.eng_wr]
@[simp] theorem State.lcs_clrCount (s : State) (t : Nat) (f : Fld) : (s.clrCount t f).lcs = s.lcs := by unfold State.clrCount; rw [State.lcs_wr]
@[simp] theorem State.pos_clrCount (s : State) (t : Nat) (f : Fld) : (s.clrCount t f).pos = s.pos := by unfold State.clrCount; rw [State.pos_wr]
@[simp] theorem State.cal_clrCount (s : State) (t : Nat) (f : Fld) : (s.clrCount t f).cal = s.cal := by unfold State.clrCount; rw [State.cal_wr]
@[simp] theorem State.dma_clrCount (s : State) (t : Nat) (f : Fld) : (s.clrCount t f).dma = s.dma := by unfold State.clrCount; rw [State.dma_wr]
@[simp] theorem State.cfg_clrCount (s : State) (t : Nat) (f : Fld) : (s.clrCount t f).cfg = s.cfg := by unfold State.clrCount; rw [State.cfg_wr]
@[simp] theorem State.pwr_clrCount (s : State) (t : Nat) (f : Fld) : (s.clrCount t f).pwr = s.pwr := by unfold State.clrCount; rw [State.pwr_wr]
@[simp] theorem State.fir_clrCount (s : State) (t : Nat) (f : Fld) : (s.clrCount t f).fir = s.fir := by unfold State.clrCount; rw [State.fir_wr]
@[simp] theorem State.regions_clrCount (s : State) (t : Nat) (f : Fld) : (s.clrCount t f).regions = s.regions := by unfold State.clrCount; rw [State.regions_wr]
@[simp] theorem State.clk_clrCount (s : State) (t : Nat) (f : Fld) : (s.clrCount t f).clk = s.clk := by unfold State.clrCount; rw [State.clk_wr]
@[simp] theorem State.grids_clrCount (s : State) (t : Nat) (f : Fld) : (s.clrCount t f).grids = s.grids := by unfold State.clrCount; rw [State.grids_wr]
@[simp] theorem State.led_clrCount (s : State) (t : Nat) (f : Fld) : (s.clrCount t f).led = s.led := by unfold State.clrCount; rw [State.led_wr]
@[simp] theorem State.freeCtr_clrCount (s : State) (t : Nat) (f : Fld) : (s.clrCount t f).freeCtr = s.freeCtr := by unfold State.clrCount; rw [State.freeCtr_wr]
@[simp] theorem State.pending_clrCount (s : State) (t : Nat) (f : Fld) : (s.clrCount t f).pending = s.pending := by unfold State.clrCount; rw [State.pending_wr]

/-! clrCount64. -/

@[simp] theorem State.id_clrCount64 (s : State) (t : Nat) (f : Fld) : (s.clrCount64 t f).id = s.id := by unfold State.clrCount64; rw [State.id_wr64]
@[simp] theorem State.mem_clrCount64 (s : State) (t : Nat) (f : Fld) : (s.clrCount64 t f).mem = s.mem := by unfold State.clrCount64; rw [State.mem_wr64]
@[simp] theorem State.holds_clrCount64 (s : State) (t : Nat) (f : Fld) : (s.clrCount64 t f).holds = s.holds := by unfold State.clrCount64; rw [State.holds_wr64]
@[simp] theorem State.lowSeen_clrCount64 (s : State) (t : Nat) (f : Fld) : (s.clrCount64 t f).lowSeen = s.lowSeen := by unfold State.clrCount64; rw [State.lowSeen_wr64]
@[simp] theorem State.latches_clrCount64 (s : State) (t : Nat) (f : Fld) : (s.clrCount64 t f).latches = s.latches := by unfold State.clrCount64; rw [State.latches_wr64]
@[simp] theorem State.bank_clrCount64 (s : State) (t : Nat) (f : Fld) : (s.clrCount64 t f).bank = s.bank := by unfold State.clrCount64; rw [State.bank_wr64]
@[simp] theorem State.retiring_clrCount64 (s : State) (t : Nat) (f : Fld) : (s.clrCount64 t f).retiring = s.retiring := by unfold State.clrCount64; rw [State.retiring_wr64]
@[simp] theorem State.tim_clrCount64 (s : State) (t : Nat) (f : Fld) : (s.clrCount64 t f).tim = s.tim := by unfold State.clrCount64; rw [State.tim_wr64]
@[simp] theorem State.fab_clrCount64 (s : State) (t : Nat) (f : Fld) : (s.clrCount64 t f).fab = s.fab := by unfold State.clrCount64; rw [State.fab_wr64]
@[simp] theorem State.que_clrCount64 (s : State) (t : Nat) (f : Fld) : (s.clrCount64 t f).que = s.que := by unfold State.clrCount64; rw [State.que_wr64]
@[simp] theorem State.net_clrCount64 (s : State) (t : Nat) (f : Fld) : (s.clrCount64 t f).net = s.net := by unfold State.clrCount64; rw [State.net_wr64]
@[simp] theorem State.links_clrCount64 (s : State) (t : Nat) (f : Fld) : (s.clrCount64 t f).links = s.links := by unfold State.clrCount64; rw [State.links_wr64]
@[simp] theorem State.ports_clrCount64 (s : State) (t : Nat) (f : Fld) : (s.clrCount64 t f).ports = s.ports := by unfold State.clrCount64; rw [State.ports_wr64]
@[simp] theorem State.prbs_clrCount64 (s : State) (t : Nat) (f : Fld) : (s.clrCount64 t f).prbs = s.prbs := by unfold State.clrCount64; rw [State.prbs_wr64]
@[simp] theorem State.path_clrCount64 (s : State) (t : Nat) (f : Fld) : (s.clrCount64 t f).path = s.path := by unfold State.clrCount64; rw [State.path_wr64]
@[simp] theorem State.sti_clrCount64 (s : State) (t : Nat) (f : Fld) : (s.clrCount64 t f).sti = s.sti := by unfold State.clrCount64; rw [State.sti_wr64]
@[simp] theorem State.ref_clrCount64 (s : State) (t : Nat) (f : Fld) : (s.clrCount64 t f).ref = s.ref := by unfold State.clrCount64; rw [State.ref_wr64]
@[simp] theorem State.sgm_clrCount64 (s : State) (t : Nat) (f : Fld) : (s.clrCount64 t f).sgm = s.sgm := by unfold State.clrCount64; rw [State.sgm_wr64]
@[simp] theorem State.eng_clrCount64 (s : State) (t : Nat) (f : Fld) : (s.clrCount64 t f).eng = s.eng := by unfold State.clrCount64; rw [State.eng_wr64]
@[simp] theorem State.lcs_clrCount64 (s : State) (t : Nat) (f : Fld) : (s.clrCount64 t f).lcs = s.lcs := by unfold State.clrCount64; rw [State.lcs_wr64]
@[simp] theorem State.pos_clrCount64 (s : State) (t : Nat) (f : Fld) : (s.clrCount64 t f).pos = s.pos := by unfold State.clrCount64; rw [State.pos_wr64]
@[simp] theorem State.cal_clrCount64 (s : State) (t : Nat) (f : Fld) : (s.clrCount64 t f).cal = s.cal := by unfold State.clrCount64; rw [State.cal_wr64]
@[simp] theorem State.dma_clrCount64 (s : State) (t : Nat) (f : Fld) : (s.clrCount64 t f).dma = s.dma := by unfold State.clrCount64; rw [State.dma_wr64]
@[simp] theorem State.cfg_clrCount64 (s : State) (t : Nat) (f : Fld) : (s.clrCount64 t f).cfg = s.cfg := by unfold State.clrCount64; rw [State.cfg_wr64]
@[simp] theorem State.pwr_clrCount64 (s : State) (t : Nat) (f : Fld) : (s.clrCount64 t f).pwr = s.pwr := by unfold State.clrCount64; rw [State.pwr_wr64]
@[simp] theorem State.fir_clrCount64 (s : State) (t : Nat) (f : Fld) : (s.clrCount64 t f).fir = s.fir := by unfold State.clrCount64; rw [State.fir_wr64]
@[simp] theorem State.regions_clrCount64 (s : State) (t : Nat) (f : Fld) : (s.clrCount64 t f).regions = s.regions := by unfold State.clrCount64; rw [State.regions_wr64]
@[simp] theorem State.clk_clrCount64 (s : State) (t : Nat) (f : Fld) : (s.clrCount64 t f).clk = s.clk := by unfold State.clrCount64; rw [State.clk_wr64]
@[simp] theorem State.grids_clrCount64 (s : State) (t : Nat) (f : Fld) : (s.clrCount64 t f).grids = s.grids := by unfold State.clrCount64; rw [State.grids_wr64]
@[simp] theorem State.led_clrCount64 (s : State) (t : Nat) (f : Fld) : (s.clrCount64 t f).led = s.led := by unfold State.clrCount64; rw [State.led_wr64]
@[simp] theorem State.freeCtr_clrCount64 (s : State) (t : Nat) (f : Fld) : (s.clrCount64 t f).freeCtr = s.freeCtr := by unfold State.clrCount64; rw [State.freeCtr_wr64]
@[simp] theorem State.pending_clrCount64 (s : State) (t : Nat) (f : Fld) : (s.clrCount64 t f).pending = s.pending := by unfold State.clrCount64; rw [State.pending_wr64]

/-! add64. -/

@[simp] theorem State.id_add64 (s : State) (t : Nat) (f : Fld) (n : Nat) : (s.add64 t f n).id = s.id := rfl
@[simp] theorem State.mem_add64 (s : State) (t : Nat) (f : Fld) (n : Nat) : (s.add64 t f n).mem = s.mem := rfl
@[simp] theorem State.holds_add64 (s : State) (t : Nat) (f : Fld) (n : Nat) : (s.add64 t f n).holds = s.holds := rfl
@[simp] theorem State.lowSeen_add64 (s : State) (t : Nat) (f : Fld) (n : Nat) : (s.add64 t f n).lowSeen = s.lowSeen := rfl
@[simp] theorem State.latches_add64 (s : State) (t : Nat) (f : Fld) (n : Nat) : (s.add64 t f n).latches = s.latches := rfl
@[simp] theorem State.cyc_add64 (s : State) (t : Nat) (f : Fld) (n : Nat) : (s.add64 t f n).cyc = s.cyc := rfl
@[simp] theorem State.bank_add64 (s : State) (t : Nat) (f : Fld) (n : Nat) : (s.add64 t f n).bank = s.bank := rfl
@[simp] theorem State.retiring_add64 (s : State) (t : Nat) (f : Fld) (n : Nat) : (s.add64 t f n).retiring = s.retiring := rfl
@[simp] theorem State.tim_add64 (s : State) (t : Nat) (f : Fld) (n : Nat) : (s.add64 t f n).tim = s.tim := rfl
@[simp] theorem State.fab_add64 (s : State) (t : Nat) (f : Fld) (n : Nat) : (s.add64 t f n).fab = s.fab := rfl
@[simp] theorem State.que_add64 (s : State) (t : Nat) (f : Fld) (n : Nat) : (s.add64 t f n).que = s.que := rfl
@[simp] theorem State.net_add64 (s : State) (t : Nat) (f : Fld) (n : Nat) : (s.add64 t f n).net = s.net := rfl
@[simp] theorem State.links_add64 (s : State) (t : Nat) (f : Fld) (n : Nat) : (s.add64 t f n).links = s.links := rfl
@[simp] theorem State.ports_add64 (s : State) (t : Nat) (f : Fld) (n : Nat) : (s.add64 t f n).ports = s.ports := rfl
@[simp] theorem State.prbs_add64 (s : State) (t : Nat) (f : Fld) (n : Nat) : (s.add64 t f n).prbs = s.prbs := rfl
@[simp] theorem State.path_add64 (s : State) (t : Nat) (f : Fld) (n : Nat) : (s.add64 t f n).path = s.path := rfl
@[simp] theorem State.sti_add64 (s : State) (t : Nat) (f : Fld) (n : Nat) : (s.add64 t f n).sti = s.sti := rfl
@[simp] theorem State.ref_add64 (s : State) (t : Nat) (f : Fld) (n : Nat) : (s.add64 t f n).ref = s.ref := rfl
@[simp] theorem State.sgm_add64 (s : State) (t : Nat) (f : Fld) (n : Nat) : (s.add64 t f n).sgm = s.sgm := rfl
@[simp] theorem State.eng_add64 (s : State) (t : Nat) (f : Fld) (n : Nat) : (s.add64 t f n).eng = s.eng := rfl
@[simp] theorem State.lcs_add64 (s : State) (t : Nat) (f : Fld) (n : Nat) : (s.add64 t f n).lcs = s.lcs := rfl
@[simp] theorem State.pos_add64 (s : State) (t : Nat) (f : Fld) (n : Nat) : (s.add64 t f n).pos = s.pos := rfl
@[simp] theorem State.cal_add64 (s : State) (t : Nat) (f : Fld) (n : Nat) : (s.add64 t f n).cal = s.cal := rfl
@[simp] theorem State.dma_add64 (s : State) (t : Nat) (f : Fld) (n : Nat) : (s.add64 t f n).dma = s.dma := rfl
@[simp] theorem State.cfg_add64 (s : State) (t : Nat) (f : Fld) (n : Nat) : (s.add64 t f n).cfg = s.cfg := rfl
@[simp] theorem State.pwr_add64 (s : State) (t : Nat) (f : Fld) (n : Nat) : (s.add64 t f n).pwr = s.pwr := rfl
@[simp] theorem State.fir_add64 (s : State) (t : Nat) (f : Fld) (n : Nat) : (s.add64 t f n).fir = s.fir := rfl
@[simp] theorem State.regions_add64 (s : State) (t : Nat) (f : Fld) (n : Nat) : (s.add64 t f n).regions = s.regions := rfl
@[simp] theorem State.clk_add64 (s : State) (t : Nat) (f : Fld) (n : Nat) : (s.add64 t f n).clk = s.clk := rfl
@[simp] theorem State.grids_add64 (s : State) (t : Nat) (f : Fld) (n : Nat) : (s.add64 t f n).grids = s.grids := rfl
@[simp] theorem State.led_add64 (s : State) (t : Nat) (f : Fld) (n : Nat) : (s.add64 t f n).led = s.led := rfl
@[simp] theorem State.freeCtr_add64 (s : State) (t : Nat) (f : Fld) (n : Nat) : (s.add64 t f n).freeCtr = s.freeCtr := rfl
@[simp] theorem State.pending_add64 (s : State) (t : Nat) (f : Fld) (n : Nat) : (s.add64 t f n).pending = s.pending := rfl

/-! setByte. -/

@[simp] theorem State.id_setByte (s : State) (a : Nat) (v : Byte) : (s.setByte a v).id = s.id := rfl
@[simp] theorem State.regs_setByte (s : State) (a : Nat) (v : Byte) : (s.setByte a v).regs = s.regs := rfl
@[simp] theorem State.holds_setByte (s : State) (a : Nat) (v : Byte) : (s.setByte a v).holds = s.holds := rfl
@[simp] theorem State.lowSeen_setByte (s : State) (a : Nat) (v : Byte) : (s.setByte a v).lowSeen = s.lowSeen := rfl
@[simp] theorem State.latches_setByte (s : State) (a : Nat) (v : Byte) : (s.setByte a v).latches = s.latches := rfl
@[simp] theorem State.cyc_setByte (s : State) (a : Nat) (v : Byte) : (s.setByte a v).cyc = s.cyc := rfl
@[simp] theorem State.bank_setByte (s : State) (a : Nat) (v : Byte) : (s.setByte a v).bank = s.bank := rfl
@[simp] theorem State.retiring_setByte (s : State) (a : Nat) (v : Byte) : (s.setByte a v).retiring = s.retiring := rfl
@[simp] theorem State.tim_setByte (s : State) (a : Nat) (v : Byte) : (s.setByte a v).tim = s.tim := rfl
@[simp] theorem State.fab_setByte (s : State) (a : Nat) (v : Byte) : (s.setByte a v).fab = s.fab := rfl
@[simp] theorem State.que_setByte (s : State) (a : Nat) (v : Byte) : (s.setByte a v).que = s.que := rfl
@[simp] theorem State.net_setByte (s : State) (a : Nat) (v : Byte) : (s.setByte a v).net = s.net := rfl
@[simp] theorem State.links_setByte (s : State) (a : Nat) (v : Byte) : (s.setByte a v).links = s.links := rfl
@[simp] theorem State.ports_setByte (s : State) (a : Nat) (v : Byte) : (s.setByte a v).ports = s.ports := rfl
@[simp] theorem State.prbs_setByte (s : State) (a : Nat) (v : Byte) : (s.setByte a v).prbs = s.prbs := rfl
@[simp] theorem State.path_setByte (s : State) (a : Nat) (v : Byte) : (s.setByte a v).path = s.path := rfl
@[simp] theorem State.sti_setByte (s : State) (a : Nat) (v : Byte) : (s.setByte a v).sti = s.sti := rfl
@[simp] theorem State.ref_setByte (s : State) (a : Nat) (v : Byte) : (s.setByte a v).ref = s.ref := rfl
@[simp] theorem State.sgm_setByte (s : State) (a : Nat) (v : Byte) : (s.setByte a v).sgm = s.sgm := rfl
@[simp] theorem State.eng_setByte (s : State) (a : Nat) (v : Byte) : (s.setByte a v).eng = s.eng := rfl
@[simp] theorem State.lcs_setByte (s : State) (a : Nat) (v : Byte) : (s.setByte a v).lcs = s.lcs := rfl
@[simp] theorem State.pos_setByte (s : State) (a : Nat) (v : Byte) : (s.setByte a v).pos = s.pos := rfl
@[simp] theorem State.cal_setByte (s : State) (a : Nat) (v : Byte) : (s.setByte a v).cal = s.cal := rfl
@[simp] theorem State.dma_setByte (s : State) (a : Nat) (v : Byte) : (s.setByte a v).dma = s.dma := rfl
@[simp] theorem State.cfg_setByte (s : State) (a : Nat) (v : Byte) : (s.setByte a v).cfg = s.cfg := rfl
@[simp] theorem State.pwr_setByte (s : State) (a : Nat) (v : Byte) : (s.setByte a v).pwr = s.pwr := rfl
@[simp] theorem State.fir_setByte (s : State) (a : Nat) (v : Byte) : (s.setByte a v).fir = s.fir := rfl
@[simp] theorem State.regions_setByte (s : State) (a : Nat) (v : Byte) : (s.setByte a v).regions = s.regions := rfl
@[simp] theorem State.clk_setByte (s : State) (a : Nat) (v : Byte) : (s.setByte a v).clk = s.clk := rfl
@[simp] theorem State.grids_setByte (s : State) (a : Nat) (v : Byte) : (s.setByte a v).grids = s.grids := rfl
@[simp] theorem State.led_setByte (s : State) (a : Nat) (v : Byte) : (s.setByte a v).led = s.led := rfl
@[simp] theorem State.freeCtr_setByte (s : State) (a : Nat) (v : Byte) : (s.setByte a v).freeCtr = s.freeCtr := rfl
@[simp] theorem State.pending_setByte (s : State) (a : Nat) (v : Byte) : (s.setByte a v).pending = s.pending := rfl

/-- A write of bytes changes memory alone. -/
theorem State.setBytes_eq (s : State) (a : Nat) (bs : Bytes) : s.setBytes a bs = { s with mem := (s.setBytes a bs).mem } := by
  induction bs generalizing s a with
  | nil => rfl
  | cons b bs ih => unfold State.setBytes; rw [ih]; rfl

/-! setBytes. -/

@[simp] theorem State.id_setBytes (s : State) (a : Nat) (bs : Bytes) : (s.setBytes a bs).id = s.id := by rw [State.setBytes_eq]
@[simp] theorem State.regs_setBytes (s : State) (a : Nat) (bs : Bytes) : (s.setBytes a bs).regs = s.regs := by rw [State.setBytes_eq]
@[simp] theorem State.holds_setBytes (s : State) (a : Nat) (bs : Bytes) : (s.setBytes a bs).holds = s.holds := by rw [State.setBytes_eq]
@[simp] theorem State.lowSeen_setBytes (s : State) (a : Nat) (bs : Bytes) : (s.setBytes a bs).lowSeen = s.lowSeen := by rw [State.setBytes_eq]
@[simp] theorem State.latches_setBytes (s : State) (a : Nat) (bs : Bytes) : (s.setBytes a bs).latches = s.latches := by rw [State.setBytes_eq]
@[simp] theorem State.cyc_setBytes (s : State) (a : Nat) (bs : Bytes) : (s.setBytes a bs).cyc = s.cyc := by rw [State.setBytes_eq]
@[simp] theorem State.bank_setBytes (s : State) (a : Nat) (bs : Bytes) : (s.setBytes a bs).bank = s.bank := by rw [State.setBytes_eq]
@[simp] theorem State.retiring_setBytes (s : State) (a : Nat) (bs : Bytes) : (s.setBytes a bs).retiring = s.retiring := by rw [State.setBytes_eq]
@[simp] theorem State.tim_setBytes (s : State) (a : Nat) (bs : Bytes) : (s.setBytes a bs).tim = s.tim := by rw [State.setBytes_eq]
@[simp] theorem State.fab_setBytes (s : State) (a : Nat) (bs : Bytes) : (s.setBytes a bs).fab = s.fab := by rw [State.setBytes_eq]
@[simp] theorem State.que_setBytes (s : State) (a : Nat) (bs : Bytes) : (s.setBytes a bs).que = s.que := by rw [State.setBytes_eq]
@[simp] theorem State.net_setBytes (s : State) (a : Nat) (bs : Bytes) : (s.setBytes a bs).net = s.net := by rw [State.setBytes_eq]
@[simp] theorem State.links_setBytes (s : State) (a : Nat) (bs : Bytes) : (s.setBytes a bs).links = s.links := by rw [State.setBytes_eq]
@[simp] theorem State.ports_setBytes (s : State) (a : Nat) (bs : Bytes) : (s.setBytes a bs).ports = s.ports := by rw [State.setBytes_eq]
@[simp] theorem State.prbs_setBytes (s : State) (a : Nat) (bs : Bytes) : (s.setBytes a bs).prbs = s.prbs := by rw [State.setBytes_eq]
@[simp] theorem State.path_setBytes (s : State) (a : Nat) (bs : Bytes) : (s.setBytes a bs).path = s.path := by rw [State.setBytes_eq]
@[simp] theorem State.sti_setBytes (s : State) (a : Nat) (bs : Bytes) : (s.setBytes a bs).sti = s.sti := by rw [State.setBytes_eq]
@[simp] theorem State.ref_setBytes (s : State) (a : Nat) (bs : Bytes) : (s.setBytes a bs).ref = s.ref := by rw [State.setBytes_eq]
@[simp] theorem State.sgm_setBytes (s : State) (a : Nat) (bs : Bytes) : (s.setBytes a bs).sgm = s.sgm := by rw [State.setBytes_eq]
@[simp] theorem State.eng_setBytes (s : State) (a : Nat) (bs : Bytes) : (s.setBytes a bs).eng = s.eng := by rw [State.setBytes_eq]
@[simp] theorem State.lcs_setBytes (s : State) (a : Nat) (bs : Bytes) : (s.setBytes a bs).lcs = s.lcs := by rw [State.setBytes_eq]
@[simp] theorem State.pos_setBytes (s : State) (a : Nat) (bs : Bytes) : (s.setBytes a bs).pos = s.pos := by rw [State.setBytes_eq]
@[simp] theorem State.cal_setBytes (s : State) (a : Nat) (bs : Bytes) : (s.setBytes a bs).cal = s.cal := by rw [State.setBytes_eq]
@[simp] theorem State.dma_setBytes (s : State) (a : Nat) (bs : Bytes) : (s.setBytes a bs).dma = s.dma := by rw [State.setBytes_eq]
@[simp] theorem State.cfg_setBytes (s : State) (a : Nat) (bs : Bytes) : (s.setBytes a bs).cfg = s.cfg := by rw [State.setBytes_eq]
@[simp] theorem State.pwr_setBytes (s : State) (a : Nat) (bs : Bytes) : (s.setBytes a bs).pwr = s.pwr := by rw [State.setBytes_eq]
@[simp] theorem State.fir_setBytes (s : State) (a : Nat) (bs : Bytes) : (s.setBytes a bs).fir = s.fir := by rw [State.setBytes_eq]
@[simp] theorem State.regions_setBytes (s : State) (a : Nat) (bs : Bytes) : (s.setBytes a bs).regions = s.regions := by rw [State.setBytes_eq]
@[simp] theorem State.clk_setBytes (s : State) (a : Nat) (bs : Bytes) : (s.setBytes a bs).clk = s.clk := by rw [State.setBytes_eq]
@[simp] theorem State.grids_setBytes (s : State) (a : Nat) (bs : Bytes) : (s.setBytes a bs).grids = s.grids := by rw [State.setBytes_eq]
@[simp] theorem State.led_setBytes (s : State) (a : Nat) (bs : Bytes) : (s.setBytes a bs).led = s.led := by rw [State.setBytes_eq]
@[simp] theorem State.freeCtr_setBytes (s : State) (a : Nat) (bs : Bytes) : (s.setBytes a bs).freeCtr = s.freeCtr := by rw [State.setBytes_eq]
@[simp] theorem State.pending_setBytes (s : State) (a : Nat) (bs : Bytes) : (s.setBytes a bs).pending = s.pending := by rw [State.setBytes_eq]

/-! pip. -/

@[simp] theorem State.holds_pip (s : State) (t src : Nat) : (s.pip t src).holds = s.holds := by unfold State.pip; split <;> rfl
@[simp] theorem State.lowSeen_pip (s : State) (t src : Nat) : (s.pip t src).lowSeen = s.lowSeen := by unfold State.pip; split <;> rfl
@[simp] theorem State.latches_pip (s : State) (t src : Nat) : (s.pip t src).latches = s.latches := by unfold State.pip; split <;> rfl
@[simp] theorem State.cyc_pip (s : State) (t src : Nat) : (s.pip t src).cyc = s.cyc := by unfold State.pip; split <;> rfl
@[simp] theorem State.retiring_pip (s : State) (t src : Nat) : (s.pip t src).retiring = s.retiring := by unfold State.pip; split <;> rfl
@[simp] theorem State.tim_pip (s : State) (t src : Nat) : (s.pip t src).tim = s.tim := by unfold State.pip; split <;> rfl
@[simp] theorem State.que_pip (s : State) (t src : Nat) : (s.pip t src).que = s.que := by unfold State.pip; split <;> rfl
@[simp] theorem State.net_pip (s : State) (t src : Nat) : (s.pip t src).net = s.net := by unfold State.pip; split <;> rfl
@[simp] theorem State.links_pip (s : State) (t src : Nat) : (s.pip t src).links = s.links := by unfold State.pip; split <;> rfl
@[simp] theorem State.ports_pip (s : State) (t src : Nat) : (s.pip t src).ports = s.ports := by unfold State.pip; split <;> rfl
@[simp] theorem State.prbs_pip (s : State) (t src : Nat) : (s.pip t src).prbs = s.prbs := by unfold State.pip; split <;> rfl
@[simp] theorem State.path_pip (s : State) (t src : Nat) : (s.pip t src).path = s.path := by unfold State.pip; split <;> rfl
@[simp] theorem State.sti_pip (s : State) (t src : Nat) : (s.pip t src).sti = s.sti := by unfold State.pip; split <;> rfl
@[simp] theorem State.ref_pip (s : State) (t src : Nat) : (s.pip t src).ref = s.ref := by unfold State.pip; split <;> rfl
@[simp] theorem State.sgm_pip (s : State) (t src : Nat) : (s.pip t src).sgm = s.sgm := by unfold State.pip; split <;> rfl
@[simp] theorem State.eng_pip (s : State) (t src : Nat) : (s.pip t src).eng = s.eng := by unfold State.pip; split <;> rfl
@[simp] theorem State.lcs_pip (s : State) (t src : Nat) : (s.pip t src).lcs = s.lcs := by unfold State.pip; split <;> rfl
@[simp] theorem State.pos_pip (s : State) (t src : Nat) : (s.pip t src).pos = s.pos := by unfold State.pip; split <;> rfl
@[simp] theorem State.cal_pip (s : State) (t src : Nat) : (s.pip t src).cal = s.cal := by unfold State.pip; split <;> rfl
@[simp] theorem State.dma_pip (s : State) (t src : Nat) : (s.pip t src).dma = s.dma := by unfold State.pip; split <;> rfl
@[simp] theorem State.cfg_pip (s : State) (t src : Nat) : (s.pip t src).cfg = s.cfg := by unfold State.pip; split <;> rfl
@[simp] theorem State.pwr_pip (s : State) (t src : Nat) : (s.pip t src).pwr = s.pwr := by unfold State.pip; split <;> rfl
@[simp] theorem State.fir_pip (s : State) (t src : Nat) : (s.pip t src).fir = s.fir := by unfold State.pip; split <;> rfl
@[simp] theorem State.regions_pip (s : State) (t src : Nat) : (s.pip t src).regions = s.regions := by unfold State.pip; split <;> rfl
@[simp] theorem State.clk_pip (s : State) (t src : Nat) : (s.pip t src).clk = s.clk := by unfold State.pip; split <;> rfl
@[simp] theorem State.grids_pip (s : State) (t src : Nat) : (s.pip t src).grids = s.grids := by unfold State.pip; split <;> rfl
@[simp] theorem State.led_pip (s : State) (t src : Nat) : (s.pip t src).led = s.led := by unfold State.pip; split <;> rfl
@[simp] theorem State.freeCtr_pip (s : State) (t src : Nat) : (s.pip t src).freeCtr = s.freeCtr := by unfold State.pip; split <;> rfl
@[simp] theorem State.pending_pip (s : State) (t src : Nat) : (s.pip t src).pending = s.pending := by unfold State.pip; split <;> rfl

/-! notify. -/

@[simp] theorem State.id_notify (s : State) (code a0 a1 a2 a3 : Nat) : (s.notify code a0 a1 a2 a3).id = s.id := by unfold State.notify; split <;> rfl
@[simp] theorem State.mem_notify (s : State) (code a0 a1 a2 a3 : Nat) : (s.notify code a0 a1 a2 a3).mem = s.mem := by unfold State.notify; split <;> rfl
@[simp] theorem State.holds_notify (s : State) (code a0 a1 a2 a3 : Nat) : (s.notify code a0 a1 a2 a3).holds = s.holds := by unfold State.notify; split <;> rfl
@[simp] theorem State.lowSeen_notify (s : State) (code a0 a1 a2 a3 : Nat) : (s.notify code a0 a1 a2 a3).lowSeen = s.lowSeen := by unfold State.notify; split <;> rfl
@[simp] theorem State.latches_notify (s : State) (code a0 a1 a2 a3 : Nat) : (s.notify code a0 a1 a2 a3).latches = s.latches := by unfold State.notify; split <;> rfl
@[simp] theorem State.bank_notify (s : State) (code a0 a1 a2 a3 : Nat) : (s.notify code a0 a1 a2 a3).bank = s.bank := by unfold State.notify; split <;> rfl
@[simp] theorem State.retiring_notify (s : State) (code a0 a1 a2 a3 : Nat) : (s.notify code a0 a1 a2 a3).retiring = s.retiring := by unfold State.notify; split <;> rfl
@[simp] theorem State.tim_notify (s : State) (code a0 a1 a2 a3 : Nat) : (s.notify code a0 a1 a2 a3).tim = s.tim := by unfold State.notify; split <;> rfl
@[simp] theorem State.fab_notify (s : State) (code a0 a1 a2 a3 : Nat) : (s.notify code a0 a1 a2 a3).fab = s.fab := by unfold State.notify; split <;> rfl
@[simp] theorem State.que_notify (s : State) (code a0 a1 a2 a3 : Nat) : (s.notify code a0 a1 a2 a3).que = s.que := by unfold State.notify; split <;> rfl
@[simp] theorem State.links_notify (s : State) (code a0 a1 a2 a3 : Nat) : (s.notify code a0 a1 a2 a3).links = s.links := by unfold State.notify; split <;> rfl
@[simp] theorem State.ports_notify (s : State) (code a0 a1 a2 a3 : Nat) : (s.notify code a0 a1 a2 a3).ports = s.ports := by unfold State.notify; split <;> rfl
@[simp] theorem State.prbs_notify (s : State) (code a0 a1 a2 a3 : Nat) : (s.notify code a0 a1 a2 a3).prbs = s.prbs := by unfold State.notify; split <;> rfl
@[simp] theorem State.path_notify (s : State) (code a0 a1 a2 a3 : Nat) : (s.notify code a0 a1 a2 a3).path = s.path := by unfold State.notify; split <;> rfl
@[simp] theorem State.sti_notify (s : State) (code a0 a1 a2 a3 : Nat) : (s.notify code a0 a1 a2 a3).sti = s.sti := by unfold State.notify; split <;> rfl
@[simp] theorem State.ref_notify (s : State) (code a0 a1 a2 a3 : Nat) : (s.notify code a0 a1 a2 a3).ref = s.ref := by unfold State.notify; split <;> rfl
@[simp] theorem State.sgm_notify (s : State) (code a0 a1 a2 a3 : Nat) : (s.notify code a0 a1 a2 a3).sgm = s.sgm := by unfold State.notify; split <;> rfl
@[simp] theorem State.eng_notify (s : State) (code a0 a1 a2 a3 : Nat) : (s.notify code a0 a1 a2 a3).eng = s.eng := by unfold State.notify; split <;> rfl
@[simp] theorem State.lcs_notify (s : State) (code a0 a1 a2 a3 : Nat) : (s.notify code a0 a1 a2 a3).lcs = s.lcs := by unfold State.notify; split <;> rfl
@[simp] theorem State.pos_notify (s : State) (code a0 a1 a2 a3 : Nat) : (s.notify code a0 a1 a2 a3).pos = s.pos := by unfold State.notify; split <;> rfl
@[simp] theorem State.cal_notify (s : State) (code a0 a1 a2 a3 : Nat) : (s.notify code a0 a1 a2 a3).cal = s.cal := by unfold State.notify; split <;> rfl
@[simp] theorem State.dma_notify (s : State) (code a0 a1 a2 a3 : Nat) : (s.notify code a0 a1 a2 a3).dma = s.dma := by unfold State.notify; split <;> rfl
@[simp] theorem State.cfg_notify (s : State) (code a0 a1 a2 a3 : Nat) : (s.notify code a0 a1 a2 a3).cfg = s.cfg := by unfold State.notify; split <;> rfl
@[simp] theorem State.pwr_notify (s : State) (code a0 a1 a2 a3 : Nat) : (s.notify code a0 a1 a2 a3).pwr = s.pwr := by unfold State.notify; split <;> rfl
@[simp] theorem State.fir_notify (s : State) (code a0 a1 a2 a3 : Nat) : (s.notify code a0 a1 a2 a3).fir = s.fir := by unfold State.notify; split <;> rfl
@[simp] theorem State.regions_notify (s : State) (code a0 a1 a2 a3 : Nat) : (s.notify code a0 a1 a2 a3).regions = s.regions := by unfold State.notify; split <;> rfl
@[simp] theorem State.clk_notify (s : State) (code a0 a1 a2 a3 : Nat) : (s.notify code a0 a1 a2 a3).clk = s.clk := by unfold State.notify; split <;> rfl
@[simp] theorem State.grids_notify (s : State) (code a0 a1 a2 a3 : Nat) : (s.notify code a0 a1 a2 a3).grids = s.grids := by unfold State.notify; split <;> rfl
@[simp] theorem State.led_notify (s : State) (code a0 a1 a2 a3 : Nat) : (s.notify code a0 a1 a2 a3).led = s.led := by unfold State.notify; split <;> rfl
@[simp] theorem State.freeCtr_notify (s : State) (code a0 a1 a2 a3 : Nat) : (s.notify code a0 a1 a2 a3).freeCtr = s.freeCtr := by unfold State.notify; split <;> rfl
@[simp] theorem State.pending_notify (s : State) (code a0 a1 a2 a3 : Nat) : (s.notify code a0 a1 a2 a3).pending = s.pending := by unfold State.notify; split <;> rfl

/-! updEngs. -/

@[simp] theorem State.id_updEngs (s : State) (f : Engines → Engines) : (s.updEngs f).id = s.id := rfl
@[simp] theorem State.regs_updEngs (s : State) (f : Engines → Engines) : (s.updEngs f).regs = s.regs := rfl
@[simp] theorem State.mem_updEngs (s : State) (f : Engines → Engines) : (s.updEngs f).mem = s.mem := rfl
@[simp] theorem State.holds_updEngs (s : State) (f : Engines → Engines) : (s.updEngs f).holds = s.holds := rfl
@[simp] theorem State.lowSeen_updEngs (s : State) (f : Engines → Engines) : (s.updEngs f).lowSeen = s.lowSeen := rfl
@[simp] theorem State.latches_updEngs (s : State) (f : Engines → Engines) : (s.updEngs f).latches = s.latches := rfl
@[simp] theorem State.cyc_updEngs (s : State) (f : Engines → Engines) : (s.updEngs f).cyc = s.cyc := rfl
@[simp] theorem State.bank_updEngs (s : State) (f : Engines → Engines) : (s.updEngs f).bank = s.bank := rfl
@[simp] theorem State.retiring_updEngs (s : State) (f : Engines → Engines) : (s.updEngs f).retiring = s.retiring := rfl
@[simp] theorem State.tim_updEngs (s : State) (f : Engines → Engines) : (s.updEngs f).tim = s.tim := rfl
@[simp] theorem State.fab_updEngs (s : State) (f : Engines → Engines) : (s.updEngs f).fab = s.fab := rfl
@[simp] theorem State.que_updEngs (s : State) (f : Engines → Engines) : (s.updEngs f).que = s.que := rfl
@[simp] theorem State.net_updEngs (s : State) (f : Engines → Engines) : (s.updEngs f).net = s.net := rfl
@[simp] theorem State.links_updEngs (s : State) (f : Engines → Engines) : (s.updEngs f).links = s.links := rfl
@[simp] theorem State.ports_updEngs (s : State) (f : Engines → Engines) : (s.updEngs f).ports = s.ports := rfl
@[simp] theorem State.prbs_updEngs (s : State) (f : Engines → Engines) : (s.updEngs f).prbs = s.prbs := rfl
@[simp] theorem State.path_updEngs (s : State) (f : Engines → Engines) : (s.updEngs f).path = s.path := rfl
@[simp] theorem State.sti_updEngs (s : State) (f : Engines → Engines) : (s.updEngs f).sti = s.sti := rfl
@[simp] theorem State.ref_updEngs (s : State) (f : Engines → Engines) : (s.updEngs f).ref = s.ref := rfl
@[simp] theorem State.sgm_updEngs (s : State) (f : Engines → Engines) : (s.updEngs f).sgm = s.sgm := rfl
@[simp] theorem State.lcs_updEngs (s : State) (f : Engines → Engines) : (s.updEngs f).lcs = s.lcs := rfl
@[simp] theorem State.pos_updEngs (s : State) (f : Engines → Engines) : (s.updEngs f).pos = s.pos := rfl
@[simp] theorem State.cal_updEngs (s : State) (f : Engines → Engines) : (s.updEngs f).cal = s.cal := rfl
@[simp] theorem State.dma_updEngs (s : State) (f : Engines → Engines) : (s.updEngs f).dma = s.dma := rfl
@[simp] theorem State.cfg_updEngs (s : State) (f : Engines → Engines) : (s.updEngs f).cfg = s.cfg := rfl
@[simp] theorem State.pwr_updEngs (s : State) (f : Engines → Engines) : (s.updEngs f).pwr = s.pwr := rfl
@[simp] theorem State.fir_updEngs (s : State) (f : Engines → Engines) : (s.updEngs f).fir = s.fir := rfl
@[simp] theorem State.regions_updEngs (s : State) (f : Engines → Engines) : (s.updEngs f).regions = s.regions := rfl
@[simp] theorem State.clk_updEngs (s : State) (f : Engines → Engines) : (s.updEngs f).clk = s.clk := rfl
@[simp] theorem State.grids_updEngs (s : State) (f : Engines → Engines) : (s.updEngs f).grids = s.grids := rfl
@[simp] theorem State.led_updEngs (s : State) (f : Engines → Engines) : (s.updEngs f).led = s.led := rfl
@[simp] theorem State.freeCtr_updEngs (s : State) (f : Engines → Engines) : (s.updEngs f).freeCtr = s.freeCtr := rfl
@[simp] theorem State.pending_updEngs (s : State) (f : Engines → Engines) : (s.updEngs f).pending = s.pending := rfl

/-! updEng. -/

@[simp] theorem State.id_updEng (s : State) (t n : Nat) (f : EngState → EngState) : (s.updEng t n f).id = s.id := rfl
@[simp] theorem State.regs_updEng (s : State) (t n : Nat) (f : EngState → EngState) : (s.updEng t n f).regs = s.regs := rfl
@[simp] theorem State.mem_updEng (s : State) (t n : Nat) (f : EngState → EngState) : (s.updEng t n f).mem = s.mem := rfl
@[simp] theorem State.holds_updEng (s : State) (t n : Nat) (f : EngState → EngState) : (s.updEng t n f).holds = s.holds := rfl
@[simp] theorem State.lowSeen_updEng (s : State) (t n : Nat) (f : EngState → EngState) : (s.updEng t n f).lowSeen = s.lowSeen := rfl
@[simp] theorem State.latches_updEng (s : State) (t n : Nat) (f : EngState → EngState) : (s.updEng t n f).latches = s.latches := rfl
@[simp] theorem State.cyc_updEng (s : State) (t n : Nat) (f : EngState → EngState) : (s.updEng t n f).cyc = s.cyc := rfl
@[simp] theorem State.bank_updEng (s : State) (t n : Nat) (f : EngState → EngState) : (s.updEng t n f).bank = s.bank := rfl
@[simp] theorem State.retiring_updEng (s : State) (t n : Nat) (f : EngState → EngState) : (s.updEng t n f).retiring = s.retiring := rfl
@[simp] theorem State.tim_updEng (s : State) (t n : Nat) (f : EngState → EngState) : (s.updEng t n f).tim = s.tim := rfl
@[simp] theorem State.fab_updEng (s : State) (t n : Nat) (f : EngState → EngState) : (s.updEng t n f).fab = s.fab := rfl
@[simp] theorem State.que_updEng (s : State) (t n : Nat) (f : EngState → EngState) : (s.updEng t n f).que = s.que := rfl
@[simp] theorem State.net_updEng (s : State) (t n : Nat) (f : EngState → EngState) : (s.updEng t n f).net = s.net := rfl
@[simp] theorem State.links_updEng (s : State) (t n : Nat) (f : EngState → EngState) : (s.updEng t n f).links = s.links := rfl
@[simp] theorem State.ports_updEng (s : State) (t n : Nat) (f : EngState → EngState) : (s.updEng t n f).ports = s.ports := rfl
@[simp] theorem State.prbs_updEng (s : State) (t n : Nat) (f : EngState → EngState) : (s.updEng t n f).prbs = s.prbs := rfl
@[simp] theorem State.path_updEng (s : State) (t n : Nat) (f : EngState → EngState) : (s.updEng t n f).path = s.path := rfl
@[simp] theorem State.sti_updEng (s : State) (t n : Nat) (f : EngState → EngState) : (s.updEng t n f).sti = s.sti := rfl
@[simp] theorem State.ref_updEng (s : State) (t n : Nat) (f : EngState → EngState) : (s.updEng t n f).ref = s.ref := rfl
@[simp] theorem State.sgm_updEng (s : State) (t n : Nat) (f : EngState → EngState) : (s.updEng t n f).sgm = s.sgm := rfl
@[simp] theorem State.lcs_updEng (s : State) (t n : Nat) (f : EngState → EngState) : (s.updEng t n f).lcs = s.lcs := rfl
@[simp] theorem State.pos_updEng (s : State) (t n : Nat) (f : EngState → EngState) : (s.updEng t n f).pos = s.pos := rfl
@[simp] theorem State.cal_updEng (s : State) (t n : Nat) (f : EngState → EngState) : (s.updEng t n f).cal = s.cal := rfl
@[simp] theorem State.dma_updEng (s : State) (t n : Nat) (f : EngState → EngState) : (s.updEng t n f).dma = s.dma := rfl
@[simp] theorem State.cfg_updEng (s : State) (t n : Nat) (f : EngState → EngState) : (s.updEng t n f).cfg = s.cfg := rfl
@[simp] theorem State.pwr_updEng (s : State) (t n : Nat) (f : EngState → EngState) : (s.updEng t n f).pwr = s.pwr := rfl
@[simp] theorem State.fir_updEng (s : State) (t n : Nat) (f : EngState → EngState) : (s.updEng t n f).fir = s.fir := rfl
@[simp] theorem State.regions_updEng (s : State) (t n : Nat) (f : EngState → EngState) : (s.updEng t n f).regions = s.regions := rfl
@[simp] theorem State.clk_updEng (s : State) (t n : Nat) (f : EngState → EngState) : (s.updEng t n f).clk = s.clk := rfl
@[simp] theorem State.grids_updEng (s : State) (t n : Nat) (f : EngState → EngState) : (s.updEng t n f).grids = s.grids := rfl
@[simp] theorem State.led_updEng (s : State) (t n : Nat) (f : EngState → EngState) : (s.updEng t n f).led = s.led := rfl
@[simp] theorem State.freeCtr_updEng (s : State) (t n : Nat) (f : EngState → EngState) : (s.updEng t n f).freeCtr = s.freeCtr := rfl
@[simp] theorem State.pending_updEng (s : State) (t n : Nat) (f : EngState → EngState) : (s.updEng t n f).pending = s.pending := rfl

/-! engState. -/

@[simp] theorem State.id_engState (s : State) (t n : Nat) : (s.engState t n).id = s.id := rfl
@[simp] theorem State.mem_engState (s : State) (t n : Nat) : (s.engState t n).mem = s.mem := rfl
@[simp] theorem State.holds_engState (s : State) (t n : Nat) : (s.engState t n).holds = s.holds := rfl
@[simp] theorem State.lowSeen_engState (s : State) (t n : Nat) : (s.engState t n).lowSeen = s.lowSeen := rfl
@[simp] theorem State.latches_engState (s : State) (t n : Nat) : (s.engState t n).latches = s.latches := rfl
@[simp] theorem State.cyc_engState (s : State) (t n : Nat) : (s.engState t n).cyc = s.cyc := rfl
@[simp] theorem State.bank_engState (s : State) (t n : Nat) : (s.engState t n).bank = s.bank := rfl
@[simp] theorem State.retiring_engState (s : State) (t n : Nat) : (s.engState t n).retiring = s.retiring := rfl
@[simp] theorem State.tim_engState (s : State) (t n : Nat) : (s.engState t n).tim = s.tim := rfl
@[simp] theorem State.fab_engState (s : State) (t n : Nat) : (s.engState t n).fab = s.fab := rfl
@[simp] theorem State.que_engState (s : State) (t n : Nat) : (s.engState t n).que = s.que := rfl
@[simp] theorem State.net_engState (s : State) (t n : Nat) : (s.engState t n).net = s.net := rfl
@[simp] theorem State.links_engState (s : State) (t n : Nat) : (s.engState t n).links = s.links := rfl
@[simp] theorem State.ports_engState (s : State) (t n : Nat) : (s.engState t n).ports = s.ports := rfl
@[simp] theorem State.prbs_engState (s : State) (t n : Nat) : (s.engState t n).prbs = s.prbs := rfl
@[simp] theorem State.path_engState (s : State) (t n : Nat) : (s.engState t n).path = s.path := rfl
@[simp] theorem State.sti_engState (s : State) (t n : Nat) : (s.engState t n).sti = s.sti := rfl
@[simp] theorem State.ref_engState (s : State) (t n : Nat) : (s.engState t n).ref = s.ref := rfl
@[simp] theorem State.sgm_engState (s : State) (t n : Nat) : (s.engState t n).sgm = s.sgm := rfl
@[simp] theorem State.eng_engState (s : State) (t n : Nat) : (s.engState t n).eng = s.eng := rfl
@[simp] theorem State.lcs_engState (s : State) (t n : Nat) : (s.engState t n).lcs = s.lcs := rfl
@[simp] theorem State.pos_engState (s : State) (t n : Nat) : (s.engState t n).pos = s.pos := rfl
@[simp] theorem State.cal_engState (s : State) (t n : Nat) : (s.engState t n).cal = s.cal := rfl
@[simp] theorem State.dma_engState (s : State) (t n : Nat) : (s.engState t n).dma = s.dma := rfl
@[simp] theorem State.cfg_engState (s : State) (t n : Nat) : (s.engState t n).cfg = s.cfg := rfl
@[simp] theorem State.pwr_engState (s : State) (t n : Nat) : (s.engState t n).pwr = s.pwr := rfl
@[simp] theorem State.fir_engState (s : State) (t n : Nat) : (s.engState t n).fir = s.fir := rfl
@[simp] theorem State.regions_engState (s : State) (t n : Nat) : (s.engState t n).regions = s.regions := rfl
@[simp] theorem State.clk_engState (s : State) (t n : Nat) : (s.engState t n).clk = s.clk := rfl
@[simp] theorem State.grids_engState (s : State) (t n : Nat) : (s.engState t n).grids = s.grids := rfl
@[simp] theorem State.led_engState (s : State) (t n : Nat) : (s.engState t n).led = s.led := rfl
@[simp] theorem State.freeCtr_engState (s : State) (t n : Nat) : (s.engState t n).freeCtr = s.freeCtr := rfl
@[simp] theorem State.pending_engState (s : State) (t n : Nat) : (s.engState t n).pending = s.pending := rfl

/-! putS. -/

@[simp] theorem State.id_putS (s : State) (t e r v : Nat) : (s.putS t e r v).id = s.id := rfl
@[simp] theorem State.regs_putS (s : State) (t e r v : Nat) : (s.putS t e r v).regs = s.regs := rfl
@[simp] theorem State.mem_putS (s : State) (t e r v : Nat) : (s.putS t e r v).mem = s.mem := rfl
@[simp] theorem State.holds_putS (s : State) (t e r v : Nat) : (s.putS t e r v).holds = s.holds := rfl
@[simp] theorem State.lowSeen_putS (s : State) (t e r v : Nat) : (s.putS t e r v).lowSeen = s.lowSeen := rfl
@[simp] theorem State.latches_putS (s : State) (t e r v : Nat) : (s.putS t e r v).latches = s.latches := rfl
@[simp] theorem State.cyc_putS (s : State) (t e r v : Nat) : (s.putS t e r v).cyc = s.cyc := rfl
@[simp] theorem State.bank_putS (s : State) (t e r v : Nat) : (s.putS t e r v).bank = s.bank := rfl
@[simp] theorem State.retiring_putS (s : State) (t e r v : Nat) : (s.putS t e r v).retiring = s.retiring := rfl
@[simp] theorem State.tim_putS (s : State) (t e r v : Nat) : (s.putS t e r v).tim = s.tim := rfl
@[simp] theorem State.fab_putS (s : State) (t e r v : Nat) : (s.putS t e r v).fab = s.fab := rfl
@[simp] theorem State.que_putS (s : State) (t e r v : Nat) : (s.putS t e r v).que = s.que := rfl
@[simp] theorem State.net_putS (s : State) (t e r v : Nat) : (s.putS t e r v).net = s.net := rfl
@[simp] theorem State.links_putS (s : State) (t e r v : Nat) : (s.putS t e r v).links = s.links := rfl
@[simp] theorem State.ports_putS (s : State) (t e r v : Nat) : (s.putS t e r v).ports = s.ports := rfl
@[simp] theorem State.prbs_putS (s : State) (t e r v : Nat) : (s.putS t e r v).prbs = s.prbs := rfl
@[simp] theorem State.path_putS (s : State) (t e r v : Nat) : (s.putS t e r v).path = s.path := rfl
@[simp] theorem State.sti_putS (s : State) (t e r v : Nat) : (s.putS t e r v).sti = s.sti := rfl
@[simp] theorem State.ref_putS (s : State) (t e r v : Nat) : (s.putS t e r v).ref = s.ref := rfl
@[simp] theorem State.sgm_putS (s : State) (t e r v : Nat) : (s.putS t e r v).sgm = s.sgm := rfl
@[simp] theorem State.lcs_putS (s : State) (t e r v : Nat) : (s.putS t e r v).lcs = s.lcs := rfl
@[simp] theorem State.pos_putS (s : State) (t e r v : Nat) : (s.putS t e r v).pos = s.pos := rfl
@[simp] theorem State.cal_putS (s : State) (t e r v : Nat) : (s.putS t e r v).cal = s.cal := rfl
@[simp] theorem State.dma_putS (s : State) (t e r v : Nat) : (s.putS t e r v).dma = s.dma := rfl
@[simp] theorem State.cfg_putS (s : State) (t e r v : Nat) : (s.putS t e r v).cfg = s.cfg := rfl
@[simp] theorem State.pwr_putS (s : State) (t e r v : Nat) : (s.putS t e r v).pwr = s.pwr := rfl
@[simp] theorem State.fir_putS (s : State) (t e r v : Nat) : (s.putS t e r v).fir = s.fir := rfl
@[simp] theorem State.regions_putS (s : State) (t e r v : Nat) : (s.putS t e r v).regions = s.regions := rfl
@[simp] theorem State.clk_putS (s : State) (t e r v : Nat) : (s.putS t e r v).clk = s.clk := rfl
@[simp] theorem State.grids_putS (s : State) (t e r v : Nat) : (s.putS t e r v).grids = s.grids := rfl
@[simp] theorem State.led_putS (s : State) (t e r v : Nat) : (s.putS t e r v).led = s.led := rfl
@[simp] theorem State.freeCtr_putS (s : State) (t e r v : Nat) : (s.putS t e r v).freeCtr = s.freeCtr := rfl
@[simp] theorem State.pending_putS (s : State) (t e r v : Nat) : (s.putS t e r v).pending = s.pending := rfl

/-! putV. -/

@[simp] theorem State.id_putV (s : State) (t e r : Nat) (on : Nat → Bool) (f : Nat → Nat) : (s.putV t e r on f).id = s.id := rfl
@[simp] theorem State.regs_putV (s : State) (t e r : Nat) (on : Nat → Bool) (f : Nat → Nat) : (s.putV t e r on f).regs = s.regs := rfl
@[simp] theorem State.mem_putV (s : State) (t e r : Nat) (on : Nat → Bool) (f : Nat → Nat) : (s.putV t e r on f).mem = s.mem := rfl
@[simp] theorem State.holds_putV (s : State) (t e r : Nat) (on : Nat → Bool) (f : Nat → Nat) : (s.putV t e r on f).holds = s.holds := rfl
@[simp] theorem State.lowSeen_putV (s : State) (t e r : Nat) (on : Nat → Bool) (f : Nat → Nat) : (s.putV t e r on f).lowSeen = s.lowSeen := rfl
@[simp] theorem State.latches_putV (s : State) (t e r : Nat) (on : Nat → Bool) (f : Nat → Nat) : (s.putV t e r on f).latches = s.latches := rfl
@[simp] theorem State.cyc_putV (s : State) (t e r : Nat) (on : Nat → Bool) (f : Nat → Nat) : (s.putV t e r on f).cyc = s.cyc := rfl
@[simp] theorem State.bank_putV (s : State) (t e r : Nat) (on : Nat → Bool) (f : Nat → Nat) : (s.putV t e r on f).bank = s.bank := rfl
@[simp] theorem State.retiring_putV (s : State) (t e r : Nat) (on : Nat → Bool) (f : Nat → Nat) : (s.putV t e r on f).retiring = s.retiring := rfl
@[simp] theorem State.tim_putV (s : State) (t e r : Nat) (on : Nat → Bool) (f : Nat → Nat) : (s.putV t e r on f).tim = s.tim := rfl
@[simp] theorem State.fab_putV (s : State) (t e r : Nat) (on : Nat → Bool) (f : Nat → Nat) : (s.putV t e r on f).fab = s.fab := rfl
@[simp] theorem State.que_putV (s : State) (t e r : Nat) (on : Nat → Bool) (f : Nat → Nat) : (s.putV t e r on f).que = s.que := rfl
@[simp] theorem State.net_putV (s : State) (t e r : Nat) (on : Nat → Bool) (f : Nat → Nat) : (s.putV t e r on f).net = s.net := rfl
@[simp] theorem State.links_putV (s : State) (t e r : Nat) (on : Nat → Bool) (f : Nat → Nat) : (s.putV t e r on f).links = s.links := rfl
@[simp] theorem State.ports_putV (s : State) (t e r : Nat) (on : Nat → Bool) (f : Nat → Nat) : (s.putV t e r on f).ports = s.ports := rfl
@[simp] theorem State.prbs_putV (s : State) (t e r : Nat) (on : Nat → Bool) (f : Nat → Nat) : (s.putV t e r on f).prbs = s.prbs := rfl
@[simp] theorem State.path_putV (s : State) (t e r : Nat) (on : Nat → Bool) (f : Nat → Nat) : (s.putV t e r on f).path = s.path := rfl
@[simp] theorem State.sti_putV (s : State) (t e r : Nat) (on : Nat → Bool) (f : Nat → Nat) : (s.putV t e r on f).sti = s.sti := rfl
@[simp] theorem State.ref_putV (s : State) (t e r : Nat) (on : Nat → Bool) (f : Nat → Nat) : (s.putV t e r on f).ref = s.ref := rfl
@[simp] theorem State.sgm_putV (s : State) (t e r : Nat) (on : Nat → Bool) (f : Nat → Nat) : (s.putV t e r on f).sgm = s.sgm := rfl
@[simp] theorem State.lcs_putV (s : State) (t e r : Nat) (on : Nat → Bool) (f : Nat → Nat) : (s.putV t e r on f).lcs = s.lcs := rfl
@[simp] theorem State.pos_putV (s : State) (t e r : Nat) (on : Nat → Bool) (f : Nat → Nat) : (s.putV t e r on f).pos = s.pos := rfl
@[simp] theorem State.cal_putV (s : State) (t e r : Nat) (on : Nat → Bool) (f : Nat → Nat) : (s.putV t e r on f).cal = s.cal := rfl
@[simp] theorem State.dma_putV (s : State) (t e r : Nat) (on : Nat → Bool) (f : Nat → Nat) : (s.putV t e r on f).dma = s.dma := rfl
@[simp] theorem State.cfg_putV (s : State) (t e r : Nat) (on : Nat → Bool) (f : Nat → Nat) : (s.putV t e r on f).cfg = s.cfg := rfl
@[simp] theorem State.pwr_putV (s : State) (t e r : Nat) (on : Nat → Bool) (f : Nat → Nat) : (s.putV t e r on f).pwr = s.pwr := rfl
@[simp] theorem State.fir_putV (s : State) (t e r : Nat) (on : Nat → Bool) (f : Nat → Nat) : (s.putV t e r on f).fir = s.fir := rfl
@[simp] theorem State.regions_putV (s : State) (t e r : Nat) (on : Nat → Bool) (f : Nat → Nat) : (s.putV t e r on f).regions = s.regions := rfl
@[simp] theorem State.clk_putV (s : State) (t e r : Nat) (on : Nat → Bool) (f : Nat → Nat) : (s.putV t e r on f).clk = s.clk := rfl
@[simp] theorem State.grids_putV (s : State) (t e r : Nat) (on : Nat → Bool) (f : Nat → Nat) : (s.putV t e r on f).grids = s.grids := rfl
@[simp] theorem State.led_putV (s : State) (t e r : Nat) (on : Nat → Bool) (f : Nat → Nat) : (s.putV t e r on f).led = s.led := rfl
@[simp] theorem State.freeCtr_putV (s : State) (t e r : Nat) (on : Nat → Bool) (f : Nat → Nat) : (s.putV t e r on f).freeCtr = s.freeCtr := rfl
@[simp] theorem State.pending_putV (s : State) (t e r : Nat) (on : Nat → Bool) (f : Nat → Nat) : (s.putV t e r on f).pending = s.pending := rfl

/-! updSub. -/

@[simp] theorem State.id_updSub (s : State) (sub : Nat) (f : SubState → SubState) : (s.updSub sub f).id = s.id := rfl
@[simp] theorem State.regs_updSub (s : State) (sub : Nat) (f : SubState → SubState) : (s.updSub sub f).regs = s.regs := rfl
@[simp] theorem State.mem_updSub (s : State) (sub : Nat) (f : SubState → SubState) : (s.updSub sub f).mem = s.mem := rfl
@[simp] theorem State.holds_updSub (s : State) (sub : Nat) (f : SubState → SubState) : (s.updSub sub f).holds = s.holds := rfl
@[simp] theorem State.lowSeen_updSub (s : State) (sub : Nat) (f : SubState → SubState) : (s.updSub sub f).lowSeen = s.lowSeen := rfl
@[simp] theorem State.latches_updSub (s : State) (sub : Nat) (f : SubState → SubState) : (s.updSub sub f).latches = s.latches := rfl
@[simp] theorem State.cyc_updSub (s : State) (sub : Nat) (f : SubState → SubState) : (s.updSub sub f).cyc = s.cyc := rfl
@[simp] theorem State.bank_updSub (s : State) (sub : Nat) (f : SubState → SubState) : (s.updSub sub f).bank = s.bank := rfl
@[simp] theorem State.retiring_updSub (s : State) (sub : Nat) (f : SubState → SubState) : (s.updSub sub f).retiring = s.retiring := rfl
@[simp] theorem State.tim_updSub (s : State) (sub : Nat) (f : SubState → SubState) : (s.updSub sub f).tim = s.tim := rfl
@[simp] theorem State.fab_updSub (s : State) (sub : Nat) (f : SubState → SubState) : (s.updSub sub f).fab = s.fab := rfl
@[simp] theorem State.que_updSub (s : State) (sub : Nat) (f : SubState → SubState) : (s.updSub sub f).que = s.que := rfl
@[simp] theorem State.net_updSub (s : State) (sub : Nat) (f : SubState → SubState) : (s.updSub sub f).net = s.net := rfl
@[simp] theorem State.links_updSub (s : State) (sub : Nat) (f : SubState → SubState) : (s.updSub sub f).links = s.links := rfl
@[simp] theorem State.ports_updSub (s : State) (sub : Nat) (f : SubState → SubState) : (s.updSub sub f).ports = s.ports := rfl
@[simp] theorem State.prbs_updSub (s : State) (sub : Nat) (f : SubState → SubState) : (s.updSub sub f).prbs = s.prbs := rfl
@[simp] theorem State.sti_updSub (s : State) (sub : Nat) (f : SubState → SubState) : (s.updSub sub f).sti = s.sti := rfl
@[simp] theorem State.ref_updSub (s : State) (sub : Nat) (f : SubState → SubState) : (s.updSub sub f).ref = s.ref := rfl
@[simp] theorem State.sgm_updSub (s : State) (sub : Nat) (f : SubState → SubState) : (s.updSub sub f).sgm = s.sgm := rfl
@[simp] theorem State.eng_updSub (s : State) (sub : Nat) (f : SubState → SubState) : (s.updSub sub f).eng = s.eng := rfl
@[simp] theorem State.lcs_updSub (s : State) (sub : Nat) (f : SubState → SubState) : (s.updSub sub f).lcs = s.lcs := rfl
@[simp] theorem State.pos_updSub (s : State) (sub : Nat) (f : SubState → SubState) : (s.updSub sub f).pos = s.pos := rfl
@[simp] theorem State.cal_updSub (s : State) (sub : Nat) (f : SubState → SubState) : (s.updSub sub f).cal = s.cal := rfl
@[simp] theorem State.dma_updSub (s : State) (sub : Nat) (f : SubState → SubState) : (s.updSub sub f).dma = s.dma := rfl
@[simp] theorem State.cfg_updSub (s : State) (sub : Nat) (f : SubState → SubState) : (s.updSub sub f).cfg = s.cfg := rfl
@[simp] theorem State.pwr_updSub (s : State) (sub : Nat) (f : SubState → SubState) : (s.updSub sub f).pwr = s.pwr := rfl
@[simp] theorem State.fir_updSub (s : State) (sub : Nat) (f : SubState → SubState) : (s.updSub sub f).fir = s.fir := rfl
@[simp] theorem State.regions_updSub (s : State) (sub : Nat) (f : SubState → SubState) : (s.updSub sub f).regions = s.regions := rfl
@[simp] theorem State.clk_updSub (s : State) (sub : Nat) (f : SubState → SubState) : (s.updSub sub f).clk = s.clk := rfl
@[simp] theorem State.grids_updSub (s : State) (sub : Nat) (f : SubState → SubState) : (s.updSub sub f).grids = s.grids := rfl
@[simp] theorem State.led_updSub (s : State) (sub : Nat) (f : SubState → SubState) : (s.updSub sub f).led = s.led := rfl
@[simp] theorem State.freeCtr_updSub (s : State) (sub : Nat) (f : SubState → SubState) : (s.updSub sub f).freeCtr = s.freeCtr := rfl
@[simp] theorem State.pending_updSub (s : State) (sub : Nat) (f : SubState → SubState) : (s.updSub sub f).pending = s.pending := rfl

/-! updExp. -/

@[simp] theorem State.id_updExp (s : State) (t p : Nat) (f : ExpPort → ExpPort) : (s.updExp t p f).id = s.id := rfl
@[simp] theorem State.regs_updExp (s : State) (t p : Nat) (f : ExpPort → ExpPort) : (s.updExp t p f).regs = s.regs := rfl
@[simp] theorem State.mem_updExp (s : State) (t p : Nat) (f : ExpPort → ExpPort) : (s.updExp t p f).mem = s.mem := rfl
@[simp] theorem State.holds_updExp (s : State) (t p : Nat) (f : ExpPort → ExpPort) : (s.updExp t p f).holds = s.holds := rfl
@[simp] theorem State.lowSeen_updExp (s : State) (t p : Nat) (f : ExpPort → ExpPort) : (s.updExp t p f).lowSeen = s.lowSeen := rfl
@[simp] theorem State.latches_updExp (s : State) (t p : Nat) (f : ExpPort → ExpPort) : (s.updExp t p f).latches = s.latches := rfl
@[simp] theorem State.cyc_updExp (s : State) (t p : Nat) (f : ExpPort → ExpPort) : (s.updExp t p f).cyc = s.cyc := rfl
@[simp] theorem State.bank_updExp (s : State) (t p : Nat) (f : ExpPort → ExpPort) : (s.updExp t p f).bank = s.bank := rfl
@[simp] theorem State.retiring_updExp (s : State) (t p : Nat) (f : ExpPort → ExpPort) : (s.updExp t p f).retiring = s.retiring := rfl
@[simp] theorem State.tim_updExp (s : State) (t p : Nat) (f : ExpPort → ExpPort) : (s.updExp t p f).tim = s.tim := rfl
@[simp] theorem State.fab_updExp (s : State) (t p : Nat) (f : ExpPort → ExpPort) : (s.updExp t p f).fab = s.fab := rfl
@[simp] theorem State.que_updExp (s : State) (t p : Nat) (f : ExpPort → ExpPort) : (s.updExp t p f).que = s.que := rfl
@[simp] theorem State.net_updExp (s : State) (t p : Nat) (f : ExpPort → ExpPort) : (s.updExp t p f).net = s.net := rfl
@[simp] theorem State.links_updExp (s : State) (t p : Nat) (f : ExpPort → ExpPort) : (s.updExp t p f).links = s.links := rfl
@[simp] theorem State.ports_updExp (s : State) (t p : Nat) (f : ExpPort → ExpPort) : (s.updExp t p f).ports = s.ports := rfl
@[simp] theorem State.prbs_updExp (s : State) (t p : Nat) (f : ExpPort → ExpPort) : (s.updExp t p f).prbs = s.prbs := rfl
@[simp] theorem State.sti_updExp (s : State) (t p : Nat) (f : ExpPort → ExpPort) : (s.updExp t p f).sti = s.sti := rfl
@[simp] theorem State.ref_updExp (s : State) (t p : Nat) (f : ExpPort → ExpPort) : (s.updExp t p f).ref = s.ref := rfl
@[simp] theorem State.sgm_updExp (s : State) (t p : Nat) (f : ExpPort → ExpPort) : (s.updExp t p f).sgm = s.sgm := rfl
@[simp] theorem State.eng_updExp (s : State) (t p : Nat) (f : ExpPort → ExpPort) : (s.updExp t p f).eng = s.eng := rfl
@[simp] theorem State.lcs_updExp (s : State) (t p : Nat) (f : ExpPort → ExpPort) : (s.updExp t p f).lcs = s.lcs := rfl
@[simp] theorem State.pos_updExp (s : State) (t p : Nat) (f : ExpPort → ExpPort) : (s.updExp t p f).pos = s.pos := rfl
@[simp] theorem State.cal_updExp (s : State) (t p : Nat) (f : ExpPort → ExpPort) : (s.updExp t p f).cal = s.cal := rfl
@[simp] theorem State.dma_updExp (s : State) (t p : Nat) (f : ExpPort → ExpPort) : (s.updExp t p f).dma = s.dma := rfl
@[simp] theorem State.cfg_updExp (s : State) (t p : Nat) (f : ExpPort → ExpPort) : (s.updExp t p f).cfg = s.cfg := rfl
@[simp] theorem State.pwr_updExp (s : State) (t p : Nat) (f : ExpPort → ExpPort) : (s.updExp t p f).pwr = s.pwr := rfl
@[simp] theorem State.fir_updExp (s : State) (t p : Nat) (f : ExpPort → ExpPort) : (s.updExp t p f).fir = s.fir := rfl
@[simp] theorem State.regions_updExp (s : State) (t p : Nat) (f : ExpPort → ExpPort) : (s.updExp t p f).regions = s.regions := rfl
@[simp] theorem State.clk_updExp (s : State) (t p : Nat) (f : ExpPort → ExpPort) : (s.updExp t p f).clk = s.clk := rfl
@[simp] theorem State.grids_updExp (s : State) (t p : Nat) (f : ExpPort → ExpPort) : (s.updExp t p f).grids = s.grids := rfl
@[simp] theorem State.led_updExp (s : State) (t p : Nat) (f : ExpPort → ExpPort) : (s.updExp t p f).led = s.led := rfl
@[simp] theorem State.freeCtr_updExp (s : State) (t p : Nat) (f : ExpPort → ExpPort) : (s.updExp t p f).freeCtr = s.freeCtr := rfl
@[simp] theorem State.pending_updExp (s : State) (t p : Nat) (f : ExpPort → ExpPort) : (s.updExp t p f).pending = s.pending := rfl

/-! updPort. -/

@[simp] theorem State.id_updPort (s : State) (t p : Nat) (f : PortState → PortState) : (s.updPort t p f).id = s.id := rfl
@[simp] theorem State.regs_updPort (s : State) (t p : Nat) (f : PortState → PortState) : (s.updPort t p f).regs = s.regs := rfl
@[simp] theorem State.mem_updPort (s : State) (t p : Nat) (f : PortState → PortState) : (s.updPort t p f).mem = s.mem := rfl
@[simp] theorem State.holds_updPort (s : State) (t p : Nat) (f : PortState → PortState) : (s.updPort t p f).holds = s.holds := rfl
@[simp] theorem State.lowSeen_updPort (s : State) (t p : Nat) (f : PortState → PortState) : (s.updPort t p f).lowSeen = s.lowSeen := rfl
@[simp] theorem State.latches_updPort (s : State) (t p : Nat) (f : PortState → PortState) : (s.updPort t p f).latches = s.latches := rfl
@[simp] theorem State.cyc_updPort (s : State) (t p : Nat) (f : PortState → PortState) : (s.updPort t p f).cyc = s.cyc := rfl
@[simp] theorem State.bank_updPort (s : State) (t p : Nat) (f : PortState → PortState) : (s.updPort t p f).bank = s.bank := rfl
@[simp] theorem State.retiring_updPort (s : State) (t p : Nat) (f : PortState → PortState) : (s.updPort t p f).retiring = s.retiring := rfl
@[simp] theorem State.tim_updPort (s : State) (t p : Nat) (f : PortState → PortState) : (s.updPort t p f).tim = s.tim := rfl
@[simp] theorem State.fab_updPort (s : State) (t p : Nat) (f : PortState → PortState) : (s.updPort t p f).fab = s.fab := rfl
@[simp] theorem State.que_updPort (s : State) (t p : Nat) (f : PortState → PortState) : (s.updPort t p f).que = s.que := rfl
@[simp] theorem State.net_updPort (s : State) (t p : Nat) (f : PortState → PortState) : (s.updPort t p f).net = s.net := rfl
@[simp] theorem State.links_updPort (s : State) (t p : Nat) (f : PortState → PortState) : (s.updPort t p f).links = s.links := rfl
@[simp] theorem State.prbs_updPort (s : State) (t p : Nat) (f : PortState → PortState) : (s.updPort t p f).prbs = s.prbs := rfl
@[simp] theorem State.path_updPort (s : State) (t p : Nat) (f : PortState → PortState) : (s.updPort t p f).path = s.path := rfl
@[simp] theorem State.sti_updPort (s : State) (t p : Nat) (f : PortState → PortState) : (s.updPort t p f).sti = s.sti := rfl
@[simp] theorem State.ref_updPort (s : State) (t p : Nat) (f : PortState → PortState) : (s.updPort t p f).ref = s.ref := rfl
@[simp] theorem State.sgm_updPort (s : State) (t p : Nat) (f : PortState → PortState) : (s.updPort t p f).sgm = s.sgm := rfl
@[simp] theorem State.eng_updPort (s : State) (t p : Nat) (f : PortState → PortState) : (s.updPort t p f).eng = s.eng := rfl
@[simp] theorem State.lcs_updPort (s : State) (t p : Nat) (f : PortState → PortState) : (s.updPort t p f).lcs = s.lcs := rfl
@[simp] theorem State.pos_updPort (s : State) (t p : Nat) (f : PortState → PortState) : (s.updPort t p f).pos = s.pos := rfl
@[simp] theorem State.cal_updPort (s : State) (t p : Nat) (f : PortState → PortState) : (s.updPort t p f).cal = s.cal := rfl
@[simp] theorem State.dma_updPort (s : State) (t p : Nat) (f : PortState → PortState) : (s.updPort t p f).dma = s.dma := rfl
@[simp] theorem State.cfg_updPort (s : State) (t p : Nat) (f : PortState → PortState) : (s.updPort t p f).cfg = s.cfg := rfl
@[simp] theorem State.pwr_updPort (s : State) (t p : Nat) (f : PortState → PortState) : (s.updPort t p f).pwr = s.pwr := rfl
@[simp] theorem State.fir_updPort (s : State) (t p : Nat) (f : PortState → PortState) : (s.updPort t p f).fir = s.fir := rfl
@[simp] theorem State.regions_updPort (s : State) (t p : Nat) (f : PortState → PortState) : (s.updPort t p f).regions = s.regions := rfl
@[simp] theorem State.clk_updPort (s : State) (t p : Nat) (f : PortState → PortState) : (s.updPort t p f).clk = s.clk := rfl
@[simp] theorem State.grids_updPort (s : State) (t p : Nat) (f : PortState → PortState) : (s.updPort t p f).grids = s.grids := rfl
@[simp] theorem State.led_updPort (s : State) (t p : Nat) (f : PortState → PortState) : (s.updPort t p f).led = s.led := rfl
@[simp] theorem State.freeCtr_updPort (s : State) (t p : Nat) (f : PortState → PortState) : (s.updPort t p f).freeCtr = s.freeCtr := rfl
@[simp] theorem State.pending_updPort (s : State) (t p : Nat) (f : PortState → PortState) : (s.updPort t p f).pending = s.pending := rfl

/-! updLink. -/

@[simp] theorem State.id_updLink (s : State) (t n : Nat) (f : LinkState → LinkState) : (s.updLink t n f).id = s.id := rfl
@[simp] theorem State.regs_updLink (s : State) (t n : Nat) (f : LinkState → LinkState) : (s.updLink t n f).regs = s.regs := rfl
@[simp] theorem State.mem_updLink (s : State) (t n : Nat) (f : LinkState → LinkState) : (s.updLink t n f).mem = s.mem := rfl
@[simp] theorem State.holds_updLink (s : State) (t n : Nat) (f : LinkState → LinkState) : (s.updLink t n f).holds = s.holds := rfl
@[simp] theorem State.lowSeen_updLink (s : State) (t n : Nat) (f : LinkState → LinkState) : (s.updLink t n f).lowSeen = s.lowSeen := rfl
@[simp] theorem State.latches_updLink (s : State) (t n : Nat) (f : LinkState → LinkState) : (s.updLink t n f).latches = s.latches := rfl
@[simp] theorem State.cyc_updLink (s : State) (t n : Nat) (f : LinkState → LinkState) : (s.updLink t n f).cyc = s.cyc := rfl
@[simp] theorem State.bank_updLink (s : State) (t n : Nat) (f : LinkState → LinkState) : (s.updLink t n f).bank = s.bank := rfl
@[simp] theorem State.retiring_updLink (s : State) (t n : Nat) (f : LinkState → LinkState) : (s.updLink t n f).retiring = s.retiring := rfl
@[simp] theorem State.tim_updLink (s : State) (t n : Nat) (f : LinkState → LinkState) : (s.updLink t n f).tim = s.tim := rfl
@[simp] theorem State.fab_updLink (s : State) (t n : Nat) (f : LinkState → LinkState) : (s.updLink t n f).fab = s.fab := rfl
@[simp] theorem State.que_updLink (s : State) (t n : Nat) (f : LinkState → LinkState) : (s.updLink t n f).que = s.que := rfl
@[simp] theorem State.net_updLink (s : State) (t n : Nat) (f : LinkState → LinkState) : (s.updLink t n f).net = s.net := rfl
@[simp] theorem State.ports_updLink (s : State) (t n : Nat) (f : LinkState → LinkState) : (s.updLink t n f).ports = s.ports := rfl
@[simp] theorem State.prbs_updLink (s : State) (t n : Nat) (f : LinkState → LinkState) : (s.updLink t n f).prbs = s.prbs := rfl
@[simp] theorem State.path_updLink (s : State) (t n : Nat) (f : LinkState → LinkState) : (s.updLink t n f).path = s.path := rfl
@[simp] theorem State.sti_updLink (s : State) (t n : Nat) (f : LinkState → LinkState) : (s.updLink t n f).sti = s.sti := rfl
@[simp] theorem State.ref_updLink (s : State) (t n : Nat) (f : LinkState → LinkState) : (s.updLink t n f).ref = s.ref := rfl
@[simp] theorem State.sgm_updLink (s : State) (t n : Nat) (f : LinkState → LinkState) : (s.updLink t n f).sgm = s.sgm := rfl
@[simp] theorem State.eng_updLink (s : State) (t n : Nat) (f : LinkState → LinkState) : (s.updLink t n f).eng = s.eng := rfl
@[simp] theorem State.lcs_updLink (s : State) (t n : Nat) (f : LinkState → LinkState) : (s.updLink t n f).lcs = s.lcs := rfl
@[simp] theorem State.pos_updLink (s : State) (t n : Nat) (f : LinkState → LinkState) : (s.updLink t n f).pos = s.pos := rfl
@[simp] theorem State.cal_updLink (s : State) (t n : Nat) (f : LinkState → LinkState) : (s.updLink t n f).cal = s.cal := rfl
@[simp] theorem State.dma_updLink (s : State) (t n : Nat) (f : LinkState → LinkState) : (s.updLink t n f).dma = s.dma := rfl
@[simp] theorem State.cfg_updLink (s : State) (t n : Nat) (f : LinkState → LinkState) : (s.updLink t n f).cfg = s.cfg := rfl
@[simp] theorem State.pwr_updLink (s : State) (t n : Nat) (f : LinkState → LinkState) : (s.updLink t n f).pwr = s.pwr := rfl
@[simp] theorem State.fir_updLink (s : State) (t n : Nat) (f : LinkState → LinkState) : (s.updLink t n f).fir = s.fir := rfl
@[simp] theorem State.regions_updLink (s : State) (t n : Nat) (f : LinkState → LinkState) : (s.updLink t n f).regions = s.regions := rfl
@[simp] theorem State.clk_updLink (s : State) (t n : Nat) (f : LinkState → LinkState) : (s.updLink t n f).clk = s.clk := rfl
@[simp] theorem State.grids_updLink (s : State) (t n : Nat) (f : LinkState → LinkState) : (s.updLink t n f).grids = s.grids := rfl
@[simp] theorem State.led_updLink (s : State) (t n : Nat) (f : LinkState → LinkState) : (s.updLink t n f).led = s.led := rfl
@[simp] theorem State.freeCtr_updLink (s : State) (t n : Nat) (f : LinkState → LinkState) : (s.updLink t n f).freeCtr = s.freeCtr := rfl
@[simp] theorem State.pending_updLink (s : State) (t n : Nat) (f : LinkState → LinkState) : (s.updLink t n f).pending = s.pending := rfl

/-! updCal. -/

@[simp] theorem State.id_updCal (s : State) (t : Nat) (f : CalTile → CalTile) : (s.updCal t f).id = s.id := rfl
@[simp] theorem State.regs_updCal (s : State) (t : Nat) (f : CalTile → CalTile) : (s.updCal t f).regs = s.regs := rfl
@[simp] theorem State.mem_updCal (s : State) (t : Nat) (f : CalTile → CalTile) : (s.updCal t f).mem = s.mem := rfl
@[simp] theorem State.holds_updCal (s : State) (t : Nat) (f : CalTile → CalTile) : (s.updCal t f).holds = s.holds := rfl
@[simp] theorem State.lowSeen_updCal (s : State) (t : Nat) (f : CalTile → CalTile) : (s.updCal t f).lowSeen = s.lowSeen := rfl
@[simp] theorem State.latches_updCal (s : State) (t : Nat) (f : CalTile → CalTile) : (s.updCal t f).latches = s.latches := rfl
@[simp] theorem State.cyc_updCal (s : State) (t : Nat) (f : CalTile → CalTile) : (s.updCal t f).cyc = s.cyc := rfl
@[simp] theorem State.bank_updCal (s : State) (t : Nat) (f : CalTile → CalTile) : (s.updCal t f).bank = s.bank := rfl
@[simp] theorem State.retiring_updCal (s : State) (t : Nat) (f : CalTile → CalTile) : (s.updCal t f).retiring = s.retiring := rfl
@[simp] theorem State.tim_updCal (s : State) (t : Nat) (f : CalTile → CalTile) : (s.updCal t f).tim = s.tim := rfl
@[simp] theorem State.fab_updCal (s : State) (t : Nat) (f : CalTile → CalTile) : (s.updCal t f).fab = s.fab := rfl
@[simp] theorem State.que_updCal (s : State) (t : Nat) (f : CalTile → CalTile) : (s.updCal t f).que = s.que := rfl
@[simp] theorem State.net_updCal (s : State) (t : Nat) (f : CalTile → CalTile) : (s.updCal t f).net = s.net := rfl
@[simp] theorem State.links_updCal (s : State) (t : Nat) (f : CalTile → CalTile) : (s.updCal t f).links = s.links := rfl
@[simp] theorem State.ports_updCal (s : State) (t : Nat) (f : CalTile → CalTile) : (s.updCal t f).ports = s.ports := rfl
@[simp] theorem State.prbs_updCal (s : State) (t : Nat) (f : CalTile → CalTile) : (s.updCal t f).prbs = s.prbs := rfl
@[simp] theorem State.path_updCal (s : State) (t : Nat) (f : CalTile → CalTile) : (s.updCal t f).path = s.path := rfl
@[simp] theorem State.sti_updCal (s : State) (t : Nat) (f : CalTile → CalTile) : (s.updCal t f).sti = s.sti := rfl
@[simp] theorem State.ref_updCal (s : State) (t : Nat) (f : CalTile → CalTile) : (s.updCal t f).ref = s.ref := rfl
@[simp] theorem State.sgm_updCal (s : State) (t : Nat) (f : CalTile → CalTile) : (s.updCal t f).sgm = s.sgm := rfl
@[simp] theorem State.eng_updCal (s : State) (t : Nat) (f : CalTile → CalTile) : (s.updCal t f).eng = s.eng := rfl
@[simp] theorem State.lcs_updCal (s : State) (t : Nat) (f : CalTile → CalTile) : (s.updCal t f).lcs = s.lcs := rfl
@[simp] theorem State.pos_updCal (s : State) (t : Nat) (f : CalTile → CalTile) : (s.updCal t f).pos = s.pos := rfl
@[simp] theorem State.dma_updCal (s : State) (t : Nat) (f : CalTile → CalTile) : (s.updCal t f).dma = s.dma := rfl
@[simp] theorem State.cfg_updCal (s : State) (t : Nat) (f : CalTile → CalTile) : (s.updCal t f).cfg = s.cfg := rfl
@[simp] theorem State.pwr_updCal (s : State) (t : Nat) (f : CalTile → CalTile) : (s.updCal t f).pwr = s.pwr := rfl
@[simp] theorem State.fir_updCal (s : State) (t : Nat) (f : CalTile → CalTile) : (s.updCal t f).fir = s.fir := rfl
@[simp] theorem State.regions_updCal (s : State) (t : Nat) (f : CalTile → CalTile) : (s.updCal t f).regions = s.regions := rfl
@[simp] theorem State.clk_updCal (s : State) (t : Nat) (f : CalTile → CalTile) : (s.updCal t f).clk = s.clk := rfl
@[simp] theorem State.grids_updCal (s : State) (t : Nat) (f : CalTile → CalTile) : (s.updCal t f).grids = s.grids := rfl
@[simp] theorem State.led_updCal (s : State) (t : Nat) (f : CalTile → CalTile) : (s.updCal t f).led = s.led := rfl
@[simp] theorem State.freeCtr_updCal (s : State) (t : Nat) (f : CalTile → CalTile) : (s.updCal t f).freeCtr = s.freeCtr := rfl
@[simp] theorem State.pending_updCal (s : State) (t : Nat) (f : CalTile → CalTile) : (s.updCal t f).pending = s.pending := rfl

/-! updSti. -/

@[simp] theorem State.id_updSti (s : State) (f : Stitch → Stitch) : (s.updSti f).id = s.id := rfl
@[simp] theorem State.regs_updSti (s : State) (f : Stitch → Stitch) : (s.updSti f).regs = s.regs := rfl
@[simp] theorem State.mem_updSti (s : State) (f : Stitch → Stitch) : (s.updSti f).mem = s.mem := rfl
@[simp] theorem State.holds_updSti (s : State) (f : Stitch → Stitch) : (s.updSti f).holds = s.holds := rfl
@[simp] theorem State.lowSeen_updSti (s : State) (f : Stitch → Stitch) : (s.updSti f).lowSeen = s.lowSeen := rfl
@[simp] theorem State.latches_updSti (s : State) (f : Stitch → Stitch) : (s.updSti f).latches = s.latches := rfl
@[simp] theorem State.cyc_updSti (s : State) (f : Stitch → Stitch) : (s.updSti f).cyc = s.cyc := rfl
@[simp] theorem State.bank_updSti (s : State) (f : Stitch → Stitch) : (s.updSti f).bank = s.bank := rfl
@[simp] theorem State.retiring_updSti (s : State) (f : Stitch → Stitch) : (s.updSti f).retiring = s.retiring := rfl
@[simp] theorem State.tim_updSti (s : State) (f : Stitch → Stitch) : (s.updSti f).tim = s.tim := rfl
@[simp] theorem State.fab_updSti (s : State) (f : Stitch → Stitch) : (s.updSti f).fab = s.fab := rfl
@[simp] theorem State.que_updSti (s : State) (f : Stitch → Stitch) : (s.updSti f).que = s.que := rfl
@[simp] theorem State.net_updSti (s : State) (f : Stitch → Stitch) : (s.updSti f).net = s.net := rfl
@[simp] theorem State.links_updSti (s : State) (f : Stitch → Stitch) : (s.updSti f).links = s.links := rfl
@[simp] theorem State.ports_updSti (s : State) (f : Stitch → Stitch) : (s.updSti f).ports = s.ports := rfl
@[simp] theorem State.prbs_updSti (s : State) (f : Stitch → Stitch) : (s.updSti f).prbs = s.prbs := rfl
@[simp] theorem State.path_updSti (s : State) (f : Stitch → Stitch) : (s.updSti f).path = s.path := rfl
@[simp] theorem State.ref_updSti (s : State) (f : Stitch → Stitch) : (s.updSti f).ref = s.ref := rfl
@[simp] theorem State.sgm_updSti (s : State) (f : Stitch → Stitch) : (s.updSti f).sgm = s.sgm := rfl
@[simp] theorem State.eng_updSti (s : State) (f : Stitch → Stitch) : (s.updSti f).eng = s.eng := rfl
@[simp] theorem State.lcs_updSti (s : State) (f : Stitch → Stitch) : (s.updSti f).lcs = s.lcs := rfl
@[simp] theorem State.pos_updSti (s : State) (f : Stitch → Stitch) : (s.updSti f).pos = s.pos := rfl
@[simp] theorem State.cal_updSti (s : State) (f : Stitch → Stitch) : (s.updSti f).cal = s.cal := rfl
@[simp] theorem State.dma_updSti (s : State) (f : Stitch → Stitch) : (s.updSti f).dma = s.dma := rfl
@[simp] theorem State.cfg_updSti (s : State) (f : Stitch → Stitch) : (s.updSti f).cfg = s.cfg := rfl
@[simp] theorem State.pwr_updSti (s : State) (f : Stitch → Stitch) : (s.updSti f).pwr = s.pwr := rfl
@[simp] theorem State.fir_updSti (s : State) (f : Stitch → Stitch) : (s.updSti f).fir = s.fir := rfl
@[simp] theorem State.regions_updSti (s : State) (f : Stitch → Stitch) : (s.updSti f).regions = s.regions := rfl
@[simp] theorem State.clk_updSti (s : State) (f : Stitch → Stitch) : (s.updSti f).clk = s.clk := rfl
@[simp] theorem State.grids_updSti (s : State) (f : Stitch → Stitch) : (s.updSti f).grids = s.grids := rfl
@[simp] theorem State.led_updSti (s : State) (f : Stitch → Stitch) : (s.updSti f).led = s.led := rfl
@[simp] theorem State.freeCtr_updSti (s : State) (f : Stitch → Stitch) : (s.updSti f).freeCtr = s.freeCtr := rfl
@[simp] theorem State.pending_updSti (s : State) (f : Stitch → Stitch) : (s.updSti f).pending = s.pending := rfl

/-! updRef. -/

@[simp] theorem State.id_updRef (s : State) (f : RefState → RefState) : (s.updRef f).id = s.id := rfl
@[simp] theorem State.regs_updRef (s : State) (f : RefState → RefState) : (s.updRef f).regs = s.regs := rfl
@[simp] theorem State.mem_updRef (s : State) (f : RefState → RefState) : (s.updRef f).mem = s.mem := rfl
@[simp] theorem State.holds_updRef (s : State) (f : RefState → RefState) : (s.updRef f).holds = s.holds := rfl
@[simp] theorem State.lowSeen_updRef (s : State) (f : RefState → RefState) : (s.updRef f).lowSeen = s.lowSeen := rfl
@[simp] theorem State.latches_updRef (s : State) (f : RefState → RefState) : (s.updRef f).latches = s.latches := rfl
@[simp] theorem State.cyc_updRef (s : State) (f : RefState → RefState) : (s.updRef f).cyc = s.cyc := rfl
@[simp] theorem State.bank_updRef (s : State) (f : RefState → RefState) : (s.updRef f).bank = s.bank := rfl
@[simp] theorem State.retiring_updRef (s : State) (f : RefState → RefState) : (s.updRef f).retiring = s.retiring := rfl
@[simp] theorem State.tim_updRef (s : State) (f : RefState → RefState) : (s.updRef f).tim = s.tim := rfl
@[simp] theorem State.fab_updRef (s : State) (f : RefState → RefState) : (s.updRef f).fab = s.fab := rfl
@[simp] theorem State.que_updRef (s : State) (f : RefState → RefState) : (s.updRef f).que = s.que := rfl
@[simp] theorem State.net_updRef (s : State) (f : RefState → RefState) : (s.updRef f).net = s.net := rfl
@[simp] theorem State.links_updRef (s : State) (f : RefState → RefState) : (s.updRef f).links = s.links := rfl
@[simp] theorem State.ports_updRef (s : State) (f : RefState → RefState) : (s.updRef f).ports = s.ports := rfl
@[simp] theorem State.prbs_updRef (s : State) (f : RefState → RefState) : (s.updRef f).prbs = s.prbs := rfl
@[simp] theorem State.path_updRef (s : State) (f : RefState → RefState) : (s.updRef f).path = s.path := rfl
@[simp] theorem State.sti_updRef (s : State) (f : RefState → RefState) : (s.updRef f).sti = s.sti := rfl
@[simp] theorem State.sgm_updRef (s : State) (f : RefState → RefState) : (s.updRef f).sgm = s.sgm := rfl
@[simp] theorem State.eng_updRef (s : State) (f : RefState → RefState) : (s.updRef f).eng = s.eng := rfl
@[simp] theorem State.lcs_updRef (s : State) (f : RefState → RefState) : (s.updRef f).lcs = s.lcs := rfl
@[simp] theorem State.pos_updRef (s : State) (f : RefState → RefState) : (s.updRef f).pos = s.pos := rfl
@[simp] theorem State.cal_updRef (s : State) (f : RefState → RefState) : (s.updRef f).cal = s.cal := rfl
@[simp] theorem State.dma_updRef (s : State) (f : RefState → RefState) : (s.updRef f).dma = s.dma := rfl
@[simp] theorem State.cfg_updRef (s : State) (f : RefState → RefState) : (s.updRef f).cfg = s.cfg := rfl
@[simp] theorem State.pwr_updRef (s : State) (f : RefState → RefState) : (s.updRef f).pwr = s.pwr := rfl
@[simp] theorem State.fir_updRef (s : State) (f : RefState → RefState) : (s.updRef f).fir = s.fir := rfl
@[simp] theorem State.regions_updRef (s : State) (f : RefState → RefState) : (s.updRef f).regions = s.regions := rfl
@[simp] theorem State.clk_updRef (s : State) (f : RefState → RefState) : (s.updRef f).clk = s.clk := rfl
@[simp] theorem State.grids_updRef (s : State) (f : RefState → RefState) : (s.updRef f).grids = s.grids := rfl
@[simp] theorem State.led_updRef (s : State) (f : RefState → RefState) : (s.updRef f).led = s.led := rfl
@[simp] theorem State.freeCtr_updRef (s : State) (f : RefState → RefState) : (s.updRef f).freeCtr = s.freeCtr := rfl
@[simp] theorem State.pending_updRef (s : State) (f : RefState → RefState) : (s.updRef f).pending = s.pending := rfl

/-! updLearn. -/

@[simp] theorem State.id_updLearn (s : State) (g : Nat) (f : Learn → Learn) : (s.updLearn g f).id = s.id := rfl
@[simp] theorem State.regs_updLearn (s : State) (g : Nat) (f : Learn → Learn) : (s.updLearn g f).regs = s.regs := rfl
@[simp] theorem State.mem_updLearn (s : State) (g : Nat) (f : Learn → Learn) : (s.updLearn g f).mem = s.mem := rfl
@[simp] theorem State.holds_updLearn (s : State) (g : Nat) (f : Learn → Learn) : (s.updLearn g f).holds = s.holds := rfl
@[simp] theorem State.lowSeen_updLearn (s : State) (g : Nat) (f : Learn → Learn) : (s.updLearn g f).lowSeen = s.lowSeen := rfl
@[simp] theorem State.latches_updLearn (s : State) (g : Nat) (f : Learn → Learn) : (s.updLearn g f).latches = s.latches := rfl
@[simp] theorem State.cyc_updLearn (s : State) (g : Nat) (f : Learn → Learn) : (s.updLearn g f).cyc = s.cyc := rfl
@[simp] theorem State.bank_updLearn (s : State) (g : Nat) (f : Learn → Learn) : (s.updLearn g f).bank = s.bank := rfl
@[simp] theorem State.retiring_updLearn (s : State) (g : Nat) (f : Learn → Learn) : (s.updLearn g f).retiring = s.retiring := rfl
@[simp] theorem State.tim_updLearn (s : State) (g : Nat) (f : Learn → Learn) : (s.updLearn g f).tim = s.tim := rfl
@[simp] theorem State.fab_updLearn (s : State) (g : Nat) (f : Learn → Learn) : (s.updLearn g f).fab = s.fab := rfl
@[simp] theorem State.que_updLearn (s : State) (g : Nat) (f : Learn → Learn) : (s.updLearn g f).que = s.que := rfl
@[simp] theorem State.net_updLearn (s : State) (g : Nat) (f : Learn → Learn) : (s.updLearn g f).net = s.net := rfl
@[simp] theorem State.links_updLearn (s : State) (g : Nat) (f : Learn → Learn) : (s.updLearn g f).links = s.links := rfl
@[simp] theorem State.ports_updLearn (s : State) (g : Nat) (f : Learn → Learn) : (s.updLearn g f).ports = s.ports := rfl
@[simp] theorem State.prbs_updLearn (s : State) (g : Nat) (f : Learn → Learn) : (s.updLearn g f).prbs = s.prbs := rfl
@[simp] theorem State.path_updLearn (s : State) (g : Nat) (f : Learn → Learn) : (s.updLearn g f).path = s.path := rfl
@[simp] theorem State.sti_updLearn (s : State) (g : Nat) (f : Learn → Learn) : (s.updLearn g f).sti = s.sti := rfl
@[simp] theorem State.sgm_updLearn (s : State) (g : Nat) (f : Learn → Learn) : (s.updLearn g f).sgm = s.sgm := rfl
@[simp] theorem State.eng_updLearn (s : State) (g : Nat) (f : Learn → Learn) : (s.updLearn g f).eng = s.eng := rfl
@[simp] theorem State.lcs_updLearn (s : State) (g : Nat) (f : Learn → Learn) : (s.updLearn g f).lcs = s.lcs := rfl
@[simp] theorem State.pos_updLearn (s : State) (g : Nat) (f : Learn → Learn) : (s.updLearn g f).pos = s.pos := rfl
@[simp] theorem State.cal_updLearn (s : State) (g : Nat) (f : Learn → Learn) : (s.updLearn g f).cal = s.cal := rfl
@[simp] theorem State.dma_updLearn (s : State) (g : Nat) (f : Learn → Learn) : (s.updLearn g f).dma = s.dma := rfl
@[simp] theorem State.cfg_updLearn (s : State) (g : Nat) (f : Learn → Learn) : (s.updLearn g f).cfg = s.cfg := rfl
@[simp] theorem State.pwr_updLearn (s : State) (g : Nat) (f : Learn → Learn) : (s.updLearn g f).pwr = s.pwr := rfl
@[simp] theorem State.fir_updLearn (s : State) (g : Nat) (f : Learn → Learn) : (s.updLearn g f).fir = s.fir := rfl
@[simp] theorem State.regions_updLearn (s : State) (g : Nat) (f : Learn → Learn) : (s.updLearn g f).regions = s.regions := rfl
@[simp] theorem State.clk_updLearn (s : State) (g : Nat) (f : Learn → Learn) : (s.updLearn g f).clk = s.clk := rfl
@[simp] theorem State.grids_updLearn (s : State) (g : Nat) (f : Learn → Learn) : (s.updLearn g f).grids = s.grids := rfl
@[simp] theorem State.led_updLearn (s : State) (g : Nat) (f : Learn → Learn) : (s.updLearn g f).led = s.led := rfl
@[simp] theorem State.freeCtr_updLearn (s : State) (g : Nat) (f : Learn → Learn) : (s.updLearn g f).freeCtr = s.freeCtr := rfl
@[simp] theorem State.pending_updLearn (s : State) (g : Nat) (f : Learn → Learn) : (s.updLearn g f).pending = s.pending := rfl

/-! updSgm. -/

@[simp] theorem State.id_updSgm (s : State) (f : Seg → Seg) : (s.updSgm f).id = s.id := rfl
@[simp] theorem State.regs_updSgm (s : State) (f : Seg → Seg) : (s.updSgm f).regs = s.regs := rfl
@[simp] theorem State.mem_updSgm (s : State) (f : Seg → Seg) : (s.updSgm f).mem = s.mem := rfl
@[simp] theorem State.holds_updSgm (s : State) (f : Seg → Seg) : (s.updSgm f).holds = s.holds := rfl
@[simp] theorem State.lowSeen_updSgm (s : State) (f : Seg → Seg) : (s.updSgm f).lowSeen = s.lowSeen := rfl
@[simp] theorem State.latches_updSgm (s : State) (f : Seg → Seg) : (s.updSgm f).latches = s.latches := rfl
@[simp] theorem State.cyc_updSgm (s : State) (f : Seg → Seg) : (s.updSgm f).cyc = s.cyc := rfl
@[simp] theorem State.bank_updSgm (s : State) (f : Seg → Seg) : (s.updSgm f).bank = s.bank := rfl
@[simp] theorem State.retiring_updSgm (s : State) (f : Seg → Seg) : (s.updSgm f).retiring = s.retiring := rfl
@[simp] theorem State.tim_updSgm (s : State) (f : Seg → Seg) : (s.updSgm f).tim = s.tim := rfl
@[simp] theorem State.fab_updSgm (s : State) (f : Seg → Seg) : (s.updSgm f).fab = s.fab := rfl
@[simp] theorem State.que_updSgm (s : State) (f : Seg → Seg) : (s.updSgm f).que = s.que := rfl
@[simp] theorem State.net_updSgm (s : State) (f : Seg → Seg) : (s.updSgm f).net = s.net := rfl
@[simp] theorem State.links_updSgm (s : State) (f : Seg → Seg) : (s.updSgm f).links = s.links := rfl
@[simp] theorem State.ports_updSgm (s : State) (f : Seg → Seg) : (s.updSgm f).ports = s.ports := rfl
@[simp] theorem State.prbs_updSgm (s : State) (f : Seg → Seg) : (s.updSgm f).prbs = s.prbs := rfl
@[simp] theorem State.path_updSgm (s : State) (f : Seg → Seg) : (s.updSgm f).path = s.path := rfl
@[simp] theorem State.sti_updSgm (s : State) (f : Seg → Seg) : (s.updSgm f).sti = s.sti := rfl
@[simp] theorem State.ref_updSgm (s : State) (f : Seg → Seg) : (s.updSgm f).ref = s.ref := rfl
@[simp] theorem State.eng_updSgm (s : State) (f : Seg → Seg) : (s.updSgm f).eng = s.eng := rfl
@[simp] theorem State.lcs_updSgm (s : State) (f : Seg → Seg) : (s.updSgm f).lcs = s.lcs := rfl
@[simp] theorem State.pos_updSgm (s : State) (f : Seg → Seg) : (s.updSgm f).pos = s.pos := rfl
@[simp] theorem State.cal_updSgm (s : State) (f : Seg → Seg) : (s.updSgm f).cal = s.cal := rfl
@[simp] theorem State.dma_updSgm (s : State) (f : Seg → Seg) : (s.updSgm f).dma = s.dma := rfl
@[simp] theorem State.cfg_updSgm (s : State) (f : Seg → Seg) : (s.updSgm f).cfg = s.cfg := rfl
@[simp] theorem State.pwr_updSgm (s : State) (f : Seg → Seg) : (s.updSgm f).pwr = s.pwr := rfl
@[simp] theorem State.fir_updSgm (s : State) (f : Seg → Seg) : (s.updSgm f).fir = s.fir := rfl
@[simp] theorem State.regions_updSgm (s : State) (f : Seg → Seg) : (s.updSgm f).regions = s.regions := rfl
@[simp] theorem State.clk_updSgm (s : State) (f : Seg → Seg) : (s.updSgm f).clk = s.clk := rfl
@[simp] theorem State.grids_updSgm (s : State) (f : Seg → Seg) : (s.updSgm f).grids = s.grids := rfl
@[simp] theorem State.led_updSgm (s : State) (f : Seg → Seg) : (s.updSgm f).led = s.led := rfl
@[simp] theorem State.freeCtr_updSgm (s : State) (f : Seg → Seg) : (s.updSgm f).freeCtr = s.freeCtr := rfl
@[simp] theorem State.pending_updSgm (s : State) (f : Seg → Seg) : (s.updSgm f).pending = s.pending := rfl

/-! updPos. -/

@[simp] theorem State.id_updPos (s : State) (f : Pos → Pos) : (s.updPos f).id = s.id := rfl
@[simp] theorem State.regs_updPos (s : State) (f : Pos → Pos) : (s.updPos f).regs = s.regs := rfl
@[simp] theorem State.mem_updPos (s : State) (f : Pos → Pos) : (s.updPos f).mem = s.mem := rfl
@[simp] theorem State.holds_updPos (s : State) (f : Pos → Pos) : (s.updPos f).holds = s.holds := rfl
@[simp] theorem State.lowSeen_updPos (s : State) (f : Pos → Pos) : (s.updPos f).lowSeen = s.lowSeen := rfl
@[simp] theorem State.latches_updPos (s : State) (f : Pos → Pos) : (s.updPos f).latches = s.latches := rfl
@[simp] theorem State.cyc_updPos (s : State) (f : Pos → Pos) : (s.updPos f).cyc = s.cyc := rfl
@[simp] theorem State.bank_updPos (s : State) (f : Pos → Pos) : (s.updPos f).bank = s.bank := rfl
@[simp] theorem State.retiring_updPos (s : State) (f : Pos → Pos) : (s.updPos f).retiring = s.retiring := rfl
@[simp] theorem State.tim_updPos (s : State) (f : Pos → Pos) : (s.updPos f).tim = s.tim := rfl
@[simp] theorem State.fab_updPos (s : State) (f : Pos → Pos) : (s.updPos f).fab = s.fab := rfl
@[simp] theorem State.que_updPos (s : State) (f : Pos → Pos) : (s.updPos f).que = s.que := rfl
@[simp] theorem State.net_updPos (s : State) (f : Pos → Pos) : (s.updPos f).net = s.net := rfl
@[simp] theorem State.links_updPos (s : State) (f : Pos → Pos) : (s.updPos f).links = s.links := rfl
@[simp] theorem State.ports_updPos (s : State) (f : Pos → Pos) : (s.updPos f).ports = s.ports := rfl
@[simp] theorem State.prbs_updPos (s : State) (f : Pos → Pos) : (s.updPos f).prbs = s.prbs := rfl
@[simp] theorem State.path_updPos (s : State) (f : Pos → Pos) : (s.updPos f).path = s.path := rfl
@[simp] theorem State.sti_updPos (s : State) (f : Pos → Pos) : (s.updPos f).sti = s.sti := rfl
@[simp] theorem State.ref_updPos (s : State) (f : Pos → Pos) : (s.updPos f).ref = s.ref := rfl
@[simp] theorem State.sgm_updPos (s : State) (f : Pos → Pos) : (s.updPos f).sgm = s.sgm := rfl
@[simp] theorem State.eng_updPos (s : State) (f : Pos → Pos) : (s.updPos f).eng = s.eng := rfl
@[simp] theorem State.lcs_updPos (s : State) (f : Pos → Pos) : (s.updPos f).lcs = s.lcs := rfl
@[simp] theorem State.cal_updPos (s : State) (f : Pos → Pos) : (s.updPos f).cal = s.cal := rfl
@[simp] theorem State.dma_updPos (s : State) (f : Pos → Pos) : (s.updPos f).dma = s.dma := rfl
@[simp] theorem State.cfg_updPos (s : State) (f : Pos → Pos) : (s.updPos f).cfg = s.cfg := rfl
@[simp] theorem State.pwr_updPos (s : State) (f : Pos → Pos) : (s.updPos f).pwr = s.pwr := rfl
@[simp] theorem State.fir_updPos (s : State) (f : Pos → Pos) : (s.updPos f).fir = s.fir := rfl
@[simp] theorem State.regions_updPos (s : State) (f : Pos → Pos) : (s.updPos f).regions = s.regions := rfl
@[simp] theorem State.clk_updPos (s : State) (f : Pos → Pos) : (s.updPos f).clk = s.clk := rfl
@[simp] theorem State.grids_updPos (s : State) (f : Pos → Pos) : (s.updPos f).grids = s.grids := rfl
@[simp] theorem State.led_updPos (s : State) (f : Pos → Pos) : (s.updPos f).led = s.led := rfl
@[simp] theorem State.freeCtr_updPos (s : State) (f : Pos → Pos) : (s.updPos f).freeCtr = s.freeCtr := rfl
@[simp] theorem State.pending_updPos (s : State) (f : Pos → Pos) : (s.updPos f).pending = s.pending := rfl

/-! updCfg. -/

@[simp] theorem State.id_updCfg (s : State) (f : Cfg → Cfg) : (s.updCfg f).id = s.id := rfl
@[simp] theorem State.regs_updCfg (s : State) (f : Cfg → Cfg) : (s.updCfg f).regs = s.regs := rfl
@[simp] theorem State.mem_updCfg (s : State) (f : Cfg → Cfg) : (s.updCfg f).mem = s.mem := rfl
@[simp] theorem State.holds_updCfg (s : State) (f : Cfg → Cfg) : (s.updCfg f).holds = s.holds := rfl
@[simp] theorem State.lowSeen_updCfg (s : State) (f : Cfg → Cfg) : (s.updCfg f).lowSeen = s.lowSeen := rfl
@[simp] theorem State.latches_updCfg (s : State) (f : Cfg → Cfg) : (s.updCfg f).latches = s.latches := rfl
@[simp] theorem State.cyc_updCfg (s : State) (f : Cfg → Cfg) : (s.updCfg f).cyc = s.cyc := rfl
@[simp] theorem State.bank_updCfg (s : State) (f : Cfg → Cfg) : (s.updCfg f).bank = s.bank := rfl
@[simp] theorem State.retiring_updCfg (s : State) (f : Cfg → Cfg) : (s.updCfg f).retiring = s.retiring := rfl
@[simp] theorem State.tim_updCfg (s : State) (f : Cfg → Cfg) : (s.updCfg f).tim = s.tim := rfl
@[simp] theorem State.fab_updCfg (s : State) (f : Cfg → Cfg) : (s.updCfg f).fab = s.fab := rfl
@[simp] theorem State.que_updCfg (s : State) (f : Cfg → Cfg) : (s.updCfg f).que = s.que := rfl
@[simp] theorem State.net_updCfg (s : State) (f : Cfg → Cfg) : (s.updCfg f).net = s.net := rfl
@[simp] theorem State.links_updCfg (s : State) (f : Cfg → Cfg) : (s.updCfg f).links = s.links := rfl
@[simp] theorem State.ports_updCfg (s : State) (f : Cfg → Cfg) : (s.updCfg f).ports = s.ports := rfl
@[simp] theorem State.prbs_updCfg (s : State) (f : Cfg → Cfg) : (s.updCfg f).prbs = s.prbs := rfl
@[simp] theorem State.path_updCfg (s : State) (f : Cfg → Cfg) : (s.updCfg f).path = s.path := rfl
@[simp] theorem State.sti_updCfg (s : State) (f : Cfg → Cfg) : (s.updCfg f).sti = s.sti := rfl
@[simp] theorem State.ref_updCfg (s : State) (f : Cfg → Cfg) : (s.updCfg f).ref = s.ref := rfl
@[simp] theorem State.sgm_updCfg (s : State) (f : Cfg → Cfg) : (s.updCfg f).sgm = s.sgm := rfl
@[simp] theorem State.eng_updCfg (s : State) (f : Cfg → Cfg) : (s.updCfg f).eng = s.eng := rfl
@[simp] theorem State.lcs_updCfg (s : State) (f : Cfg → Cfg) : (s.updCfg f).lcs = s.lcs := rfl
@[simp] theorem State.pos_updCfg (s : State) (f : Cfg → Cfg) : (s.updCfg f).pos = s.pos := rfl
@[simp] theorem State.cal_updCfg (s : State) (f : Cfg → Cfg) : (s.updCfg f).cal = s.cal := rfl
@[simp] theorem State.dma_updCfg (s : State) (f : Cfg → Cfg) : (s.updCfg f).dma = s.dma := rfl
@[simp] theorem State.pwr_updCfg (s : State) (f : Cfg → Cfg) : (s.updCfg f).pwr = s.pwr := rfl
@[simp] theorem State.fir_updCfg (s : State) (f : Cfg → Cfg) : (s.updCfg f).fir = s.fir := rfl
@[simp] theorem State.regions_updCfg (s : State) (f : Cfg → Cfg) : (s.updCfg f).regions = s.regions := rfl
@[simp] theorem State.clk_updCfg (s : State) (f : Cfg → Cfg) : (s.updCfg f).clk = s.clk := rfl
@[simp] theorem State.grids_updCfg (s : State) (f : Cfg → Cfg) : (s.updCfg f).grids = s.grids := rfl
@[simp] theorem State.led_updCfg (s : State) (f : Cfg → Cfg) : (s.updCfg f).led = s.led := rfl
@[simp] theorem State.freeCtr_updCfg (s : State) (f : Cfg → Cfg) : (s.updCfg f).freeCtr = s.freeCtr := rfl
@[simp] theorem State.pending_updCfg (s : State) (f : Cfg → Cfg) : (s.updCfg f).pending = s.pending := rfl

/-! updLcs. -/

@[simp] theorem State.id_updLcs (s : State) (f : Lcs → Lcs) : (s.updLcs f).id = s.id := rfl
@[simp] theorem State.regs_updLcs (s : State) (f : Lcs → Lcs) : (s.updLcs f).regs = s.regs := rfl
@[simp] theorem State.mem_updLcs (s : State) (f : Lcs → Lcs) : (s.updLcs f).mem = s.mem := rfl
@[simp] theorem State.holds_updLcs (s : State) (f : Lcs → Lcs) : (s.updLcs f).holds = s.holds := rfl
@[simp] theorem State.lowSeen_updLcs (s : State) (f : Lcs → Lcs) : (s.updLcs f).lowSeen = s.lowSeen := rfl
@[simp] theorem State.latches_updLcs (s : State) (f : Lcs → Lcs) : (s.updLcs f).latches = s.latches := rfl
@[simp] theorem State.cyc_updLcs (s : State) (f : Lcs → Lcs) : (s.updLcs f).cyc = s.cyc := rfl
@[simp] theorem State.bank_updLcs (s : State) (f : Lcs → Lcs) : (s.updLcs f).bank = s.bank := rfl
@[simp] theorem State.retiring_updLcs (s : State) (f : Lcs → Lcs) : (s.updLcs f).retiring = s.retiring := rfl
@[simp] theorem State.tim_updLcs (s : State) (f : Lcs → Lcs) : (s.updLcs f).tim = s.tim := rfl
@[simp] theorem State.fab_updLcs (s : State) (f : Lcs → Lcs) : (s.updLcs f).fab = s.fab := rfl
@[simp] theorem State.que_updLcs (s : State) (f : Lcs → Lcs) : (s.updLcs f).que = s.que := rfl
@[simp] theorem State.net_updLcs (s : State) (f : Lcs → Lcs) : (s.updLcs f).net = s.net := rfl
@[simp] theorem State.links_updLcs (s : State) (f : Lcs → Lcs) : (s.updLcs f).links = s.links := rfl
@[simp] theorem State.ports_updLcs (s : State) (f : Lcs → Lcs) : (s.updLcs f).ports = s.ports := rfl
@[simp] theorem State.prbs_updLcs (s : State) (f : Lcs → Lcs) : (s.updLcs f).prbs = s.prbs := rfl
@[simp] theorem State.path_updLcs (s : State) (f : Lcs → Lcs) : (s.updLcs f).path = s.path := rfl
@[simp] theorem State.sti_updLcs (s : State) (f : Lcs → Lcs) : (s.updLcs f).sti = s.sti := rfl
@[simp] theorem State.ref_updLcs (s : State) (f : Lcs → Lcs) : (s.updLcs f).ref = s.ref := rfl
@[simp] theorem State.sgm_updLcs (s : State) (f : Lcs → Lcs) : (s.updLcs f).sgm = s.sgm := rfl
@[simp] theorem State.eng_updLcs (s : State) (f : Lcs → Lcs) : (s.updLcs f).eng = s.eng := rfl
@[simp] theorem State.pos_updLcs (s : State) (f : Lcs → Lcs) : (s.updLcs f).pos = s.pos := rfl
@[simp] theorem State.cal_updLcs (s : State) (f : Lcs → Lcs) : (s.updLcs f).cal = s.cal := rfl
@[simp] theorem State.dma_updLcs (s : State) (f : Lcs → Lcs) : (s.updLcs f).dma = s.dma := rfl
@[simp] theorem State.cfg_updLcs (s : State) (f : Lcs → Lcs) : (s.updLcs f).cfg = s.cfg := rfl
@[simp] theorem State.pwr_updLcs (s : State) (f : Lcs → Lcs) : (s.updLcs f).pwr = s.pwr := rfl
@[simp] theorem State.fir_updLcs (s : State) (f : Lcs → Lcs) : (s.updLcs f).fir = s.fir := rfl
@[simp] theorem State.regions_updLcs (s : State) (f : Lcs → Lcs) : (s.updLcs f).regions = s.regions := rfl
@[simp] theorem State.clk_updLcs (s : State) (f : Lcs → Lcs) : (s.updLcs f).clk = s.clk := rfl
@[simp] theorem State.grids_updLcs (s : State) (f : Lcs → Lcs) : (s.updLcs f).grids = s.grids := rfl
@[simp] theorem State.led_updLcs (s : State) (f : Lcs → Lcs) : (s.updLcs f).led = s.led := rfl
@[simp] theorem State.freeCtr_updLcs (s : State) (f : Lcs → Lcs) : (s.updLcs f).freeCtr = s.freeCtr := rfl
@[simp] theorem State.pending_updLcs (s : State) (f : Lcs → Lcs) : (s.updLcs f).pending = s.pending := rfl

/-! updDma. -/

@[simp] theorem State.id_updDma (s : State) (t c : Nat) (f : DmaChan → DmaChan) : (s.updDma t c f).id = s.id := rfl
@[simp] theorem State.regs_updDma (s : State) (t c : Nat) (f : DmaChan → DmaChan) : (s.updDma t c f).regs = s.regs := rfl
@[simp] theorem State.mem_updDma (s : State) (t c : Nat) (f : DmaChan → DmaChan) : (s.updDma t c f).mem = s.mem := rfl
@[simp] theorem State.holds_updDma (s : State) (t c : Nat) (f : DmaChan → DmaChan) : (s.updDma t c f).holds = s.holds := rfl
@[simp] theorem State.lowSeen_updDma (s : State) (t c : Nat) (f : DmaChan → DmaChan) : (s.updDma t c f).lowSeen = s.lowSeen := rfl
@[simp] theorem State.latches_updDma (s : State) (t c : Nat) (f : DmaChan → DmaChan) : (s.updDma t c f).latches = s.latches := rfl
@[simp] theorem State.cyc_updDma (s : State) (t c : Nat) (f : DmaChan → DmaChan) : (s.updDma t c f).cyc = s.cyc := rfl
@[simp] theorem State.bank_updDma (s : State) (t c : Nat) (f : DmaChan → DmaChan) : (s.updDma t c f).bank = s.bank := rfl
@[simp] theorem State.retiring_updDma (s : State) (t c : Nat) (f : DmaChan → DmaChan) : (s.updDma t c f).retiring = s.retiring := rfl
@[simp] theorem State.tim_updDma (s : State) (t c : Nat) (f : DmaChan → DmaChan) : (s.updDma t c f).tim = s.tim := rfl
@[simp] theorem State.fab_updDma (s : State) (t c : Nat) (f : DmaChan → DmaChan) : (s.updDma t c f).fab = s.fab := rfl
@[simp] theorem State.que_updDma (s : State) (t c : Nat) (f : DmaChan → DmaChan) : (s.updDma t c f).que = s.que := rfl
@[simp] theorem State.net_updDma (s : State) (t c : Nat) (f : DmaChan → DmaChan) : (s.updDma t c f).net = s.net := rfl
@[simp] theorem State.links_updDma (s : State) (t c : Nat) (f : DmaChan → DmaChan) : (s.updDma t c f).links = s.links := rfl
@[simp] theorem State.ports_updDma (s : State) (t c : Nat) (f : DmaChan → DmaChan) : (s.updDma t c f).ports = s.ports := rfl
@[simp] theorem State.prbs_updDma (s : State) (t c : Nat) (f : DmaChan → DmaChan) : (s.updDma t c f).prbs = s.prbs := rfl
@[simp] theorem State.path_updDma (s : State) (t c : Nat) (f : DmaChan → DmaChan) : (s.updDma t c f).path = s.path := rfl
@[simp] theorem State.sti_updDma (s : State) (t c : Nat) (f : DmaChan → DmaChan) : (s.updDma t c f).sti = s.sti := rfl
@[simp] theorem State.ref_updDma (s : State) (t c : Nat) (f : DmaChan → DmaChan) : (s.updDma t c f).ref = s.ref := rfl
@[simp] theorem State.sgm_updDma (s : State) (t c : Nat) (f : DmaChan → DmaChan) : (s.updDma t c f).sgm = s.sgm := rfl
@[simp] theorem State.eng_updDma (s : State) (t c : Nat) (f : DmaChan → DmaChan) : (s.updDma t c f).eng = s.eng := rfl
@[simp] theorem State.lcs_updDma (s : State) (t c : Nat) (f : DmaChan → DmaChan) : (s.updDma t c f).lcs = s.lcs := rfl
@[simp] theorem State.pos_updDma (s : State) (t c : Nat) (f : DmaChan → DmaChan) : (s.updDma t c f).pos = s.pos := rfl
@[simp] theorem State.cal_updDma (s : State) (t c : Nat) (f : DmaChan → DmaChan) : (s.updDma t c f).cal = s.cal := rfl
@[simp] theorem State.cfg_updDma (s : State) (t c : Nat) (f : DmaChan → DmaChan) : (s.updDma t c f).cfg = s.cfg := rfl
@[simp] theorem State.pwr_updDma (s : State) (t c : Nat) (f : DmaChan → DmaChan) : (s.updDma t c f).pwr = s.pwr := rfl
@[simp] theorem State.fir_updDma (s : State) (t c : Nat) (f : DmaChan → DmaChan) : (s.updDma t c f).fir = s.fir := rfl
@[simp] theorem State.regions_updDma (s : State) (t c : Nat) (f : DmaChan → DmaChan) : (s.updDma t c f).regions = s.regions := rfl
@[simp] theorem State.clk_updDma (s : State) (t c : Nat) (f : DmaChan → DmaChan) : (s.updDma t c f).clk = s.clk := rfl
@[simp] theorem State.grids_updDma (s : State) (t c : Nat) (f : DmaChan → DmaChan) : (s.updDma t c f).grids = s.grids := rfl
@[simp] theorem State.led_updDma (s : State) (t c : Nat) (f : DmaChan → DmaChan) : (s.updDma t c f).led = s.led := rfl
@[simp] theorem State.freeCtr_updDma (s : State) (t c : Nat) (f : DmaChan → DmaChan) : (s.updDma t c f).freeCtr = s.freeCtr := rfl
@[simp] theorem State.pending_updDma (s : State) (t c : Nat) (f : DmaChan → DmaChan) : (s.updDma t c f).pending = s.pending := rfl

/-! updFir. -/

@[simp] theorem State.id_updFir (s : State) (t f : Nat) (g : FirChan → FirChan) : (s.updFir t f g).id = s.id := rfl
@[simp] theorem State.regs_updFir (s : State) (t f : Nat) (g : FirChan → FirChan) : (s.updFir t f g).regs = s.regs := rfl
@[simp] theorem State.mem_updFir (s : State) (t f : Nat) (g : FirChan → FirChan) : (s.updFir t f g).mem = s.mem := rfl
@[simp] theorem State.holds_updFir (s : State) (t f : Nat) (g : FirChan → FirChan) : (s.updFir t f g).holds = s.holds := rfl
@[simp] theorem State.lowSeen_updFir (s : State) (t f : Nat) (g : FirChan → FirChan) : (s.updFir t f g).lowSeen = s.lowSeen := rfl
@[simp] theorem State.latches_updFir (s : State) (t f : Nat) (g : FirChan → FirChan) : (s.updFir t f g).latches = s.latches := rfl
@[simp] theorem State.cyc_updFir (s : State) (t f : Nat) (g : FirChan → FirChan) : (s.updFir t f g).cyc = s.cyc := rfl
@[simp] theorem State.bank_updFir (s : State) (t f : Nat) (g : FirChan → FirChan) : (s.updFir t f g).bank = s.bank := rfl
@[simp] theorem State.retiring_updFir (s : State) (t f : Nat) (g : FirChan → FirChan) : (s.updFir t f g).retiring = s.retiring := rfl
@[simp] theorem State.tim_updFir (s : State) (t f : Nat) (g : FirChan → FirChan) : (s.updFir t f g).tim = s.tim := rfl
@[simp] theorem State.fab_updFir (s : State) (t f : Nat) (g : FirChan → FirChan) : (s.updFir t f g).fab = s.fab := rfl
@[simp] theorem State.que_updFir (s : State) (t f : Nat) (g : FirChan → FirChan) : (s.updFir t f g).que = s.que := rfl
@[simp] theorem State.net_updFir (s : State) (t f : Nat) (g : FirChan → FirChan) : (s.updFir t f g).net = s.net := rfl
@[simp] theorem State.links_updFir (s : State) (t f : Nat) (g : FirChan → FirChan) : (s.updFir t f g).links = s.links := rfl
@[simp] theorem State.ports_updFir (s : State) (t f : Nat) (g : FirChan → FirChan) : (s.updFir t f g).ports = s.ports := rfl
@[simp] theorem State.prbs_updFir (s : State) (t f : Nat) (g : FirChan → FirChan) : (s.updFir t f g).prbs = s.prbs := rfl
@[simp] theorem State.path_updFir (s : State) (t f : Nat) (g : FirChan → FirChan) : (s.updFir t f g).path = s.path := rfl
@[simp] theorem State.sti_updFir (s : State) (t f : Nat) (g : FirChan → FirChan) : (s.updFir t f g).sti = s.sti := rfl
@[simp] theorem State.ref_updFir (s : State) (t f : Nat) (g : FirChan → FirChan) : (s.updFir t f g).ref = s.ref := rfl
@[simp] theorem State.sgm_updFir (s : State) (t f : Nat) (g : FirChan → FirChan) : (s.updFir t f g).sgm = s.sgm := rfl
@[simp] theorem State.eng_updFir (s : State) (t f : Nat) (g : FirChan → FirChan) : (s.updFir t f g).eng = s.eng := rfl
@[simp] theorem State.lcs_updFir (s : State) (t f : Nat) (g : FirChan → FirChan) : (s.updFir t f g).lcs = s.lcs := rfl
@[simp] theorem State.pos_updFir (s : State) (t f : Nat) (g : FirChan → FirChan) : (s.updFir t f g).pos = s.pos := rfl
@[simp] theorem State.cal_updFir (s : State) (t f : Nat) (g : FirChan → FirChan) : (s.updFir t f g).cal = s.cal := rfl
@[simp] theorem State.dma_updFir (s : State) (t f : Nat) (g : FirChan → FirChan) : (s.updFir t f g).dma = s.dma := rfl
@[simp] theorem State.cfg_updFir (s : State) (t f : Nat) (g : FirChan → FirChan) : (s.updFir t f g).cfg = s.cfg := rfl
@[simp] theorem State.pwr_updFir (s : State) (t f : Nat) (g : FirChan → FirChan) : (s.updFir t f g).pwr = s.pwr := rfl
@[simp] theorem State.regions_updFir (s : State) (t f : Nat) (g : FirChan → FirChan) : (s.updFir t f g).regions = s.regions := rfl
@[simp] theorem State.clk_updFir (s : State) (t f : Nat) (g : FirChan → FirChan) : (s.updFir t f g).clk = s.clk := rfl
@[simp] theorem State.grids_updFir (s : State) (t f : Nat) (g : FirChan → FirChan) : (s.updFir t f g).grids = s.grids := rfl
@[simp] theorem State.led_updFir (s : State) (t f : Nat) (g : FirChan → FirChan) : (s.updFir t f g).led = s.led := rfl
@[simp] theorem State.freeCtr_updFir (s : State) (t f : Nat) (g : FirChan → FirChan) : (s.updFir t f g).freeCtr = s.freeCtr := rfl
@[simp] theorem State.pending_updFir (s : State) (t f : Nat) (g : FirChan → FirChan) : (s.updFir t f g).pending = s.pending := rfl

/-! setTxq. -/

@[simp] theorem State.id_setTxq (s : State) (p q : Nat) (l : List TxFrame) : (s.setTxq p q l).id = s.id := rfl
@[simp] theorem State.regs_setTxq (s : State) (p q : Nat) (l : List TxFrame) : (s.setTxq p q l).regs = s.regs := rfl
@[simp] theorem State.mem_setTxq (s : State) (p q : Nat) (l : List TxFrame) : (s.setTxq p q l).mem = s.mem := rfl
@[simp] theorem State.holds_setTxq (s : State) (p q : Nat) (l : List TxFrame) : (s.setTxq p q l).holds = s.holds := rfl
@[simp] theorem State.lowSeen_setTxq (s : State) (p q : Nat) (l : List TxFrame) : (s.setTxq p q l).lowSeen = s.lowSeen := rfl
@[simp] theorem State.latches_setTxq (s : State) (p q : Nat) (l : List TxFrame) : (s.setTxq p q l).latches = s.latches := rfl
@[simp] theorem State.cyc_setTxq (s : State) (p q : Nat) (l : List TxFrame) : (s.setTxq p q l).cyc = s.cyc := rfl
@[simp] theorem State.bank_setTxq (s : State) (p q : Nat) (l : List TxFrame) : (s.setTxq p q l).bank = s.bank := rfl
@[simp] theorem State.retiring_setTxq (s : State) (p q : Nat) (l : List TxFrame) : (s.setTxq p q l).retiring = s.retiring := rfl
@[simp] theorem State.tim_setTxq (s : State) (p q : Nat) (l : List TxFrame) : (s.setTxq p q l).tim = s.tim := rfl
@[simp] theorem State.fab_setTxq (s : State) (p q : Nat) (l : List TxFrame) : (s.setTxq p q l).fab = s.fab := rfl
@[simp] theorem State.que_setTxq (s : State) (p q : Nat) (l : List TxFrame) : (s.setTxq p q l).que = s.que := rfl
@[simp] theorem State.links_setTxq (s : State) (p q : Nat) (l : List TxFrame) : (s.setTxq p q l).links = s.links := rfl
@[simp] theorem State.ports_setTxq (s : State) (p q : Nat) (l : List TxFrame) : (s.setTxq p q l).ports = s.ports := rfl
@[simp] theorem State.prbs_setTxq (s : State) (p q : Nat) (l : List TxFrame) : (s.setTxq p q l).prbs = s.prbs := rfl
@[simp] theorem State.path_setTxq (s : State) (p q : Nat) (l : List TxFrame) : (s.setTxq p q l).path = s.path := rfl
@[simp] theorem State.sti_setTxq (s : State) (p q : Nat) (l : List TxFrame) : (s.setTxq p q l).sti = s.sti := rfl
@[simp] theorem State.ref_setTxq (s : State) (p q : Nat) (l : List TxFrame) : (s.setTxq p q l).ref = s.ref := rfl
@[simp] theorem State.sgm_setTxq (s : State) (p q : Nat) (l : List TxFrame) : (s.setTxq p q l).sgm = s.sgm := rfl
@[simp] theorem State.eng_setTxq (s : State) (p q : Nat) (l : List TxFrame) : (s.setTxq p q l).eng = s.eng := rfl
@[simp] theorem State.lcs_setTxq (s : State) (p q : Nat) (l : List TxFrame) : (s.setTxq p q l).lcs = s.lcs := rfl
@[simp] theorem State.pos_setTxq (s : State) (p q : Nat) (l : List TxFrame) : (s.setTxq p q l).pos = s.pos := rfl
@[simp] theorem State.cal_setTxq (s : State) (p q : Nat) (l : List TxFrame) : (s.setTxq p q l).cal = s.cal := rfl
@[simp] theorem State.dma_setTxq (s : State) (p q : Nat) (l : List TxFrame) : (s.setTxq p q l).dma = s.dma := rfl
@[simp] theorem State.cfg_setTxq (s : State) (p q : Nat) (l : List TxFrame) : (s.setTxq p q l).cfg = s.cfg := rfl
@[simp] theorem State.pwr_setTxq (s : State) (p q : Nat) (l : List TxFrame) : (s.setTxq p q l).pwr = s.pwr := rfl
@[simp] theorem State.fir_setTxq (s : State) (p q : Nat) (l : List TxFrame) : (s.setTxq p q l).fir = s.fir := rfl
@[simp] theorem State.regions_setTxq (s : State) (p q : Nat) (l : List TxFrame) : (s.setTxq p q l).regions = s.regions := rfl
@[simp] theorem State.clk_setTxq (s : State) (p q : Nat) (l : List TxFrame) : (s.setTxq p q l).clk = s.clk := rfl
@[simp] theorem State.grids_setTxq (s : State) (p q : Nat) (l : List TxFrame) : (s.setTxq p q l).grids = s.grids := rfl
@[simp] theorem State.led_setTxq (s : State) (p q : Nat) (l : List TxFrame) : (s.setTxq p q l).led = s.led := rfl
@[simp] theorem State.freeCtr_setTxq (s : State) (p q : Nat) (l : List TxFrame) : (s.setTxq p q l).freeCtr = s.freeCtr := rfl
@[simp] theorem State.pending_setTxq (s : State) (p q : Nat) (l : List TxFrame) : (s.setTxq p q l).pending = s.pending := rfl

/-! Reads after updates that write no register. -/

@[simp] theorem State.rd_setByte (s : State) (a : Nat) (v : Byte) (t' : Nat) (f' : Fld) : (s.setByte a v).rd t' f' = s.rd t' f' := rfl
@[simp] theorem State.is_setByte (s : State) (a : Nat) (v : Byte) (t' : Nat) (f' : Fld) : (s.setByte a v).is t' f' = s.is t' f' := rfl
@[simp] theorem State.rd64_setByte (s : State) (a : Nat) (v : Byte) (t' : Nat) (f' : Fld) : (s.setByte a v).rd64 t' f' = s.rd64 t' f' := rfl
@[simp] theorem State.wordB_setByte (s : State) (a : Nat) (v : Byte) (b' t' k' o' : Nat) : (s.setByte a v).wordB b' t' k' o' = s.wordB b' t' k' o' := rfl
@[simp] theorem State.rd_updEng (s : State) (t n : Nat) (f : EngState → EngState) (t' : Nat) (f' : Fld) : (s.updEng t n f).rd t' f' = s.rd t' f' := rfl
@[simp] theorem State.is_updEng (s : State) (t n : Nat) (f : EngState → EngState) (t' : Nat) (f' : Fld) : (s.updEng t n f).is t' f' = s.is t' f' := rfl
@[simp] theorem State.rd64_updEng (s : State) (t n : Nat) (f : EngState → EngState) (t' : Nat) (f' : Fld) : (s.updEng t n f).rd64 t' f' = s.rd64 t' f' := rfl
@[simp] theorem State.wordB_updEng (s : State) (t n : Nat) (f : EngState → EngState) (b' t' k' o' : Nat) : (s.updEng t n f).wordB b' t' k' o' = s.wordB b' t' k' o' := rfl
@[simp] theorem State.rd_putS (s : State) (t e r v : Nat) (t' : Nat) (f' : Fld) : (s.putS t e r v).rd t' f' = s.rd t' f' := rfl
@[simp] theorem State.is_putS (s : State) (t e r v : Nat) (t' : Nat) (f' : Fld) : (s.putS t e r v).is t' f' = s.is t' f' := rfl
@[simp] theorem State.rd64_putS (s : State) (t e r v : Nat) (t' : Nat) (f' : Fld) : (s.putS t e r v).rd64 t' f' = s.rd64 t' f' := rfl
@[simp] theorem State.wordB_putS (s : State) (t e r v : Nat) (b' t' k' o' : Nat) : (s.putS t e r v).wordB b' t' k' o' = s.wordB b' t' k' o' := rfl
@[simp] theorem State.rd_putV (s : State) (t e r : Nat) (on : Nat → Bool) (g : Nat → Nat) (t' : Nat) (f' : Fld) : (s.putV t e r on g).rd t' f' = s.rd t' f' := rfl
@[simp] theorem State.is_putV (s : State) (t e r : Nat) (on : Nat → Bool) (g : Nat → Nat) (t' : Nat) (f' : Fld) : (s.putV t e r on g).is t' f' = s.is t' f' := rfl
@[simp] theorem State.rd64_putV (s : State) (t e r : Nat) (on : Nat → Bool) (g : Nat → Nat) (t' : Nat) (f' : Fld) : (s.putV t e r on g).rd64 t' f' = s.rd64 t' f' := rfl
@[simp] theorem State.wordB_putV (s : State) (t e r : Nat) (on : Nat → Bool) (g : Nat → Nat) (b' t' k' o' : Nat) : (s.putV t e r on g).wordB b' t' k' o' = s.wordB b' t' k' o' := rfl
@[simp] theorem State.rd_updSub (s : State) (sub : Nat) (f : SubState → SubState) (t' : Nat) (f' : Fld) : (s.updSub sub f).rd t' f' = s.rd t' f' := rfl
@[simp] theorem State.is_updSub (s : State) (sub : Nat) (f : SubState → SubState) (t' : Nat) (f' : Fld) : (s.updSub sub f).is t' f' = s.is t' f' := rfl
@[simp] theorem State.rd64_updSub (s : State) (sub : Nat) (f : SubState → SubState) (t' : Nat) (f' : Fld) : (s.updSub sub f).rd64 t' f' = s.rd64 t' f' := rfl
@[simp] theorem State.wordB_updSub (s : State) (sub : Nat) (f : SubState → SubState) (b' t' k' o' : Nat) : (s.updSub sub f).wordB b' t' k' o' = s.wordB b' t' k' o' := rfl
@[simp] theorem State.rd_updExp (s : State) (t p : Nat) (f : ExpPort → ExpPort) (t' : Nat) (f' : Fld) : (s.updExp t p f).rd t' f' = s.rd t' f' := rfl
@[simp] theorem State.is_updExp (s : State) (t p : Nat) (f : ExpPort → ExpPort) (t' : Nat) (f' : Fld) : (s.updExp t p f).is t' f' = s.is t' f' := rfl
@[simp] theorem State.rd64_updExp (s : State) (t p : Nat) (f : ExpPort → ExpPort) (t' : Nat) (f' : Fld) : (s.updExp t p f).rd64 t' f' = s.rd64 t' f' := rfl
@[simp] theorem State.wordB_updExp (s : State) (t p : Nat) (f : ExpPort → ExpPort) (b' t' k' o' : Nat) : (s.updExp t p f).wordB b' t' k' o' = s.wordB b' t' k' o' := rfl
@[simp] theorem State.rd_updPort (s : State) (t p : Nat) (f : PortState → PortState) (t' : Nat) (f' : Fld) : (s.updPort t p f).rd t' f' = s.rd t' f' := rfl
@[simp] theorem State.is_updPort (s : State) (t p : Nat) (f : PortState → PortState) (t' : Nat) (f' : Fld) : (s.updPort t p f).is t' f' = s.is t' f' := rfl
@[simp] theorem State.rd64_updPort (s : State) (t p : Nat) (f : PortState → PortState) (t' : Nat) (f' : Fld) : (s.updPort t p f).rd64 t' f' = s.rd64 t' f' := rfl
@[simp] theorem State.wordB_updPort (s : State) (t p : Nat) (f : PortState → PortState) (b' t' k' o' : Nat) : (s.updPort t p f).wordB b' t' k' o' = s.wordB b' t' k' o' := rfl
@[simp] theorem State.rd_updLink (s : State) (t n : Nat) (f : LinkState → LinkState) (t' : Nat) (f' : Fld) : (s.updLink t n f).rd t' f' = s.rd t' f' := rfl
@[simp] theorem State.is_updLink (s : State) (t n : Nat) (f : LinkState → LinkState) (t' : Nat) (f' : Fld) : (s.updLink t n f).is t' f' = s.is t' f' := rfl
@[simp] theorem State.rd64_updLink (s : State) (t n : Nat) (f : LinkState → LinkState) (t' : Nat) (f' : Fld) : (s.updLink t n f).rd64 t' f' = s.rd64 t' f' := rfl
@[simp] theorem State.wordB_updLink (s : State) (t n : Nat) (f : LinkState → LinkState) (b' t' k' o' : Nat) : (s.updLink t n f).wordB b' t' k' o' = s.wordB b' t' k' o' := rfl
@[simp] theorem State.rd_updCal (s : State) (t : Nat) (f : CalTile → CalTile) (t' : Nat) (f' : Fld) : (s.updCal t f).rd t' f' = s.rd t' f' := rfl
@[simp] theorem State.is_updCal (s : State) (t : Nat) (f : CalTile → CalTile) (t' : Nat) (f' : Fld) : (s.updCal t f).is t' f' = s.is t' f' := rfl
@[simp] theorem State.rd64_updCal (s : State) (t : Nat) (f : CalTile → CalTile) (t' : Nat) (f' : Fld) : (s.updCal t f).rd64 t' f' = s.rd64 t' f' := rfl
@[simp] theorem State.wordB_updCal (s : State) (t : Nat) (f : CalTile → CalTile) (b' t' k' o' : Nat) : (s.updCal t f).wordB b' t' k' o' = s.wordB b' t' k' o' := rfl
@[simp] theorem State.rd_updSti (s : State) (f : Stitch → Stitch) (t' : Nat) (f' : Fld) : (s.updSti f).rd t' f' = s.rd t' f' := rfl
@[simp] theorem State.is_updSti (s : State) (f : Stitch → Stitch) (t' : Nat) (f' : Fld) : (s.updSti f).is t' f' = s.is t' f' := rfl
@[simp] theorem State.rd64_updSti (s : State) (f : Stitch → Stitch) (t' : Nat) (f' : Fld) : (s.updSti f).rd64 t' f' = s.rd64 t' f' := rfl
@[simp] theorem State.wordB_updSti (s : State) (f : Stitch → Stitch) (b' t' k' o' : Nat) : (s.updSti f).wordB b' t' k' o' = s.wordB b' t' k' o' := rfl
@[simp] theorem State.rd_updRef (s : State) (f : RefState → RefState) (t' : Nat) (f' : Fld) : (s.updRef f).rd t' f' = s.rd t' f' := rfl
@[simp] theorem State.is_updRef (s : State) (f : RefState → RefState) (t' : Nat) (f' : Fld) : (s.updRef f).is t' f' = s.is t' f' := rfl
@[simp] theorem State.rd64_updRef (s : State) (f : RefState → RefState) (t' : Nat) (f' : Fld) : (s.updRef f).rd64 t' f' = s.rd64 t' f' := rfl
@[simp] theorem State.wordB_updRef (s : State) (f : RefState → RefState) (b' t' k' o' : Nat) : (s.updRef f).wordB b' t' k' o' = s.wordB b' t' k' o' := rfl
@[simp] theorem State.rd_updLearn (s : State) (g : Nat) (f : Learn → Learn) (t' : Nat) (f' : Fld) : (s.updLearn g f).rd t' f' = s.rd t' f' := rfl
@[simp] theorem State.is_updLearn (s : State) (g : Nat) (f : Learn → Learn) (t' : Nat) (f' : Fld) : (s.updLearn g f).is t' f' = s.is t' f' := rfl
@[simp] theorem State.rd64_updLearn (s : State) (g : Nat) (f : Learn → Learn) (t' : Nat) (f' : Fld) : (s.updLearn g f).rd64 t' f' = s.rd64 t' f' := rfl
@[simp] theorem State.wordB_updLearn (s : State) (g : Nat) (f : Learn → Learn) (b' t' k' o' : Nat) : (s.updLearn g f).wordB b' t' k' o' = s.wordB b' t' k' o' := rfl
@[simp] theorem State.rd_updSgm (s : State) (f : Seg → Seg) (t' : Nat) (f' : Fld) : (s.updSgm f).rd t' f' = s.rd t' f' := rfl
@[simp] theorem State.is_updSgm (s : State) (f : Seg → Seg) (t' : Nat) (f' : Fld) : (s.updSgm f).is t' f' = s.is t' f' := rfl
@[simp] theorem State.rd64_updSgm (s : State) (f : Seg → Seg) (t' : Nat) (f' : Fld) : (s.updSgm f).rd64 t' f' = s.rd64 t' f' := rfl
@[simp] theorem State.wordB_updSgm (s : State) (f : Seg → Seg) (b' t' k' o' : Nat) : (s.updSgm f).wordB b' t' k' o' = s.wordB b' t' k' o' := rfl
@[simp] theorem State.rd_updPos (s : State) (f : Pos → Pos) (t' : Nat) (f' : Fld) : (s.updPos f).rd t' f' = s.rd t' f' := rfl
@[simp] theorem State.is_updPos (s : State) (f : Pos → Pos) (t' : Nat) (f' : Fld) : (s.updPos f).is t' f' = s.is t' f' := rfl
@[simp] theorem State.rd64_updPos (s : State) (f : Pos → Pos) (t' : Nat) (f' : Fld) : (s.updPos f).rd64 t' f' = s.rd64 t' f' := rfl
@[simp] theorem State.wordB_updPos (s : State) (f : Pos → Pos) (b' t' k' o' : Nat) : (s.updPos f).wordB b' t' k' o' = s.wordB b' t' k' o' := rfl
@[simp] theorem State.rd_updCfg (s : State) (f : Cfg → Cfg) (t' : Nat) (f' : Fld) : (s.updCfg f).rd t' f' = s.rd t' f' := rfl
@[simp] theorem State.is_updCfg (s : State) (f : Cfg → Cfg) (t' : Nat) (f' : Fld) : (s.updCfg f).is t' f' = s.is t' f' := rfl
@[simp] theorem State.rd64_updCfg (s : State) (f : Cfg → Cfg) (t' : Nat) (f' : Fld) : (s.updCfg f).rd64 t' f' = s.rd64 t' f' := rfl
@[simp] theorem State.wordB_updCfg (s : State) (f : Cfg → Cfg) (b' t' k' o' : Nat) : (s.updCfg f).wordB b' t' k' o' = s.wordB b' t' k' o' := rfl
@[simp] theorem State.rd_updLcs (s : State) (f : Lcs → Lcs) (t' : Nat) (f' : Fld) : (s.updLcs f).rd t' f' = s.rd t' f' := rfl
@[simp] theorem State.is_updLcs (s : State) (f : Lcs → Lcs) (t' : Nat) (f' : Fld) : (s.updLcs f).is t' f' = s.is t' f' := rfl
@[simp] theorem State.rd64_updLcs (s : State) (f : Lcs → Lcs) (t' : Nat) (f' : Fld) : (s.updLcs f).rd64 t' f' = s.rd64 t' f' := rfl
@[simp] theorem State.wordB_updLcs (s : State) (f : Lcs → Lcs) (b' t' k' o' : Nat) : (s.updLcs f).wordB b' t' k' o' = s.wordB b' t' k' o' := rfl
@[simp] theorem State.rd_updDma (s : State) (t c : Nat) (f : DmaChan → DmaChan) (t' : Nat) (f' : Fld) : (s.updDma t c f).rd t' f' = s.rd t' f' := rfl
@[simp] theorem State.is_updDma (s : State) (t c : Nat) (f : DmaChan → DmaChan) (t' : Nat) (f' : Fld) : (s.updDma t c f).is t' f' = s.is t' f' := rfl
@[simp] theorem State.rd64_updDma (s : State) (t c : Nat) (f : DmaChan → DmaChan) (t' : Nat) (f' : Fld) : (s.updDma t c f).rd64 t' f' = s.rd64 t' f' := rfl
@[simp] theorem State.wordB_updDma (s : State) (t c : Nat) (f : DmaChan → DmaChan) (b' t' k' o' : Nat) : (s.updDma t c f).wordB b' t' k' o' = s.wordB b' t' k' o' := rfl
@[simp] theorem State.rd_updFir (s : State) (t f : Nat) (g : FirChan → FirChan) (t' : Nat) (f' : Fld) : (s.updFir t f g).rd t' f' = s.rd t' f' := rfl
@[simp] theorem State.is_updFir (s : State) (t f : Nat) (g : FirChan → FirChan) (t' : Nat) (f' : Fld) : (s.updFir t f g).is t' f' = s.is t' f' := rfl
@[simp] theorem State.rd64_updFir (s : State) (t f : Nat) (g : FirChan → FirChan) (t' : Nat) (f' : Fld) : (s.updFir t f g).rd64 t' f' = s.rd64 t' f' := rfl
@[simp] theorem State.wordB_updFir (s : State) (t f : Nat) (g : FirChan → FirChan) (b' t' k' o' : Nat) : (s.updFir t f g).wordB b' t' k' o' = s.wordB b' t' k' o' := rfl
@[simp] theorem State.rd_setTxq (s : State) (p q : Nat) (l : List TxFrame) (t' : Nat) (f' : Fld) : (s.setTxq p q l).rd t' f' = s.rd t' f' := rfl
@[simp] theorem State.is_setTxq (s : State) (p q : Nat) (l : List TxFrame) (t' : Nat) (f' : Fld) : (s.setTxq p q l).is t' f' = s.is t' f' := rfl
@[simp] theorem State.rd64_setTxq (s : State) (p q : Nat) (l : List TxFrame) (t' : Nat) (f' : Fld) : (s.setTxq p q l).rd64 t' f' = s.rd64 t' f' := rfl
@[simp] theorem State.wordB_setTxq (s : State) (p q : Nat) (l : List TxFrame) (b' t' k' o' : Nat) : (s.setTxq p q l).wordB b' t' k' o' = s.wordB b' t' k' o' := rfl
@[simp] theorem State.rd_setBytes (s : State) (a : Nat) (bs : Bytes) (t' : Nat) (f' : Fld) : (s.setBytes a bs).rd t' f' = s.rd t' f' := by rw [State.setBytes_eq]; rfl
@[simp] theorem State.is_setBytes (s : State) (a : Nat) (bs : Bytes) (t' : Nat) (f' : Fld) : (s.setBytes a bs).is t' f' = s.is t' f' := by rw [State.setBytes_eq]; rfl
@[simp] theorem State.rd64_setBytes (s : State) (a : Nat) (bs : Bytes) (t' : Nat) (f' : Fld) : (s.setBytes a bs).rd64 t' f' = s.rd64 t' f' := by rw [State.setBytes_eq]; rfl
@[simp] theorem State.wordB_setBytes (s : State) (a : Nat) (bs : Bytes) (b' t' k' o' : Nat) : (s.setBytes a bs).wordB b' t' k' o' = s.wordB b' t' k' o' := by rw [State.setBytes_eq]; rfl

end Sys2Proof.Machine
end

