-- ==== Sys2Proof/Laws/Memory.lean ====
section
/-! SUPPORT. The canonical form of the memory windows and of the register map: every operation that writes them keeps it, and the state after
reset has it. -/

namespace Sys2Proof.Machine

theorem smOk_filter [DecidableEq α] (d : Nat → α) (p : Nat × α → Bool) (m : List (Nat × α)) (h : smOk d m = true) :
    smOk d (m.filter p) = true := by
  rw [smOk_iff] at h ⊢
  exact ⟨h.1.sublist List.filter_sublist, fun x hx => h.2 x (List.mem_of_mem_filter hx)⟩

/-! Memory. -/

theorem Memory.wf_setByte (s : State) (a : Nat) (v : Byte) (h : Memory.wf s.mem = true) : Memory.wf (s.setByte a v).mem = true :=
  smOk_set (fun _ => 0) a v s.mem h

theorem Memory.wf_setBytes (s : State) (a : Nat) (bs : Bytes) (h : Memory.wf s.mem = true) : Memory.wf (s.setBytes a bs).mem = true := by
  induction bs generalizing s a with
  | nil => exact h
  | cons b bs ih => exact ih _ _ (Memory.wf_setByte s a b h)

theorem Memory.wf_freeBytes (s : State) (a n : Nat) (h : Memory.wf s.mem = true) : Memory.wf (s.freeBytes a n).mem = true :=
  Memory.wf_setBytes _ a _ h

theorem Memory.wf_zeroSpans (s : State) (l : List (Nat × Nat)) (h : Memory.wf s.mem = true) : Memory.wf (s.zeroSpans l).mem = true :=
  smOk_filter _ _ _ h

theorem Memory.wf_zeroFill (s : State) (t n lo hi : Nat) (h : Memory.wf s.mem = true) : Memory.wf (s.zeroFill t n lo hi).mem = true :=
  smOk_filter _ _ _ h

theorem Memory.wf_zeroSealed (s : State) (h : Memory.wf s.mem = true) : Memory.wf s.zeroSealed.mem = true :=
  smOk_filter _ _ _ h

theorem Memory.wf_cleared (s : State) (ph : Phase) : Memory.wf (s.cleared ph).mem = true := rfl

theorem Memory.wf_reset : Memory.wf State.reset.mem = true := rfl

/-- A read of a granule's bytes after a write of others. -/
theorem State.byte_zeroSpans (s : State) (l : List (Nat × Nat)) (a : Nat) (h : inSpans l a = false) : (s.zeroSpans l).byte a = s.byte a := by
  have : ∀ m : List (Nat × Byte), smGet 0 a (m.filter fun c => !inSpans l c.1) = smGet 0 a m := by
    intro m
    induction m with
    | nil => rfl
    | cons x m ih =>
      obtain ⟨k, v⟩ := x
      by_cases hk : k = a
      · subst hk; simp [h, smGet]
      · by_cases hb : inSpans l k = true <;> simp [hb, smGet, hk] <;> exact ih
  exact this s.mem

/-! The register map. -/

theorem addrBlk_regKey {b t blk off : Nat} (hb : blk < 128) (ho : off < 2 ^ 30) : addrBlk (regKey b t blk off) = blk := by
  unfold regKey addrBlk addrOf; split <;> omega

theorem addrOff_regKey {b t blk off : Nat} (ho : off < 2 ^ 30) : addrOff (regKey b t blk off) = off := by
  unfold regKey addrOff addrOf; split <;> omega

/-- A write of a register word keeps both maps canonical. -/
theorem State.canonical_setWordB (s : State) (b t blk off v : Nat) (hb : blk < 128) (ho : off < 2 ^ 30) (h : s.canonical = true) :
    (s.setWordB b t blk off v).canonical = true := by
  unfold State.canonical at h ⊢
  rw [Bool.and_eq_true] at h ⊢
  refine ⟨?_, h.2⟩
  have := smOk_set (fun k => BitVec.ofNat 32 (resetWord (addrBlk k) (addrOff k))) (regKey b t blk off) (BitVec.ofNat 32 v) s.regs h.1
  simp only [addrBlk_regKey hb ho, addrOff_regKey ho] at this
  exact this

theorem State.canonical_setBytes (s : State) (a : Nat) (bs : Bytes) (h : s.canonical = true) : (s.setBytes a bs).canonical = true := by
  unfold State.canonical at h ⊢
  rw [Bool.and_eq_true] at h ⊢
  rw [State.regs_setBytes]
  exact ⟨h.1, Memory.wf_setBytes s a bs h.2⟩

theorem State.canonical_reset : State.reset.canonical = true := rfl

end Sys2Proof.Machine
end

