-- ==== Sys2Proof/Laws/Frame.lean ====
section
/-! SUPPORT. The algebra of frames: which register words the named operations can change, how such facts compose, and everything that pip and
notify can do. -/

namespace Sys2Proof.Machine

variable {s u v : State} {K L : WordSet}

theorem State.sameWords_refl (s : State) (K : WordSet) : s.sameWords s K := fun _ _ _ _ _ _ _ _ => rfl

theorem State.sameWords_trans (h : s.sameWords u K) (h' : u.sameWords v K) : s.sameWords v K :=
  fun b t k o ht hk ho hn => (h' b t k o ht hk ho hn).trans (h b t k o ht hk ho hn)

theorem State.sameWords_mono (h : s.sameWords u K) (hs : ∀ t k o, K t k o → L t k o) : s.sameWords u L :=
  fun b t k o ht hk ho hn => h b t k o ht hk ho fun hK => hn (hs t k o hK)

/-- Changes in either set, one after the other. -/
theorem State.sameWords_or (h : s.sameWords u K) (h' : u.sameWords v L) : s.sameWords v (K.or L) :=
  State.sameWords_trans (State.sameWords_mono h fun _ _ _ => .inl) (State.sameWords_mono h' fun _ _ _ => .inr)

/-- Nothing but a change of the register map changes a register word. -/
theorem State.sameWords_of_regs (h : u.regs = s.regs) (K : WordSet) : s.sameWords u K := by
  intro b t k o _ _ _ _
  simp [State.wordB, h]

theorem State.sameWords_setWordB (s : State) {b t blk off : Nat} (w : Nat) (ht : t < 8) (hb : blk < 128) (ho : off < 2 ^ 30)
    (hK : K t blk off) : s.sameWords (s.setWordB b t blk off w) K := by
  intro b' t' k' o' ht' hk' ho' hn
  refine State.wordB_setWordB_ne s w ht' ht hk' ho' hb ho ?_
  by_contra hc
  simp only [not_or, not_not] at hc
  exact hn (hc.1 ▸ hc.2.1 ▸ hc.2.2 ▸ hK)

theorem State.onlyRegs_refl (s : State) (K : WordSet) : s.onlyRegs s K := ⟨rfl, s.sameWords_refl K⟩

theorem State.onlyRegs_trans (h : s.onlyRegs u K) (h' : u.onlyRegs v K) : s.onlyRegs v K := by
  refine ⟨?_, State.sameWords_trans h.2 h'.2⟩
  have a := h.1
  have b := h'.1
  rw [a] at b
  exact b

theorem State.onlyRegs_mono (h : s.onlyRegs u K) (hs : ∀ t k o, K t k o → L t k o) : s.onlyRegs u L := ⟨h.1, State.sameWords_mono h.2 hs⟩

theorem State.onlyRegs_setWordB (s : State) {b t blk off : Nat} (w : Nat) (ht : t < 8) (hb : blk < 128) (ho : off < 2 ^ 30)
    (hK : K t blk off) : s.onlyRegs (s.setWordB b t blk off w) K := ⟨rfl, s.sameWords_setWordB w ht hb ho hK⟩

/-- A change of the register map alone. -/
theorem State.onlyRegs_of_regs (h : u = { s with regs := u.regs }) (hs : s.sameWords u K) : s.onlyRegs u K := ⟨h.trans (by rw [h]), hs⟩

/-- A write of a field changes its word alone. -/
theorem State.onlyRegs_wr (s : State) {t : Nat} {f : Fld} (w : Nat) (ht : t < 8) (hf : f.ok) (hK : K t f.blk f.off) :
    s.onlyRegs (s.wr t f w) K := s.onlyRegs_setWordB _ ht hf.2.2.1 hf.2.2.2 hK

theorem State.onlyRegs_setF (s : State) {t : Nat} {f : Fld} (ht : t < 8) (hf : f.ok) (hK : K t f.blk f.off) : s.onlyRegs (s.setF t f) K :=
  ⟨rfl, (s.onlyRegs_wr _ ht hf hK).2⟩

theorem State.onlyRegs_clrF (s : State) {t : Nat} {f : Fld} (ht : t < 8) (hf : f.ok) (hK : K t f.blk f.off) : s.onlyRegs (s.clrF t f) K :=
  s.onlyRegs_wr _ ht hf hK

theorem State.onlyRegs_addSat (s : State) {t : Nat} {f : Fld} (n : Nat) (ht : t < 8) (hf : f.ok) (hK : K t f.blk f.off) :
    s.onlyRegs (s.addSat t f n) K := s.onlyRegs_wr _ ht hf hK

/-- A pip changes nothing but the pips on their way. -/
theorem State.pip_eq (s : State) (t src : Nat) : s.pip t src = { s with fab := { s.fab with pips := (s.pip t src).fab.pips } } := by
  unfold State.pip; split <;> rfl

/-- A notification, while fewer than 64 wait, is put behind them, and no register changes. -/
theorem State.notify_room (s : State) (code a b c d : Nat) (h : s.net.notices.length < 64) :
    s.notify code a b c d = { s with net := { s.net with
      notices := s.net.notices ++ [⟨noticeBytes code (s.net.noticeCount + 1) s.tb1 a b c d⟩], noticeCount := s.net.noticeCount + 1 } } := by
  simp [State.notify, h]

/-- A notification with 64 waiting is lost, and counted (R344). -/
theorem State.notify_full (s : State) (code a b c d : Nat) (h : ¬ s.net.notices.length < 64) :
    s.notify code a b c d = { s.addSat 0 CHN_NOTIFY_LOST 1 with net := { s.net with noticeLost := s.net.noticeLost + 1 } } := by
  simp [State.notify, h]

end Sys2Proof.Machine
end

