-- ==== Sys2Proof/WellFormed.lean ====
section
/-! DEFINITION. Which commands can come from outside: the conditions that the operand types leave open. A meaning is total all the same:
it says what happens for any operands. -/

namespace Sys2Proof

/-- An LCP session has a number from 1 to 7 (R340). -/
def Origin.wf (o : Origin) : Bool :=
  match o with
  | .session n => n != 0
  | _ => true

/-- The lanes that a phase measured are different lanes (R85). -/
def measWf (m : List LaneMeas) : Bool := decide (m.map (·.lane)).Nodup

/-- A value whose RUN bit is 1 or 0 (R47, R56). -/
def runWf (v : BitVec 32) (on : Bool) : Bool := v.getLsbD 0 == on

/-- The well-formed commands. -/
def Instr.wf (i : Instr) : Bool :=
  match i with
  | .registerWrite o a _ => o.wf && a.toNat % 4 == 0
  | .runSet o v => o.wf && runWf v true
  | .runClear o v => o.wf && runWf v false
  | .arm v => v.getLsbD 0 && !v.getLsbD 1
  | .slotArm _ _ v => v.getLsbD 0
  | .phaseComplete _ _ m | .trainingFailure _ _ m => measWf m
  | .sensorRead _ r => r.length == 8
  | .sessionTimeout n => n != 0
  | .dbgData o _ w => w.isNone || o.wf
  | .halt o _ | .resume o _ | .step o _ | .channelClaim o _ _ _ | .relayClaim o _ _ _ | .lcsMboxWrite o _ _ | .provision o
  | .addOwner o | .loadOwnerKey o | .revoke o | .commission o | .lcsReturn o | .installJobKey o | .dropJobKey o | .debugOpen o | .debugClose o
  | .attest o | .flashRead o | .flashProgram o | .flashErase o => o.wf
  | _ => true

end Sys2Proof
end

