-- ==== Sys2Proof/Tests/Slice0.lean ====
section
/-! SUPPORT. Tests of the model: the well-formedness checks, values that the spec works out, and for every statement with premises a state
and operands that meet them, clause by clause. -/

namespace Sys2Proof.Tests

set_option Elab.async false

open Sys2Proof Sys2Proof.Machine

/-! Well-formedness: for each check a command that passes and one that does not. -/

theorem test_wf_write : (Instr.registerWrite (.session 1) 4 0).wf ∧ ¬ (Instr.registerWrite (.session 1) 6 0).wf ∧
    ¬ (Instr.registerWrite (.session 0) 4 0).wf := by decide
theorem test_wf_run : (Instr.runSet .firmware 1).wf ∧ ¬ (Instr.runSet .firmware 2).wf ∧ (Instr.runClear .image 2).wf ∧ ¬ (Instr.runClear .image 1).wf ∧
    ¬ (Instr.runSet (.session 0) 1).wf := by decide
theorem test_wf_arm : (Instr.arm 1).wf ∧ ¬ (Instr.arm 0).wf ∧ ¬ (Instr.arm 3).wf ∧ (Instr.slotArm 0 0 1).wf ∧ ¬ (Instr.slotArm 0 0 2).wf := by decide
theorem test_wf_phase : (Instr.phaseComplete 0 0 [⟨0, true, true, [], 0, [], 0⟩, ⟨1, true, true, [], 0, [], 0⟩]).wf ∧
    ¬ (Instr.phaseComplete 0 0 [⟨1, true, true, [], 0, [], 0⟩, ⟨1, true, true, [], 2, [], 0⟩]).wf := by decide
theorem test_wf_sensors : (Instr.sensorRead 0 [0, 0, 0, 0, 0, 0, 0, 0]).wf ∧ ¬ (Instr.sensorRead 0 [0, 0, 0, 0, 0, 0, 0]).wf := by decide
theorem test_wf_session : (Instr.sessionTimeout 7).wf ∧ ¬ (Instr.sessionTimeout 0).wf ∧ (Instr.halt (.session 7) ⟨0, 0⟩).wf ∧
    ¬ (Instr.halt (.session 0) ⟨0, 0⟩).wf := by decide
theorem test_wf_debug_data : (Instr.dbgData (.session 0) ⟨0, 0⟩ none).wf ∧ (Instr.dbgData (.session 3) ⟨0, 0⟩ (some 5)).wf ∧
    ¬ (Instr.dbgData (.session 0) ⟨0, 0⟩ (some 5)).wf := by decide

/-- No row of the table gives its bits. -/
theorem test_no_words : decodeTableWord 0 0 = none ∧ State.reset.withFetchWord 0 0 = State.reset := by decide

/-! Values that the spec works out, and the check value of the CRC-32C that its name stands for. -/

theorem test_crc32c : crc32c ([0x31, 0x32, 0x33, 0x34, 0x35, 0x36, 0x37, 0x38, 0x39] : Bytes) = 0xE3069283 := by decide +kernel

/-! For every statement with premises: states and operands that meet them, clause by clause. -/

/-- The part in operation, every PLL of its eight tiles locked. -/
def on : State := (List.range 8).foldl (fun s t => s.wr t CLK_LOCK 0x3F) { State.reset with pwr := { State.reset.pwr with phase := .run } }
/-- The same state at the start of a cycle in which nothing has happened yet. -/
def fresh (s : State) : State := { s with cyc := .from_ s.regs }

/-- Each clause's premises, together with the statement's common ones, are met by one of the states. -/
def meets (common : State → Bool) (pool : List State) (clauses : List (State → Bool)) : Bool :=
  clauses.all fun c => pool.any fun s => common s && c s

theorem witness_StepRunsFrontCommand : ({ on with pending := [.gapArm, .gapDisarm] } : State).pending = .gapArm :: [.gapDisarm] := rfl
theorem witness_EmptyQueuePassesOneCycle : meets (fun _ => true) [on, State.reset] [fun s => s.pending = [] ∧ s.clocked] = true := by decide +kernel
theorem witness_EveryStepKeepsFusedRegisters : (match step { on with pending := [.gapArm] } with | .next _ => true | _ => false) = true := by decide +kernel
theorem witness_IdentityRegistersRead : meets (fun _ => true)
    [on, { on with id := { on.id with variant := .lyn820 } }, { on with id := { on.id with variant := .lyn840 } }]
    [fun s => s.fit 7 ∧ s.id.variant = .lyn880, fun s => s.fit 1 ∧ s.id.variant = .lyn820, fun s => s.fit 3 ∧ s.id.variant = .lyn840] = true := by decide +kernel
theorem witness_PackageAddressFields : 7 < 8 ∧ 127 < 128 ∧ 2 ^ 30 - 1 < 2 ^ 30 ∧ addrOf 7 127 (2 ^ 30 - 1) = 2 ^ 40 - 1 := by decide
theorem witness_UnlistedAccessFails : ({ on with id := { on.id with variant := .lyn840 } } : State).live ∧
    ¬ ({ on with id := { on.id with variant := .lyn840 } } : State).fit (addrTile (addrOf 4 0 0)) ∧ ¬ listedBlock 0 0x1C ∧ ¬ listedBlock 0 0x49 ∧
    ¬ listedBlock 1 0x0B ∧ ¬ listedBlock 2 0x10 := by
  refine ⟨by decide, by decide, ?_, ?_, ?_, ?_⟩ <;> unfold listedBlock <;> decide
theorem witness_MemoryWindowWrite : on.live ∧ on.fit (addrTile (addrOf 7 0x47 0xF9FFC)) ∧ addrOf 7 0x47 0xF9FFC % 4 = 0 ∧
    windowOf (addrOf 7 0x47 0xF9FFC) = some (.dataStore 7 7 15 0x9FFC) ∧ windowOf (addrOf 0 0x48 0x3FFFFC) = some (.cluster 0 7 0x7FFFC) := by decide +kernel
theorem witness_ScratchReadsBack : meets (fun s => s.live) [on] [fun s => s.fit 0, fun s => s.fit 7] = true := by decide +kernel
theorem witness_PairTakesEffectWithHighWord : meets (fun s => s.live) [on] [fun s => ¬ s.is 0 BND_CTRL_RUN] = true := by decide +kernel
/-- The link between tiles 0 and 1 carries traffic; a packet on it has been replayed `n` times and its last two trainings have failed. -/
def linkUp (n : Nat) : State := { on.wr 0 (D2D_L_STATUS_UP 0) 1 with links := [(0, ⟨n, 2, [], [], false, false, [], 0, 0⟩)] }
def linkTraining : State := (on.wr 0 (D2D_L_STATUS_TRAINING 0) 1).wr 1 (D2D_L_STATUS_TRAINING 0) 1
set_option maxRecDepth 100000 in
theorem witness_CerettePacketChecked : packetOk (withCrc (zeros 124)) ∧ ¬ packetOk [1, 2] ∧
    meets (fun s => s.live ∧ s.fit 0 ∧ s.id.bonded 0 0) [linkUp 0, linkUp 7, linkUp 8, linkTraining]
      [fun s => s.linkOn 0 0 ∧ (s.link 0 0).due = false, fun s => s.linkOn 0 0 ∧ (s.link 0 0).replays = 7,
       fun s => s.linkOn 0 0 ∧ (s.link 0 0).replays = 8, fun s => ¬ s.linkOn 0 0] = true := by decide +kernel
theorem witness_LinkRetrains : meets (fun s => s.live ∧ s.fit 0 ∧ s.id.bonded 0 0)
    [linkUp 0, linkUp 1, { linkTraining with links := (linkUp 0).links }]
    [fun s => ¬ s.linkBusy 0 0, fun s => s.linkBusy 0 0,
     fun s => s.is 0 (D2D_L_STATUS_TRAINING 0) ∧ s.locked 0 .d2d ∧ s.net.waiting = [] ∧ s.net.hopIn = [] ∧ s.net.hopOut = [] ∧ (s.link 0 0).fails = 2] = true := by
  decide +kernel
theorem witness_RemoteAccessTimesOut : ∃ (s : State) (x : LcpReq), s.live ∧ s.net.waiting = [x] ∧ s.sessOpen x.h.session ∧ ¬ s.lcpSilent x.h x.op :=
  ⟨{ on.wr 0 CHN_ADDR_ADDR 5 with net := { on.net with waiting := [⟨⟨0, .l2 5, 5, 0, 1, 1, false, 3⟩, 0x10, []⟩], sessions := [(1, ⟨.l2 5, 0, 5, 0⟩)] } }, _, by decide +kernel, rfl,
    by decide +kernel, by decide +kernel⟩
theorem witness_PllLossAndLock : meets (fun s => s.live) [on]
    [fun s => s.pllFit 0 .core ∧ s.locked 0 .core, fun s => s.pllFit 0 .refc ∧ s.locked 0 .refc, fun s => s.pllFit 7 .d2d ∧ s.net.waiting = [] ∧ s.net.hopIn = [] ∧ s.net.hopOut = []] = true := by
  decide +kernel
/-- A band clock that runs: band 20 is open, bands 18 and 19 are closed. -/
def mkBand (n : Nat) (pos : List Int) (fin : Option Int) : Band :=
  { n := n, bank := 0, job := 7, size := 8, line0 := 8 * n, pos := pos, fin := fin, tb1 := 0, tb0 := 100, short := false, empty := false,
    closed := fin.isSome, speed := false, crc := false, steps := 0 }
def running : State :=
  let s := ((((on.wr 0 BND_CTRL_RUN 1).wr 0 BND_DEPTH 0x26543222).wr 0 BND_STATUS_RUNNING 1).wr64 0 BND_INDEX_LO 20).wr64 0 BND_LINE_LO 160
  { s with tim := { s.tim with tb0 := 9000, tb1 := 9000 * 2 ^ 32 },
           clk := { s.clk with bands := [mkBand 20 [0] none, mkBand 19 [-8] (some 0), mkBand 18 [-16] (some (-8))], nextRelease := 18, ticked := true, lastAccept := some 8000, lastWeb := some 0 } }
def stopped : State := { running with clk := { running.clk with bands := running.clk.bands.tail } }
/-- The time schedule has a tick due, `ago` ns after the last line tick. -/
def scheduled (ago : Nat) : State :=
  { running.wr 0 BND_CTRL_SRC 1 with clk := { running.clk with schedule := some (9000 * 2 ^ 32), lastAccept := some (9000 - ago) } }

theorem witness_RunSetAndClear : meets (fun s => s.live) [on, running, stopped, on.wr 0 BND_BAND_SIZE_B 5, on.wr 0 BND_DEPTH 0x26543221]
    [fun s => s.is 0 BND_CTRL_RUN ∧ s.openBand = none ∧ ¬ s.is 0 BND_STATUS_DRAINING ∧ s.clk.restart = false,
     fun s => ¬ s.is 0 BND_CTRL_RUN ∧ s.rd 0 BND_BAND_SIZE_B = 5, fun s => ¬ s.is 0 BND_CTRL_RUN ∧ s.depth s.bank 0 = 1,
     fun s => ¬ s.is 0 BND_CTRL_RUN ∧ bitsOf 0x7 2 1 = 3,
     fun s => ¬ s.is 0 BND_CTRL_RUN ∧ bitsOf 0x3 2 1 ≠ 3 ∧ s.rd 0 BND_BAND_SIZE_B < 5 ∧ s.depth s.bank 0 = 2 ∧ ((List.range 8).all fun k => 2 ≤ s.depth s.bank k) ∧
       s.depth s.bank 2 ≤ s.depth s.bank 3 ∧ s.depth s.bank 3 < s.depth s.bank 4 ∧ s.depth s.bank 4 ≤ s.depth s.bank 5 ∧ s.depth s.bank 5 < s.depth s.bank 6 ∧
       s.clk.stopping = false,
     fun s => s.is 0 BND_CTRL_RUN] = true := by decide +kernel
def holding (ago : Nat) : State := ((scheduled ago).wr 0 BND_STATUS_HOLDING 1).wr 0 BND_MAX_LINE_RATE_HZ 131071
theorem witness_RateLimiter : meets (fun s => s.live ∧ 0 < s.rd 0 BND_MAX_LINE_RATE_HZ ∧ s.locked 0 .aux ∧ s.schedDue ∧ s.clk.schedule.isSome)
    [scheduled 4, scheduled 9000, (scheduled 9000).wr 0 BND_MAX_LINE_RATE_HZ 131071, holding 4, holding 8000, holding 7632]
    [fun s => s.is 0 BND_STATUS_HOLDING ∧ s.tim.tb0 < s.heldTime,
     fun s => ¬ s.is 0 BND_STATUS_HOLDING ∧ s.clk.lastAccept = some 8996 ∧ s.tim.tb0 < 8996 + s.tMin,
     fun s => ¬ s.is 0 BND_STATUS_HOLDING ∧ s.clk.lastAccept = some 0 ∧ s.tMin ≤ s.tim.tb0,
     fun s => s.is 0 BND_STATUS_HOLDING ∧ s.heldTime = s.tim.tb0,
     fun s => s.is 0 BND_STATUS_HOLDING ∧ s.heldTime < s.tim.tb0 ∧ s.tim.tb0 < s.heldTime + s.tMin] = true := by decide +kernel
def draining (left : Nat) : State := { on.wr 0 BND_STATUS_DRAINING 1 with clk := { on.clk with drainLeft := left } }
/-- Bands whose deadlines have passed, with band 18's statistics of sub-stream 1 not complete and an engine instance of tile 0 that breaks R261. -/
def behind : State :=
  let s := (((running.wr64 0 BND_INDEX_LO 40).wr 0 (ENG_INST_CFG_EN 3) 1).wr 0 (ENG_INST_CFG_CLASS 3) 1)
  let s := (s.wr 0 (ING_PORT_SUB_CFG_EN 0 1) 1).wr 0 (EXP_PORT_SUB_STAT_CTRL 0 1) 1
  { s with path := { s.path with stats := [⟨1, 18, 4, 0, 0, false, false, [], [], false⟩] } }
theorem witness_BandClockOperations : meets (fun s => s.live) [running.wr 0 BND_STATUS_TICKING 1, stopped.wr 0 BND_STATUS_TICKING 1, draining 2, draining 1, (draining 1).wr 0 BND_CTRL_RUN 1,
     holding 8000, holding 7632, behind]
    [fun s => s.locked 0 .aux ∧ s.heldDue, fun s => s.is 0 BND_STATUS_TICKING ∧ ¬ s.tickNow ∧ s.openBand = none,
     fun s => s.is 0 BND_STATUS_TICKING ∧ ¬ s.tickNow ∧ s.openBand.isSome, fun s => s.openBand = none,
     fun s => s.is 0 BND_STATUS_DRAINING ∧ s.clk.restart = false ∧ 1 < s.clk.drainLeft,
     fun s => s.is 0 BND_STATUS_DRAINING ∧ s.clk.restart = false ∧ s.clk.drainLeft = 1 ∧ s.is 0 BND_CTRL_RUN,
     fun s => s.is 0 BND_STATUS_DRAINING ∧ s.clk.restart = false ∧ s.clk.drainLeft = 1 ∧ ¬ s.is 0 BND_CTRL_RUN,
     fun s => s.fit 0 ∧ (s.missedBand 0 (.stats 0 1)).any fun b => b.n = 18 ∧ s.path.stats.any (fun x => x.sub = 1 ∧ x.n = 18 ∧ ¬ x.complete) ∧
       s.rd 0 (BND_MISS 1) < 0xFFFFFFFF,
     fun s => s.fit 0 ∧ (s.missedBand 0 (.engines 3)).any fun b => s.instClass b.bank 0 3 = 1 ∧ s.openSpans (s.instToken 0 3 b.n) ≠ [],
     fun s => s.fit 0 ∧ (s.missedBand 0 .collector).isSome] = true := by decide +kernel
theorem witness_ReleaseTakesOldestBand : meets (fun s => s.live) [running.wr64 0 BND_INDEX_LO 25] [fun s => s.releaseDue.isSome] = true := by decide +kernel
def withTokens (l : List Token) (h : List QItem) (quota : Nat) : State :=
  { fresh ((running.wr 0 BND_BLIND_CTRL_QUEUE 1).wr 0 (QUE_Q_CFG_QUOTA 1) quota) with led := { running.led with inFlight := l, held := h } }
theorem witness_BlindTokensAndRecords : meets (fun s => s.live)
    [withTokens [⟨1, 0, 18, 7, 1, 0, 10, 0, 8⟩] [⟨List.replicate 16 7, none⟩] 4,
     { withTokens [⟨1, 0, 18, 7, 1, 0, 10, 0, 8⟩] [⟨List.replicate 16 7, none⟩] 0 with clk := { running.clk with nextRelease := 19 } }]
    [fun s => s.led.inFlight.any fun k => decide (s.clk.nextRelease ≤ k.band),
     fun s => s.led.inFlight.any fun k => decide (k.band < s.clk.nextRelease) && (s.band k.band).isSome && decide (k.group < 8),
     fun s => s.led.held.any fun i => s.popsAhead 0 = [] ∧ s.qFlushed 0 1 = false ∧ s.qItems 0 1 = [] ∧ i.cells ≤ s.began.rd 0 (QUE_Q_CFG_QUOTA 1) ∧
       i.cells ≤ s.rd 0 QUE_POOL_FREE,
     fun s => s.led.held.any fun i => s.popsAhead 0 = [] ∧ s.qFlushed 0 1 = false ∧ s.qItems 0 1 = [] ∧ s.began.rd 0 (QUE_Q_CFG_QUOTA 1) < i.cells] = true := by
  decide +kernel
def span0 : Span :=
  { reason := 15, stage := 15, mask := 1, x0 := -2 ^ 31, x1 := 2 ^ 31 - 1, w0 := -2 ^ 63, w1 := -2 ^ 63, b0 := 2 ^ 48 - 1, b1 := 5, job := 2 ^ 32 - 1, bank := 0, time := 2 ^ 64 - 1,
    steps := 0, partial_ := false, cont := false, merged := false, short := false, stepped := false }
theorem witness_SpanCap : 1 ≤ 1 ∧ [span0].length ≤ 1 ∧ 1 < [span0, span0].length := by decide
theorem witness_BlindRecordLayout : span0.reason < 16 ∧ span0.stage < 16 ∧ span0.b0 < 2 ^ 48 ∧ span0.job < 2 ^ 32 ∧ span0.mask < 2 ^ 64 ∧ span0.time < 2 ^ 64 ∧
    -2 ^ 63 ≤ span0.w0 ∧ span0.w0 ≤ span0.w1 ∧ span0.w1 < 2 ^ 63 ∧ span0.w1 - span0.w0 ≤ maxWebLen ∧ -2 ^ 31 ≤ span0.x0 ∧ span0.x0 ≤ span0.x1 ∧
    span0.x1 < 2 ^ 31 := by decide
/-- Port 0 of tile 0 in state `st`, one lane in use, with `x` beside its registers. -/
def portIn (st : Nat) : State :=
  (((on.wr 0 (LNK_PORT_STATUS_STATE 0) st).wr 0 (LNK_PORT_CFG_LANES 0) 1).wr 0 (LNK_PORT_CTRL_ENABLE 0) 1)
def portWith (st : Nat) (x : PortState) : State := { portIn st with ports := [(0, x)] }
def idlePort : PortState := PortState.idle
/-- A packet is under assembly. -/
def cutting (st : Nat) : State := portWith st { idlePort with rx := { PortRx.idle with asm := .opened [1] } }
/-- One lane's measurements that meet every phase. -/
def goodLane : LaneMeas := ⟨0, true, true, [(64, 1023)], 30000, [⟨1000, 0, 1, 5⟩, ⟨5097, 0, 1, 6⟩], 0⟩
def lockedIn (st : Nat) : State := (portIn st).wr 0 (LNK_LANE_STATUS_BLOCK_LOCK 0) 1

theorem witness_PortEnableAndTraining : meets (fun s => s.live ∧ s.fit 0)
    [on.wr 0 (LNK_PORT_CFG_RATE 0) 3, on.wr 0 (LNK_PORT_CFG_LANES 0) 0, (portIn 0).wr 0 (LNK_PORT_CTRL_ENABLE 0) 0, portIn 1, lockedIn 3, portIn 2, lockedIn 4]
    [fun s => ¬ s.is 0 (LNK_PORT_CTRL_ENABLE 0) ∧ s.rd 0 (LNK_PORT_CFG_RATE 0) = 3, fun s => ¬ s.is 0 (LNK_PORT_CTRL_ENABLE 0) ∧ s.rd 0 (LNK_PORT_CFG_LANES 0) = 0,
     fun s => ¬ s.is 0 (LNK_PORT_CTRL_ENABLE 0) ∧ s.rd 0 (LNK_PORT_CFG_RATE 0) ≠ 3 ∧ s.rd 0 (LNK_PORT_CFG_LANES 0) ≠ 0 ∧ s.portSt 0 0 = 0,
     fun s => s.portSt 0 0 = 1 ∧ s.phaseMet 0 0 [goodLane] ∧ ¬ s.justEntered 0 0 ∧ ¬ s.lossWaits 0 0,
     fun s => s.portSt 0 0 = 2 ∧ s.phaseMet 0 0 [goodLane] ∧ ¬ s.justEntered 0 0 ∧ ¬ s.lossWaits 0 0,
     fun s => s.portSt 0 0 = 3 ∧ s.phaseMet 0 0 [] ∧ ¬ s.justEntered 0 0 ∧ ¬ s.lossWaits 0 0,
     fun s => s.portSt 0 0 = 4 ∧ s.phaseMet 0 0 [goodLane] ∧ ¬ s.justEntered 0 0 ∧ ¬ s.lossWaits 0 0] = true := by decide +kernel
theorem witness_PortDisableAndRetrain : meets (fun s => s.live ∧ s.fit 0)
    ([0, 1, 4, 5, 6, 7].map portIn ++ [cutting 5, (portIn 4).wr 0 (LNK_PORT_STATUS_PSTATE 0) 2])
    [fun s => (s.settle 0 0).portSt 0 0 = 5 ∧ ¬ ((s.settle 0 0).port 0 0).rx.asm.isOpen,
     fun s => (s.settle 0 0).portSt 0 0 = 5 ∧ ((s.settle 0 0).port 0 0).rx.asm.isOpen, fun s => (s.settle 0 0).portSt 0 0 = 7,
     fun s => s.portSt 0 0 = 1 ∧ s.inL0 0 0, fun s => s.portSt 0 0 = 4 ∧ s.inL0 0 0, fun s => s.portSt 0 0 = 6 ∧ s.inL0 0 0,
     fun s => s.portSt 0 0 = 4 ∧ ¬ s.inL0 0 0, fun s => s.portSt 0 0 = 0, fun s => s.portSt 0 0 = 7] = true := by decide +kernel
theorem witness_PowerStates : meets (fun s => s.live ∧ s.fit 0)
    [portIn 5, (portIn 4).wr 0 (LNK_PORT_STATUS_PSTATE 0) 2, (portIn 1).wr 0 (LNK_PORT_STATUS_PSTATE 0) 1, portIn 0]
    [fun s => (s.settle 0 0).portSt 0 0 ≠ 5, fun s => (s.settle 0 0).portSt 0 0 = 5,
     fun s => s.portSt 0 0 ∈ [1, 2, 3, 4] ∧ s.rd 0 (LNK_PORT_STATUS_PSTATE 0) = 2, fun s => s.portSt 0 0 ≠ 0 ∧ s.rd 0 (LNK_PORT_STATUS_PSTATE 0) = 1,
     fun s => s.portSt 0 0 = 0] = true := by decide +kernel
theorem witness_TrainingFailureBacksOff : meets (fun s => s.live ∧ s.fit 0)
    ([1, 4, 5, 6].map portIn ++ [{ portIn 1 with pending := [.phaseComplete 0 0 [goodLane]] }])
    [fun s => s.canTimeOut 0 0 ∧ s.portSt 0 0 = 1 ∧ ¬ s.phaseWaits 0 0,
     fun s => s.canTimeOut 0 0 ∧ s.portSt 0 0 = 4 ∧ ¬ s.phaseWaits 0 0 ∧ (s.bondMeas 0 0 [goodLane]).length = (s.bond 0 0).length,
     fun s => s.phaseWaits 0 0, fun s => s.portSt 0 0 = 6, fun s => s.portSt 0 0 = 5] = true := by decide +kernel
theorem witness_TrainingFailureBacksOff_skewed : skewed [goodLane, { goodLane with lane := 1, rounds := [⟨1033, 1, 2, 5⟩, ⟨5130, 1, 2, 6⟩] }] = false ∧
    skewed [{ goodLane with rounds := [⟨1000, 0, 2, 5⟩] }, { goodLane with lane := 1, rounds := [⟨1033, 1, 2, 5⟩] }] = true := by decide +kernel
theorem witness_FaultsLeaveUp : meets (fun s => s.live ∧ s.fit 0 ∧ s.portSt 0 0 = 5 ∧ (s.settle 0 0).portSt 0 0 = 5 ∧ s.inBond 0 0) [lockedIn 5, cutting 5]
    [fun s => ((s.settle 0 0).port 0 0).rx.asm.isOpen, fun s => ¬ ((s.settle 0 0).port 0 0).rx.asm.isOpen,
     fun s => (s.laneBlocks 0 0 (List.replicate 16 0)).lockGone 0 0 ∧ ((s.settle 0 0).laneBlocks 0 0 (List.replicate 16 0)).lockGone 0 0] = true := by decide +kernel
theorem witness_LaneSlips : meets (fun s => s.live ∧ s.fit 0) [portIn 3, (portIn 3).wr 0 (LNK_LANE_CTRL_SLIP_MANUAL 0) 1, portIn 5]
    [fun s => s.laneAligning 0 0 ∧ s.is 0 (LNK_LANE_CTRL_SLIP_MANUAL 0), fun s => ¬ s.laneAligning 0 0,
     fun s => s.laneAligning 0 0 ∧ ¬ s.is 0 (LNK_LANE_CTRL_SLIP_MANUAL 0) ∧ ¬ s.is 0 (LNK_LANE_STATUS_BLOCK_LOCK 0),
     fun s => s.lockSought 0 0 ∧ headsGain ((s.laneBlocks 0 0 (List.replicate 64 1)).laneHeads 0 0)] = true := by decide +kernel
def testing : State :=
  let s := (((portWith 7 { idlePort with hold := 2 }).wr 0 (LNK_PORT_CTRL_TEST 0) 1).wr 0 (LNK_LANE_PRBS_CTRL_PATTERN 0) 1).wr 0 (LNK_LANE_PRBS_STATUS_LOCK 0) 1
  (s.wr 0 (LNK_PORT_BC_CTRL_ENABLE 0) 1).wr 0 (LNK_PORT_BC_CTRL_PRBS 0) 5
def talking (x : PortState) : State := (portWith 5 x).wr 0 (LNK_PORT_BC_CTRL_ENABLE 0) 1
theorem witness_PrbsTesting : meets (fun s => s.live ∧ s.fit 0) [portIn 5, testing, talking idlePort]
    [fun s => ¬ s.is 0 (LNK_PORT_CTRL_TEST 0), fun s => s.is 0 (LNK_PORT_CTRL_TEST 0) ∧ s.portSt 0 0 = 7,
     fun s => s.inBond 0 0 ∧ s.portSt 0 0 = 7 ∧ 1 ≤ s.prbsPattern 0 0 ∧ s.prbsPattern 0 0 ≤ 5, fun s => s.is 0 (LNK_LANE_PRBS_STATUS_LOCK 0),
     fun s => s.is 0 (LNK_PORT_BC_CTRL_ENABLE 0) ∧ s.rd 0 (LNK_PORT_BC_CTRL_PRBS 0) = 5, fun s => s.bcOn 0 0,
     fun s => s.portSt 0 0 = 7 ∧ (s.port 0 0).hold = 2 ∧ s.is 0 (LNK_PORT_CTRL_ENABLE 0)] = true := by decide +kernel

/-- Eight bytes as x^58 + x^39 + 1 scrambles them where every bit before them was 0 (R76). -/
def scrambled (d : Bytes) : Nat :=
  (List.range 64).foldl (fun o i => if ((leAt d 0 8).testBit i != (decide (39 ≤ i) && o.testBit (i - 39))) != (decide (58 ≤ i) && o.testBit (i - 58)) then o + 2 ^ i else o) 0
/-- A block with sync header `h`. -/
def block (h : Nat) (d : Bytes) : BitVec 66 := BitVec.ofNat 66 (h + 4 * scrambled d)
/-- An ACK of tag 4 (R105), whose first 9 bytes have come; its other 7 come in a TERM block, in the round after it. -/
def ack : Bytes := withCrc ([2, 0, 4, 7] ++ leBytes 8 0xDEADBEEF00000000)
def ackComing (tag : Nat) (state : Nat) : State :=
  (portWith 5 { idlePort with cmdTag := tag, rx := { PortRx.idle with due := 4096, asm := .opened (ack.take 9) } }).wr 0 (FXL_PORT_CMD_STATUS_STATE 0) state
def ackEnd : List LaneRx := [⟨[block 1 (0x87 :: ack.drop 9)], 0, 0⟩]
theorem witness_AckRound : (ackComing 4 1).roundBrings 0 0 ackEnd ⟨.idle, false, some ack⟩ ∧ ack.length = 16 ∧ byteAt ack 0 = 2 ∧ crcGood ack ∧
    byteAt ack 2 = 4 ∧ byteAt ack 3 = 7 := by
  refine ⟨⟨by decide +kernel, by decide +kernel, by decide +kernel, by decide +kernel, by decide +kernel, by decide, by decide +kernel, by decide +kernel,
    [], .term (ack.drop 9), [], .opened (ack.take 9), by decide +kernel, rfl, by decide +kernel, by decide +kernel, by decide +kernel⟩, ?_⟩
  decide +kernel
theorem witness_CameraCommandsAndMessages : meets (fun s => s.live ∧ s.fit 0 ∧ (s.port 0 0).far = false ∧ (s.port 0 0).farWait = false)
    [(portIn 5).wr 0 (FXL_PORT_CMD_STATUS_STATE 0) 1, talking idlePort, talking { idlePort with cmd := some ⟨false, 0, [1]⟩ },
     talking { idlePort with expq := [⟨true, 1, [1]⟩] }, ackComing 4 1, ackComing 5 1, ackComing 4 0,
     { ackComing 4 1 with pending := [.ackPacket 0 0 ackEnd] }]
    [fun s => s.rd 0 (FXL_PORT_CMD_STATUS_STATE 0) = 1, fun s => s.rd 0 (FXL_PORT_CMD_STATUS_STATE 0) ≠ 1 ∧ s.bcOn 0 0,
     fun s => s.rd 0 (FXL_PORT_CMD_STATUS_STATE 0) = 1 ∧ (s.settle 0 0).rd 0 (FXL_PORT_CMD_STATUS_STATE 0) = 1 ∧ ((s.settle 0 0).port 0 0).far = false ∧
       ((s.settle 0 0).port 0 0).farWait = false,
     fun s => s.rd 0 (FXL_PORT_CMD_STATUS_STATE 0) = 1 ∧ (s.settle 0 0).rd 0 (FXL_PORT_CMD_STATUS_STATE 0) ≠ 1,
     fun s => s.rd 0 (FXL_PORT_CMD_STATUS_STATE 0) = 1 ∧ byteAt ack 2 = (s.port 0 0).cmdTag,
     fun s => s.rd 0 (FXL_PORT_CMD_STATUS_STATE 0) = 1 ∧ byteAt ack 2 ≠ (s.port 0 0).cmdTag,
     fun s => s.locked 0 .aux ∧ s.bcFree 0 0 ∧ (s.port 0 0).expq ≠ [],
     fun s => s.locked 0 .aux ∧ s.bcFree 0 0 ∧ (s.port 0 0).expq = [] ∧ (s.port 0 0).cmd.isSome, fun s => s.bcOn 0 0 ∧ (s.port 0 0).expq ≠ [],
     fun _ => (0x10000 : BitVec 32).getLsbD 16 ∧ bitsOf 0x10300 9 8 = 3 ∧ bitsOf 0x10000 9 8 = 0 ∧ bitsOf 0x10100 9 8 = 1 ∧ bitsOf 0x10200 9 8 = 2] = true := by
  decide +kernel
theorem witness_CountersClear : (0 < 1 ∧ 0 < 1) ∧ meets (fun s => s.live) [on] [fun s => s.fit 0 ∧ s.id.bonded 0 0 ∧ s.fit 1, fun s => s.fit 7] = true := by
  decide +kernel
/-- A LINE packet of `len` columns of format 1 on sub-stream `sub`, with the fields that R101 gives it. -/
def linePkt (sub len : Nat) : Bytes :=
  withCrc (leBytes 1 1 ++ leBytes 1 sub ++ leBytes 1 0 ++ leBytes 1 1 ++ leBytes 4 9 ++ leBytes 2 len ++ leBytes 6 0 ++ List.replicate len 5)
/-- Packets that fail R97's checks of the CRC, the TYPE, the fields, the length, and one that passes them. -/
def badCrc : Bytes := linePkt 0 8 |>.map (· + 1)
def badType : Bytes := withCrc (3 :: zeros 11)
def badFields : Bytes := linePkt 4 8
def badLength : Bytes := withCrc (linePkt 0 8)
def goodLine : Bytes := linePkt 0 8
/-- Port 0 of tile 0 is UP and waits for the last 7 bytes of `k`. -/
def receiving (k : Bytes) (en : Nat) : State :=
  ((portWith 5 { idlePort with rx := { PortRx.idle with due := 4096, asm := .opened (k.take (k.length - 7)) } }).wr 0 (FXL_PORT_CTRL_SUB_EN 0) en).wr 0 (ING_PORT_SUB_CFG_EN 0 0) 1
def lastRound (k : Bytes) : List LaneRx := [⟨[block 1 (0x87 :: k.drop (k.length - 7))], 0, 0⟩]
/-- The round of a bond of one lane that does `r`. -/
def oneRound (s : State) (rx : List LaneRx) (r : AsmStep) : Bool :=
  let l := (s.bond 0 0).zip (rx.map fun x => x.blocks.headD 0)
  decide (s.portSt 0 0 = 5 ∧ (s.port 0 0).ahead = 0 ∧ (s.port 0 0).rx.due ≠ 0 ∧ rx.length = (s.bond 0 0).length ∧
    (∀ k < rx.length, ((s.port 0 0).rx.lane k).queue = []) ∧ (∀ x ∈ rx, x.blocks.length = 1) ∧
    (∀ x ∈ l, headOk (s.headOf 0 x.1 x.2)) ∧ ∀ n ∈ s.bond 0 0, ¬ headsLose (headPush (s.laneHeads 0 n) true)) &&
  match (s.roundKinds 0 l).1 with
  | [k] => !k.isAlign && decide (r = (s.port 0 0).rx.asm.step k)
  | _ => false
theorem oneRound_brings {s : State} {rx : List LaneRx} {r : AsmStep} (h : oneRound s rx r) : s.roundBrings 0 0 rx r := by
  simp only [oneRound, Bool.and_eq_true, decide_eq_true_eq] at h
  obtain ⟨⟨h1, h2, h3, h4, h5, h6, h7, h8⟩, h9⟩ := h
  split at h9
  · rename_i k hk
    simp only [Bool.and_eq_true, Bool.not_eq_true', decide_eq_true_eq] at h9
    exact ⟨h1, h2, h3, h4, h5, h6, h7, h8, [], k, [], _, hk, h9.1, rfl, h9.2, rfl⟩
  · simp at h9
theorem witness_LinePacketChecked_rounds : ∀ k ∈ [badCrc, badType, badFields, badLength, goodLine],
    (receiving k 1).live ∧ (receiving k 1).fit 0 ∧ (receiving k 1).roundBrings 0 0 (lastRound k) ⟨.idle, false, some k⟩ := by
  intro k hk
  have h : [badCrc, badType, badFields, badLength, goodLine].all fun k =>
      (receiving k 1).live && (receiving k 1).fit 0 && oneRound (receiving k 1) (lastRound k) ⟨.idle, false, some k⟩ := by decide +kernel
  have := List.all_eq_true.1 h k hk
  simp only [Bool.and_eq_true] at this
  exact ⟨this.1.1, this.1.2, oneRound_brings this.2⟩
theorem witness_LinePacketChecked_error : (receiving goodLine 1).roundBrings 0 0 [⟨[block 1 [0xFF]], 0, 0⟩] ⟨.rest, true, none⟩ := oneRound_brings (by decide +kernel)
theorem witness_LinePacketChecked : ¬ crcGood badCrc ∧ (crcGood badType ∧ byteAt badType 0 = 3) ∧ (crcGood badFields ∧ byteAt badFields 0 = 1 ∧ ¬ lineFieldsOk badFields) ∧
    (crcGood badLength ∧ byteAt badLength 0 = 1 ∧ lineFieldsOk badLength ∧ badLength.length ≠ packetLen badLength) ∧
    (crcGood goodLine ∧ byteAt goodLine 0 = 1 ∧ lineFieldsOk goodLine ∧ goodLine.length = packetLen goodLine ∧ ¬ (leAt goodLine 10 2).testBit 1) ∧
    meets (fun s => s.live ∧ s.fit 0) [portIn 4, receiving goodLine 0, receiving goodLine 1,
        ((receiving goodLine 1).wr 0 BND_CTRL_RUN 1).wr64 0 (ING_PORT_SUB_EXPECT_LO 0 0) 2,
        { (receiving goodLine 1).wr 0 BND_CTRL_RUN 1 with clk := { on.clk with lastWeb := some 0 } } |>.wr64 0 BND_LINE_LO 8]
      [fun s => s.portSt 0 0 ≠ 5 ∧ (s.port 0 0).ahead = 0, fun s => ¬ (s.rd 0 (FXL_PORT_CTRL_SUB_EN 0)).testBit (byteAt goodLine 1) ∧ s.portSt 0 0 = 5,
       fun s => (s.rd 0 (FXL_PORT_CTRL_SUB_EN 0)).testBit (byteAt goodLine 1) ∧ ¬ s.isMaster 0 ∧ ¬ s.is 0 BND_CTRL_RUN,
       fun s => (s.rd 0 (FXL_PORT_CTRL_SUB_EN 0)).testBit (byteAt goodLine 1) ∧ ¬ s.isMaster 0 ∧ s.is 0 BND_CTRL_RUN ∧ s.locked 0 .sys ∧
         s.assocLine 0 0 0 (leAt goodLine 4 4) = (9 : Nat) ∧ s.expect 0 0 0 ≤ 9 ∧ ((9 : Nat) : Int) ≤ s.lineC + 1 ∧ s.lineMapped 0 0 0 9] = true := by decide +kernel
def withSub (x : SubState) : State := { on with path := { on.path with subs := [(0, x)] } }
theorem witness_GainFade : meets (fun s => s.live ∧ s.fit 0)
    [on, on.wr 0 (COR_PORT_SUB_GAIN_CTRL_QUEUED 0 0) 1, (on.wr 0 (COR_PORT_SUB_GAIN_CTRL_QUEUED 0 0) 1).wr 0 (COR_PORT_SUB_GAIN_CTRL_PENDING 0 0) 1,
     withSub { SubState.idle with fadeDue := some (8, 0) }, { on with clk := { on.clk with tickTb0 := some on.tim.tb0 } }]
    [fun s => (s.sub 0).fade = none ∧ (s.sub 0).fadeDue = none ∧ ¬ s.is 0 (COR_PORT_SUB_GAIN_CTRL_QUEUED 0 0) ∧ ¬ s.inTickCycle,
     fun s => (s.sub 0).fade = none ∧ (s.sub 0).fadeDue = none ∧ ¬ s.is 0 (COR_PORT_SUB_GAIN_CTRL_QUEUED 0 0) ∧ s.inTickCycle,
     fun s => s.is 0 (COR_PORT_SUB_GAIN_CTRL_QUEUED 0 0) ∧ ¬ s.is 0 (COR_PORT_SUB_GAIN_CTRL_PENDING 0 0),
     fun s => s.is 0 (COR_PORT_SUB_GAIN_CTRL_QUEUED 0 0) ∧ s.is 0 (COR_PORT_SUB_GAIN_CTRL_PENDING 0 0),
     fun s => (s.sub 0).fadeDue.isSome, fun _ => 0 < 1 ∧ 1 ≤ 1] = true := by decide +kernel
def piped (l : List PipeLine) : State := { on with path := { on.path with pipe := [(0, l)] } }
theorem witness_LinePathStages : meets (fun s => s.live ∧ s.fit 0)
    [running, running.wr64 0 (ING_PORT_SUB_EXPECT_LO 0 0) 156 |>.wr 0 (ING_PORT_SUB_CFG_EN 0 0) 1 |>.wr 0 (ING_PORT_CTRL_WAIT 0) 4,
     { running with path := { running.path with subs := [(0, { SubState.idle with staged := [⟨160, 0, 0, false, [[1]]⟩] })] } },
     piped [], piped [⟨0, ⟨0, 0, 0, false, [[1]]⟩, [[1]], none⟩],
     { running with path := { running.path with stats := [⟨0, 19, 8, 159, 0, false, false, [], [], false⟩] } }]
    [fun s => s.is 0 BND_CTRL_RUN, fun s => s.is 0 BND_CTRL_RUN ∧ 0 ≤ (s.settle 0 0).lineC - (s.settle 0 0).rd 0 (ING_PORT_CTRL_WAIT 0),
     fun s => s.is 0 BND_CTRL_RUN ∧ (s.settle 0 0).lineC - (s.settle 0 0).rd 0 (ING_PORT_CTRL_WAIT 0) = (s.settle 0 0).expect 0 0 0 ∧
       (s.settle 0 0).lineMapped 0 0 0 ((s.settle 0 0).expect 0 0 0),
     fun s => (∀ y ∈ smGet [] 0 s.path.pipe, y.input = none) ∧ s.nextStaged 0 0 = none, fun s => s.locked 0 .sys ∧ ((s.leaveInput 0 0).nextStaged 0 0).isSome,
     fun s => smGet [] 0 s.path.pipe = [], fun s => s.locked 0 .sys ∧ smGet [] 0 s.path.pipe ≠ [] ∧ ¬ s.alignOn (s.lineCfg 0) 0 0 0,
     fun s => s.leavingNow 0 0 = 0, fun s => s.locked 0 .sys ∧ s.statLast 0 ∧ (s.path.stats.find? fun b => b.sub == 0 && !b.complete).isSome,
     fun s => s.locked 0 .sys ∧ s.statDue 0] = true := by decide +kernel
def withSet (id : Nat) : State :=
  { portIn 5 with path := { on.path with exps := [(0, { ExpPort.idle with due := some (⟨id, 1, 100, 0, 0, 0⟩, 20, false) })] } }
theorem witness_ExposureSets : meets (fun s => s.live ∧ s.fit 0) [on, withSet 0, withSet 255, (withSet 1).wr 0 (LNK_PORT_BC_CTRL_ENABLE 0) 1]
    [fun s => (s.exp 0 0).due = none, fun s => (s.exp 0 0).due.any fun x => x.1.id = 0,
     fun s => (s.exp 0 0).due.any fun x => x.1.id = 255 ∧ x.2.1 < 2 ^ 64 ∧ ¬ (s.bcOn 0 0 ∧ s.portSt 0 0 = 5),
     fun s => (s.exp 0 0).due.any fun x => x.1.id = 1 ∧ s.bcOn 0 0 ∧ s.portSt 0 0 = 5] = true := by decide +kernel
def importing (next : Nat) : State :=
  let s := ((running.wr 0 (STI_IMP_CFG_EN 0) 1).wr64 0 BND_LINE_LO 161).wr 0 (STI_GRP_CFG_EN 0) 1
  { s with sti := { s.sti with imps := [(0, ⟨next, []⟩)], src := [(0, ⟨0, [⟨160, none, [[5]]⟩]⟩)] } }
def trimming : State :=
  { on with sti := { on.sti with due := [(0, ⟨3, some [(1, 2), (3, 4), (5, 6), (7, 8), (-1, -2), (70000, 2), (1, 0), (0, 0)], []⟩)], built := [(0, [⟨7, 9, [[1]], [], []⟩])] } }
theorem witness_StitchingCommands : meets (fun s => s.live ∧ s.fit 0) [on, importing 160, importing 100, { importing 160 with pending := [.importedLine 0 0] },
     (importing 160).wr 0 (STI_GRP_SEG_W 0) 1, trimming]
    [fun s => s.impReady 0 0, fun s => s.impExpired 0 0 ∧ ¬ s.impComes 0 0, fun s => s.impComes 0 0, fun s => s.sti.due.find? (·.1 == 0) = none,
     fun s => (s.sti.due.find? (·.1 == 0)).any fun x => x.2.reg = [] ∧ (x.2.soft.any fun l => l.length = 8) ∧ ¬ s.trimOwned 0,
     fun s => s.stPick 0 = none, fun s => s.locked 0 .sys ∧ (s.stPick 0).isSome, fun s => smGet [] 0 s.sti.built = [],
     fun s => s.locked 0 .sys ∧ (smGet [] 0 s.sti.built).any fun l => l.group < 8] = true := by decide +kernel
/-- A request in session `n` from the source that `connected` has bound it to. -/
def hdr (n : Fin 8) : LcpHdr := ⟨0, .l2 5, 5, 1, 5, n, true, 3⟩
def connected : State := { on.wr 0 CHN_ADDR_ADDR 1 with pwr := { on.pwr with phase := .run }, net := { on.net with sessions := [(1, ⟨.l2 5, 0, 5, 1⟩)] } }
def stripe (job : Nat) : RefStripe := ⟨job, 0, 0, 0, 4, 0, 8, [1, 2], [], []⟩
def storing (job : Nat) : State :=
  { (on.wr 0 CFG_ACTIVE_JOB 7).wr 0 (REF_GRP_RING_SIZE 0) 64 with ref := { on.ref with coming := [(0, [stripe job])] } }
/-- The request at port B from the same source. -/
def hdrB : LcpHdr := { hdr 1 with port := 1 }
theorem witness_ReferenceStripes : meets (fun s => s.live ∧ s.fit 0 ∧ s.rd 0 CHN_ADDR_ADDR ≠ 0)
    [connected, (connected.wr 0 (D2D_L_STATUS_UP 0) 1).wr 1 (D2D_L_STATUS_UP 0) 1, { connected with net := { connected.net with stripesIn := [⟨0, 2, [5, 5]⟩] } }]
    [fun s => s.lcpMine hdrB ∧ s.lcpStays hdrB, fun s => s.lcpMine hdrB ∧ ¬ s.lcpStays hdrB ∧ hdrB.dst.val ≠ 63 ∧ (s.hopOver hdrB).sessMine hdrB,
     fun s => s.lcpMine (hdr 0) ∧ ¬ s.lcpStays (hdr 0), fun s => s.lcpMine (hdr 2) ∧ ¬ s.lcpStays (hdr 2) ∧ ¬ (s.hopOver (hdr 2)).sessMine (hdr 2),
     fun s => s.lcpMine (hdr 1) ∧ ¬ s.lcpStays (hdr 1) ∧ (s.hopOver (hdr 1)).sessMine (hdr 1) ∧ leAt (zeros 4) 0 4 = 0 ∧ 3 ≤ (zeros 7).length - 4,
     fun s => s.lcpMine (hdr 1) ∧ (s.hopOver (hdr 1)).sessMine (hdr 1) ∧ leAt [2, 0, 0, 0] 0 4 ≠ 0 ∧
       (s.net.stripesIn.find? fun z => z.port == (hdr 1).port.val && z.bytes.length == leAt [2, 0, 0, 0] 0 4).isSome,
     fun s => s.lcpMine (hdr 1) ∧ (s.hopOver (hdr 1)).sessMine (hdr 1) ∧ leAt [2, 0, 0, 0] 0 4 ≠ 0 ∧ s.net.stripesIn = []] = true := by decide +kernel
theorem witness_ReferenceStripes_store : meets (fun s => s.live ∧ s.fit 0) [on, storing 7, storing 6]
    [fun s => smGet [] 0 s.ref.coming = [], fun s => s.locked 0 .sys ∧ smGet [] 0 s.ref.coming = [stripe 7] ∧ (s.jobBank 7).any fun b => (s.ring b 0 0).bytes + 2 ≤ s.rdB b 0 (REF_GRP_RING_SIZE 0),
     fun s => s.locked 0 .sys ∧ smGet [] 0 s.ref.coming = [stripe 6] ∧ s.jobBank 6 = none] = true := by decide +kernel
def withItem (ws : List Nat) : State := { on with ref := { on.ref with items := [(0, 3, ws)] } }
/-- A registered group whose lead is checked at line 160, on tile 0 alone where it stores `cols` columns. -/
def leading (cols : Nat) : State :=
  (((running.wr 0 (STI_GRP_CFG_EN 0) 1).wr 0 (REF_GRP_CFG_EN 0) 1).wr 0 (STI_GRP_PITCH 0) 65536).wr 0 (REF_GRP_RING_COLS 0) cols |>.wr 0 (REF_GRP_WIN_LINES 0) 0 |>.wr 0 (REF_GRP_COARSE_ROWS 0) 0
theorem witness_RegistrationCommands : meets (fun s => s.live ∧ s.fit 0)
    [running, leading 1, leading 0, { running.wr 0 CFG_STATUS_SHADOW 4 with ref := { on.ref with leadNext := [(0, 99)] } },
     on.wr 0 CLK_LOCK 0, withItem [1], withItem (List.replicate 39 1), { withItem [1] with eng := { on.eng with due := [(16, 4)] } }]
    [fun s => s.leadDue 0, fun s => s.leadDue 0 ∧ ¬ s.leadNextDue 0 ∧
       let x := s.updRef fun r => { r with leadNext := smSet 0 0 (smGet 0 0 s.ref.leadNext + 1) r.leadNext }
       x.refOn s.bank 0 && !x.refLearns s.bank 0 && !x.refBad s.bank 0 && x.leadShort s.bank 0,
     fun s => s.leadDue 0 ∧ ¬ s.leadNextDue 0 ∧
       let x := s.updRef fun r => { r with leadNext := smSet 0 0 (smGet 0 0 s.ref.leadNext + 1) r.leadNext }
       x.refOn s.bank 0 && !x.refLearns s.bank 0 && !x.refBad s.bank 0 && !x.leadShort s.bank 0,
     fun s => ¬ s.leadDue 0 ∧ s.leadNextDue 0, fun s => ¬ s.locked (s.rd 0 (REF_GRP_CFG_SOLVE_TILE 0)) .sys,
     fun s => s.locked 0 .sys ∧ s.ref.items.find? (·.1 == 0) = none,
     fun s => s.locked 0 .sys ∧ s.ref.items.any fun x => x.1 == 0 && s.solvePast 0 x.2.1,
     fun s => s.locked 0 .sys ∧ s.ref.items.any fun x => x.1 == 0 && (s.refOut 0 x.2.1).isNone && !s.solvePast 0 x.2.1 && x.2.2.length == 39,
     fun s => s.locked 0 .sys ∧ s.ref.items.any fun x => x.1 == 0 && (s.refOut 0 x.2.1).isNone && !s.solvePast 0 x.2.1 && x.2.2.length == 1] = true := by decide +kernel
/-- A stitched group of one column of one camera, segmented, with its closed band 19 ready for the warp. -/
def warping : State :=
  let s := (running.wr 0 (STI_GRP_CFG_EN 0) 1).wr 0 (STI_GRP_SEG_W 0) 1
  { s with sti := { s.sti with next := [(0, 161)] }, ref := { s.ref with warpNext := [(0, 19)] } }
theorem witness_RegistrationCommands_warp : meets (fun s => s.live ∧ s.fit 0) [warping] [fun s => s.locked 0 .sys ∧ s.warpReady 0 0 ∧ (s.nextWarp 0 0).isSome] = true := by decide +kernel
def learning (k : Int) (l : Learn) (st : Nat) : State :=
  { (on.wr 0 (REF_GRP_CFG_SOURCE 0) 1).wr 0 (REF_GRP_STATUS_LEARNING 0) st with ref := { on.ref with learns := [(0, { l with req := if st = 0 then some k else none })] } }
def captured : Learn := { Learn.idle with caps := List.replicate 15 [(0, [1])], image := [(0, [1])], median := [0, 1, 2, 3, 4, 5, 6, 7], medianAt := -2 }
theorem witness_LearningRuns : meets (fun s => s.live ∧ s.fit 0)
    [on, learning (-2) Learn.idle 0, (learning (-2) Learn.idle 0).wr 0 (REF_GRP_LEARN_BASE 0) 0x400001, learning 0 captured 1]
    [fun s => s.is 0 (REF_GRP_STATUS_LEARNING 0), fun s => ¬ s.is 0 (REF_GRP_STATUS_LEARNING 0),
     fun s => s.refLearns s.bank 0 ∧ (s.learn 0).req = some (-2) ∧ -2 < s.repNow 0 ∧ ∀ x ∈ s.tiles, ¬ s.learnBad s.bank x 0,
     fun s => s.refLearns s.bank 0 ∧ (s.learn 0).req = some (-2) ∧ -2 < s.repNow 0 ∧ s.learnBad s.bank 0 0, fun s => s.locked 0 .sys ∧ s.learnFull 0,
     fun s => s.learnedDue 0] = true := by decide +kernel
def frag (verdict : Bool) : Frag :=
  ⟨0, 0, 3, ⟨7, 4, 5, [], [], 1, 3, 4, 1, 0, 3, 1, 1, 4, 0, 3, 4, 2, 0, 1, false, [], []⟩, .plain, false, false, 0, 0, verdict, false, false⟩
def judging (l : List Frag) : State :=
  { on.wr 0 (SEG_GRP_CFG_CLS_EN 0) 1 with sgm := { on.sgm with verdicts := [(0, 0, 3, [7, 0x101])], segs := [(0, { SegState.idle with frags := l })] } }
def judgedFrag (s : State) : Option Frag := ((s.segOf 0 0).frags.find? fun f => f.n == 3 && f.br.id == 7).filter fun _ => s.judged 0 0 3
theorem witness_Verdicts : meets (fun s => s.live ∧ s.fit 0) [on, judging [], judging [frag true], judging [frag false]]
    [fun s => s.sgm.verdicts = [], fun s => s.locked 0 .sys ∧ s.sgm.verdicts ≠ [] ∧ judgedFrag s = none,
     fun s => s.locked 0 .sys ∧ s.sgm.verdicts ≠ [] ∧ (judgedFrag s).any (·.verdict), fun s => s.locked 0 .sys ∧ s.sgm.verdicts ≠ [] ∧ (judgedFrag s).any (!·.verdict)] = true := by
  decide +kernel
/-- A marker of the collector waits at `x` with a gap of 100; the compare unit 0 takes markers where `ok`, with a list of `len` entries. -/
def marking (x : Int) (last : Option Int) (ok : Bool) (len : Nat) : State :=
  let s := (on.wr 0 POS_MARK_CTRL_EN 1).wr 0 (POS_CMP_LEN 0) len
  let s := if ok then (((s.wr 0 (POS_CMP_CTRL_EN 0) 1).wr 0 (POS_CMP_CTRL_CTR 0) 1).wr 0 (POS_CMP_CTRL_MODE 0) 2) else s
  { s with sgm := { s.sgm with marks := [(x, 100)], lastMark := last } }
/-- The state as the counts of its cycle leave it, the marker taken off. -/
def counted (s : State) : State := { s with sgm := { s.sgm with marks := s.sgm.marks.tail } }.cmpCountsFirst (s.rd 0 POS_MARK_CTRL_UNIT)
def nearMark (s : State) : Bool := s.sgm.marks.any fun (x, gap) => (counted s).sgm.lastMark.any fun z => decide (z ≤ x ∧ x - z < gap)
def serving (turn : Nat) : State :=
  { running.wr64 0 BND_INDEX_LO 40 with sgm := { running.sgm with band := 20, turn := turn, slots := (List.range 16).map fun k => (k, ⟨20, [], []⟩) } }
def sending (quota : Nat) : State := { fresh (on.wr 0 (QUE_Q_CFG_QUOTA 0) quota) with sgm := { on.sgm with held := [⟨List.replicate 16 7, none⟩] } }
theorem witness_Collector : meets (fun s => s.live) [on, { serving 0 with sgm := { (serving 0).sgm with ahead := 1 } }, serving 0, serving 7, sending 1, sending 0,
      marking 100 (some 1) true 8, (marking 101 (some 1) true 8).wr 0 POS_MARK_CTRL_EN 0, marking 101 (some 1) false 8, marking 101 (some 1) true 1, marking 101 (some 1) true 2]
    [fun s => 0 < s.sgm.ahead, fun s => s.sgm.ahead = 0 ∧ s.locked 0 .sys ∧ s.serveDue ∧ s.sgm.turn + 1 < s.id.variant.tiles,
     fun s => s.sgm.ahead = 0 ∧ s.locked 0 .sys ∧ s.serveDue ∧ s.id.variant.tiles ≤ s.sgm.turn + 1, fun s => s.sgm.held = [],
     fun s => s.locked 0 .sys ∧ s.sgm.held.any fun i => s.popsAhead 0 = [] ∧ s.qFlushed 0 0 = false ∧ s.qItems 0 0 = [] ∧ i.cells ≤ s.began.rd 0 (QUE_Q_CFG_QUOTA 0) ∧ i.cells ≤ s.rd 0 QUE_POOL_FREE,
     fun s => s.locked 0 .sys ∧ s.sgm.held.any fun i => s.popsAhead 0 = [] ∧ s.qFlushed 0 0 = false ∧ s.qItems 0 0 = [] ∧ s.began.rd 0 (QUE_Q_CFG_QUOTA 0) < i.cells,
     fun s => s.sgm.marks = [], nearMark, fun s => s.sgm.marks ≠ [] ∧ ¬ nearMark s ∧ ¬ (counted s).is 0 POS_MARK_CTRL_EN,
     fun s => s.sgm.marks ≠ [] ∧ ¬ nearMark s ∧ (counted s).is 0 POS_MARK_CTRL_EN ∧ ¬ (counted s).markOk,
     fun s => s.sgm.marks ≠ [] ∧ ¬ nearMark s ∧ (counted s).is 0 POS_MARK_CTRL_EN ∧ (counted s).markOk ∧ (counted s).cmpLen 0 ≤ ((counted s).cmpPending 0).length + 1,
     fun s => s.sgm.marks ≠ [] ∧ ¬ nearMark s ∧ (counted s).is 0 POS_MARK_CTRL_EN ∧ (counted s).markOk ∧ ((counted s).cmpPending 0).length + 1 < (counted s).cmpLen 0] = true := by
  decide +kernel
/-- Engine 0 of tile 0 in state `x`; and it runs its BAND entry. -/
def withEng (x : EngState) : State := { on with eng := { on.eng with engs := [(0, x)] } }
def inBand : EngState := { EngState.idle with run := 2, pc := 5 }
def engGoes (s : State) : Bool := s.live ∧ s.fit 0 ∧ s.locked 0 .core ∧ (s.engOf 0 0).issues ∧ (s.engOf 0 0).pc < 2047 ∧ ¬ s.is 0 (ENG_E_DBG_BP_EN 0)
theorem witness_EngineScalarInstructions : meets engGoes [withEng { inBand with pc := 2046, s := [(1, 0xFFFFFFFF)] }]
    [fun s => (s.engOf 0 0).sreg 1 ≠ 0, fun s => (s.engOf 0 0).sreg 2 = 0] = true := by decide +kernel
theorem witness_EngineControlFlow : meets engGoes [withEng inBand, withEng { inBand with run := 1 }, withEng { inBand with s := [(1, 0x80000000)] }]
    [fun s => (s.engOf 0 0).sreg 1 = (s.engOf 0 0).sreg 2, fun s => (s.engOf 0 0).sreg 1 ≠ (s.engOf 0 0).sreg 2, fun _ => (0 : Int) ≤ 5 + -5 ∧ (5 : Int) + 2042 ≤ 2047,
     fun s => (s.engOf 0 0).run = 1, fun s => (s.engOf 0 0).run = 2] = true := by decide +kernel
def withFifo (l : List FifoEntry) : State := withEng { inBand with fifo0 := l }
def outFull : EngState := { inBand with out := List.replicate 64 (.word 0 1 false) }
theorem witness_EngineStreamsAndBarriers : meets engGoes
    [withFifo [], withFifo [.mark 5], withFifo [.lost 5], withFifo [.word 5 0xFFFFFFFF true], (withFifo [.beat 5 [1] true]).wr 0 (ENG_E_IN0_SRC 0) 1,
     withEng { inBand with latches := 8 }, withEng outFull, withEng { outFull with out := outFull.out.tail }, (withEng inBand).wr 0 (ENG_CL_BAR_MASK 0) 1]
    [fun s => (s.engOf 0 0).run = 2 ∧ (s.engOf 0 0).fifo 0 = [], fun s => (s.engOf 0 0).run = 2 ∧ (s.engOf 0 0).fifo 0 = [.mark 5],
     fun s => (s.engOf 0 0).run = 2 ∧ (s.engOf 0 0).fifo 0 = [.lost 5] ∧ ¬ srcBeats (s.engSrc 0 0 0 0),
     fun s => (s.engOf 0 0).run = 2 ∧ (s.engOf 0 0).fifo 0 = [.word 5 0xFFFFFFFF true] ∧ ¬ srcBeats (s.engSrc 0 0 0 0),
     fun s => (s.engOf 0 0).run = 2 ∧ (s.engOf 0 0).fifo 0 = [.beat 5 [1] true] ∧ ¬ srcWords (s.engSrc 0 0 0 0) ∧ (⟨true, 0, 2, 31⟩ : VCtl).m ≠ 3,
     fun s => (s.engOf 0 0).run = 2 ∧ (s.engOf 0 0).out.length = 64, fun s => (s.engOf 0 0).run = 2 ∧ (s.engOf 0 0).out.length = 63, fun s => (s.engOf 0 0).latches.testBit 3,
     fun s => ¬ (s.engOf 0 0).latches.testBit 3, fun s => (s.rdB 0 0 (ENG_CL_BAR_MASK 0)).testBit 0, fun s => ¬ (s.rdB 0 0 (ENG_CL_BAR_MASK 0)).testBit 0] = true := by
  decide +kernel
theorem witness_EngineMemoryAccess : meets engGoes [withEng { inBand with s := [(1, 40956), (2, 524284), (3, 40912), (4, 524240), (5, 39936)] }]
    [fun s => (s.engOf 0 0).sreg 1 + 4 = 40960 ∧ (s.engOf 0 0).sreg 2 + 4 = 524288 ∧ (s.engOf 0 0).sreg 3 + 48 = 40960 ∧ (s.engOf 0 0).sreg 4 + 48 = 524288 ∧
      (s.engOf 0 0).sreg 5 + 1024 = 40960 ∧ 39936 % 4 = 0] = true := by decide +kernel
theorem witness_EngineVectorLanes : meets engGoes [withEng inBand]
    [fun _ => (⟨false, 0, 2, 15⟩ : VCtl).m ≠ 3 ∧ (⟨false, 0, 2, 15⟩ : VCtl).m.val ≠ 0 ∧ (⟨false, 0, 2, 15⟩ : VCtl).k.val ≤ 15 ∧ (⟨false, 0, 1, 5⟩ : VCtl).k.val % 8 ≤ 5,
     fun s => (List.range 16).all ((s.engOf 0 0).laneOn false 0)] = true := by decide +kernel
theorem witness_EngineVectorReductions : meets engGoes [withEng { inBand with v := [(0, 5)], p := [(1, 1)] }]
    [fun s => ((List.range 16).filter ((s.engOf 0 0).laneOn true 0)) = [] ∧ (⟨true, 0, 1, 1⟩ : VCtl).k.val % 4 = 1,
     fun s => ((List.range 16).filter ((s.engOf 0 0).laneOn true 1)).map (fun k => (s.engOf 0 0).lane 0 k) = [5] ∧ (⟨true, 1, 1, 30⟩ : VCtl).k.val % 4 = 2] = true := by
  decide +kernel
/-- The configuration of engine 1 of tile 1, whose instance is on. -/
def assigned : State :=
  let s := ((running.wr 1 (ENG_E_CFG_EN 1) 1).wr 1 (ENG_E_CFG_INST 1) 2).wr 1 (ENG_INST_CFG_EN 2) 1
  { s.wr 1 (ENG_E_STATUS_INIT_DONE 1) 1 with eng := { s.eng with engs := [(129, { EngState.idle with next := 20 })] } }
def debugging (x : EngState) : State := (withEng { x with halted := true }).wr 0 (ENG_E_DBG_SEL_REG 0) 5
theorem witness_EngineEntriesAndDebug : meets (fun s => s.live ∧ s.fit 0 ∧ s.locked 0 .core)
    [withEng { inBand with pc := 2047 }, withEng { EngState.idle with initDue := true }, withEng { EngState.idle with run := 3 }, withEng { inBand with run := 1 },
     (withEng { inBand with bar := true }).wr 0 (ENG_CL_BAR_MASK 0) 1, debugging inBand, debugging { EngState.idle with missed := some 20 }, on.wr 0 LCS_STATE_STATE 2]
    [fun s => (s.engOf 0 0).issues ∧ (s.engOf 0 0).pc = 2047 ∧ (s.engOf 0 0).run ≠ 3,
     fun s => (s.engOf 0 0).issues ∧ (s.engOf 0 0).pc < 2048 ∧ (s.engOf 0 0).run ≠ 3 ∧ storeOfs 40960 0 40960 4 = none ∧ storeOfs 524288 0 2 4 = none,
     fun s => (s.engOf 0 0).issues ∧ (s.engOf 0 0).pc < 2048 ∧ (s.engOf 0 0).run = 1,
     fun s => (s.engOf 0 0).initDue ∧ ¬ (s.engOf 0 0).halted ∧ (s.engOf 0 0).run = 0 ∧ ¬ s.is 0 (ENG_E_DBG_BP_EN 0), fun s => (s.engOf 0 0).run = 3 ∧ ¬ (s.engOf 0 0).halted,
     fun s => s.barReady s.bank 0 0 ∧ ∀ y ∈ s.barMembers s.shadow 0 0, ¬ (s.engOf 0 y).waitsIn s.shadow,
     fun s => s.debugOpen (.session 1) ∧ (s.engOf 0 0).halted ∧ (s.engOf 0 0).missed = none ∧ s.rd 0 (ENG_E_DBG_SEL_REG 0) = 5,
     fun s => s.debugOpen (.session 1) ∧ (s.engOf 0 0).halted ∧ (s.engOf 0 0).missed = some 20 ∧ ¬ s.is 0 (ENG_E_DBG_BP_EN 0) ∧ (s.engOf 0 0).run = 0,
     fun s => s.debugOpen (.session 1) ∧ (s.engOf 0 0).halted ∧ ¬ (s.engOf 0 0).bar ∧ (s.engOf 0 0).run = 2 ∧ (s.engOf 0 0).pc < 2047 ∧ ¬ s.is 0 (ENG_E_DBG_BP_EN 0) ∧
       s.engWord 0 0 / 2 ^ 26 % 64 = 0 ∧ opClass (s.memLE (progAddr 0 0 6) 4) ≠ .v,
     fun s => ¬ s.debugOpen (.session 1)] = true := by decide +kernel
theorem witness_EngineEntriesAndDebug_band : meets (fun s => s.live ∧ s.fit 1 ∧ s.locked 1 .core) [assigned]
    [fun s => s.bandEntryDue 1 1 ∧ ((s.band (s.nextBand 20)).any fun b => b.size < 2 ^ 32) ∧ ¬ s.is 1 (ENG_E_DBG_BP_EN 1) ∧ s.nextBand 20 < 2 ^ 48] = true := by decide +kernel
/-- A loader that has taken a whole image of session `n`, with the shadow in state `st`. -/
def loading (st n : Nat) (bytes : Bytes) : State :=
  { on.wr 0 CFG_STATUS_SHADOW st with cfg := { on.cfg with load := some ⟨n, bytes.length, bytes, 0, 0, 0, false, none, [], [], some 4⟩, immediate := true } }
/-- An unsigned image that the verification lets pass: what it says has been taken already. -/
def goodImage : Bytes := List.replicate 204 0xFF ++ zeros 96
def shadowed (s : State) : State :=
  (s.setWordB s.shadow 0 BND_DEPTH.blk BND_DEPTH.off 0x26543222).setWordB s.shadow 0 BND_BAND_SIZE.blk BND_BAND_SIZE.off 2
def ready (s : State) : State := s.wr 0 CFG_STATUS_SHADOW 3
def pastSwap : State := { ready running with clk := { running.clk with lastWeb := some (2 ^ 62) } }
def atTick : State := { pastSwap with clk := { pastSwap.clk with tickTb0 := some 9000 } }
def swapping (due : Option (Nat × Int)) (now : Bool) : State :=
  { loading 4 1 goodImage with clk := { on.clk with swapDue := due }, cfg := { (loading 4 1 goodImage).cfg with immediate := now } }
theorem witness_ConfigurationLoadAndSwap : meets (fun s => s.live)
    [loading 1 1 [], loading 2 1 [], { loading 2 1 [] with pending := [.verifyComplete] }, shadowed (loading 2 1 goodImage), shadowed (loading 2 0 goodImage),
     ready on, on.wr 0 CFG_STATUS_SHADOW 5, ready running, pastSwap, atTick, swapping none true, swapping none false, swapping (some (20, 0)) false, on]
    [fun s => s.shadowSt = 1 ∧ s.cfg.load.isSome, fun s => s.shadowSt = 2 ∧ ¬ s.pending.contains .verifyComplete ∧ s.cfg.load.isSome,
     fun s => s.shadowSt = 2 ∧ s.pending.contains .verifyComplete ∧ s.cfg.load.isSome, fun s => s.shadowSt = 2 ∧ s.cfg.load.any fun l => (s.verifyBad l).any (· < 256),
     fun s => s.shadowSt = 2 ∧ s.cfg.load.any fun l => s.verifyBad l = none ∧ l.session ≠ 0, fun s => s.shadowSt = 2 ∧ s.cfg.load.any fun l => s.verifyBad l = none ∧ l.session = 0,
     fun s => s.shadowSt = 3 ∧ s.cfg.load = none, fun s => s.shadowSt ≠ 3, fun s => s.shadowSt = 3 ∧ s.is 0 BND_CTRL_RUN, fun s => s.shadowSt = 3 ∧ ¬ s.is 0 BND_CTRL_RUN,
     fun s => s.shadowSt = 3 ∧ ¬ s.armLate ∧ ¬ s.swapBehind, fun s => s.shadowSt = 3 ∧ ¬ s.armLate ∧ s.swapBehind, fun s => s.shadowSt = 3 ∧ s.armLate,
     fun s => s.shadowSt ≠ 4, fun s => s.shadowSt = 4 ∧ s.clk.swapDue = none,
     fun s => s.shadowSt = 4 ∧ s.clk.swapDue = none ∧ (s.cfg.load.any fun l => l.atSwap = []) ∧ s.cfg.immediate ∧ s.cfg.armTb0 ≠ some s.tim.tb0 ∧
       ¬ s.is 0 BND_STATUS_DRAINING ∧ ¬ s.is 0 BND_CTRL_RUN,
     fun s => s.shadowSt = 4 ∧ s.clk.swapDue = none ∧ s.cfg.load.isSome ∧ ¬ s.cfg.immediate,
     fun s => s.shadowSt = 4 ∧ s.clk.swapDue.isSome ∧ s.cfg.load.any fun l => l.atSwap = [],
     fun _ => (1 : BitVec 32).getLsbD 0 ∧ ¬ (1 : BitVec 32).getLsbD 1 ∧ ¬ (1 : BitVec 32).getLsbD 2 ∧ ¬ (1 : BitVec 32).getLsbD 3 ∧ (5 : BitVec 32).getLsbD 2 ∧
       (9 : BitVec 32).getLsbD 3] = true := by decide +kernel
def filtered : State := on.wr 0 (POS_CH_CFG_MIN_EDGE 0) 1
def gated : State := on.wr 0 (POS_CH_CFG_ZGATE 0) 1
def anEdge (a b : Bool) (h : Nat) : Instr := .encoderEdge 0 a b h h false
def gateOpen (s : State) : Bool :=
  let x := (s.wr 0 (POS_CH_STATUS_Z 0) 1).edgesFirst 0 (· == false)
  !x.is 0 (POS_CH_CFG_ZGATE 0) || x.is 0 (POS_CH_STATUS_A 0) && x.is 0 (POS_CH_STATUS_B 0)
def goodFrame : AbsFrame := ⟨5, true, true, 0, true, true⟩
def absOn : State := { on.wr 0 (POS_ABS_CFG_EN 0) 1 with pos := { on.pos with abs := [(0, ⟨0, 0, 0, true⟩)] } }
def took (i : Instr) (s : State) : State := { s with cyc := { s.cyc with early := [i] } }
theorem witness_PositionInputs : meets (fun s => s.live)
    [filtered, on, gated, took (anEdge true false 9) on, took (.absFrame 0 goodFrame) absOn, absOn, on.wr 0 POS_CTRL_WEB_CHAN 1, (on.wr 0 (POS_CH_STATUS_Z 0) 1).wr 0 (POS_CH_CFG_ZMODE 0) 1,
     on.wr 0 (POS_CH_CFG_ZMODE 0) 1, { on.wr 0 POS_STANDSTILL_MS 0 with tim := { on.tim with tb0 := 8 }, pos := { on.pos with times := [(0, [0])] } }]
    [fun s => s.tookEarly (· == anEdge true false 9), fun s => ¬ s.tookEarly (· == anEdge true false 9) ∧ s.locked 0 .aux ∧ s.is 0 (POS_CH_STATUS_A 0) = false ∧ s.is 0 (POS_CH_STATUS_B 0) = false,
     fun s => ¬ s.tookEarly (· == anEdge true true 3) ∧ s.locked 0 .aux ∧ ¬ s.is 0 (POS_CH_STATUS_A 0) ∧ ¬ s.is 0 (POS_CH_STATUS_B 0) ∧ 3 < 4 * s.rd 0 (POS_CH_CFG_MIN_EDGE 0),
     fun s => ¬ s.tookEarly (· == anEdge true true 4) ∧ s.locked 0 .aux ∧ ¬ 4 < 4 * s.rd 0 (POS_CH_CFG_MIN_EDGE 0) ∧ ¬ s.is 0 (POS_CH_STATUS_A 0) ∧ ¬ s.is 0 (POS_CH_STATUS_B 0) ∧
       s.rd 0 (POS_CH_CFG_DECODE 0) ≠ 3,
     fun s => ¬ s.tookEarly (· == anEdge true false 4) ∧ s.locked 0 .aux ∧ ¬ 4 < 4 * s.rd 0 (POS_CH_CFG_MIN_EDGE 0) ∧ ¬ s.is 0 (POS_CH_STATUS_A 0) ∧
       ((edgeCount (s.rd 0 (POS_CH_CFG_DECODE 0)) false false true false).any (· ≠ 0)) ∧ s.rd 0 POS_CTRL_WEB_CHAN ≠ 0,
     fun s => s.locked 0 .aux ∧ ¬ s.is 0 (POS_CH_STATUS_Z 0), fun s => s.locked 0 .aux ∧ s.is 0 (POS_CH_STATUS_Z 0) ∧ ¬ 0 < 4 * s.rd 0 (POS_CH_CFG_MIN_EDGE 0),
     fun s => s.locked 0 .aux ∧ ¬ s.is 0 (POS_CH_STATUS_Z 0) ∧ 3 < 4 * s.rd 0 (POS_CH_CFG_MIN_EDGE 0),
     fun s => s.locked 0 .aux ∧ ¬ s.is 0 (POS_CH_STATUS_Z 0) ∧ ¬ 4 < 4 * s.rd 0 (POS_CH_CFG_MIN_EDGE 0) ∧ ¬ gateOpen s,
     fun s => s.locked 0 .aux ∧ ¬ s.is 0 (POS_CH_STATUS_Z 0) ∧ ¬ 4 < 4 * s.rd 0 (POS_CH_CFG_MIN_EDGE 0) ∧ gateOpen s ∧ s.rd 0 (POS_CH_CFG_ZMODE 0) ≠ 0,
     fun s => s.tookEarly (· == .absFrame 0 goodFrame),
     fun s => ¬ s.tookEarly (· == .absFrame 0 goodFrame) ∧ s.locked 0 .aux ∧ s.is 0 (POS_ABS_CFG_EN 0) ∧ ¬ s.is 0 (POS_ABS_CFG_PROTO 0) ∧ (smGet AbsState.idle 0 s.pos.abs).first,
     fun s => s.locked 0 .aux ∧ s.standstillDue 0] = true := by decide +kernel
theorem witness_CompareUnits : meets (fun s => s.live)
    [on.wr 0 POS_MARK_CTRL_EN 1, on, on.wr 0 (POS_CMP_CTRL_EN 0) 1, { on.wr 0 (POS_CMP_STATUS_HIGH 0) 1 with pos := { on.pos with high := [0, 15] } }]
    [fun s => s.isMarker 0, fun s => ¬ s.isMarker 0 ∧ ¬ (s.cmpCountsFirst 0).is 0 (POS_CMP_CTRL_EN 0), fun s => ¬ s.is 0 (POS_CMP_CTRL_EN 0),
     fun s => s.is 0 (POS_CMP_CTRL_EN 0), fun s => s.locked 0 .aux ∧ s.is 0 (POS_CMP_STATUS_HIGH 0),
     fun s => s.locked 0 .aux ∧ 0 ∈ s.pos.high ∧ 15 ∈ s.pos.high] = true := by decide +kernel
def secondary : State :=
  { ((on.wr 0 TIM_STATUS_SEL 1).wr 0 TIM_CTRL_REVERT 1).wr 0 TIM_ANNOUNCE_REVERT_S 0 with tim := { on.tim with dom0 := { Domain.idle with locked := true } } }
/-- Slot 63 of tile 0 with action `k`, its time not yet come. -/
def slotSet (k : Nat) : State := { (on.wr64 0 (TIM_ACT_TIME_LO 63) 5000).wr 0 (TIM_ACT_CTRL_ACTION 63) k with tim := { on.tim with tb0 := 100 } }
def slotCome (k period : Nat) : State :=
  { ((((on.wr64 0 (TIM_ACT_TIME_LO 63) 500).wr 0 (TIM_ACT_CTRL_ACTION 63) k).wr 0 (TIM_ACT_PERIOD 63) period).wr 0 (TIM_ACT_STATUS_PENDING 63) 1).wr 0 (TIM_ACT_CTRL_ARM 63) 1
    with tim := { on.tim with tb0 := 500 } }
/-- What the arming of slot 63 with the word `v` finds. -/
def armWith (v : Nat) (s : State) : State := s.wr 0 (TIM_ACT_CTRL 63) (v &&& 0xFF7C)
theorem witness_TimeBasesAndSlots : meets (fun s => s.live)
    [on, { on with tim := { on.tim with second := true } }, secondary, on.wr 0 TIM_STATUS_SLEWING 1, (on.wr 0 TIM_STATUS_SLEWING 1).wr 0 TIM_STATUS_SEL 1, slotSet 0, { on with tim := { on.tim with fired := [(63, on.tim.tb0 + 1)] } },
     slotCome 0 0, slotCome 0 777, slotCome 1 0, { on.wr 0 ETH_STATUS_LINK 1 with tim := { on.tim with launches := [⟨0, 0, 0, 0, 5⟩] } }]
    [fun s => s.locked 0 .aux ∧ s.tim.second, fun s => s.locked 0 .aux ∧ s.rd 0 TIM_STATUS_SEL = 1 ∧ s.is 0 TIM_CTRL_REVERT ∧ s.revertDue,
     fun s => s.rd 0 TIM_STATUS_SEL = 1 ∧ s.is 0 TIM_CTRL_REVERT ∧ s.revertDue ∧ ((s.base 1 : Int) - s.sourceTime 0).natAbs < s.rd 0 TIM_STEP_LIMIT,
     fun s => s.locked 0 .aux ∧ s.is 0 TIM_STATUS_SLEWING ∧ s.slewNear ∧ s.rd 0 TIM_STATUS_SEL ≠ 1, fun s => s.locked 0 .aux ∧ s.is 0 TIM_STATUS_SLEWING ∧ s.slewNear ∧ s.rd 0 TIM_STATUS_SEL = 1,
     fun s => s.is 0 (TIM_ACT_STATUS_PENDING 63), fun s => ¬ s.is 0 (TIM_ACT_STATUS_PENDING 63) ∧ ¬ actionOk 0 (bitsOf 0x30 5 4),
     fun s => ¬ s.is 0 (TIM_ACT_STATUS_PENDING 63) ∧ actionOk 0 (bitsOf 1 5 4) ∧ ((armWith 1 s).slotBase 0 63 : Int) ≤ (armWith 1 s).firePoint 0 63,
     fun s => ¬ s.slotDue 0 63 ∧ ¬ s.slotFired 0 63, fun s => ¬ s.slotDue 0 63 ∧ s.slotFired 0 63,
     fun s => s.locked 0 .aux ∧ s.slotDue 0 63 ∧ ((List.range 63).all fun m => !s.slotDue 0 m) ∧ s.rd 0 (TIM_ACT_CTRL_ACTION 63) = 0 ∧ s.rd 0 (TIM_ACT_PERIOD 63) = 0,
     fun s => s.locked 0 .aux ∧ s.slotDue 0 63 ∧ ((List.range 63).all fun m => !s.slotDue 0 m) ∧ s.rd 0 (TIM_ACT_CTRL_ACTION 63) = 0 ∧ s.rd 0 (TIM_ACT_PERIOD 63) = 777,
     fun s => s.locked 0 .aux ∧ s.slotDue 0 63 ∧ s.rd 0 (TIM_ACT_CTRL_ACTION 63) = 1,
     fun s => s.locked 0 .aux ∧ s.locked 0 .eth ∧ s.is 0 ETH_STATUS_LINK ∧ s.launchDue 0 ∧ (s.tim.launches.find? (·.port == 0)).isSome] = true := by decide +kernel
theorem witness_TimeBasesAndSlots_idle (t : Tile) (n : Fin 64) : ¬ on.is t (TIM_ACT_STATUS_PENDING n) := by revert t n; decide +kernel
/-- A message of domain 0 from the master that is being followed, answering this part's request 1. -/
def msg (two : Bool) : PtpMsg := ⟨0, 0, 5, 1, two, 0, 0, 4000, 4500, BitVec.ofNat 80 (beNat (on.portId 0))⟩
def following (delay : Nat) (kind : Nat) : State :=
  let m : Foreign := ⟨⟨1, 2, 3, 4, 5, 6, 7⟩, 0, 5⟩
  { (on.wr 0 TIM_CTRL_PTP_EN 1).wr 0 TIM_CTRL_DELAY delay with
      tim := { on.tim with dom0 := { Domain.idle with master := some m, ref := some (-7) }, waits := [⟨kind, 0, 0, 5, 1, 0, 10, 20⟩] } }
def waitOf (s : State) (kind : Nat) : Bool := s.tim.waits.any fun w => w.kind == kind && w.domain == 0 && w.port == 0 && w.seq == 1 && w.srcId == 5
theorem witness_PtpMessages : ptpPaced (msg true) (-7) ∧ ptpPaced (msg true) (-3) ∧ ¬ ptpPaced { msg true with interval := 0xF8 } (-7) ∧ ¬ ptpPaced { msg true with interval := 5 } (-3) ∧
    meets (fun s => s.live ∧ s.locked 0 .aux) [on, following 0 1, following 1 2, following 1 3, following 0 8, (following 0 8).wr 0 TIM_STATUS_SEL 1]
    [fun s => s.domainOf (msg true) = none, fun s => s.domainOf (msg true) = some 0 ∧ s.fromMaster 0 (msg true) ∧ (msg true).twoStep ∧ ¬ (msg false).twoStep,
     fun s => s.domainOf (msg true) = some 0 ∧ ¬ s.fromMaster 0 { msg true with srcId := 6 }, fun s => s.domainOf (msg false) = some 0 ∧ s.fromMaster 0 (msg false) ∧ ¬ s.follows 0,
     fun s => s.domainOf (msg true) = some 0 ∧ waitOf s 8 ∧ ¬ s.follows 0,
     fun s => s.domainOf (msg true) = some 0 ∧ ¬ waitOf s 1, fun s => s.domainOf (msg true) = some 0 ∧ waitOf s 1 ∧ (s.dom 0).ref = some (-7) ∧ s.isMine 0 (msg true),
     fun s => ¬ (s.is 0 TIM_CTRL_PTP_EN ∧ s.p2p), fun s => s.is 0 TIM_CTRL_PTP_EN ∧ s.p2p, fun s => waitOf s 2 ∧ s.isMine 0 (msg false), fun s => waitOf s 3 ∧ s.isMine 0 (msg false),
     fun s => (s.dom 0).master.isSome, fun s => s.is 0 TIM_CTRL_PTP_EN ∧ ¬ s.p2p ∧ (s.dom 0).master.any (·.port == 0)] = true := by decide +kernel
def inNet (f : Net → Net) : State := { connected with net := f connected.net }
def trunkUp (s : State) : State := (s.wr 0 (D2D_L_STATUS_UP 0) 1).wr 1 (D2D_L_STATUS_UP 0) 1
def runsAt (s : State) (h : LcpHdr) (op : Nat) (free : Bool) : Bool :=
  decide (s.lcpMine h ∧ ¬ s.lcpStays h ∧ ¬ s.lcpCopy h ∧ (s.rd 0 CHN_ADDR_ADDR ≠ 0 ∨ opTells op) ∧ s.sessAllows h op free ∧ s.keptReply h = none)
/-- Requests in a session of their sender, one after another, that ask for a reply. -/
def asking : LcpHdr := { hdr 1 with noreply := false }
theorem witness_LcpRequests : meets (fun s => s.live)
    [connected, trunkUp connected, on.wr 0 CHN_ADDR_ADDR 2, inNet fun n => { n with noticeSends := 1, noticeSeq := 0x0201, notices := [⟨[1]⟩] }, inNet fun n => { n with kept := [(1, ⟨3, [1]⟩)] }]
    [fun s => ¬ s.lcpMine (hdr 1), fun s => s.lcpMine hdrB ∧ s.lcpStays hdrB,
     fun s => s.lcpMine (hdr 2) ∧ ¬ s.lcpStays (hdr 2) ∧ s.rd 0 CHN_ADDR_ADDR ≠ 0 ∧ ¬ s.lcpCopy (hdr 2) ∧ ¬ s.sessMine (hdr 2),
     fun s => s.lcpMine (hdr 1) ∧ ¬ s.lcpStays (hdr 1) ∧ s.rd 0 CHN_ADDR_ADDR ≠ 0 ∧ ¬ s.lcpCopy (hdr 1) ∧ s.sessMine (hdr 1) ∧ s.keptReply (hdr 1) ≠ none,
     fun s => s.lcpMine (hdr 1) ∧ ¬ s.lcpStays (hdr 1) ∧ s.rd 0 CHN_ADDR_ADDR ≠ 0 ∧ ¬ s.lcpCopy (hdr 1) ∧ s.sessMine (hdr 1) ∧ s.keptReply (hdr 1) = none ∧ s.net.sessions.all fun x => !s.sessOver x.2,
     fun s => s.lcpMine hdrB ∧ ¬ s.lcpStays hdrB ∧ s.rd 0 CHN_ADDR_ADDR ≠ 0 ∧ ¬ s.lcpCopy hdrB ∧ s.sessMine hdrB ∧ s.keptReply hdrB = none,
     fun s => s.lcpMine (hdr 1) ∧ s.sessMine (hdr 1) ∧ s.net.noticeSends ≠ 0 ∧ s.net.noticeSeq = leAt [1, 2] 0 2 ∧ s.net.noticeLost = 0] = true := by decide +kernel
def readReq (n : Nat) : Bytes := leBytes 8 (addrOf 0 0 0) ++ leBytes 2 n ++ zeros 2
def remoteRead : Bytes := leBytes 8 (addrOf 1 0 0) ++ leBytes 2 1 ++ zeros 2
theorem witness_LcpRequests_runs : (readReq 2048).length = 12 ∧ leAt (readReq 2048) 8 2 = 2048 ∧
    meets (fun s => s.live) [connected, inNet fun n => { n with waiting := [⟨{ hdr 1 with seq := 9 }, 0x10, readReq 1⟩] }, connected.wr 0 (D2D_L_STATUS_TRAINING 0) 1,
        connected.wr 0 CFG_STATUS_SHADOW 3, loading 1 1 [] |> fun s => { s with net := connected.net } |>.wr 0 CHN_ADDR_ADDR 1,
        { loading 1 1 [] with net := connected.net, cfg := { (loading 1 1 []).cfg with load := some ⟨1, 300, [], 0, 0, 0, false, none, [], [], none⟩ } } |>.wr 0 CHN_ADDR_ADDR 1]
      [fun s => runsAt s asking 0x10 true ∧ s.net.waiting = [] ∧ ¬ (s.lcpBegun asking 0x10 (readReq 1)).lcpBlocked 0x10 (readReq 1),
       fun s => runsAt s asking 0x11 false ∧ runsAt s asking 0x12 false ∧ runsAt s asking 0x13 true ∧ s.net.waiting = [],
       fun s => runsAt s asking 0x10 true ∧ s.net.waiting ≠ [], fun s => runsAt s asking 0x10 true ∧ (s.lcpBegun asking 0x10 remoteRead).lcpBlocked 0x10 remoteRead,
       fun s => let x := s.lcpBegun asking 0x40 [61, 0, 0, 0]; runsAt s asking 0x40 true && !x.is 0 CHN_ADDR_LOCK && !x.softHas 0 CHN_ADDR,
       fun s => runsAt s asking 0x41 true ∧ leAt (zeros 8) 0 8 ≠ s.id.dieIds.headD 0, fun s => runsAt s asking 0x43 false ∧ s.pwr.op = none,
       fun s => runsAt s asking 0x20 false ∧ 200 ≤ leAt [200, 0, 0, 0] 0 4 ∧ s.shadowSt = 3 ∧ s.cfg.waiting = [],
       fun s => runsAt s asking 0x21 false ∧ s.cfg.waiting = [] ∧ s.shadowSt = 1 ∧ s.cfg.load.any fun l => l.session = 1 ∧ l.pos = 0 ∧ l.bytes = [] ∧ 0 + (5 - 4) < 64 ∧ 0 + (5 - 4) ≤ l.len,
       fun s => runsAt s asking 0x22 false ∧ s.shadowSt = 1 ∧ s.cfg.load ≠ none ∧ s.cfg.waiting = [],
       fun s => runsAt s { asking with session := 0 } 0x01 true ∧ s.sessAt 7 = none] = true := by decide +kernel
def timedOut : State := { connected.wr 0 CHN_LCP_CTRL_TMO 1 with tim := { on.tim with tb0 := 1000000001 } }
theorem witness_LcpRequests_sessions : meets (fun s => s.live) [connected, timedOut, { timedOut with pending := [.lcpKeepalive (hdr 1) []] }]
    [fun s => (s.sessAt 1).any s.sessOver ∧ ¬ (s.lcpAhead fun h => h.session.val == 1), fun s => (s.sessAt 1).any s.sessOver ∧ (s.lcpAhead fun h => h.session.val == 1),
     fun s => ¬ (s.sessAt 1).any s.sessOver, fun _ => (0x80 : BitVec 32).getLsbD 7] = true := by decide +kernel
/-- Port 0 has link, and queue 7 holds one frame. -/
def linked : State :=
  { (on.wr 0 ETH_STATUS_LINK 1).wr 0 CHN_IPV4 0x01020304 with net := { on.net with tx := [(7, [⟨zeros 60, true, none⟩])] } }
/-- A MAC control frame with its FCS. -/
def pauseFrame : Bytes := withFcs (zeros 12 ++ [0x88, 0x08] ++ zeros 46)
theorem witness_EthernetPorts : (64 ≤ pauseFrame.length ∧ fType (pauseFrame.take (pauseFrame.length - 4)) = 0x8808 ∧
      leAt pauseFrame (pauseFrame.length - 4) 4 = crcOf crc32Kind (pauseFrame.take (pauseFrame.length - 4)) ∧ leAt (zeros 64) 60 4 ≠ crcOf crc32Kind (zeros 60)) ∧
    meets (fun s => s.live)
    [linked, on.wr 0 ETH_CFG_EN 1, (on.wr 0 ETH_CFG_EN 1).wr 0 ETH_CFG_MODE 2, on.wr 0 ETH_STATUS_LINK 1, { linked with tim := { on.tim with launches := [⟨0, 0, 0, 0, on.tim.tb0⟩] } }]
    [fun s => ¬ (s.locked 0 .eth ∧ s.is 0 ETH_STATUS_LINK), fun s => s.locked 0 .eth ∧ s.is 0 ETH_STATUS_LINK, fun s => (5 : BitVec 32).toNat ≠ s.rd 0 CHN_IPV4,
     fun s => s.locked 0 .aux ∧ s.is 0 ETH_STATUS_LINK ∧ (0x01020304 : BitVec 32).toNat = s.rd 0 CHN_IPV4, fun s => (5 : BitVec 128).toNat ≠ leNat s.chnIp6,
     fun s => s.locked 0 .aux ∧ s.is 0 ETH_STATUS_LINK ∧ (BitVec.ofNat 128 (leNat s.chnIp6)).toNat = leNat s.chnIp6,
     fun s => s.locked 0 .eth ∧ s.is 0 ETH_CFG_EN ∧ ¬ s.is 0 ETH_STATUS_LINK ∧ (bitN false = s.ethMode 0 ∨ bitN true = s.ethMode 0),
     fun s => s.is 0 ETH_CFG_EN ∧ ¬ s.is 0 ETH_STATUS_LINK ∧ 2 ≤ s.rd 0 ETH_CFG_MODE,
     fun s => s.is 0 ETH_STATUS_LINK ∧ s.topQueue 0 = none, fun s => s.locked 0 .eth ∧ s.is 0 ETH_STATUS_LINK ∧ s.nextBlocked 0,
     fun s => s.locked 0 .eth ∧ s.is 0 ETH_STATUS_LINK ∧ ¬ s.nextBlocked 0 ∧ s.topQueue 0 = some 7 ∧ (s.txq 0 7).any (·.ptp.isNone) ∧ s.net.fwWait = []] = true := by decide +kernel
def notified (sends : Nat) : State := inNet fun n => { n with subscriber := some 1, notices := [⟨[1]⟩], noticeSends := sends, noticeSeq := 0x0201 }
/-- Record sender 0 takes queue 5 of tile 0 to destination 0. -/
def sender (port : Nat) (l : List QItem) (recs : List Bytes) : State :=
  let s := fresh <| ((on.wr 0 (OUT_REC_CTRL_EN 0) 1).wr 0 (OUT_REC_CTRL_QUEUE 0) 5).wr 0 (OUT_DST_PORT_EN 0) port
  { s with que := { s.que with items := [(5, l)] }, tim := { s.tim with tb0 := 2 ^ 40 },
           net := { s.net with senders := [(0, ⟨recs, none, 0, 0⟩)], timed := if recs = [] then [] else [⟨0, 1, 1, recs⟩] } }
def popCmd : Instr := .recordPop 0
theorem witness_NotificationsAndRecords : meets (fun s => s.live)
    [on, notified 0, notified 7, notified 8, { notified 8 with pending := [.lcpNotifyAck (hdr 1) [1, 2]] }, took popCmd (sender 1 [] []), sender 0 [] [zeros 64], sender 1 [] [],
     sender 1 [⟨List.replicate 16 7, none⟩] [], sender 1 [] [zeros 64]]
    [fun s => s.net.subscriber = none ∧ s.net.noticeSends = 0,
     fun s => s.locked 0 .aux ∧ s.net.noticeSends = 0 ∧ s.net.notices ≠ [] ∧ s.net.subscriber = some 1 ∧ (s.net.sessions.find? (·.1 == 1)).isSome, fun s => s.ackAhead,
     fun s => s.locked 0 .aux ∧ ¬ s.ackAhead ∧ s.net.noticeSends = 8 ∧ s.net.noticeLost = 0,
     fun s => s.locked 0 .aux ∧ ¬ s.ackAhead ∧ s.net.noticeSends = 7 ∧ s.net.notices ≠ [] ∧ s.net.subscriber = some 1 ∧ (s.net.sessions.find? (·.1 == 1)).isSome,
     fun s => s.tookEarly (isRecordPop 0), fun s => ¬ s.tookEarly (isRecordPop 0) ∧ s.is 0 (OUT_REC_CTRL_EN 0) ∧ s.fit (s.rd 0 (OUT_REC_CTRL_TILE 0)) ∧ ¬ (s.lowerSenders 0).is 0 (OUT_DST_PORT_EN 0),
     fun s => ¬ s.tookEarly (isRecordPop 0) ∧ s.is 0 (OUT_REC_CTRL_EN 0) ∧ (s.lowerSenders 0).is 0 (OUT_DST_PORT_EN 0) ∧ (s.lowerSenders 0).qOld 0 5 = [],
     fun s => ¬ s.tookEarly (isRecordPop 0) ∧ s.is 0 (OUT_REC_CTRL_EN 0) ∧ (s.lowerSenders 0).is 0 (OUT_DST_PORT_EN 0) ∧ (((s.lowerSenders 0).qOld 0 5).head?.any fun i => !(s.lowerSenders 0).dgramFull 0 i) ∧
       ((s.lowerSenders 0).popTapped 0 5).isSome ∧ (s.sender 0).recs = [],
     fun s => ¬ (s.is 0 (OUT_REC_CTRL_EN 0) ∧ s.dgramOver 0 ∧ s.dgramRoom 0 ∧ s.recDst 0),
     fun s => s.is 0 (OUT_REC_CTRL_EN 0) ∧ s.dgramOver 0 ∧ s.dgramRoom 0 ∧ s.recDst 0 ∧ (s.sender 0).recs ≠ [], fun s => s.net.timed = [],
     fun s => (s.net.timed.find? fun d => d.sender == 0 && decide (d.time ≤ s.tb1 + 1)).isSome ∧ s.recDst 0,
     fun s => (s.net.timed.find? fun d => d.sender == 0 && decide (d.time ≤ s.tb1 + 1)).isSome ∧ ¬ s.recDst 0] = true := by decide +kernel
def dmaIn (st remain : Nat) : State :=
  (((on.wr 0 (DMA_CH_STATUS_STATE 31) st).wr 0 (DMA_CH_COUNT 31) 4).wr 0 (DMA_CH_REMAIN 31) remain).wr64 0 (DMA_CH_SRC_LO 31) (addrOf 0 0x50 0x100) |>.wr64 0 (DMA_CH_DST_LO 31) (addrOf 0 0x50 0x200)
def relayed (due : Nat) : State := { on with fab := { on.fab with relays := [(due, (0, 15))] } }
theorem witness_FabricAndDma : meets (fun s => s.live ∧ s.fit 0)
    [on, relayed 0, relayed 1, on.wr 0 (EVT_CH_ATTR_OWNER 48) 2, on.wr 0 (EVT_RELAY_OWNER 12) 2, dmaIn 0 0, (dmaIn 0 0).wr 0 (DMA_CH_COUNT 31) 0, dmaIn 1 4,
     (dmaIn 1 4).updDma 0 31 (fun x => { x with started := on.tim.tb0 + 1 }), dmaIn 1 0, { dmaIn 1 4 with pending := [.dmaComplete 0 31] }, took (.dmaComplete 0 31) (dmaIn 1 4)]
    [fun s => s.locked 0 .aux ∧ (s.relayDue 0 15).any (· ≤ s.cycleNo), fun s => (s.relayDue 0 15).any (s.cycleNo < ·), fun s => s.rd 0 (EVT_CH_ATTR_OWNER 48) = 0 ∧ bitsOf 1 2 0 = 1,
     fun s => s.rd 0 (EVT_CH_ATTR_OWNER 48) = 2, fun s => s.rd 0 (EVT_RELAY_OWNER 12) = 0 ∧ bitsOf 0x1FFFF 18 16 = 1, fun s => s.rd 0 (EVT_RELAY_OWNER 12) = 2,
     fun s => s.dmaRunning 0 31 ∧ (s.dmaChan 0 31).started ≠ s.tim.tb0 + 1, fun s => s.dmaRunning 0 31 ∧ (s.dmaChan 0 31).started = s.tim.tb0 + 1,
     fun s => ¬ s.dmaRunning 0 31 ∧ ¬ s.is 0 (DMA_CH_CTRL_CHAIN 31) ∧ s.rd 0 (DMA_CH_COUNT 31) ≠ 0, fun s => ¬ s.dmaRunning 0 31 ∧ ¬ s.is 0 (DMA_CH_CTRL_CHAIN 31) ∧ s.rd 0 (DMA_CH_COUNT 31) = 0,
     fun s => s.dmaRunning 0 31 ∧ s.locked 0 .sys ∧ ¬ s.dmaEnding 0 31 ∧ s.rd 0 (DMA_CH_REMAIN 31) ≠ 0, fun s => s.dmaEnding 0 31,
     fun s => ¬ s.dmaRunning 0 31 ∧ s.rd 0 (DMA_CH_STATUS_STATE 31) ≠ 2, fun s => s.tookEarly (isDmaComplete 0 31),
     fun s => ¬ s.tookEarly (isDmaComplete 0 31) ∧ ¬ s.dmaRunning 0 31,
     fun s => ¬ s.tookEarly (isDmaComplete 0 31) ∧ s.dmaRunning 0 31 ∧ s.locked 0 .sys ∧ s.waitingNow = [] ∧ s.rd 0 (DMA_CH_REMAIN 31) = 0 ∧
       let m := s.dmaMove 0 31 0
       m.1 && (m.2.dmaChan 0 31).isLast] = true := by decide +kernel
theorem dmaLower_none (s : State) (t c : Nat) (h : s.waitingNow = []) : s.dmaLower t c = s := by simp [State.dmaLower, h]
/-- A copy of one byte from an address without a window ends at once, whatever the read-ahead. -/
theorem dmaCopy_one_bad (s : State) (src dst i c : Nat) (f : State → State) (h : s.fresh.2.fresh.2.dmaFirstBad src 1 false = some (i, c, f)) :
    dmaCopy 1 s src dst 1 1 [] = (f s.fresh.2.fresh.2, 1, [], some (c, src + i)) := by
  simp [dmaCopy, h]
def dmaAway : State := (dmaIn 1 1).wr64 0 (DMA_CH_SRC_LO 31) (addrOf 0 0x3F 0)
theorem witness_FabricAndDma_bad : dmaAway.live ∧ dmaAway.fit 0 ∧ dmaAway.dmaRunning 0 31 ∧ dmaAway.locked 0 .sys ∧ dmaAway.dmaLower 0 31 = dmaAway ∧
    ¬ dmaAway.tookEarly (isDmaComplete 0 31) ∧ (dmaAway.dmaMove 0 31 (dmaAway.rd 0 (DMA_CH_REMAIN 31))).1 = false := by
  have r : dmaAway.rd 0 (DMA_CH_REMAIN 31) = 1 := by decide +kernel
  have c : dmaAway.rd 0 (DMA_CH_COUNT 31) = 4 := by decide +kernel
  have e : (dmaAway.dmaChan 0 31).buf = [] := by decide +kernel
  have b : (dmaAway.fresh.2.fresh.2.dmaBad (dmaAway.dmaSrc 0 31 + 3 + 0 + 0) false).isSome := by decide +kernel
  refine ⟨by decide +kernel, by decide +kernel, by decide +kernel, by decide +kernel, dmaLower_none _ _ _ (by decide +kernel), by decide +kernel, ?_⟩
  obtain ⟨⟨k, f⟩, hb⟩ := Option.isSome_iff_exists.mp b
  have h : dmaAway.fresh.2.fresh.2.dmaFirstBad (dmaAway.dmaSrc 0 31 + 3 + 0) 1 false = some (0, k, f) := by simp [State.dmaFirstBad, List.range_succ, List.range_zero] at hb ⊢; simp [hb]
  unfold State.dmaMove
  simp only [r, c, e]
  rw [show Nat.min 1 1 = 1 from rfl, show 4 - 1 = 3 from rfl, show List.length ([] : Bytes) = 0 from rfl, show 1 - 0 = 1 from rfl, dmaCopy_one_bad _ _ _ _ _ _ h]
def queued (quota : Nat) (l : List QItem) : State := fresh { on.wr 0 (QUE_Q_CFG_QUOTA 0) quota with que := { on.que with items := [(0, l)] } }
def pushes (s : State) : Bool := s.is 0 QUE_PUSH_STATUS_DONE && !s.cyc.pushed.contains 0 && !s.qFlushed 0 0 && s.qLeaving 0 0 == [] && s.poolLeaving 0 == 0
def oneItem : QItem := ⟨[1], none⟩
theorem witness_QueuesAndCheckers : meets (fun s => s.live ∧ s.fit 0)
    [on, queued 1 [oneItem], queued 1 [], on.wr 0 (OUT_REC_CTRL_EN 0) 1, on.wr 0 QUE_PUSH_STATUS_DONE 0, { on with cyc := { on.cyc with pushed := [0] } }, (queued 0 []).wr 0 QUE_PUSH_STATUS_DONE 1,
     (queued 1 []).wr 0 QUE_PUSH_STATUS_DONE 1, ((queued 1 []).wr 0 QUE_PUSH_STATUS_DONE 1).wr 0 QUE_POOL_FREE 0, on.wr 0 (QUE_Q_STATUS_FLUSHING 0) 1,
     { on with cyc := { on.cyc with reset := [0], flushed := [0] } }]
    [fun s => s.qItems 0 0 ≠ [] ∧ s.qOld 0 0 ≠ [] ∧ ¬ s.qFlushed 0 0 ∧ ¬ s.qOwned 0 0, fun s => s.qOwned 0 0, fun s => ¬ s.qOwned 0 0 ∧ s.qOld 0 0 = [], fun s => ¬ s.qOwned 0 0 ∧ s.qFlushed 0 0,
     fun s => ¬ s.is 0 QUE_PUSH_STATUS_DONE, fun s => 0 ∈ s.cyc.pushed,
     fun s => pushes s ∧ s.began.rd 0 (QUE_Q_CFG_QUOTA 0) = 1 ∧ s.qItems 0 0 = [] ∧ oneItem.cells = 1 ∧ 1 ≤ s.rd 0 QUE_POOL_FREE ∧ s.qCame 0 0 = [],
     fun s => pushes s ∧ s.began.rd 0 (QUE_Q_CFG_QUOTA 0) = 0, fun s => pushes s ∧ s.began.rd 0 (QUE_Q_CFG_QUOTA 0) = 1 ∧ s.qItems 0 0 = [] ∧ s.rd 0 QUE_POOL_FREE = 0,
     fun s => s.is 0 (QUE_Q_STATUS_FLUSHING 0), fun s => ¬ s.is 0 (QUE_Q_STATUS_FLUSHING 0) ∧ s.qReset 0 0, fun s => ¬ s.is 0 (QUE_Q_STATUS_FLUSHING 0) ∧ ¬ s.qReset 0 0,
     fun s => 0 ≠ s.rd 0 QUE_CTRL_ERR_QUEUE] = true := by decide +kernel
def checking : State := on.wr 0 (CHK_CH_CFG_EN 63) 1
def heldValue (s : State) : Nat := crcResult (s.chkKind 0 63) ((s.chkDataFirst 0 63).rd 0 (CHK_CH_VALUE 63))
theorem witness_QueuesAndCheckers_checker : meets (fun s => s.live ∧ s.fit 0 ∧ s.is 0 (CHK_CH_CFG_EN 63) ∧ ¬ s.chkLegacy 0 63)
    [checking, checking.wr 0 (CHK_CH_CFG_CMP_EN 63) 1, (checking.wr 0 (CHK_CH_CFG_CMP_EN 63) 1).wr 0 (CHK_CH_EXPECT 63) (crcResult (checking.chkKind 0 63) 0), took (.chkData 0 63 5) checking,
     (checking.wr 0 (CHK_CH_CFG_ALIVE_EN 63) 1).wr 0 (CHK_CH_STATUS_ALIVE_VALID 63) 1]
    [fun s => ¬ s.tookEarly (isChkData 0 63 5) ∧ s.rd 0 (CHK_CH_CFG_MODE 63) ≠ 1 ∧ s.rd 0 (CHK_CH_CFG_BYTES 63) = 0 ∧ ¬ s.is 0 (CHK_CH_CFG_CMP_EN 63),
     fun s => s.tookEarly (isChkData 0 63 5),
     fun s => s.rd 0 (CHK_CH_CFG_MODE 63) ≠ 1 ∧ s.is 0 (CHK_CH_CFG_CMP_EN 63) ∧ heldValue s ≠ s.rd 0 (CHK_CH_EXPECT 63),
     fun s => s.rd 0 (CHK_CH_CFG_MODE 63) ≠ 1 ∧ s.is 0 (CHK_CH_CFG_CMP_EN 63) ∧ heldValue s = s.rd 0 (CHK_CH_EXPECT 63),
     fun s => s.rd 0 (CHK_CH_CFG_MODE 63) ≠ 1 ∧ s.is 0 (CHK_CH_CFG_ALIVE_EN 63) ∧ s.is 0 (CHK_CH_STATUS_ALIVE_VALID 63)] = true := by decide +kernel
def filterOn (en src stages : Nat) : State :=
  { (((on.wr 0 (FIR_CH_CFG_EN 15) en).wr 0 (FIR_CH_CFG_SRC 15) src).wr 0 (FIR_CH_CFG_STAGES 15) stages) with fir := [(15, { FirChan.idle with fifo := [-7] })] }
theorem witness_FiltersAndCalibration : meets (fun s => s.live ∧ s.fit 0)
    [on, on.wr 0 CLK_LOCK 0, fresh (on.wr 0 (FIR_CH_STATUS_SWAP_PENDING 15) 1), fresh (on.wr 0 (FIR_CH_STATUS_SYNC_PENDING 15) 1), filterOn 1 5 0, filterOn 1 0 0, filterOn 0 0 0]
    [fun s => ¬ s.is 0 (FIR_CH_STATUS_SWAP_PENDING 15), fun s => ¬ s.locked 0 .sys,
     fun s => s.locked 0 .sys ∧ s.firWaits 0 (FIR_CH_STATUS_SWAP_PENDING 15) ∧ ¬ s.firWaits 0 (FIR_CH_STATUS_SYNC_PENDING 15) ∧ (s.firChan 0 15).fifo = [],
     fun s => s.locked 0 .sys ∧ ¬ s.firWaits 0 (FIR_CH_STATUS_SWAP_PENDING 15) ∧ s.firWaits 0 (FIR_CH_STATUS_SYNC_PENDING 15) ∧ (s.firChan 0 15).fifo = [],
     fun s => s.locked 0 .sys ∧ ¬ s.firWaits 0 (FIR_CH_STATUS_SWAP_PENDING 15) ∧ ¬ s.firWaits 0 (FIR_CH_STATUS_SYNC_PENDING 15) ∧ (s.firChan 0 15).fifo = [-7] ∧ ¬ s.is 0 (FIR_CH_CFG_EN 15),
     fun s => s.locked 0 .sys ∧ ¬ s.firWaits 0 (FIR_CH_STATUS_SWAP_PENDING 15) ∧ ¬ s.firWaits 0 (FIR_CH_STATUS_SYNC_PENDING 15) ∧ (s.firChan 0 15).fifo = [-7] ∧ s.firBad 0 15,
     fun s => s.locked 0 .sys ∧ ¬ s.firWaits 0 (FIR_CH_STATUS_SWAP_PENDING 15) ∧ ¬ s.firWaits 0 (FIR_CH_STATUS_SYNC_PENDING 15) ∧ (s.firChan 0 15).fifo = [-7] ∧ s.is 0 (FIR_CH_CFG_EN 15) ∧
       ¬ s.firBad 0 15 ∧ s.rd 0 (FIR_CH_CFG_STAGES 15) = 0] = true := by decide +kernel
def calIn (x : CalTile) : State := { on with cal := { on.cal with tiles := [(0, x)] } }
def aTest (kind : Nat) : StReq := ⟨kind, 0, 1, 0, 5, false, none⟩
def settled (s : State) : State := (s.workBack 0).workSettle 0
theorem witness_FiltersAndCalibration_work : meets (fun s => s.live ∧ s.fit 0)
    [on, on.wr 0 CAL_CTRL_AUTO 0, calIn { CalTile.idle with hot := 2 }, calIn { CalTile.idle with cal := some ⟨true, false, false, none⟩ },
     calIn { CalTile.idle with st := some (aTest 2) }, on.wr 0 CAL_ST_CFG_KIND 4, on.wr 0 BND_CTRL_RUN 1, on.wr 0 CAL_STATUS_RUNNING 1, calIn { CalTile.idle with run := some (aTest 2) },
     calIn { CalTile.idle with run := some (aTest 1) }]
    [fun s => ([-641, 2401].filter tempOk) = [] ∧ (s.calTile 0).cal = none, fun s => ¬ s.is 0 CAL_CTRL_AUTO ∧ ([-640, 1919] : List Int).all fun x => decide (-640 ≤ x ∧ x < 1920),
     fun s => tempOk 1920 ∧ 2 ≤ (s.calTile 0).hot ∧ s.pwr.op = none, fun s => (s.calTile 0).cal.any fun r => !r.hard && r.forcedAt.isNone,
     fun s => s.rd 0 CAL_ST_CFG_KIND = 4, fun s => s.rd 0 CAL_ST_CFG_KIND < 2 ∧ s.is 0 BND_CTRL_RUN, fun s => s.rd 0 CAL_ST_CFG_KIND < 4 ∧ ¬ s.is 0 BND_CTRL_RUN,
     fun s => ((s.calTile 0).cal.all fun r => !r.hard) ∧ ¬ ((s.calTile 0).calDue ∧ s.calReady 0) ∧ ¬ ((s.calTile 0).stDue ∧ s.stReady 0 ∧ ¬ s.calReady 0) ∧ (s.calTile 0).cal.isSome,
     fun s => ¬ (s.workBack 0).calReady 0 ∧ ¬ (s.workBack 0).stReady 0, fun s => (s.workBack 0).calReady 0 ∧ (settled s).calReady 0,
     fun s => ((s.workBack 0).calReady 0 ∨ (s.workBack 0).stReady 0) ∧ ¬ (settled s).calReady 0 ∧ ((settled s).calTile 0).st.any fun r => r.kind ≠ 3,
     fun s => ¬ (s.is 0 CAL_STATUS_RUNNING ∧ s.calDone 0), fun s => s.is 0 CAL_STATUS_RUNNING ∧ s.calDone 0, fun s => ¬ s.stOver 0,
     fun s => s.stOver 0 ∧ (s.calTile 0).run.any fun r => r.kind = 2, fun s => s.stOver 0 ∧ (s.calTile 0).run.any fun r => r.kind = 1] = true := by decide +kernel
def doing (c : Option LcsCmd) : State := { on with lcs := { on.lcs with cmd := c } }
def opened (pend : List Instr) : State := { (on.wr 0 LCS_STATE_DEBUG 1).wr 0 LCS_STATE_DEBUG_SESSION 1 with pending := pend }
theorem witness_LifeCycleService : meets (fun s => s.live)
    [on, on.wr 0 LCS_MBOX_OWNER_SESSION 2, { (fresh (on.wr 0 LCS_MBOX_OWNER_SESSION 7)).wr 0 LCS_MBOX_OWNER_SESSION 0 with net := { on.net with sessions := [(7, ⟨.l2 5, 0, 5, 1⟩)] } },
     (on.wr 0 LCS_CMD_STATUS_BUSY 1).wr 0 LCS_MBOX_OWNER_SESSION 7, doing (some ⟨1, 7, [], 255⟩), doing (some ⟨1, 7, zeros 256, 0⟩), doing (some ⟨3, 7, zeros 256, 0⟩), doing (some ⟨11, 7, zeros 256, 0⟩),
     opened [], opened [.lcpRead (hdr 1) [1]], { opened [] with lcs := { on.lcs with debugEnd := 1 } }, on.wr 0 LCS_STATE_STATE 2]
    [fun s => s.mboxLast = 7 ∧ ¬ s.is 0 LCS_CMD_STATUS_BUSY, fun s => s.mboxLast = 0 ∧ s.rd 0 LCS_MBOX_OWNER_SESSION = 0 ∧ ¬ s.is 0 LCS_CMD_STATUS_BUSY,
     fun s => s.mboxLast = 0 ∧ s.rd 0 LCS_MBOX_OWNER_SESSION = 7 ∧ s.is 0 LCS_CMD_STATUS_BUSY, fun s => s.mboxLast ≠ 7 ∧ s.rd 0 LCS_MBOX_OWNER_SESSION = 2,
     fun s => s.lcs.cmd = none, fun s => s.locked 0 .aux ∧ s.lcs.cmd.any fun c => c.result = 255, fun s => s.locked 0 .aux ∧ s.lcs.cmd.any fun c => c.result = 0 ∧ blowsFuses c.op,
     fun s => s.locked 0 .aux ∧ s.lcs.cmd.any fun c => c.result = 0 ∧ c.op = 3, fun s => s.locked 0 .aux ∧ s.lcs.cmd.any fun c => c.result = 0 ∧ c.op = 11,
     fun s => s.is 0 LCS_STATE_DEBUG ∧ s.tim.tb0 < s.lcs.debugEnd,
     fun s => s.locked 0 .aux ∧ s.is 0 LCS_STATE_DEBUG ∧ s.lcs.debugEnd ≤ s.tim.tb0 ∧ s.lcpAhead fun h => h.session.val == s.rd 0 LCS_STATE_DEBUG_SESSION,
     fun s => s.locked 0 .aux ∧ s.is 0 LCS_STATE_DEBUG ∧ s.lcs.debugEnd ≤ s.tim.tb0 ∧ ¬ (s.lcpAhead fun h => h.session.val == s.rd 0 LCS_STATE_DEBUG_SESSION) ∧ s.lcs.debugEngs = [],
     fun s => s.rd 0 LCS_STATE_STATE = 2, fun s => s.rd 0 LCS_STATE_STATE ≠ 2] = true := by decide +kernel
def phased (x : Phase) (high held : Bool) : State := { State.reset with pwr := { State.reset.pwr with phase := x, porstHigh := high, held := held } }
def flashing (waiting : Nat) : State := { on with pwr := { on.pwr with op := some ⟨1, 0x100, 4, []⟩, waiting := waiting } }
theorem witness_ResetBootAndFlash : meets (fun _ => true)
    [phased .hold false false, phased .hold true true, phased .fuse true false, (phased .boot true false).wr 0 PWR_BOOT_SLOT 1 |> fun s => s.bondedLinks.foldl (fun s (t, l) => s.wr t (D2D_L_STATUS_UP l) 1) s,
     (phased .clock true false).tiles.foldl (fun s t => s.wr t CLK_LOCK 0x3F) (phased .clock true false), phased .off true false, phased .off false false, on, on.wr 0 PWR_FLASH_STATUS_BUSY 1,
     flashing 0, flashing 4]
    [fun s => s.pwr.phase ≠ .off ∧ s.lcs.cmd = none, fun s => s.pwr.phase = .hold ∧ s.pwr.held = false, fun s => s.pwr.phase ≠ .hold, fun s => s.pwr.held, fun s => s.holdOver, fun s => ¬ s.holdOver,
     fun s => s.pwr.phase = .fuse, fun s => s.pwr.phase ≠ .fuse, fun s => s.pwr.phase = .clock ∧ s.clkOk, fun s => ¬ (s.pwr.phase = .clock ∧ s.clkOk),
     fun s => s.bootReady ∧ s.flashItem 5 = none, fun s => ¬ s.bootReady, fun s => s.pwr.phase = .off ∧ s.pwr.porstHigh, fun s => s.pwr.phase = .off ∧ ¬ s.pwr.porstHigh,
     fun s => s.pwr.phase ≠ .off ∧ s.pwr.porstHigh, fun s => s.live ∧ s.pwr.op = none ∧ ¬ s.softToo, fun s => s.pwr.phase ≠ .boot ∧ s.pwr.phase ≠ .run, fun s => s.pwr.phase = .boot, fun s => s.pwr.phase = .run,
     fun s => s.live ∧ s.pwr.op = none ∧ ¬ s.is 0 PWR_FLASH_STATUS_BUSY, fun s => s.live ∧ s.is 0 PWR_FLASH_STATUS_BUSY, fun s => s.live ∧ s.pwr.op.isSome ∧ s.pwr.waiting = 0,
     fun s => s.live ∧ s.pwr.op.isSome ∧ s.pwr.waiting.testBit 2] = true := by decide +kernel

end Sys2Proof.Tests
end

section
/-! SUPPORT. Every command answers (R7), and the fields of a package address (R17). -/

namespace Sys2Proof.Machine

/-- Settles O3: every meaning is built from `always`, which answers `State.after`. -/
theorem everyCommandAnswers : Obligations.EveryCommandAnswers := exec_next

/-- An address put together from fields in their ranges is their bits side by side. -/
theorem addrOf_eq_or {t blk off : Nat} (hb : blk < 128) (ho : off < 2 ^ 30) : addrOf t blk off = t <<< 37 ||| blk <<< 30 ||| off := by
  have h1 : blk <<< 30 + off = blk <<< 30 ||| off := Nat.shiftLeft_add_eq_or_of_lt ho blk
  have hlt : blk <<< 30 ||| off < 2 ^ 37 := by rw [← h1, Nat.shiftLeft_eq]; omega
  have h2 : t <<< 37 + (blk <<< 30 ||| off) = t <<< 37 ||| (blk <<< 30 ||| off) := Nat.shiftLeft_add_eq_or_of_lt hlt t
  rw [Nat.or_assoc, ← h2, ← h1, Nat.shiftLeft_eq, Nat.shiftLeft_eq, addrOf]
  omega

/-- A 40-bit address is put together from its own fields. -/
theorem addrOf_fields {a : Nat} (h : a < 2 ^ 40) : addrOf (addrTile a) (addrBlk a) (addrOff a) = a := by
  unfold addrOf addrTile addrBlk addrOff; omega

/-- Settles O6, from the laws of the address fields. -/
theorem packageAddressFields : Obligations.PackageAddressFields :=
  ⟨fun _ _ _ ht hb ho => ⟨addrOf_eq_or hb ho, addrOf_lt ht hb ho, addrTile_addrOf ht hb ho, addrBlk_addrOf hb ho, addrOff_addrOf ho⟩,
    fun _ => addrOf_fields⟩
end Sys2Proof.Machine
end

section
/-! SUPPORT. Accesses by package address (R7, R12 to R17, R36, R37): a failing access, a write of a memory window, a plain register and a pair. -/

namespace Sys2Proof.Machine

/-! A failing access (R7, R36). -/

theorem SYS_ERR_ADDR_ERR_ok : SYS_ERR_ADDR_ERR.ok := by unfold Fld.ok; decide
theorem SYS_ERR_ACCESS_ERR_ok : SYS_ERR_ACCESS_ERR.ok := by unfold Fld.ok; decide
theorem SYS_ERR_ADDR_LO_ok : SYS_ERR_ADDR_LO.ok := by unfold Fld.ok; decide
theorem SYS_ERR_ADDR_HI_ok : SYS_ERR_ADDR_HI.ok := by unfold Fld.ok; decide

/-- The tile whose record takes an access that fails at an address. -/
def State.errTile (s : State) (a : Nat) : Nat := if s.fit (addrTile a) then addrTile a else 0

theorem State.errTile_lt (s : State) (a : Nat) : s.errTile a < 8 := by
  unfold State.errTile addrTile; split <;> omega

/-- The words of the record of R36 on a tile. -/
abbrev errWords (t : Nat) : WordSet := (SYS_ERR.wordAt t).or (SYS_ERR_ADDR_LO.pairAt t)

/-- The record of an address error: ADDR_ERR is set, ACCESS_ERR stays, and no other word changes but the address that failed. -/
theorem State.recordErr_addr (s : State) (o : Origin) (a : Nat) (write : Bool) :
    (s.recordErr o a write false).rd (s.errTile a) SYS_ERR_ADDR_ERR = 1 ∧
    (s.recordErr o a write false).rd (s.errTile a) SYS_ERR_ACCESS_ERR = s.rd (s.errTile a) SYS_ERR_ACCESS_ERR ∧
    s.onlyRegs (s.recordErr o a write false) (errWords (s.errTile a)) := by
  have ht := s.errTile_lt a
  generalize hte : s.errTile a = t at ht ⊢
  obtain ⟨v, hv, hrd, honly⟩ : ∃ v, s.recordErr o a write false = v.setF t SYS_ERR_ADDR_ERR ∧
      v.rd t SYS_ERR_ACCESS_ERR = s.rd t SYS_ERR_ACCESS_ERR ∧ s.onlyRegs v (errWords t) := by
    refine ⟨_, by subst hte; rfl, ?_⟩
    have hif : (if s.id.fitted (addrTile a) = true then addrTile a else 0) = t := hte
    rw [hif]
    split
    · exact ⟨rfl, s.onlyRegs_refl _⟩
    · constructor
      · rw [State.rd_wr_ne _ _ ht ht SYS_ERR_ACCESS_ERR_ok SYS_ERR_ADDR_HI_ok (.inr (.inr (.inl (by decide)))),
          State.rd_wr_ne _ _ ht ht SYS_ERR_ACCESS_ERR_ok SYS_ERR_ADDR_LO_ok (.inr (.inr (.inl (by decide))))]
      · exact State.onlyRegs_trans (s.onlyRegs_wr _ ht SYS_ERR_ADDR_LO_ok (.inr ⟨rfl, rfl, .inl rfl⟩))
          (State.onlyRegs_wr _ _ ht SYS_ERR_ADDR_HI_ok (.inr ⟨rfl, rfl, .inr rfl⟩))
  rw [hv]
  refine ⟨State.rd_setF _ _ _ SYS_ERR_ADDR_ERR_ok, ?_, ?_⟩
  · rw [State.rd_setF_ne _ ht ht SYS_ERR_ACCESS_ERR_ok SYS_ERR_ADDR_ERR_ok (.inr (.inr (.inr (by decide)))), hrd]
  · exact State.onlyRegs_trans honly (v.onlyRegs_setF ht SYS_ERR_ADDR_ERR_ok (.inl ⟨rfl, rfl, rfl⟩))

/-- A command that has changed register words alone ends in the state it has computed. -/
theorem State.after_eq_of_onlyRegs {s u : State} {K : WordSet} (h : s.onlyRegs u K) : s.after u = u := by
  rw [h.1]; rfl

theorem State.onlyRegs_after {s u : State} {K : WordSet} (h : s.onlyRegs u K) : s.onlyRegs (s.after u) K := by
  rw [State.after_eq_of_onlyRegs h]; exact h

/-- The row that `findReg` answers stands in the table of its block. -/
theorem findReg_mem {blk off : Nat} {r : RegRow} {ix : List Nat} (h : findReg blk off = some (r, ix)) : r ∈ blockRows blk := by
  obtain ⟨x, hx, hr⟩ := List.exists_of_findSome?_eq_some h
  split at hr
  · obtain ⟨y, -, hy⟩ := Option.map_eq_some_iff.1 hr
    cases hy; exact hx
  · cases hr

/-- Blocks whose registers exist on tile 0 alone. -/
theorem place_lead {blk : Nat} (hb : blk ∈ [0x0B, 0x0D, 0x0E, 0x11, 0x12, 0x19]) {r : RegRow} (h : r ∈ blockRows blk) : r.place = .lead := by
  have hall : ∀ b ∈ [0x0B, 0x0D, 0x0E, 0x11, 0x12, 0x19], ∀ r ∈ blockRows b, r.place = .lead := by decide
  exact hall blk hb r h

theorem place_eth {r : RegRow} (h : r ∈ blockRows 0x10) : r.place = .eth := by
  have hall : ∀ r ∈ blockRows 0x10, r.place = .eth := by decide
  exact hall r h

theorem blockRows_high {blk : Nat} (h : 0x1B < blk) : blockRows blk = [] := by
  unfold blockRows; split <;> first | omega | rfl

/-- At an address of a block that is not listed for its tile there is neither a window nor a register. -/
theorem State.nothing_unlisted (s : State) {a : Nat} (h : ¬ listedBlock (addrTile a) (addrBlk a)) : windowOf a = none ∧ s.regAt a = none := by
  unfold listedBlock at h
  have hb : addrBlk a < 128 := by unfold addrBlk; omega
  refine ⟨windowOf_unlisted (by omega) (by omega), ?_⟩
  unfold State.regAt
  split
  · next r ix hr =>
    have hmem := findReg_mem hr
    refine if_neg ?_
    by_cases hlow : addrBlk a ≤ 0x1B
    · by_cases hlead : addrBlk a ∈ [0x0B, 0x0D, 0x0E, 0x11, 0x12, 0x19]
      · have ht : addrTile a ≠ 0 := fun ht => h (.inl ⟨hlow, fun _ => ht, fun h10 => by omega⟩)
        rw [place_lead hlead hmem]
        simpa [placeOk] using ht
      · have h10 : addrBlk a = 0x10 := by
          by_contra hn
          exact h (.inl ⟨hlow, fun hl => absurd hl hlead, fun h10 => absurd h10 hn⟩)
        have ht : ¬ addrTile a < 2 := fun ht => h (.inl ⟨hlow, fun hl => absurd hl hlead, fun _ => ht⟩)
        rw [place_eth (h10 ▸ hmem)]
        simpa [placeOk] using ht
    · rw [blockRows_high (by omega)] at hmem; cases hmem
  · rfl

/-- An access to a tile that is not fitted or to a block that is not listed fails with an address error, and only records it. -/
theorem State.bus_unlisted (s : State) (o : Origin) {a : Nat} (v : Nat)
    (h : ¬ s.fit (addrTile a) ∨ ¬ listedBlock (addrTile a) (addrBlk a)) :
    s.busWrite o a v = (s.recordErr o a true false, .addr) ∧ s.busRead o a = (0, s.recordErr o a false false, .addr) := by
  unfold State.busWrite State.busRead
  by_cases hc : a % 4 ≠ 0 ∨ (!s.fit (addrTile a)) = true
  · exact ⟨if_pos hc, if_pos hc⟩
  · have hl : ¬ listedBlock (addrTile a) (addrBlk a) := by
      simp only [not_or, Bool.not_eq_true', Bool.not_eq_false] at hc
      exact h.resolve_left fun hn => hn hc.2
    obtain ⟨hw, hr⟩ := s.nothing_unlisted hl
    rw [if_neg hc, if_neg hc, hw, hr]
    exact ⟨rfl, rfl⟩

/-- Settles O7: nothing stands at the address, so the access does what `recordErr` does and nothing else. -/
theorem unlistedAccessFails : Obligations.UnlistedAccessFails := by
  intro s o a v hlive h
  obtain ⟨hw, hr⟩ := s.bus_unlisted o v.toNat h
  obtain ⟨h1, h2, h3⟩ := s.recordErr_addr o a.toNat true
  refine ⟨by rw [hw], by rw [hr], s.after (s.recordErr o a.toNat true false), ?_, h1, h2, ?_⟩
  · exact (finish_live hlive).trans (by rw [hw])
  · exact State.onlyRegs_after h3

/-! Memory windows (R12, R37). -/

/-- An engine's data store or cluster memory: the windows that no rule closes to a write (R38). -/
def Window.openToWrite : Window → Prop
  | .dataStore _ _ _ _ => True
  | .cluster _ _ _ => True
  | _ => False

theorem windowOf_openToWrite_iff (a : Nat) : (∃ w, windowOf a = some w ∧ w.openToWrite) ↔
    (0x40 ≤ addrBlk a ∧ addrBlk a ≤ 0x47 ∧ addrOff a < 0x100000 ∧ addrOff a % 0x10000 < 0xA000) ∨ (addrBlk a = 0x48 ∧ addrOff a < 0x400000) := by
  simp only [windowOf]
  split_ifs <;> simp [Window.openToWrite] <;> omega

/-- The bytes of an aligned word lie in the kind of window that its first byte lies in. -/
theorem windowOf_add {a i : Nat} {w : Window} (h4 : a % 4 = 0) (hi : i < 4) (h : windowOf a = some w) (hw : w.openToWrite) :
    ∃ w', windowOf (a + i) = some w' ∧ w'.openToWrite := by
  have ho : addrOff (a + i) = addrOff a + i := by unfold addrOff; omega
  have hb : addrBlk (a + i) = addrBlk a := by unfold addrBlk; omega
  have hm : addrOff a % 4 = 0 := by unfold addrOff; omega
  have hin := (windowOf_openToWrite_iff a).1 ⟨w, h, hw⟩
  rw [windowOf_openToWrite_iff, ho, hb]
  omega

/-- No rule turns away a write of a word in an engine's data store or in cluster memory (R38). -/
theorem State.winRule4_open (s : State) (o : Origin) {a : Nat} {w : Window} (h4 : a % 4 = 0) (h : windowOf a = some w) (hw : w.openToWrite) :
    s.winRule4 (some o) a true = none := by
  refine List.findSome?_eq_none_iff.2 fun i hi => ?_
  have hi4 : i < 4 := by simp only [List.mem_cons, List.not_mem_nil, or_false] at hi; omega
  obtain ⟨w', hw', hopen⟩ := windowOf_add h4 hi4 h hw
  unfold State.winRule
  rw [hw']
  cases w' with
  | dataStore => rfl
  | cluster => rfl
  | progStore => cases hopen
  | pipe => cases hopen
  | pool => cases hopen

theorem length_leBytes (n x : Nat) : (leBytes n x).length = n := by
  induction n generalizing x with
  | zero => rfl
  | succ n ih => simp [leBytes, ih]

/-- Byte `i` of a little-endian byte string. -/
theorem getElem_leBytes (n x i : Nat) (h : i < (leBytes n x).length) : (leBytes n x)[i] = BitVec.ofNat 8 (x / 256 ^ i) := by
  induction n generalizing x i with
  | zero => simp [leBytes] at h
  | succ n ih =>
    cases i with
    | zero => simp [leBytes]
    | succ i =>
      simp only [leBytes, List.getElem_cons_succ]
      rw [ih, Nat.div_div_eq_div_mul, ← Nat.pow_succ']

/-- Settles O8: no rule of R38 speaks of these windows, so the write is `setBytes`. -/
theorem memoryWindowWrite : Obligations.MemoryWindowWrite := by
  intro s o a v hlive hfit h4 hwin
  obtain ⟨w, hw, hopen⟩ : ∃ w, windowOf a.toNat = some w ∧ w.openToWrite := by
    rcases hwin with ⟨t, c, e, off, h⟩ | ⟨t, c, off, h⟩
    · exact ⟨_, h, trivial⟩
    · exact ⟨_, h, trivial⟩
  have hbus : (s.busWrite o a.toNat v.toNat).1 = s.setBytes a.toNat (leBytes 4 v.toNat) := by
    unfold State.busWrite
    rw [if_neg (by simp [h4, hfit]), hw, s.winRule4_open o h4 hw hopen]
  refine ⟨s.after (s.setBytes a.toNat (leBytes 4 v.toNat)), (finish_live hlive).trans (by rw [hbus]), ?_, fun i hi => ?_, fun b hb => ?_⟩
  · rw [State.setBytes_eq]; rfl
  · rw [State.byte_after, State.byte_setBytes, dif_pos ⟨by omega, by rw [length_leBytes]; omega⟩, getElem_leBytes]
    congr 3; omega
  · rw [State.byte_after, State.byte_setBytes, dif_neg (by rw [length_leBytes]; omega)]

/-! A write that reaches a register (R13 to R16). -/

theorem State.busWrite_reg (s : State) (o : Origin) {a : Nat} (v : Nat) {r : RegRef} (h4 : a % 4 = 0) (hf : s.fit (addrTile a))
    (hw : windowOf a = none) (hr : s.regAt a = some r) : s.busWrite o a v = s.regWrite o r v := by
  unfold State.busWrite
  rw [if_neg (by simp [h4, hf]), hw, hr]

/-- A write of a register of a block below the windows, from the row of its table. -/
theorem State.busWrite_addrOf (s : State) (o : Origin) {t blk off : Nat} (v : Nat) {r : RegRow} {ix : List Nat} (ht : t < 8) (hb : blk < 0x40)
    (ho : off < 2 ^ 30) (h4 : off % 4 = 0) (hf : s.fit t) (h : findReg blk off = some (r, ix)) (hp : placeOk s.id t r.place) :
    s.busWrite o (addrOf t blk off) v = s.regWrite o ⟨t, blk, off, r, ix⟩ v := by
  have hb' : blk < 128 := by omega
  refine s.busWrite_reg o v (by rw [addrOf_mod4]; exact h4) (by rw [addrTile_addrOf ht hb' ho]; exact hf)
    (windowOf_low (by rw [addrBlk_addrOf hb' ho]; exact hb)) ?_
  rw [s.regAt_addrOf ht hb' ho h, if_pos hp]

/-- The locks of one kind, none of which is on the register. -/
theorem locks_kind_nil {r : RegRef} {c : Bool} {l : List FieldLock} (h : l.all (fun k => !r.named k.f) = true) :
    (if c then l.filter fun k => r.named k.f else []) = [] := by
  split
  · simpa using h
  · rfl

theorem locks_kind_off {r : RegRef} {c : Bool} {l : List FieldLock} (h : c = false) : (if c then l.filter fun k => r.named k.f else []) = [] := by
  rw [h]; rfl

/-- The word that a 32-bit field with full access takes. -/
theorem withBits_word {x : Nat} (h : x < 2 ^ 32) (v : Nat) : withBits x 31 0 v = v % 2 ^ 32 := by
  simp only [withBits, Nat.shiftRight_eq_div_pow, Nat.div_eq_of_lt h, Nat.pow_zero, Nat.mod_one]
  simp

theorem State.wordB_lt (s : State) (b t blk off : Nat) : s.wordB b t blk off < 2 ^ 32 := BitVec.isLt _

/-- A register whose word is one field of full access. -/
def RegRef.oneWord (r : RegRef) : Prop := ∃ acc reset, (acc = .rw ∨ acc = .rws) ∧ r.row.fields = [⟨31, 0, acc, reset⟩]

/-- What such a register makes of a written word that no range limits: it takes the word as it is. -/
theorem State.putReg_oneWord (s : State) (b : Nat) (r : RegRef) {v : Nat} (hv : v < 2 ^ 32) (hr : r.oneWord) (hblk : r.blk ≠ 0x13)
    (hclamp : r.clamped v = v) (hlegal : ∀ old w, s.legalWord r old v w = w) :
    s.putReg b r v = (s.softMark b r.t r.fld (2 ^ 32 - 1)).setWordB b r.t r.blk r.off v := by
  obtain ⟨acc, reset, hacc, hf⟩ := hr
  have hmask : r.row.w1cMask = 0 := by
    rw [RegRow.w1cMask, hf]
    rcases hacc with rfl | rfl <;> rfl
  have hkeep : s.keepSet b r v = v := by simp [State.keepSet, hmask]
  have hbits : bitsOf v 31 0 = v := Nat.mod_eq_of_lt hv
  have hwrite : r.row.write (s.wordB b r.t r.blk r.off) v = v := by
    rw [RegRow.write, hf]
    rcases hacc with rfl | rfl <;>
      simp only [List.foldl_cons, List.foldl_nil, FieldRow.write, hbits, withBits_word (s.wordB_lt ..), Nat.mod_eq_of_lt hv]
  simp only [State.putReg, hclamp, hkeep, hwrite, hlegal, hblk, false_and, if_false]

/-! SYS_SCRATCH (R43). -/

/-- SYS_SCRATCH of a tile as its address names it. -/
def scratchAt (t : Nat) : RegRef := ⟨t, 0, 0x28, ⟨"SYS_SCRATCH", 0x28, [], .all, 0, 0, [⟨31, 0, .rws, 0⟩]⟩, []⟩

theorem findReg_scratch : findReg SYS_SCRATCH.blk SYS_SCRATCH.off = some ((scratchAt 0).row, []) := by decide

theorem State.locks_scratch (s : State) (o : Origin) (t : Nat) : s.locks o (scratchAt t) = [] := by
  simp only [State.locks, List.append_eq_nil_iff]
  exact ⟨⟨⟨⟨⟨⟨locks_kind_nil rfl, locks_kind_nil rfl⟩, locks_kind_nil rfl⟩, locks_kind_nil rfl⟩, locks_kind_nil rfl⟩, locks_kind_nil rfl⟩,
    locks_kind_nil rfl⟩

theorem State.turned_scratch (s : State) (o : Origin) (t v : Nat) : s.turned o (scratchAt t) v = .inr (v, s) := by
  have h : s.ownTurned o (scratchAt t) v = none := rfl
  have hs : (if ((scratchAt t).structured && o != .image) = true then s.structTurned o (scratchAt t) v else none) =
      none := rfl
  simp only [State.turned, hs, h, s.locks_scratch]
  rfl

/-- A write of SYS_SCRATCH writes its word. -/
theorem State.regWrite_scratch (s : State) (o : Origin) (t : Nat) {v : Nat} (hv : v < 2 ^ 32) :
    s.regWrite o (scratchAt t) v = ((s.softMark s.bank t (scratchAt t).fld (2 ^ 32 - 1)).setWordB s.bank t 0 0x28 v, .ok) := by
  have hput := s.putReg_oneWord s.bank (scratchAt t) hv ⟨.rws, 0, .inr rfl, rfl⟩ (show 0 ≠ 0x13 by decide) rfl fun _ _ => rfl
  unfold State.regWrite
  rw [s.turned_scratch]
  show (s.plainWrite o (scratchAt t) v, AccStatus.ok) = _
  rw [show s.plainWrite o (scratchAt t) v = s.putReg s.bank (scratchAt t) v from rfl, hput]
  rfl

/-- A read of SYS_SCRATCH gives its word. -/
theorem State.busRead_scratch (s : State) (o : Origin) {t : Nat} (ht : t < 8) (hf : s.fit t) :
    (s.busRead o (addrOf t SYS_SCRATCH.blk SYS_SCRATCH.off)).1 = s.wordB s.bank t 0 0x28 := by
  rw [s.busRead_plain o ht (by decide) (by decide) rfl hf findReg_scratch hf rfl rfl]
  rfl

/-- Settles O9: the write is one `setWordB`, and a read gives the word as it stands. -/
theorem scratchReadsBack : Obligations.ScratchReadsBack := by
  intro s o o' t v hlive hfit
  have ht : t.val < 8 := t.isLt
  have hw : (s.busWrite o (addrOf t SYS_SCRATCH.blk SYS_SCRATCH.off) v.toNat).1 =
      (s.softMark s.bank t (scratchAt t).fld (2 ^ 32 - 1)).setWordB s.bank t 0 0x28 v.toNat := by
    rw [s.busWrite_addrOf o v.toNat ht (by decide) (by decide) rfl hfit findReg_scratch hfit]
    exact congrArg Prod.fst (s.regWrite_scratch o t v.isLt)
  have honly : s.onlyRegs ((s.softMark s.bank t (scratchAt t).fld (2 ^ 32 - 1)).setWordB s.bank t 0 0x28 v.toNat) (SYS_SCRATCH.wordAt t) :=
    ⟨rfl, State.sameWords_trans (State.sameWords_of_regs rfl _)
      (State.sameWords_setWordB _ _ ht (by decide) (by decide) ⟨rfl, rfl, rfl⟩)⟩
  refine ⟨_, finish_live hlive, ?_, ?_⟩
  · rw [addrOf_toNat ht (by decide) (by decide), hw, State.after_eq_of_onlyRegs honly]
    refine (State.busRead_scratch _ o' ht ?_).trans ?_
    · exact hfit
    · exact (State.wordB_setWordB _ _ _ _ _ _).trans (Nat.mod_eq_of_lt v.isLt)
  · rw [addrOf_toNat ht (by decide) (by decide), hw]
    exact State.onlyRegs_after honly

/-! BND_TB_PERIOD (R13, R72). -/

/-- The halves of BND_TB_PERIOD as their addresses name them. -/
def tbPeriodLo : RegRef := ⟨0, 2, 0x28, ⟨"BND_TB_PERIOD_LO", 0x28, [], .lead, 0, 1, [⟨31, 0, .rw, 0⟩]⟩, []⟩
def tbPeriodHi : RegRef := ⟨0, 2, 0x2c, ⟨"BND_TB_PERIOD_HI", 0x2c, [], .lead, 0, 2, [⟨31, 0, .rw, 10000⟩]⟩, []⟩

theorem findReg_tbPeriodLo : findReg BND_TB_PERIOD_LO.blk BND_TB_PERIOD_LO.off = some (tbPeriodLo.row, []) := by decide
theorem findReg_tbPeriodHi : findReg BND_TB_PERIOD_HI.blk BND_TB_PERIOD_HI.off = some (tbPeriodHi.row, []) := by decide

/-- While RUN is 0 no rule turns a write of a half away (R47). -/
theorem State.turned_tbPeriod (s : State) (o : Origin) {r : RegRef} (v : Nat) (hrun : ¬ s.is 0 BND_CTRL_RUN) (hr : r = tbPeriodLo ∨ r = tbPeriodHi) :
    s.turned o r v = .inr (v, s) := by
  have hoff : (s.is 0 BND_CTRL_RUN && o != .image) = false := by simp [hrun]
  have hl : s.locks o r = [] := by
    simp only [State.locks, List.append_eq_nil_iff]
    rcases hr with rfl | rfl <;>
      exact ⟨⟨⟨⟨⟨⟨locks_kind_off hoff, locks_kind_nil rfl⟩, locks_kind_nil rfl⟩, locks_kind_nil rfl⟩, locks_kind_nil rfl⟩, locks_kind_nil rfl⟩,
        locks_kind_nil rfl⟩
  have hs : (if (r.structured && o != .image) = true then s.structTurned o r v else none) = none := by
    rcases hr with rfl | rfl <;> rfl
  have h : s.ownTurned o r v = none := by rcases hr with rfl | rfl <;> rfl
  simp only [State.turned, hs, h, hl]
  rfl

/-- The low word is held for its origin and nothing else happens. -/
theorem State.regWrite_tbPeriodLo (s : State) (o : Origin) (v : Nat) (hrun : ¬ s.is 0 BND_CTRL_RUN) :
    s.regWrite o tbPeriodLo v = ({ s with holds := putHold s.holds o tbPeriodLo.addr v }, .ok) := by
  unfold State.regWrite
  rw [s.turned_tbPeriod o v hrun (.inl rfl)]
  rfl

theorem findHold_putHold (l : List PairHold) (o : Origin) (a w : Nat) : findHold (putHold l o a w) o a = some w := by
  simp [findHold, putHold]

theorem findHold_dropHold (l : List PairHold) (o : Origin) (a : Nat) : findHold (dropHold l o a) o a = none := by
  simp only [findHold, dropHold, Option.map_eq_none_iff, List.find?_eq_none, List.mem_filter]
  rintro x ⟨-, hx⟩ hx'
  rw [hx'] at hx
  cases hx

theorem tbPeriodHi_addr : tbPeriodHi.addr - 4 = tbPeriodLo.addr := by decide

theorem State.regAt_tbPeriodLo (s : State) : s.regAt tbPeriodLo.addr = some tbPeriodLo := by
  refine (s.regAt_addrOf (by decide) (by decide) (by decide) findReg_tbPeriodLo).trans (if_pos ?_)
  rfl

/-- A half takes a written word as it is. -/
theorem State.putReg_tbPeriod (s : State) {r : RegRef} {v : Nat} (hv : v < 2 ^ 32) (hr : r = tbPeriodLo ∨ r = tbPeriodHi) :
    s.putReg s.bank r v = (s.softMark s.bank r.t r.fld (2 ^ 32 - 1)).setWordB s.bank r.t r.blk r.off v := by
  rcases hr with rfl | rfl
  · exact s.putReg_oneWord s.bank tbPeriodLo hv ⟨.rw, 0, .inl rfl, rfl⟩ (by decide) rfl fun _ _ => rfl
  · exact s.putReg_oneWord s.bank tbPeriodHi hv ⟨.rw, 10000, .inl rfl, rfl⟩ (by decide) rfl fun _ _ => rfl

/-- The state in which the pair has taken its two words. -/
def State.tbPeriodSet (s : State) (o : Origin) (lo hi : Nat) : State :=
  (((({ s with holds := dropHold s.holds o tbPeriodLo.addr }).softMark s.bank 0 tbPeriodLo.fld (2 ^ 32 - 1)).setWordB s.bank 0 2 0x28 lo).softMark
    s.bank 0 tbPeriodHi.fld (2 ^ 32 - 1)).setWordB s.bank 0 2 0x2c hi

/-- The high word completes the pair with the low word that is held. -/
theorem State.regWrite_tbPeriodHi (s : State) (o : Origin) {lo hi : Nat} (hlo : lo < 2 ^ 32) (hhi : hi < 2 ^ 32) (hrun : ¬ s.is 0 BND_CTRL_RUN)
    (hheld : findHold s.holds o tbPeriodLo.addr = some lo) : (s.regWrite o tbPeriodHi hi).1 = s.tbPeriodSet o lo hi := by
  let v : State := { s with holds := dropHold s.holds o tbPeriodLo.addr }
  have htake : ∀ cur, s.takeLow o tbPeriodHi cur = (lo, v) := fun cur => by
    simp only [State.takeLow, tbPeriodHi_addr, hheld]
    rfl
  have hpair : s.pairWrite o tbPeriodHi hi = (v.putReg v.bank tbPeriodLo lo).putReg v.bank tbPeriodHi hi := by
    simp only [State.pairWrite, htake, tbPeriodHi_addr, v.regAt_tbPeriodLo]
    rfl
  unfold State.regWrite
  rw [s.turned_tbPeriod o hi hrun (.inr rfl)]
  refine hpair.trans ?_
  rw [v.putReg_tbPeriod hlo (.inl rfl)]
  exact State.putReg_tbPeriod _ hhi (.inr rfl)

theorem State.wordB_softMark (s : State) (b t : Nat) (f : Fld) (m b' t' k o : Nat) :
    (s.softMark b t f m).wordB b' t' k o = s.wordB b' t' k o := rfl

/-- Both words of the pair read what was written; no other word changes, and the hold is used up. -/
theorem State.tbPeriodSet_effect (s : State) (o : Origin) {lo hi : Nat} (hlo : lo < 2 ^ 32) (hhi : hi < 2 ^ 32) :
    (s.tbPeriodSet o lo hi).rd64 0 BND_TB_PERIOD_LO = lo + 2 ^ 32 * hi ∧ s.sameWords (s.tbPeriodSet o lo hi) (BND_TB_PERIOD_LO.pairAt 0) ∧
    (s.tbPeriodSet o lo hi).mem = s.mem ∧ findHold (s.tbPeriodSet o lo hi).holds o tbPeriodLo.addr = none := by
  refine ⟨?_, ?_, rfl, findHold_dropHold s.holds o tbPeriodLo.addr⟩
  · have h1 : (s.tbPeriodSet o lo hi).wordB s.bank 0 2 0x28 = lo := by
      rw [State.tbPeriodSet, State.wordB_setWordB_ne _ _ (by decide) (by decide) (by decide) (by decide) (by decide) (by decide) (by decide),
        State.wordB_softMark, State.wordB_setWordB, Nat.mod_eq_of_lt hlo]
    have h2 : (s.tbPeriodSet o lo hi).wordB s.bank 0 2 0x2c = hi := by
      rw [State.tbPeriodSet, State.wordB_setWordB, Nat.mod_eq_of_lt hhi]
    show (s.tbPeriodSet o lo hi).wordB s.bank 0 2 0x28 + 2 ^ 32 * (s.tbPeriodSet o lo hi).wordB s.bank 0 2 0x2c = _
    rw [h1, h2]
  · refine State.sameWords_trans (State.sameWords_trans (State.sameWords_of_regs rfl _)
      (State.sameWords_setWordB _ lo (b := s.bank) (t := 0) (blk := 2) (off := 0x28) (by decide) (by decide) (by decide) ⟨rfl, rfl, .inl rfl⟩)) ?_
    exact State.sameWords_trans (State.sameWords_of_regs rfl _)
      (State.sameWords_setWordB _ hi (by decide) (by decide) (by decide) ⟨rfl, rfl, .inr rfl⟩)

theorem State.fit_zero (s : State) : s.fit 0 = true := by
  simp only [State.fit, Ident.fitted]
  cases s.id.variant <;> rfl

/-- A write of the low half, then one of the high half, at their addresses. -/
theorem State.busWrite_tbPeriod (s : State) (o : Origin) (v : Nat) :
    s.busWrite o (addrOf 0 BND_TB_PERIOD_LO.blk BND_TB_PERIOD_LO.off) v = s.regWrite o tbPeriodLo v ∧
    s.busWrite o (addrOf 0 BND_TB_PERIOD_HI.blk BND_TB_PERIOD_HI.off) v = s.regWrite o tbPeriodHi v :=
  ⟨s.busWrite_addrOf o v (by decide) (by decide) (by decide) rfl s.fit_zero findReg_tbPeriodLo rfl,
    s.busWrite_addrOf o v (by decide) (by decide) (by decide) rfl s.fit_zero findReg_tbPeriodHi rfl⟩

/-- Settles O10: the low word waits in `holds`, and the high word sets both words. -/
theorem pairTakesEffectWithHighWord : Obligations.PairTakesEffectWithHighWord := by
  intro s o lo hi hlive hrun
  let u : State := { s with holds := putHold s.holds o tbPeriodLo.addr lo.toNat }
  have hlo : (s.busWrite o (addrOf 0 BND_TB_PERIOD_LO.blk BND_TB_PERIOD_LO.off) lo.toNat).1 = u := by
    rw [(s.busWrite_tbPeriod o _).1, s.regWrite_tbPeriodLo o _ hrun]
  have hhi : (u.busWrite o (addrOf 0 BND_TB_PERIOD_HI.blk BND_TB_PERIOD_HI.off) hi.toNat).1 = u.tbPeriodSet o lo.toNat hi.toNat := by
    rw [(u.busWrite_tbPeriod o _).2]
    exact u.regWrite_tbPeriodHi o lo.isLt hi.isLt hrun (findHold_putHold _ _ _ _)
  obtain ⟨hval, hsame, hmem, hhold⟩ := u.tbPeriodSet_effect o lo.isLt hi.isLt
  refine ⟨u, (finish_live hlive).trans ?_, rfl, rfl, u.after (u.tbPeriodSet o lo.toNat hi.toNat), (finish_live (s := u) hlive).trans ?_, hval, ?_, hmem, hhold⟩
  · rw [addrOf_toNat (by decide) (by decide) (by decide), hlo]; rfl
  · rw [addrOf_toNat (by decide) (by decide) (by decide), hhi]
  · exact State.sameWords_trans (State.sameWords_of_regs rfl _) hsame

end Sys2Proof.Machine
end

section
/-! SUPPORT. Clear registers (R16): what clearing one counter leaves, what clearing a list of them does, and the clear commands of the blocks. -/

namespace Sys2Proof.Machine

variable {s u : State} {K : WordSet} {t : Nat}

/-! Reads of what a command leaves. -/

/-- A field outside the words that have changed. -/
theorem State.rd_of_onlyRegs (h : s.onlyRegs u K) {f : Fld} (ht : t < 8) (hf : f.ok) (hK : ¬ K t f.blk f.off) : u.rd t f = s.rd t f := by
  have hb : u.bank = s.bank := by rw [h.1]
  obtain ⟨-, -, hblk, hoff⟩ := hf
  unfold State.rd State.rdB
  rw [hb, h.2 _ _ _ _ ht hblk hoff hK]

/-- A pair outside the words that have changed. -/
theorem State.rd64_of_onlyRegs (h : s.onlyRegs u K) {f : Fld} (ht : t < 8) (hblk : f.blk < 128) (hoff : f.off + 4 < 2 ^ 30)
    (hlo : ¬ K t f.blk f.off) (hhi : ¬ K t f.blk (f.off + 4)) : u.rd64 t f = s.rd64 t f := by
  have hb : u.bank = s.bank := by rw [h.1]
  unfold State.rd64 State.word
  rw [hb, h.2 _ _ _ _ ht hblk (by omega) hlo, h.2 _ _ _ _ ht hblk hoff hhi]

/-! One counter. -/

theorem gained_lt {n : Nat} (hn : 0 < n) (now start : Nat) : gained n now start < n := Nat.mod_lt _ hn

theorem gained_self (n v : Nat) : gained n v v = 0 := by
  rw [gained, Nat.add_sub_cancel_left, Nat.mod_self]

/-- A count that has gone on by `k` has gained `k`, whether it has wrapped or not. -/
theorem gained_add {n v k : Nat} (hv : v < n) (hk : k < n) : gained n ((v + k) % n) v = k := by
  unfold gained
  rcases Nat.lt_or_ge (v + k) n with h | h
  · rw [Nat.mod_eq_of_lt h, show v + k + n - v = k + n by omega, Nat.add_mod_right, Nat.mod_eq_of_lt hk]
  · rw [Nat.mod_eq_sub_mod h, Nat.mod_eq_of_lt (show v + k - n < n by omega), show v + k - n + n - v = k by omega, Nat.mod_eq_of_lt hk]

theorem State.rd_clrCount (s : State) (t : Nat) {f : Fld} (hf : f.ok) :
    (s.clrCount t f).rd t f = gained (2 ^ (f.hi + 1 - f.lo)) (s.rd t f) (s.began.rd t f) := by
  rw [State.clrCount, State.rd_wr _ _ _ _ hf]
  exact Nat.mod_eq_of_lt (gained_lt (by positivity) _ _)

theorem State.onlyRegs_clrCount (s : State) {f : Fld} (ht : t < 8) (hf : f.ok) (hK : K t f.blk f.off) : s.onlyRegs (s.clrCount t f) K :=
  State.onlyRegs_trans (u := { s with cyc := (s.clrCount t f).cyc }) ⟨rfl, State.sameWords_of_regs rfl _⟩ (State.onlyRegs_wr _ _ ht hf hK)

/-- What the cycle began with is forgotten for the counter alone. -/
theorem State.began_clrCount (s : State) {f g : Fld} (ht : t < 8) (hf : f.ok) (hg : g.ok) (h : g.apart f) :
    (s.clrCount t f).began.rd t g = s.began.rd t g := s.began.rd_wr_ne 0 ht ht hg hf (.inr h)

/-! Several fields of a block. -/

/-- What a clear register does to a field: a counter keeps what it has gained in the cycle (R16), a maximum goes to 0 (R262). -/
inductive FieldClear where
  | counter (f : Fld)
  | maximum (f : Fld)

def FieldClear.fld : FieldClear → Fld
  | .counter f => f
  | .maximum f => f

def FieldClear.act (t : Nat) (s : State) : FieldClear → State
  | .counter f => s.clrCount t f
  | .maximum f => s.clrF t f

/-- What the field holds then. -/
def FieldClear.val (t : Nat) (s : State) : FieldClear → Nat
  | .counter f => gained (2 ^ (f.hi + 1 - f.lo)) (s.rd t f) (s.began.rd t f)
  | .maximum _ => 0

/-- The fields cleared one after the other. -/
def State.clrAll (s : State) (t : Nat) (l : List FieldClear) : State := l.foldl (FieldClear.act t) s

/-- The words of some fields on a tile. -/
def clearWords (t : Nat) (l : List FieldClear) : WordSet := fun tile blk off => tile = t ∧ ∃ c ∈ l, blk = c.fld.blk ∧ off = c.fld.off

/-- Fields of register words that are all different. -/
def wordsDiffer (l : List FieldClear) : Prop := (∀ c ∈ l, c.fld.ok) ∧ (l.map fun c => c.fld.off).Nodup

theorem apart_of_off {f g : Fld} (h : f.off ≠ g.off) : f.apart g := .inr (.inl h)

theorem FieldClear.rd_act (c : FieldClear) (s : State) (hc : c.fld.ok) : (c.act t s).rd t c.fld = c.val t s := by
  cases c with
  | counter f => exact s.rd_clrCount t hc
  | maximum f => exact s.rd_clrF t f hc

theorem FieldClear.onlyRegs_act (c : FieldClear) (s : State) (ht : t < 8) (hc : c.fld.ok) (hK : K t c.fld.blk c.fld.off) : s.onlyRegs (c.act t s) K := by
  cases c with
  | counter f => exact s.onlyRegs_clrCount ht hc hK
  | maximum f => exact s.onlyRegs_clrF ht hc hK

/-- What a field is cleared to does not depend on the clearing of another. -/
theorem FieldClear.val_act (c d : FieldClear) (s : State) (ht : t < 8) (hc : c.fld.ok) (hd : d.fld.ok) (h : d.fld.off ≠ c.fld.off) :
    d.val t (c.act t s) = d.val t s := by
  cases d with
  | maximum g => rfl
  | counter g =>
    have hrd : (c.act t s).rd t g = s.rd t g :=
      State.rd_of_onlyRegs (K := clearWords t [c]) (c.onlyRegs_act s ht hc ⟨rfl, c, List.mem_singleton_self _, rfl, rfl⟩) ht hd (by
        rintro ⟨-, x, hx, -, hoff⟩
        rw [List.mem_singleton.1 hx] at hoff
        exact h hoff)
    have hbeg : (c.act t s).began.rd t g = s.began.rd t g := by
      cases c with
      | counter f => exact s.began_clrCount ht hc hd (apart_of_off h)
      | maximum f => rfl
    simp only [FieldClear.val, hrd, hbeg]

/-- Fields of different words that are cleared in turn: each holds what its own clear leaves, and no other word changes. -/
theorem State.clrAll_effect (s : State) (ht : t < 8) {l : List FieldClear} (hl : wordsDiffer l) :
    (∀ c ∈ l, (s.clrAll t l).rd t c.fld = c.val t s) ∧ s.onlyRegs (s.clrAll t l) (clearWords t l) := by
  induction l generalizing s with
  | nil => exact ⟨fun c hc => (List.not_mem_nil hc).elim, s.onlyRegs_refl _⟩
  | cons c l ih =>
    obtain ⟨hok, hnd⟩ := hl
    obtain ⟨hc, hnd⟩ := List.nodup_cons.1 hnd
    have hcok := hok c List.mem_cons_self
    have hne : ∀ d ∈ l, d.fld.off ≠ c.fld.off := fun d hd h => hc (List.mem_map.2 ⟨d, hd, h⟩)
    obtain ⟨hval, honly⟩ := ih (c.act t s) ⟨fun d hd => hok d (List.mem_cons_of_mem _ hd), hnd⟩
    refine ⟨fun d hd => ?_, ?_⟩
    · rcases List.mem_cons.1 hd with rfl | hd
      · refine (State.rd_of_onlyRegs honly ht hcok ?_).trans (d.rd_act s hcok)
        rintro ⟨-, x, hx, -, hoff⟩
        exact hne x hx hoff.symm
      · exact (hval d hd).trans (c.val_act d s ht hcok (hok d (List.mem_cons_of_mem _ hd)) (hne d hd))
    · exact State.onlyRegs_trans (c.onlyRegs_act s ht hcok ⟨rfl, c, List.mem_cons_self, rfl, rfl⟩)
        (State.onlyRegs_mono honly fun _ _ _ ⟨h, d, hd, hw⟩ => ⟨h, d, List.mem_cons_of_mem _ hd, hw⟩)

/-! Clear commands of a block. -/

/-- A command that clears the counters `l` of different words clears them and nothing else. -/
theorem State.clears_of_clrAll {s : State} {i : Instr} {t : Nat} {l : List Fld} (ht : t < 8) (hl : wordsDiffer (l.map .counter))
    (hi : exec i s = .next (s.after (s.clrAll t (l.map .counter)))) : s.clears i t l := by
  obtain ⟨hval, honly⟩ := s.clrAll_effect ht hl
  refine ⟨_, hi, fun f hf => hval (.counter f) (List.mem_map_of_mem hf), State.onlyRegs_after (State.onlyRegs_mono honly ?_)⟩
  rintro tile blk off ⟨h, c, hc, hw⟩
  obtain ⟨f, hf, rfl⟩ := List.mem_map.1 hc
  exact ⟨h, f, hf, hw⟩

theorem State.clrAll_counters (s : State) (t : Nat) (l : List Fld) :
    s.clrAll t (l.map .counter) = l.foldl (fun s f => s.clrCount t f) s := by
  rw [State.clrAll, List.foldl_map]; rfl

/-- The words of a family of blocks of fields differ where those of each member do and no two members share one. -/
theorem wordsDiffer_flatMap {n : Nat} {F : Nat → List FieldClear} (hF : ∀ q < n, wordsDiffer (F q))
    (hne : ∀ q r, q < r → r < n → ∀ c ∈ F q, ∀ d ∈ F r, c.fld.off ≠ d.fld.off) : wordsDiffer ((List.range n).flatMap F) := by
  refine ⟨fun c hc => ?_, ?_⟩
  · obtain ⟨q, hq, hc⟩ := List.mem_flatMap.1 hc
    exact (hF q (List.mem_range.1 hq)).1 c hc
  · rw [List.map_flatMap, List.nodup_flatMap]
    refine ⟨fun q hq => (hF q (List.mem_range.1 hq)).2, ?_⟩
    refine (List.pairwise_lt_range (n := n)).imp_of_mem fun {q r} _ hr hqr => ?_
    rintro x hx hx'
    obtain ⟨c, hc, rfl⟩ := List.mem_map.1 hx
    obtain ⟨d, hd, hcd⟩ := List.mem_map.1 hx'
    exact hne q r hqr (List.mem_range.1 hr) c hc d hd hcd.symm

theorem wordsDiffer_cons {c : FieldClear} {l : List FieldClear} (hc : c.fld.ok) (hne : ∀ d ∈ l, d.fld.off ≠ c.fld.off) (hl : wordsDiffer l) :
    wordsDiffer (c :: l) :=
  ⟨List.forall_mem_cons.2 ⟨hc, hl.1⟩, List.nodup_cons.2 ⟨fun h => by
    obtain ⟨d, hd, h⟩ := List.mem_map.1 h
    exact hne d hd h, hl.2⟩⟩

/-- The counters of a queue (R407). -/
def queCounters (q : Nat) : List FieldClear :=
  [.counter (QUE_Q_PUSHED q), .counter (QUE_Q_REFUSED q), .counter (QUE_Q_POISONED q), .counter (QUE_Q_LOST q)]

/-- What ENG_CLR clears of an engine (R262). -/
def engCounters (e : Nat) : List FieldClear := [.counter (ENG_E_IN_LOST e), .maximum (ENG_E_CYCLES_MAX e)]

theorem mem_engCounters {e : Nat} {c : FieldClear} (h : c ∈ engCounters e) :
    c = .counter (ENG_E_IN_LOST e) ∨ c = .maximum (ENG_E_CYCLES_MAX e) := by simpa [engCounters] using h

theorem mem_queCounters {q : Nat} {c : FieldClear} (h : c ∈ queCounters q) : ∃ k < 4, c.fld = ⟨0x15, 0x1010 + 4 * k + 0x20 * q, 31, 0⟩ := by
  simp only [queCounters, List.mem_cons, List.not_mem_nil, or_false] at h
  rcases h with rfl | rfl | rfl | rfl
  exacts [⟨0, by decide, rfl⟩, ⟨1, by decide, rfl⟩, ⟨2, by decide, rfl⟩, ⟨3, by decide, rfl⟩]

theorem wordsDiffer_engCounters : wordsDiffer ((List.range 128).flatMap engCounters) := by
  refine wordsDiffer_flatMap (fun e he => ⟨fun c hc => ?_, ?_⟩) fun q r hqr hr c hc d hd => ?_
  · rcases mem_engCounters hc with rfl | rfl <;> simp only [Fld.ok, FieldClear.fld, ENG_E_IN_LOST, ENG_E_CYCLES_MAX] <;> omega
  · simp [engCounters, FieldClear.fld, ENG_E_IN_LOST, ENG_E_CYCLES_MAX]; omega
  · rcases mem_engCounters hc with rfl | rfl <;> rcases mem_engCounters hd with rfl | rfl <;>
      simp only [FieldClear.fld, ENG_E_IN_LOST, ENG_E_CYCLES_MAX] <;> omega

theorem wordsDiffer_queCounters : wordsDiffer (.counter QUE_ERRREC_LOST :: (List.range 256).flatMap queCounters) := by
  refine wordsDiffer_cons (show QUE_ERRREC_LOST.ok by unfold Fld.ok; decide) (fun d hd => ?_)
    (wordsDiffer_flatMap (fun q hq => ⟨fun c hc => ?_, ?_⟩) fun q r hqr hr c hc d hd => ?_)
  · obtain ⟨q, -, hd⟩ := List.mem_flatMap.1 hd
    obtain ⟨k, -, hk⟩ := mem_queCounters hd
    rw [hk]
    show 0x1010 + 4 * k + 0x20 * q ≠ 0x60
    omega
  · obtain ⟨k, hk4, hk⟩ := mem_queCounters hc
    rw [hk]
    simp only [Fld.ok]
    omega
  · simp [queCounters, FieldClear.fld, QUE_Q_PUSHED, QUE_Q_REFUSED, QUE_Q_POISONED, QUE_Q_LOST]
  · obtain ⟨k, hk4, hk⟩ := mem_queCounters hc
    obtain ⟨j, hj4, hj⟩ := mem_queCounters hd
    rw [hk, hj]
    show 0x1010 + 4 * k + 0x20 * q ≠ 0x1010 + 4 * j + 0x20 * r
    omega

/-! Pairs (R13, R16). -/

/-- A 64-bit counter whose pair lies in its block. -/
def Fld.pairOk (f : Fld) : Prop := f.blk < 128 ∧ f.off + 4 < 2 ^ 30

theorem State.rd64_wr64 (s : State) {f : Fld} (v : Nat) (ht : t < 8) (hf : f.pairOk) : (s.wr64 t f v).rd64 t f = v % 2 ^ 64 := by
  obtain ⟨hblk, hoff⟩ := hf
  simp only [State.rd64, State.wr64, State.word, State.setWord, State.bank_setWordB, State.wordB_setWordB]
  rw [State.wordB_setWordB_ne _ _ ht ht hblk (by omega) hblk hoff (.inr (.inr (by omega))), State.wordB_setWordB, Nat.shiftRight_eq_div_pow]
  omega

theorem State.onlyRegs_wr64 (s : State) {f : Fld} (v : Nat) (ht : t < 8) (hf : f.pairOk) : s.onlyRegs (s.wr64 t f v) (f.pairAt t) :=
  State.onlyRegs_trans (s.onlyRegs_setWordB v ht hf.1 (by have := hf.2; omega) ⟨rfl, rfl, .inl rfl⟩)
    (State.onlyRegs_setWordB _ _ ht hf.1 hf.2 ⟨rfl, rfl, .inr rfl⟩)

theorem State.onlyRegs_clrCount64 (s : State) {f : Fld} (ht : t < 8) (hf : f.pairOk) : s.onlyRegs (s.clrCount64 t f) (f.pairAt t) :=
  State.onlyRegs_trans (u := { s with cyc := (s.clrCount64 t f).cyc }) ⟨rfl, State.sameWords_of_regs rfl _⟩ (State.onlyRegs_wr64 _ _ ht hf)

theorem State.cleared64_clrCount64 (s : State) {f : Fld} (ht : t < 8) (hf : f.pairOk) : s.cleared64 (s.clrCount64 t f) t f := by
  rw [State.cleared64, State.clrCount64, State.rd64_wr64 _ _ ht hf]
  exact Nat.mod_eq_of_lt (gained_lt (by positivity) _ _)

/-- A pair depends on the register map and the bank alone. -/
theorem State.rd64_congr {s u : State} (hr : s.regs = u.regs) (hb : s.bank = u.bank) (t : Nat) (f : Fld) : s.rd64 t f = u.rd64 t f := by
  simp only [State.rd64, State.word, State.wordB, hr, hb]

/-- Two pairs of different words. -/
def Fld.pairsApart (f g : Fld) : Prop := f.blk ≠ g.blk ∨ f.off + 4 < g.off ∨ g.off + 4 < f.off

theorem Fld.not_pairAt {f g : Fld} (h : f.pairsApart g) : ¬ g.pairAt t t f.blk f.off ∧ ¬ g.pairAt t t f.blk (f.off + 4) := by
  unfold Fld.pairsApart at h
  constructor <;> rintro ⟨-, hblk, hoff⟩ <;> omega

/-- A pair after a change of another one. -/
theorem State.rd64_of_pairsApart {f g : Fld} (h : s.onlyRegs u (g.pairAt t)) (ht : t < 8) (hf : f.pairOk) (hfg : f.pairsApart g) :
    u.rd64 t f = s.rd64 t f :=
  State.rd64_of_onlyRegs h ht hf.1 hf.2 (Fld.not_pairAt hfg).1 (Fld.not_pairAt hfg).2

theorem State.regs_began (s : State) : s.began.regs = s.cyc.regs := rfl
@[simp] theorem State.bank_began (s : State) : s.began.bank = s.bank := rfl

/-- What the cycle began with is forgotten for the cleared pair alone. -/
theorem State.rd64_began_clrCount64 (s : State) (t : Nat) (f g : Fld) : (s.clrCount64 t f).began.rd64 t g = (s.began.wr64 t f 0).rd64 t g := by
  refine State.rd64_congr ?_ ?_ t g
  · rw [State.regs_began, State.clrCount64, State.cyc_wr64]
  · rw [State.bank_began, State.bank_clrCount64, State.bank_wr64, State.bank_began]

/-- Two 64-bit counters cleared one after the other. -/
theorem State.clrCount64_two (s : State) {f g : Fld} (ht : t < 8) (hf : f.pairOk) (hg : g.pairOk) (hfg : f.pairsApart g) (hgf : g.pairsApart f) :
    s.cleared64 ((s.clrCount64 t f).clrCount64 t g) t f ∧ s.cleared64 ((s.clrCount64 t f).clrCount64 t g) t g ∧
    s.onlyRegs ((s.clrCount64 t f).clrCount64 t g) ((f.pairAt t).or (g.pairAt t)) := by
  have hone := s.onlyRegs_clrCount64 ht hf
  have htwo := (s.clrCount64 t f).onlyRegs_clrCount64 ht hg
  have hbeg : (s.clrCount64 t f).began.rd64 t g = s.began.rd64 t g :=
    (s.rd64_began_clrCount64 t f g).trans (State.rd64_of_pairsApart (s.began.onlyRegs_wr64 0 ht hf) ht hg hgf)
  refine ⟨?_, ?_, State.onlyRegs_trans (State.onlyRegs_mono hone fun _ _ _ => .inl) (State.onlyRegs_mono htwo fun _ _ _ => .inr)⟩
  · exact (State.rd64_of_pairsApart htwo ht hf hfg).trans (s.cleared64_clrCount64 ht hf)
  · have hclr := (s.clrCount64 t f).cleared64_clrCount64 ht hg
    unfold State.cleared64 at hclr ⊢
    rw [hclr, hbeg, State.rd64_of_pairsApart hone ht hg hgf]

/-! The clear commands (R45, R72, R108, R109, R131, R153, R172, R206, R235, R236, R262, R309, R357 to R359, R407, R422). -/

/-- LNK_LANEn_CLR clears the two counts of a PRBS checker (R108). -/
theorem State.clrPrbs_effect (s : State) (ht : t < 8) (n : Lane) :
    let u := (s.clrCount64 t (LNK_LANE_PRBS_ERR_LO n)).clrCount64 t (LNK_LANE_PRBS_BITS_LO n)
    s.cleared64 u t (LNK_LANE_PRBS_ERR_LO n) ∧ s.cleared64 u t (LNK_LANE_PRBS_BITS_LO n) ∧
    s.onlyRegs u (((LNK_LANE_PRBS_ERR_LO n).pairAt t).or ((LNK_LANE_PRBS_BITS_LO n).pairAt t)) := by
  refine s.clrCount64_two ht ?_ ?_ ?_ ?_ <;> simp only [Fld.pairOk, Fld.pairsApart, LNK_LANE_PRBS_ERR_LO, LNK_LANE_PRBS_BITS_LO] <;> omega

/-- A command at a tile whose operation `f` clears the counters of a block. -/
theorem State.clears_onTile {s : State} {i : Instr} {t : Nat} {l : List Fld} (hlive : s.live) (hfit : s.fit t) (ht : t < 8) (f : State → State)
    (hi : exec i s = onTile s t f) (hf : f s = l.foldl (fun s f => s.clrCount t f) s) (hl : wordsDiffer (l.map .counter)) : s.clears i t l :=
  State.clears_of_clrAll ht hl (by rw [hi, onTile_live hlive hfit, hf, State.clrAll_counters])

/-- A command on a live part whose operation clears the counters of a block of tile 0. -/
theorem State.clears_finish {s : State} {i : Instr} {l : List Fld} (hlive : s.live) (u : State) (hi : exec i s = finish s u)
    (hu : u = l.foldl (fun s f => s.clrCount 0 f) s) (hl : wordsDiffer (l.map .counter)) : s.clears i 0 l :=
  State.clears_of_clrAll (by decide) hl (by rw [hi, finish_live hlive, hu, State.clrAll_counters])

/-- A command at a bonded Cerette link. -/
theorem State.exec_bonded {s : State} {i : Instr} {t : Nat} {n : Nat} (hlive : s.live) (hfit : s.fit t) (hbond : s.id.bonded t n) (f : State → State)
    (hi : exec i s = whenEv s (s.fit t && s.id.bonded t n) f) : exec i s = .next (s.after (f s)) :=
  hi.trans (whenEv_live hlive (by rw [hfit, hbond]; rfl))

theorem wordsDiffer_singleton {f : Fld} (hf : f.ok) : wordsDiffer ([f].map .counter) :=
  ⟨fun c hc => by rw [List.mem_singleton.1 hc]; exact hf, List.nodup_singleton _⟩

/-- BND_MISS_CLR clears the counters that its bits name (R72). -/
theorem State.missClr_effect (s : State) (ht : t < 8) (clr : BitVec 8) :
    (∀ k : Fin 8, (s.missClr t clr.toNat).rd t (BND_MISS k) =
      if clr.getLsbD k then gained (2 ^ 32) (s.rd t (BND_MISS k)) (s.began.rd t (BND_MISS k)) else s.rd t (BND_MISS k)) ∧
    s.onlyRegs (s.missClr t clr.toNat) fun tile blk off => tile = t ∧ ∃ k < 8, clr.getLsbD k ∧ blk = (BND_MISS k).blk ∧ off = (BND_MISS k).off := by
  let l := ((onesOf 8 clr.toNat).map fun k => BND_MISS k).map FieldClear.counter
  have hmem : ∀ k, k ∈ onesOf 8 clr.toNat ↔ k < 8 ∧ clr.getLsbD k := fun k => by
    rw [onesOf, List.mem_filter, List.mem_range]; rfl
  have hl : wordsDiffer l := by
    refine ⟨fun c hc => ?_, ?_⟩
    · simp only [l, List.map_map, List.mem_map] at hc
      obtain ⟨k, hk, rfl⟩ := hc
      have hk8 := ((hmem k).1 hk).1
      simp only [Function.comp_apply, FieldClear.fld, Fld.ok, BND_MISS]
      omega
    · simp only [l, List.map_map]
      refine (List.nodup_range.filter _).map fun x y hxy => ?_
      simp only [Function.comp_apply, FieldClear.fld, BND_MISS] at hxy
      omega
  have hclr : s.missClr t clr.toNat = s.clrAll t l := by
    rw [State.clrAll_counters, List.foldl_map]; rfl
  obtain ⟨hval, honly⟩ := s.clrAll_effect ht hl
  rw [← hclr] at hval honly
  have honly' : s.onlyRegs (s.missClr t clr.toNat) fun tile blk off =>
      tile = t ∧ ∃ k < 8, clr.getLsbD k ∧ blk = (BND_MISS k).blk ∧ off = (BND_MISS k).off := by
    refine State.onlyRegs_mono honly ?_
    rintro tile blk off ⟨h, c, hc, hw⟩
    simp only [l, List.map_map, List.mem_map] at hc
    obtain ⟨k, hk, rfl⟩ := hc
    exact ⟨h, k, ((hmem k).1 hk).1, ((hmem k).1 hk).2, hw⟩
  refine ⟨fun k => ?_, honly'⟩
  split
  · next hk => exact hval (.counter (BND_MISS k)) (List.mem_map_of_mem (List.mem_map_of_mem ((hmem k).2 ⟨k.isLt, hk⟩)))
  · next hk =>
    refine State.rd_of_onlyRegs honly' ht (by simp only [Fld.ok, BND_MISS]; omega) ?_
    rintro ⟨-, j, -, hj, -, hoff⟩
    have : (k : Nat) = j := by simp only [BND_MISS] at hoff; omega
    exact hk (this ▸ hj)

theorem State.gives_of_onlyRegs {s u : State} {i : Instr} {K : WordSet} {P : State → Prop} (hi : exec i s = .next (s.after u)) (h : s.onlyRegs u K)
    (hP : P u) : s.gives i P := ⟨u, by rw [hi, State.after_eq_of_onlyRegs h], hP⟩

/-- ENG_CLR keeps what the lost inputs have gained and sets the greatest cycle counts to 0 (R262). -/
theorem State.engClr_effect (s : State) (ht : t < 8) :
    (∀ e < 128, (s.engClr t).rd t (ENG_E_IN_LOST e) = gained (2 ^ 32) (s.rd t (ENG_E_IN_LOST e)) (s.began.rd t (ENG_E_IN_LOST e)) ∧
      (s.engClr t).rd t (ENG_E_CYCLES_MAX e) = 0) ∧
    s.onlyRegs (s.engClr t) fun tile blk off => tile = t ∧ ∃ e < 128, ∃ f ∈ [ENG_E_IN_LOST e, ENG_E_CYCLES_MAX e], blk = f.blk ∧ off = f.off := by
  have hclr : s.engClr t = s.clrAll t ((List.range 128).flatMap engCounters) := by
    simp only [State.engClr, State.clrAll, List.foldl_flatMap]; rfl
  obtain ⟨hval, honly⟩ := s.clrAll_effect ht wordsDiffer_engCounters
  rw [← hclr] at hval honly
  refine ⟨fun e he => ⟨hval (.counter (ENG_E_IN_LOST e)) ?_, hval (.maximum (ENG_E_CYCLES_MAX e)) ?_⟩, State.onlyRegs_mono honly ?_⟩
  · exact List.mem_flatMap.2 ⟨e, List.mem_range.2 he, List.mem_cons_self⟩
  · exact List.mem_flatMap.2 ⟨e, List.mem_range.2 he, List.mem_cons_of_mem _ List.mem_cons_self⟩
  · rintro tile blk off ⟨h, c, hc, hw⟩
    obtain ⟨e, he, hc⟩ := List.mem_flatMap.1 hc
    refine ⟨h, e, List.mem_range.1 he, c.fld, ?_, hw⟩
    rcases mem_engCounters hc with rfl | rfl
    · exact List.mem_cons_self
    · exact List.mem_cons_of_mem _ List.mem_cons_self

theorem State.queClr_eq (s : State) (t : Nat) : s.queClr t = (QUE_ERRREC_LOST :: (List.range 256).flatMap fun q =>
    [QUE_Q_PUSHED q, QUE_Q_REFUSED q, QUE_Q_POISONED q, QUE_Q_LOST q]).foldl (fun s f => s.clrCount t f) s := by
  simp only [State.queClr, List.foldl_cons, List.foldl_nil, List.foldl_flatMap]

theorem wordsDiffer_que : wordsDiffer ((QUE_ERRREC_LOST :: (List.range 256).flatMap fun q =>
    [QUE_Q_PUSHED q, QUE_Q_REFUSED q, QUE_Q_POISONED q, QUE_Q_LOST q]).map .counter) := by
  rw [List.map_cons, List.map_flatMap]
  exact wordsDiffer_queCounters

/-- Settles O30: every clear command is `clrAll` of its block's counters, or clears one or two pairs. -/
theorem countersClear : Obligations.CountersClear := by
  refine ⟨fun n v _ => gained_self n v, fun n v k => gained_add, fun s t hlive hfit => ?_⟩
  have ht : t.val < 8 := t.isLt
  have onTile {i : Instr} {l : List Fld} := State.clears_onTile (i := i) (l := l) hlive hfit ht
  have lead {i : Instr} {l : List Fld} := State.clears_finish (i := i) (l := l) hlive
  refine ⟨fun l hbond => ⟨?_, ?_, ?_⟩, fun clr => ?_, fun n => ⟨?_, ?_⟩, fun p => ⟨?_, ?_, ?_, ?_, ?_, ?_, ?_, ?_⟩, ?_, ?_, ?_, ?_, ?_, ?_, ?_,
    fun p hp => ?_, ?_, ?_, ?_, ?_⟩
  · exact State.clears_of_clrAll ht (wordsDiffer_singleton (by simp only [Fld.ok, D2D_L_CRC_ERR_COUNT]; omega))
      (State.exec_bonded hlive hfit hbond (fun s => s.clrCount t (D2D_L_CRC_ERR_COUNT l)) rfl)
  · exact State.clears_of_clrAll ht (wordsDiffer_singleton (by simp only [Fld.ok, D2D_L_REPLAY_COUNT]; omega))
      (State.exec_bonded hlive hfit hbond (fun s => s.clrCount t (D2D_L_REPLAY_COUNT l)) rfl)
  · have hok : (D2D_L_TX_FLITS_LO l).pairOk := by simp only [Fld.pairOk, D2D_L_TX_FLITS_LO]; omega
    have honly := s.onlyRegs_clrCount64 ht hok
    exact State.gives_of_onlyRegs (State.exec_bonded hlive hfit hbond (fun s => s.clrCount64 t (D2D_L_TX_FLITS_LO l)) rfl) honly
      ⟨s.cleared64_clrCount64 ht hok, honly⟩
  · have h := s.missClr_effect ht clr
    exact State.gives_of_onlyRegs (onTile_live (f := fun s => s.missClr t clr.toNat) hlive hfit) h.2 h
  · exact onTile (fun s => s.clrCount t (LNK_LANE_SYNC_ERR n)) rfl rfl (wordsDiffer_singleton (by simp only [Fld.ok, LNK_LANE_SYNC_ERR]; omega))
  · have h := s.clrPrbs_effect ht n
    exact State.gives_of_onlyRegs
      (onTile_live (f := fun s => (s.clrCount64 t (LNK_LANE_PRBS_ERR_LO n)).clrCount64 t (LNK_LANE_PRBS_BITS_LO n)) hlive hfit) h.2.2 h
  · exact onTile (fun s => s.clrCount t (LNK_PORT_FAILS p)) rfl rfl (wordsDiffer_singleton (by simp only [Fld.ok, LNK_PORT_FAILS]; omega))
  · exact onTile (fun s => s.clrCount t (LNK_PORT_DROPS p)) rfl rfl (wordsDiffer_singleton (by simp only [Fld.ok, LNK_PORT_DROPS]; omega))
  · exact onTile (fun s => [0, 1, 2, 3].foldl (fun s u => s.clrCount t (FXL_PORT_LINES p u)) s) rfl rfl (by unfold wordsDiffer Fld.ok; decide +revert +kernel)
  · exact onTile (fun s => s.clrCount t (FXL_PORT_CRC_ERR p)) rfl rfl (wordsDiffer_singleton (by simp only [Fld.ok, FXL_PORT_CRC_ERR]; omega))
  · exact onTile (fun s => s.clrCount t (FXL_PORT_FRAME_ERR p)) rfl rfl (wordsDiffer_singleton (by simp only [Fld.ok, FXL_PORT_FRAME_ERR]; omega))
  · exact onTile (fun s => s.clrCount t (FXL_PORT_DISCARD p)) rfl rfl (wordsDiffer_singleton (by simp only [Fld.ok, FXL_PORT_DISCARD]; omega))
  · exact onTile (fun s => s.clrCount t (FXL_PORT_TRIG p)) rfl rfl (wordsDiffer_singleton (by simp only [Fld.ok, FXL_PORT_TRIG]; omega))
  · exact onTile (fun s => s.ingClr t p) rfl (by simp [State.ingClr]) (by unfold wordsDiffer Fld.ok; decide +revert +kernel)
  · exact onTile (fun s => s.expClr t) rfl (by simp [State.expClr]) (by unfold wordsDiffer Fld.ok; decide +kernel)
  · exact onTile (fun s => s.stiClr t) rfl (by simp [State.stiClr, List.foldl_flatMap]) (by unfold wordsDiffer Fld.ok; decide +kernel)
  · exact onTile (fun s => s.refClr t) rfl (by simp [State.refClr, List.foldl_flatMap]) (by unfold wordsDiffer Fld.ok; decide +kernel)
  · exact onTile (fun s => s.segClr t) rfl (by simp [State.segClr, List.foldl_flatMap]) (by unfold wordsDiffer Fld.ok; decide +kernel)
  · have h := s.engClr_effect ht
    exact State.gives_of_onlyRegs (onTile_live (f := fun s => s.engClr t) hlive hfit) h.2 h
  · exact onTile (fun s => s.queClr t) rfl (s.queClr_eq t) wordsDiffer_que
  · exact onTile (fun s => s.firClr t) rfl (by simp [State.firClr, List.foldl_flatMap]) (by unfold wordsDiffer Fld.ok; decide +kernel)
  · exact State.clears_onTile hlive hp (by omega) (fun s => s.ethClr p) rfl rfl (by unfold wordsDiffer Fld.ok; decide +kernel)
  · exact lead s.colClr rfl rfl (by unfold wordsDiffer Fld.ok; decide +kernel)
  · exact lead s.chnClr rfl rfl (by unfold wordsDiffer Fld.ok; decide +kernel)
  · exact lead s.outClr rfl (by simp [State.outClr, List.foldl_flatMap]) (by unfold wordsDiffer Fld.ok; decide +kernel)
  · exact lead s.posClr rfl (by simp [State.posClr, List.foldl_flatMap, show List.range 2 = [0, 1] from rfl]) (by unfold wordsDiffer Fld.ok; decide +kernel)

end Sys2Proof.Machine
end

section
/-! SUPPORT. An engine instruction that completes, narrowing and the lane-wise vector instructions (R251 to R254). -/

namespace Sys2Proof.Machine

/-! Registers of an engine after a write of some (R237, R238). -/

theorem State.engOf_updEng_same (s : State) (t n : Nat) (f : EngState → EngState) : (s.updEng t n f).engOf t n = f (s.engOf t n) := by
  simp only [State.engOf, State.updEng, State.updEngs, smUpd, smGet_set_same]

theorem State.engOf_updEng_ne (s : State) {t n t' n' : Nat} (f : EngState → EngState) (h : engKey t n ≠ engKey t' n') :
    (s.updEng t' n' f).engOf t n = s.engOf t n := by
  simp only [State.engOf, State.updEng, State.updEngs, smUpd]
  exact smGet_set_ne _ _ _ _ h

theorem engKey_ne {x e : EngineId} (h : x ≠ e) : engKey x.tile x.t ≠ engKey e.tile e.t := by
  intro hk
  unfold engKey at hk
  obtain ⟨xt, xn⟩ := x
  obtain ⟨et, en⟩ := e
  apply h
  simp only [EngineId.mk.injEq, Fin.ext_iff] at hk ⊢
  omega

theorem State.engOf_after (s s' : State) (t n : Nat) : (s.after s').engOf t n = s'.engOf t n := rfl
theorem State.engOf_wr (s : State) (t' : Nat) (f : Fld) (v t n : Nat) : (s.wr t' f v).engOf t n = s.engOf t n := rfl

/-- A fold of writes at distinct places of a sparse map: the place `p + j` of the first `n` is written where `on` holds. -/
theorem smGet_foldl_set (p : Nat) (on : Nat → Bool) (g : Nat → Nat) (m : List (Nat × Nat)) (n j : Nat) :
    smGet 0 j ((List.range n).foldl (fun m k => if on k then smSet 0 (p + k) (g k) m else m) m) =
      if p ≤ j ∧ j < p + n ∧ on (j - p) then g (j - p) else smGet 0 j m := by
  induction n with
  | zero => simp only [List.range_zero, List.foldl_nil]; rw [if_neg (by omega)]
  | succ n ih =>
    rw [List.range_succ, List.foldl_append, List.foldl_cons, List.foldl_nil]
    by_cases hj : j = p + n
    · subst hj
      by_cases hon : on n <;> simp [hon, ih]
    · have hs : (p ≤ j ∧ j < p + (n + 1) ∧ on (j - p)) ↔ (p ≤ j ∧ j < p + n ∧ on (j - p)) := by
        constructor <;> rintro ⟨a, b, c⟩ <;> exact ⟨a, by omega, c⟩
      simp only [hs, ← ih]
      split
      · exact smGet_set_ne _ _ _ _ hj
      · rfl

/-- A lane after a write of the lanes of a vector register that take part. -/
theorem EngState.lane_setV (x : EngState) (d r : VReg) (on : Nat → Bool) (f : Nat → Nat) {k : Nat} (hk : k < 16) :
    (x.setV d on f).lane r k = if r = d ∧ on k then f k % 2 ^ 24 else x.lane r k := by
  simp only [EngState.lane, EngState.setV, smGet_foldl_set (16 * d.val)]
  by_cases hr : r = d
  · subst hr
    have h1 : 16 * r.val ≤ 16 * r.val + k := by omega
    have h2 : 16 * r.val + k < 16 * r.val + 16 := by omega
    have h3 : 16 * r.val + k - 16 * r.val = k := by omega
    simp only [h1, h2, h3, true_and]
    split <;> simp
  · have : r.val ≠ d.val := fun h => hr (Fin.ext h)
    rw [if_neg (by omega), if_neg (by simp [hr])]

/-- A predicate after a write of one. -/
theorem EngState.pred_setP (x : EngState) (p z : PReg) (v : Nat) : (x.setP p v).pred z = if z = p then v % 2 ^ 16 else x.pred z := by
  simp only [EngState.pred, EngState.setP, smGet_set]
  by_cases h : z = p
  · simp [h]
  · have : z.val ≠ p.val := fun h' => h (Fin.ext h')
    simp [h, this]

/-! An instruction that completes (R251, R255). -/

theorem ENG_E_STATUS_WAIT_ok {e : Nat} (h : e < 128) : (ENG_E_STATUS_WAIT e).ok := by
  simp only [Fld.ok, ENG_E_STATUS_WAIT]; omega

theorem ENG_E_DBG_BP_EN_ok {e : Nat} (h : e < 128) : (ENG_E_DBG_BP_EN e).ok := by
  simp only [Fld.ok, ENG_E_DBG_BP_EN]; omega

/-- With no breakpoint set the engine goes on: its program counter is set and WAIT reads 0. -/
theorem State.engGo_eq (s : State) {t e : Nat} (pc : Nat) (ht : t < 8) (he : e < 128) (hbp : ¬ s.is t (ENG_E_DBG_BP_EN e)) :
    s.engGo t e pc = (s.updEng t e fun x => { x with pc := pc }).wr t (ENG_E_STATUS_WAIT e) 0 := by
  have hap : (ENG_E_DBG_BP_EN e).apart (ENG_E_STATUS_WAIT e) := .inr (.inl (by simp only [ENG_E_DBG_BP_EN, ENG_E_STATUS_WAIT]; omega))
  have hz : ((s.updEng t e fun x => { x with pc := pc }).wr t (ENG_E_STATUS_WAIT e) 0).is t (ENG_E_DBG_BP_EN e) = false := by
    rw [Bool.not_eq_true] at hbp
    rw [← hbp]
    simp only [State.is]
    rw [State.rd_wr_ne _ _ ht ht (ENG_E_DBG_BP_EN_ok he) (ENG_E_STATUS_WAIT_ok he) (.inr hap), State.rd_updEng]
  simp [State.engGo, State.bpHalt, hz]

/-- An engine that is ready runs an instruction whose outcome is a change `f` of its own registers: it completes. -/
theorem State.engRuns_updEng {s : State} {e : EngineId} {i : Instr} {r : State → EngState → EngRes} {f : EngState → EngState}
    {P : EngState → Prop} (h : s.engReady e) (hi : exec i s = engAnswer e r s)
    (hr : r s (s.engOf e.tile e.t) = .next (s.updEng e.tile e.t f)) (hpc : (f (s.engOf e.tile e.t)).pc = (s.engOf e.tile e.t).pc)
    (hP : P { f (s.engOf e.tile e.t) with pc := (s.engOf e.tile e.t).pc + 1 }) : s.engRuns i e noWord P := by
  obtain ⟨hlive, hfit, hlock, hiss, hlt, hbp⟩ := h
  have ht : e.tile.val < 8 := e.tile.isLt
  have he : e.t.val < 128 := e.t.isLt
  let v := s.updEng e.tile e.t f
  let u := (v.updEng e.tile e.t fun x => { x with pc := (s.engOf e.tile e.t).pc + 1 }).wr e.tile (ENG_E_STATUS_WAIT e.t) 0
  have hrun : s.engRun e.tile e.t r = u := by
    simp only [State.engRun, hr]
    rw [if_neg (by omega)]
    exact State.engGo_eq _ _ ht he hbp
  refine ⟨s.after u, ?_, ?_, ?_, ?_, rfl, ?_⟩
  · rw [hi, engAnswer, whenEv_live hlive (by simp [hfit, hlock, hiss]), hrun]
  · rw [State.engOf_after, State.engOf_wr, State.engOf_updEng_same, State.engOf_updEng_same]
    exact hP
  · rw [State.rd_after, State.rd_wr _ _ _ _ (ENG_E_STATUS_WAIT_ok he)]
    exact Nat.zero_mod _
  · have hw := (State.onlyRegs_wr (K := ((ENG_E_STATUS e.t).wordAt e.tile).or noWord)
      (v.updEng e.tile e.t fun x => { x with pc := (s.engOf e.tile e.t).pc + 1 }) 0 ht (ENG_E_STATUS_WAIT_ok he) (.inl ⟨rfl, rfl, rfl⟩)).2
    exact State.sameWords_trans (State.sameWords_of_regs rfl _) hw
  · intro x hx
    rw [State.engOf_after, State.engOf_wr, State.engOf_updEng_ne _ _ (engKey_ne hx), State.engOf_updEng_ne _ _ (engKey_ne hx)]

/-! Narrowing (R253). -/

theorem uNat_lt (n : Nat) (x : Int) : uNat n x < 2 ^ n := by
  have h : (0 : Int) < ((2 ^ n : Nat) : Int) := by positivity
  have h1 := Int.emod_nonneg x h.ne'
  have h2 := Int.emod_lt_of_pos x h
  unfold uNat; omega

theorem narrow_lt (m : Nat) (x : Int) (k : Nat) : narrow m x k < 2 ^ 24 := by
  unfold narrow; split <;> exact uNat_lt 24 _

theorem clampI_mem {lo hi : Int} (h : lo ≤ hi) (x : Int) : lo ≤ clampI lo hi x ∧ clampI lo hi x ≤ hi := by
  unfold clampI; split_ifs <;> omega

/-- A number of the signed 24-bit range survives its two's complement. -/
theorem sInt_uNat_24 {y : Int} (h1 : -2 ^ 23 ≤ y) (h2 : y ≤ 2 ^ 23 - 1) : sInt 24 (uNat 24 y) = y := by
  unfold sInt uNat
  norm_num at *
  split_ifs <;> omega

/-- A number of the unsigned 24-bit range survives its passage through a lane. -/
theorem cast_uNat_24 {y : Int} (h1 : 0 ≤ y) (h2 : y ≤ 2 ^ 24 - 1) : (uNat 24 y : Int) = y := by
  unfold uNat
  norm_num at *
  omega

theorem narrow_zero (x : Int) (k : Nat) : narrow 0 x k = ((x / 2 ^ k) % 2 ^ 24).toNat := by
  simp only [narrow, uNat]
  norm_num

theorem laneVal_narrow (x : Int) (k : Nat) {m : Nat} (h1 : 1 ≤ m) (h2 : m ≤ 2) :
    laneVal m (narrow m x k) = clampI (if m = 1 then -2 ^ 23 else 0) (if m = 1 then 2 ^ 23 - 1 else 2 ^ 24 - 1) (roundShr x k) := by
  obtain rfl | rfl : m = 1 ∨ m = 2 := by omega
  · obtain ⟨hlo, hhi⟩ := clampI_mem (show (-2 ^ 23 : Int) ≤ 2 ^ 23 - 1 by norm_num) (roundShr x k)
    exact sInt_uNat_24 hlo hhi
  · obtain ⟨hlo, hhi⟩ := clampI_mem (show (0 : Int) ≤ 2 ^ 24 - 1 by norm_num) (roundShr x k)
    exact cast_uNat_24 hlo hhi

/-! Lane-wise instructions (R253, R254). -/

/-- An instruction that writes the lanes of a vector register which `on` picks, by values of 24 bits. -/
theorem State.engLanes_putV {s : State} {e : EngineId} {i : Instr} {r : State → EngState → EngRes} {d : VReg} {on : Nat → Bool} {f : Nat → Nat}
    (h : s.engReady e) (hi : exec i s = engAnswer e r s) (hr : r s (s.engOf e.tile e.t) = .next (s.putV e.tile e.t d on f))
    (hf : ∀ k < 16, f k < 2 ^ 24) : s.engLanes i e d on f := by
  unfold State.engLanes
  refine State.engRuns_updEng (f := fun x => x.setV d on f) h hi hr rfl ⟨rfl, fun z k hk => ?_⟩
  rw [← Nat.mod_eq_of_lt (hf k hk)]
  exact EngState.lane_setV _ _ _ _ _ hk

theorem EngState.lane_lt (x : EngState) (r k : Nat) : x.lane r k < 2 ^ 24 := Nat.mod_lt _ (by norm_num)

/-! SORT8 (R254). -/

theorem insertBy_perm (le : α → α → Bool) (x : α) (l : List α) : (insertBy le x l).Perm (x :: l) := by
  induction l with
  | nil => exact .refl _
  | cons y l ih =>
    simp only [insertBy]
    split
    · exact (ih.cons y).trans (.swap x y l)
    · exact .refl _

theorem sortBy_perm (le : α → α → Bool) (l : List α) : (sortBy le l).Perm l := by
  suffices h : ∀ a : List α, (l.foldl (fun a x => insertBy le x a) a).Perm (a ++ l) from h []
  induction l with
  | nil => intro a; simp
  | cons x l ih =>
    intro a
    exact (ih _).trans (((insertBy_perm le x a).append_right l).trans List.perm_middle.symm)

theorem insertBy_sorted (v : α → Int) (x : α) {l : List α} (h : l.Pairwise fun a b => v a ≤ v b) :
    (insertBy (fun a b => decide (v a ≤ v b)) x l).Pairwise fun a b => v a ≤ v b := by
  induction l with
  | nil => simp [insertBy]
  | cons y l ih =>
    obtain ⟨hy, hl⟩ := List.pairwise_cons.1 h
    simp only [insertBy]
    split
    · next hyx =>
      refine List.pairwise_cons.2 ⟨fun z hz => ?_, ih hl⟩
      rcases List.mem_cons.1 ((insertBy_perm _ x l).mem_iff.1 hz) with rfl | hz
      · exact of_decide_eq_true hyx
      · exact hy z hz
    · next hyx =>
      have hxy : v x ≤ v y := by simp only [decide_eq_true_eq] at hyx; omega
      refine List.pairwise_cons.2 ⟨fun z hz => ?_, h⟩
      rcases List.mem_cons.1 hz with rfl | hz
      · exact hxy
      · exact hxy.trans (hy z hz)

theorem sortLanes_sorted (m : Nat) (l : List Nat) : (sortLanes m l).Pairwise fun a b => laneVal m a ≤ laneVal m b := by
  suffices h : ∀ a : List Nat, a.Pairwise (fun a b => laneVal m a ≤ laneVal m b) →
      (l.foldl (fun a x => insertBy (fun a b => decide (laneVal m a ≤ laneVal m b)) x a) a).Pairwise fun a b => laneVal m a ≤ laneVal m b from
    h [] .nil
  induction l with
  | nil => exact fun a ha => ha
  | cons x l ih => exact fun a ha => ih _ (insertBy_sorted (laneVal m) x ha)

/-- The eight lanes of half `h` of a vector register. -/
theorem EngState.lanes_half (x : EngState) (r : Nat) {h : Nat} (hh : h < 2) :
    ((x.lanes r).drop (8 * h)).take 8 = (List.range 8).map fun k => x.lane r (8 * h + k) := by
  obtain rfl | rfl : h = 0 ∨ h = 1 := by omega
  · rfl
  · rfl

/-! VCMP (R254). -/

theorem testBit_foldl_or (l : List Nat) (a k : Nat) : (l.foldl (fun a i => a ||| 2 ^ i) a).testBit k = (a.testBit k || decide (k ∈ l)) := by
  induction l generalizing a with
  | nil => simp
  | cons x l ih =>
    rw [List.foldl_cons, ih, Nat.testBit_or, Nat.testBit_two_pow]
    simp [Bool.or_assoc, eq_comm]

theorem ofOnes_testBit (l : List Nat) (k : Nat) : (ofOnes l).testBit k = decide (k ∈ l) := by
  rw [ofOnes, testBit_foldl_or, Nat.zero_testBit, Bool.false_or]

/-- The bits of a predicate that a lane-wise test has written. -/
theorem predOf_testBit (on test : Nat → Bool) {k : Nat} (hk : k < 16) : (predOf on test % 2 ^ 16).testBit k = (on k && test k) := by
  rw [Nat.testBit_mod_two_pow, predOf, ofOnes_testBit]
  simp [hk]

/-- What follows from the lanes that an instruction has written. -/
theorem State.engRuns_of_engLanes {s : State} {i : Instr} {e : EngineId} {d : VReg} {on : Nat → Bool} {f : Nat → Nat} {P : EngState → Prop}
    (h : s.engLanes i e d on f) (hP : ∀ y, y = { s.engOf e.tile e.t with v := y.v, pc := (s.engOf e.tile e.t).pc + 1 } →
      (∀ (r : VReg) k, k < 16 → y.lane r k = if r = d ∧ on k then f k else (s.engOf e.tile e.t).lane r k) → P y) : s.engRuns i e noWord P := by
  obtain ⟨u, hu, ⟨heq, hlane⟩, hrest⟩ := h
  exact ⟨u, hu, hP _ heq hlane, hrest⟩

/-- Half `n` of a vector register, sorted. -/
def EngState.sortedHalf (x : EngState) (m a n : Nat) : List Nat := sortLanes m ((List.range 8).map fun k => x.lane a (8 * n + k))

theorem EngState.sortedHalf_perm (x : EngState) (m a n : Nat) :
    (x.sortedHalf m a n).Perm ((List.range 8).map fun k => x.lane a (8 * n + k)) := sortBy_perm _ _

theorem EngState.length_sortedHalf (x : EngState) (m a n : Nat) : (x.sortedHalf m a n).length = 8 := by
  rw [(x.sortedHalf_perm m a n).length_eq]; simp

theorem EngState.getD_sortedHalf_lt (x : EngState) (m a n k : Nat) : (x.sortedHalf m a n).getD k 0 < 2 ^ 24 := by
  by_cases hk : k < (x.sortedHalf m a n).length
  · rw [List.getD_eq_getElem _ _ hk]
    obtain ⟨j, -, hj⟩ := List.mem_map.1 ((x.sortedHalf_perm m a n).mem_iff.1 (List.getElem_mem hk))
    rw [← hj]; exact x.lane_lt _ _
  · rw [List.getD_eq_default _ _ (by omega)]; norm_num

/-- A lane's value under SORT8 is that of its place in its sorted half. -/
theorem EngState.sort8_lane (x : EngState) (m a : Nat) {n k : Nat} (hn : n < 2) (hk : k < 8) :
    (sortLanes m (((x.lanes a).drop ((8 * n + k) / 8 * 8)).take 8)).getD ((8 * n + k) % 8) 0 = (x.sortedHalf m a n).getD k 0 := by
  have hdiv : (8 * n + k) / 8 * 8 = 8 * n := by omega
  have hmod : (8 * n + k) % 8 = k := by omega
  rw [hdiv, hmod, EngState.lanes_half x a hn, EngState.sortedHalf]

theorem EngState.map_getD_sortedHalf (x : EngState) (m a n : Nat) :
    (List.range 8).map (fun k => (x.sortedHalf m a n).getD k 0) = x.sortedHalf m a n := by
  refine List.ext_getElem (by simp [x.length_sortedHalf]) fun k h1 h2 => ?_
  rw [List.getElem_map, List.getElem_range, List.getD_eq_getElem _ _ h2]

theorem EngState.sortedHalf_rises (x : EngState) (m a n : Nat) {k : Nat} (hk : k < 7) :
    laneVal m ((x.sortedHalf m a n).getD k 0) ≤ laneVal m ((x.sortedHalf m a n).getD (k + 1) 0) := by
  have hlen := x.length_sortedHalf m a n
  rw [List.getD_eq_getElem _ _ (show k < _ by omega), List.getD_eq_getElem _ _ (show k + 1 < _ by omega)]
  exact List.pairwise_iff_getElem.1 (sortLanes_sorted m _) k (k + 1) _ _ (by omega)

/-- SORT8 under a legal M: where all lanes take part each half is sorted in place. -/
theorem State.engSort8_sorts {s : State} {e : EngineId} (d a : VReg) {c : VCtl} (h : s.engReady e) (hm : c.m ≠ 3) {n : Nat} (hn : n < 2) :
    let x := s.engOf e.tile e.t
    let on := x.laneOn c.p c.pg
    s.engRuns (.engSort8 e d a c) e noWord fun y => y = { x with v := y.v, pc := x.pc + 1 } ∧
      (∀ (z : VReg) k, k < 16 → ¬ (z = d ∧ on k) → y.lane z k = x.lane z k) ∧
      ((∀ k < 16, on k) → ((List.range 8).map fun k => y.lane d (8 * n + k)).Perm ((List.range 8).map fun k => x.lane a (8 * n + k)) ∧
        ∀ k < 7, laneVal c.m (y.lane d (8 * n + k)) ≤ laneVal c.m (y.lane d (8 * n + k + 1))) := by
  intro x on
  refine State.engRuns_of_engLanes (State.engLanes_putV h rfl (if_neg hm) fun k hk => ?_) fun y hy hlane =>
    ⟨hy, fun z k hk hz => (hlane z k hk).trans (if_neg hz), fun hon => ?_⟩
  · have hk' : k = 8 * (k / 8) + k % 8 := by omega
    rw [hk']
    exact (EngState.sort8_lane x c.m a (by omega) (by omega)).trans_lt (EngState.getD_sortedHalf_lt _ _ _ _ _)
  · have hd : ∀ k < 8, y.lane d (8 * n + k) = (x.sortedHalf c.m a n).getD k 0 := fun k hk => by
      rw [hlane d _ (by omega), if_pos ⟨rfl, hon _ (by omega)⟩]
      exact EngState.sort8_lane _ _ _ hn hk
    constructor
    · rw [List.map_congr_left fun k hk => hd k (List.mem_range.1 hk), EngState.map_getD_sortedHalf]
      exact EngState.sortedHalf_perm _ _ _ _
    · intro k hk
      rw [hd k (by omega), Nat.add_assoc, hd (k + 1) (by omega)]
      exact EngState.sortedHalf_rises _ _ _ _ hk

/-- VCMP with a condition of R254 under a legal M. -/
theorem State.engVcmp_tests {s : State} {e : EngineId} (p : PReg) (a b : VReg) {c : VCtl} (h : s.engReady e) (hm : c.m ≠ 3) (hk : c.k.val % 8 ≤ 5) :
    let x := s.engOf e.tile e.t
    s.engRuns (.engVcmp e p a b c) e noWord fun y => y = { x with p := y.p, pc := x.pc + 1 } ∧ (∀ z : PReg, z ≠ p → y.pred z = x.pred z) ∧
      ∀ k < 16, (y.pred p).testBit k = (x.laneOn c.p c.pg k && laneCond (c.k.val % 8) (laneVal c.m (x.lane a k)) (laneVal c.m (x.lane b k))) := by
  intro x
  let test (k : Nat) : Bool := laneCond (c.k.val % 8) (laneVal c.m (x.lane a k)) (laneVal c.m (x.lane b k))
  refine State.engRuns_updEng (f := fun z => z.setP p (predOf (x.laneOn c.p c.pg) test)) h (r := opVcmp e.tile e.t p a b c) rfl
    (if_neg (by rw [not_or]; exact ⟨hm, by omega⟩)) rfl ⟨rfl, fun z hz => ?_, fun k hk => ?_⟩
  · exact (EngState.pred_setP _ _ _ _).trans (if_neg hz)
  · exact (congrArg (·.testBit k) ((EngState.pred_setP _ p p _).trans (if_pos rfl))).trans (predOf_testBit _ test hk)

/-- Settles O45: every lane-wise instruction is `resV` of its lane function, whose values have 24 bits; VSAT, VSLIDE and VSEL have a case of
their own before it. -/
theorem engineVectorLanes : Obligations.EngineVectorLanes := by
  refine ⟨fun x k => ⟨narrow_zero x k, fun m => laneVal_narrow x k⟩, fun s e d a b r p q n c h hm => ?_⟩
  have legal : ∀ {f : EngState → Nat → Nat}, resV e.tile e.t d c f s (s.engOf e.tile e.t) =
      .next (s.putV e.tile e.t d ((s.engOf e.tile e.t).laneOn c.p c.pg) (f (s.engOf e.tile e.t))) := if_neg hm
  refine ⟨State.engLanes_putV h rfl legal fun _ _ => narrow_lt _ _ _, State.engLanes_putV h rfl legal fun _ _ => narrow_lt _ _ _,
    State.engLanes_putV h rfl legal fun _ _ => narrow_lt _ _ _, State.engLanes_putV h rfl legal fun _ _ => uNat_lt _ _,
    State.engLanes_putV h rfl legal fun _ _ => uNat_lt _ _, State.engLanes_putV h rfl legal fun _ _ => narrow_lt _ _ _,
    State.engLanes_putV h rfl legal fun _ _ => narrow_lt _ _ _, State.engLanes_putV h rfl legal fun _ _ => narrow_lt _ _ _,
    fun hm0 => ?_, fun hk => ?_, State.engLanes_putV h rfl legal fun _ _ => EngState.lane_lt _ _ _,
    State.engLanes_putV h rfl legal fun _ _ => Nat.mod_lt _ (Nat.two_pow_pos 24), State.engLanes_putV h rfl legal fun _ _ => narrow_lt _ _ _, ?_,
    fun j hj => State.engSort8_sorts d a h hm hj, fun hk => State.engVcmp_tests p a b h hm hk⟩
  · have h0 : c.m ≠ 0 := fun h0 => hm0 (by rw [h0]; rfl)
    refine State.engLanes_putV (r := opVsat e.tile e.t d a c) h rfl (((if_neg h0).trans legal).trans ?_) fun _ _ => uNat_lt _ _
    simp only [Fin.ext_iff]
    rfl
  · exact State.engLanes_putV (r := opVslide e.tile e.t d a b c) h rfl ((if_neg (by omega)).trans legal) fun k _ => by
      split <;> exact EngState.lane_lt _ _ _
  · exact State.engLanes_putV (r := opVsel e.tile e.t d a b c) h rfl (if_neg hm) fun k _ => by
      split <;> exact EngState.lane_lt _ _ _

end Sys2Proof.Machine
end

section
/-! SUPPORT. Fused registers (R1, R28 to R30, R43, R45): what SYS_ID, SYS_DIE_ID_LO and the routes read, which the identity alone gives. -/

namespace Sys2Proof.Machine

/-- The value that a read of a register answers which no rule refuses, the register being no high half of a pair. -/
theorem State.busRead_value (s : State) (o : Origin) {t blk off : Nat} {r : RegRow} {ix : List Nat} (ht : t < 8) (hb : blk < 0x40)
    (ho : off < 2 ^ 30) (h4 : off % 4 = 0) (hf : s.fit t) (h : findReg blk off = some (r, ix)) (hp : placeOk s.id t r.place)
    (hpair : r.pair ≠ 2) (hr : s.readRefused o ⟨t, blk, off, r, ix⟩ = none) :
    (s.busRead o (addrOf t blk off)).1 = s.regValue ⟨t, blk, off, r, ix⟩ := by
  have hb' : blk < 128 := by omega
  have hw : windowOf (addrOf t blk off) = none := windowOf_low (by rw [addrBlk_addrOf hb' ho]; exact hb)
  unfold State.busRead
  rw [if_neg (by rw [addrOf_mod4, addrTile_addrOf ht hb' ho]; simp [h4, hf]), hw, s.regAt_addrOf ht hb' ho h, if_pos hp]
  simp only [hr, State.regRead, hpair, if_false]
  split <;> rfl

/-- A read of a tile that is not fitted gives 0 (R7). -/
theorem State.busRead_unfitted (s : State) (o : Origin) {t blk off : Nat} (ht : t < 8) (hb : blk < 128) (ho : off < 2 ^ 30) (hf : ¬ s.fit t) :
    (s.busRead o (addrOf t blk off)).1 = 0 := by
  unfold State.busRead
  rw [if_pos (.inr (by rw [addrTile_addrOf ht hb ho]; simpa using hf))]

/-- The SYS registers and the D2D registers read by their own rule. -/
theorem State.readWord_sys (s : State) {r : RegRef} (w : Nat) (h : r.blk = 0) : s.readWord r w = s.readSys r w := by
  simp only [State.readWord, h]

theorem State.readWord_d2d (s : State) {r : RegRef} (w : Nat) (h : r.blk = 0x1B) : s.readWord r w = s.readD2d r w := by
  simp only [State.readWord, h]

/-- SYS_ID of a fitted tile (R43). -/
theorem State.busRead_sysId (s : State) (o : Origin) {t : Nat} (ht : t < 8) (hf : s.fit t) :
    (s.busRead o (addrOf t SYS_ID.blk SYS_ID.off)).1 = (s.id.variant.part * 256 + s.id.stepping.code) * 256 + t * 16 + s.id.variant.tiles := by
  rw [s.busRead_value o (r := rowsSYS[0]) (ix := []) ht (by decide) (by decide) rfl hf (by decide) hf (by decide) rfl]
  rw [State.regValue, State.readWord_sys _ _ rfl]
  exact if_pos rfl

/-- SYS_DIE_ID_LO of a fitted tile (R43). -/
theorem State.busRead_dieIdLo (s : State) (o : Origin) {t : Nat} (ht : t < 8) (hf : s.fit t) :
    (s.busRead o (addrOf t SYS_DIE_ID_LO.blk SYS_DIE_ID_LO.off)).1 = s.id.dieIds.getD t 0 % 2 ^ 32 := by
  rw [s.busRead_value o (r := rowsSYS[1]) (ix := []) ht (by decide) (by decide) rfl hf (by decide) hf (by decide) rfl]
  rw [State.regValue, State.readWord_sys _ _ rfl]
  exact (if_neg Bool.false_ne_true).trans (if_pos rfl)

theorem findReg_route : ∀ k < 8, findReg (D2D_ROUTE k).blk (D2D_ROUTE k).off = some (rowsD2D[7], [k]) := by decide

/-- D2D_ROUTE_k of a fitted tile (R45). -/
theorem State.busRead_route (s : State) (o : Origin) {t k : Nat} (ht : t < 8) (hk : k < 8) (hf : s.fit t) :
    (s.busRead o (addrOf t (D2D_ROUTE k).blk (D2D_ROUTE k).off)).1 =
      if s.fit k then s.id.routeLink t k + 16 * s.id.hops t k + 256 + 512 * bitN (s.id.variant == .lyn820 && t != k) else 0 := by
  have hoff : (D2D_ROUTE k).off = 0x100 + 4 * k := rfl
  have hlow : ¬ (D2D_ROUTE k).off < (D2D_ROUTE 0).off := by rw [hoff]; show ¬ _ < 256; omega
  rw [s.busRead_value o ht (show (D2D_ROUTE k).blk < 0x40 from (by decide : 0x1B < 0x40)) (by omega) (by omega) hf (findReg_route k hk) hf (by decide) rfl, State.regValue,
    State.readWord_d2d _ _ rfl]
  exact if_neg hlow

/-- What the fused registers read depends on the fused identity alone. -/
theorem State.fusedWords_congr {s u : State} {t : Nat} (ht : t < 8) (h : u.id = s.id) : u.fusedWords t = s.fusedWords t := by
  have hfit : ∀ k, u.fit k = s.fit k := fun k => congrArg (fun d : Ident => d.fitted k) h
  refine List.map_congr_left fun f hmem => ?_
  have hin : ∀ f ∈ [SYS_ID, SYS_DIE_ID_LO] ++ (List.range 8).map D2D_ROUTE, f.blk < 128 ∧ f.off < 2 ^ 30 := by decide
  obtain ⟨hblk, hoff⟩ := hin f hmem
  by_cases hf : s.fit t
  · have hfu : u.fit t := (hfit t).trans hf
    simp only [List.mem_append, List.mem_cons, List.not_mem_nil, or_false, List.mem_map, List.mem_range] at hmem
    obtain (rfl | rfl) | ⟨k, hk, rfl⟩ := hmem
    · rw [s.busRead_sysId _ ht hf, u.busRead_sysId _ ht hfu, h]
    · rw [s.busRead_dieIdLo _ ht hf, u.busRead_dieIdLo _ ht hfu, h]
    · rw [s.busRead_route _ ht hk hf, u.busRead_route _ ht hk hfu, h, hfit k]
  · rw [s.busRead_unfitted _ ht hblk hoff hf, u.busRead_unfitted _ ht hblk hoff (by rwa [hfit t])]

/-- Settles O4: every step keeps the identity, and the fused registers read nothing else. -/
theorem everyStepKeepsFusedRegisters : Obligations.EveryStepKeepsFusedRegisters := fun _ _ t h =>
  State.fusedWords_congr t.isLt (step_id h)

/-- Settles O5, from what SYS_ID reads on a fitted tile. -/
theorem identityRegistersRead : Obligations.IdentityRegistersRead := by
  refine ⟨fun s t hf => ⟨(s.busRead_sysId .firmware t.isLt hf).trans (by ring), ?_⟩, fun t => ?_⟩
  · cases s.id.variant with
    | lyn820 => exact .inl ⟨rfl, rfl, rfl⟩
    | lyn840 => exact .inr (.inl ⟨rfl, rfl, rfl⟩)
    | lyn880 => exact .inr (.inr ⟨rfl, rfl, rfl⟩)
  · have hf : State.reset.fit t := decide_eq_true t.isLt
    refine ⟨hf, (State.reset.busRead_sysId .firmware t.isLt hf).trans ?_⟩
    show (0x0880 * 256 + 0x11) * 256 + t.val * 16 + 8 = _
    omega

end Sys2Proof.Machine
end

section
/-! SUPPORT. Cerette links (R27 to R34, R45): the two ends of a link, what each operation does to an end, packets and retraining. -/

namespace Sys2Proof.Machine

variable {s u v : State} {K : WordSet}

/-! Frames of operations that change more than registers. -/

/-- The newest band's bank stays, and so does every register word outside the set. -/
def State.keeps (s u : State) (K : WordSet) : Prop := u.bank = s.bank ∧ s.sameWords u K

theorem State.keeps_trans (h : s.keeps u K) (h' : u.keeps v K) : s.keeps v K := ⟨h'.1.trans h.1, State.sameWords_trans h.2 h'.2⟩

theorem State.keeps_mono {L : WordSet} (h : s.keeps u K) (hs : ∀ t k o, K t k o → L t k o) : s.keeps u L := ⟨h.1, State.sameWords_mono h.2 hs⟩

theorem State.keeps_of_regs (h : u.regs = s.regs) (hb : u.bank = s.bank) (K : WordSet) : s.keeps u K := ⟨hb, State.sameWords_of_regs h K⟩

theorem State.keeps_of_onlyRegs (h : s.onlyRegs u K) : s.keeps u K := ⟨by rw [h.1], h.2⟩

/-- A field outside the words that have changed. -/
theorem State.rd_of_keeps (h : s.keeps u K) {t : Nat} {f : Fld} (ht : t < 8) (hf : f.ok) (hK : ¬ K t f.blk f.off) : u.rd t f = s.rd t f := by
  obtain ⟨-, -, hblk, hoff⟩ := hf
  unfold State.rd State.rdB
  rw [h.1, h.2 _ _ _ _ ht hblk hoff hK]

/-! The two ends of a link (R28). -/

/-- A part of a variant: the topology is that of every part of the variant. -/
def Variant.plain (v : Variant) : Ident := ⟨v, .a0, [], 0, 0⟩

theorem Variant.plain_neighbour : ∀ v ∈ [Variant.lyn820, .lyn840, .lyn880], ∀ t < v.tiles, ∀ n < 3, ∀ c ∈ v.plain.neighbour t n,
    t < 8 ∧ c < 8 ∧ c ≠ t ∧ c < v.tiles ∧ v.plain.farLink n < 3 ∧ v.plain.farLink (v.plain.farLink n) = n ∧
      v.plain.neighbour c (v.plain.farLink n) = some t := by decide

/-- The link at the other end of a bonded link: a link of another fitted tile, whose far end is this one. -/
theorem Ident.neighbour_spec (d : Ident) {t n c : Nat} (h : d.neighbour t n = some c) :
    t < 8 ∧ c < 8 ∧ c ≠ t ∧ d.fitted t ∧ d.fitted c ∧ n < 3 ∧ d.farLink n < 3 ∧ d.farLink (d.farLink n) = n ∧
      d.neighbour c (d.farLink n) = some t := by
  have hfit : d.fitted t := by
    by_contra hf
    simp [Ident.neighbour, hf] at h
  have hn : n < 3 := by
    by_contra hn
    obtain ⟨k, rfl⟩ : ∃ k, n = k + 3 := ⟨n - 3, by omega⟩
    simp only [Ident.neighbour, hfit] at h
    cases hv : d.variant <;> simp [hv] at h
  obtain ⟨ht, hc, hne, hcf, hm, hfar, hback⟩ :=
    Variant.plain_neighbour d.variant (by cases d.variant <;> simp) t (of_decide_eq_true hfit) n hn c h
  exact ⟨ht, hc, hne, hfit, decide_eq_true hcf, hn, hm, hfar, hback⟩

theorem State.linkEnds_eq {t n c : Nat} (h : s.id.neighbour t n = some c) : s.linkEnds t n = [(t, n), (c, s.id.farLink n)] := by
  rw [State.linkEnds, h]

theorem State.farEnd_eq {t n c : Nat} (h : s.id.neighbour t n = some c) : s.farEnd t n = (c, s.id.farLink n) := by
  rw [State.farEnd, State.linkEnds_eq h]; rfl

theorem State.bothEnds_eq {t n c : Nat} (h : s.id.neighbour t n = some c) (f : Nat → Nat → State → State) :
    s.bothEnds t n f = f c (s.id.farLink n) (f t n s) := by
  rw [State.bothEnds, State.linkEnds_eq h]; rfl

theorem State.ends_lt {t n c : Nat} (h : s.id.neighbour t n = some c) {x : Nat × Nat} (hx : x ∈ [(t, n), (c, s.id.farLink n)]) :
    x.1 < 8 ∧ x.2 < 3 := by
  obtain ⟨ht, hc, -, -, -, hn, hm, -, -⟩ := s.id.neighbour_spec h
  simp only [List.mem_cons, List.not_mem_nil, or_false] at hx
  rcases hx with rfl | rfl
  · exact ⟨ht, hn⟩
  · exact ⟨hc, hm⟩

/-- What a link keeps beside its registers, after a change of one link. -/
theorem State.link_updLink (s : State) (t n t' n' : Nat) (f : LinkState → LinkState) :
    (s.updLink t n f).link t' n' = if t' * 4 + n' = t * 4 + n then f (s.link t' n') else s.link t' n' := by
  unfold State.link State.updLink smUpd
  rw [smGet_set]
  split
  · next h => rw [h]
  · rfl

@[simp] theorem State.link_updLink_same (s : State) (t n : Nat) (f : LinkState → LinkState) : (s.updLink t n f).link t n = f (s.link t n) := by
  rw [State.link_updLink, if_pos rfl]

theorem State.link_updLink_ne (s : State) {t n t' n' : Nat} (f : LinkState → LinkState) (h : t' ≠ t) (hn : n < 3) (hn' : n' < 3) :
    (s.updLink t n f).link t' n' = s.link t' n' := by
  rw [State.link_updLink, if_neg (by omega)]

theorem State.link_congr (h : u.links = s.links) (t n : Nat) : u.link t n = s.link t n := by rw [State.link, h]; rfl

/-- Register words, what the cycle remembers of them, and what the links keep are all that differs. -/
def State.onlyLinks (s u : State) : Prop := u = { s with regs := u.regs, cyc := u.cyc, links := u.links }

theorem State.onlyLinks_trans (h : s.onlyLinks u) (h' : u.onlyLinks v) : s.onlyLinks v := by
  have e := h'
  unfold State.onlyLinks at h e ⊢
  rw [h] at e
  exact e

theorem State.onlyLinks_of_onlyRegs (h : s.onlyRegs u K) : s.onlyLinks u := by
  have e := h.1
  unfold State.onlyLinks
  rw [e]

theorem State.onlyLinks_updLink (s : State) (t n : Nat) (f : LinkState → LinkState) : s.onlyLinks (s.updLink t n f) := rfl

theorem State.onlyLinks.id (h : s.onlyLinks u) : u.id = s.id := by rw [h]
theorem State.onlyLinks.mem (h : s.onlyLinks u) : u.mem = s.mem := by rw [h]
theorem State.onlyLinks.net (h : s.onlyLinks u) : u.net = s.net := by rw [h]
theorem State.onlyLinks.pwr (h : s.onlyLinks u) : u.pwr = s.pwr := by rw [h]
theorem State.onlyLinks.bank (h : s.onlyLinks u) : u.bank = s.bank := by rw [h]

/-! The order of the packets of a pair (R28). -/

/-- Nothing differs but the order that the links of a pair keep of their packets. -/
def State.onlyOrder (s u : State) : Prop :=
  u = { s with links := u.links } ∧
    ∀ a n, u.link a n = { s.link a n with early := (u.link a n).early, send := (u.link a n).send, recv := (u.link a n).recv }

theorem State.onlyOrder_refl (s : State) : s.onlyOrder s := ⟨rfl, fun _ _ => rfl⟩

theorem State.onlyOrder_trans (h : s.onlyOrder u) (h' : u.onlyOrder v) : s.onlyOrder v := by
  refine ⟨?_, fun a n => ?_⟩
  · have e := h'.1
    rw [h.1] at e
    exact e
  · have e := h'.2 a n
    rw [h.2 a n] at e
    exact e

theorem State.onlyOrder_updLink (s : State) (t n : Nat) {f : LinkState → LinkState}
    (hf : ∀ x, f x = { x with early := (f x).early, send := (f x).send, recv := (f x).recv }) : s.onlyOrder (s.updLink t n f) := by
  refine ⟨rfl, fun a k => ?_⟩
  rw [State.link_updLink]
  split
  · exact hf _
  · rfl

theorem State.onlyOrder_linkTurn (s : State) (t n : Nat) : s.onlyOrder (s.linkTurn t n) := by
  unfold State.linkTurn
  split
  · exact s.onlyOrder_updLink _ _ fun _ => rfl
  · exact s.onlyOrder_refl

theorem State.onlyOrder_pairDeliver (s : State) (t k : Nat) : s.onlyOrder (s.pairDeliver t k) := by
  induction k generalizing s with
  | zero => exact s.onlyOrder_refl
  | succ k ih =>
    unfold State.pairDeliver
    dsimp only
    split
    · exact s.onlyOrder_refl
    · exact State.onlyOrder_trans (State.onlyOrder_trans (s.onlyOrder_updLink _ _ fun _ => rfl) (State.onlyOrder_updLink _ _ _ fun _ => rfl)) (ih _)

theorem State.onlyOrder_linkTake (s : State) (t n : Nat) (k : Bytes) : s.onlyOrder (s.linkTake t n k) := by
  unfold State.linkTake
  split
  · exact State.onlyOrder_trans (s.onlyOrder_updLink _ _ fun _ => rfl) (State.onlyOrder_pairDeliver _ _ _)
  · exact s.onlyOrder_refl

theorem State.onlyOrder.onlyLinks (h : s.onlyOrder u) : s.onlyLinks u := by
  have e := h.1
  unfold State.onlyLinks
  rw [e]

theorem State.onlyOrder.regs (h : s.onlyOrder u) : u.regs = s.regs := by rw [h.1]

/-! What the statements speak of at one end of a link. -/

/-- An end of a link: its status fields, the flag of its tile, and its queue. -/
structure LinkEnd where
  up : Nat
  training : Nat
  failed : Nat
  retrains : Nat
  d2dFail : Nat
  held : List Bytes
  stalled : List Bytes
  lost : Bool

def State.linkEnd (s : State) (x : Nat × Nat) : LinkEnd :=
  ⟨s.rd x.1 (D2D_L_STATUS_UP x.2), s.rd x.1 (D2D_L_STATUS_TRAINING x.2), s.rd x.1 (D2D_L_STATUS_FAILED x.2),
    s.rd x.1 (D2D_L_STATUS_RETRAINS x.2), s.rd x.1 SYS_ERR_D2D_FAIL, (s.link x.1 x.2).held, (s.link x.1 x.2).stalled, (s.link x.1 x.2).lost⟩

/-- The packets that wait for a link, and whether it has failed since it was last up. -/
def LinkState.queue (x : LinkState) : Bool × List Bytes × List Bytes := (x.lost, x.held, x.stalled)

/-- A field of a link's status word. -/
def statusFld (m hi lo : Nat) : Fld := ⟨0x1b, 0x0 + 0x40 * m, hi, lo⟩

theorem statusFld_eq (m : Nat) : D2D_L_STATUS_UP m = statusFld m 1 1 ∧ D2D_L_STATUS_TRAINING m = statusFld m 2 2 ∧
    D2D_L_STATUS_FAILED m = statusFld m 3 3 ∧ D2D_L_STATUS_RETRAINS m = statusFld m 15 8 := ⟨rfl, rfl, rfl, rfl⟩

theorem statusFld_ok {m hi lo : Nat} (hm : m < 3) (h : lo ≤ hi) (hhi : hi < 32) : (statusFld m hi lo).ok :=
  ⟨h, hhi, show 0x1b < 128 by decide, show 0 + 0x40 * m < 2 ^ 30 by omega⟩

theorem statusFld_apart {m hi lo hi' lo' : Nat} : (statusFld m hi lo).apart (statusFld m hi' lo') ↔ hi < lo' ∨ hi' < lo := by
  simp [Fld.apart, statusFld]

theorem SYS_ERR_D2D_FAIL_ok : SYS_ERR_D2D_FAIL.ok := by unfold Fld.ok; decide

theorem d2dFail_apart (m hi lo : Nat) : SYS_ERR_D2D_FAIL.apart (statusFld m hi lo) ∧ (statusFld m hi lo).apart SYS_ERR_D2D_FAIL :=
  ⟨.inl (show 0 ≠ 0x1b by decide), .inl (show 0x1b ≠ 0 by decide)⟩

/-- An end of a link after a change of other words, its link's queue as it was. -/
theorem State.linkEnd_of_keeps (h : s.keeps u K) {a m : Nat} (ha : a < 8) (hm : m < 3) (hstatus : ¬ K a 0x1b (0x40 * m)) (herr : ¬ K a 0 0x18)
    (hq : (u.link a m).queue = (s.link a m).queue) :
    u.linkEnd (a, m) = s.linkEnd (a, m) := by
  have hst : ∀ hi lo, lo ≤ hi → hi < 32 → u.rd a (statusFld m hi lo) = s.rd a (statusFld m hi lo) := fun hi lo h1 h2 =>
    State.rd_of_keeps h ha (statusFld_ok hm h1 h2) (by rwa [statusFld, Nat.zero_add])
  have hf : u.rd a SYS_ERR_D2D_FAIL = s.rd a SYS_ERR_D2D_FAIL := State.rd_of_keeps h ha SYS_ERR_D2D_FAIL_ok herr
  simp only [LinkState.queue, Prod.mk.injEq] at hq
  obtain ⟨h1, h2, h3⟩ := hq
  simp only [State.linkEnd, statusFld_eq, hf, h1, h2, h3,
    hst 1 1 (by decide) (by decide), hst 2 2 (by decide) (by decide), hst 3 3 (by decide) (by decide), hst 15 8 (by decide) (by decide)]

theorem State.linkEnd_of_links (h : u.regs = s.regs) (hb : u.bank = s.bank) {a m : Nat} (ha : a < 8) (hm : m < 3)
    (hq : (u.link a m).queue = (s.link a m).queue) : u.linkEnd (a, m) = s.linkEnd (a, m) :=
  State.linkEnd_of_keeps (K := fun _ _ _ => False) (State.keeps_of_regs h hb _) ha hm (fun h => h) (fun h => h) hq

theorem State.linkEnd_of_onlyOrder (h : s.onlyOrder u) {a m : Nat} (ha : a < 8) (hm : m < 3) : u.linkEnd (a, m) = s.linkEnd (a, m) :=
  State.linkEnd_of_links h.regs h.onlyLinks.bank ha hm (by rw [h.2 a m]; rfl)

theorem State.onlyRegs.links (h : s.onlyRegs u K) : u.links = s.links := by rw [h.1]

theorem State.linkEnd_of_onlyRegs (h : s.onlyRegs u K) {a m : Nat} (ha : a < 8) (hm : m < 3) (hstatus : ¬ K a 0x1b (0x40 * m))
    (herr : ¬ K a 0 0x18) : u.linkEnd (a, m) = s.linkEnd (a, m) :=
  State.linkEnd_of_keeps (State.keeps_of_onlyRegs h) ha hm hstatus herr (by rw [State.link_congr (State.onlyRegs.links h)])

/-- A change of an end of a link: what it makes of that end, and that it leaves every other. -/
structure EndOp (f : Nat → Nat → State → State) (g : LinkEnd → LinkEnd) : Prop where
  only : ∀ {a m : Nat} (s : State), a < 8 → m < 3 → s.onlyLinks (f a m s)
  eff : ∀ {a m : Nat} (s : State), a < 8 → m < 3 → (f a m s).linkEnd (a, m) = g (s.linkEnd (a, m))
  off : ∀ {a m : Nat} (s : State) {b k : Nat}, a < 8 → m < 3 → b < 8 → k < 3 → b ≠ a → (f a m s).linkEnd (b, k) = s.linkEnd (b, k)

/-- Two changes of an end, one after the other. -/
theorem EndOp.comp {f f' : Nat → Nat → State → State} {g g' : LinkEnd → LinkEnd} (hf : EndOp f g) (hf' : EndOp f' g') :
    EndOp (fun a m s => f' a m (f a m s)) (fun e => g' (g e)) where
  only s ha hm := State.onlyLinks_trans (hf.only s ha hm) (hf'.only _ ha hm)
  eff s ha hm := (hf'.eff _ ha hm).trans (congrArg g' (hf.eff s ha hm))
  off s _ _ ha hm hb hk hne := (hf'.off _ ha hm hb hk hne).trans (hf.off s ha hm hb hk hne)

/-- A change of register words of the end's tile. -/
theorem EndOp.of_regs {f : Nat → Nat → State → State} {g : LinkEnd → LinkEnd}
    (hf : ∀ {a m : Nat} (s : State), a < 8 → m < 3 → s.onlyRegs (f a m s) fun tile _ _ => tile = a)
    (heff : ∀ {a m : Nat} (s : State), a < 8 → m < 3 → (f a m s).linkEnd (a, m) = g (s.linkEnd (a, m))) : EndOp f g where
  only s ha hm := State.onlyLinks_of_onlyRegs (hf s ha hm)
  eff := heff
  off s _ _ ha hm hb hk hne := State.linkEnd_of_onlyRegs (hf s ha hm) hb hk hne hne

/-- A change of what the end keeps beside its registers, its queue left as it is. -/
theorem EndOp.updLink {f : LinkState → LinkState} {lost : Bool → Bool} (hf : ∀ x, (f x).queue = (lost x.lost, x.held, x.stalled)) :
    EndOp (fun a m s => s.updLink a m f) (fun e => { e with lost := lost e.lost }) where
  only s _ _ := s.onlyLinks_updLink _ _ _
  eff {a m} s _ _ := by
    have hq := hf (s.link a m)
    simp only [LinkState.queue, Prod.mk.injEq] at hq
    obtain ⟨h1, h2, h3⟩ := hq
    simp only [State.linkEnd, State.rd_updLink, State.link_updLink_same, h1, h2, h3]
  off s _ _ _ hm hb hk hne := by
    refine State.linkEnd_of_links (s.regs_updLink _ _ f) (s.bank_updLink _ _ f) hb hk ?_
    rw [s.link_updLink_ne f hne hm hk]

/-- Such a change at both ends of a link. -/
theorem EndOp.bothEnds {f : Nat → Nat → State → State} {g : LinkEnd → LinkEnd} (hf : EndOp f g) {s : State} {t n c : Nat}
    (h : s.id.neighbour t n = some c) : s.onlyLinks (s.bothEnds t n f) ∧
      ∀ x ∈ [(t, n), (c, s.id.farLink n)], (s.bothEnds t n f).linkEnd x = g (s.linkEnd x) := by
  obtain ⟨ht, hc, hne, -, -, hn, hm, -, -⟩ := s.id.neighbour_spec h
  rw [State.bothEnds_eq h]
  refine ⟨State.onlyLinks_trans (hf.only _ ht hn) (hf.only _ hc hm), fun x hx => ?_⟩
  simp only [List.mem_cons, List.not_mem_nil, or_false] at hx
  rcases hx with rfl | rfl
  · rw [hf.off _ hc hm ht hn hne.symm, hf.eff _ ht hn]
  · rw [hf.eff _ hc hm, hf.off _ ht hn hc hm hne]

/-! The changes that the operations make (R32, R33, R45). -/

/-- The end leaves service and trains. -/
def endTrain (a m : Nat) (s : State) : State :=
  ((s.clrF a (D2D_L_STATUS_UP m)).setF a (D2D_L_STATUS_TRAINING m)).clrF a (D2D_L_STATUS_FAILED m)

/-- The end is in service. -/
def endUp (a m : Nat) (s : State) : State :=
  ((s.setF a (D2D_L_STATUS_UP m)).clrF a (D2D_L_STATUS_TRAINING m)).clrF a (D2D_L_STATUS_FAILED m)

/-- The end has failed. -/
def endFail (a m : Nat) (s : State) : State :=
  ((s.setF a (D2D_L_STATUS_FAILED m)).clrF a (D2D_L_STATUS_TRAINING m)).setF a SYS_ERR_D2D_FAIL

/-- A flag of a link set or cleared, behind other changes. -/
theorem State.onlyRegs_flags {u : State} {a m n : Nat} (ha : a < 8) (hm : m < 3) (hn : n ≤ 3) (hK : K a 0x1b (0x0 + 0x40 * m)) (h : s.onlyRegs u K) :
    s.onlyRegs (u.setF a (statusFld m n n)) K ∧ s.onlyRegs (u.clrF a (statusFld m n n)) K :=
  have hok : (statusFld m n n).ok := statusFld_ok hm le_rfl (by omega)
  ⟨State.onlyRegs_trans h (u.onlyRegs_setF ha hok hK), State.onlyRegs_trans h (u.onlyRegs_clrF ha hok hK)⟩

/-- A link that trains changes its status word alone. -/
theorem State.onlyRegs_endTrain (s : State) {a m : Nat} (ha : a < 8) (hm : m < 3) : s.onlyRegs (endTrain a m s) ((D2D_L_STATUS m).wordAt a) :=
  (State.onlyRegs_flags ha hm (n := 3) (by decide) ⟨rfl, rfl, rfl⟩ (State.onlyRegs_flags ha hm (n := 2) (by decide) ⟨rfl, rfl, rfl⟩
    (State.onlyRegs_flags ha hm (n := 1) (by decide) ⟨rfl, rfl, rfl⟩ (s.onlyRegs_refl _)).2).1).2

theorem endOp_endTrain : EndOp endTrain fun e => { e with up := 0, training := 1, failed := 0 } := by
  refine .of_regs (fun {a m} s ha hm => ?_) fun {a m} s ha hm => ?_
  · exact State.onlyRegs_mono (s.onlyRegs_endTrain ha hm) fun _ _ _ h => h.1
  · simp (disch := simp [*, statusFld_ok, statusFld_apart, d2dFail_apart, SYS_ERR_D2D_FAIL_ok]) only [endTrain, State.linkEnd, statusFld_eq,
      State.rd_clrF, State.rd_setF, State.rd_clrF_ne, State.rd_setF_ne, State.link]
    rfl

theorem endOp_endUp : EndOp endUp fun e => { e with up := 1, training := 0, failed := 0 } := by
  refine .of_regs (fun {a m} s ha hm => ?_) fun {a m} s ha hm => ?_
  · exact (State.onlyRegs_flags ha hm (n := 3) (by decide) rfl (State.onlyRegs_flags ha hm (n := 2) (by decide) rfl
      (State.onlyRegs_flags ha hm (n := 1) (by decide) rfl (s.onlyRegs_refl _)).1).2).2
  · simp (disch := simp [*, statusFld_ok, statusFld_apart, d2dFail_apart, SYS_ERR_D2D_FAIL_ok]) only [endUp, State.linkEnd, statusFld_eq,
      State.rd_clrF, State.rd_setF, State.rd_clrF_ne, State.rd_setF_ne, State.link]
    rfl

theorem endOp_endFail : EndOp endFail fun e => { e with failed := 1, training := 0, d2dFail := 1 } := by
  refine .of_regs (fun {a m} s ha hm => ?_) fun {a m} s ha hm => ?_
  · exact State.onlyRegs_trans (State.onlyRegs_flags ha hm (n := 2) (by decide) rfl
      (State.onlyRegs_flags ha hm (n := 3) (by decide) rfl (s.onlyRegs_refl _)).1).2 (State.onlyRegs_setF _ ha SYS_ERR_D2D_FAIL_ok rfl)
  · simp (disch := simp [*, statusFld_ok, statusFld_apart, d2dFail_apart, SYS_ERR_D2D_FAIL_ok]) only [endFail, State.linkEnd, statusFld_eq,
      State.rd_clrF, State.rd_setF, State.rd_clrF_ne, State.rd_setF_ne, State.link]
    rfl

/-- A retraining is counted. -/
theorem endOp_count : EndOp (fun a m s => s.addSat a (D2D_L_STATUS_RETRAINS m) 1) fun e => { e with retrains := min (e.retrains + 1) 255 } := by
  refine .of_regs (fun {a m} s ha hm => ?_) fun {a m} s ha hm => ?_
  · exact s.onlyRegs_addSat 1 ha (statusFld_ok hm (by decide) (by decide)) rfl
  · simp (disch := simp [*, statusFld_ok, statusFld_apart, d2dFail_apart, SYS_ERR_D2D_FAIL_ok]) only [State.linkEnd, statusFld_eq,
      State.rd_addSat, State.rd_addSat_ne, State.link]
    rfl

/-- What an end keeps beside its registers and its queue is not spoken of. -/
theorem EndOp.updLink_same {f : LinkState → LinkState} (hf : ∀ x, (f x).queue = x.queue) : EndOp (fun a m s => s.updLink a m f) fun e => e :=
  .updLink (lost := fun b => b) hf

/-- The link trains. -/
theorem endOp_linkTrain : EndOp (fun a m s => (endTrain a m s).updLink a m fun x => { x with replays := 0, due := false })
    fun e => { e with up := 0, training := 1, failed := 0 } :=
  endOp_endTrain.comp (.updLink_same (f := fun x => { x with replays := 0, due := false }) fun _ => rfl)

theorem State.linkTrain_spec {s : State} {t n c : Nat} (h : s.id.neighbour t n = some c) : s.onlyLinks (s.linkTrain t n) ∧
    ∀ x ∈ [(t, n), (c, s.id.farLink n)], (s.linkTrain t n).linkEnd x = { s.linkEnd x with up := 0, training := 1, failed := 0 } :=
  endOp_linkTrain.bothEnds h

theorem State.linkRetrain_spec {s : State} {t n c : Nat} (h : s.id.neighbour t n = some c) : s.onlyLinks (s.linkRetrain t n) ∧
    ∀ x ∈ [(t, n), (c, s.id.farLink n)], (s.linkRetrain t n).linkEnd x =
      { s.linkEnd x with up := 0, training := 1, failed := 0, retrains := min ((s.linkEnd x).retrains + 1) 255 } := by
  obtain ⟨honly, hends⟩ := State.linkTrain_spec h
  obtain ⟨honly', hends'⟩ := endOp_count.bothEnds (s := s.linkTrain t n) (t := t) (n := n) (c := c) (by rw [honly.id, h])
  refine ⟨State.onlyLinks_trans honly honly', fun x hx => (hends' x (by rwa [honly.id])).trans ?_⟩
  rw [hends x hx]

/-! READY (R468). -/

theorem SYS_STATUS_READY_ok : SYS_STATUS_READY.ok := by unfold Fld.ok; decide

theorem State.onlyRegs_readyUpdate (s : State) : s.onlyRegs s.readyUpdate (SYS_STATUS.wordAt 0) :=
  s.onlyRegs_wr _ (by decide) SYS_STATUS_READY_ok ⟨rfl, rfl, rfl⟩

/-- READY is low where one of its conditions does not hold. -/
theorem State.rd_readyUpdate_low (s : State) (h : false ∈ s.readyConds) : s.readyUpdate.rd 0 SYS_STATUS_READY = 0 := by
  have hall : s.readyConds.all (· == true) = false := by
    rw [List.all_eq_false]
    exact ⟨false, h, by decide⟩
  rw [State.readyUpdate, hall, State.rd_wr _ _ _ _ SYS_STATUS_READY_ok]
  rfl

theorem State.linkEnd_readyUpdate (s : State) {a m : Nat} (ha : a < 8) (hm : m < 3) : s.readyUpdate.linkEnd (a, m) = s.linkEnd (a, m) :=
  State.linkEnd_of_onlyRegs s.onlyRegs_readyUpdate ha hm (fun h => absurd h.2.1 (by decide)) fun h => absurd h.2.2 (by decide)

/-! RETRAIN (R34, R45). -/

theorem State.d2dRetrain_spec {s : State} {t n c : Nat} (h : s.id.neighbour t n = some c) (hbusy : ¬ s.linkBusy t n) :
    ∀ x ∈ [(t, n), (c, s.id.farLink n)], (s.d2dRetrain t n).linkEnd x =
      { s.linkEnd x with up := 0, training := 1, failed := 0, retrains := min ((s.linkEnd x).retrains + 1) 255 } := by
  obtain ⟨ht, hc, -, -, -, hn, hm, -, -⟩ := s.id.neighbour_spec h
  have hbond : s.id.bonded t n = true := by rw [Ident.bonded, h]; rfl
  obtain ⟨honly, hends⟩ := State.linkRetrain_spec h
  obtain ⟨honly', hends'⟩ := (EndOp.updLink_same (f := fun x => { x with fails := 0 }) fun _ => rfl).bothEnds
    (s := s.linkRetrain t n) (t := t) (n := n) (c := c) (by rw [honly.id, h])
  intro x hx
  have hlt := State.ends_lt h hx
  rw [State.d2dRetrain, hbond, if_neg (by decide), if_neg hbusy]
  exact (State.linkEnd_readyUpdate _ hlt.1 hlt.2).trans ((hends' x (by rwa [honly.id])).trans (hends x hx))

/-- While a packet is in flight, the retraining waits for the packet boundary. -/
theorem State.d2dRetrain_busy {s : State} {t n c : Nat} (h : s.id.neighbour t n = some c) (hbusy : s.linkBusy t n) :
    (s.d2dRetrain t n).regs = s.regs ∧ ((s.d2dRetrain t n).link t n).due = true ∧ ((s.d2dRetrain t n).link c (s.id.farLink n)).due = true := by
  obtain ⟨-, -, hne, -, -, hn, hm, -, -⟩ := s.id.neighbour_spec h
  have hbond : s.id.bonded t n = true := by rw [Ident.bonded, h]; rfl
  rw [State.d2dRetrain, hbond, if_neg (by decide), if_pos hbusy, State.bothEnds_eq h]
  refine ⟨rfl, ?_, ?_⟩
  · rw [State.link_updLink_ne _ _ hne.symm hm hn, State.link_updLink_same]
  · rw [State.link_updLink_same]

/-! The packets that have waited for a link (R32). -/

theorem txFlits_pairOk {m : Nat} (hm : m < 3) : (D2D_L_TX_FLITS_LO m).pairOk :=
  ⟨show 0x1b < 128 by decide, show 0x10 + 0x40 * m + 4 < 2 ^ 30 by omega⟩

theorem State.onlyRegs_sentFlits (s : State) {a m : Nat} (k : Bytes) (ha : a < 8) (hm : m < 3) :
    s.onlyRegs (s.sentFlits a m k) ((D2D_L_TX_FLITS_LO m).pairAt a) := s.onlyRegs_wr64 _ ha (txFlits_pairOk hm)

/-- The words of TX_FLITS are neither a link's status nor its tile's flags. -/
theorem txFlits_apart (a m b k : Nat) : ¬ (D2D_L_TX_FLITS_LO m).pairAt a b 0x1b (0x40 * k) ∧ ¬ (D2D_L_TX_FLITS_LO m).pairAt a b 0 0x18 := by
  constructor
  · rintro ⟨-, -, h | h⟩
    · have : 0x40 * k = 0x10 + 0x40 * m := h
      omega
    · have : 0x40 * k = 0x10 + 0x40 * m + 4 := h
      omega
  · rintro ⟨-, h, -⟩
    exact absurd h (show ¬ 0 = 0x1b by decide)

theorem State.linkEnd_sentFlits (s : State) {a m b j : Nat} (k : Bytes) (ha : a < 8) (hm : m < 3) (hb : b < 8) (hj : j < 3) :
    (s.sentFlits a m k).linkEnd (b, j) = s.linkEnd (b, j) :=
  State.linkEnd_of_onlyRegs (s.onlyRegs_sentFlits k ha hm) hb hj (txFlits_apart a m b j).1 (txFlits_apart a m b j).2

/-- A run of packets that go out at one end and arrive at another. -/
theorem State.sendAll_spec (s : State) {a m : Nat} (u w : Nat) (l : List Bytes) (ha : a < 8) (hm : m < 3) :
    s.onlyLinks (l.foldl (fun s k => (s.sentFlits a m k).linkTake u w k) s) ∧
    ∀ b j, b < 8 → j < 3 → (l.foldl (fun s k => (s.sentFlits a m k).linkTake u w k) s).linkEnd (b, j) = s.linkEnd (b, j) := by
  induction l generalizing s with
  | nil => exact ⟨rfl, fun _ _ _ _ => rfl⟩
  | cons k l ih =>
    have htake := (s.sentFlits a m k).onlyOrder_linkTake u w k
    obtain ⟨honly, hends⟩ := ih ((s.sentFlits a m k).linkTake u w k)
    refine ⟨State.onlyLinks_trans (State.onlyLinks_trans (State.onlyLinks_of_onlyRegs (s.onlyRegs_sentFlits k ha hm)) htake.onlyLinks) honly,
      fun b j hb hj => ?_⟩
    rw [List.foldl_cons, hends b j hb hj, State.linkEnd_of_onlyOrder htake hb hj, s.linkEnd_sentFlits k ha hm hb hj]

/-- The packets that wait at an end are sent, and none is left. -/
theorem endOp_linkSend : EndOp (fun a m s => s.linkSend a m) fun e => { e with held := [], stalled := [] } := by
  have hspec : ∀ {a m : Nat} (s : State), a < 8 → m < 3 → let z := s.updLink a m fun x => { x with held := [], stalled := [] }
      z.onlyLinks (s.linkSend a m) ∧ ∀ b j, b < 8 → j < 3 → (s.linkSend a m).linkEnd (b, j) = z.linkEnd (b, j) :=
    fun s ha hm => State.sendAll_spec _ _ _ _ ha hm
  constructor
  · exact fun s ha hm => State.onlyLinks_trans (s.onlyLinks_updLink _ _ _) (hspec s ha hm).1
  · intro a m s ha hm
    rw [(hspec s ha hm).2 a m ha hm]
    simp only [State.linkEnd, State.rd_updLink, State.link_updLink_same]
  · intro a m s b k ha hm hb hk hne
    rw [(hspec s ha hm).2 b k hb hk]
    exact State.linkEnd_of_links (s.regs_updLink _ _ _) (s.bank_updLink _ _ _) hb hk (by rw [s.link_updLink_ne _ hne hm hk])

/-! The end of a retraining (R32, R33). -/

theorem State.linkCameUp_spec {s : State} {t n c : Nat} (h : s.id.neighbour t n = some c) : s.onlyLinks (s.linkCameUp t n) ∧
    ∀ x ∈ [(t, n), (c, s.id.farLink n)], (s.linkCameUp t n).linkEnd x =
      { s.linkEnd x with up := 1, training := 0, failed := 0, lost := false, held := [], stalled := [] } := by
  obtain ⟨honly, hends⟩ := (endOp_endUp.comp (.updLink (f := fun x => { x with replays := 0, fails := 0, lost := false, due := false })
    (lost := fun _ => false) fun _ => rfl)).bothEnds h
  obtain ⟨honly', hends'⟩ := endOp_linkSend.bothEnds (s := s.bothEnds t n _) (t := t) (n := n) (c := c) (by rw [honly.id, h])
  refine ⟨State.onlyLinks_trans honly honly', fun x hx => (hends' x (by rwa [honly.id])).trans ?_⟩
  rw [hends x hx]

/-- The link has failed: both ends before the notification. -/
def State.failEnds (s : State) (t n : Nat) : State :=
  s.bothEnds t n fun a m s => (endFail a m s).updLink a m fun x => { x with fails := 0, lost := true }

theorem State.failEnds_spec {s : State} {t n c : Nat} (h : s.id.neighbour t n = some c) : s.onlyLinks (s.failEnds t n) ∧
    ∀ x ∈ [(t, n), (c, s.id.farLink n)], (s.failEnds t n).linkEnd x =
      { s.linkEnd x with failed := 1, training := 0, d2dFail := 1, lost := true } :=
  (endOp_endFail.comp (.updLink (f := fun x => { x with fails := 0, lost := true }) (lost := fun _ => true) fun _ => rfl)).bothEnds h

/-! What follows the end of a retraining (R26, R33, R468). -/

theorem CHN_NOTIFY_LOST_ok : CHN_NOTIFY_LOST.ok := by unfold Fld.ok; decide

/-- A notification changes no register word but the count of those lost. -/
theorem State.keeps_notify (s : State) (code a0 a1 a2 a3 : Nat) : s.keeps (s.notify code a0 a1 a2 a3) (CHN_NOTIFY_LOST.wordAt 0) := by
  by_cases h : s.net.notices.length < 64
  · rw [s.notify_room _ _ _ _ _ h]
    exact State.keeps_of_regs rfl rfl _
  · rw [s.notify_full _ _ _ _ _ h]
    exact State.keeps_trans (State.keeps_of_onlyRegs (s.onlyRegs_addSat 1 (by decide) CHN_NOTIFY_LOST_ok ⟨rfl, rfl, rfl⟩)) (State.keeps_of_regs rfl rfl _)

/-- A notification leaves what waits for a link. -/
theorem State.noneWait_notify (s : State) (code a0 a1 a2 a3 : Nat) (h : s.noneWait) : (s.notify code a0 a1 a2 a3).noneWait := by
  unfold State.notify
  split
  · exact h
  · exact h

/-- The end of the open band's inspection changes the band clock alone. -/
theorem State.crcBand_eq (s : State) : s.crcBand = { s with clk := s.crcBand.clk } := by
  unfold State.crcBand
  split
  · split <;> rfl
  · rfl

theorem State.noneWait_of_net (h : u.net = s.net) (hs : s.noneWait) : u.noneWait := by
  unfold State.noneWait; rwa [h]

/-- Where nothing waits for a link, nothing goes on when it comes up. -/
theorem State.linkResume_none (h : s.noneWait) : s.linkResume = s := by
  obtain ⟨hw, hin, hout⟩ := h
  have hf : s.hopFrames = s := by
    rw [State.hopFrames, hout, List.foldl_nil, ← hout]
  have hr : s.hopRequests = s := by
    rw [State.hopRequests, hin, List.foldl_nil, ← hin]
  unfold State.linkResume
  simp only [hf, hr, ite_self]
  rw [hw, List.length_nil, State.lcpDrain, hw]

/-- A bonded link of a fitted tile is among the bonded links. -/
theorem State.mem_bondedLinks {t n c : Nat} (h : s.id.neighbour t n = some c) : (t, n) ∈ s.bondedLinks := by
  obtain ⟨-, -, -, hfit, -, hn, -⟩ := s.id.neighbour_spec h
  refine List.mem_flatMap.2 ⟨t, List.mem_range.2 (of_decide_eq_true hfit), List.mem_map.2 ⟨n, ?_, rfl⟩⟩
  rw [List.mem_filter, Ident.bonded, h]
  refine ⟨?_, rfl⟩
  simp only [List.mem_cons, List.not_mem_nil, or_false]
  omega

/-- READY's conditions do not hold with a link that has failed (R33, R468). -/
theorem State.readyConds_of_lost {t n c : Nat} (h : s.id.neighbour t n = some c) (hl : (s.link t n).lost = true) : false ∈ s.readyConds := by
  have : s.d2dFailed = true := List.any_eq_true.2 ⟨(t, n), State.mem_bondedLinks h, hl⟩
  simp [State.readyConds, this]

theorem State.linkFail_spec {t n c : Nat} (h : s.id.neighbour t n = some c) (hnone : s.noneWait) :
    (s.linkFail t n).rd 0 SYS_STATUS_READY = 0 ∧ (s.linkFail t n).noneWait ∧
    ∀ x ∈ [(t, n), (c, s.id.farLink n)], (s.linkFail t n).linkEnd x =
      { s.linkEnd x with failed := 1, training := 0, d2dFail := 1, lost := true } := by
  obtain ⟨ht, hc, -, -, -, hn, hm, -, -⟩ := s.id.neighbour_spec h
  obtain ⟨honly, hends⟩ := State.failEnds_spec h
  have heq : s.linkFail t n = (((s.failEnds t n).notify 0x0003 t n 0 0).crcBand).readyUpdate := rfl
  generalize hz : ((s.failEnds t n).notify 0x0003 t n 0 0).crcBand = z at heq
  have hzid : z.id = s.id := by rw [← hz, State.crcBand_eq, ← honly.id]; exact State.id_notify _ _ _ _ _ _
  have hzw : z.noneWait := by
    have := State.noneWait_notify _ 0x0003 t n 0 0 (State.noneWait_of_net honly.net hnone)
    rw [← hz, State.crcBand_eq]
    exact this
  have hzend : ∀ a m, a < 8 → m < 3 → z.linkEnd (a, m) = (s.failEnds t n).linkEnd (a, m) := by
    intro a m ha hm
    rw [← hz, State.crcBand_eq]
    refine State.linkEnd_of_keeps (K := CHN_NOTIFY_LOST.wordAt 0) (s := s.failEnds t n) ?_ ha hm ?_ ?_ ?_
    · exact State.keeps_trans (State.keeps_notify _ _ _ _ _ _) (State.keeps_of_regs rfl rfl _)
    · exact fun h => absurd h.2.1 (by decide)
    · exact fun h => absurd h.2.1 (by decide)
    · exact congrArg LinkState.queue (State.link_congr (State.links_notify _ _ _ _ _ _) a m)
  have hlost : (z.link t n).lost = true := by
    have := congrArg LinkEnd.lost ((hzend t n ht hn).trans (hends (t, n) (by simp)))
    exact this
  rw [heq]
  refine ⟨State.rd_readyUpdate_low _ (State.readyConds_of_lost (by rw [hzid, h]) hlost), hzw, fun x hx => ?_⟩
  have hlt := State.ends_lt h hx
  exact (State.linkEnd_readyUpdate _ hlt.1 hlt.2).trans ((hzend _ _ hlt.1 hlt.2).trans (hends x hx))

theorem State.exec_d2dRetrain {t : Tile} (l : Link) (hlive : s.live) (hfit : s.fit t) :
    exec (.d2dRetrain t l) s = .next (s.after (s.d2dRetrain t l)) := onTile_live (f := fun s => s.d2dRetrain t l) hlive hfit

theorem State.exec_retrainComplete {t : Tile} {l : Link} (up : Bool) (hlive : s.live) (hfit : s.fit t) (hbond : s.id.bonded t l)
    (htr : s.is t (D2D_L_STATUS_TRAINING l)) (hlock : s.locked t .d2d) :
    exec (.retrainComplete t l up) s = .next (s.after (s.retrainEnd t l up).linkResume) :=
  whenEv_live (f := fun s => (s.retrainEnd t l up).linkResume) hlive (by rw [hfit, hbond, htr, hlock]; rfl)

/-- Settles O12: each operation is a change of both ends, and what follows it leaves them. -/
theorem linkRetrains : Obligations.LinkRetrains := by
  intro s t l hlive hfit hbond
  obtain ⟨d, hd⟩ : ∃ d, s.id.neighbour t l = some d := Option.isSome_iff_exists.1 hbond
  obtain ⟨ht, hc, -, -, -, hn, hm, -, -⟩ := s.id.neighbour_spec hd
  rw [State.farEnd_eq hd]
  intro c m
  have hretrain : exec (.d2dRetrain t l) s = .next (s.after (s.d2dRetrain t l)) := State.exec_d2dRetrain l hlive hfit
  refine ⟨fun hbusy => ⟨_, hretrain, fun x hx => ?_⟩, fun hbusy => ⟨_, hretrain, State.d2dRetrain_busy hd hbusy⟩, fun htr hlock hnone => ?_,
    fun htr hlock hnone hfails => ?_⟩
  · have hend := State.d2dRetrain_spec hd hbusy x hx
    exact ⟨congrArg LinkEnd.up hend, congrArg LinkEnd.training hend, congrArg LinkEnd.failed hend, congrArg LinkEnd.retrains hend⟩
  · obtain ⟨honly, hends⟩ := State.linkCameUp_spec hd
    have hres : ((s.retrainEnd t l true).linkResume) = (s.linkCameUp t l).readyUpdate := State.linkResume_none (State.noneWait_of_net honly.net hnone)
    refine ⟨_, State.exec_retrainComplete _ hlive hfit hbond htr hlock, fun x hx => ?_⟩
    rw [hres]
    have hlt := State.ends_lt hd hx
    have hend := (State.linkEnd_readyUpdate _ hlt.1 hlt.2).trans (hends x hx)
    exact ⟨congrArg LinkEnd.up hend, congrArg LinkEnd.training hend, congrArg LinkEnd.failed hend, congrArg LinkEnd.held hend, congrArg LinkEnd.stalled hend⟩
  · obtain ⟨hready, hnone', hends⟩ := State.linkFail_spec hd hnone
    have hres : (s.retrainEnd t l false).linkResume = s.linkFail t l := by
      have : s.retrainEnd t l false = s.linkFail t l := by
        rw [State.retrainEnd, if_neg (by decide), if_pos (by rw [hfails])]
      rw [this, State.linkResume_none hnone']
    refine ⟨_, State.exec_retrainComplete _ hlive hfit hbond htr hlock, ?_⟩
    rw [hres]
    refine ⟨hready, fun x hx => ?_⟩
    have hend := hends x hx
    exact ⟨congrArg LinkEnd.failed hend, congrArg LinkEnd.training hend, congrArg LinkEnd.d2dFail hend⟩

/-! Packets (R28, R32, R34). -/

theorem crcErrFld_ok {m : Nat} (hm : m < 3) : (D2D_L_CRC_ERR_COUNT m).ok :=
  ⟨show 0 ≤ 31 by decide, show 31 < 32 by decide, show 0x1b < 128 by decide, show 0x8 + 0x40 * m < 2 ^ 30 by omega⟩

theorem replayFld_ok {m : Nat} (hm : m < 3) : (D2D_L_REPLAY_COUNT m).ok :=
  ⟨show 0 ≤ 31 by decide, show 31 < 32 by decide, show 0x1b < 128 by decide, show 0xc + 0x40 * m < 2 ^ 30 by omega⟩

/-- The sender's end of a packet: its flits are counted, and the pair turns to its other link. -/
def State.packetSent (s : State) (c m : Nat) (k : Bytes) : State := (s.sentFlits c m k).linkTurn c m

theorem State.packetSent_onlyOrder (s : State) (c m : Nat) (k : Bytes) : (s.sentFlits c m k).onlyOrder (s.packetSent c m k) :=
  State.onlyOrder_linkTurn _ _ _

theorem State.packetSent_onlyLinks (s : State) {c m : Nat} (k : Bytes) (hc : c < 8) (hm : m < 3) : s.onlyLinks (s.packetSent c m k) :=
  State.onlyLinks_trans (State.onlyLinks_of_onlyRegs (s.onlyRegs_sentFlits k hc hm)) (s.packetSent_onlyOrder c m k).onlyLinks

/-- What a link keeps is that of before the packet but for the order of the pair. -/
theorem State.link_packetSent (s : State) (c m : Nat) (k : Bytes) (a j : Nat) :
    ((s.packetSent c m k).link a j).replays = (s.link a j).replays ∧ ((s.packetSent c m k).link a j).due = (s.link a j).due ∧
    ((s.packetSent c m k).link a j).held = (s.link a j).held := by
  have h := (s.packetSent_onlyOrder c m k).2 a j
  have hl : (s.sentFlits c m k).link a j = s.link a j := State.link_congr rfl a j
  rw [h, hl]
  exact ⟨rfl, rfl, rfl⟩

/-- A good packet: counted at its sender, and the row of failures ends. -/
theorem State.cerettePacket_good {t l c : Nat} {k : Bytes} (h : s.id.neighbour t l = some c) (hk : packetOk k) (hdue : (s.link t l).due = false) :
    let m := s.id.farLink l
    ((s.cerettePacket t l k).link t l).replays = 0 ∧
    (s.cerettePacket t l k).rd64 c (D2D_L_TX_FLITS_LO m) = (s.rd64 c (D2D_L_TX_FLITS_LO m) + flits k) % 2 ^ 64 ∧
    s.sameWords (s.cerettePacket t l k) ((D2D_L_TX_FLITS_LO m).pairAt c) ∧ (s.cerettePacket t l k).mem = s.mem := by
  intro m
  obtain ⟨-, hc, -, -, -, -, hm, -, -⟩ := s.id.neighbour_spec h
  let y := (s.packetSent c m k).updLink t l fun x => { x with replays := 0 }
  have htake : y.onlyOrder (y.linkTake t l k) := y.onlyOrder_linkTake t l k
  have hlink : ((y.linkTake t l k).link t l).replays = 0 ∧ ((y.linkTake t l k).link t l).due = false := by
    rw [htake.2 t l]
    show (y.link t l).replays = 0 ∧ (y.link t l).due = false
    rw [State.link_updLink_same]
    exact ⟨rfl, (s.link_packetSent c m k t l).2.1.trans hdue⟩
  have heq : s.cerettePacket t l k = y.linkTake t l k := by
    have : s.cerettePacket t l k = (y.linkTake t l k).linkBoundary t l := by
      rw [State.cerettePacket, State.farEnd_eq h]
      exact if_pos hk
    rw [this, State.linkBoundary, hlink.2]
    rfl
  have hregs : (y.linkTake t l k).regs = (s.sentFlits c m k).regs := htake.regs.trans (s.packetSent_onlyOrder c m k).regs
  have honly : s.onlyLinks (y.linkTake t l k) :=
    State.onlyLinks_trans (State.onlyLinks_trans (s.packetSent_onlyLinks k hc hm) (State.onlyLinks_updLink _ _ _ _)) htake.onlyLinks
  rw [heq]
  refine ⟨hlink.1, ?_, ?_, honly.mem⟩
  · rw [State.rd64_congr hregs honly.bank]
    exact s.rd64_wr64 _ hc (txFlits_pairOk hm)
  · exact State.sameWords_trans (s.onlyRegs_sentFlits k hc hm).2 (State.sameWords_of_regs hregs _)

/-- A field of a tile's links, other than TX_FLITS, after a packet has been sent. -/
theorem State.rd_packetSent (s : State) {a c m : Nat} (k : Bytes) (ha : a < 8) (hc : c < 8) (hm : m < 3) {f : Fld} (hf : f.ok)
    (hne : f.off ≠ (D2D_L_TX_FLITS_LO m).off ∧ f.off ≠ (D2D_L_TX_FLITS_LO m).off + 4) : (s.packetSent c m k).rd a f = s.rd a f := by
  have hkeep : s.keeps (s.packetSent c m k) ((D2D_L_TX_FLITS_LO m).pairAt c) :=
    State.keeps_trans (State.keeps_of_onlyRegs (s.onlyRegs_sentFlits k hc hm))
      (State.keeps_of_regs (s.packetSent_onlyOrder c m k).regs (s.packetSent_onlyOrder c m k).onlyLinks.bank _)
  exact State.rd_of_keeps hkeep ha hf fun h => h.2.2.elim hne.1 hne.2

/-- A packet with a CRC mismatch, counted at its receiver. -/
def State.packetBad (s : State) (t l c m : Nat) (k : Bytes) : State := (s.packetSent c m k).addSat t (D2D_L_CRC_ERR_COUNT l) 1

theorem State.packetBad_onlyLinks (s : State) {t l c m : Nat} (k : Bytes) (ht : t < 8) (hl : l < 3) (hc : c < 8) (hm : m < 3) :
    s.onlyLinks (s.packetBad t l c m k) :=
  State.onlyLinks_trans (s.packetSent_onlyLinks k hc hm)
    (State.onlyLinks_of_onlyRegs (State.onlyRegs_addSat (K := fun _ _ _ => True) _ 1 ht (crcErrFld_ok hl) trivial))

theorem State.link_packetBad (s : State) (t l c m : Nat) (k : Bytes) (a j : Nat) :
    ((s.packetBad t l c m k).link a j).replays = (s.link a j).replays ∧ ((s.packetBad t l c m k).link a j).held = (s.link a j).held := by
  obtain ⟨h1, -, h3⟩ := s.link_packetSent c m k a j
  rw [State.link_congr (u := s.packetBad t l c m k) (State.links_addSat _ _ _ _) a j]
  exact ⟨h1, h3⟩

theorem State.cerettePacket_bad {t l c : Nat} {k : Bytes} (h : s.id.neighbour t l = some c) (hk : ¬ packetOk k) :
    s.cerettePacket t l k =
      let z := s.packetBad t l c (s.id.farLink l) k
      if 8 ≤ (z.link t l).replays then (z.linkRetrain t l).updLink c (s.id.farLink l) fun x => { x with held := k :: x.held }
      else (z.addSat c (D2D_L_REPLAY_COUNT (s.id.farLink l)) 1).updLink t l fun x => { x with replays := x.replays + 1 } := by
  rw [State.cerettePacket, State.farEnd_eq h]
  exact if_neg hk

/-- A CRC mismatch that asks for a replay. -/
theorem State.cerettePacket_replay {t l c : Nat} {k : Bytes} (h : s.id.neighbour t l = some c) (hk : ¬ packetOk k) (hr : (s.link t l).replays < 8) :
    let m := s.id.farLink l
    (s.cerettePacket t l k).rd t (D2D_L_CRC_ERR_COUNT l) = min (s.rd t (D2D_L_CRC_ERR_COUNT l) + 1) 0xFFFFFFFF ∧
    (s.cerettePacket t l k).rd c (D2D_L_REPLAY_COUNT m) = min (s.rd c (D2D_L_REPLAY_COUNT m) + 1) 0xFFFFFFFF ∧
    ((s.cerettePacket t l k).link t l).replays = (s.link t l).replays + 1 := by
  intro m
  obtain ⟨ht, hc, hne, -, -, hl, hm, -, -⟩ := s.id.neighbour_spec h
  have hlink := (s.link_packetBad t l c m k t l).1
  rw [State.cerettePacket_bad h hk]
  dsimp only
  rw [if_neg (by rw [hlink]; omega)]
  refine ⟨?_, ?_, ?_⟩
  · rw [State.rd_updLink, State.rd_addSat_ne _ _ ht hc (crcErrFld_ok hl) (replayFld_ok hm) (.inl hne.symm), State.packetBad,
      State.rd_addSat _ _ _ _ (crcErrFld_ok hl), s.rd_packetSent k ht hc hm (crcErrFld_ok hl)]
    · rfl
    · show 0x8 + 0x40 * l ≠ 0x10 + 0x40 * m ∧ 0x8 + 0x40 * l ≠ 0x10 + 0x40 * m + 4
      omega
  · rw [State.rd_updLink, State.rd_addSat _ _ _ _ (replayFld_ok hm), State.packetBad,
      State.rd_addSat_ne _ _ hc ht (replayFld_ok hm) (crcErrFld_ok hl) (.inl hne), s.rd_packetSent k hc hc hm (replayFld_ok hm)]
    · rfl
    · show 0xc + 0x40 * m ≠ 0x10 + 0x40 * m ∧ 0xc + 0x40 * m ≠ 0x10 + 0x40 * m + 4
      omega
  · rw [State.link_updLink_same, State.link_congr (State.links_addSat _ _ _ _)]
    exact congrArg (· + 1) hlink

/-- One failure more than a packet may have: the link trains, and the packet is held before those behind it. -/
theorem State.cerettePacket_ninth {t l c : Nat} {k : Bytes} (h : s.id.neighbour t l = some c) (hk : ¬ packetOk k) (hr : 8 ≤ (s.link t l).replays) :
    let m := s.id.farLink l
    (s.cerettePacket t l k).rd t (D2D_L_STATUS_UP l) = 0 ∧ (s.cerettePacket t l k).rd t (D2D_L_STATUS_TRAINING l) = 1 ∧
    (s.cerettePacket t l k).rd c (D2D_L_STATUS_TRAINING m) = 1 ∧ ((s.cerettePacket t l k).link c m).held = k :: (s.link c m).held := by
  intro m
  obtain ⟨ht, hc, hne, -, -, hl, hm, -, -⟩ := s.id.neighbour_spec h
  have hbad := s.packetBad_onlyLinks k ht hl hc hm
  have hlink := (s.link_packetBad t l c m k t l).1
  obtain ⟨-, hends⟩ := State.linkRetrain_spec (s := s.packetBad t l c m k) (t := t) (n := l) (c := c) (by rw [hbad.id, h])
  rw [hbad.id] at hends
  have hnear := hends (t, l) (by simp)
  have hfar := hends (c, m) (by simp [m])
  rw [State.cerettePacket_bad h hk]
  dsimp only
  rw [if_pos (by rw [hlink]; exact hr)]
  refine ⟨congrArg LinkEnd.up hnear, congrArg LinkEnd.training hnear, congrArg LinkEnd.training hfar, ?_⟩
  rw [State.link_updLink_same]
  exact congrArg (k :: ·) ((congrArg LinkEnd.held hfar).trans (s.link_packetBad t l c m k c m).2)

theorem LinkState.queue_hold (x : LinkState) (k : Bytes) : (x.hold k).held ++ (x.hold k).stalled = x.held ++ x.stalled ++ [k] := by
  unfold LinkState.hold
  split
  · next h =>
    have : x.stalled = [] := by simpa using (Bool.and_eq_true_iff.1 h).1
    simp [this]
  · simp

/-- A packet for a link that carries no traffic waits at its sender, behind those that wait there. -/
theorem State.ceretteHeld_spec {t l c : Nat} (k : Bytes) (h : s.id.neighbour t l = some c) :
    let m := s.id.farLink l
    (s.ceretteHeld t l k).regs = s.regs ∧ (s.ceretteHeld t l k).mem = s.mem ∧
    ((s.ceretteHeld t l k).link c m).held ++ ((s.ceretteHeld t l k).link c m).stalled =
      (s.link c m).held ++ (s.link c m).stalled ++ [k] := by
  intro m
  have heq : s.ceretteHeld t l k = (s.updLink c m fun x => x.hold k).linkTurn c m := by rw [State.ceretteHeld, State.farEnd_eq h]
  have horder := (s.updLink c m fun x => x.hold k).onlyOrder_linkTurn c m
  rw [heq]
  refine ⟨horder.regs, horder.onlyLinks.mem, ?_⟩
  rw [horder.2 c m, State.link_updLink_same]
  exact LinkState.queue_hold _ k

theorem State.exec_cerettePacket {t : Tile} {l : Link} (k : Bytes) (hlive : s.live) (hfit : s.fit t) (hbond : s.id.bonded t l) :
    exec (.cerettePacket t l k) s = .next (s.after (if s.linkOn t l then s.cerettePacket t l k else s.ceretteHeld t l k)) :=
  whenEv_live (f := fun s => if s.linkOn t l then s.cerettePacket t l k else s.ceretteHeld t l k) hlive (by rw [hfit, hbond]; rfl)

/-- Settles O11: on a link that carries traffic the packet is good, replayed or the ninth to fail; on any other it is held. -/
theorem cerettePacketChecked : Obligations.CerettePacketChecked := by
  intro s t l k hlive hfit hbond
  obtain ⟨d, hd⟩ : ∃ d, s.id.neighbour t l = some d := Option.isSome_iff_exists.1 hbond
  rw [State.farEnd_eq hd]
  intro c m
  have hexec := State.exec_cerettePacket k hlive hfit hbond
  refine ⟨fun hon hk hdue => ⟨_, hexec, ?_⟩, fun hon hk hr => ⟨_, hexec, ?_⟩, fun hon hk hr => ⟨_, hexec, ?_⟩, fun hoff => ⟨_, hexec, ?_⟩⟩
  · rw [if_pos hon]
    exact State.cerettePacket_good hd hk hdue
  · rw [if_pos hon]
    exact State.cerettePacket_replay hd hk hr
  · rw [if_pos hon]
    exact State.cerettePacket_ninth hd hk hr
  · rw [if_neg hoff]
    exact State.ceretteHeld_spec k hd

end Sys2Proof.Machine
end

section
/-! SUPPORT. PLLs (R41, R42, R44, R468): loss of lock and lock, and READY behind them. -/

namespace Sys2Proof.Machine

variable {s u : State}

/-! Bits of a register word. -/

theorem State.rd_setBits (s : State) (t : Nat) {f : Fld} (m : Nat) (hf : f.ok) :
    (s.setBits t f m).rd t f = (s.rd t f ||| m) % 2 ^ (f.hi + 1 - f.lo) := s.rd_wr t f _ hf

theorem State.keeps_wr (s : State) {t : Nat} {f : Fld} (v : Nat) {K : WordSet} (ht : t < 8) (hf : f.ok) (hK : K t f.blk f.off) : s.keeps (s.wr t f v) K :=
  State.keeps_of_onlyRegs (s.onlyRegs_wr v ht hf hK)

theorem State.keeps_setF (s : State) {t : Nat} {f : Fld} {K : WordSet} (ht : t < 8) (hf : f.ok) (hK : K t f.blk f.off) : s.keeps (s.setF t f) K :=
  State.keeps_of_onlyRegs (s.onlyRegs_setF ht hf hK)

theorem State.keeps_setBits (s : State) {t : Nat} {f : Fld} (m : Nat) {K : WordSet} (ht : t < 8) (hf : f.ok) (hK : K t f.blk f.off) :
    s.keeps (s.setBits t f m) K := s.keeps_wr _ ht hf hK

/-- A field of one bit is that bit of its word. -/
theorem State.is_bit (s : State) (t blk off k : Nat) (hk : k < 32) : s.is t ⟨blk, off, k, k⟩ = (s.rd t ⟨blk, off, 31, 0⟩).testBit k := by
  have hbit : ∀ x, bitsOf x k k = (x.testBit k).toNat := fun x => by
    have : k + 1 - k = 1 := by omega
    rw [bitsOf, this, Nat.pow_one, Nat.testBit_eq_decide_div_mod_eq, Nat.shiftRight_eq_div_pow]
    have := Nat.mod_two_eq_zero_or_one (x / 2 ^ k)
    rcases this with h | h <;> rw [h] <;> rfl
  unfold State.is State.rd State.rdB
  rw [hbit, bitsOf_testBit]
  cases h : (s.wordB s.bank t blk off).testBit k <;> simp [h, hk]

/-! Lock and loss of lock. -/

theorem CLK_LOCK_ok : CLK_LOCK.ok := by unfold Fld.ok; decide
theorem CLK_LOSS_LOST_ok : CLK_LOSS_LOST.ok := by unfold Fld.ok; decide
theorem SYS_ERR_PLL_LOSS_ok : SYS_ERR_PLL_LOSS.ok := by unfold Fld.ok; decide
theorem CLK_LOCK_REFC_PRESENT_ok : CLK_LOCK_REFC_PRESENT.ok := by unfold Fld.ok; decide

theorem pllBit_lt (p : Pll) : pllBit p < 6 := by cases p <;> decide

/-- READY's conditions do not hold where a PLL that exists has lost lock (R42, R468). -/
theorem State.readyConds_of_unlocked {t : Nat} {p : Pll} (hfit : s.pllFit t p) (hp : p ≠ .refc) (h : s.locked t p = false) : false ∈ s.readyConds := by
  have hclk : s.clkOk = false := by
    rw [State.pllFit, Bool.and_eq_true] at hfit
    obtain ⟨hft, heth⟩ := hfit
    refine List.all_eq_false.2 ⟨t, List.mem_range.2 (of_decide_eq_true hft), ?_⟩
    have hbit : ∀ k, k < 32 → s.is t ⟨0x1, 0x0, k, k⟩ = (s.rd t CLK_LOCK).testBit k := s.is_bit t 0x1 0x0
    simp only [CLK_LOCK_CORE, CLK_LOCK_SYS, CLK_LOCK_D2D, CLK_LOCK_AUX, CLK_LOCK_ETH, hbit 0 (by decide), hbit 1 (by decide), hbit 2 (by decide),
      hbit 3 (by decide), hbit 4 (by decide)]
    unfold State.locked at h
    cases p <;> simp_all [pllBit]
  simp [State.readyConds, hclk]

/-- A word without one of its bits. -/
theorem withBits_clear {x k : Nat} (h : x.testBit k = true) : withBits x k k 0 = x - 2 ^ k := by
  have hlt : x % 2 ^ k < 2 ^ (k + 1) := (Nat.mod_lt _ (by positivity)).trans (Nat.pow_lt_pow_right (by decide) (by omega))
  have hodd : x / 2 ^ k % 2 = 1 := by simpa [Nat.testBit_eq_decide_div_mod_eq] using h
  have hhalf : x / 2 ^ (k + 1) = x / 2 ^ k / 2 := by rw [Nat.div_div_eq_div_mul, pow_succ]
  have hx : x / 2 ^ k = 2 * (x / 2 ^ (k + 1)) + 1 := by omega
  have hsplit := Nat.div_add_mod x (2 ^ k)
  rw [hx] at hsplit
  simp only [withBits, Nat.zero_mod, Nat.zero_shiftLeft, Nat.zero_or]
  rw [← Nat.shiftLeft_add_eq_or_of_lt hlt, Nat.shiftLeft_eq, Nat.shiftRight_eq_div_pow]
  have hsum : 2 ^ k * (2 * (x / 2 ^ (k + 1)) + 1) = x / 2 ^ (k + 1) * 2 ^ (k + 1) + 2 ^ k := by ring
  omega

theorem State.pllLoss_spec (s : State) {t : Nat} {p : Pll} (ht : t < 8) (hfit : s.pllFit t p) (hl : s.locked t p) :
    (s.pllLoss t p).rd t CLK_LOCK = s.rd t CLK_LOCK - 2 ^ pllBit p ∧
    (s.pllLoss t p).rd t CLK_LOSS_LOST = s.rd t CLK_LOSS_LOST ||| 2 ^ pllBit p ∧
    (s.pllLoss t p).rd t SYS_ERR_PLL_LOSS = (if p = .refc then s.rd t SYS_ERR_PLL_LOSS else 1) ∧
    (p ≠ .refc → (s.pllLoss t p).rd 0 SYS_STATUS_READY = 0) := by
  have hk := pllBit_lt p
  let y := s.wr t CLK_LOCK (withBits (s.rd t CLK_LOCK) (pllBit p) (pllBit p) 0)
  let z := y.setBits t CLK_LOSS_LOST (2 ^ pllBit p)
  let w := z.setIf (p != .refc) t SYS_ERR_PLL_LOSS
  have heq : s.pllLoss t p = w.readyUpdate := rfl
  have hy : y.rd t CLK_LOCK = s.rd t CLK_LOCK - 2 ^ pllBit p := by
    have hlt : s.rd t CLK_LOCK < 2 ^ 32 := s.rd_lt t CLK_LOCK
    rw [s.rd_wr _ _ _ CLK_LOCK_ok, withBits_clear hl]
    exact Nat.mod_eq_of_lt (lt_of_le_of_lt (Nat.sub_le _ _) hlt)
  have hzy : y.keeps z ((CLK_LOSS.wordAt t)) := y.keeps_setBits _ ht CLK_LOSS_LOST_ok ⟨rfl, rfl, rfl⟩
  have hwz : z.keeps w (SYS_ERR.wordAt t) := by
    show z.keeps (if _ then _ else _) _
    split
    · exact z.keeps_setF ht SYS_ERR_PLL_LOSS_ok ⟨rfl, rfl, rfl⟩
    · exact State.keeps_of_regs rfl rfl _
  have huw : w.keeps w.readyUpdate (SYS_STATUS.wordAt 0) := State.keeps_of_onlyRegs w.onlyRegs_readyUpdate
  have hlock : w.rd t CLK_LOCK = s.rd t CLK_LOCK - 2 ^ pllBit p := by
    rw [State.rd_of_keeps hwz ht CLK_LOCK_ok (fun h => absurd h.2.1 (by decide)),
      State.rd_of_keeps hzy ht CLK_LOCK_ok (fun h => absurd h.2.2 (by decide)), hy]
  have hlost : z.rd t CLK_LOSS_LOST = s.rd t CLK_LOSS_LOST ||| 2 ^ pllBit p := by
    have hold : y.rd t CLK_LOSS_LOST = s.rd t CLK_LOSS_LOST :=
      s.rd_wr_ne _ ht ht CLK_LOSS_LOST_ok CLK_LOCK_ok (.inr (.inr (.inl (by decide))))
    have hlt : s.rd t CLK_LOSS_LOST < 2 ^ 6 := s.rd_lt t CLK_LOSS_LOST
    rw [y.rd_setBits _ _ CLK_LOSS_LOST_ok, hold]
    exact Nat.mod_eq_of_lt (Nat.or_lt_two_pow hlt (Nat.pow_lt_pow_right (by decide) hk))
  have hflag : w.rd t SYS_ERR_PLL_LOSS = if p = .refc then s.rd t SYS_ERR_PLL_LOSS else 1 := by
    have hold : z.rd t SYS_ERR_PLL_LOSS = s.rd t SYS_ERR_PLL_LOSS := by
      rw [State.rd_of_keeps hzy ht SYS_ERR_PLL_LOSS_ok (fun h => absurd h.2.1 (by decide)),
        s.rd_wr_ne _ ht ht SYS_ERR_PLL_LOSS_ok CLK_LOCK_ok (.inr (.inl (by decide)))]
    by_cases hp : p = .refc
    · have hw : w = z := by simp [w, State.setIf, hp]
      rw [hw, if_pos hp, hold]
    · have hw : w = z.setF t SYS_ERR_PLL_LOSS := by simp [w, State.setIf, hp]
      rw [hw, if_neg hp, State.rd_setF _ _ _ SYS_ERR_PLL_LOSS_ok]
      rfl
  have hid : w.id = s.id := State.id_setIf _ _ _ _
  rw [heq]
  refine ⟨?_, ?_, ?_, fun hp => w.rd_readyUpdate_low (State.readyConds_of_unlocked (t := t) (p := p) ?_ hp ?_)⟩
  · rw [State.rd_of_keeps huw ht CLK_LOCK_ok (fun h => absurd h.2.1 (by decide)), hlock]
  · rw [State.rd_of_keeps huw ht CLK_LOSS_LOST_ok (fun h => absurd h.2.1 (by decide)),
      State.rd_of_keeps hwz ht CLK_LOSS_LOST_ok (fun h => absurd h.2.1 (by decide)), hlost]
  · rw [State.rd_of_keeps huw ht SYS_ERR_PLL_LOSS_ok (fun h => absurd h.2.2 (by decide)), hflag]
  · rw [State.pllFit, State.fit, hid]
    exact hfit
  · rw [State.locked, hlock, ← withBits_clear hl, withBits_testBit _ _ _ _ _ le_rfl, if_pos ⟨le_rfl, le_rfl⟩]
    exact Nat.zero_testBit _

/-- A word after one of its bits has been set. -/
theorem State.rd_setF_bit (s : State) (t blk off k : Nat) (hk : k < 32) :
    (s.setF t ⟨blk, off, k, k⟩).rd t ⟨blk, off, 31, 0⟩ = s.rd t ⟨blk, off, 31, 0⟩ ||| 2 ^ k := by
  have hone : k + 1 - k = 1 := by omega
  rw [State.rd_setF_eq]
  simp only [State.rd, State.rdB, State.wr, State.wrB, State.bank_setWordB, State.wordB_setWordB, hone]
  refine Nat.eq_of_testBit_eq fun i => ?_
  rw [bitsOf_testBit, Nat.testBit_mod_two_pow, withBits_testBit _ _ _ _ _ le_rfl, Nat.testBit_or, bitsOf_testBit, Nat.testBit_two_pow]
  by_cases hi : i = k
  · subst hi
    simp [hk]
  · have : ¬ (k ≤ i ∧ i ≤ k) := by omega
    simp [this, Ne.symm hi]

/-- A PLL that locks shows that REFC toggles (R44). -/
def State.pllSet (s : State) (t : Nat) (p : Pll) : State := (s.wr t CLK_LOCK (s.rd t CLK_LOCK ||| 2 ^ pllBit p)).setF t CLK_LOCK_REFC_PRESENT

theorem State.pllSet_spec (s : State) {t : Nat} (p : Pll) (ht : t < 8) : s.keeps (s.pllSet t p) (CLK_LOCK.wordAt t) ∧
    (s.pllSet t p).rd t CLK_LOCK = s.rd t CLK_LOCK ||| 2 ^ pllBit p ||| 2 ^ 5 := by
  constructor
  · exact State.keeps_trans (s.keeps_wr _ ht CLK_LOCK_ok ⟨rfl, rfl, rfl⟩) (State.keeps_setF _ ht CLK_LOCK_REFC_PRESENT_ok ⟨rfl, rfl, rfl⟩)
  · have hlt : s.rd t CLK_LOCK < 2 ^ 32 := s.rd_lt t CLK_LOCK
    have hk : pllBit p < 32 := (pllBit_lt p).trans (by decide)
    refine (State.rd_setF_bit _ t 0x1 0x0 5 (by decide)).trans (congrArg (· ||| 2 ^ 5) ?_)
    exact (s.rd_wr t CLK_LOCK _ CLK_LOCK_ok).trans (Nat.mod_eq_of_lt (Nat.or_lt_two_pow hlt (Nat.pow_lt_pow_right (by decide) hk)))

theorem State.pllLock_eq (s : State) (t : Nat) (p : Pll) : s.pllLock t p = ((s.pllSet t p).pllResume t p).readyUpdate := rfl

theorem State.pllLock_spec (s : State) {t : Nat} (p : Pll) (ht : t < 8) :
    (s.pllLock t p).rd t CLK_LOCK = s.rd t CLK_LOCK ||| 2 ^ pllBit p ||| 2 ^ 5 ∧ (s.pllLock t p).rd t CLK_LOSS_LOST = s.rd t CLK_LOSS_LOST := by
  obtain ⟨hset, hlock⟩ := s.pllSet_spec p ht
  have hready : ((s.pllSet t p).pllResume t p).keeps ((s.pllSet t p).pllResume t p).readyUpdate (SYS_STATUS.wordAt 0) :=
    State.keeps_of_onlyRegs (State.onlyRegs_readyUpdate _)
  rw [State.pllLock_eq]
  constructor
  · exact (State.rd_of_keeps hready ht CLK_LOCK_ok fun h => absurd h.2.1 (by decide)).trans hlock
  · exact (State.rd_of_keeps hready ht CLK_LOSS_LOST_ok fun h => absurd h.2.1 (by decide)).trans
      (State.rd_of_keeps hset ht CLK_LOSS_LOST_ok fun h => absurd h.2.2 (by decide))

theorem State.exec_pllLoss {t : Tile} {p : Pll} (hlive : s.live) (hfit : s.pllFit t p) (hl : s.locked t p) :
    exec (.pllLoss t p) s = .next (s.after ((s.pllLoss t p).pllStop t p)) := by
  refine congrArg (fun x => Host.Outcome.next (s.after x)) (if_pos ?_)
  rw [hlive, hfit, hl, Bool.or_true]
  rfl

theorem State.exec_pllLock {t : Tile} {p : Pll} (hlive : s.live) (hfit : s.pllFit t p) (hnone : s.noneWait) :
    exec (.pllLock t p) s = .next (s.after (s.pllLock t p)) := by
  have hlive' : (s.pllLock t p).live = true := hlive
  have hnone' : (s.pllLock t p).noneWait := hnone
  refine congrArg (fun x => Host.Outcome.next (s.after x)) ((if_pos ?_).trans ((if_pos hlive').trans (State.linkResume_none hnone')))
  rw [hlive, hfit, Bool.or_true]
  rfl

/-- Settles O14: what the loss of a lock and a lock write, and READY behind them. -/
theorem pllLossAndLock : Obligations.PllLossAndLock := by
  intro s t p hlive hfit
  refine ⟨fun hl => ⟨_, State.exec_pllLoss hlive hfit hl, s.pllLoss_spec t.isLt hfit hl⟩, fun hnone => ⟨_, State.exec_pllLock hlive hfit hnone, ?_⟩⟩
  exact s.pllLock_spec p t.isLt

end Sys2Proof.Machine
end

section
/-! SUPPORT. Replies of the control protocol (R337, R339, R341, R343): what sending one changes, and a register request that waits too long (R34). -/

namespace Sys2Proof.Machine

variable {s u v : State}

/-! Frames of the firmware (R26, R32, R337). -/

/-- Nothing differs but frames on their way: in the transmit queues, waiting for room, or for the link to port B. -/
def State.onlySends (s u : State) : Prop :=
  u = { s with links := u.links, net := { s.net with tx := u.net.tx, fwWait := u.net.fwWait, hopOut := u.net.hopOut } }

theorem State.onlySends_refl (s : State) : s.onlySends s := rfl

theorem State.onlySends_trans (h : s.onlySends u) (h' : u.onlySends v) : s.onlySends v := by
  have e := h'
  unfold State.onlySends at h e ⊢
  rw [h] at e
  exact e

theorem State.onlySends_crossed (s : State) (a b : Nat) : s.onlySends (s.crossed a b) := by
  unfold State.crossed
  split <;> rfl

theorem State.onlySends_fwPut (s : State) (p q : Nat) (f : TxFrame) : s.onlySends (s.fwPut p q f) := by
  unfold State.fwPut
  split <;> rfl

theorem State.onlySends_fwSend (s : State) (p q : Nat) (b : Bytes) : s.onlySends (s.fwSend p q b) := by
  unfold State.fwSend
  dsimp only
  split
  · exact s.onlySends_fwPut _ _ _
  · split
    · exact State.onlySends_trans (s.onlySends_crossed 0 1) (State.onlySends_fwPut _ _ _ _)
    · rfl

/-- An LCP message on its way. -/
theorem State.onlySends_lcpSend (s : State) (p : Nat) (src : LcpSource) (mac : Nat) (m : Bytes) : s.onlySends (s.lcpSend p src mac m) :=
  s.onlySends_fwSend _ _ _

/-! Replies (R341, R343). -/

/-- The message that answers a request: none where it gets no reply. -/
def State.answerOf (s : State) (h : LcpHdr) (op st : Nat) (pay : Bytes) : Bytes := if s.lcpSilent h op then [] else s.lcpReply h op st pay

/-- Whether a request is answered, and how, depends on the part's address alone. -/
theorem State.lcpSilent_congr (h : u.rd 0 CHN_ADDR_ADDR = s.rd 0 CHN_ADDR_ADDR) (x : LcpHdr) (op : Nat) : u.lcpSilent x op = s.lcpSilent x op := by
  simp only [State.lcpSilent, h]

theorem State.lcpReply_congr (h : u.rd 0 CHN_ADDR_ADDR = s.rd 0 CHN_ADDR_ADDR) (x : LcpHdr) (op st : Nat) (pay : Bytes) :
    u.lcpReply x op st pay = s.lcpReply x op st pay := by
  simp only [State.lcpReply, State.lcpMsg, h]

theorem State.answerOf_congr (h : u.rd 0 CHN_ADDR_ADDR = s.rd 0 CHN_ADDR_ADDR) (x : LcpHdr) (op st : Nat) (pay : Bytes) :
    u.answerOf x op st pay = s.answerOf x op st pay := by
  rw [State.answerOf, State.lcpSilent_congr h, State.lcpReply_congr h]; rfl

theorem State.answerOf_loud {h : LcpHdr} {op : Nat} (hl : ¬ s.lcpSilent h op) (st : Nat) (pay : Bytes) :
    s.answerOf h op st pay = s.lcpReply h op st pay := if_neg hl

/-- The answer of a request that has been carried out is kept for its session. -/
def State.keepReply (s : State) (h : LcpHdr) (op st : Nat) (pay : Bytes) : State :=
  if s.sessOpen h.session then
    { s with net := { s.net with kept := smInsert h.session ⟨h.seq.toNat, s.answerOf h op st pay⟩ s.net.kept } } else s

theorem State.lcpAnswer_eq (s : State) (h : LcpHdr) (op st : Nat) (pay : Bytes) :
    s.lcpAnswer h op st pay = if (s.answerOf h op st pay).isEmpty then s.keepReply h op st pay
      else (s.keepReply h op st pay).lcpSend h.port h.src h.mac.toNat (s.answerOf h op st pay) := rfl

theorem State.onlySends_lcpAnswer (s : State) (h : LcpHdr) (op st : Nat) (pay : Bytes) :
    (s.keepReply h op st pay).onlySends (s.lcpAnswer h op st pay) := by
  rw [State.lcpAnswer_eq]
  by_cases hm : (s.answerOf h op st pay).isEmpty
  · rw [if_pos hm]
    exact State.onlySends_refl _
  · rw [if_neg hm]
    exact State.onlySends_lcpSend _ _ _ _ _

theorem State.keepReply_eq (s : State) (h : LcpHdr) (op st : Nat) (pay : Bytes) :
    s.keepReply h op st pay = { s with net := { s.net with kept := (s.keepReply h op st pay).net.kept } } := by
  unfold State.keepReply
  dsimp only
  split <;> rfl

/-- A reply changes no register, no memory, nothing that waits and no session. -/
theorem State.lcpAnswer_frame (s : State) (h : LcpHdr) (op st : Nat) (pay : Bytes) :
    let u := s.lcpAnswer h op st pay
    u.regs = s.regs ∧ u.bank = s.bank ∧ u.mem = s.mem ∧ u.net.waiting = s.net.waiting ∧ u.net.kept = (s.keepReply h op st pay).net.kept := by
  intro u
  have e : u = _ := s.onlySends_lcpAnswer h op st pay
  rw [e, State.keepReply_eq]
  exact ⟨rfl, rfl, rfl, rfl, rfl⟩

/-! A register request that has waited too long (R34, R343; log 198). -/

theorem SYS_ERR_D2D_RETRAIN_ok : SYS_ERR_D2D_RETRAIN.ok := by unfold Fld.ok; decide

/-- The flag is set and the request waits no more. -/
def State.timedOut (s : State) : State := { s with net := { s.net with waiting := [] } }.setF 0 SYS_ERR_D2D_RETRAIN

theorem State.keeps_timedOut (s : State) : s.keeps s.timedOut (SYS_ERR.wordAt 0) :=
  State.keeps_trans (u := { s with net := { s.net with waiting := [] } }) (State.keeps_of_regs rfl rfl _)
    (State.keeps_setF _ (by decide) SYS_ERR_D2D_RETRAIN_ok ⟨rfl, rfl, rfl⟩)

theorem State.remoteTimeout_eq {x : LcpReq} (h : s.net.waiting = [x]) :
    s.remoteTimeout = s.timedOut.lcpAnswer x.h x.op stLink (if x.op = 0x11 then leBytes 4 0 else []) := by
  have hw := (s.timedOut.lcpAnswer_frame x.h x.op stLink (if x.op = 0x11 then leBytes 4 0 else [])).2.2.2.1
  have hnone : (s.timedOut.lcpAnswer x.h x.op stLink (if x.op = 0x11 then leBytes 4 0 else [])).net.waiting = [] := hw
  unfold State.remoteTimeout
  rw [h]
  show State.lcpDrain (s.timedOut.lcpAnswer _ _ _ _) 1 = _
  rw [State.lcpDrain, hnone]

theorem CHN_ADDR_ADDR_ok : CHN_ADDR_ADDR.ok := by unfold Fld.ok; decide

/-- Settles O13: the request ends with an answer of its status, and nothing but the flag and its reply changes. -/
theorem remoteAccessTimesOut : Obligations.RemoteAccessTimesOut := by
  intro s x hlive hw
  obtain ⟨hregs, hbank, hmem, hwait, hkept⟩ := s.timedOut.lcpAnswer_frame x.h x.op stLink (if x.op = 0x11 then leBytes 4 0 else [])
  have haddr : s.timedOut.rd 0 CHN_ADDR_ADDR = s.rd 0 CHN_ADDR_ADDR :=
    State.rd_of_keeps s.keeps_timedOut (by decide) CHN_ADDR_ADDR_ok fun h => absurd h.2.1 (by decide)
  have hkeep := State.keeps_trans s.keeps_timedOut (State.keeps_of_regs hregs hbank _)
  refine ⟨_, finish_live hlive, ?_⟩
  rw [State.remoteTimeout_eq hw]
  refine ⟨hwait, ?_, hmem, fun hopen hloud => ?_, State.sameWords_mono hkeep.2 fun _ _ _ => .inl⟩
  · exact (State.rd_of_keeps (State.keeps_of_regs hregs hbank fun _ _ _ => False) (by decide) SYS_ERR_D2D_RETRAIN_ok fun h => h).trans
      (State.rd_setF _ _ _ SYS_ERR_D2D_RETRAIN_ok)
  · have hkeepReply : (s.timedOut.keepReply x.h x.op stLink (if x.op = 0x11 then leBytes 4 0 else [])).net.kept =
        smInsert x.h.session ⟨x.h.seq.toNat, s.timedOut.answerOf x.h x.op stLink (if x.op = 0x11 then leBytes 4 0 else [])⟩ s.net.kept :=
      congrArg (fun z : State => z.net.kept) (if_pos hopen)
    rw [State.answerOf_congr haddr, State.answerOf_loud hloud] at hkeepReply
    exact hkept.trans hkeepReply

end Sys2Proof.Machine
end

section
/-! SUPPORT. Reset phases, supplies and the boot flash (R458 to R476, R489): what a reset leaves, the end of BOOT, and flash operations. -/

namespace Sys2Proof.Machine

variable {s u v : State} {K : WordSet}

/-! Sequences of register updates. -/

theorem State.onlyRegs_foldl {f : State → α → State} {l : List α} (hf : ∀ s : State, ∀ x ∈ l, s.onlyRegs (f s x) K) (s : State) :
    s.onlyRegs (l.foldl f s) K := by
  induction l generalizing s with
  | nil => exact s.onlyRegs_refl K
  | cons x l ih => exact State.onlyRegs_trans (hf s x (by simp)) (ih (fun s y hy => hf s y (by simp [hy])) _)

theorem State.onlyRegs_setBits (s : State) {t : Nat} {f : Fld} (m : Nat) (ht : t < 8) (hf : f.ok) (hK : K t f.blk f.off) :
    s.onlyRegs (s.setBits t f m) K := ⟨rfl, (s.onlyRegs_wr _ ht hf hK).2⟩

/-- A change of one tile after another, each of its own words: a field of a tile is what the tile's change has made of it. -/
theorem State.rd_foldl_tiles {g : State → Nat → State} {f f' : Fld} {F : Nat → Nat → Nat} {l : List Nat} (hl : ∀ t ∈ l, t < 8) (hnd : l.Nodup)
    (hf : f.ok) (hf' : f'.ok) (hg : ∀ s : State, ∀ t ∈ l, s.onlyRegs (g s t) fun tile _ _ => tile = t)
    (heff : ∀ s : State, ∀ t ∈ l, (g s t).rd t f = F t (s.rd t f')) (s : State) : ∀ t ∈ l, (l.foldl g s).rd t f = F t (s.rd t f') := by
  induction l generalizing s with
  | nil => simp
  | cons x l ih =>
    have hx := hg s x (by simp)
    obtain ⟨hnot, hnd'⟩ := List.nodup_cons.1 hnd
    intro t ht
    rw [List.foldl_cons]
    rcases List.mem_cons.1 ht with rfl | ht'
    · have hrest : (g s t).onlyRegs (l.foldl g (g s t)) fun tile _ _ => tile ∈ l :=
        State.onlyRegs_foldl (fun s y hy => State.onlyRegs_mono (hg s y (by simp [hy])) fun _ _ _ h => h ▸ hy) _
      rw [State.rd_of_onlyRegs hrest (hl t (by simp)) hf hnot, heff s t (by simp)]
    · have hne : ¬ t = x := fun h => hnot (h ▸ ht')
      rw [ih (fun t h => hl t (by simp [h])) hnd' (fun s t h => hg s t (by simp [h])) (fun s t h => heff s t (by simp [h])) _ t ht',
        State.rd_of_onlyRegs hx (hl t ht) hf' hne]

theorem State.tiles_lt (s : State) : ∀ t ∈ s.tiles, t < 8 := by
  intro t ht
  have : t < s.id.variant.tiles := List.mem_range.1 ht
  cases h : s.id.variant <;> rw [h] at this <;> simp only [Variant.tiles] at this <;> omega

theorem State.tiles_nodup (s : State) : s.tiles.Nodup := List.nodup_range

/-! The registers of the fuses (R439, R446, R449, R457). -/

theorem lcsSlotHash_ok {k w : Nat} (hk : k < 4) (hw : w < 12) : (LCS_SLOT_HASH k w).ok :=
  ⟨show 0 ≤ 31 by decide, show 31 < 32 by decide, show 0x19 < 128 by decide, show 0x200 + 0x40 * k + 0x4 * w < 2 ^ 30 by omega⟩

theorem lcsJobKeyId_ok {k : Nat} (hk : k < 16) : (LCS_JOB_KEY_ID k).ok :=
  ⟨show 0 ≤ 31 by decide, show 31 < 32 by decide, show 0x19 < 128 by decide, show 0x20 + 0x4 * k < 2 ^ 30 by omega⟩

/-- What follows the fuses are words of the security block. -/
theorem State.onlyRegs_lcsSync (s : State) : s.onlyRegs s.lcsSync (blockOn 0x19 0) := by
  have hw : ∀ (s : State) (f : Fld) (v : Nat), f.blk = 0x19 → f.ok → s.onlyRegs (s.wr 0 f v) (blockOn 0x19 0) := fun s f v hb hf =>
    s.onlyRegs_wr v (by decide) hf ⟨rfl, hb⟩
  unfold State.lcsSync
  dsimp only
  refine State.onlyRegs_trans ?_
    (State.onlyRegs_foldl (fun s k hk => hw s (LCS_JOB_KEY_ID k) _ rfl (lcsJobKeyId_ok (List.mem_range.1 hk))) _)
  refine State.onlyRegs_trans ?_ (hw _ LCS_JOB_KEYS _ rfl (by unfold Fld.ok; decide))
  refine State.onlyRegs_trans ?_ (State.onlyRegs_foldl (fun s k hk => State.onlyRegs_foldl (fun s w hwm =>
    hw s (LCS_SLOT_HASH k w) _ rfl (lcsSlotHash_ok (List.mem_range.1 hk) (List.mem_range.1 hwm))) _) _)
  refine State.onlyRegs_trans ?_ (hw _ LCS_SLOTS _ rfl (by unfold Fld.ok; decide))
  exact State.onlyRegs_trans (hw _ LCS_STATE_STATE _ rfl (by unfold Fld.ok; decide)) (hw _ LCS_STATE_PARTIAL _ rfl (by unfold Fld.ok; decide))

/-! What a reset cuts off (R441, R489). -/

/-- A flash operation that is cut off leaves its sector or its page undefined. -/
theorem State.flashCut_eq (s : State) : ∃ c f, s.flashCut = { s with freeCtr := c, pwr := { s.pwr with flash := f } } := by
  unfold State.flashCut
  dsimp only
  split
  · split
    · exact ⟨_, _, rfl⟩
    · split
      · exact ⟨_, _, rfl⟩
      · exact ⟨s.freeCtr, s.pwr.flash, rfl⟩
  · exact ⟨s.freeCtr, s.pwr.flash, rfl⟩

/-- Register words of the security block, what stands behind them, and the source of free values are all that differs. -/
def State.onlyFuses (s u : State) : Prop :=
  u = { s with regs := u.regs, cyc := u.cyc, lcs := u.lcs, freeCtr := u.freeCtr } ∧ s.sameWords u (blockOn 0x19 0)

theorem State.onlyFuses_fuseFail (s : State) (c : LcsCmd) : s.onlyFuses (s.fuseFail c) := by
  obtain ⟨l, n, heq⟩ : ∃ l n, s.fuseFail c = ({ s with lcs := l, freeCtr := n } : State).lcsSync := by
    unfold State.fuseFail State.updLcs State.fresh
    exact ⟨_, _, rfl⟩
  have hsync := ({ s with lcs := l, freeCtr := n } : State).onlyRegs_lcsSync
  rw [heq]
  refine ⟨?_, State.sameWords_trans (State.sameWords_of_regs rfl _) hsync.2⟩
  rw [hsync.1]

theorem State.onlyFuses_fuseCut (s : State) : s.onlyFuses s.fuseCut := by
  unfold State.fuseCut
  split
  · split
    · exact s.onlyFuses_fuseFail _
    · exact ⟨rfl, s.sameWords_refl _⟩
  · exact ⟨rfl, s.sameWords_refl _⟩

theorem State.onlyFuses.pwr (h : s.onlyFuses u) : u.pwr = s.pwr := by rw [h.1]
theorem State.onlyFuses.id (h : s.onlyFuses u) : u.id = s.id := by rw [h.1]
theorem State.onlyFuses.bank (h : s.onlyFuses u) : u.bank = s.bank := by rw [h.1]

/-- The state that a reset takes up: with an operation of the flash and a command that blows fuses cut off. -/
def State.cutOff (s : State) : State := s.flashCut.fuseCut

theorem State.cutOff_pwr (s : State) : ∃ f, s.cutOff.pwr = { s.pwr with flash := f } := by
  obtain ⟨c, f, h⟩ := s.flashCut_eq
  refine ⟨f, ?_⟩
  rw [State.cutOff, (State.onlyFuses_fuseCut _).pwr, h]

theorem State.cutOff_id (s : State) : s.cutOff.id = s.id := by
  obtain ⟨c, f, h⟩ := s.flashCut_eq
  rw [State.cutOff, (State.onlyFuses_fuseCut _).id, h]

/-- Register words outside the security block stay as they are. -/
theorem State.cutOff_keeps (s : State) : s.keeps s.cutOff (blockOn 0x19 0) := by
  obtain ⟨c, f, h⟩ := s.flashCut_eq
  exact State.keeps_trans (u := s.flashCut) (State.keeps_of_regs (by rw [h]) (by rw [h]) _)
    ⟨(State.onlyFuses_fuseCut _).bank, (State.onlyFuses_fuseCut _).2⟩

theorem State.cutOff_fuses (s : State) (h : s.lcs.cmd = none) : s.cutOff.lcs.fuses = s.lcs.fuses := by
  obtain ⟨c, f, hf⟩ := s.flashCut_eq
  rw [State.cutOff, State.fuseCut, hf, h]

/-! Resets (R464 to R466). -/

theorem BND_CTRL_RUN_ok : BND_CTRL_RUN.ok := by unfold Fld.ok; decide

/-- A field of a register that nothing has written reads its reset value. -/
theorem State.rd_of_regs_nil (h : s.regs = []) (t : Nat) (f : Fld) :
    s.rd t f = bitsOf (BitVec.ofNat 32 (resetWord f.blk f.off)).toNat f.hi f.lo := by
  rw [State.rd, State.rdB, State.wordB, h]; rfl

theorem State.powerOnReset_spec (s : State) (ph : Phase) : (s.powerOnReset ph).pwr.phase = ph ∧
    (s.powerOnReset ph).pwr.porstHigh = s.pwr.porstHigh ∧ (s.powerOnReset ph).pwr.rails = s.pwr.rails ∧ (s.powerOnReset ph).mem = [] ∧
    (s.powerOnReset ph).rd 0 BND_CTRL_RUN = 0 ∧ (s.lcs.cmd = none → (s.powerOnReset ph).lcs.fuses = s.lcs.fuses) := by
  obtain ⟨f, hpwr⟩ := s.cutOff_pwr
  have hsync := (s.cutOff.cleared ph).onlyRegs_lcsSync
  have heq : s.powerOnReset ph = (s.cutOff.cleared ph).lcsSync := rfl
  have hp : (s.powerOnReset ph).pwr = (s.cutOff.cleared ph).pwr := by rw [heq, hsync.1]
  have hl : (s.powerOnReset ph).lcs = (s.cutOff.cleared ph).lcs := by rw [heq, hsync.1]
  have hm : (s.powerOnReset ph).mem = (s.cutOff.cleared ph).mem := by rw [heq, hsync.1]
  rw [hp, hl, hm]
  refine ⟨rfl, ?_, ?_, rfl, ?_, s.cutOff_fuses⟩
  · exact by rw [State.cleared, hpwr]
  · exact by rw [State.cleared, hpwr]; rfl
  · rw [heq, State.rd_of_onlyRegs hsync (by decide) BND_CTRL_RUN_ok fun h => absurd h.2 (by decide)]
    exact (State.rd_of_regs_nil rfl 0 BND_CTRL_RUN).trans (by decide)

theorem CAL_TEMP_LAST_ok : CAL_TEMP_LAST.ok := by unfold Fld.ok; decide
theorem CAL_TEMP_NOW_ok : CAL_TEMP_NOW.ok := by unfold Fld.ok; decide

/-- T_last of every tile is latched. -/
def State.latchTemps (s : State) : State := s.eachTile fun t s => s.wr t CAL_TEMP_LAST (s.rd t CAL_TEMP_NOW)

theorem State.latchTemps_onlyRegs (s : State) : s.onlyRegs s.latchTemps fun _ _ _ => True :=
  State.onlyRegs_foldl (fun z t ht => z.onlyRegs_wr _ (s.tiles_lt t ht) CAL_TEMP_LAST_ok trivial) s

theorem State.rd_latchTemps (s : State) : ∀ t ∈ s.tiles, s.latchTemps.rd t CAL_TEMP_LAST = s.rd t CAL_TEMP_NOW :=
  State.rd_foldl_tiles (F := fun _ x => x) s.tiles_lt s.tiles_nodup CAL_TEMP_LAST_ok CAL_TEMP_NOW_ok
    (fun z t ht => z.onlyRegs_wr _ (s.tiles_lt t ht) CAL_TEMP_LAST_ok rfl)
    (fun z t _ => (z.rd_wr t _ _ CAL_TEMP_LAST_ok).trans (Nat.mod_eq_of_lt (z.rd_lt t CAL_TEMP_NOW))) s

theorem State.endHold_eq (s : State) : s.endHold = { s.latchTemps with pwr := { s.pwr with phase := .fuse, held := false, thermal := false } } := by
  have h : s.latchTemps.pwr = s.pwr := by rw [s.latchTemps_onlyRegs.1]
  rw [← h]
  rfl

/-! An internal reset keeps SYS_RESET_CAUSE and adds to it (R465, R466). -/

theorem SYS_RESET_CAUSE_ok : SYS_RESET_CAUSE.ok := by unfold Fld.ok; decide

theorem State.addCause_onlyRegs (s : State) (c : Nat) : s.onlyRegs (s.addCause c) fun _ blk off => blk = SYS_RESET_CAUSE.blk ∧
    off = SYS_RESET_CAUSE.off :=
  State.onlyRegs_foldl (fun z t ht => z.onlyRegs_setBits _ (s.tiles_lt t ht) SYS_RESET_CAUSE_ok ⟨rfl, rfl⟩) s

theorem State.rd_addCause (s : State) (c : Nat) : ∀ t ∈ s.tiles, (s.addCause c).rd t SYS_RESET_CAUSE = (s.rd t SYS_RESET_CAUSE ||| c) % 2 ^ 32 :=
  State.rd_foldl_tiles (F := fun _ x => (x ||| c) % 2 ^ 32) s.tiles_lt s.tiles_nodup SYS_RESET_CAUSE_ok SYS_RESET_CAUSE_ok
    (fun z t ht => z.onlyRegs_setBits _ (s.tiles_lt t ht) SYS_RESET_CAUSE_ok rfl) (fun z t _ => z.rd_setBits t c SYS_RESET_CAUSE_ok) s

/-- What an internal reset starts from: the power-on values, but for the fields that stand through a reset. -/
def State.resetBase (s : State) (thermal : Bool) : State :=
  let c := s.cutOff.cleared .hold
  { c with regs := s.cutOff.regs.filterMap fun (k, w) => keptWord k w, pwr := { c.pwr with held := true, thermal := thermal } }

/-- The causes of earlier resets. -/
def State.oldCauses (s : State) (thermal : Bool) : State :=
  s.cutOff.tiles.foldl (fun c t => c.wr t SYS_RESET_CAUSE (s.cutOff.rd t SYS_RESET_CAUSE)) (s.resetBase thermal)

theorem State.doReset_eq (s : State) (causes : Nat) (thermal : Bool) : s.doReset causes thermal =
    ((s.oldCauses thermal).addCause causes).lcsSync := rfl

theorem State.doReset_spec (s : State) (causes : Nat) (thermal : Bool) : (s.doReset causes thermal).pwr.phase = .hold ∧
    (s.doReset causes thermal).pwr.held = true ∧ (s.doReset causes thermal).mem = [] ∧
    ∀ t ∈ s.tiles, (s.doReset causes thermal).rd t SYS_RESET_CAUSE = (s.rd t SYS_RESET_CAUSE ||| causes) % 2 ^ 32 := by
  have htiles : s.cutOff.tiles = s.tiles := by rw [State.tiles, s.cutOff_id]; rfl
  have hold : (s.resetBase thermal).onlyRegs (s.oldCauses thermal) fun _ _ _ => True :=
    State.onlyRegs_foldl (fun z t ht => z.onlyRegs_wr _ (s.cutOff.tiles_lt t ht) SYS_RESET_CAUSE_ok trivial) _
  have hcause : ∀ t ∈ s.tiles, (s.oldCauses thermal).rd t SYS_RESET_CAUSE = s.rd t SYS_RESET_CAUSE := by
    intro t ht
    rw [← htiles] at ht
    have hw := State.rd_foldl_tiles (F := fun t _ => s.cutOff.rd t SYS_RESET_CAUSE) s.cutOff.tiles_lt s.cutOff.tiles_nodup SYS_RESET_CAUSE_ok
      SYS_RESET_CAUSE_ok (fun z t ht => z.onlyRegs_wr _ (s.cutOff.tiles_lt t ht) SYS_RESET_CAUSE_ok rfl)
      (fun z t _ => (z.rd_wr t _ _ SYS_RESET_CAUSE_ok).trans (Nat.mod_eq_of_lt (s.cutOff.rd_lt t SYS_RESET_CAUSE))) (s.resetBase thermal) t ht
    exact hw.trans (State.rd_of_keeps s.cutOff_keeps (s.cutOff.tiles_lt t ht) SYS_RESET_CAUSE_ok fun h => absurd h.2 (by decide))
  have hadd := (s.oldCauses thermal).addCause_onlyRegs causes
  have hsync := ((s.oldCauses thermal).addCause causes).onlyRegs_lcsSync
  have hpwr : (s.doReset causes thermal).pwr = (s.resetBase thermal).pwr := by rw [State.doReset_eq, hsync.1, hadd.1, hold.1]
  have hmem : (s.doReset causes thermal).mem = (s.resetBase thermal).mem := by rw [State.doReset_eq, hsync.1, hadd.1, hold.1]
  have hid : (s.oldCauses thermal).tiles = s.tiles := by rw [← htiles, hold.1]; rfl
  rw [hpwr, hmem]
  refine ⟨rfl, rfl, rfl, fun t ht => ?_⟩
  rw [State.doReset_eq, State.rd_of_onlyRegs hsync (s.tiles_lt t ht) SYS_RESET_CAUSE_ok fun h => absurd h.2 (by decide),
    State.rd_addCause _ _ t (by rwa [hid]), hcause t ht]

/-! BOOT is entered (R45, R464, R472). -/

/-- A link out of service that trains. -/
def State.trains (s : State) (x : Nat × Nat) : Prop := s.rd x.1 (D2D_L_STATUS_TRAINING x.2) = 1 ∧ s.rd x.1 (D2D_L_STATUS_UP x.2) = 0

/-- A link that trains goes on training when another begins to. -/
theorem State.trains_endTrain {a m : Nat} (ha : a < 8) (hm : m < 3) {x : Nat × Nat} (hx : x.1 < 8 ∧ x.2 < 3) (h : s.trains x) :
    (endTrain a m s).trains x := by
  by_cases hxe : x = (a, m)
  · have heff := endOp_endTrain.eff s ha hm
    rw [hxe]
    exact ⟨congrArg LinkEnd.training heff, congrArg LinkEnd.up heff⟩
  · have hK : ¬ (D2D_L_STATUS m).wordAt a x.1 0x1b (0x0 + 0x40 * x.2) := by
      rintro ⟨h1, -, h2⟩
      have h2 : 0x0 + 0x40 * x.2 = 0x0 + 0x40 * m := h2
      exact hxe (Prod.ext h1 (by show x.2 = m; omega))
    have hwords := s.onlyRegs_endTrain ha hm
    exact ⟨(State.rd_of_onlyRegs hwords hx.1 (statusFld_ok (hi := 2) (lo := 2) hx.2 le_rfl (by decide)) hK).trans h.1,
      (State.rd_of_onlyRegs hwords hx.1 (statusFld_ok (hi := 1) (lo := 1) hx.2 le_rfl (by decide)) hK).trans h.2⟩

theorem State.trains_endStep (f : LinkState → LinkState) {a m : Nat} (ha : a < 8) (hm : m < 3) {x : Nat × Nat} (hx : x.1 < 8 ∧ x.2 < 3)
    (h : s.trains x) : ((endTrain a m s).updLink a m f).trains x := by
  rw [State.trains, State.rd_updLink, State.rd_updLink]
  exact State.trains_endTrain ha hm hx h

theorem State.trains_linkTrain {t n c : Nat} (h : s.id.neighbour t n = some c) {x : Nat × Nat} (hx : x.1 < 8 ∧ x.2 < 3) (hs : s.trains x) :
    (s.linkTrain t n).trains x := by
  obtain ⟨ht, hc, -, -, -, hn, hm, -, -⟩ := s.id.neighbour_spec h
  rw [State.linkTrain, State.bothEnds_eq h]
  exact State.trains_endStep _ hc hm hx (State.trains_endStep _ ht hn hx hs)

/-- Links that begin to train one after the other, all train. -/
theorem State.linkTrain_foldl (l : List (Nat × Nat)) (hl : ∀ x ∈ l, s.id.bonded x.1 x.2) :
    s.onlyLinks (l.foldl (fun s (t, n) => s.linkTrain t n) s) ∧
    ∀ x, x.1 < 8 ∧ x.2 < 3 → (s.trains x ∨ x ∈ l) → (l.foldl (fun s (t, n) => s.linkTrain t n) s).trains x := by
  induction l generalizing s with
  | nil => exact ⟨rfl, fun x _ h => h.resolve_right (by simp)⟩
  | cons y l ih =>
    obtain ⟨c, hc⟩ : ∃ c, s.id.neighbour y.1 y.2 = some c := Option.isSome_iff_exists.1 (hl y (by simp))
    obtain ⟨honly, hends⟩ := State.linkTrain_spec hc
    obtain ⟨honly', htrain⟩ := ih (s := s.linkTrain y.1 y.2) fun x hx => by rw [honly.id]; exact hl x (by simp [hx])
    refine ⟨State.onlyLinks_trans honly honly', fun x hx h => htrain x hx ?_⟩
    rcases h with h | h
    · exact .inl (State.trains_linkTrain hc hx h)
    · rcases List.mem_cons.1 h with rfl | h
      · have := hends x (by simp)
        exact .inl ⟨congrArg LinkEnd.training this, congrArg LinkEnd.up this⟩
      · exact .inr h

theorem State.mem_bondedLinks_iff (s : State) (x : Nat × Nat) (h : x ∈ s.bondedLinks) : x.1 < 8 ∧ x.2 < 3 ∧ s.id.bonded x.1 x.2 := by
  obtain ⟨t, ht, hx⟩ := List.mem_flatMap.1 h
  obtain ⟨n, hn, rfl⟩ := List.mem_map.1 hx
  obtain ⟨hn, hb⟩ := List.mem_filter.1 hn
  simp only [List.mem_cons, List.not_mem_nil, or_false] at hn
  exact ⟨s.tiles_lt t ht, show n < 3 by omega, hb⟩

theorem State.firstTraining_spec (s : State) : s.onlyLinks s.firstTraining ∧ ∀ x ∈ s.bondedLinks, s.firstTraining.trains x := by
  obtain ⟨honly, htrain⟩ := State.linkTrain_foldl (s := s) s.bondedLinks fun x hx => (s.mem_bondedLinks_iff x hx).2.2
  exact ⟨honly, fun x hx => htrain x ⟨(s.mem_bondedLinks_iff x hx).1, (s.mem_bondedLinks_iff x hx).2.1⟩ (.inr hx)⟩

theorem PWR_BOOT_FAIL_ok : PWR_BOOT_FAIL.ok := by unfold Fld.ok; decide
theorem PWR_BOOT_SLOT_ok : PWR_BOOT_SLOT.ok := by unfold Fld.ok; decide
theorem SYS_FW_VERSION_ok : SYS_FW_VERSION.ok := by unfold Fld.ok; decide

/-- The words of a boot that starts or fails: nothing of a link. -/
def bootWords : WordSet := fun _ blk _ => blk = 0x1a ∨ blk = 0

/-- The links begin to train as BOOT is entered. -/
def State.bootEntered (s : State) : State := { s with pwr := { s.pwr with phase := .boot } }.firstTraining

/-- What the boot master does behind that: words of its own, and the firmware that it starts. -/
theorem State.clockDone_boot (s : State) :
    ∃ g, ({ s.bootEntered with pwr := { s.bootEntered.pwr with mgt := g } } : State).onlyRegs s.clockDone bootWords := by
  have hfail : ∀ c, s.bootEntered.onlyRegs (s.bootEntered.bootFail c) bootWords := fun c =>
    s.bootEntered.onlyRegs_wr _ (by decide) PWR_BOOT_FAIL_ok (.inl rfl)
  unfold State.clockDone
  rw [← State.bootEntered]
  dsimp only
  split
  · exact ⟨s.bootEntered.pwr.mgt, hfail 3⟩
  · split
    · exact ⟨s.bootEntered.pwr.mgt, hfail 1⟩
    · split
      · exact ⟨s.bootEntered.pwr.mgt, hfail 2⟩
      · exact ⟨_, State.onlyRegs_trans (State.onlyRegs_wr _ _ (by decide) PWR_BOOT_SLOT_ok (.inl rfl))
          (State.onlyRegs_foldl (fun z t ht => z.onlyRegs_wr _ (State.tiles_lt _ t ht) SYS_FW_VERSION_ok (.inr rfl)) _)⟩

theorem State.clockDone_spec (s : State) : s.clockDone.pwr.phase = .boot ∧ s.clockDone.mem = s.mem ∧
    ∀ x ∈ s.bondedLinks, s.clockDone.trains x := by
  obtain ⟨honly, htrain⟩ := ({ s with pwr := { s.pwr with phase := .boot } } : State).firstTraining_spec
  obtain ⟨g, hwords⟩ := s.clockDone_boot
  have hpwr : s.bootEntered.pwr = { s.pwr with phase := .boot } := honly.pwr
  refine ⟨?_, ?_, fun x hx => ?_⟩
  · rw [hwords.1, hpwr]
  · rw [hwords.1]
    exact honly.mem
  · obtain ⟨h8, h3, -⟩ := s.mem_bondedLinks_iff x hx
    have hK : ¬ bootWords x.1 0x1b (0x0 + 0x40 * x.2) := by
      unfold bootWords; decide
    have htr : s.bootEntered.trains x := htrain x hx
    exact ⟨(State.rd_of_onlyRegs hwords h8 (statusFld_ok (hi := 2) (lo := 2) h3 le_rfl (by decide)) hK).trans htr.1,
      (State.rd_of_onlyRegs hwords h8 (statusFld_ok (hi := 1) (lo := 1) h3 le_rfl (by decide)) hK).trans htr.2⟩

/-! BOOT ends (R464, R472, R474, R475). -/

theorem State.onlyRegs_any (h : u = { s with regs := u.regs, cyc := u.cyc }) : s.onlyRegs u fun _ _ _ => True :=
  ⟨h, fun _ _ _ _ _ _ _ hn => absurd trivial hn⟩

theorem State.onlyRegs_wr_any (s : State) (t : Nat) (f : Fld) (v : Nat) : s.onlyRegs (s.wr t f v) fun _ _ _ => True := State.onlyRegs_any rfl

theorem State.onlyRegs_setF_any (s : State) (t : Nat) (f : Fld) : s.onlyRegs (s.setF t f) fun _ _ _ => True := State.onlyRegs_any rfl

theorem State.onlyRegs_setIf_any (s : State) (c : Bool) (t : Nat) (f : Fld) : s.onlyRegs (s.setIf c t f) fun _ _ _ => True := by
  cases c
  · exact s.onlyRegs_refl _
  · exact s.onlyRegs_setF_any t f

/-- The unit parameter block is loaded into registers. -/
theorem State.loadParams_onlyRegs (s : State) (b : Bytes) : s.onlyRegs (s.loadParams b) fun _ _ _ => True := by
  unfold State.loadParams
  dsimp only
  refine State.onlyRegs_trans ?_ (State.onlyRegs_foldl (fun z p _ => State.onlyRegs_trans (z.onlyRegs_wr_any _ _ _)
      (State.onlyRegs_wr_any _ _ _ _)) _)
  refine State.onlyRegs_trans ?_ (State.onlyRegs_foldl (fun z p _ => z.onlyRegs_wr_any _ _ _) _)
  have hip : ∀ z : State, z.onlyRegs ([(CHN_IPV6_0, 12), (CHN_IPV6_1, 16), (CHN_IPV6_2, 20), (CHN_IPV6_3, 24)].foldl
      (fun s (f, o) => s.wr 0 f (leAt b o 4)) z) fun _ _ _ => True := fun z => State.onlyRegs_foldl (fun z p _ => z.onlyRegs_wr_any _ _ _) z
  have haddr := State.onlyRegs_trans (State.onlyRegs_trans (State.onlyRegs_trans (s.onlyRegs_wr_any 0 CHN_ADDR_ADDR (byteAt b 6))
    (State.onlyRegs_wr_any _ 0 CHN_ADDR_LOCK (byteAt b 7))) (State.onlyRegs_wr_any _ 0 CHN_IPV4 (leAt b 8 4))) (hip _)
  split
  · exact haddr
  · exact State.onlyRegs_trans haddr (State.onlyRegs_wr_any _ _ _ _)

theorem State.bootParams_onlyRegs (s : State) : s.onlyRegs s.bootParams fun _ _ _ => True := by
  unfold State.bootParams
  split
  · split
    · exact State.onlyRegs_trans (s.loadParams_onlyRegs _) (State.onlyRegs_setF_any _ _ _)
    · exact s.onlyRegs_refl _
  · exact s.onlyRegs_refl _

/-- The owner keys are loaded into key RAM. -/
theorem State.bootKeys_frame (s : State) : s.bootKeys.pwr = s.pwr ∧ s.bootKeys.mem = s.mem := by
  unfold State.bootKeys
  split
  · exact ⟨rfl, rfl⟩
  · next l _ =>
    dsimp only
    generalize hz : List.foldl _ _ _ = z
    have hz' : z.pwr = s.pwr ∧ z.mem = s.mem := by
      rw [← hz]
      refine List.foldlRecOn (motive := fun z : State => z.pwr = s.pwr ∧ z.mem = s.mem) l _ ⟨rfl, rfl⟩ fun z hz x _ => ?_
      split
      · exact hz
      · exact hz
    have hsync := State.onlyRegs_trans (State.onlyRegs_mono z.onlyRegs_lcsSync fun _ _ _ _ => trivial)
      (z.lcsSync.onlyRegs_setIf_any (l.all fun (k, key) => s.ownerLoads k key) 0 PWR_BOOT_KEYS_OK)
    constructor
    · rw [hsync.1]; exact hz'.1
    · rw [hsync.1]; exact hz'.2

theorem State.flashItem_congr (h : u.pwr.flash = s.pwr.flash) (k : Nat) : u.flashItem k = s.flashItem k := by
  have hb : u.flashBytes = s.flashBytes := by
    funext a n
    simp only [State.flashBytes, State.flashByte, h]
  simp only [State.flashItem, State.flashDir, hb]

/-- The port is enabled at the end of BOOT. -/
def State.ethEnable (s : State) (p : Nat) : State := (s.setF p ETH_CFG_EN).ethCfg p false

theorem ETH_CFG_EN_ok : ETH_CFG_EN.ok := by unfold Fld.ok; decide

theorem State.ethEnable_eq (s : State) {p : Nat} : s.ethEnable p =
    { s.setF p ETH_CFG_EN with net := { s.net with trying := smErase p s.net.trying } } := by
  have hon : (s.setF p ETH_CFG_EN).is p ETH_CFG_EN = true := by
    rw [State.is, State.rd_setF _ _ _ ETH_CFG_EN_ok]; rfl
  rw [State.ethEnable, State.ethCfg, hon]
  rfl

theorem State.ethEnable_frame (s : State) {p : Nat} (hp : p < 8) : (s.ethEnable p).pwr = s.pwr ∧ (s.ethEnable p).mem = s.mem ∧
    s.keeps (s.ethEnable p) fun _ blk _ => blk = ETH_CFG_EN.blk := by
  rw [s.ethEnable_eq]
  exact ⟨rfl, rfl, State.keeps_trans (s.keeps_setF hp ETH_CFG_EN_ok rfl) (State.keeps_of_regs rfl rfl _)⟩

theorem SYS_STATUS_BOOT_DONE_ok : SYS_STATUS_BOOT_DONE.ok := by unfold Fld.ok; decide
theorem SYS_STATUS_TILES_UP_ok : SYS_STATUS_TILES_UP.ok := by unfold Fld.ok; decide
theorem PWR_BOOT_MS_ok : PWR_BOOT_MS.ok := by unfold Fld.ok; decide

/-- BOOT is done, with the parameters and keys loaded and the ports enabled. -/
def State.bootEnabled (s : State) : State :=
  (((s.bootParams.bootKeys.setF 0 SYS_STATUS_BOOT_DONE).setF 0 SYS_STATUS_TILES_UP).ethEnable 0).ethEnable 1

/-- RUN is entered, with the time that BOOT has taken. -/
def State.enterRun (s : State) : State := { s.fresh.2.wr 0 PWR_BOOT_MS s.fresh.1 with pwr := { s.pwr with phase := .run } }

/-- BOOTED is notified. -/
def State.notifyBooted (s : State) : State :=
  s.notify 0x0061 (s.word 0 SYS_RESET_CAUSE.blk SYS_RESET_CAUSE.off) (s.word 0 PWR_BOOT.blk PWR_BOOT.off) (s.rd 0 PWR_BOOT_MS) 0

/-- The end of BOOT but for READY and the boot image. -/
def State.booted (s : State) : State := s.bootEnabled.enterRun.notifyBooted

theorem State.bootDone_eq (s : State) : s.bootDone = s.booted.readyUpdate.bootImage := by
  rw [State.bootDone, State.booted, State.bootEnabled]
  rfl

theorem State.bootEnabled_spec (s : State) : s.bootEnabled.pwr = s.pwr ∧ s.bootEnabled.mem = s.mem ∧
    s.bootEnabled.rd 0 SYS_STATUS_BOOT_DONE = 1 ∧ s.bootEnabled.rd 0 SYS_STATUS_TILES_UP = 1 := by
  obtain ⟨hkpwr, hkmem⟩ := s.bootParams.bootKeys_frame
  have hparams := s.bootParams_onlyRegs
  rw [State.bootEnabled]
  generalize s.bootParams.bootKeys = k at hkpwr hkmem ⊢
  have hflags := State.onlyRegs_trans (k.onlyRegs_setF_any 0 SYS_STATUS_BOOT_DONE) (State.onlyRegs_setF_any _ 0 SYS_STATUS_TILES_UP)
  have hdone : ((k.setF 0 SYS_STATUS_BOOT_DONE).setF 0 SYS_STATUS_TILES_UP).rd 0 SYS_STATUS_BOOT_DONE = 1 := by
    rw [State.rd_setF_ne _ (by decide) (by decide) SYS_STATUS_BOOT_DONE_ok SYS_STATUS_TILES_UP_ok (.inr (by unfold Fld.apart; decide)),
      State.rd_setF _ _ _ SYS_STATUS_BOOT_DONE_ok]
    rfl
  have hup : ((k.setF 0 SYS_STATUS_BOOT_DONE).setF 0 SYS_STATUS_TILES_UP).rd 0 SYS_STATUS_TILES_UP = 1 := State.rd_setF _ _ _ SYS_STATUS_TILES_UP_ok
  generalize (k.setF 0 SYS_STATUS_BOOT_DONE).setF 0 SYS_STATUS_TILES_UP = z at hflags hdone hup ⊢
  obtain ⟨hpwr0, hmem0, hkeep0⟩ := z.ethEnable_frame (p := 0) (by decide)
  obtain ⟨hpwr1, hmem1, hkeep1⟩ := (z.ethEnable 0).ethEnable_frame (p := 1) (by decide)
  have hkeep := State.keeps_trans hkeep0 hkeep1
  rw [hpwr1, hpwr0, hmem1, hmem0, State.rd_of_keeps hkeep (by decide) SYS_STATUS_BOOT_DONE_ok (by decide),
    State.rd_of_keeps hkeep (by decide) SYS_STATUS_TILES_UP_ok (by decide), hflags.1]
  exact ⟨hkpwr.trans (by rw [hparams.1]), hkmem.trans (by rw [hparams.1]), by rwa [hflags.1] at hdone, by rwa [hflags.1] at hup⟩

theorem State.enterRun_keeps (s : State) : s.keeps s.enterRun fun _ blk _ => blk = PWR_BOOT_MS.blk := by
  have hfresh : s.keeps s.fresh.2 fun _ blk _ => blk = PWR_BOOT_MS.blk := State.keeps_of_regs rfl rfl _
  have hwr := s.fresh.2.keeps_wr (K := fun _ blk _ => blk = PWR_BOOT_MS.blk) s.fresh.1 (by decide : 0 < 8) PWR_BOOT_MS_ok rfl
  exact State.keeps_trans (State.keeps_trans hfresh hwr) (State.keeps_of_regs rfl rfl _)

theorem State.notifyBooted_keeps (s : State) : s.keeps s.notifyBooted (CHN_NOTIFY_LOST.wordAt 0) := State.keeps_notify _ _ _ _ _ _

theorem State.booted_spec (s : State) : s.booted.pwr = { s.pwr with phase := .run } ∧ s.booted.mem = s.mem ∧
    s.booted.rd 0 SYS_STATUS_BOOT_DONE = 1 ∧ s.booted.rd 0 SYS_STATUS_TILES_UP = 1 := by
  obtain ⟨hpwr, hmem, hdone, hup⟩ := s.bootEnabled_spec
  rw [State.booted]
  generalize s.bootEnabled = y at hpwr hmem hdone hup ⊢
  have hrun := y.enterRun_keeps
  have hkeep := y.enterRun.notifyBooted_keeps
  rw [State.rd_of_keeps hkeep (by decide) SYS_STATUS_BOOT_DONE_ok fun h => absurd h.2.1 (by decide),
    State.rd_of_keeps hkeep (by decide) SYS_STATUS_TILES_UP_ok fun h => absurd h.2.1 (by decide),
    State.rd_of_keeps hrun (by decide) SYS_STATUS_BOOT_DONE_ok (by decide), State.rd_of_keeps hrun (by decide) SYS_STATUS_TILES_UP_ok (by decide),
    State.notifyBooted, State.pwr_notify, State.mem_notify, ← hpwr]
  exact ⟨rfl, hmem, hdone, hup⟩

/-- Without a boot image BOOT ends in RUN, with its two bits set. -/
theorem State.bootDone_spec (s : State) (himage : s.flashItem 5 = none) : s.bootDone.pwr.phase = .run ∧
    s.bootDone.rd 0 SYS_STATUS_BOOT_DONE = 1 ∧ s.bootDone.rd 0 SYS_STATUS_TILES_UP = 1 ∧ s.bootDone.mem = s.mem := by
  obtain ⟨hpwr, hmem, hdone, hup⟩ := s.booted_spec
  have hready := s.booted.onlyRegs_readyUpdate
  have hrpwr : s.booted.readyUpdate.pwr = { s.pwr with phase := .run } := by rw [hready.1]; exact hpwr
  have hitem : s.booted.readyUpdate.itemBytes 5 = none := by
    rw [State.itemBytes, State.flashItem_congr (s := s) (by rw [hrpwr]), himage]
    rfl
  have heq : s.bootDone = s.booted.readyUpdate := by rw [State.bootDone_eq, State.bootImage, hitem]
  rw [heq, hrpwr]
  refine ⟨rfl, ?_, ?_, ?_⟩
  · rw [State.readyUpdate, State.rd_wr_ne _ _ (by decide) (by decide) SYS_STATUS_BOOT_DONE_ok SYS_STATUS_READY_ok
      (.inr (by unfold Fld.apart; decide)), hdone]
  · rw [State.readyUpdate, State.rd_wr_ne _ _ (by decide) (by decide) SYS_STATUS_TILES_UP_ok SYS_STATUS_READY_ok
      (.inr (by unfold Fld.apart; decide)), hup]
  · rw [hready.1]; exact hmem

/-! The fuses are read (R439, R443, R464). -/

theorem State.renewChallenge_mem (s : State) : s.renewChallenge.mem = s.mem := by
  unfold State.renewChallenge
  exact List.foldlRecOn (motive := fun z : State => z.mem = s.mem) (List.range 8) _ rfl fun z hz w _ => hz

/-- CLOCK is entered with the fuses read. -/
def State.fuseRead (s : State) : State := { (s.lcsSync.renewChallenge) with pwr := { s.pwr with phase := .clock } }

theorem State.fuseRead_spec (s : State) : s.fuseRead.pwr.phase = .clock ∧ s.fuseRead.mem = s.mem := by
  have hmem : s.lcsSync.renewChallenge.mem = s.mem := by rw [State.renewChallenge_mem, s.onlyRegs_lcsSync.1]
  unfold State.fuseRead
  generalize s.lcsSync.renewChallenge = u at hmem ⊢
  exact ⟨rfl, hmem⟩

/-! Supplies (R458, R463). -/

theorem PWR_VMON_ok {k : Nat} (hk : k < 7) : (PWR_VMON k).ok :=
  ⟨show 0 ≤ 31 by decide, show 31 < 32 by decide, show 0x1a < 128 by decide, show 0x120 + 0x4 * k < 2 ^ 30 by omega⟩

theorem PWR_SUPPLY_STATUS_ok : PWR_SUPPLY_STATUS.ok := by unfold Fld.ok; decide
theorem PWR_SUPPLY_ERR_ok : PWR_SUPPLY_ERR.ok := by unfold Fld.ok; decide
theorem PWR_INT_STATUS_SUPPLY_ok : PWR_INT_STATUS_SUPPLY.ok := by unfold Fld.ok; decide

/-- The part knows which rails are in tolerance. -/
def State.railSeen (s : State) (k mv : Nat) : State := { s with pwr := { s.pwr with rails := withBits s.pwr.rails k k (bitN (railOk k mv)) } }

/-- A measurement of a rail enters the registers. -/
def State.railRead (s : State) (k mv : Nat) : State :=
  (s.wr 0 (PWR_VMON k) mv).wr 0 PWR_SUPPLY_STATUS (withBits (s.rd 0 PWR_SUPPLY_STATUS) k k (bitN (railOk k mv)))

/-- A rail has left its tolerance. -/
def State.railLost (s : State) (k mv : Nat) : State := ((s.setBits 0 PWR_SUPPLY_ERR (2 ^ k)).setF 0 PWR_INT_STATUS_SUPPLY).notify 0x0060 k mv 0 0

/-- A measurement, and the report that a rail has left its tolerance. -/
def State.railReport (s : State) (k mv : Nat) : State :=
  if s.pwr.rails.testBit k && !railOk k mv then ((s.railSeen k mv).railRead k mv).railLost k mv else (s.railSeen k mv).railRead k mv

theorem State.supply_eq (s : State) (k mv : Nat) : s.supply k mv = if s.pwr.phase = .off then s.railSeen k mv else
    if !railOk k mv && decide (mv < (railLimits.getD k (0, 0)).1) && !(s.railReport k mv).pwr.porstHigh then (s.railReport k mv).powerOnReset .off
    else s.railReport k mv := rfl

/-- The words of a report on the supplies, of which none is that of a measurement. -/
def railLostWords : WordSet := fun _ blk off => blk = 0x1a ∧ (off = 0x110 ∨ off = 0x0) ∨ blk = CHN_NOTIFY_LOST.blk

theorem State.railLost_frame (s : State) (k mv : Nat) : (s.railLost k mv).pwr = s.pwr ∧ (s.railLost k mv).mem = s.mem ∧
    s.keeps (s.railLost k mv) railLostWords := by
  refine ⟨by rw [State.railLost, State.pwr_notify]; rfl, by rw [State.railLost, State.mem_notify]; rfl, ?_⟩
  have herr := s.keeps_setBits (2 ^ k) (K := railLostWords) (by decide : 0 < 8) PWR_SUPPLY_ERR_ok (.inl ⟨rfl, .inl rfl⟩)
  have hint := (s.setBits 0 PWR_SUPPLY_ERR (2 ^ k)).keeps_setF (K := railLostWords) (by decide : 0 < 8) PWR_INT_STATUS_SUPPLY_ok (.inl ⟨rfl,
      .inr rfl⟩)
  exact State.keeps_trans (State.keeps_trans herr hint) (State.keeps_mono (State.keeps_notify _ _ _ _ _ _) fun _ _ _ h => .inr h.2.1)

theorem State.railRead_spec (s : State) {k mv : Nat} (hk : k < 7) (hmv : mv < 2 ^ 16) : (s.railRead k mv).rd 0 (PWR_VMON k) = mv ∧
    ((s.railRead k mv).rd 0 PWR_SUPPLY_STATUS).testBit k = railOk k mv := by
  constructor
  · rw [State.railRead, State.rd_wr_ne _ _ (by decide) (by decide) (PWR_VMON_ok hk) PWR_SUPPLY_STATUS_ok
      (.inr (.inr (.inl (by show 0x120 + 0x4 * k ≠ 0x10c; omega)))), State.rd_wr _ _ _ _ (PWR_VMON_ok hk)]
    exact Nat.mod_eq_of_lt (show mv < 2 ^ 32 by omega)
  · rw [State.railRead, State.rd_wr _ _ _ _ PWR_SUPPLY_STATUS_ok, Nat.testBit_mod_two_pow, withBits_testBit _ _ _ _ _ le_rfl]
    have h32 : k < 32 := by omega
    cases railOk k mv <;> simp [PWR_SUPPLY_STATUS, h32, bitN]

/-- With PORST_N high a measurement of a rail is shown, and takes the part nowhere. -/
theorem State.supply_spec (s : State) {k mv : Nat} (hk : k < 7) (hmv : mv < 2 ^ 16) (hon : s.pwr.phase ≠ .off) (hhigh : s.pwr.porstHigh) :
    (s.supply k mv).rd 0 (PWR_VMON k) = mv ∧ ((s.supply k mv).rd 0 PWR_SUPPLY_STATUS).testBit k = railOk k mv ∧
    (s.supply k mv).pwr.phase = s.pwr.phase ∧ (s.supply k mv).mem = s.mem := by
  obtain ⟨hvmon, hstatus⟩ := (s.railSeen k mv).railRead_spec hk hmv
  obtain ⟨hpwr, hmem, hkeep⟩ := ((s.railSeen k mv).railRead k mv).railLost_frame k mv
  have hvoff : ¬ railLostWords 0 (PWR_VMON k).blk (PWR_VMON k).off := by
    rintro (⟨-, h | h⟩ | h)
    · have : 0x120 + 0x4 * k = 0x110 := h
      omega
    · have : 0x120 + 0x4 * k = 0x0 := h
      omega
    · exact absurd (show 0x1a = CHN_NOTIFY_LOST.blk from h) (by decide)
  have hreport : (s.railReport k mv).rd 0 (PWR_VMON k) = mv ∧ ((s.railReport k mv).rd 0 PWR_SUPPLY_STATUS).testBit k = railOk k mv ∧
      (s.railReport k mv).pwr = (s.railSeen k mv).pwr ∧ (s.railReport k mv).mem = s.mem := by
    unfold State.railReport
    split
    · rw [State.rd_of_keeps hkeep (by decide) (PWR_VMON_ok hk) hvoff,
        State.rd_of_keeps hkeep (by decide) PWR_SUPPLY_STATUS_ok (by unfold railLostWords; decide), hpwr, hmem]
      exact ⟨hvmon, hstatus, rfl, rfl⟩
    · exact ⟨hvmon, hstatus, rfl, rfl⟩
  obtain ⟨hrvmon, hrstatus, hrpwr, hrmem⟩ := hreport
  have hstays : (s.railReport k mv).pwr.porstHigh = true := by rw [hrpwr]; exact hhigh
  rw [State.supply_eq, if_neg hon, hstays, Bool.not_true, Bool.and_false, if_neg Bool.false_ne_true, hrpwr]
  exact ⟨hrvmon, hrstatus, rfl, hrmem⟩

/-! The watchdog (R465, R466, R489). -/

theorem State.live_iff (s : State) : s.live = true ↔ (s.pwr.phase = .boot ∨ s.pwr.phase = .run) ∧ s.lcs.scan = false := by
  simp [State.live]

/-- A part that runs is in no reset. -/
theorem State.inReset_of_live (h : s.live) : s.inReset = false := by
  obtain ⟨hphase, -⟩ := s.live_iff.1 h
  rcases hphase with hp | hp <;> simp [State.inReset, hp]

/-- The cause of an LCP RESET of the same cycle is added, and nothing else changes. -/
theorem State.withSoft_spec (s u : State) : u.onlyRegs (s.withSoft u) (fun _ _ _ => True) ∧
    (∀ t ∈ u.tiles, s.softToo = false → (s.withSoft u).rd t SYS_RESET_CAUSE = u.rd t SYS_RESET_CAUSE) ∧
    ∀ t ∈ u.tiles, ∀ k < 32, (u.rd t SYS_RESET_CAUSE).testBit k → ((s.withSoft u).rd t SYS_RESET_CAUSE).testBit k := by
  unfold State.withSoft
  split
  · next h =>
    refine ⟨State.onlyRegs_mono (u.addCause_onlyRegs 2) fun _ _ _ _ => trivial, fun t _ hs => ?_, fun t ht k hk hbit => ?_⟩
    · rw [hs, Bool.and_false] at h
      exact absurd h Bool.false_ne_true
    · rw [u.rd_addCause 2 t ht, Nat.testBit_mod_two_pow, Nat.testBit_or, hbit]
      simp [hk]
  · exact ⟨u.onlyRegs_refl _, fun _ _ _ => rfl, fun _ _ _ _ h => h⟩

theorem State.doReset_id (s : State) (causes : Nat) (thermal : Bool) : (s.doReset causes thermal).tiles = s.tiles := by
  have hold : (s.resetBase thermal).onlyRegs (s.oldCauses thermal) fun _ _ _ => True :=
    State.onlyRegs_foldl (fun z t ht => z.onlyRegs_wr _ (s.cutOff.tiles_lt t ht) SYS_RESET_CAUSE_ok trivial) _
  have hadd := (s.oldCauses thermal).addCause_onlyRegs causes
  have hsync := ((s.oldCauses thermal).addCause causes).onlyRegs_lcsSync
  rw [State.tiles, State.doReset_eq, hsync.1, hadd.1, hold.1, State.tiles, ← s.cutOff_id]
  rfl

/-- A field of one bit that is set reads 1. -/
theorem State.rd_one_of_is {t : Nat} {f : Fld} (hbit : f.hi + 1 - f.lo = 1) (h : s.is t f) : s.rd t f = 1 := by
  have hlt := s.rd_lt t f
  rw [hbit] at hlt
  have hne : s.rd t f ≠ 0 := bne_iff_ne.1 h
  omega

/-- A watchdog resets the part that runs, with its cause on every tile. -/
theorem State.watchdog_spec (hlive : s.live) (hop : s.pwr.op = none) : (s.withSoft s.watchdog).pwr.phase = .hold ∧
    (s.withSoft s.watchdog).pwr.held = true ∧ (s.withSoft s.watchdog).mem = [] ∧ ∀ t ∈ s.tiles,
      (s.withSoft s.watchdog).rd t SYS_RESET_CAUSE_WATCHDOG = 1 ∧
      (s.softToo = false → (s.withSoft s.watchdog).rd t SYS_RESET_CAUSE = s.rd t SYS_RESET_CAUSE ||| 4) := by
  have heq : s.watchdog = s.doReset 4 false := by
    rw [State.watchdog, s.inReset_of_live hlive, State.internalReset, hop, if_neg Bool.false_ne_true, if_pos hlive]
  obtain ⟨hphase, hheld, hmem, hcause⟩ := s.doReset_spec 4 false
  rw [heq]
  obtain ⟨hregs, hsame, hbits⟩ := s.withSoft_spec (s.doReset 4 false)
  rw [s.doReset_id] at hsame hbits
  generalize s.doReset 4 false = r at hphase hheld hmem hcause hregs hsame hbits ⊢
  refine ⟨?_, ?_, ?_, fun t ht => ⟨?_, fun hsoft => ?_⟩⟩
  · rw [hregs.1]; exact hphase
  · rw [hregs.1]; exact hheld
  · rw [hregs.1]; exact hmem
  · have hbit : ((s.withSoft r).rd t SYS_RESET_CAUSE).testBit 2 := by
      refine hbits t ht 2 (by decide) ?_
      rw [hcause t ht, Nat.testBit_mod_two_pow, Nat.testBit_or]
      simp [show Nat.testBit 4 2 = true by decide]
    exact State.rd_one_of_is rfl ((State.is_bit _ t 0x0 0x24 2 (by decide)).trans hbit)
  · rw [hsame t ht hsoft, hcause t ht]
    exact Nat.mod_eq_of_lt (Nat.or_lt_two_pow (s.rd_lt t SYS_RESET_CAUSE) (by decide))

/-! The boot flash (R476, R489). -/

theorem PWR_FLASH_CTRL_OP_ok : PWR_FLASH_CTRL_OP.ok := by unfold Fld.ok; decide
theorem PWR_FLASH_STATUS_BUSY_ok : PWR_FLASH_STATUS_BUSY.ok := by unfold Fld.ok; decide
theorem PWR_FLASH_STATUS_DONE_ok : PWR_FLASH_STATUS_DONE.ok := by unfold Fld.ok; decide
theorem PWR_FLASH_ADDR_ok : PWR_FLASH_ADDR.ok := by unfold Fld.ok; decide
theorem PWR_ERR_FLASH_BUSY_ok : PWR_ERR_FLASH_BUSY.ok := by unfold Fld.ok; decide

/-- The registers as an operation of the flash starts. -/
def State.flashBusy (s : State) (op : Nat) : State :=
  ((s.wr 0 PWR_FLASH_CTRL_OP op).setF 0 PWR_FLASH_STATUS_BUSY).clrF 0 PWR_FLASH_STATUS_DONE

/-- The words that the start of an operation changes. -/
abbrev flashWords : WordSet := (PWR_FLASH_STATUS.wordAt 0).or (PWR_FLASH_CTRL.wordAt 0)

theorem State.flashBusy_spec (s : State) {op : Nat} (hop : op < 4) : (s.flashBusy op).rd 0 PWR_FLASH_STATUS_BUSY = 1 ∧
    (s.flashBusy op).rd 0 PWR_FLASH_STATUS_DONE = 0 ∧ (s.flashBusy op).rd 0 PWR_FLASH_CTRL_OP = op ∧ s.onlyRegs (s.flashBusy op) flashWords := by
  refine ⟨?_, State.rd_clrF _ _ _ PWR_FLASH_STATUS_DONE_ok, ?_, ?_⟩
  · rw [State.flashBusy, State.rd_clrF_ne _ (by decide) (by decide) PWR_FLASH_STATUS_BUSY_ok PWR_FLASH_STATUS_DONE_ok
      (.inr (by unfold Fld.apart; decide)), State.rd_setF _ _ _ PWR_FLASH_STATUS_BUSY_ok]
    rfl
  · rw [State.flashBusy, State.rd_clrF_ne _ (by decide) (by decide) PWR_FLASH_CTRL_OP_ok PWR_FLASH_STATUS_DONE_ok
      (.inr (by unfold Fld.apart; decide)), State.rd_setF_ne _ (by decide) (by decide) PWR_FLASH_CTRL_OP_ok PWR_FLASH_STATUS_BUSY_ok
      (.inr (by unfold Fld.apart; decide)), State.rd_wr _ _ _ _ PWR_FLASH_CTRL_OP_ok]
    exact Nat.mod_eq_of_lt hop
  · have hctrl := s.onlyRegs_wr (K := flashWords) op (by decide : 0 < 8) PWR_FLASH_CTRL_OP_ok (.inr ⟨rfl, rfl, rfl⟩)
    have hbusy := (s.wr 0 PWR_FLASH_CTRL_OP op).onlyRegs_setF (K := flashWords) (by decide : 0 < 8) PWR_FLASH_STATUS_BUSY_ok (.inl ⟨rfl, rfl, rfl⟩)
    exact State.onlyRegs_trans (State.onlyRegs_trans hctrl hbusy)
      (State.onlyRegs_clrF _ (by decide) PWR_FLASH_STATUS_DONE_ok (.inl ⟨rfl, rfl, rfl⟩))

/-- While no operation runs, one that is asked for starts. -/
theorem State.flashStart_eq (s : State) {op : Nat} (hop : op ≠ 0) (hidle : s.is 0 PWR_FLASH_STATUS_BUSY = false) :
    ∃ n bs, s.flashStart op = { s.flashBusy op with pwr := { s.pwr with op := some ⟨op, s.rd 0 PWR_FLASH_ADDR, n, bs⟩ } } := by
  have haddr : (s.flashBusy op).rd 0 PWR_FLASH_ADDR = s.rd 0 PWR_FLASH_ADDR := by
    rw [State.flashBusy, State.rd_clrF_ne _ (by decide) (by decide) PWR_FLASH_ADDR_ok PWR_FLASH_STATUS_DONE_ok
      (.inr (by unfold Fld.apart; decide)), State.rd_setF_ne _ (by decide) (by decide) PWR_FLASH_ADDR_ok PWR_FLASH_STATUS_BUSY_ok
      (.inr (by unfold Fld.apart; decide)), State.rd_wr_ne _ _ (by decide) (by decide) PWR_FLASH_ADDR_ok PWR_FLASH_CTRL_OP_ok
      (.inr (by unfold Fld.apart; decide))]
  rw [State.flashStart, hidle, if_neg Bool.false_ne_true, ← haddr]
  dsimp only
  rw [if_neg hop]
  exact ⟨_, _, rfl⟩

theorem State.flashStart_spec (s : State) {op : Nat} (hop : op ≠ 0) (hop4 : op < 4) (hidle : s.is 0 PWR_FLASH_STATUS_BUSY = false) :
    let u := s.after (s.flashStart op)
    u.rd 0 PWR_FLASH_STATUS_BUSY = 1 ∧ u.rd 0 PWR_FLASH_STATUS_DONE = 0 ∧ u.rd 0 PWR_FLASH_CTRL_OP = op ∧
    (∃ p, u.pwr.op = some p ∧ p.op = op ∧ p.addr = s.rd 0 PWR_FLASH_ADDR) ∧ s.sameWords u flashWords ∧ u.mem = s.mem := by
  obtain ⟨n, bs, heq⟩ := s.flashStart_eq hop hidle
  obtain ⟨hbusy, hdone, hctrl, hregs⟩ := s.flashBusy_spec hop4
  have hmem : (s.flashBusy op).mem = s.mem := by rw [hregs.1]
  rw [heq]
  generalize s.flashBusy op = b at hbusy hdone hctrl hregs hmem
  exact ⟨hbusy, hdone, hctrl, ⟨_, rfl, rfl, rfl⟩, hregs.2, hmem⟩

/-- A flash register is not session 0's to write: an access error, and nothing else (R36, R476). -/
theorem State.refuse_flash (s : State) (o : Origin) : (s.refuse o 0 PWR_FLASH_CTRL true).rd 0 SYS_ERR_ACCESS_ERR = 1 ∧
    s.onlyRegs (s.refuse o 0 PWR_FLASH_CTRL true) fun _ _ _ => True := by
  have htile : addrTile (addrOf 0 PWR_FLASH_CTRL.blk PWR_FLASH_CTRL.off) = 0 := by decide
  unfold State.refuse State.recordErr
  rw [htile, ite_self]
  dsimp only
  refine ⟨State.rd_setF _ _ _ SYS_ERR_ACCESS_ERR_ok, ?_⟩
  split
  · exact s.onlyRegs_setF_any _ _
  · exact State.onlyRegs_trans (State.onlyRegs_trans (s.onlyRegs_wr_any _ _ _) (State.onlyRegs_wr_any _ _ _ _)) (State.onlyRegs_setF_any _ _ _)

/-- What an operation of the flash leaves: the memory windows, the reset that waits for it, and the tiles. -/
def State.flashFrame (s u : State) : Prop := u.mem = s.mem ∧ u.pwr.waiting = s.pwr.waiting ∧ u.tiles = s.tiles

theorem State.flashFrame_of_onlyRegs (h : s.onlyRegs u K) : s.flashFrame u :=
  ⟨by rw [h.1], by rw [h.1], by rw [State.tiles, h.1]; rfl⟩

theorem State.flashFrame_freeFlash (s : State) (a n : Nat) : s.flashFrame (s.freeFlash a n) := ⟨rfl, rfl, rfl⟩

theorem State.flashFrame_setF (h : s.flashFrame u) (t : Nat) (f : Fld) : s.flashFrame (u.setF t f) := h

theorem State.flashFrame_fresh (h : s.fresh.2.flashFrame u) : s.flashFrame u := h

theorem State.flashFrame_flashDo (s : State) (o : FlashOp) : s.flashFrame (s.flashDo o) := by
  have hfail : ∀ a n, s.flashFrame ((s.fresh.2.freeFlash a n).setF 0 PWR_ERR_FLASH_FAIL) := fun a n =>
    State.flashFrame_fresh (State.flashFrame_setF (s.fresh.2.flashFrame_freeFlash a n) 0 PWR_ERR_FLASH_FAIL)
  unfold State.flashDo
  split
  · exact State.flashFrame_of_onlyRegs (K := fun _ _ _ => True) (State.onlyRegs_foldl (fun z w _ => z.onlyRegs_wr_any _ _ _) s)
  · show s.flashFrame (if s.fresh.1 % 2 = 1 then _ else _)
    split
    · exact hfail _ _
    · exact ⟨rfl, rfl, rfl⟩
  · show s.flashFrame (if s.fresh.1 % 2 = 1 then _ else _)
    split
    · exact hfail _ _
    · exact ⟨rfl, rfl, rfl⟩

/-- An operation ends: BUSY falls and DONE rises. -/
def State.flashIdle (s : State) : State :=
  ({ s with pwr := { s.pwr with op := none } }.clrF 0 PWR_FLASH_STATUS_BUSY).setF 0 PWR_FLASH_STATUS_DONE

theorem State.flashDone_eq {p : FlashOp} (h : s.pwr.op = some p) : s.flashDone =
    if (s.flashDo p).pwr.waiting = 0 then (s.flashDo p).flashIdle else (s.flashDo p).flashIdle.doReset (s.flashDo p).pwr.waiting false := by
  rw [State.flashDone, h]
  rfl

theorem State.flashIdle_spec (s : State) : s.flashIdle.rd 0 PWR_FLASH_STATUS_BUSY = 0 ∧ s.flashIdle.rd 0 PWR_FLASH_STATUS_DONE = 1 := by
  constructor
  · rw [State.flashIdle, State.rd_setF_ne _ (by decide) (by decide) PWR_FLASH_STATUS_BUSY_ok PWR_FLASH_STATUS_DONE_ok
      (.inr (by unfold Fld.apart; decide)), State.rd_clrF _ _ _ PWR_FLASH_STATUS_BUSY_ok]
  · exact State.rd_setF _ _ _ PWR_FLASH_STATUS_DONE_ok

theorem State.flashOpDone_idle {p : FlashOp} (hop : s.pwr.op = some p) (hwait : s.pwr.waiting = 0) : s.flashDone.pwr.op = none ∧
    s.flashDone.rd 0 PWR_FLASH_STATUS_BUSY = 0 ∧ s.flashDone.rd 0 PWR_FLASH_STATUS_DONE = 1 ∧ s.flashDone.mem = s.mem := by
  obtain ⟨hmem, hwaiting, -⟩ := s.flashFrame_flashDo p
  obtain ⟨hbusy, hdone⟩ := (s.flashDo p).flashIdle_spec
  rw [State.flashDone_eq hop, hwaiting, if_pos hwait]
  exact ⟨rfl, hbusy, hdone, hmem⟩

theorem State.flashOpDone_reset {p : FlashOp} (hop : s.pwr.op = some p) (hwait : s.pwr.waiting ≠ 0) : s.flashDone.pwr.phase = .hold ∧
    s.flashDone.pwr.held = true ∧ ∀ t ∈ s.tiles, ∀ k, s.pwr.waiting.testBit k → k < 32 → (s.flashDone.rd t SYS_RESET_CAUSE).testBit k := by
  obtain ⟨-, hwaiting, htiles⟩ := s.flashFrame_flashDo p
  obtain ⟨hphase, hheld, -, hcause⟩ := (s.flashDo p).flashIdle.doReset_spec s.pwr.waiting false
  rw [State.flashDone_eq hop, hwaiting, if_neg hwait]
  refine ⟨hphase, hheld, fun t ht k hbit hk => ?_⟩
  have hidle : (s.flashDo p).flashIdle.tiles = (s.flashDo p).tiles := rfl
  rw [hcause t (by rwa [hidle, htiles]), Nat.testBit_mod_two_pow, Nat.testBit_or, hbit]
  simp [hk]

/-! What a meaning of every phase answers. -/

theorem always_not {c : Prop} [Decidable c] (h : ¬ c) (u : State) : always s (if c then u else s) = .next s := by
  rw [if_neg h]
  rfl

theorem always_when {c : Prop} [Decidable c] (h : c) (u : State) : always s (if c then u else s) = .next (s.after u) := by
  rw [if_pos h]
  rfl

/-! PORST_N, the rails and the phases (R463, R464). -/

theorem State.gives_porstNFall (hon : s.pwr.phase ≠ .off) : s.gives .porstNFall fun u => u.pwr.phase = .hold ∧ u.pwr.porstHigh = false ∧
    u.rd 0 BND_CTRL_RUN = 0 ∧ u.mem = [] ∧ (s.lcs.cmd = none → u.lcs.fuses = s.lcs.fuses) := by
  obtain ⟨hphase, hhigh, -, hmem, hrun, hfuses⟩ := ({ s with pwr := { s.pwr with porstHigh := false } } : State).powerOnReset_spec .hold
  have heq : s.porstFall = ({ s with pwr := { s.pwr with porstHigh := false } } : State).powerOnReset .hold := by
    rw [State.porstFall]
    exact if_neg hon
  rw [← heq] at hphase hhigh hmem hrun hfuses
  exact ⟨s.after s.porstFall, rfl, hphase, hhigh, hrun, hmem, hfuses⟩

theorem State.gives_porstNFall_off (hoff : s.pwr.phase = .off) :
    s.gives .porstNFall fun u => u = { s with pwr := { s.pwr with porstHigh := false } } := by
  have heq : s.porstFall = { s with pwr := { s.pwr with porstHigh := false } } := by
    rw [State.porstFall]
    exact if_pos hoff
  exact ⟨s.after s.porstFall, rfl, by rw [heq]; rfl⟩

theorem State.gives_porstNRise (hhold : s.pwr.phase = .hold) (hheld : s.pwr.held = false) :
    s.gives .porstNRise fun u => u.pwr.phase = .fuse ∧ u.pwr.porstHigh := by
  have heq : s.porstRise = ({ s with pwr := { s.pwr with porstHigh := true } } : State).endHold := by
    rw [State.porstRise]
    exact if_pos ⟨hhold, by simp [hheld]⟩
  refine ⟨s.after s.porstRise, rfl, ?_⟩
  rw [heq, State.endHold_eq]
  exact ⟨rfl, rfl⟩

theorem State.gives_porstNRise_held (h : s.pwr.phase ≠ .hold ∨ s.pwr.held) :
    s.gives .porstNRise fun u => u = { s with pwr := { s.pwr with porstHigh := true } } := by
  have heq : s.porstRise = { s with pwr := { s.pwr with porstHigh := true } } := by
    rw [State.porstRise]
    refine if_neg fun ⟨hhold, hheld⟩ => ?_
    exact h.elim (fun hne => hne hhold) fun hh => hheld hh
  exact ⟨s.after s.porstRise, rfl, by rw [heq]; rfl⟩

theorem State.gives_holdEnd (h : s.holdOver) :
    s.gives .holdEnd fun u => u.pwr.phase = .fuse ∧ ∀ t ∈ s.tiles, u.rd t CAL_TEMP_LAST = s.rd t CAL_TEMP_NOW := by
  refine ⟨s.after s.endHold, always_when h _, ?_⟩
  rw [State.endHold_eq]
  exact ⟨rfl, s.rd_latchTemps⟩

theorem State.gives_railInTolerance (hoff : s.pwr.phase = .off) : s.gives .railInTolerance fun u =>
    u.pwr.phase = (if s.pwr.porstHigh then .fuse else .hold) ∧ u.pwr.rails = 127 := by
  obtain ⟨hphase, hhigh, hrails, -⟩ := ({ s with pwr := { s.pwr with rails := 127 } } : State).powerOnReset_spec .hold
  have heq : s.railsIn = if (({ s with pwr := { s.pwr with rails := 127 } } : State).powerOnReset .hold).pwr.porstHigh
      then (({ s with pwr := { s.pwr with rails := 127 } } : State).powerOnReset .hold).endHold
      else ({ s with pwr := { s.pwr with rails := 127 } } : State).powerOnReset .hold := by
    rw [State.railsIn]
    exact if_pos hoff
  generalize ({ s with pwr := { s.pwr with rails := 127 } } : State).powerOnReset .hold = z at hphase hhigh hrails heq
  have hhigh : z.pwr.porstHigh = s.pwr.porstHigh := hhigh
  refine ⟨s.after s.railsIn, rfl, ?_⟩
  rw [heq, hhigh]
  split
  · rw [State.endHold_eq]
    exact ⟨rfl, hrails⟩
  · exact ⟨hphase, hrails⟩

theorem State.gives_fuseDone (h : s.pwr.phase = .fuse) : s.gives .fuseDone fun u => u.pwr.phase = .clock ∧ u.mem = s.mem := by
  have hexec : exec .fuseDone s = always s (if s.pwr.phase = .fuse then s.fuseRead else s) := rfl
  have hspec := s.fuseRead_spec
  rw [always_when h] at hexec
  generalize s.fuseRead = u at hexec hspec
  exact ⟨_, hexec, hspec⟩

theorem State.exec_bootDone (h : s.bootReady) : exec .bootDone s = .next (s.after s.bootDone) ∧ (s.flashItem 5 = none → s.gives .bootDone fun u =>
    u.pwr.phase = .run ∧ u.rd 0 SYS_STATUS_BOOT_DONE = 1 ∧ u.rd 0 SYS_STATUS_TILES_UP = 1 ∧ u.mem = s.mem) := by
  have hexec : exec .bootDone s = always s (if s.bootReady then s.bootDone else s) := rfl
  rw [always_when h] at hexec
  have hspec := s.bootDone_spec
  generalize s.bootDone = u at hexec hspec ⊢
  exact ⟨hexec, fun himage => ⟨_, hexec, hspec himage⟩⟩

/-! The flash commands (R476). -/

theorem exec_flash (s : State) (o : Origin) {x : Nat × Instr} (hx : x ∈ [(1, Instr.flashRead o), (2, .flashProgram o), (3, .flashErase o)]) :
    x.1 ≠ 0 ∧ x.1 < 4 ∧ exec x.2 s = finish s (s.flashAsk o x.1) := by
  simp only [List.mem_cons, List.not_mem_nil, or_false] at hx
  have h1 : 1 ≠ 0 ∧ 1 < 4 := by decide
  have h2 : 2 ≠ 0 ∧ 2 < 4 := by decide
  have h3 : 3 ≠ 0 ∧ 3 < 4 := by decide
  rcases hx with rfl | rfl | rfl
  · exact ⟨h1.1, h1.2, rfl⟩
  · exact ⟨h2.1, h2.2, rfl⟩
  · exact ⟨h3.1, h3.2, rfl⟩

theorem State.flashAsk_session {n : Fin 8} (hn : n.val ≠ 0) (op : Nat) : s.flashAsk (.session n) op = s.flashStart op :=
  if_pos (bne_iff_ne.2 hn)

theorem State.flashAsk_hub {n : Fin 8} (hn : n.val = 0) (op : Nat) : s.flashAsk (.session n) op = s.refuse (.session n) 0 PWR_FLASH_CTRL true :=
  if_neg (by simp [flashOrigin, hn])

/-! The pins (R467). -/

theorem State.pins_silent (hboot : s.pwr.phase ≠ .boot) (hrun : s.pwr.phase ≠ .run) : s.readyPin = .z ∧ s.intPin = .z ∧ (∀ o, s.trigPin o = .z) ∧
    s.absClockPin = .z ∧ (∀ t p, s.backPairOn t p = false) ∧ ∀ p, s.ethLanesOn p = false := by
  simp [State.readyPin, State.silent, State.intPin, State.trigPin, State.absClockPin, State.backPairOn, State.ethLanesOn, hboot, hrun]

theorem State.pins_boot (hboot : s.pwr.phase = .boot) : (s.readyPin = if s.is 0 SYS_STATUS_READY then .high else .low) ∧ s.intPin = .z ∧
    (∀ o, s.trigPin o = .z) ∧ (∀ t p, s.backPairOn t p = false) ∧ ∀ p, s.ethLanesOn p = false := by
  simp [State.readyPin, State.silent, State.intPin, State.trigPin, State.backPairOn, State.ethLanesOn, driveOf, hboot]

theorem State.pins_run (hrun : s.pwr.phase = .run) :
    (s.intPin = .low ↔ s.intLow) ∧ s.absClockPin = .high ∧ s.qspiSelect = some (if s.pwr.op.isNone then .high else .low) := by
  refine ⟨?_, if_pos hrun, by simp [State.qspiSelect, driveOf, hrun]⟩
  unfold State.intPin
  by_cases h : s.intLow <;> simp [hrun, h]

/-- Settles O60: a power-on reset and an internal one, phase by phase, and the flash with what an operation leaves. -/
theorem resetBootAndFlash : Obligations.ResetBootAndFlash := by
  unfold Obligations.ResetBootAndFlash
  constructor
  · intro s
    refine ⟨State.gives_porstNFall, State.gives_porstNFall_off, State.gives_porstNRise, State.gives_porstNRise_held, State.gives_holdEnd,
      fun h => always_not h _, State.gives_fuseDone, fun h => always_not h _, fun h hclk => ?clock, fun h => always_not h _,
      State.exec_bootDone, fun h => always_not h _,
      fun h hhigh => ?railHigh, fun h hlow => ?railLow, fun h => always_not h _,
      fun k mv hon hhigh => ⟨s.after (s.supply k mv.toNat), rfl, s.supply_spec k.isLt mv.isLt hon hhigh⟩, fun hlive hop => ?watchdog,
      State.pins_silent, State.pins_boot, State.pins_run⟩
    case clock => exact ⟨s.after s.clockDone, always_when ⟨h, hclk⟩ _, s.clockDone_spec⟩
    case railHigh => simpa only [if_pos hhigh] using State.gives_railInTolerance h
    case railLow => simpa only [if_neg hlow] using State.gives_railInTolerance h
    case watchdog =>
      obtain ⟨hphase, hheld, hmem, hcause⟩ := State.watchdog_spec hlive hop
      exact ⟨s.after (s.withSoft s.watchdog), rfl, hphase, hheld, hmem,
        fun t ht => ⟨(hcause t ht).1, fun hsoft => (hcause t ht).2 (Bool.eq_false_iff.2 hsoft)⟩⟩
  · intro s n hlive
    refine ⟨fun hn x hx => ⟨fun hidle => ?start, fun hbusy => ?busy⟩, fun hn i hi => ?hub, fun hop => ?none, fun p hop hwait => ?done,
      fun p hop hwait => ?reset⟩
    case start =>
      obtain ⟨hop, hop4, hexec⟩ := exec_flash s _ hx
      rw [State.flashAsk_session hn, finish_live hlive] at hexec
      exact ⟨_, hexec, s.flashStart_spec hop hop4 (Bool.eq_false_iff.2 hidle)⟩
    case busy =>
      obtain ⟨-, -, hexec⟩ := exec_flash s _ hx
      have hstart : s.flashStart x.1 = s.setF 0 PWR_ERR_FLASH_BUSY := if_pos hbusy
      rw [State.flashAsk_session hn, finish_live hlive, hstart] at hexec
      have hregs := s.onlyRegs_setF (K := PWR_ERR.wordAt 0) (by decide : 0 < 8) PWR_ERR_FLASH_BUSY_ok ⟨rfl, rfl, rfl⟩
      exact State.gives_of_onlyRegs hexec hregs ⟨State.rd_setF _ _ _ PWR_ERR_FLASH_BUSY_ok, hregs⟩
    case hub =>
      obtain ⟨op, hx⟩ : ∃ op, (op, i) ∈ [(1, Instr.flashRead (.session n)), (2, .flashProgram (.session n)), (3, .flashErase (.session n))] := by
        simp only [List.mem_cons, List.not_mem_nil, or_false] at hi
        rcases hi with rfl | rfl | rfl
        · exact ⟨1, by simp⟩
        · exact ⟨2, by simp⟩
        · exact ⟨3, by simp⟩
      obtain ⟨-, -, hexec⟩ := exec_flash s _ hx
      rw [State.flashAsk_hub hn, finish_live hlive] at hexec
      obtain ⟨herr, hregs⟩ := s.refuse_flash (.session n)
      exact State.gives_of_onlyRegs hexec hregs ⟨herr, by rw [hregs.1], by rw [hregs.1]⟩
    case none =>
      have hdone : s.flashDone = s := by rw [State.flashDone, hop]
      exact (finish_live hlive).trans (by rw [hdone]; rfl)
    case done => exact ⟨s.after s.flashDone, finish_live hlive, State.flashOpDone_idle hop hwait⟩
    case reset => exact ⟨s.after s.flashDone, finish_live hlive, State.flashOpDone_reset hop hwait⟩

end Sys2Proof.Machine
end

section
/-! SUPPORT. Sessions (R340, R342, R355, R372): which are open after each change, and what closing one leaves of them. -/

namespace Sys2Proof.Machine

variable {s u v : State}

/-! What changes nothing of the network. -/

theorem State.net_foldl {f : State → α → State} (hf : ∀ s x, (f s x).net = s.net) (l : List α) (s : State) : (l.foldl f s).net = s.net := by
  induction l generalizing s with
  | nil => rfl
  | cons x l ih => rw [List.foldl_cons, ih, hf]

theorem State.net_ite {c : Prop} [Decidable c] (hu : u.net = s.net) (hv : v.net = s.net) : (if c then u else v).net = s.net := by
  split
  · exact hu
  · exact hv

@[simp] theorem State.net_evtSet (s : State) (b t : Nat) (f : Fld) (v : Nat) : (s.evtSet b t f v).net = s.net := by
  unfold State.evtSet
  dsimp only
  split <;> rfl

@[simp] theorem State.net_evtClear (s : State) (t : Nat) (fs : List Fld) : (s.evtClear t fs).net = s.net :=
  State.net_foldl (fun s f => s.net_evtSet s.bank t f 0) fs s

@[simp] theorem State.net_relayCut (s : State) (t k : Nat) : (s.relayCut t k).net = s.net := by
  unfold State.relayCut
  dsimp only
  rw [State.net_foldl fun s g => State.net_ite (s.net_evtSet _ _ _ _) rfl, State.net_foldl fun s c => State.net_ite (s.net_evtSet _ _ _ _) rfl]

/-- What a session owns of a tile's relays and channels is released. -/
theorem State.net_tileRelease (s : State) (t n : Nat) (cs : List Nat) : (cs.foldl (fun s c =>
    if s.rd t (EVT_CH_ATTR_OWNER c) = n then (s.evtClear t (chanWords c)).wr t (EVT_CH_ATTR_OWNER c) 0 else s) ([12, 13, 14, 15].foldl (fun s k =>
    if s.rd t (EVT_RELAY_OWNER k) = n then (s.evtSet s.bank t (EVT_RELAY k) 0).relayCut t k else s) s)).net = s.net := by
  have hchan : ∀ (s : State) (c : Nat), ((s.evtClear t (chanWords c)).wr t (EVT_CH_ATTR_OWNER c) 0).net = s.net := fun s c => by
    rw [State.net_wr, State.net_evtClear]
  have hrelay : ∀ (s : State) (k : Nat), ((s.evtSet s.bank t (EVT_RELAY k) 0).relayCut t k).net = s.net := fun s k => by
    rw [State.net_relayCut, State.net_evtSet]
  exact (State.net_foldl (fun s c => State.net_ite (hchan s c) rfl) _ _).trans (State.net_foldl (fun s k => State.net_ite (hrelay s k) rfl) _ _)

theorem State.net_evtSessionClose (s : State) (n : Nat) : (s.evtSessionClose n).net = s.net := by
  have hgroup : ∀ (s : State) (g : Nat), ((s.eachTile fun t s => s.evtClear t (gchanWords g)).wr 0 (EVT_GCH_ATTR_OWNER g) 0).net = s.net :=
    fun s g => by
      rw [State.net_wr, State.eachTile]
      exact State.net_foldl (fun s t => s.net_evtClear t (gchanWords g)) s.tiles s
  unfold State.evtSessionClose
  exact (State.net_foldl (fun s g => State.net_ite (hgroup s g) rfl) _ _).trans (State.net_foldl (fun s t => s.net_tileRelease t n _) s.tiles s)

@[simp] theorem State.net_bpHalt (s : State) (t e : Nat) : (s.bpHalt t e).net = s.net := by
  unfold State.bpHalt
  split <;> rfl

@[simp] theorem State.net_engResume (s : State) (t e : Nat) : (s.engResume t e).net = s.net := by
  unfold State.engResume
  dsimp only
  split
  · rfl
  · split
    · have hclose : ∀ (s : State) (n : Nat), (s.closeOut t e n).net = s.net := fun s n => State.net_ite rfl rfl
      simp [State.abortEntry, State.enter, State.passBand, hclose]
    · rfl

/-! Which sessions are open. -/

@[simp] theorem State.sessions_notify (s : State) (code a0 a1 a2 a3 : Nat) : (s.notify code a0 a1 a2 a3).net.sessions = s.net.sessions := by
  unfold State.notify
  split <;> rfl

theorem State.sessions_debugEnd (s : State) (why : Nat) : (s.debugEnd why).net.sessions = s.net.sessions := by
  unfold State.debugEnd
  split
  · rfl
  · dsimp only
    rw [State.sessions_notify, State.net_updLcs, State.net_clrF, State.net_clrF, State.net_foldl fun s k => ?_]
    rw [State.net_clrF, State.net_engResume]

theorem State.sessions_lcsSessionClose (s : State) (n : Nat) : (s.lcsSessionClose n).net.sessions = s.net.sessions := by
  unfold State.lcsSessionClose
  dsimp only
  have hclr : (if s.rd 0 LCS_MBOX_OWNER_SESSION = n then s.clrF 0 LCS_MBOX_OWNER_SESSION else s).net = s.net := State.net_ite rfl rfl
  generalize (if s.rd 0 LCS_MBOX_OWNER_SESSION = n then s.clrF 0 LCS_MBOX_OWNER_SESSION else s) = z at hclr ⊢
  split
  · rw [State.sessions_debugEnd, hclr]
  · rw [hclr]

/-- Refusing a load closes no session. -/
theorem State.sessions_loadRefuse (s : State) (code sec ofs : Nat) : (s.loadRefuse code sec ofs).net.sessions = s.net.sessions := by
  unfold State.loadRefuse
  dsimp only
  rw [State.net_updCfg, State.net_setIf]
  have hrefusal : ∀ n, (s.refusal code sec ofs n).net.sessions = s.net.sessions := fun n => State.sessions_notify _ _ _ _ _ _
  split
  · exact hrefusal _
  · exact hrefusal _

theorem State.sessions_loadStop (s : State) : s.loadStop.net.sessions = s.net.sessions := by
  unfold State.loadStop
  split
  · exact s.sessions_loadRefuse _ _ _
  · rfl

/-- After a session has closed every other one is as it was. -/
theorem State.sessions_sessionClose (s : State) (n : Nat) : (s.sessionClose n).net.sessions = s.net.sessions.filter (·.1 != n) := by
  unfold State.sessionClose
  split
  · next h =>
    refine (List.filter_eq_self.2 fun x hx => ?_).symm
    have hclosed : s.sessOpen n = false := by simpa using h
    have hne : ¬ (x.1 == n) = true := List.any_eq_false.1 hclosed x hx
    simpa using hne
  · dsimp only
    rw [State.sessions_lcsSessionClose, State.net_evtSessionClose]
    have hstop : (if s.shadowSt = 1 ∧ s.cfg.load.any (·.session == n) then s.loadStop else s).net.sessions = s.net.sessions := by
      split
      · exact s.sessions_loadStop
      · rfl
    rw [← hstop]
    rfl

theorem State.sessAt_of_sessions (h : u.net.sessions = s.net.sessions) (n : Nat) : u.sessAt n = s.sessAt n := by rw [State.sessAt, h]; rfl

theorem State.sessOpen_iff (s : State) (n : Nat) : s.sessOpen n = (s.sessAt n).isSome := by
  rw [State.sessOpen, State.sessAt, Option.isSome_map, List.isSome_find?]

theorem State.sessAt_sessionClose_same (s : State) (n : Nat) : (s.sessionClose n).sessAt n = none := by
  rw [State.sessAt, State.sessions_sessionClose, Option.map_eq_none_iff, List.find?_eq_none]
  intro x hx
  simpa using (List.mem_filter.1 hx).2

/-- A session that is not open is not opened by closing another. -/
theorem State.sessAt_sessionClose_none {k : Nat} (h : s.sessAt k = none) (n : Nat) : (s.sessionClose n).sessAt k = none := by
  rw [State.sessAt, Option.map_eq_none_iff, List.find?_eq_none] at h ⊢
  rw [State.sessions_sessionClose]
  exact fun x hx => h x (List.mem_filter.1 hx).1

theorem State.sessAt_sessCloseWrite {v k : Nat} (hk : 1 ≤ k ∧ k ≤ 7) (hv : v.testBit k) : (s.sessCloseWrite v).sessAt k = none := by
  have hfold : ∀ l : List Nat, ∀ s : State, k ∈ l ∨ s.sessAt k = none →
      (l.foldl (fun s k => if v.testBit k then s.sessionClose k else s) s).sessAt k = none := by
    intro l
    induction l with
    | nil => exact fun s h => h.resolve_left (by simp)
    | cons n l ih =>
      intro s h
      refine ih _ ?_
      dsimp only
      by_cases hn : k = n
      · subst hn
        exact .inr (by rw [if_pos hv]; exact s.sessAt_sessionClose_same k)
      · rcases h with h | h
        · exact .inl ((List.mem_cons.1 h).resolve_left hn)
        · refine .inr ?_
          split
          · exact State.sessAt_sessionClose_none h n
          · exact h
  refine hfold _ s (.inl ?_)
  simp only [List.mem_cons, List.not_mem_nil, or_false]
  omega

end Sys2Proof.Machine
end

section
/-! SUPPORT. Requests of the control protocol (R339 to R343, R355): what every request does before its operation, and what its answer changes. -/

namespace Sys2Proof.Machine

variable {s u v : State} {K : WordSet} {h : LcpHdr} {op : Nat} {pay : Bytes}

/-! The way of a request to the firmware. -/

/-- The request has crossed to tile 0, and gone on along the chain. -/
def State.lcpWay (s : State) (h : LcpHdr) (op : Nat) (pay : Bytes) : State :=
  if h.dst.val = 63 ∧ op ≠ 0x40 ∧ 0 < h.ttl.val then (s.hopOver h).lcpForward h op (h.ttl.val - 1) pay else s.hopOver h

theorem State.lcpBegun_eq (s : State) (h : LcpHdr) (op : Nat) (pay : Bytes) :
    s.lcpBegun h op pay = ((s.lcpWay h op pay).sessTouch h).addWrap 0 CHN_LCP_REQS 1 := rfl

theorem State.onlySends_lcpWay (s : State) (h : LcpHdr) (op : Nat) (pay : Bytes) : s.onlySends (s.lcpWay h op pay) := by
  have hover : s.onlySends (s.hopOver h) := by
    unfold State.hopOver
    split
    · exact s.onlySends_crossed 1 0
    · exact s.onlySends_refl
  unfold State.lcpWay
  split
  · exact State.onlySends_trans hover (State.onlySends_fwSend _ _ _ _)
  · exact hover

/-- A session whose source has sent a frame. -/
def State.touched (s : State) (h : LcpHdr) (x : Nat × Session) : Nat × Session :=
  if x.2.src = h.src then (x.1, { x.2 with port := h.port.val, mac := h.mac.toNat, last := if s.sessOver x.2 then x.2.last else s.tim.tb0 }) else x

theorem State.touched_fst (s : State) (h : LcpHdr) (x : Nat × Session) : (s.touched h x).1 = x.1 := by unfold State.touched; split <;> rfl

theorem State.touched_src (s : State) (h : LcpHdr) (x : Nat × Session) : (s.touched h x).2.src = x.2.src := by unfold State.touched; split <;> rfl

/-- What a request changes before its operation: a count, its source's sessions, and what it sends on. -/
def State.onlyTakes (s u : State) : Prop :=
  u = { s with
    regs := u.regs, cyc := u.cyc, links := u.links,
    net := { s.net with tx := u.net.tx, fwWait := u.net.fwWait, hopOut := u.net.hopOut, sessions := u.net.sessions } }

theorem State.onlyTakes_lcpBegun (s : State) (h : LcpHdr) (op : Nat) (pay : Bytes) : s.onlyTakes (s.lcpBegun h op pay) := by
  have hway := s.onlySends_lcpWay h op pay
  rw [State.lcpBegun_eq]
  generalize s.lcpWay h op pay = z at hway
  unfold State.onlySends at hway
  rw [hway]
  rfl

theorem State.sessions_lcpBegun (s : State) (h : LcpHdr) (op : Nat) (pay : Bytes) :
    (s.lcpBegun h op pay).net.sessions = s.net.sessions.map (s.touched h) := by
  have hway := s.onlySends_lcpWay h op pay
  rw [State.lcpBegun_eq, State.net_addWrap]
  generalize s.lcpWay h op pay = z at hway
  unfold State.onlySends at hway
  have hsess : z.net.sessions = s.net.sessions := by rw [hway]
  have htouch : z.touched h = s.touched h := by rw [hway]; rfl
  rw [← hsess, ← htouch]
  rfl

theorem CHN_LCP_REQS_ok : CHN_LCP_REQS.ok := by unfold Fld.ok; decide

/-- The request is counted, and no other register word changes. -/
theorem State.lcpBegun_counts (s : State) (h : LcpHdr) (op : Nat) (pay : Bytes) :
    (s.lcpBegun h op pay).rd 0 CHN_LCP_REQS = (s.rd 0 CHN_LCP_REQS + 1) % 2 ^ 32 ∧ s.keeps (s.lcpBegun h op pay) (CHN_LCP_REQS.wordAt 0) := by
  have hway := s.onlySends_lcpWay h op pay
  rw [State.lcpBegun_eq]
  generalize s.lcpWay h op pay = z at hway
  unfold State.onlySends at hway
  have hregs : (z.sessTouch h).regs = s.regs := by rw [hway]; rfl
  have hbank : (z.sessTouch h).bank = s.bank := by rw [hway]; rfl
  have hkeep := State.keeps_of_regs hregs hbank fun _ _ _ => False
  refine ⟨?_, State.keeps_trans (State.keeps_of_regs hregs hbank _) (State.keeps_wr _ _ (by decide) CHN_LCP_REQS_ok ⟨rfl, rfl, rfl⟩)⟩
  rw [State.addWrap, State.rd_wr _ _ _ _ CHN_LCP_REQS_ok, State.rd_of_keeps hkeep (by decide) CHN_LCP_REQS_ok fun h => h]
  rfl

section Begun

theorem State.rd_lcpBegun (s : State) (h : LcpHdr) (op : Nat) (pay : Bytes) {f : Fld} (hf : f.ok) (hne : f.off ≠ CHN_LCP_REQS.off) :
    (s.lcpBegun h op pay).rd 0 f = s.rd 0 f :=
  State.rd_of_keeps (s.lcpBegun_counts h op pay).2 (by decide) hf fun hK => hne hK.2.2

theorem State.lcpCopy_lcpBegun (s : State) (h : LcpHdr) (op : Nat) (pay : Bytes) : (s.lcpBegun h op pay).lcpCopy h = s.lcpCopy h := by
  have e := s.onlyTakes_lcpBegun h op pay
  unfold State.onlyTakes at e
  rw [State.lcpCopy, e]
  rfl

theorem State.keptReply_lcpBegun (s : State) (h : LcpHdr) (op : Nat) (pay : Bytes) : (s.lcpBegun h op pay).keptReply h = s.keptReply h := by
  have e := s.onlyTakes_lcpBegun h op pay
  unfold State.onlyTakes at e
  rw [State.keptReply, e]
  rfl

theorem State.sessAt_lcpBegun (s : State) (h : LcpHdr) (op : Nat) (pay : Bytes) (n : Nat) :
    (s.lcpBegun h op pay).sessAt n = ((s.net.sessions.find? (·.1 == n)).map (s.touched h)).map (·.2) := by
  have hkey : (fun x : Nat × Session => x.1 == n) ∘ s.touched h = fun x => x.1 == n := by
    funext x
    rw [Function.comp_apply, State.touched_fst]
  rw [State.sessAt, State.sessions_lcpBegun, List.find?_map, hkey]

theorem State.sessOpen_lcpBegun (s : State) (h : LcpHdr) (op : Nat) (pay : Bytes) (n : Nat) : (s.lcpBegun h op pay).sessOpen n = s.sessOpen n := by
  rw [State.sessOpen_iff, State.sessOpen_iff, State.sessAt_lcpBegun, State.sessAt]
  simp only [Option.isSome_map]

theorem State.sessMine_lcpBegun (s : State) (h : LcpHdr) (op : Nat) (pay : Bytes) : (s.lcpBegun h op pay).sessMine h = s.sessMine h := by
  rw [State.sessMine, State.sessMine, State.sessAt_lcpBegun, State.sessAt]
  simp only [Option.any_map, State.touched_src]

theorem State.sessAllows_lcpBegun (s : State) (h : LcpHdr) (op : Nat) (pay : Bytes) (free : Bool) :
    (s.lcpBegun h op pay).sessAllows h op free = s.sessAllows h op free := by
  rw [State.sessAllows, State.sessMine_lcpBegun, State.sessOpen_lcpBegun]
  rfl

end Begun

/-! The rows of requests. -/

/-- A request that fits and whose session allows it is carried out. -/
theorem State.lcpRequest_runs {free : Bool} (hruns : s.lcpRuns h op free) (act : State → LcpOut) :
    (s.hopOver h).lcpRequest h op pay true free act = (act (s.lcpBegun h op pay)).finish h op := by
  obtain ⟨-, -, hcopy, haddr, hallows, hkept⟩ := hruns
  have hcopy := (s.lcpCopy_lcpBegun h op pay).trans (Bool.eq_false_iff.2 hcopy)
  have hrd := s.rd_lcpBegun h op pay CHN_ADDR_ADDR_ok (by decide)
  have hallows := (s.sessAllows_lcpBegun h op pay free).trans hallows
  have hkept := (s.keptReply_lcpBegun h op pay).trans hkept
  have htells : ¬ ((s.lcpBegun h op pay).rd 0 CHN_ADDR_ADDR = 0 ∧ (!opTells op) = true) := by
    rw [hrd]
    rintro ⟨hz, hno⟩
    rcases haddr with hne | ht
    · exact hne hz
    · rw [ht] at hno
      exact Bool.false_ne_true hno
  have hbegun : (((if h.dst.val = 63 ∧ op ≠ 0x40 ∧ 0 < h.ttl.val then (s.hopOver h).lcpForward h op (h.ttl.val - 1) pay
    else s.hopOver h).sessTouch h).addWrap 0 CHN_LCP_REQS 1) = s.lcpBegun h op pay := rfl
  unfold State.lcpRequest State.lcpTake
  dsimp only
  rw [hbegun, hcopy, if_neg Bool.false_ne_true, if_neg htells, if_neg (by decide), hallows, if_neg (by decide), hkept]

/-- A request that is not carried out again, with NOREPLY and an address to answer for: it is counted and no more. -/
theorem State.lcpRequest_turned {fits free : Bool} (hnoreply : h.noreply) (hcopy : ¬ s.lcpCopy h)
    (hturn : fits = false ∨ s.sessAllows h op free = false ∨ s.keptReply h ≠ none) (act : State → LcpOut) :
    (s.hopOver h).lcpRequest h op pay fits free act = s.lcpBegun h op pay := by
  have hsilent : (s.lcpBegun h op pay).lcpSilent h op = true := by
    rw [State.lcpSilent, hnoreply, Bool.true_or, Bool.true_or]
  have hturned : ∀ st, (s.lcpBegun h op pay).lcpTurn h op st = s.lcpBegun h op pay := fun st => if_pos hsilent
  have hcopy := (s.lcpCopy_lcpBegun h op pay).trans (Bool.eq_false_iff.2 hcopy)
  have hbegun : (((if h.dst.val = 63 ∧ op ≠ 0x40 ∧ 0 < h.ttl.val then (s.hopOver h).lcpForward h op (h.ttl.val - 1) pay
    else s.hopOver h).sessTouch h).addWrap 0 CHN_LCP_REQS 1) = s.lcpBegun h op pay := rfl
  unfold State.lcpRequest State.lcpTake
  dsimp only
  rw [hbegun, hcopy, if_neg Bool.false_ne_true, hturned, hturned, State.sessAllows_lcpBegun, State.keptReply_lcpBegun]
  split
  · rfl
  · split
    · rfl
    · next hfits =>
      split
      · rfl
      · next hallows =>
        cases hk : s.keptReply h with
        | some m =>
          dsimp only
          rw [hsilent, Bool.or_true, if_pos rfl]
        | none =>
          rcases hturn with hf | ha | hne
          · exact absurd hf (by simpa using hfits)
          · exact absurd ha (by simpa using hallows)
          · exact absurd hk hne

section Rows

variable {fits free : Bool} {act : State → LcpOut}

theorem lcpRow_other (hlive : s.live) (hmine : ¬ s.lcpMine h) : lcpRow h op pay fits free act s = .next s := by
  unfold lcpRow whenEv
  rw [if_neg hmine, finish_live hlive]
  rfl

theorem lcpRow_stays (hlive : s.live) (hmine : s.lcpMine h) (hstays : s.lcpStays h) :
    lcpRow h op pay fits free act s = .next (s.after (s.hopWait ⟨h, op, pay⟩)) := by
  unfold lcpRow
  rw [whenEv_live hlive hmine, if_pos hstays]

theorem lcpRow_takes (hlive : s.live) (hmine : s.lcpMine h) (hstays : ¬ s.lcpStays h) :
    lcpRow h op pay fits free act s = .next (s.after ((s.hopOver h).lcpRequest h op pay fits free act)) := by
  unfold lcpRow
  rw [whenEv_live hlive hmine, if_neg hstays]

theorem lcpRow_runs (hlive : s.live) (hruns : s.lcpRuns h op free) (hfits : fits = true) :
    lcpRow h op pay fits free act s = .next (s.after ((act (s.lcpBegun h op pay)).finish h op)) := by
  rw [lcpRow_takes hlive hruns.1 hruns.2.1, hfits, State.lcpRequest_runs hruns]

end Rows

/-! What a reply changes. -/

theorem LcpOut.finish_some (st : Nat) (p : Bytes) (s : State) (fin : State → State) (h : LcpHdr) (op : Nat) :
    (⟨some (st, p), s, fin⟩ : LcpOut).finish h op = fin (s.lcpAnswer h op st p) := rfl

/-- Nothing differs but the replies kept for the sessions, and frames on their way. -/
def State.onlyReplies (s u : State) : Prop :=
  u = { s with links := u.links, net := { s.net with tx := u.net.tx, fwWait := u.net.fwWait, hopOut := u.net.hopOut, kept := u.net.kept } }

theorem State.onlyReplies_lcpAnswer (s : State) (h : LcpHdr) (op st : Nat) (pay : Bytes) : s.onlyReplies (s.lcpAnswer h op st pay) := by
  have hsend := s.onlySends_lcpAnswer h op st pay
  have hkeep := s.keepReply_eq h op st pay
  generalize s.lcpAnswer h op st pay = u at hsend ⊢
  generalize s.keepReply h op st pay = z at hsend hkeep
  unfold State.onlySends at hsend
  unfold State.onlyReplies
  rw [hsend, hkeep]

section Replies

variable (hr : s.onlyReplies u)
include hr

theorem State.onlyReplies.keeps (K : WordSet) : s.keeps u K := State.keeps_of_regs (by rw [hr]) (by rw [hr]) K
theorem State.onlyReplies.regs : u.regs = s.regs := by rw [hr]
theorem State.onlyReplies.mem : u.mem = s.mem := by rw [hr]
theorem State.onlyReplies.pwr : u.pwr = s.pwr := by rw [hr]
theorem State.onlyReplies.cfg : u.cfg = s.cfg := by rw [hr]
theorem State.onlyReplies.id : u.id = s.id := by rw [hr]
theorem State.onlyReplies.sessions : u.net.sessions = s.net.sessions := by rw [hr]

theorem State.onlyReplies.rd {t : Nat} {f : Fld} (ht : t < 8) (hf : f.ok) : u.rd t f = s.rd t f :=
  State.rd_of_keeps (hr.keeps fun _ _ _ => False) ht hf fun h => h

end Replies

/-! Frames on their way (R26, R32, R337). -/

theorem State.outbound_of_net (h : u.net = s.net) (p q : Nat) : u.outbound p q = s.outbound p q := by
  rw [State.outbound, State.txq, h]
  rfl

theorem State.outbound_fwPut (s : State) (p q : Nat) (f : TxFrame) : (s.fwPut p q f).outbound p q = s.outbound p q + 1 := by
  unfold State.fwPut
  split
  · have htxq : (s.txPut p q f).txq p q = s.txq p q ++ [f] := smGet_set_same _ _ _ _
    have hnet : (s.txPut p q f).net.fwWait = s.net.fwWait ∧ (s.txPut p q f).net.hopOut = s.net.hopOut := ⟨rfl, rfl⟩
    rw [State.outbound, htxq, hnet.1, hnet.2, List.length_append, State.outbound, List.length_singleton]
    omega
  · rw [State.outbound, State.outbound]
    dsimp only
    rw [List.countP_append, List.countP_singleton]
    simp only [beq_self_eq_true, if_true]
    have htxq : (State.txq { s with net := { s.net with fwWait := s.net.fwWait ++ [((p, q), f)] } } p q) = s.txq p q := rfl
    rw [htxq]
    omega

theorem State.outbound_fwSend (s : State) (p q : Nat) (b : Bytes) : (s.fwSend p q b).outbound p q = s.outbound p q + 1 := by
  unfold State.fwSend
  dsimp only
  split
  · exact s.outbound_fwPut p q _
  · split
    · have hcross : (s.crossed 0 1).net = s.net := by
        unfold State.crossed
        split <;> rfl
      rw [State.outbound_fwPut, State.outbound_of_net hcross]
    · rw [State.outbound, State.outbound]
      dsimp only
      rw [List.countP_append, List.countP_singleton]
      simp only [beq_self_eq_true, if_true]
      have htxq : (State.txq { s with net := { s.net with hopOut := s.net.hopOut ++ [((p, q), ⟨padFrame b, false, none⟩)] } } p q) = s.txq p q := rfl
      rw [htxq]
      omega

theorem State.outbound_lcpSend {q : Nat} (hq : q = s.rd 0 CHN_LCP_CTRL_QUEUE) (p : Nat) (src : LcpSource) (mac : Nat) (m : Bytes) :
    (s.lcpSend p src mac m).outbound p q = s.outbound p q + 1 := by
  subst hq
  exact s.outbound_fwSend p _ _

theorem lcpReply_ne_nil (s : State) (h : LcpHdr) (op st : Nat) (pay : Bytes) : (s.lcpReply h op st pay).isEmpty = false := by
  rw [List.isEmpty_eq_false_iff]
  refine List.ne_nil_of_length_pos ?_
  simp only [State.lcpReply, State.lcpMsg, withCrc, List.length_append, length_leBytes]
  omega

theorem find?_smInsert (n : Nat) (x : α) (m : List (Nat × α)) : (smInsert n x m).find? (·.1 == n) = some (n, x) := by
  induction m with
  | nil => simp [smInsert]
  | cons y m ih =>
    simp only [smInsert]
    split
    · next hlt => rw [List.find?_cons_of_neg (by simp; omega), ih]
    · split <;> simp

/-- The reply is kept for a session that is open. -/
theorem State.kept_keepReply (s : State) (h : LcpHdr) (op st : Nat) (pay : Bytes) (hne : h.session.val ≠ 0) (hopen : s.sessOpen h.session) :
    (s.keepReply h op st pay).keptReply h = some (s.answerOf h op st pay) := by
  have heq : (s.keepReply h op st pay).net.kept = smInsert h.session.val ⟨h.seq.toNat, s.answerOf h op st pay⟩ s.net.kept :=
    congrArg (fun z : State => z.net.kept) (if_pos hopen)
  rw [State.keptReply, if_neg hne, heq, find?_smInsert]
  exact if_pos rfl

/-- A request that has been answered. -/
theorem State.answeredIn_lcpAnswer (z : State) (h : LcpHdr) (op st : Nat) (pay : Bytes) : z.answeredIn h op st pay (z.lcpAnswer h op st pay) := by
  have hr := z.onlyReplies_lcpAnswer h op st pay
  have hkept := (z.lcpAnswer_frame h op st pay).2.2.2.2
  refine ⟨hr.regs, hr.mem, ?_, fun hne hopen => ?_⟩
  · have hout : (z.keepReply h op st pay).outbound h.port (z.rd 0 CHN_LCP_CTRL_QUEUE) = z.outbound h.port (z.rd 0 CHN_LCP_CTRL_QUEUE) := by
      rw [State.keepReply_eq]
      rfl
    have hqueue : (z.keepReply h op st pay).rd 0 CHN_LCP_CTRL_QUEUE = z.rd 0 CHN_LCP_CTRL_QUEUE := by
      rw [State.keepReply_eq]
      rfl
    rw [State.lcpAnswer_eq]
    by_cases hsilent : z.lcpSilent h op
    · have hnil : z.answerOf h op st pay = [] := if_pos hsilent
      rw [hnil, if_pos (show ([] : Bytes).isEmpty = true from rfl), hout, hsilent]
      rfl
    · have hloud : z.lcpSilent h op = false := Bool.eq_false_iff.2 hsilent
      rw [State.answerOf_loud hsilent, lcpReply_ne_nil, if_neg Bool.false_ne_true, State.outbound_lcpSend hqueue.symm, hout, hloud]
      rfl
  · have hk : (z.lcpAnswer h op st pay).keptReply h = (z.keepReply h op st pay).keptReply h := by
      rw [State.keptReply, hkept]
      rfl
    rw [hk, z.kept_keepReply h op st pay hne hopen]
    rfl

end Sys2Proof.Machine
end

section
/-! SUPPORT. Requests for the part (R339 to R343): those that are only counted, and what each operation gives. -/

namespace Sys2Proof.Machine

variable {s u v : State} {h : LcpHdr} {op : Nat} {pay : Bytes}

/-! Every request. -/

/-- The requests with their operations. -/
def lcpRows (h : LcpHdr) (pay : Bytes) : List (Instr × Nat) :=
  [(Instr.lcpOpen h pay, 0x01), (.lcpClose h pay, 0x02), (.lcpKeepalive h pay, 0x03), (.lcpRead h pay, 0x10), (.lcpWrite h pay, 0x11),
    (.lcpModify h pay, 0x12), (.lcpReadList h pay, 0x13), (.imageOpen h pay, 0x20), (.imageData h pay, 0x21), (.imageAbort h pay, 0x22),
    (.lcpNotifyAck h pay, 0x31), (.lcpSubscribe h pay, 0x32), (.lcpEnumerate h pay, 0x40), (.lcpIdentify h pay, 0x41), (.lcpReset h pay, 0x43)]

theorem exec_lcpRows (s : State) {i : Instr × Nat} (hi : i ∈ lcpRows h pay) : ∃ fits free act, exec i.1 s = lcpRow h i.2 pay fits free act s := by
  simp only [lcpRows, List.mem_cons, List.not_mem_nil, or_false] at hi
  rcases hi with rfl | rfl | rfl | rfl | rfl | rfl | rfl | rfl | rfl | rfl | rfl | rfl | rfl | rfl | rfl <;> exact ⟨_, _, _, rfl⟩

/-- The operations without a payload. -/
theorem exec_lcpRows_empty (s : State) {i : Instr × Nat} (hi : i ∈ lcpRows h pay) (hop : i.2 = 0x02 ∨ i.2 = 0x03 ∨ i.2 = 0x22 ∨ i.2 = 0x32) :
    ∃ free act, exec i.1 s = lcpRow h i.2 pay pay.isEmpty free act s := by
  have hfilter : (lcpRows h pay).filter (fun i => i.2 = 0x02 ∨ i.2 = 0x03 ∨ i.2 = 0x22 ∨ i.2 = 0x32) =
    [(.lcpClose h pay, 0x02), (.lcpKeepalive h pay, 0x03), (.imageAbort h pay, 0x22), (.lcpSubscribe h pay, 0x32)] := rfl
  have hmem : i ∈ (lcpRows h pay).filter (fun i => i.2 = 0x02 ∨ i.2 = 0x03 ∨ i.2 = 0x22 ∨ i.2 = 0x32) := List.mem_filter.2 ⟨hi, decide_eq_true hop⟩
  rw [hfilter] at hmem
  simp only [List.mem_cons, List.not_mem_nil, or_false] at hmem
  rcases hmem with rfl | rfl | rfl | rfl <;> exact ⟨_, _, rfl⟩

/-! Requests that are counted and no more (R340, R341, R343). -/

/-- The request is counted, and nothing else shows in registers or memory. -/
def State.lcpCounted (s u : State) : Prop :=
  u.rd 0 CHN_LCP_REQS = (s.rd 0 CHN_LCP_REQS + 1) % 2 ^ 32 ∧ s.sameWords u (CHN_LCP_REQS.wordAt 0) ∧ u.mem = s.mem

theorem State.onlyTakes.mem (ht : s.onlyTakes u) : u.mem = s.mem := by rw [ht]
theorem State.onlyTakes.id (ht : s.onlyTakes u) : u.id = s.id := by rw [ht]
theorem State.onlyTakes.pwr (ht : s.onlyTakes u) : u.pwr = s.pwr := by rw [ht]
theorem State.onlyTakes.cfg (ht : s.onlyTakes u) : u.cfg = s.cfg := by rw [ht]
theorem State.onlyTakes.tim (ht : s.onlyTakes u) : u.tim = s.tim := by rw [ht]
theorem State.onlyTakes.pending (ht : s.onlyTakes u) : u.pending = s.pending := by rw [ht]

theorem State.lcpCounted_of_keeps (hu : (s.lcpBegun h op pay).keeps u fun _ _ _ => False) (hmem : u.mem = (s.lcpBegun h op pay).mem) :
    s.lcpCounted u := by
  obtain ⟨hcount, hkeep⟩ := s.lcpBegun_counts h op pay
  exact ⟨(State.rd_of_keeps hu (by decide) CHN_LCP_REQS_ok fun h => h).trans hcount,
    (State.keeps_trans hkeep (State.keeps_mono hu fun _ _ _ => False.elim)).2, hmem.trans (s.onlyTakes_lcpBegun h op pay).mem⟩

theorem State.lcpCounted_lcpBegun (s : State) (h : LcpHdr) (op : Nat) (pay : Bytes) : s.lcpCounted (s.lcpBegun h op pay) :=
  State.lcpCounted_of_keeps (State.keeps_of_regs rfl rfl _) rfl

/-- What the statement asks of a request that may be answered for its sender but gets no reply. -/
structure State.lcpQuiet (s : State) (h : LcpHdr) : Prop where
  live : s.live
  mine : s.lcpMine h
  here : ¬ s.lcpStays h
  addr : s.rd 0 CHN_ADDR_ADDR ≠ 0
  named : h.session.val ≠ 0
  quiet : h.noreply
  first : ¬ s.lcpCopy h

theorem State.lcpQuiet.runs (hq : s.lcpQuiet h) (hmine : s.sessMine h) (hkept : s.keptReply h = none) (op : Nat) (free : Bool) :
    s.lcpRuns h op free := by
  refine ⟨hq.mine, hq.here, hq.first, .inl hq.addr, ?_, hkept⟩
  rw [State.sessAllows, if_neg hq.named, hmine, Bool.true_or]

theorem State.lcpQuiet.gives_counted (hq : s.lcpQuiet h) {i : Instr} {fits free : Bool} {act : State → LcpOut} (hexec :
    exec i s = lcpRow h op pay fits free act s)
    (hturn : fits = false ∨ s.sessAllows h op free = false ∨ s.keptReply h ≠ none) : s.gives i s.lcpCounted := by
  rw [lcpRow_takes hq.live hq.mine hq.here, State.lcpRequest_turned hq.quiet hq.first hturn] at hexec
  exact ⟨_, hexec, s.lcpCounted_lcpBegun h op pay⟩

theorem State.lcpQuiet.foreign (hq : s.lcpQuiet h) (hmine : ¬ s.sessMine h) {i : Instr × Nat} (hi : i ∈ lcpRows h pay) (hop : i.2 ≠ 0x01) :
    s.gives i.1 s.lcpCounted := by
  obtain ⟨fits, free, act, hexec⟩ := exec_lcpRows s hi
  refine hq.gives_counted hexec (.inr (.inl ?_))
  rw [State.sessAllows, if_neg hq.named, Bool.eq_false_iff.2 hmine, Bool.false_or, beq_false_of_ne hop, Bool.false_and]

theorem State.lcpQuiet.repeated (hq : s.lcpQuiet h) (hkept : s.keptReply h ≠ none) {i : Instr × Nat} (hi : i ∈ lcpRows h pay) :
    s.gives i.1 s.lcpCounted := by
  obtain ⟨fits, free, act, hexec⟩ := exec_lcpRows s hi
  exact hq.gives_counted hexec (.inr (.inr hkept))

theorem State.lcpQuiet.misfit (hq : s.lcpQuiet h) (hpay : pay ≠ []) {i : Instr × Nat} (hi : i ∈ lcpRows h pay)
    (hop : i.2 = 0x02 ∨ i.2 = 0x03 ∨ i.2 = 0x22 ∨ i.2 = 0x32) : s.gives i.1 s.lcpCounted := by
  obtain ⟨free, act, hexec⟩ := exec_lcpRows_empty s hi hop
  exact hq.gives_counted hexec (.inl (List.isEmpty_eq_false_iff.2 hpay))

/-! Sessions that are kept alive, subscribe or close (R340, R342, R344). -/

theorem State.lcpQuiet.keepalive (hq : s.lcpQuiet h) (hmine : s.sessMine h) (hkept : s.keptReply h = none) : s.gives (.lcpKeepalive h []) fun u =>
    s.lcpCounted u ∧ ∀ x ∈ s.net.sessions, x.2.src = h.src → ¬ s.sessOver x.2 → ∃ z ∈ u.net.sessions, z.1 = x.1 ∧ z.2.src = h.src ∧
        z.2.last = s.tim.tb0 := by
  have hreply := (s.lcpBegun h 0x03 []).onlyReplies_lcpAnswer h 0x03 stOk []
  refine ⟨_, lcpRow_runs hq.live (hq.runs hmine hkept 0x03 false) rfl, State.lcpCounted_of_keeps (hreply.keeps _) hreply.mem,
      fun x hx hsrc hover => ?_⟩
  refine ⟨s.touched h x, ?_, s.touched_fst h x, (s.touched_src h x).trans hsrc, ?_⟩
  · show s.touched h x ∈ ((s.lcpBegun h 0x03 []).lcpAnswer h 0x03 stOk []).net.sessions
    rw [hreply.sessions, State.sessions_lcpBegun]
    exact List.mem_map_of_mem hx
  · rw [State.touched, if_pos hsrc]
    exact if_neg hover

theorem State.lcpQuiet.subscribe (hq : s.lcpQuiet h) (hmine : s.sessMine h) (hkept : s.keptReply h = none) : s.gives (.lcpSubscribe h []) fun u =>
    s.lcpCounted u ∧ u.net.subscriber = some h.session.val := by
  let z := (s.lcpBegun h 0x32 []).subscribe h.session
  have hreply := z.onlyReplies_lcpAnswer h 0x32 stOk []
  refine ⟨_, lcpRow_runs hq.live (hq.runs hmine hkept 0x32 false) rfl, State.lcpCounted_of_keeps (hreply.keeps _) hreply.mem, ?_⟩
  have hsub : (z.lcpAnswer h 0x32 stOk []).net.subscriber = z.net.subscriber := by rw [hreply]
  exact hsub

theorem State.lcpQuiet.close (hq : s.lcpQuiet h) (hmine : s.sessMine h) (hkept : s.keptReply h = none) :
    s.gives (.lcpClose h []) fun u => u.sessAt h.session = none :=
  ⟨_, lcpRow_runs hq.live (hq.runs hmine hkept 0x02 false) rfl, State.sessAt_sessionClose_same _ _⟩

theorem State.lcpQuiet.notifyAck (hq : s.lcpQuiet h) (hmine : s.sessMine h) (hkept : s.keptReply h = none) (hlen : pay.length = 2)
    (hsends : s.net.noticeSends ≠ 0) (hseq : s.net.noticeSeq = leAt pay 0 2) : s.gives (.lcpNotifyAck h pay) fun u =>
      u.net.noticeSends = 0 ∧ (s.net.noticeLost = 0 → u.net.notices = s.net.notices.tail) := by
  have htakes := s.onlyTakes_lcpBegun h 0x31 pay
  let b := s.lcpBegun h 0x31 pay
  have hb : b.net.noticeSends = s.net.noticeSends ∧ b.net.noticeSeq = s.net.noticeSeq ∧ b.net.noticeLost = s.net.noticeLost ∧
      b.net.notices = s.net.notices := by
    have hnet : b.net = _ := congrArg State.net htakes
    rw [hnet]
    exact ⟨rfl, rfl, rfl, rfl⟩
  obtain ⟨hbsends, hbseq, hblost, hbnotices⟩ := hb
  have hack : b.notifyAck (leAt pay 0 2) = b.noticePop := if_pos ⟨by rw [hbsends]; exact hsends, by rw [hbseq]; exact hseq⟩
  have hreply := b.noticePop.onlyReplies_lcpAnswer h 0x31 stOk []
  have hnet : (b.noticePop.lcpAnswer h 0x31 stOk []).net.noticeSends = b.noticePop.net.noticeSends ∧
      (b.noticePop.lcpAnswer h 0x31 stOk []).net.notices = b.noticePop.net.notices := by
    rw [hreply]
    exact ⟨rfl, rfl⟩
  have hpop : b.noticePop.net.noticeSends = 0 ∧ (b.net.noticeLost = 0 → b.noticePop.net.notices = b.net.notices.tail) := by
    unfold State.noticePop
    dsimp only
    split
    · exact ⟨rfl, fun _ => rfl⟩
    · next hlost =>
      refine ⟨?_, fun hz => absurd hz hlost⟩
      unfold State.notify
      split <;> rfl
  refine ⟨_, lcpRow_runs hq.live (hq.runs hmine hkept 0x31 false) (beq_iff_eq.2 hlen), ?_⟩
  show ((b.notifyAck (leAt pay 0 2)).lcpAnswer h 0x31 stOk []).net.noticeSends = 0 ∧
    (s.net.noticeLost = 0 → ((b.notifyAck (leAt pay 0 2)).lcpAnswer h 0x31 stOk []).net.notices = s.net.notices.tail)
  rw [hack, hnet.1, hnet.2, ← hblost, ← hbnotices]
  exact hpop

end Sys2Proof.Machine
end

section
/-! SUPPORT. The operations of requests (R34, R342, R345): register accesses, the address, the reset, the image load and OPEN. -/

namespace Sys2Proof.Machine

variable {s u v : State} {h : LcpHdr} {op : Nat} {pay : Bytes}

/-! Register requests (R34, R39, R342). -/

/-- A register request that waits for nothing is carried out and answered. -/
theorem State.gives_lcpRegs (hlive : s.live) {i : Instr} {fits free : Bool}
    (hexec : exec i s = lcpRow h op pay fits free (fun x => x.lcpRegAct h op pay) s) (hfits : fits = true) (hruns : s.lcpRuns h op free)
    (hnone : s.net.waiting = []) (hopen : ¬ (s.lcpBegun h op pay).lcpBlocked op pay) :
    s.gives i fun u => ((s.lcpBegun h op pay).lcpRegs h op pay).2.2.answeredIn h op ((s.lcpBegun h op pay).lcpRegs h op pay).1
      ((s.lcpBegun h op pay).lcpRegs h op pay).2.1 u := by
  have htakes := s.onlyTakes_lcpBegun h op pay
  have hwait : (s.lcpBegun h op pay).net.waiting = [] := by
    rw [htakes]
    exact hnone
  rw [lcpRow_runs hlive hruns hfits] at hexec
  generalize s.lcpBegun h op pay = b at *
  have hact : (b.lcpRegAct h op pay).finish h op = (b.lcpRegs h op pay).2.2.lcpAnswer h op (b.lcpRegs h op pay).1 (b.lcpRegs h op pay).2.1 := by
    rw [State.lcpRegAct, hwait, Bool.eq_false_iff.2 hopen]
    rfl
  rw [hact] at hexec
  exact ⟨_, hexec, State.answeredIn_lcpAnswer _ h op _ _⟩

/-- A register request behind one that waits, or whose way is out of service, waits. -/
theorem State.gives_lcpRegs_wait (hlive : s.live) {i : Instr} {fits free : Bool}
    (hexec : exec i s = lcpRow h op pay fits free (fun x => x.lcpRegAct h op pay) s) (hfits : fits = true) (hruns : s.lcpRuns h op free)
    (hwait : s.net.waiting ≠ [] ∨ (s.lcpBegun h op pay).lcpBlocked op pay) :
    s.gives i fun u => u.net.waiting = s.net.waiting ++ [⟨h, op, pay⟩] ∧ u.regs = (s.lcpBegun h op pay).regs ∧ u.mem = s.mem := by
  have htakes := s.onlyTakes_lcpBegun h op pay
  have hbwait : (s.lcpBegun h op pay).net.waiting = s.net.waiting := by rw [htakes]
  have hmem := htakes.mem
  rw [lcpRow_runs hlive hruns hfits] at hexec
  generalize s.lcpBegun h op pay = b at *
  have hcond : (!b.net.waiting.isEmpty || b.lcpBlocked op pay) = true := by
    rw [hbwait]
    rcases hwait with hne | hblocked
    · rw [List.isEmpty_eq_false_iff.2 hne]; rfl
    · rw [hblocked, Bool.or_true]
  have hact : (b.lcpRegAct h op pay).finish h op = { b with net := { b.net with waiting := b.net.waiting ++ [⟨h, op, pay⟩] } } := by
    rw [State.lcpRegAct, if_pos hcond]
    rfl
  rw [hact] at hexec
  refine ⟨_, hexec, ?_, rfl, hmem⟩
  show b.net.waiting ++ _ = _
  rw [hbwait]

/-! The address and the identity (R345, R346). -/

theorem CHN_STATUS_POSITION_ok : CHN_STATUS_POSITION.ok := by unfold Fld.ok; decide

/-- ENUMERATE at port A assigns the address and the position. -/
theorem State.enumerate_spec (s : State) {h1 : Nat} (hfree : s.rd 0 CHN_ADDR_ADDR = 0 ∨ ¬ s.is 0 CHN_ADDR_LOCK) (h62 : h1 ≤ 62) :
    s.enumerate 0 h1 = (s.wr 0 CHN_ADDR_ADDR h1).wr 0 CHN_STATUS_POSITION h1 ∧
    (s.enumerate 0 h1).rd 0 CHN_ADDR_ADDR = h1 ∧ (s.enumerate 0 h1).rd 0 CHN_STATUS_POSITION = h1 := by
  have hcond : s.rd 0 CHN_ADDR_ADDR = 0 ∨ (!s.is 0 CHN_ADDR_LOCK) = true := hfree.imp_right fun hl => by rw [Bool.eq_false_iff.2 hl]; rfl
  have hmin : Nat.min h1 63 = h1 := Nat.min_eq_left (by omega)
  have heq : s.enumerate 0 h1 = (s.wr 0 CHN_ADDR_ADDR h1).wr 0 CHN_STATUS_POSITION h1 := by
    unfold State.enumerate
    rw [if_neg (by decide)]
    dsimp only
    rw [if_pos hcond, if_neg (by omega), hmin]
  have hmod : h1 % 2 ^ 6 = h1 := Nat.mod_eq_of_lt (by omega)
  refine ⟨heq, ?_, ?_⟩
  · rw [heq, State.rd_wr_ne _ _ (by decide) (by decide) CHN_ADDR_ADDR_ok CHN_STATUS_POSITION_ok (.inr (by unfold Fld.apart; decide)),
      State.rd_wr _ _ _ _ CHN_ADDR_ADDR_ok]
    exact hmod
  · rw [heq, State.rd_wr _ _ _ _ CHN_STATUS_POSITION_ok]
    exact hmod

/-- ENUMERATE at port A is carried out, and goes on along the chain. -/
theorem State.gives_lcpEnumerate (hlive : s.live) (hlen : pay.length = 4) (hruns : s.lcpRuns h 0x40 true) (hport : h.port.val = 0)
    (hfree : (s.lcpBegun h 0x40 pay).rd 0 CHN_ADDR_ADDR = 0 ∨ ¬ (s.lcpBegun h 0x40 pay).is 0 CHN_ADDR_LOCK)
    (hsoft : ¬ (s.lcpBegun h 0x40 pay).softHas 0 CHN_ADDR) (hhop : byteAt pay 0 ≤ 61) : s.gives (.lcpEnumerate h pay) fun u =>
      u.rd 0 CHN_ADDR_ADDR = byteAt pay 0 + 1 ∧ u.rd 0 CHN_STATUS_POSITION = byteAt pay 0 + 1 ∧ u.mem = s.mem := by
  have hexec : exec (.lcpEnumerate h pay) s = lcpRow h 0x40 pay (pay.length == 4) true (fun x => x.enumAct h (byteAt pay 0)) s := rfl
  rw [lcpRow_runs hlive hruns (beq_iff_eq.2 hlen)] at hexec
  have hmem := (s.onlyTakes_lcpBegun h 0x40 pay).mem
  generalize s.lcpBegun h 0x40 pay = b at *
  obtain ⟨heq, haddr, hpos⟩ := b.enumerate_spec hfree (show byteAt pay 0 + 1 ≤ 62 by omega)
  have hold : b.enumOld h.port.val (byteAt pay 0 + 1) = ((b.enumerate 0 (byteAt pay 0 + 1)).identity, b.enumerate 0 (byteAt pay 0 + 1)) := by
    rw [State.enumOld, if_neg hsoft, hport]
  have hemem : (b.enumerate 0 (byteAt pay 0 + 1)).mem = s.mem := by
    rw [heq, State.mem_wr, State.mem_wr, hmem]
  generalize b.enumerate 0 (byteAt pay 0 + 1) = z at *
  have hreply := z.onlyReplies_lcpAnswer h 0x40 stOk z.identity
  have hact : (b.enumAct h (byteAt pay 0)).finish h 0x40 = if byteAt pay 0 + 1 ≤ 62 then
      (z.lcpAnswer h 0x40 stOk z.identity).lcpForward h 0x40 h.ttl.val (leBytes 1 (byteAt pay 0 + 1) ++ zeros 3)
      else z.lcpAnswer h 0x40 stOk z.identity := by
    rw [State.enumAct, hold]
    exact LcpOut.finish_some _ _ _ _ _ _
  rw [hact, if_pos (by omega)] at hexec
  have hsend : (z.lcpAnswer h 0x40 stOk z.identity).onlySends
      ((z.lcpAnswer h 0x40 stOk z.identity).lcpForward h 0x40 h.ttl.val (leBytes 1 (byteAt pay 0 + 1) ++ zeros 3)) := State.onlySends_fwSend _ _ _ _
  generalize (z.lcpAnswer h 0x40 stOk z.identity).lcpForward h 0x40 h.ttl.val (leBytes 1 (byteAt pay 0 + 1) ++ zeros 3) = w at hexec hsend
  generalize z.lcpAnswer h 0x40 stOk z.identity = y at *
  unfold State.onlySends at hsend
  have hkeep : y.keeps w fun _ _ _ => False := State.keeps_of_regs (by rw [hsend]) (by rw [hsend]) _
  refine ⟨_, hexec, ?_, ?_, ?_⟩
  · exact (State.rd_of_keeps hkeep (by decide) CHN_ADDR_ADDR_ok fun h => h).trans ((hreply.rd (by decide) CHN_ADDR_ADDR_ok).trans haddr)
  · exact (State.rd_of_keeps hkeep (by decide) CHN_STATUS_POSITION_ok fun h => h).trans ((hreply.rd (by decide) CHN_STATUS_POSITION_ok).trans hpos)
  · show w.mem = s.mem
    rw [hsend, ← hemem]
    exact hreply.mem

/-- IDENTIFY, its operation. -/
def State.identifyAct (pay : Bytes) (s : State) : LcpOut :=
  if pay.isEmpty || leAt pay 0 8 == s.id.dieIds.headD 0 then ⟨some (stOk, s.identity), s, stay⟩ else ⟨none, s, stay⟩

theorem exec_lcpIdentify (s : State) (h : LcpHdr) (pay : Bytes) :
    exec (.lcpIdentify h pay) s = lcpRow h 0x41 pay (pay.isEmpty || pay.length == 8) true (State.identifyAct pay) s := rfl

/-- Another part's identifier: the request is counted, and gets no answer. -/
theorem State.exec_lcpIdentify_other (hlive : s.live) (hlen : pay.length = 8) (hruns : s.lcpRuns h 0x41 true)
    (hother : leAt pay 0 8 ≠ s.id.dieIds.headD 0) : exec (.lcpIdentify h pay) s = .next (s.after (s.lcpBegun h 0x41 pay)) := by
  have hid := (s.onlyTakes_lcpBegun h 0x41 pay).id
  have hne : pay.isEmpty = false := List.isEmpty_eq_false_iff.2 (by rintro rfl; exact absurd hlen (by decide))
  rw [exec_lcpIdentify, lcpRow_runs hlive hruns (by rw [hlen, hne]; rfl), State.identifyAct, hid, hne, beq_false_of_ne hother]
  rfl

/-- The part answers with its identity. -/
theorem State.gives_identify (hlive : s.live) (hruns : s.lcpRuns h 0x41 true) : s.gives (.lcpIdentify h []) fun u =>
    (s.lcpBegun h 0x41 []).answeredIn h 0x41 stOk (s.lcpBegun h 0x41 []).identity u := by
  have hexec := (exec_lcpIdentify s h []).trans (lcpRow_runs hlive hruns rfl)
  have hact : (State.identifyAct [] (s.lcpBegun h 0x41 [])).finish h 0x41 =
    (s.lcpBegun h 0x41 []).lcpAnswer h 0x41 stOk (s.lcpBegun h 0x41 []).identity := LcpOut.finish_some _ _ _ _ _ _
  rw [hact] at hexec
  exact ⟨_, hexec, State.answeredIn_lcpAnswer _ h _ _ _⟩

/-! RESET (R342, R465). -/

/-- Nothing differs but the network. -/
def State.onlyNet (s u : State) : Prop := u = { s with net := u.net }

theorem State.onlyNet_lcpReset (s : State) (h : LcpHdr) : (s.internalReset 2 false).onlyNet (s.lcpReset h) := by
  unfold State.lcpReset
  generalize s.internalReset 2 false = r
  dsimp only
  split
  · split
    · rfl
    · rfl
  · rfl

theorem State.onlyNet.pwr (hn : s.onlyNet u) : u.pwr = s.pwr := by rw [hn]

theorem State.onlyNet.rd (hn : s.onlyNet u) (t : Nat) (f : Fld) : u.rd t f = s.rd t f := by rw [hn]; rfl

theorem State.gives_lcpReset (hlive : s.live) (hlen : pay.length = 1) (hone : byteAt pay 0 = 1) (hruns : s.lcpRuns h 0x43 false) (hop :
    s.pwr.op = none) :
    s.gives (.lcpReset h pay) fun u => u.pwr.phase = .hold ∧ u.pwr.held ∧ ∀ t ∈ s.tiles, (u.rd t SYS_RESET_CAUSE).testBit 1 := by
  have hexec : exec (.lcpReset h pay) s = lcpRow h 0x43 pay (pay.length == 1 && byteAt pay 0 == 1) false
    (fun x => ⟨some (stOk, []), x, fun s => s.lcpReset h⟩) s := rfl
  rw [lcpRow_runs hlive hruns (by rw [hlen, hone]; rfl)] at hexec
  have hact : (⟨some (stOk, []), s.lcpBegun h 0x43 pay, fun s => s.lcpReset h⟩ : LcpOut).finish h 0x43 =
    ((s.lcpBegun h 0x43 pay).lcpAnswer h 0x43 stOk []).lcpReset h := LcpOut.finish_some _ _ _ _ _ _
  rw [hact] at hexec
  have htakes := s.onlyTakes_lcpBegun h 0x43 pay
  have hreply := (s.lcpBegun h 0x43 pay).onlyReplies_lcpAnswer h 0x43 stOk []
  have hid := hreply.id.trans htakes.id
  have hnone : ((s.lcpBegun h 0x43 pay).lcpAnswer h 0x43 stOk []).pwr.op = none := by rw [hreply.pwr, htakes.pwr]; exact hop
  generalize (s.lcpBegun h 0x43 pay).lcpAnswer h 0x43 stOk [] = z at hexec hid hnone
  obtain ⟨hphase, hheld, -, hcause⟩ := z.doReset_spec 2 false
  have hreset : z.internalReset 2 false = z.doReset 2 false := by rw [State.internalReset, hnone]
  have htiles : z.tiles = s.tiles := by rw [State.tiles, hid]; rfl
  rw [htiles] at hcause
  have hnet := z.onlyNet_lcpReset h
  rw [hreset] at hnet
  generalize z.lcpReset h = w at hexec hnet
  refine ⟨_, hexec, ?_, ?_, fun t ht => ?_⟩
  · show w.pwr.phase = .hold
    rw [hnet.pwr, hphase]
  · show w.pwr.held = true
    rw [hnet.pwr, hheld]
  · show (w.rd t SYS_RESET_CAUSE).testBit 1
    rw [hnet.rd, hcause t ht, Nat.testBit_mod_two_pow, Nat.testBit_or]
    simp [show Nat.testBit 2 1 = true by decide]

/-! OPEN (R340, R342). -/

theorem State.gives_lcpOpen (hlive : s.live) (hlen : pay.length = 1) (hwant : byteAt pay 0 ≤ 7) (hruns : s.lcpRuns h 0x01 true) (hne :
    byteAt pay 0 ≠ 0)
    (hfree : s.sessAt (byteAt pay 0) = none) : s.gives (.lcpOpen h pay) fun u =>
      u.sessAt (byteAt pay 0) = some ⟨h.src, h.port.val, h.mac.toNat, s.tim.tb0⟩ := by
  have hexec : exec (.lcpOpen h pay) s = lcpRow h 0x01 pay (pay.length == 1 && decide (byteAt pay 0 ≤ 7)) true
    (fun x => x.lcpOpenAct h (byteAt pay 0)) s := rfl
  rw [lcpRow_runs hlive hruns (by rw [hlen, decide_eq_true hwant]; rfl)] at hexec
  have hbfree : (s.lcpBegun h 0x01 pay).sessAt (byteAt pay 0) = none := by
    rw [State.sessAt_lcpBegun, Option.map_eq_none_iff.1 hfree]
    rfl
  have htb0 : (s.lcpBegun h 0x01 pay).tim.tb0 = s.tim.tb0 := by rw [(s.onlyTakes_lcpBegun h 0x01 pay).tim]
  generalize s.lcpBegun h 0x01 pay = b at *
  let z := (b.sessGrant h (byteAt pay 0)).s
  have hact : (b.lcpOpenAct h (byteAt pay 0)).finish h 0x01 = z.lcpAnswer h 0x01 stOk (leBytes 1 (byteAt pay 0)) := by
    rw [State.lcpOpenAct, if_neg hne, hbfree]
    rfl
  rw [hact] at hexec
  have hreply := z.onlyReplies_lcpAnswer h 0x01 stOk (leBytes 1 (byteAt pay 0))
  have hsess : z.net.sessions = smInsert (byteAt pay 0) ⟨h.src, h.port.val, h.mac.toNat, s.tim.tb0⟩ b.net.sessions := by rw [← htb0]; rfl
  refine ⟨_, hexec, (State.sessAt_of_sessions hreply.sessions _).trans ?_⟩
  rw [State.sessAt, hsess, find?_smInsert]
  rfl

end Sys2Proof.Machine
end

section
/-! SUPPORT. The image load by request (R278, R279, R287, R342), and what LCP requests come to. -/

namespace Sys2Proof.Machine

variable {s u v : State} {h : LcpHdr} {op : Nat} {pay : Bytes}

theorem CFG_STATUS_SHADOW_ok : CFG_STATUS_SHADOW.ok := by unfold Fld.ok; decide
theorem CFG_STATUS_SESSION_ok : CFG_STATUS_SESSION.ok := by unfold Fld.ok; decide
theorem CFG_SHADOW_JOB_ok : CFG_SHADOW_JOB.ok := by unfold Fld.ok; decide
theorem CFG_INSTALL_ID_ok : CFG_INSTALL_ID.ok := by unfold Fld.ok; decide
theorem CFG_LOAD_BYTES_ok : CFG_LOAD_BYTES.ok := by unfold Fld.ok; decide
theorem CFG_LOAD_RECORDS_ok : CFG_LOAD_RECORDS.ok := by unfold Fld.ok; decide
theorem CFG_LOADS_REFUSED_ok : CFG_LOADS_REFUSED.ok := by unfold Fld.ok; decide
theorem CFG_REFUSE_CODE_ok : CFG_REFUSE_CODE.ok := by unfold Fld.ok; decide
theorem CFG_REFUSE_SECTION_ok : CFG_REFUSE_SECTION.ok := by unfold Fld.ok; decide
theorem CFG_REFUSE_OFS_ok : CFG_REFUSE_OFS.ok := by unfold Fld.ok; decide
theorem PWR_BOOT_IMAGE_REFUSED_ok : PWR_BOOT_IMAGE_REFUSED.ok := by unfold Fld.ok; decide

theorem State.shadowSt_lcpBegun (s : State) (h : LcpHdr) (op : Nat) (pay : Bytes) : (s.lcpBegun h op pay).shadowSt = s.shadowSt :=
  s.rd_lcpBegun h op pay CFG_STATUS_SHADOW_ok (by decide)

theorem State.loadResume_none (hnone : s.cfg.waiting = []) : s.loadResume = s := by
  rw [State.loadResume, hnone]
  rfl

/-! IMAGE_OPEN (R278). -/

/-- The registers of a load that has been opened. -/
def State.loadCleared (s : State) (session : Nat) : State :=
  (((s.wr 0 CFG_STATUS_SESSION session).wr 0 CFG_SHADOW_JOB 0).wr 0 CFG_LOAD_BYTES 0).wr 0 CFG_LOAD_RECORDS 0

theorem State.loadBegin_eq (s : State) (session len : Nat) : s.loadBegin session len =
    (((s.dropInit.copyBank.freeShadowRings).setShadow 1).loadCleared session).updCfg fun c =>
      { c with load := some ⟨session, len, [], 0, 0, 0, false, none, [], [], none⟩ } := rfl

theorem State.loadCleared_spec (s : State) {session : Nat} (hs : session < 8) :
    (s.loadCleared session).rd 0 CFG_STATUS_SHADOW = s.rd 0 CFG_STATUS_SHADOW ∧ (s.loadCleared session).rd 0 CFG_STATUS_SESSION = session := by
  have hcleared : ∀ y : State, y.onlyRegs (((y.wr 0 CFG_SHADOW_JOB 0).wr 0 CFG_LOAD_BYTES 0).wr 0 CFG_LOAD_RECORDS 0) fun _ _ off => off ≠ 0x4 := by
    intro y
    have hjob := y.onlyRegs_wr (K := fun _ _ off => off ≠ 0x4) 0 (by decide : 0 < 8) CFG_SHADOW_JOB_ok (by decide)
    have hbytes := (y.wr 0 CFG_SHADOW_JOB 0).onlyRegs_wr (K := fun _ _ off => off ≠ 0x4) 0 (by decide : 0 < 8) CFG_LOAD_BYTES_ok (by decide)
    exact State.onlyRegs_trans (State.onlyRegs_trans hjob hbytes) (State.onlyRegs_wr _ 0 (by decide) CFG_LOAD_RECORDS_ok (by decide))
  have hregs := hcleared (s.wr 0 CFG_STATUS_SESSION session)
  constructor
  · rw [State.loadCleared, State.rd_of_onlyRegs hregs (by decide) CFG_STATUS_SHADOW_ok (by decide),
      State.rd_wr_ne _ _ (by decide) (by decide) CFG_STATUS_SHADOW_ok CFG_STATUS_SESSION_ok (.inr (by unfold Fld.apart; decide))]
  · rw [State.loadCleared, State.rd_of_onlyRegs hregs (by decide) CFG_STATUS_SESSION_ok (by decide), State.rd_wr _ _ _ _ CFG_STATUS_SESSION_ok]
    exact Nat.mod_eq_of_lt hs

/-- A load has been opened by a session, with no byte yet. -/
theorem State.loadBegin_spec (s : State) {session : Nat} (len : Nat) (hs : session < 8) : (s.loadBegin session len).rd 0 CFG_STATUS_SHADOW = 1 ∧
    (s.loadBegin session len).rd 0 CFG_STATUS_SESSION = session ∧
    ∃ l, (s.loadBegin session len).cfg.load = some l ∧ l.len = len ∧ l.session = session ∧ l.bytes = [] := by
  have hloading : ((s.dropInit.copyBank.freeShadowRings).setShadow 1).rd 0 CFG_STATUS_SHADOW = 1 := State.rd_wr _ _ _ _ CFG_STATUS_SHADOW_ok
  rw [State.loadBegin_eq]
  generalize (s.dropInit.copyBank.freeShadowRings).setShadow 1 = x at hloading ⊢
  obtain ⟨hshadow, hsession⟩ := x.loadCleared_spec hs
  rw [State.rd_updCfg, State.rd_updCfg, hshadow, hsession]
  exact ⟨hloading, rfl, _, rfl, rfl, rfl, rfl⟩

theorem State.gives_imageOpen (hlive : s.live) (hlen : pay.length = 4) (hruns : s.lcpRuns h 0x20 false) (h200 : 200 ≤ leAt pay 0 4)
    (hst : s.shadowSt = 0 ∨ s.shadowSt = 3 ∨ s.shadowSt = 6) (hnone : s.cfg.waiting = []) : s.gives (.imageOpen h pay) fun u =>
      u.rd 0 CFG_STATUS_SHADOW = 1 ∧ u.rd 0 CFG_STATUS_SESSION = h.session.val ∧
        ∃ l, u.cfg.load = some l ∧ l.len = leAt pay 0 4 ∧ l.session = h.session.val ∧ l.bytes = [] := by
  have hexec : exec (.imageOpen h pay) s = lcpRow h 0x20 pay (pay.length == 4) false (fun x => x.openAct h (leAt pay 0 4)) s := rfl
  rw [lcpRow_runs hlive hruns (beq_iff_eq.2 hlen)] at hexec
  have hbst := s.shadowSt_lcpBegun h 0x20 pay
  have hbnone : (s.lcpBegun h 0x20 pay).cfg.waiting = [] := by rw [(s.onlyTakes_lcpBegun h 0x20 pay).cfg, hnone]
  generalize s.lcpBegun h 0x20 pay = b at *
  have hopen : b.loadOpen h.session (leAt pay 0 4) = (b.loadBegin h.session (leAt pay 0 4), none) := by
    unfold State.loadOpen
    dsimp only
    rw [hbst, if_neg (by omega), if_neg (by omega)]
  have hact : b.openAct h (leAt pay 0 4) = ⟨some (stOk, []), b.loadBegin h.session (leAt pay 0 4), stay⟩ := by
    rw [State.openAct, State.loadResume_none hbnone, hopen]
  rw [hact, LcpOut.finish_some] at hexec
  obtain ⟨hshadow, hsession, hload⟩ := b.loadBegin_spec (leAt pay 0 4) h.session.isLt
  generalize b.loadBegin h.session (leAt pay 0 4) = z at *
  have hreply := z.onlyReplies_lcpAnswer h 0x20 stOk []
  rw [← hreply.rd (by decide) CFG_STATUS_SHADOW_ok] at hshadow
  rw [← hreply.rd (by decide) CFG_STATUS_SESSION_ok] at hsession
  rw [← hreply.cfg] at hload
  exact ⟨_, hexec, hshadow, hsession, hload⟩

/-! IMAGE_DATA (R278, R287). -/

theorem loadRun_none (hstep : s.loadStep = none) (n : Nat) : loadRun n s = s := by
  cases n with
  | zero => rfl
  | succ n => rw [loadRun, hstep]

/-- The header waits until its 64 bytes are there. -/
theorem State.loadStep_short {l : Load} (hload : s.cfg.load = some l) (hst : s.shadowSt = 1) (hpos : l.pos = 0) (hlen : l.bytes.length < 64) :
    s.loadStep = none := by
  rw [State.loadStep, hload]
  dsimp only
  rw [if_neg (not_not.2 hst), if_pos hpos, if_pos hlen]

theorem State.loadBlocked_start {l : Load} (hload : s.cfg.load = some l) (hpos : l.pos = 0) : s.loadBlocked = false := by
  rw [State.loadBlocked, hload, Option.any_some, hpos]
  simp

/-- Bytes of the header are taken, and counted. -/
theorem State.loadFeed_short {l : Load} (hload : s.cfg.load = some l) (hst : s.shadowSt = 1) (hpos : l.pos = 0) {d : Bytes}
    (hlen : l.bytes.length + d.length < 64) :
    s.loadFeed d = (s.updLoad fun l => { l with bytes := l.bytes ++ d }).wr 0 CFG_LOAD_BYTES (l.bytes.length + d.length) := by
  let y := s.updLoad fun l => { l with bytes := l.bytes ++ d }
  have hy : y.cfg.load = some { l with bytes := l.bytes ++ d } := congrArg (Option.map _) hload
  have hylen : ({ l with bytes := l.bytes ++ d } : Load).bytes.length = l.bytes.length + d.length := List.length_append
  have hstep := State.loadStep_short hy hst hpos (by rw [hylen]; exact hlen)
  have hfeed : s.loadFeed d = (loadRun 4200 y).loadCount := rfl
  rw [hfeed, loadRun_none hstep, State.loadCount, hy]
  dsimp only
  rw [State.loadBlocked_start hy hpos, if_neg Bool.false_ne_true, List.length_append]

theorem exec_imageData (s : State) (h : LcpHdr) (pay : Bytes) : exec (.imageData h pay) s =
    lcpRow h 0x21 pay (decide (5 ≤ pay.length) && decide (pay.length ≤ 8192)) false (fun x => x.dataAct h pay) s := rfl

theorem State.gives_imageData (hlive : s.live) (h5 : 5 ≤ pay.length) (h8192 : pay.length ≤ 8192) {l : Load} (hruns : s.lcpRuns h 0x21 false)
    (hload : s.cfg.load = some l) (hsession : l.session = h.session.val) (hpos : l.pos = 0) (hofs : leAt pay 0 4 = l.bytes.length)
    (h64 : l.bytes.length + (pay.length - 4) < 64) (hlen : l.bytes.length + (pay.length - 4) ≤ l.len) (hst : s.shadowSt = 1)
    (hnone : s.cfg.waiting = []) : s.gives (.imageData h pay) fun u => u.cfg.load = some { l with bytes := l.bytes ++ pay.drop 4 } ∧
      u.rd 0 CFG_LOAD_BYTES = l.bytes.length + (pay.length - 4) := by
  have hexec := exec_imageData s h pay
  rw [lcpRow_runs hlive hruns (by rw [decide_eq_true h5, decide_eq_true h8192]; rfl)] at hexec
  have hcfg := (s.onlyTakes_lcpBegun h 0x21 pay).cfg
  have hbst : (s.lcpBegun h 0x21 pay).shadowSt = 1 := by rw [s.shadowSt_lcpBegun, hst]
  generalize s.lcpBegun h 0x21 pay = b at *
  rw [← hcfg] at hload hnone
  have hdrop : (pay.drop 4).length = pay.length - 4 := List.length_drop
  have hturned : b.dataTurned ⟨h, leAt pay 0 4, pay.drop 4⟩ = none := by
    rw [State.dataTurned, hload]
    dsimp only
    rw [if_neg (not_not.2 hsession), if_neg (by omega)]
  have hfeed := State.loadFeed_short hload hbst hpos (d := pay.drop 4) (by omega)
  have htake : b.dataTake ⟨h, leAt pay 0 4, pay.drop 4⟩ = b.loadFeed (pay.drop 4) := by
    rw [State.dataTake, hload]
    dsimp only [Option.map_some, Option.getD_some]
    rw [hofs, Nat.sub_self, List.drop_zero]
  have hfload : (b.loadFeed (pay.drop 4)).cfg.load = some { l with bytes := l.bytes ++ pay.drop 4 } := by
    rw [hfeed, State.cfg_wr]
    exact congrArg (Option.map _) hload
  have hbytes : (b.loadFeed (pay.drop 4)).rd 0 CFG_LOAD_BYTES = l.bytes.length + (pay.length - 4) := by
    rw [hfeed, State.rd_wr _ _ _ _ CFG_LOAD_BYTES_ok, hdrop]
    exact Nat.mod_eq_of_lt (show l.bytes.length + (pay.length - 4) < 2 ^ 32 by omega)
  have hblocked := State.loadBlocked_start hfload hpos
  generalize b.loadFeed (pay.drop 4) = z at *
  have hact : b.dataAct h pay = ⟨some z.dataReply, z, stay⟩ := by
    unfold State.dataAct
    dsimp only
    rw [hnone, hturned]
    dsimp only [List.length_nil, List.isEmpty_nil]
    rw [if_neg (by decide), htake, hblocked]
    rfl
  rw [hact] at hexec
  have hreply := z.onlyReplies_lcpAnswer h 0x21 z.dataReply.1 z.dataReply.2
  have hfin : (⟨some z.dataReply, z, stay⟩ : LcpOut).finish h 0x21 = z.lcpAnswer h 0x21 z.dataReply.1 z.dataReply.2 := LcpOut.finish_some _ _ _ _ _ _
  rw [hfin] at hexec
  rw [← hreply.cfg] at hfload
  rw [← hreply.rd (by decide) CFG_LOAD_BYTES_ok] at hbytes
  exact ⟨_, hexec, hfload, hbytes⟩

/-! IMAGE_ABORT (R278, R279). -/

/-- A refusal is reported with its code. -/
theorem State.refusal_spec (s : State) {code : Nat} (hcode : code < 256) (sec ofs session : Nat) :
    (s.refusal code sec ofs session).rd 0 CFG_REFUSE_CODE = code ∧ (s.refusal code sec ofs session).mem = s.mem ∧
    (s.refusal code sec ofs session).cfg = s.cfg := by
  let x := ((s.setF 0 CFG_ERR_REFUSED).wr 0 CFG_REFUSE_CODE code).wr 0 CFG_REFUSE_SECTION sec
  let y := (x.wr 0 CFG_REFUSE_OFS ofs).addSat 0 CFG_LOADS_REFUSED 1
  have hx : x.rd 0 CFG_REFUSE_CODE = code := by
    rw [State.rd_wr_ne _ _ (by decide) (by decide) CFG_REFUSE_CODE_ok CFG_REFUSE_SECTION_ok (.inr (by unfold Fld.apart; decide)),
      State.rd_wr _ _ _ _ CFG_REFUSE_CODE_ok]
    exact Nat.mod_eq_of_lt hcode
  have hxy : x.onlyRegs y fun _ _ off => off ≠ 0xc :=
    State.onlyRegs_trans (x.onlyRegs_wr ofs (by decide) CFG_REFUSE_OFS_ok (by decide)) (State.onlyRegs_addSat _ 1
        (by decide) CFG_LOADS_REFUSED_ok (by decide))
  have heq : s.refusal code sec ofs session = y.notify 0x0004 code sec ofs session := rfl
  rw [heq, State.mem_notify, State.cfg_notify]
  refine ⟨?_, rfl, rfl⟩
  rw [State.rd_of_keeps (y.keeps_notify _ _ _ _ _) (by decide) CFG_REFUSE_CODE_ok fun h => absurd h.2.1 (by decide),
    State.rd_of_onlyRegs hxy (by decide) CFG_REFUSE_CODE_ok (by decide), hx]

/-- SHADOW is INVALID, and holds no job. -/
def State.shadowInvalid (s : State) : State := ((s.setShadow 6).wr 0 CFG_SHADOW_JOB 0).freeShadowRings

theorem State.shadowInvalid_spec (s : State) : s.shadowInvalid.rd 0 CFG_STATUS_SHADOW = 6 ∧
    s.shadowInvalid.rd 0 CFG_REFUSE_CODE = s.rd 0 CFG_REFUSE_CODE ∧ s.shadowInvalid.cfg = s.cfg ∧ s.shadowInvalid.mem = s.mem := by
  unfold State.shadowInvalid State.freeShadowRings State.setShadow
  dsimp only
  rw [State.rd_updRef, State.rd_updRef]
  refine ⟨?_, ?_, rfl, rfl⟩
  · rw [State.rd_wr_ne _ _ (by decide) (by decide) CFG_STATUS_SHADOW_ok CFG_SHADOW_JOB_ok (.inr (by unfold Fld.apart; decide)),
      State.rd_wr _ _ _ _ CFG_STATUS_SHADOW_ok]
    rfl
  · rw [State.rd_wr_ne _ _ (by decide) (by decide) CFG_REFUSE_CODE_ok CFG_SHADOW_JOB_ok (.inr (by unfold Fld.apart; decide)),
      State.rd_wr_ne _ _ (by decide) (by decide) CFG_REFUSE_CODE_ok CFG_STATUS_SHADOW_ok (.inr (by unfold Fld.apart; decide))]

/-- What else a refused load drops: the installation that it has begun, and the claim of a boot image. -/
def State.loadDropped (s : State) (l : Option Load) : State :=
  (if l.any (·.install == 2) then s.wr 0 CFG_INSTALL_ID 0 else s).setIf (l.any (·.session == 0)) 0 PWR_BOOT_IMAGE_REFUSED

theorem State.onlyRegs_loadDropped (s : State) (l : Option Load) : s.onlyRegs (s.loadDropped l) fun _ _ off => off ≠ 0x4 ∧ off ≠ 0xc := by
  have hinstall : s.onlyRegs (if l.any (·.install == 2) then s.wr 0 CFG_INSTALL_ID 0 else s) fun _ _ off => off ≠ 0x4 ∧ off ≠ 0xc := by
    split
    · exact s.onlyRegs_wr 0 (by decide) CFG_INSTALL_ID_ok (by decide)
    · exact s.onlyRegs_refl _
  refine State.onlyRegs_trans hinstall ?_
  unfold State.loadDropped
  generalize (if l.any (·.install == 2) then s.wr 0 CFG_INSTALL_ID 0 else s) = z
  unfold State.setIf
  split
  · exact z.onlyRegs_setF (by decide) PWR_BOOT_IMAGE_REFUSED_ok (by decide)
  · exact z.onlyRegs_refl _

theorem State.loadRefuse_eq (s : State) (code sec ofs : Nat) : s.loadRefuse code sec ofs =
    ((s.refusal code sec ofs (s.rd 0 CFG_STATUS_SESSION)).shadowInvalid.loadDropped s.cfg.load).updCfg fun c => { c with load := none } := rfl

/-- A load that is refused is gone, and SHADOW is INVALID. -/
theorem State.loadRefuse_spec (s : State) {code : Nat} (hcode : code < 256) (sec ofs : Nat) :
    (s.loadRefuse code sec ofs).rd 0 CFG_STATUS_SHADOW = 6 ∧ (s.loadRefuse code sec ofs).rd 0 CFG_REFUSE_CODE = code ∧
    (s.loadRefuse code sec ofs).cfg = { s.cfg with load := none } ∧ (s.loadRefuse code sec ofs).mem = s.mem := by
  obtain ⟨hrcode, hrmem, hrcfg⟩ := s.refusal_spec hcode sec ofs (s.rd 0 CFG_STATUS_SESSION)
  rw [State.loadRefuse_eq]
  generalize s.refusal code sec ofs (s.rd 0 CFG_STATUS_SESSION) = r at hrcode hrmem hrcfg ⊢
  obtain ⟨hshadow, hxcode, hxcfg, hxmem⟩ := r.shadowInvalid_spec
  generalize r.shadowInvalid = x at hshadow hxcode hxcfg hxmem ⊢
  have hregs := x.onlyRegs_loadDropped s.cfg.load
  generalize x.loadDropped s.cfg.load = z at hregs ⊢
  have hzcfg : z.cfg = s.cfg := by rw [hregs.1, ← hrcfg, ← hxcfg]
  have hzmem : z.mem = s.mem := by rw [hregs.1, ← hrmem, ← hxmem]
  rw [State.rd_updCfg, State.rd_updCfg, State.rd_of_onlyRegs hregs (by decide) CFG_STATUS_SHADOW_ok (by decide),
    State.rd_of_onlyRegs hregs (by decide) CFG_REFUSE_CODE_ok (by decide)]
  exact ⟨hshadow, hxcode.trans hrcode, congrArg (fun c : Cfg => { c with load := none }) hzcfg, hzmem⟩

theorem exec_imageAbort (s : State) (h : LcpHdr) (pay : Bytes) : exec (.imageAbort h pay) s =
    lcpRow h 0x22 pay pay.isEmpty false (fun x => ⟨some (stOk, []), x.cfgAbort, fun s => s.loadResume⟩) s := rfl

theorem State.gives_imageAbort (hlive : s.live) (hruns : s.lcpRuns h 0x22 false) (hst : s.shadowSt = 1) (hload : s.cfg.load ≠ none)
    (hnone : s.cfg.waiting = []) : s.gives (.imageAbort h []) fun u =>
      u.rd 0 CFG_STATUS_SHADOW = 6 ∧ u.rd 0 CFG_REFUSE_CODE = 0x0E ∧ u.cfg.load = none ∧ u.mem = s.mem := by
  have hexec := exec_imageAbort s h []
  rw [lcpRow_runs hlive hruns List.isEmpty_nil, LcpOut.finish_some] at hexec
  have hbst : (s.lcpBegun h 0x22 []).shadowSt = 1 := by rw [s.shadowSt_lcpBegun, hst]
  have htakes := s.onlyTakes_lcpBegun h 0x22 []
  have hcfg := htakes.cfg
  have hmem := htakes.mem
  generalize s.lcpBegun h 0x22 [] = b at *
  obtain ⟨l, hl⟩ := Option.ne_none_iff_exists'.1 hload
  have habort : b.cfgAbort = b.loadRefuse 0x0E l.idx l.bytes.length := by
    rw [State.cfgAbort, hbst, if_neg (by simp), if_pos (.inl rfl), State.loadStop, hcfg, hl]
  obtain ⟨hshadow, hcode, hzcfg, hzmem⟩ := b.loadRefuse_spec (show 0x0E < 256 by decide) l.idx l.bytes.length
  rw [habort] at hexec
  generalize b.loadRefuse 0x0E l.idx l.bytes.length = z at *
  have hreply := z.onlyReplies_lcpAnswer h 0x22 stOk []
  rw [← hreply.rd (by decide) CFG_STATUS_SHADOW_ok] at hshadow
  rw [← hreply.rd (by decide) CFG_REFUSE_CODE_ok] at hcode
  rw [hcfg, ← hreply.cfg] at hzcfg
  rw [hmem, ← hreply.mem] at hzmem
  generalize z.lcpAnswer h 0x22 stOk [] = y at *
  have hywait : y.cfg.waiting = [] := by rw [hzcfg]; exact hnone
  have hyload : y.cfg.load = none := by rw [hzcfg]
  rw [State.loadResume_none hywait] at hexec
  exact ⟨_, hexec, hshadow, hcode, hyload, hzmem⟩

/-! Sessions that time out (R340, R355). -/

theorem State.exec_sessionTimeout (hlive : s.live) {n : Fin 8} (hover : (s.sessAt n).any s.sessOver) :
    exec (.sessionTimeout n) s = .next (s.after (s.sessionTimeout n)) := whenEv_live (f := fun s => s.sessionTimeout n) hlive hover

theorem State.gives_sessionTimeout (hlive : s.live) {n : Fin 8} (hover : (s.sessAt n).any s.sessOver) (hahead : ¬
    (s.lcpAhead fun h => h.session.val == n.val)) :
    s.gives (.sessionTimeout n) fun u => u.sessAt n = none := by
  have hclose : s.sessionTimeout n = s.sessionClose n := if_neg hahead
  refine ⟨_, State.exec_sessionTimeout hlive hover, ?_⟩
  rw [hclose]
  exact s.sessAt_sessionClose_same n

theorem State.gives_sessionTimeout_behind (hlive : s.live) {n : Fin 8} (hover : (s.sessAt n).any s.sessOver)
    (hahead : s.lcpAhead fun h => h.session.val == n.val) : s.gives (.sessionTimeout n) fun u =>
      u.net.expired = n.val :: s.net.expired ∧ u.net.sessions = s.net.sessions ∧ u.regs = s.regs ∧ u.mem = s.mem := by
  have hwaits : s.sessionTimeout n = { s with net := { s.net with expired := n.val :: s.net.expired } } := if_pos hahead
  refine ⟨_, State.exec_sessionTimeout hlive hover, ?_⟩
  rw [hwaits]
  exact ⟨rfl, rfl, rfl, rfl⟩

theorem State.exec_sessionTimeout_not (hlive : s.live) {n : Fin 8} (hover : ¬ (s.sessAt n).any s.sessOver) :
    exec (.sessionTimeout n) s = .next s := by
  have hexec : exec (.sessionTimeout n) s = finish s (if (s.sessAt n).any s.sessOver then s.sessionTimeout n else s) := rfl
  rw [hexec, finish_live hlive, if_neg hover]
  rfl

theorem State.gives_sessClose (hlive : s.live) (v : BitVec 32) : s.gives (.sessClose v) fun u => ∀ k, 1 ≤ k → k ≤ 7 → v.getLsbD k →
    u.sessAt k = none :=
  ⟨_, finish_live hlive, fun _ h1 h7 hv => State.sessAt_sessCloseWrite ⟨h1, h7⟩ hv⟩

/-- Settles O53: a request that is only counted, one that is carried out, operation by operation, and the sessions that close. -/
theorem lcpRequests : Obligations.LcpRequests := by
  unfold Obligations.LcpRequests
  refine ⟨fun s h pay hlive => ?_, fun s h pay hlive => ?_, fun s n v hlive => ?_⟩
  · intro rows
    refine ⟨fun hmine i hi => ?other, fun hmine hstays i hi => ?stays, fun hmine hstays haddr _ hne hquiet hcopy => ?_⟩
    case other =>
      obtain ⟨fits, free, act, hexec⟩ := exec_lcpRows s hi
      exact hexec.trans (lcpRow_other hlive hmine)
    case stays =>
      obtain ⟨fits, free, act, hexec⟩ := exec_lcpRows s hi
      exact ⟨_, hexec.trans (lcpRow_stays hlive hmine hstays), rfl, rfl, rfl⟩
    · have hq : s.lcpQuiet h := ⟨hlive, hmine, hstays, haddr, hne, hquiet, hcopy⟩
      exact ⟨fun hm i hi => hq.foreign hm hi, fun _ hk i hi => hq.repeated hk hi, fun _ hpay i hi => hq.misfit hpay hi,
        hq.keepalive, hq.subscribe, hq.close, hq.notifyAck⟩
  · intro does regs
    have hregs : ∀ {i : Instr} {op : Nat} {fits free : Bool}, exec i s = lcpRow h op pay fits free (fun x => x.lcpRegAct h op pay) s → fits = true →
        regs i op free := fun hexec hfits =>
      ⟨fun hruns => hexec.trans (lcpRow_runs hlive hruns hfits), State.gives_lcpRegs hlive hexec hfits, State.gives_lcpRegs_wait hlive hexec hfits⟩
    have hdoes : ∀ (act : State → LcpOut) {i : Instr} {op : Nat} {fits free : Bool}, exec i s = lcpRow h op pay fits free act s → fits = true →
        does i op free act := fun _ _ _ _ _ hexec hfits hruns => hexec.trans (lcpRow_runs hlive hruns hfits)
    refine ⟨fun hlen h1 h2048 => hregs rfl ?read, fun h4 h12 h8192 => hregs rfl ?write, fun hlen => hregs rfl (beq_iff_eq.2 hlen),
      fun h8 h1 h8192 => hregs rfl ?list, fun hlen => ⟨hdoes (fun x => x.enumAct h (byteAt pay 0)) rfl (beq_iff_eq.2 hlen),
          State.gives_lcpEnumerate hlive hlen⟩, fun hpay => ?identify,
      State.exec_lcpIdentify_other hlive, fun hlen hone => ⟨hdoes (fun x => ⟨some (stOk, []), x, fun s => s.lcpReset h⟩) rfl ?reset,
          State.gives_lcpReset hlive hlen hone⟩,
      fun hlen => ⟨hdoes (fun x => x.openAct h (leAt pay 0 4)) rfl (beq_iff_eq.2 hlen), State.gives_imageOpen hlive hlen⟩,
      fun h5 h8192 => ⟨hdoes (fun x => x.dataAct h pay) rfl ?data, fun l hruns => State.gives_imageData hlive h5 h8192 hruns⟩, fun hpay => ?abort,
      fun hlen hwant => ⟨hdoes (fun x => x.lcpOpenAct h (byteAt pay 0)) rfl ?open_, fun hruns _ => State.gives_lcpOpen hlive hlen hwant hruns⟩⟩
    case read => simp [hlen, h1, h2048]
    case write => simp [h4, h12, h8192]
    case list => simp [h8, h1, h8192]
    case reset => simp [hlen, hone]
    case data => simp [h5, h8192]
    case open_ => simp [hlen, hwant]
    case identify =>
      subst hpay
      exact ⟨hdoes (fun x => ⟨some (stOk, x.identity), x, stay⟩) rfl rfl, State.gives_identify hlive⟩
    case abort =>
      subst hpay
      exact ⟨hdoes (fun x => ⟨some (stOk, []), x.cfgAbort, fun s => s.loadResume⟩) rfl rfl, State.gives_imageAbort hlive⟩
  · exact ⟨State.gives_sessionTimeout hlive, State.gives_sessionTimeout_behind hlive, State.exec_sessionTimeout_not hlive,
      State.gives_sessClose hlive v⟩

end Sys2Proof.Machine
end

section
/-! SUPPORT. Spans and blind records (R65, R66): the cap on the spans of a band and group, and the fields of a record. -/

namespace Sys2Proof.Machine

/-! The cap on spans (R65). -/

/-- Two spans as the cap merges them: reason and stage of the first, the stretch, extent and sub-streams of both, the marks of either. -/
def Span.merge (a b : Span) : Span :=
  { a with b0 := Nat.min a.b0 b.b0, b1 := Nat.max a.b1 b.b1, w0 := min a.w0 b.w0, w1 := max a.w1 b.w1,
           x0 := min a.x0 b.x0, x1 := max a.x1 b.x1, mask := a.mask ||| b.mask, cont := a.cont || b.cont,
           short := a.short || b.short, stepped := a.stepped || b.stepped,
           time := if b.b0 < a.b0 then b.time else a.time, steps := if b.b0 < a.b0 then b.steps else a.steps }

/-- The one span that stands for `x` and those behind it. -/
def Span.mergeAll (width : Int) (x : Span) (l : List Span) : Span :=
  { l.foldl Span.merge x with merged := true, partial_ := decide ((l.foldl Span.merge x).x1 - (l.foldl Span.merge x).x0 < width) }

theorem mergeSpans_cons (width : Int) (x : Span) (l : List Span) : mergeSpans width (x :: l) = [x.mergeAll width l] := rfl

/-- A span covers another: its stretch and its extent, its sub-streams, and the marks that a merged record carries over. -/
structure Span.covers (m x : Span) : Prop where
  b0 : m.b0 ≤ x.b0
  w0 : m.w0 ≤ x.w0
  w1 : x.w1 ≤ m.w1
  x0 : m.x0 ≤ x.x0
  x1 : x.x1 ≤ m.x1
  mask : x.mask ||| m.mask = m.mask
  cont : x.cont → m.cont
  short : x.short → m.short

theorem Span.covers_refl (x : Span) : x.covers x :=
  ⟨le_rfl, le_rfl, le_rfl, le_rfl, le_rfl, Nat.or_self _, id, id⟩

theorem Span.covers_trans {x y z : Span} (h : x.covers y) (h' : y.covers z) : x.covers z where
  b0 := h.b0.trans h'.b0
  w0 := h.w0.trans h'.w0
  w1 := h'.w1.trans h.w1
  x0 := h.x0.trans h'.x0
  x1 := h'.x1.trans h.x1
  mask := by rw [← h.mask, ← Nat.or_assoc, h'.mask]
  cont := h.cont ∘ h'.cont
  short := h.short ∘ h'.short

theorem Span.merge_covers_left (a b : Span) : (a.merge b).covers a :=
  ⟨Nat.min_le_left _ _, min_le_left _ _, le_max_left _ _, min_le_left _ _, le_max_left _ _,
    by simp only [Span.merge, ← Nat.or_assoc, Nat.or_self], by simp +contextual [Span.merge], by simp +contextual [Span.merge]⟩

theorem Span.merge_covers_right (a b : Span) : (a.merge b).covers b :=
  ⟨Nat.min_le_right _ _, min_le_right _ _, le_max_right _ _, min_le_right _ _, le_max_right _ _,
    by simp only [Span.merge, Nat.or_left_comm, Nat.or_self], by simp +contextual [Span.merge], by simp +contextual [Span.merge]⟩

/-- Spans merged one after the other cover each of them. -/
theorem Span.foldl_merge_covers (x : Span) (l : List Span) : ∀ y ∈ x :: l, (l.foldl Span.merge x).covers y := by
  induction l generalizing x with
  | nil => simpa using x.covers_refl
  | cons z l ih =>
    have hz : (l.foldl Span.merge (x.merge z)).covers (x.merge z) := ih _ _ List.mem_cons_self
    intro y hy
    rcases List.mem_cons.1 hy with rfl | hy
    · exact Span.covers_trans hz (merge_covers_left _ _)
    rcases List.mem_cons.1 hy with rfl | hy
    · exact Span.covers_trans hz (merge_covers_right _ _)
    · exact ih _ _ (List.mem_cons_of_mem _ hy)

theorem Span.foldl_merge_origin (x : Span) (l : List Span) :
    (l.foldl Span.merge x).reason = x.reason ∧ (l.foldl Span.merge x).stage = x.stage := by
  induction l generalizing x with
  | nil => exact ⟨rfl, rfl⟩
  | cons z l ih => exact ih _

/-- Settles O20: beyond the cap the rest of the list is one merged span, and merging covers what it merges. -/
theorem spanCap : Obligations.SpanCap := by
  intro width maxrec l h1
  refine ⟨fun h => if_pos h, fun h => ?_⟩
  have hlt : maxrec - 1 < l.length := by omega
  have hdrop := List.drop_eq_getElem_cons hlt
  generalize l[maxrec - 1] = x at hdrop ⊢
  generalize l.drop (maxrec - 1 + 1) = rest at hdrop
  obtain ⟨hreason, hstage⟩ := x.foldl_merge_origin rest
  have hcap : capSpans width maxrec l = l.take (maxrec - 1) ++ [x.mergeAll width rest] := by
    rw [capSpans, if_neg (by omega), hdrop, mergeSpans_cons]
  refine ⟨x.mergeAll width rest, hcap, rfl, hreason, hstage, decide_eq_true_iff, fun y hy => ?_⟩
  have hc := x.foldl_merge_covers rest y (hdrop ▸ hy)
  exact ⟨hc.b0, hc.w0, hc.w1, hc.x0, hc.x1, hc.mask, hc.cont, hc.short⟩

/-! Fields of a byte string (R10). -/

theorem leNat_leBytes (n x : Nat) : leNat (leBytes n x) = x % 256 ^ n := by
  induction n generalizing x with
  | zero => simp [leBytes, leNat, Nat.mod_one]
  | succ n ih =>
    rw [leBytes, leNat, ih, BitVec.toNat_ofNat, pow_succ' 256 n, Nat.mod_mul]

/-- Little-endian fields one behind the other: the length in bytes and the number of each. -/
def fieldBytes (l : List (Nat × Nat)) : Bytes := l.flatMap fun f => leBytes f.1 f.2

theorem length_fieldBytes (l : List (Nat × Nat)) : (fieldBytes l).length = (l.map Prod.fst).sum := by
  induction l with
  | nil => rfl
  | cons f l ih => rw [fieldBytes, List.flatMap_cons, List.length_append, length_leBytes, List.map_cons, List.sum_cons, ← ih, fieldBytes]

/-- A field read at its offset, whatever stands behind the fields. -/
theorem leAt_fieldBytes {l : List (Nat × Nat)} (rest : Bytes) {i n v : Nat} (h : l[i]? = some (n, v)) :
    leAt (fieldBytes l ++ rest) ((l.map Prod.fst).take i).sum n = v % 256 ^ n := by
  obtain ⟨hi, hget⟩ := List.getElem?_eq_some_iff.1 h
  have hsplit : fieldBytes l ++ rest = fieldBytes (l.take i) ++ (leBytes n v ++ (fieldBytes (l.drop (i + 1)) ++ rest)) := by
    conv_lhs => rw [← List.take_append_drop i l, List.drop_eq_getElem_cons hi, hget]
    simp only [fieldBytes, List.flatMap_append, List.flatMap_cons, List.append_assoc]
  rw [leAt, hsplit, ← List.map_take, ← length_fieldBytes, List.drop_left, List.take_left' (length_leBytes _ _), leNat_leBytes]

/-- Fields whose numbers fit their lengths are read as they are. -/
theorem leAt_fieldBytes_of_fit {l : List (Nat × Nat)} (hfit : ∀ f ∈ l, f.2 < 256 ^ f.1) (rest : Bytes) (i : Nat) {n v : Nat}
    (h : l[i]? = some (n, v)) : leAt (fieldBytes l ++ rest) ((l.map Prod.fst).take i).sum n = v :=
  (leAt_fieldBytes rest h).trans (Nat.mod_eq_of_lt (hfit _ (List.mem_of_getElem? h)))

theorem byteAt_eq_leAt (bs : Bytes) (i : Nat) : byteAt bs i = leAt bs i 1 := by
  rw [byteAt, leAt, List.getD_eq_getElem?_getD, ← List.head?_drop]
  cases bs.drop i with
  | nil => rfl
  | cons b l => simp [leNat]

/-- A number of `n` + 1 bits of two's complement survives its encoding. -/
theorem sInt_uNat {n : Nat} {y : Int} (h1 : -2 ^ n ≤ y) (h2 : y < 2 ^ n) : sInt (n + 1) (uNat (n + 1) y) = y := by
  have hpow : ((2 ^ (n + 1) : Nat) : Int) = 2 * 2 ^ n := by rw [pow_succ]; push_cast; ring
  have hcast : (uNat (n + 1) y : Int) = y % (2 * 2 ^ n) := by
    rw [uNat, hpow]
    exact Int.toNat_of_nonneg (Int.emod_nonneg _ (by positivity))
  have hlt := uNat_lt (n + 1) y
  rw [sInt, Nat.mod_eq_of_lt hlt]
  by_cases hy : 0 ≤ y
  · rw [Int.emod_eq_of_lt hy (by omega)] at hcast
    rw [if_pos (by omega), hcast]
  · rw [← Int.add_emod_right, Int.emod_eq_of_lt (by omega) (by omega)] at hcast
    rw [if_neg (by omega), hcast, hpow]
    omega

theorem bitRev_lt (n x : Nat) : bitRev n x < 2 ^ n := by
  induction n generalizing x with
  | zero => exact Nat.one_pos
  | succ n ih =>
    have := ih (x / 2)
    have hbit : x % 2 * 2 ^ n ≤ 1 * 2 ^ n := Nat.mul_le_mul_right _ (by omega)
    rw [bitRev, pow_succ]
    omega

theorem crc32c_lt (bs : Bytes) : crc32c bs < 256 ^ 4 := by
  have h : crcResult crc32cKind (crcFeed crc32cKind crc32cKind.init bs) < 2 ^ 32 :=
    Nat.xor_lt_two_pow (bitRev_lt 32 _) (by decide)
  exact h

/-! The blind record (R66). -/

/-- The fields of a blind record before its CRC, in the order of their offsets: length and number. -/
def Span.recordFields (x : Span) (unit alive g : Nat) (step : Bool) : List (Nat × Nat) :=
  [(1, 0x02), (1, 1), (1, unit), (1, alive), (1, g), (1, x.reason), (2, x.flags step), (8, x.b0), (8, uNat 64 x.w0),
    (4, (clampI 0 maxWebLen (x.w1 - x.w0)).toNat), (4, uNat 32 (satS 32 x.x0)), (4, uNat 32 (satU 32 (x.x1 - x.x0))), (4, x.job),
    (8, x.mask), (8, x.time), (4, 0)]

theorem Span.recordFields_widths (x : Span) (unit alive g : Nat) (step : Bool) :
    (x.recordFields unit alive g step).map Prod.fst = [1, 1, 1, 1, 1, 1, 2, 8, 8, 4, 4, 4, 4, 8, 8, 4] := rfl

theorem Span.record_eq (x : Span) (unit alive g : Nat) (step : Bool) : x.record unit alive g step =
    fieldBytes (x.recordFields unit alive g step) ++ leBytes 4 (crc32c (fieldBytes (x.recordFields unit alive g step))) := by
  have hzeros : zeros 4 = leBytes 4 0 := rfl
  simp only [Span.record, withCrc, Span.recordFields, fieldBytes, hzeros, List.flatMap_cons, List.flatMap_nil, List.append_nil, List.append_assoc]

theorem Span.flags_lt (x : Span) (step : Bool) (h : x.stage < 16) : x.flags step < 2 ^ 16 := by
  have hbit : ∀ b, bitN b ≤ 1 := by decide
  have h1 := hbit (step || x.stepped)
  have h2 := hbit x.partial_
  have h3 := hbit x.cont
  have h4 := hbit x.merged
  have h5 := hbit x.short
  unfold Span.flags
  omega

theorem clampI_of_mem {lo hi x : Int} (h1 : lo ≤ x) (h2 : x ≤ hi) : clampI lo hi x = x := by
  rw [clampI, if_neg (by omega), if_neg (by omega)]

theorem uNat_of_mem {n : Nat} {x : Int} (h1 : 0 ≤ x) (h2 : x < (2 ^ n : Nat)) : (uNat n x : Int) = x := by
  rw [uNat, Int.emod_eq_of_lt h1 h2, Int.toNat_of_nonneg h1]

/-- Settles O21: every field of the record is read where `recordFields` puts it, and its number fits its length. -/
theorem blindRecordLayout : Obligations.BlindRecordLayout := by
  intro x unit alive g step hunit halive hg hreason hstage hb0 hjob hmask htime hw0 hw hw1 hlen hx0 hx hx1 r
  have hweb : clampI 0 maxWebLen (x.w1 - x.w0) = x.w1 - x.w0 := clampI_of_mem (by omega) hlen
  have hx0s : satS 32 x.x0 = x.x0 := clampI_of_mem hx0 (by omega)
  have hext : satU 32 (x.x1 - x.x0) = x.x1 - x.x0 := clampI_of_mem (by omega) (by omega)
  have hflags := x.flags_lt step hstage
  have hmax : maxWebLen = 0xFFFFFFFF := rfl
  have hfit : ∀ f ∈ x.recordFields unit alive g step, f.2 < 256 ^ f.1 := by
    have hu64 := uNat_lt 64 x.w0
    have hu32 := uNat_lt 32 (satS 32 x.x0)
    have he32 := uNat_lt 32 (satU 32 (x.x1 - x.x0))
    simp only [Span.recordFields, List.forall_mem_cons, List.not_mem_nil, false_implies, implies_true, and_true, hweb]
    omega
  have hfields : (fieldBytes (x.recordFields unit alive g step)).length = 60 := by
    rw [length_fieldBytes, Span.recordFields_widths]
    rfl
  have hrec : r = _ := x.record_eq unit alive g step
  have hat := leAt_fieldBytes_of_fit hfit (leBytes 4 (crc32c (fieldBytes (x.recordFields unit alive g step))))
  rw [← hrec, Span.recordFields_widths] at hat
  clear_value r
  have hbyte : ∀ i v, leAt r i 1 = v → byteAt r i = v := fun i v h => (byteAt_eq_leAt r i).trans h
  have hcrc : leAt r 60 4 = crc32c (r.take 60) := by
    rw [leAt, hrec, List.drop_left' hfields, List.take_left' hfields, List.take_of_length_le (length_leBytes _ _).le, leNat_leBytes]
    exact Nat.mod_eq_of_lt (crc32c_lt _)
  refine ⟨?length, hbyte 0 _ (hat 0 rfl), hbyte 1 _ (hat 1 rfl), hbyte 2 _ (hat 2 rfl), hbyte 3 _ (hat 3 rfl),
    hbyte 4 _ (hat 4 rfl), hbyte 5 _ (hat 5 rfl), hat 6 rfl, hat 7 rfl, ?webStart, ?webLen, ?xStart, ?xLen,
    hat 12 rfl, hat 13 rfl, hat 14 rfl, hat 15 rfl, hcrc⟩
  case length => rw [hrec, List.length_append, hfields, length_leBytes]
  case webStart => exact (congrArg (sInt 64) (hat 8 rfl)).trans (sInt_uNat hw0 (hw.trans_lt hw1))
  case webLen =>
    have h := hat 9 rfl
    have hnat : ((clampI 0 maxWebLen (x.w1 - x.w0)).toNat : Int) = x.w1 - x.w0 := by rw [hweb]; omega
    exact (congrArg Int.ofNat h).trans hnat
  case xStart => exact (congrArg (sInt 32) (hat 10 rfl)).trans ((sInt_uNat (hx0s.symm ▸ hx0) (hx0s.symm ▸ hx.trans_lt hx1)).trans hx0s)
  case xLen =>
    have hnat : (uNat 32 (satU 32 (x.x1 - x.x0)) : Int) = x.x1 - x.x0 := by rw [hext]; exact uNat_of_mem (by omega) (by omega)
    exact (congrArg Int.ofNat (hat 11 rfl)).trans hnat

end Sys2Proof.Machine
end

section
/-! SUPPORT. Band ticks in states that no run reaches (R49, R53, R56): the record of the cycle's late writes may name any field, also a counter of
the band clock, and a band tick sets every field that it names. -/

namespace Sys2Proof.Machine

/-- A part in operation, of two tiles, whose cycle notes a late write of a register (R16, R268); the AUX PLL of tile 0 is locked. For a counter of the
band clock no run reaches it: software does not write one. -/
def lateWritten (f : Fld) : State :=
  { State.reset.wr 0 CLK_LOCK_AUX 1 with
    id := { Ident.default with variant := .lyn820 }
    pwr := { State.reset.pwr with phase := .run }
    cyc := { Cycle.idle with late := [(0, f)] } }

/-- A late write of the line counter; RUN is 1 with SRC = 1, and the first exact time of the schedule has come. -/
def lateScheduled : State :=
  { ((lateWritten BND_LINE_LO).wr 0 BND_CTRL_RUN 1).wr 0 BND_CTRL_SRC 1 with clk := { State.reset.clk with schedule := some 0 } }

/-- A late write of the band index; a drain with two ticks to come. -/
def lateDraining : State :=
  { (lateWritten BND_INDEX_LO).wr 0 BND_STATUS_DRAINING 1 with clk := { State.reset.clk with drainLeft := 2 } }

theorem lateScheduled_due : lateScheduled.live ∧ lateScheduled.locked 0 .aux ∧ lateScheduled.schedDue ∧ ¬ lateScheduled.is 0 BND_STATUS_HOLDING ∧
    lateScheduled.nextLine = 0 := by decide +kernel

/-- The first line of the run is numbered 0xFFFF_FFFF: its band tick sets the late field. -/
theorem lateScheduled_line : (Answer.orElse (exec .tbScheduleTick lateScheduled) lateScheduled).rd64 0 BND_LINE_LO = 0xFFFFFFFF := by decide +kernel

/-- Refutes O16: where the cycle's late writes name BND_LINE_LO, the first line tick since RUN leaves 0xFFFF_FFFF in the line counter, and not 0. -/
theorem not_rateLimiter : ¬ Obligations.RateLimiter := by
  intro h
  obtain ⟨hlive, hlocked, hdue, hfree, hline⟩ := lateScheduled_due
  obtain ⟨-, -, haccept, -⟩ := h.2 lateScheduled 0 hlive hlocked hdue rfl
  obtain ⟨u, hu, ⟨hcount, -⟩, -⟩ := haccept hfree fun a ha => nomatch ha
  have hlate := lateScheduled_line
  rw [hu, show Answer.orElse (.next u) lateScheduled = u from rfl, hcount, hline] at hlate
  exact absurd hlate (by decide)

theorem lateDraining_due : lateDraining.live ∧ lateDraining.is 0 BND_STATUS_DRAINING ∧ lateDraining.nextIndex = 0 := by decide +kernel

/-- The first band of the run has the index 0xFFFF_FFFF. -/
theorem lateDraining_index : (Answer.orElse (exec .drainTick lateDraining) lateDraining).rd64 0 BND_INDEX_LO = 0xFFFFFFFF := by decide +kernel

/-- Refutes O17: where the cycle's late writes name BND_INDEX_LO, the first drain tick since RUN leaves 0xFFFF_FFFF in the band index, and not 0. -/
theorem not_bandClockOperations : ¬ Obligations.BandClockOperations := by
  intro h
  obtain ⟨hlive, hdrain, hindex⟩ := lateDraining_due
  obtain ⟨-, -, -, -, htick, -⟩ := h lateDraining hlive
  obtain ⟨u, hu, hcount, -⟩ := htick hdrain rfl
  have hlate := lateDraining_index
  rw [hu, show Answer.orElse (.next u) lateDraining = u from rfl, hcount, hindex] at hlate
  exact absurd hlate (by decide)

end Sys2Proof.Machine
end

section
/-! SUPPORT. The blind ledger's input and output (R63, R69, R389, R390): tokens that arrive, and held records that go to their queue. -/

namespace Sys2Proof.Machine

variable {s u : State}

/-! Tokens that arrive (R63). -/

theorem BND_COV_REP_ok {g : Nat} (hg : g < 8) : (BND_COV_REP g).ok :=
  ⟨Nat.zero_le _, show 31 < 32 by decide, show 2 < 128 by decide, show 0x100 + 0x20 * g < 2 ^ 30 by omega⟩

theorem BND_COV_JOB_LO_pairOk {g : Nat} (hg : g < 8) : (BND_COV_JOB_LO g).pairOk :=
  ⟨show 2 < 128 by decide, show 0x108 + 0x20 * g + 4 < 2 ^ 30 by omega⟩

/-- The words of a group's totals of blind length, in the repeat and in the job. -/
abbrev covWords (g : Nat) : WordSet := ((BND_COV_REP g).wordAt 0).or ((BND_COV_JOB_LO g).pairAt 0)

/-- Both totals of the group go on by the token's length, and no other word changes. -/
theorem State.lateLength_spec {k : Token} {b : Band} (hb : s.band k.band = some b) (hg : k.group < 8) :
    let n := ((s.spanOf b k).w1 - (s.spanOf b k).w0).toNat
    (s.lateLength k).rd 0 (BND_COV_REP k.group) = (s.rd 0 (BND_COV_REP k.group) + n) % 2 ^ 32 ∧
    (s.lateLength k).rd64 0 (BND_COV_JOB_LO k.group) = (s.rd64 0 (BND_COV_JOB_LO k.group) + n) % 2 ^ 64 ∧
    s.onlyRegs (s.lateLength k) (covWords k.group) := by
  intro n
  have heq : s.lateLength k = (s.wr 0 (BND_COV_REP k.group) (s.rd 0 (BND_COV_REP k.group) + n)).add64 0 (BND_COV_JOB_LO k.group) n := by
    rw [State.lateLength, hb]
  have hrep := BND_COV_REP_ok hg
  have hjob := BND_COV_JOB_LO_pairOk hg
  have h1 := s.onlyRegs_wr (K := (BND_COV_REP k.group).wordAt 0) (s.rd 0 (BND_COV_REP k.group) + n) (by decide) hrep ⟨rfl, rfl, rfl⟩
  have hval := s.rd_wr 0 (BND_COV_REP k.group) (s.rd 0 (BND_COV_REP k.group) + n) hrep
  rw [heq]
  generalize s.wr 0 (BND_COV_REP k.group) (s.rd 0 (BND_COV_REP k.group) + n) = v at h1 hval ⊢
  have h2 : v.onlyRegs (v.add64 0 (BND_COV_JOB_LO k.group) n) _ := v.onlyRegs_wr64 _ (by decide) hjob
  refine ⟨?rep, ?job, State.onlyRegs_trans (State.onlyRegs_mono h1 fun _ _ _ => .inl) (State.onlyRegs_mono h2 fun _ _ _ => .inr)⟩
  case rep =>
    refine (State.rd_of_onlyRegs h2 (by decide) hrep ?_).trans hval
    rintro ⟨-, -, h | h⟩ <;> simp only [BND_COV_REP, BND_COV_JOB_LO] at h <;> omega
  case job =>
    rw [State.add64, State.rd64_wr64 _ _ (by decide) hjob, State.rd64_of_onlyRegs h1 (by decide) hjob.1 hjob.2] <;>
      rintro ⟨-, -, h⟩ <;> simp only [BND_COV_REP, BND_COV_JOB_LO] at h <;> omega

theorem State.exec_blindTokenArrival (hlive : s.live) : exec .blindTokenArrival s = .next (s.after s.tokenArrive) := finish_live hlive

/-- A token whose lists are open goes into them. -/
theorem State.tokenArrive_open {k : Token} {l : List Token} (hk : s.led.inFlight = k :: l) (hopen : s.clk.nextRelease ≤ k.band) :
    s.tokenArrive = { s with led := { s.led with inFlight := l, tokens := s.led.tokens ++ [k] } } := by
  simp only [State.tokenArrive, hk, if_neg (Nat.not_lt.2 hopen)]

/-- A token that comes after its band's lists are closed. -/
theorem State.tokenArrive_late {k : Token} {l : List Token} (hk : s.led.inFlight = k :: l) (hlate : k.band < s.clk.nextRelease) :
    s.tokenArrive = { ({ s with led := { s.led with inFlight := l } } : State).lateLength k with
      led := { s.led with inFlight := l, late := s.led.late ++ [k] } } := by
  simp only [State.tokenArrive, hk, if_pos hlate]

/-! A commit to a queue that nothing else takes from in the cycle (R389, R390). -/

theorem State.qLeaving_of_calm {t q : Nat} (h : s.calmQueue t q) : s.qLeaving t q = [] ∧ s.poolLeaving t = 0 := by
  obtain ⟨hpops, -⟩ := h
  constructor
  · rw [State.qLeaving, hpops, List.count_nil, List.take_zero]
  · rw [State.poolLeaving, hpops]
    rfl

/-- The cells of a queue's items. -/
def State.qCells (s : State) (t q : Nat) : Nat := sumN ((s.qItems t q).map QItem.cells)

theorem State.commit_refused {t q p : Nat} {i : QItem} (hcalm : s.calmQueue t q) (hquota : s.began.rd t (QUE_Q_CFG_QUOTA q) < s.qCells t q + i.cells) :
    s.commit t q p i = (false, (s.addSat t (QUE_Q_REFUSED q) 1).setF t QUE_ERR_REFUSED) := by
  obtain ⟨hleaving, -⟩ := State.qLeaving_of_calm hcalm
  simp only [State.commit, hcalm.2, hleaving]
  exact if_pos hquota

theorem State.commit_taken {t q p : Nat} {i : QItem} (hcalm : s.calmQueue t q) (hquota : s.qCells t q + i.cells ≤ s.began.rd t (QUE_Q_CFG_QUOTA q))
    (hfree : i.cells ≤ s.rd t QUE_POOL_FREE) : s.commit t q p i =
      (true, (((s.takeCells t i.cells).putItem t q p i).addWrap t (QUE_Q_PUSHED q) 1).levelCheck t q ((s.qItems t q).length + 1)) := by
  obtain ⟨hleaving, hpool⟩ := State.qLeaving_of_calm hcalm
  simp only [State.commit, hcalm.2, hleaving, hpool]
  exact (if_neg (Nat.not_lt.2 hquota)).trans (if_neg (Nat.not_lt.2 hfree))

/-! What a commit that is taken leaves (R389 to R391). -/

theorem QUE_POOL_FREE_ok : QUE_POOL_FREE.ok := by unfold Fld.ok; decide
theorem QUE_POOL_MIN_FREE_ok : QUE_POOL_MIN_FREE.ok := by unfold Fld.ok; decide
theorem QUE_ERR_REFUSED_ok : QUE_ERR_REFUSED.ok := by unfold Fld.ok; decide

/-- A field of the block's registers for a queue. -/
theorem queFld_ok {a q hi lo : Nat} (hq : q < 256) (ha : a < 0x2000) (h : lo ≤ hi) (hhi : hi < 32) : Fld.ok ⟨0x15, a + 0x20 * q, hi, lo⟩ :=
  ⟨h, hhi, show 0x15 < 128 by decide, show a + 0x20 * q < 2 ^ 30 by omega⟩

/-- The free cells go down by those of the item. -/
theorem State.rd_takeCells {t n : Nat} (ht : t < 8) (hn : n ≤ s.rd t QUE_POOL_FREE) :
    (s.takeCells t n).rd t QUE_POOL_FREE = s.rd t QUE_POOL_FREE - n := by
  have hlt := s.rd_lt t QUE_POOL_FREE
  rw [State.takeCells, State.rd_wr_ne _ _ ht ht QUE_POOL_FREE_ok QUE_POOL_MIN_FREE_ok (.inr (.inr (.inr (.inl (by decide))))),
    State.rd_wr _ _ _ _ QUE_POOL_FREE_ok]
  have h16 : 2 ^ (QUE_POOL_FREE.hi + 1 - QUE_POOL_FREE.lo) = 65536 := rfl
  rw [h16] at hlt ⊢
  omega

/-- The item stands in the queue behind every item of an earlier cycle. -/
theorem State.qItems_putItem (t q p : Nat) (i : QItem) : ∃ n, (s.qItems t q).length - (s.qCame t q).length ≤ n ∧
    (s.putItem t q p i).qItems t q = (s.qItems t q).take n ++ i :: (s.qItems t q).drop n :=
  ⟨_, Nat.le_add_right _ _, smGet_set_same _ _ _ _⟩

/-- The register words that the items of a queue show in. -/
theorem State.keeps_setItems (s : State) {t q : Nat} (l : List QItem) (ht : t < 8) (hq : q < 256) {K : WordSet} (hK : ∀ off, 0x10 ≤ off → K t 0x15 off) :
    s.keeps (s.setItems t q l) K := by
  have hdepth : (QUE_Q_STATUS_DEPTH q).ok := queFld_ok hq (by decide) (by decide) (by decide)
  have hcells : (QUE_Q_CELLS q).ok := queFld_ok hq (by decide) (by decide) (by decide)
  have hKd : K t (QUE_Q_STATUS_DEPTH q).blk (QUE_Q_STATUS_DEPTH q).off := hK _ (show 0x10 ≤ 0x1008 + 0x20 * q by omega)
  have hKc : K t (QUE_Q_CELLS q).blk (QUE_Q_CELLS q).off := hK _ (show 0x10 ≤ 0x100c + 0x20 * q by omega)
  obtain ⟨x, c, heq⟩ : ∃ x c, s.setItems t q l = (({ s with que := x } : State).wr t (QUE_Q_STATUS_DEPTH q) l.length).wr t (QUE_Q_CELLS q) c := ⟨_, _, rfl⟩
  rw [heq]
  have hv : s.keeps ({ s with que := x } : State) K := State.keeps_of_regs rfl rfl K
  generalize ({ s with que := x } : State) = v at hv ⊢
  exact State.keeps_trans (State.keeps_trans hv (v.keeps_wr _ ht hdepth hKd)) (State.keeps_wr _ _ ht hcells hKc)

theorem State.keeps_cyc (s : State) (c : Cycle) (K : WordSet) : s.keeps { s with cyc := c } K := State.keeps_of_regs rfl rfl K

theorem State.keeps_putItem {t q : Nat} (p : Nat) (i : QItem) (ht : t < 8) (hq : q < 256) {K : WordSet} (hK : ∀ off, 0x10 ≤ off → K t 0x15 off) :
    s.keeps (s.putItem t q p i) K := by
  obtain ⟨l, c, heq⟩ : ∃ l c, s.putItem t q p i = { s.setItems t q l with cyc := c } := ⟨_, _, rfl⟩
  rw [heq]
  have hset := s.keeps_setItems l ht hq hK
  generalize s.setItems t q l = v at hset ⊢
  exact State.keeps_trans hset (v.keeps_cyc _ K)

theorem State.keeps_pip (s : State) (t src : Nat) (K : WordSet) : s.keeps (s.pip t src) K := State.keeps_of_regs (s.regs_pip t src) (s.bank_pip t src) K

theorem State.levelCheck_spec {t q : Nat} (n : Nat) (ht : t < 8) (hq : q < 256) {K : WordSet} (hK : ∀ off, 0x10 ≤ off → K t 0x15 off) :
    s.keeps (s.levelCheck t q n) K ∧ (s.levelCheck t q n).que = s.que ∧ (s.levelCheck t q n).led = s.led := by
  have hlvl : (QUE_LVL_STATUS (q / 32)).ok :=
    ⟨Nat.zero_le _, show 31 < 32 by decide, show 0x15 < 128 by decide, show 0x20 + 0x4 * (q / 32) < 2 ^ 30 by omega⟩
  unfold State.levelCheck
  dsimp only
  split
  · refine ⟨State.keeps_trans (s.keeps_setBits _ ht hlvl (hK _ ?_)) (State.keeps_pip _ _ _ _), ?_, ?_⟩
    · show 0x10 ≤ 0x20 + _
      omega
    · rw [State.que_pip]; rfl
    · rw [State.led_pip]; rfl
  · exact ⟨State.keeps_of_regs rfl rfl _, rfl, rfl⟩

/-- A commit that is taken: the ledger stays, the free cells go down, and the item enters the queue. -/
theorem State.commit_taken_spec {q p : Nat} {i : QItem} (hq : q < 256) (hcalm : s.calmQueue 0 q)
    (hquota : s.qCells 0 q + i.cells ≤ s.began.rd 0 (QUE_Q_CFG_QUOTA q)) (hfree : i.cells ≤ s.rd 0 QUE_POOL_FREE) :
    (s.commit 0 q p i).1 = true ∧ (s.commit 0 q p i).2.led = s.led ∧ (s.commit 0 q p i).2.rd 0 QUE_POOL_FREE = s.rd 0 QUE_POOL_FREE - i.cells ∧
    ∃ n, (s.qItems 0 q).length - (s.qCame 0 q).length ≤ n ∧
      (s.commit 0 q p i).2.qItems 0 q = (s.qItems 0 q).take n ++ i :: (s.qItems 0 q).drop n := by
  let K : WordSet := fun tile blk off => tile = 0 ∧ blk = 0x15 ∧ 0x10 ≤ off
  have hK : ∀ off, 0x10 ≤ off → K 0 0x15 off := fun _ h => ⟨rfl, rfl, h⟩
  have hout : ¬ K 0 QUE_POOL_FREE.blk QUE_POOL_FREE.off := by rintro ⟨-, -, h⟩; exact absurd h (by decide)
  have hcells := State.rd_takeCells (s := s) (t := 0) (by decide) hfree
  have hitems : (s.takeCells 0 i.cells).qItems 0 q = s.qItems 0 q := rfl
  have hcame : (s.takeCells 0 i.cells).qCame 0 q = s.qCame 0 q := rfl
  have hled : (s.takeCells 0 i.cells).led = s.led := rfl
  rw [State.commit_taken hcalm hquota hfree]
  generalize s.takeCells 0 i.cells = v at hcells hitems hcame hled ⊢
  have hput := v.keeps_putItem p i (by decide) hq hK
  obtain ⟨n, hn, hqput⟩ := State.qItems_putItem (s := v) 0 q p i
  have hledput : (v.putItem 0 q p i).led = v.led := rfl
  generalize v.putItem 0 q p i = w at hput hqput hledput ⊢
  have hpushed : (QUE_Q_PUSHED q).ok := queFld_ok hq (by decide) (by decide) (by decide)
  have hadd : w.keeps (w.addWrap 0 (QUE_Q_PUSHED q) 1) K :=
    w.keeps_wr _ (by decide) hpushed ⟨rfl, rfl, show 0x10 ≤ 0x1010 + 0x20 * q by omega⟩
  obtain ⟨hlevel, hquel, hledl⟩ := (w.addWrap 0 (QUE_Q_PUSHED q) 1).levelCheck_spec ((s.qItems 0 q).length + 1) (by decide) hq hK
  refine ⟨rfl, (hledl.trans hledput).trans hled, ?free, n, by rwa [hitems, hcame] at hn, ?items⟩
  case free => exact (State.rd_of_keeps (State.keeps_trans (State.keeps_trans hput hadd) hlevel) (by decide) QUE_POOL_FREE_ok hout).trans hcells
  case items =>
    rw [State.qItems, hquel, State.que_addWrap, ← hitems]
    exact hqput

theorem State.exec_blindRecordSend (hlive : s.live) : exec .blindRecordSend s = .next (s.after s.blindSend) := finish_live hlive

theorem State.blindSend_taken {i : QItem} {l : List QItem} (hheld : s.led.held = i :: l) {v : State}
    (h : s.commit 0 (s.rd 0 BND_BLIND_CTRL_QUEUE) 2 i = (true, v)) : s.blindSend = { v with led := { v.led with held := l } } := by
  simp only [State.blindSend, hheld, h]
  rfl

theorem State.blindSend_refused {i : QItem} {l : List QItem} (hheld : s.led.held = i :: l) {v : State}
    (h : s.commit 0 (s.rd 0 BND_BLIND_CTRL_QUEUE) 2 i = (false, v)) : s.blindSend = v := by
  simp only [State.blindSend, hheld, h]
  rfl

/-- Settles O19: `tokenArrive` by the token's band, and `blindSend` by what `commit` answers. -/
theorem blindTokensAndRecords : Obligations.BlindTokensAndRecords := by
  intro s hlive
  refine ⟨fun k l hk hopen => ?_, fun k l b hk hlate hb hg => ?_, fun i l hheld => ?_⟩
  · rw [State.exec_blindTokenArrival hlive, State.tokenArrive_open hk hopen]
    rfl
  · obtain ⟨hrep, hjob, honly⟩ := State.lateLength_spec (s := { s with led := { s.led with inFlight := l } }) hb hg
    refine ⟨_, State.exec_blindTokenArrival hlive, ?_⟩
    rw [State.tokenArrive_late hk hlate]
    exact ⟨rfl, hrep, hjob, honly.2⟩
  · intro q cells hcalm
    have hq : q < 256 := s.rd_lt 0 BND_BLIND_CTRL_QUEUE
    refine ⟨fun hquota hfree => ?_, fun hquota => ?_⟩
    · obtain ⟨htaken, hled, hcells, hitems⟩ := State.commit_taken_spec (p := 2) hq hcalm hquota hfree
      refine ⟨_, State.exec_blindRecordSend hlive, ?_⟩
      rw [State.blindSend_taken hheld (Prod.ext htaken rfl)]
      exact ⟨rfl, hcells, hitems⟩
    · refine ⟨_, State.exec_blindRecordSend hlive, ?_⟩
      rw [State.blindSend_refused hheld (State.commit_refused hcalm hquota)]
      exact ⟨rfl, rfl, (s.addSat 0 (QUE_Q_REFUSED q) 1).rd_setF 0 QUE_ERR_REFUSED QUE_ERR_REFUSED_ok⟩

end Sys2Proof.Machine
end

section
/-! SUPPORT. The release of a band (R60): what follows its latency leaves the clock and the latency. -/

namespace Sys2Proof.Machine

variable {s u v : State}

/-- The words that a release changes after it has reported its latency: the coverage totals, and what is not the band clock's. -/
def afterLatency : WordSet := fun _ blk off => blk ≠ 2 ∨ 0x100 ≤ off

/-- The clock's state stays, and so does every register word outside `afterLatency`. -/
def State.sparesLatency (s u : State) : Prop := u.clk = s.clk ∧ s.keeps u afterLatency

theorem State.sparesLatency_trans (h : s.sparesLatency u) (h' : u.sparesLatency v) : s.sparesLatency v :=
  ⟨h'.1.trans h.1, State.keeps_trans h.2 h'.2⟩

theorem State.sparesLatency_of_regs (hc : u.clk = s.clk) (hr : u.regs = s.regs) (hb : u.bank = s.bank) : s.sparesLatency u :=
  ⟨hc, State.keeps_of_regs hr hb _⟩

theorem State.sparesLatency_refl (s : State) : s.sparesLatency s := State.sparesLatency_of_regs rfl rfl rfl

theorem State.sparesLatency_of_onlyRegs {K : WordSet} (h : s.onlyRegs u K) (hK : ∀ t k o, K t k o → afterLatency t k o) : s.sparesLatency u :=
  ⟨by rw [h.1], State.keeps_mono (State.keeps_of_onlyRegs h) hK⟩

/-- A write of a pair among the coverage totals. -/
theorem State.onlyRegs_wr64_cov (s : State) {f : Fld} (n : Nat) (hf : f.pairOk) (hoff : 0x100 ≤ f.off) : s.onlyRegs (s.wr64 0 f n) afterLatency :=
  State.onlyRegs_mono (s.onlyRegs_wr64 n (by decide) hf) fun _ _ _ ⟨_, _, ho⟩ => .inr (by omega)

/-- The totals of the job that ends become those of the one before (R70). -/
theorem State.onlyRegs_moveTotals (s : State) : s.onlyRegs ((List.range 8).foldl (fun s g =>
    (s.wr64 0 (BND_COV_PREVJOB_LO g) (s.rd64 0 (BND_COV_JOB_LO g))).wr64 0 (BND_COV_JOB_LO g) 0) s) afterLatency := by
  refine State.onlyRegs_foldl (fun s g hg => ?_) s
  have hg8 : g < 8 := List.mem_range.1 hg
  refine State.onlyRegs_trans (s.onlyRegs_wr64_cov _ ⟨show 2 < 128 by decide, ?_⟩ ?_) (State.onlyRegs_wr64_cov _ 0 ⟨show 2 < 128 by decide, ?_⟩ ?_)
  · show 0x110 + 0x20 * g + 4 < 2 ^ 30
    omega
  · show 0x100 ≤ 0x110 + 0x20 * g
    omega
  · show 0x108 + 0x20 * g + 4 < 2 ^ 30
    omega
  · show 0x100 ≤ 0x108 + 0x20 * g
    omega

theorem State.sparesLatency_led (s : State) (l : Ledger) : s.sparesLatency { s with led := l } := State.sparesLatency_of_regs rfl rfl rfl

theorem State.sparesLatency_pip (s : State) (t src : Nat) : s.sparesLatency (s.pip t src) :=
  State.sparesLatency_of_regs (s.clk_pip t src) (s.regs_pip t src) (s.bank_pip t src)

theorem State.sparesLatency_moveJob (s : State) : s.sparesLatency s.moveJob := by
  have hlen := State.onlyRegs_wr64_cov (f := BND_COV_JOB_LEN_LO) ((List.range 8).foldl (fun s g =>
    (s.wr64 0 (BND_COV_PREVJOB_LO g) (s.rd64 0 (BND_COV_JOB_LO g))).wr64 0 (BND_COV_JOB_LO g) 0) s) 0 (by unfold Fld.pairOk; decide) (by decide)
  have hregs := State.sparesLatency_of_onlyRegs (State.onlyRegs_trans s.onlyRegs_moveTotals hlen) fun _ _ _ h => h
  exact State.sparesLatency_trans (State.sparesLatency_trans hregs (State.sparesLatency_pip _ 0 3)) (State.sparesLatency_led _ _)

theorem State.sparesLatency_freeBank (s : State) : s.sparesLatency s.freeBank := by
  have hretiring : s.sparesLatency { s with retiring := none } := State.sparesLatency_of_regs rfl rfl rfl
  unfold State.freeBank
  generalize ({ s with retiring := none } : State) = u at hretiring ⊢
  have hshadow : u.sparesLatency (u.setShadow 0) :=
    State.sparesLatency_of_onlyRegs (u.onlyRegs_wr 0 (by decide) CFG_STATUS_SHADOW_ok (K := CFG_STATUS_SHADOW.wordAt 0) ⟨rfl, rfl, rfl⟩)
      fun _ _ _ ⟨_, hblk, _⟩ => .inl (hblk ▸ by decide)
  generalize u.setShadow 0 = v at hshadow ⊢
  have hrings : v.sparesLatency v.freeShadowRings := State.sparesLatency_of_regs rfl rfl rfl
  exact State.sparesLatency_trans (State.sparesLatency_trans (State.sparesLatency_trans hretiring hshadow) hrings) (State.sparesLatency_moveJob _)

theorem State.sparesLatency_retire (s : State) (n : Nat) : s.sparesLatency (s.retire n) := by
  unfold State.retire
  split
  · split
    · exact s.sparesLatency_freeBank
    · exact s.sparesLatency_refl
  · exact s.sparesLatency_refl

theorem State.sparesLatency_stitchPrune (s : State) (n : Nat) : s.sparesLatency (s.stitchPrune n) := by
  unfold State.stitchPrune
  split
  · exact s.sparesLatency_refl
  · split
    · exact s.sparesLatency_refl
    · exact State.sparesLatency_of_regs rfl rfl rfl

theorem State.sparesLatency_readyUpdate (s : State) : s.sparesLatency s.readyUpdate :=
  State.sparesLatency_of_onlyRegs s.onlyRegs_readyUpdate fun _ _ _ ⟨_, hblk, _⟩ => .inl (hblk ▸ by decide)

theorem BND_LATENCY_NS_ok : BND_LATENCY_NS.ok := by unfold Fld.ok; decide

/-- The next band to be released is band `n`. -/
def State.setNextRelease (s : State) (n : Nat) : State := { s with clk := { s.clk with nextRelease := n } }

theorem State.rd_setNextRelease (s : State) (n t : Nat) (f : Fld) : (s.setNextRelease n).rd t f = s.rd t f := rfl

theorem State.nextRelease_setNextRelease (s : State) (n : Nat) : (s.setNextRelease n).clk.nextRelease = n := rfl

/-- A release reports its latency and moves on to the next band; before that comes what the band leaves, after it what the band frees. -/
theorem State.releaseBand_eq (s : State) (b : Band) : ∃ v : State, s.releaseBand b =
    (((((v.wr 0 BND_LATENCY_NS (Nat.min (s.tim.tb0 - b.tb0) 0xFFFFFFFF)).setNextRelease (b.n + 1)).retire b.n).stitchPrune (b.n + 1))).readyUpdate :=
  ⟨_, rfl⟩

/-- What a release leaves in the clock and in the latency. -/
theorem State.releaseBand_spec (s : State) (b : Band) :
    (s.releaseBand b).clk.nextRelease = b.n + 1 ∧ (s.releaseBand b).rd 0 BND_LATENCY_NS = min (s.tim.tb0 - b.tb0) 0xFFFFFFFF := by
  obtain ⟨v, heq⟩ := s.releaseBand_eq b
  obtain ⟨hclk, hkeeps⟩ := State.sparesLatency_trans (State.sparesLatency_trans (State.sparesLatency_retire _ b.n)
    (State.sparesLatency_stitchPrune _ (b.n + 1))) (State.sparesLatency_readyUpdate _)
  rw [heq, hclk, State.rd_of_keeps hkeeps (by decide) BND_LATENCY_NS_ok (by unfold afterLatency; decide), State.rd_setNextRelease,
    State.rd_wr _ _ _ _ BND_LATENCY_NS_ok]
  exact ⟨State.nextRelease_setNextRelease _ _, Nat.mod_eq_of_lt (lt_of_le_of_lt (Nat.min_le_right _ _) (show 0xFFFFFFFF < 2 ^ 32 by decide))⟩

/-- The band that is due is the next one, and its release tick has come (R60). -/
theorem State.releaseDue_spec {b : Band} (h : s.releaseDue = some b) : b.n = s.clk.nextRelease ∧ s.releaseTick b.n ≤ s.bandIndex := by
  unfold State.releaseDue at h
  split at h
  case h_1 c hband =>
    split at h
    case isTrue hdue =>
      obtain rfl : c = b := Option.some.inj h
      have hn : (c.n == s.clk.nextRelease) = true := List.find?_some (p := fun b : Band => b.n == s.clk.nextRelease) hband
      exact ⟨eq_of_beq hn, of_decide_eq_true (Bool.and_eq_true_iff.1 hdue).2⟩
    case isFalse => cases h
  case h_2 => cases h

theorem State.exec_release_due {b : Band} (hlive : s.live) (h : s.releaseDue = some b) : exec .release s = .next (s.after (s.releaseBand b)) := by
  have hrelease : s.release = s.releaseBand b := by unfold State.release; rw [h]
  rw [← hrelease]
  exact finish_live hlive

/-- Settles O18: the band that `releaseDue` finds, and what follows its latency spares it. -/
theorem releaseTakesOldestBand : Obligations.ReleaseTakesOldestBand := by
  intro s b hlive hdue
  obtain ⟨hn, htick⟩ := State.releaseDue_spec hdue
  obtain ⟨hnext, hns⟩ := s.releaseBand_spec b
  exact ⟨hn, htick, _, State.exec_release_due hlive hdue, hnext.trans (by rw [hn]), hns⟩

end Sys2Proof.Machine
end

section
/-! SUPPORT. The start of the clock (R47, R53, R72): what the other blocks do at a 0-to-1 transition of RUN leaves the clock and its registers. -/

namespace Sys2Proof.Machine

variable {s u v : State}

/-- The clock's state stays, and so do the register words of the first three blocks of tile 0 that are no structure registers: BND is the third. -/
def State.sparesClock (s u : State) : Prop := u.clk = s.clk ∧ ∀ (d : BitVec 32) (k : Nat), k < 3 * 2 ^ 30 → smGet d k u.regs = smGet d k s.regs

theorem State.sparesClock_refl (s : State) : s.sparesClock s := ⟨rfl, fun _ _ _ => rfl⟩

theorem State.sparesClock.trans (h : s.sparesClock u) (h' : u.sparesClock v) : s.sparesClock v :=
  ⟨h'.1.trans h.1, fun d k hk => (h'.2 d k hk).trans (h.2 d k hk)⟩

theorem State.sparesClock.of_regs (h : s.sparesClock u) (hc : v.clk = u.clk) (hr : v.regs = u.regs) : s.sparesClock v :=
  h.trans ⟨hc, fun _ _ _ => by rw [hr]⟩

/-- A word of the clock's registers. -/
theorem State.sparesClock.word_eq (h : s.sparesClock u) {off : Nat} (ho : off < 2 ^ 30) (hst : isStructured 2 off = false) : u.word 0 2 off = s.word 0 2 off := by
  have hkey : ∀ b, regKey b 0 2 off = 2 * 2 ^ 30 + off := fun b => by simp [regKey, addrOf, hst]
  have hlow : 2 * 2 ^ 30 + off < 3 * 2 ^ 30 := by omega
  rw [State.word, State.word, State.wordB, State.wordB, hkey, hkey, h.2 _ _ hlow]

theorem State.sparesClock.rd_eq (h : s.sparesClock u) {off hi lo : Nat} (ho : off < 2 ^ 30) (hst : isStructured 2 off = false) :
    u.rd 0 ⟨2, off, hi, lo⟩ = s.rd 0 ⟨2, off, hi, lo⟩ := congrArg (bitsOf · hi lo) (h.word_eq ho hst)

theorem State.sparesClock.rd64_eq (h : s.sparesClock u) {off hi lo : Nat} (ho : off + 4 < 2 ^ 30) (hst : isStructured 2 off = false)
    (hst' : isStructured 2 (off + 4) = false) : u.rd64 0 ⟨2, off, hi, lo⟩ = s.rd64 0 ⟨2, off, hi, lo⟩ := by
  show u.word 0 2 off + 2 ^ 32 * u.word 0 2 (off + 4) = s.word 0 2 off + 2 ^ 32 * s.word 0 2 (off + 4)
  rw [h.word_eq (by omega) hst, h.word_eq ho hst']

/-! Each operation of the state, behind others that spare the clock. -/

theorem State.sparesClock.setWordB (h : s.sparesClock u) {b t blk off w : Nat} (hb : 3 ≤ blk) : s.sparesClock (u.setWordB b t blk off w) := by
  refine h.trans ⟨rfl, fun d k hk => smGet_set_ne _ _ _ _ ?_⟩
  have hkey : 3 * 2 ^ 30 ≤ addrOf t blk off := by unfold addrOf; omega
  unfold regKey
  omega

theorem State.sparesClock.setWord (h : s.sparesClock u) {t blk off w : Nat} (hb : 3 ≤ blk) : s.sparesClock (u.setWord t blk off w) := h.setWordB hb

theorem State.sparesClock.wr (h : s.sparesClock u) {t : Nat} {f : Fld} {w : Nat} (hb : 3 ≤ f.blk := by exact Nat.le_of_ble_eq_true rfl) :
    s.sparesClock (u.wr t f w) := h.setWordB hb

theorem State.sparesClock.wrS (h : s.sparesClock u) {t : Nat} {f : Fld} {w : Int} (hb : 3 ≤ f.blk := by exact Nat.le_of_ble_eq_true rfl) :
    s.sparesClock (u.wrS t f w) := h.wr hb

theorem State.sparesClock.clrF (h : s.sparesClock u) {t : Nat} {f : Fld} (hb : 3 ≤ f.blk := by exact Nat.le_of_ble_eq_true rfl) :
    s.sparesClock (u.clrF t f) := h.wr hb

theorem State.sparesClock.setF (h : s.sparesClock u) {t : Nat} {f : Fld} (hb : 3 ≤ f.blk := by exact Nat.le_of_ble_eq_true rfl) :
    s.sparesClock (u.setF t f) := (h.wr (w := 2 ^ (f.hi + 1 - f.lo) - 1) hb).of_regs rfl rfl

theorem State.sparesClock.addSat (h : s.sparesClock u) {t n : Nat} {f : Fld} (hb : 3 ≤ f.blk := by exact Nat.le_of_ble_eq_true rfl) :
    s.sparesClock (u.addSat t f n) := h.wr hb

theorem State.sparesClock.wr64 (h : s.sparesClock u) {t : Nat} {f : Fld} {w : Nat} (hb : 3 ≤ f.blk := by exact Nat.le_of_ble_eq_true rfl) :
    s.sparesClock (u.wr64 t f w) := (h.setWord hb).setWord hb

theorem State.sparesClock.ite {c : Prop} [Decidable c] (h : s.sparesClock u) (h' : s.sparesClock v) : s.sparesClock (if c then u else v) := by
  split
  · exact h
  · exact h'

theorem State.sparesClock.setIf (h : s.sparesClock u) {c : Bool} {t : Nat} {f : Fld} (hb : 3 ≤ f.blk := by exact Nat.le_of_ble_eq_true rfl) :
    s.sparesClock (u.setIf c t f) := (h.setF hb).ite h

theorem State.sparesClock.foldl {α : Type} {f : State → α → State} (h : s.sparesClock u) (l : List α) (hf : ∀ w x, s.sparesClock w → s.sparesClock (f w x)) :
    s.sparesClock (l.foldl f u) := by
  induction l generalizing u with
  | nil => exact h
  | cons x l ih => exact ih (hf u x h)

theorem State.sparesClock.eachTile {f : Nat → State → State} (h : s.sparesClock u) (hf : ∀ w t, s.sparesClock w → s.sparesClock (f t w)) :
    s.sparesClock (u.eachTile f) := h.foldl u.tiles hf

theorem State.sparesClock.pip (h : s.sparesClock u) {t src : Nat} : s.sparesClock (u.pip t src) := h.of_regs (u.clk_pip t src) (u.regs_pip t src)

theorem State.sparesClock.notify (h : s.sparesClock u) {code a0 a1 a2 a3 : Nat} : s.sparesClock (u.notify code a0 a1 a2 a3) := by
  have hlost : s.sparesClock (u.addSat 0 CHN_NOTIFY_LOST 1) := h.addSat
  unfold State.notify
  split
  · exact h.of_regs rfl rfl
  · exact hlost.of_regs rfl rfl

theorem State.sparesClock.updSub (h : s.sparesClock u) {sub : Nat} {f : SubState → SubState} : s.sparesClock (u.updSub sub f) := h.of_regs rfl rfl
theorem State.sparesClock.updPort (h : s.sparesClock u) {t p : Nat} {f : PortState → PortState} : s.sparesClock (u.updPort t p f) := h.of_regs rfl rfl
theorem State.sparesClock.updRef (h : s.sparesClock u) {f : RefState → RefState} : s.sparesClock (u.updRef f) := h.of_regs rfl rfl
theorem State.sparesClock.updSgm (h : s.sparesClock u) {f : Seg → Seg} : s.sparesClock (u.updSgm f) := h.of_regs rfl rfl
theorem State.sparesClock.updPos (h : s.sparesClock u) {f : Pos → Pos} : s.sparesClock (u.updPos f) := h.of_regs rfl rfl
theorem State.sparesClock.updCal (h : s.sparesClock u) {t : Nat} {f : CalTile → CalTile} : s.sparesClock (u.updCal t f) := h.of_regs rfl rfl
theorem State.sparesClock.setFreeCtr (h : s.sparesClock u) {n : Nat} : s.sparesClock { u with freeCtr := n } := h.of_regs rfl rfl
theorem State.sparesClock.setCyc (h : s.sparesClock u) {c : Cycle} : s.sparesClock { u with cyc := c } := h.of_regs rfl rfl
theorem State.sparesClock.setQue (h : s.sparesClock u) {q : Queues} : s.sparesClock { u with que := q } := h.of_regs rfl rfl

/-! The line path, stitching and engines (R101, R114, R170, R171, R270). -/

theorem State.sparesClock.fadeEnd (h : s.sparesClock u) {t p k : Nat} {next : Option Nat} : s.sparesClock (u.fadeEnd t p k next) := by
  have hended : ∀ f, s.sparesClock ((((u.updSub (t * 8 + p * 4 + k) f).wr t (COR_PORT_SUB_GAIN_CTRL_ACTIVE p k)
      (1 - u.rd t (COR_PORT_SUB_GAIN_CTRL_ACTIVE p k))).clrF t (COR_PORT_SUB_GAIN_CTRL_FADING p k)).clrF t (COR_PORT_SUB_GAIN_CTRL_FADE_POS p k)) :=
    fun f => h.updSub.wr.clrF.clrF
  cases next with
  | none => exact hended _
  | some l => exact (hended _).updSub.ite (hended _)

theorem State.sparesClock.fadeRun (h : s.sparesClock u) {t p k : Nat} : s.sparesClock (u.fadeRun t p k) := by
  have hfaded : ∀ f, s.sparesClock ((if (u.sub (t * 8 + p * 4 + k)).fade.isSome then u.fadeEnd t p k none else u).updSub (t * 8 + p * 4 + k) f) :=
    fun f => (h.fadeEnd.ite h).updSub
  exact (hfaded _).setF.clrF.ite (hfaded _)

theorem State.sparesClock.pathRun (h : s.sparesClock u) {t : Nat} : s.sparesClock (u.pathRun t) := by
  refine h.foldl _ fun w p hw => hw.updPort.foldl _ fun x k hx => ?_
  exact State.sparesClock.wr (State.sparesClock.updSub (hx.fadeRun.wr64.ite hx.fadeRun))

theorem State.sparesClock.runClean (h : s.sparesClock u) : s.sparesClock u.runClean := h.of_regs rfl rfl

theorem State.sparesClock.stitchRun (h : s.sparesClock u) : s.sparesClock u.stitchRun := h.of_regs rfl rfl

theorem State.sparesClock.stiCheck (h : s.sparesClock u) {b : Nat} : s.sparesClock (u.stiCheck b) :=
  h.foldl _ fun _ _ hw => (hw.eachTile fun _ _ hx => hx.setIf.setIf.ite hx).setIf

theorem State.sparesClock.engCheck (h : s.sparesClock u) {b : Nat} : s.sparesClock (u.engCheck b) := h.eachTile fun _ _ hw => hw.setIf

theorem State.sparesClock.engRunStart (h : s.sparesClock u) : s.sparesClock u.engRunStart := h.of_regs rfl rfl

/-! Registration and segmentation (R173, R186, R222). -/

theorem State.sparesClock.refCheck (h : s.sparesClock u) {b : Nat} : s.sparesClock (u.refCheck b) :=
  h.foldl _ fun _ _ hw => (hw.setIf.foldl _ fun _ _ hx => hx.setF).ite hw

theorem State.sparesClock.setSol (h : s.sparesClock u) {g : Nat} {x : Sol} : s.sparesClock (u.setSol g x) :=
  h.eachTile fun _ _ hw => hw.wrS.wrS.wrS.wrS.foldl _ fun _ _ hx => hx.wr

theorem State.sparesClock.solStart (h : s.sparesClock u) {g : Nat} : s.sparesClock (u.solStart g) :=
  (h.eachTile fun _ _ hw => hw.clrF.wr.clrF.clrF.ite hw.clrF).setSol

theorem State.sparesClock.refRun (h : s.sparesClock u) : s.sparesClock u.refRun :=
  h.updRef.refCheck.foldl _ fun _ _ hw => hw.solStart

theorem State.sparesClock.segRun (h : s.sparesClock u) : s.sparesClock u.segRun :=
  h.updSgm.eachTile fun _ _ hw => hw.foldl _ fun _ _ hx => hx.clrF.clrF

/-! Position and the filters (R299, R305, R409). -/

theorem State.sparesClock.posStatus (h : s.sparesClock u) : s.sparesClock u.posStatus := h.wr.wr.wr.wr

theorem State.sparesClock.posRunStart (h : s.sparesClock u) : s.sparesClock u.posRunStart :=
  State.sparesClock.posStatus (h.updPos.setIf.wr64)

theorem State.sparesClock.firRun (h : s.sparesClock u) : s.sparesClock u.firRun :=
  h.eachTile fun _ _ hw => hw.foldl _ fun _ _ hx => hx.setF

/-! A self-test that RUN aborts (R433). -/

theorem State.sparesClock.freeBytes (h : s.sparesClock u) {a n : Nat} : s.sparesClock (u.freeBytes a n) :=
  h.of_regs (State.clk_setBytes _ _ _) (State.regs_setBytes _ _ _)

theorem State.sparesClock.setItems (h : s.sparesClock u) {t q : Nat} {l : List QItem} : s.sparesClock (u.setItems t q l) := h.setQue.wr.wr

theorem State.sparesClock.emptyQueue (h : s.sparesClock u) {t q : Nat} : s.sparesClock (u.emptyQueue t q).2 := h.setCyc.setItems.wr

theorem State.sparesClock.resetQueues (h : s.sparesClock u) {t : Nat} : s.sparesClock (u.resetQueues t) :=
  State.sparesClock.setQue (h.foldl _ fun _ _ hw => hw.ite hw.emptyQueue)

theorem State.sparesClock.ringsUndefined (h : s.sparesClock u) {t : Nat} : s.sparesClock (u.ringsUndefined t) :=
  h.foldl _ fun _ _ hw => hw.setFreeCtr.updRef

theorem State.sparesClock.stFinish (h : s.sparesClock u) {t fails : Nat} {fail aborted : Bool} {a : Option Nat} :
    s.sparesClock (u.stFinish t fails fail aborted a) := by
  cases a with
  | none => exact (h.updCal.clrF.setF.wr.wr.wr.setIf).pip.notify
  | some a => exact (h.updCal.clrF.setF.wr.wr.wr.wr64.setIf).pip.notify

theorem State.sparesClock.stAbort (h : s.sparesClock u) {t : Nat} : s.sparesClock (u.stAbort t) := by
  unfold State.stAbort
  split
  case h_1 r _ =>
    have hspans : s.sparesClock ((testSpans t r.kind r.mask).foldl (fun s (a, n) => s.freeBytes a n) u) := h.foldl _ fun _ _ hw => hw.freeBytes
    have hrings := (hspans.ringsUndefined (t := t)).ite (c := (decide (r.kind = 0) && r.mask.testBit 2) = true) hspans
    exact (hrings.resetQueues.ite hrings).stFinish.ite h
  case h_2 => exact h

theorem State.sparesClock.calRunStart (h : s.sparesClock u) : s.sparesClock u.calRunStart := h.eachTile fun _ _ hw => hw.stAbort

/-- What the other blocks do as RUN is set spares the clock. -/
theorem State.sparesClock_hookRunStart (s : State) : s.sparesClock s.hookRunStart := by
  have hpath : s.sparesClock (s.eachTile fun t s => s.pathRun t).runClean := (s.sparesClock_refl.eachTile fun _ _ hw => hw.pathRun).runClean
  have hcheck := (hpath.stitchRun.stiCheck (b := (s.eachTile fun t s => s.pathRun t).runClean.bank)).engCheck (b := (s.eachTile fun t s => s.pathRun t).runClean.bank)
  exact hcheck.refRun.segRun.engRunStart.posRunStart.firRun.calRunStart

end Sys2Proof.Machine
end

section
/-! SUPPORT. RUN (R47, R53, R56, R61, R72): its five fields, what starts at 0, and what a stop clears. -/

namespace Sys2Proof.Machine

variable {s u v : State}

/-! Flags and words of the clock's registers. -/

theorem bndFld_ok {off hi lo : Nat} (ho : off < 2 ^ 30) (hhi : hi < 32) (h : lo ≤ hi) : Fld.ok ⟨2, off, hi, lo⟩ := ⟨h, hhi, show 2 < 128 by decide, ho⟩

/-- A flag of the clock after one of its flags is set. -/
theorem State.rd_setF_flag (s : State) {off off' j k : Nat} (ho : off < 2 ^ 30) (ho' : off' < 2 ^ 30) (hj : j < 32) (hk : k < 32) :
    (s.setF 0 ⟨2, off, j, j⟩).rd 0 ⟨2, off', k, k⟩ = if off = off' ∧ j = k then 1 else s.rd 0 ⟨2, off', k, k⟩ := by
  have hf := bndFld_ok ho' hk (le_refl k)
  have hg := bndFld_ok ho hj (le_refl j)
  split
  case isTrue h =>
    obtain ⟨rfl, rfl⟩ := h
    rw [State.rd_setF _ _ _ hf, Nat.add_sub_cancel_left]
    rfl
  case isFalse h =>
    refine s.rd_setF_ne (by decide) (by decide) hf hg (.inr ?_)
    simp only [Fld.apart]
    omega

/-- A flag of the clock after one of its flags is cleared. -/
theorem State.rd_clrF_flag (s : State) {off off' j k : Nat} (ho : off < 2 ^ 30) (ho' : off' < 2 ^ 30) (hj : j < 32) (hk : k < 32) :
    (s.clrF 0 ⟨2, off, j, j⟩).rd 0 ⟨2, off', k, k⟩ = if off = off' ∧ j = k then 0 else s.rd 0 ⟨2, off', k, k⟩ := by
  have hf := bndFld_ok ho' hk (le_refl k)
  have hg := bndFld_ok ho hj (le_refl j)
  split
  case isTrue h =>
    obtain ⟨rfl, rfl⟩ := h
    exact s.rd_clrF _ _ hf
  case isFalse h =>
    refine s.rd_clrF_ne (by decide) (by decide) hf hg (.inr ?_)
    simp only [Fld.apart]
    omega

/-- The state with another state of the clock. -/
def State.withClock (s : State) (c : Clock) : State := { s with clk := c }

theorem State.rd_withClock (s : State) (c : Clock) (t : Nat) (f : Fld) : (s.withClock c).rd t f = s.rd t f := rfl
theorem State.rd64_withClock (s : State) (c : Clock) (t : Nat) (f : Fld) : (s.withClock c).rd64 t f = s.rd64 t f := rfl

/-- READY is low where RUN is 0 (R468). -/
theorem State.readyConds_of_notRunning (h : s.rd 0 BND_CTRL_RUN = 0) : false ∈ s.readyConds := by
  have : s.inspecting = false := by simp [State.inspecting, State.is, h]
  simp [State.readyConds, this]

/-- A field of the clock does not follow READY. -/
theorem State.rd_readyUpdate_bnd (s : State) {f : Fld} (hf : f.ok) (hblk : f.blk = 2) : s.readyUpdate.rd 0 f = s.rd 0 f :=
  State.rd_of_onlyRegs s.onlyRegs_readyUpdate (by decide) hf fun h => absurd (hblk.symm.trans h.2.1) (by decide)

/-! RUN goes to 0 while the clock waits (R56, R61). -/

/-- The flags that a stop clears: HOLDING too, unless a held tick is released in the same cycle. -/
def State.clearedRun (s : State) : State :=
  let u := (s.clrF 0 BND_CTRL_RUN).clrF 0 BND_STATUS_RUNNING
  (if u.pending.contains .heldTickRelease then u else u.clrF 0 BND_STATUS_HOLDING).clrF 0 BND_STATUS_WAITING

theorem State.clearedRun_spec (s : State) : s.clearedRun.rd 0 BND_CTRL_RUN = 0 ∧ s.clearedRun.rd 0 BND_STATUS_RUNNING = 0 ∧
    s.clearedRun.rd 0 BND_STATUS_WAITING = 0 ∧ s.clearedRun.rd 0 BND_STATUS_DRAINING = s.rd 0 BND_STATUS_DRAINING ∧
    (.heldTickRelease ∉ s.pending → s.clearedRun.rd 0 BND_STATUS_HOLDING = 0) ∧ s.clearedRun.clk = s.clk ∧ s.clearedRun.mem = s.mem := by
  unfold State.clearedRun
  by_cases h : Instr.heldTickRelease ∈ s.pending
  · simp [h, BND_CTRL_RUN, BND_STATUS_RUNNING, BND_STATUS_WAITING, BND_STATUS_DRAINING, State.rd_clrF_flag]
  · simp [h, BND_CTRL_RUN, BND_STATUS_RUNNING, BND_STATUS_WAITING, BND_STATUS_DRAINING, BND_STATUS_HOLDING, State.rd_clrF_flag]

theorem State.sparesClock_hookRunStop (s : State) : s.sparesClock s.hookRunStop := by
  have hgap : s.sparesClock (s.clrF 0 CAL_GAP_CTRL_ARMED) := s.sparesClock_refl.clrF
  unfold State.hookRunStop
  dsimp only
  generalize s.clrF 0 CAL_GAP_CTRL_ARMED = u at hgap ⊢
  have hdisarmed : s.sparesClock ((u.wr 0 CFG_STATUS_SHADOW 3).setF 0 CFG_ERR_DISARMED) := hgap.wr.setF
  generalize (u.wr 0 CFG_STATUS_SHADOW 3).setF 0 CFG_ERR_DISARMED = v at hdisarmed ⊢
  split
  · exact hdisarmed.of_regs rfl rfl
  · exact hgap

theorem State.mem_hookRunStop (s : State) : s.hookRunStop.mem = s.mem := by
  unfold State.hookRunStop
  dsimp only
  split
  · rfl
  · rfl

/-- A stop with no open band: the flags, the clock's record of the stop, and what follows. -/
theorem State.runStop_waiting (h : s.openBand = none) : ∃ c : Clock, c.stopping = s.clearedRun.is 0 BND_STATUS_DRAINING ∧
    s.runStop = ((s.clearedRun.withClock c).hookRunStop).readyUpdate := by
  have hopen : s.clearedRun.openBand = none := by
    rw [State.openBand, s.clearedRun_spec.2.2.2.2.2.1]
    exact h
  have hclose : s.clearedRun.closeAtStop = s.clearedRun := by simp only [State.closeAtStop, hopen]
  have heq : s.runStop = ((s.clearedRun.closeAtStop.withClock { s.clearedRun.closeAtStop.clk with
    stopping := s.clearedRun.closeAtStop.is 0 BND_STATUS_DRAINING, restart := false, stopTb0 := some s.clearedRun.closeAtStop.tim.tb0 }).hookRunStop).readyUpdate := rfl
  rw [hclose] at heq
  exact ⟨_, rfl, heq⟩

theorem State.runStop_spec (hopen : s.openBand = none) (hdrain : ¬ s.is 0 BND_STATUS_DRAINING) :
    s.runStop.rd 0 BND_CTRL_RUN = 0 ∧ s.runStop.rd 0 BND_STATUS_RUNNING = 0 ∧ s.runStop.rd 0 BND_STATUS_WAITING = 0 ∧
    (.heldTickRelease ∉ s.pending → s.runStop.rd 0 BND_STATUS_HOLDING = 0) ∧ s.runStop.rd 0 SYS_STATUS_READY = 0 ∧
    s.runStop.clk.stopping = false ∧ s.runStop.mem = s.mem := by
  obtain ⟨c, hstopping, heq⟩ := State.runStop_waiting hopen
  obtain ⟨hrun, hrunning, hwaiting, hdraining, hholding, -, hmem⟩ := s.clearedRun_spec
  have hspares := (s.clearedRun.withClock c).sparesClock_hookRunStop
  have hctrl : ∀ k, k < 32 → s.runStop.rd 0 ⟨2, 0, k, k⟩ = s.clearedRun.rd 0 ⟨2, 0, k, k⟩ := fun k hk => by
    rw [heq, State.rd_readyUpdate_bnd _ (bndFld_ok (by decide) hk le_rfl) rfl, hspares.rd_eq (by decide) rfl, State.rd_withClock]
  have hstatus : ∀ k, k < 32 → s.runStop.rd 0 ⟨2, 4, k, k⟩ = s.clearedRun.rd 0 ⟨2, 4, k, k⟩ := fun k hk => by
    rw [heq, State.rd_readyUpdate_bnd _ (bndFld_ok (by decide) hk le_rfl) rfl, hspares.rd_eq (by decide) rfl, State.rd_withClock]
  refine ⟨(hctrl 0 (by decide)).trans hrun, (hstatus 0 (by decide)).trans hrunning, (hstatus 3 (by decide)).trans hwaiting,
    fun h => (hstatus 4 (by decide)).trans (hholding h), ?ready, ?stopping, ?mem⟩
  case ready =>
    rw [heq]
    exact State.rd_readyUpdate_low _ (State.readyConds_of_notRunning ((hspares.rd_eq (by decide) rfl).trans hrun))
  case stopping =>
    have hclk : s.runStop.clk = c := by rw [heq]; exact hspares.1
    rw [hclk, hstopping, State.is, hdraining]
    exact Bool.eq_false_iff.2 hdrain
  case mem =>
    rw [heq]
    exact (State.mem_hookRunStop _).trans hmem

theorem State.runClear_running (n : Nat) (hrun : s.is 0 BND_CTRL_RUN) (hrestart : s.clk.restart = false) :
    s.runClear n = (s.setIf (s.fiveDiffer n) 0 BND_ERR_CFG_WHILE_RUN).runStop := by
  have hclk : (s.setIf (s.fiveDiffer n) 0 BND_ERR_CFG_WHILE_RUN).clk.restart = false := by rw [State.clk_setIf, hrestart]
  unfold State.runClear
  rw [if_pos hrun]
  exact if_neg (by rw [hclk]; decide)

/-! The five fields of BND_CTRL (R47). -/

/-- Within the five fields, a word is what it is. -/
theorem bitsOf_bndFive {hi lo : Nat} (w : Nat) (h : ∀ i, i < hi + 1 - lo → (0x3F7E).testBit (lo + i) = true) : bitsOf (bndFive w) hi lo = bitsOf w hi lo := by
  refine Nat.eq_of_testBit_eq fun i => ?_
  rw [bitsOf_testBit, bitsOf_testBit, bndFive, Nat.testBit_and]
  by_cases hi' : i < hi + 1 - lo
  · simp [h i hi']
  · simp [hi']

/-- RUN is none of the five fields. -/
theorem bitsOf_bndFive_run (w : Nat) : bitsOf (bndFive w) 0 0 = 0 := by
  refine Nat.eq_of_testBit_eq fun i => ?_
  rw [bitsOf_testBit, bndFive, Nat.testBit_and]
  cases i with
  | zero => simp
  | succ i => simp

theorem testBit_of_bitsOf_eq {a b hi lo i : Nat} (h : bitsOf a hi lo = bitsOf b hi lo) (hlo : lo ≤ i) (hhi : i ≤ hi) : a.testBit i = b.testBit i := by
  have := congrArg (·.testBit (i - lo)) h
  simpa [bitsOf_testBit, Nat.add_sub_cancel' hlo, show i - lo < hi + 1 - lo by omega] using this

/-- The bits of the five fields. -/
theorem testBit_fiveMask {i : Nat} (h : (0x3F7E).testBit i = true) :
    (1 ≤ i ∧ i ≤ 2) ∨ (3 ≤ i ∧ i ≤ 4) ∨ (5 ≤ i ∧ i ≤ 5) ∨ (6 ≤ i ∧ i ≤ 6) ∨ (8 ≤ i ∧ i ≤ 13) := by
  have hlt : i < 14 := by
    by_contra hge
    have : (0x3F7E).testBit i = false := Nat.testBit_lt_two_pow (lt_of_lt_of_le (show 0x3F7E < 2 ^ 14 by decide) (Nat.pow_le_pow_right (by decide) (by omega)))
    rw [this] at h
    cases h
  exact (show ∀ i < 14, (0x3F7E).testBit i = true →
    (1 ≤ i ∧ i ≤ 2) ∨ (3 ≤ i ∧ i ≤ 4) ∨ (5 ≤ i ∧ i ≤ 5) ∨ (6 ≤ i ∧ i ≤ 6) ∨ (8 ≤ i ∧ i ≤ 13) by decide) i hlt h

/-- Two words agree in the five fields. -/
def fiveAgree (a b : Nat) : Prop :=
  bitsOf a 2 1 = bitsOf b 2 1 ∧ bitsOf a 4 3 = bitsOf b 4 3 ∧ bitsOf a 5 5 = bitsOf b 5 5 ∧ bitsOf a 6 6 = bitsOf b 6 6 ∧ bitsOf a 13 8 = bitsOf b 13 8

/-- What `bndFive` keeps of a word. -/
theorem fiveAgree_bndFive (a : Nat) : fiveAgree (bndFive a) a :=
  ⟨bitsOf_bndFive a (by decide), bitsOf_bndFive a (by decide), bitsOf_bndFive a (by decide), bitsOf_bndFive a (by decide), bitsOf_bndFive a (by decide)⟩

theorem bndFive_eq_iff (a b : Nat) : bndFive a = bndFive b ↔ fiveAgree a b := by
  constructor
  · intro h
    obtain ⟨a1, a2, a3, a4, a5⟩ := fiveAgree_bndFive a
    obtain ⟨b1, b2, b3, b4, b5⟩ := fiveAgree_bndFive b
    exact ⟨by rw [← a1, h, b1], by rw [← a2, h, b2], by rw [← a3, h, b3], by rw [← a4, h, b4], by rw [← a5, h, b5]⟩
  · rintro ⟨h1, h2, h3, h4, h5⟩
    refine Nat.eq_of_testBit_eq fun i => ?_
    rw [bndFive, bndFive, Nat.testBit_and, Nat.testBit_and]
    cases hmask : (0x3F7E).testBit i with
    | false => simp
    | true =>
      have hbit : a.testBit i = b.testBit i := by
        obtain h | h | h | h | h := testBit_fiveMask hmask
        · exact testBit_of_bitsOf_eq h1 h.1 h.2
        · exact testBit_of_bitsOf_eq h2 h.1 h.2
        · exact testBit_of_bitsOf_eq h3 h.1 h.2
        · exact testBit_of_bitsOf_eq h4 h.1 h.2
        · exact testBit_of_bitsOf_eq h5 h.1 h.2
      rw [hbit]

theorem State.fiveDiffer_eq_false_iff (n : Nat) : s.fiveDiffer n = false ↔ fiveAgree n (s.word 0 2 0) := by
  rw [State.fiveDiffer, bne_eq_false_iff_eq]
  exact bndFive_eq_iff _ _

/-! A write of RUN = 1 that is refused, or that comes while RUN is 1 (R47). -/

/-- BND_CTRL takes the five fields of a write. -/
def State.takeFive (s : State) (n : Nat) : State := s.setWord 0 BND_CTRL.blk BND_CTRL.off (bndFive n)

theorem State.rd_takeFive (s : State) (n : Nat) {hi lo : Nat} (h : hi < 32) : (s.takeFive n).rd 0 ⟨2, 0, hi, lo⟩ = bitsOf (bndFive n) hi lo := by
  refine Eq.trans ?_ (bitsOf_ofNat (bndFive n) hi lo h)
  rw [BitVec.toNat_ofNat]
  exact congrArg (bitsOf · hi lo) (State.wordB_setWordB s s.bank 0 2 0 (bndFive n))

theorem State.onlyRegs_takeFive (s : State) (n : Nat) : s.onlyRegs (s.takeFive n) (BND_CTRL.wordAt 0) :=
  s.onlyRegs_setWordB _ (by decide) (by decide) (by decide) ⟨rfl, rfl, rfl⟩

theorem depthsOk_iff (w : Nat) : depthsOk w = true ↔
    bitsOf w 3 0 = 2 ∧ (∀ k, 1 ≤ k → k ≤ 7 → 2 ≤ bitsOf w (4 * k + 3) (4 * k)) ∧ bitsOf w 11 8 ≤ bitsOf w 15 12 ∧ bitsOf w 15 12 < bitsOf w 19 16 ∧
      bitsOf w 19 16 ≤ bitsOf w 23 20 ∧ bitsOf w 23 20 < bitsOf w 27 24 := by
  have hall : ([1, 2, 3, 4, 5, 6, 7].all fun k => decide (2 ≤ bitsOf w (4 * k + 3) (4 * k))) = true ↔
      ∀ k, 1 ≤ k → k ≤ 7 → 2 ≤ bitsOf w (4 * k + 3) (4 * k) := by
    rw [List.all_eq_true]
    have hmem : ∀ k, k ∈ [1, 2, 3, 4, 5, 6, 7] ↔ 1 ≤ k ∧ k ≤ 7 := fun k => by simp; omega
    exact ⟨fun h k h1 h7 => of_decide_eq_true (h k ((hmem k).2 ⟨h1, h7⟩)), fun h k hk => decide_eq_true (h k ((hmem k).1 hk).1 ((hmem k).1 hk).2)⟩
  simp only [depthsOk, Bool.and_eq_true, hall, decide_eq_true_eq, beq_iff_eq]
  tauto

/-- A write of RUN = 1 is refused (R47, R57). -/
theorem State.runRefused_iff (s : State) (n : Nat) : s.runRefused n = true ↔ (bitsOf n 2 1 = 3 ∨ 5 ≤ s.rd 0 BND_BAND_SIZE_B ∨
    ¬ (s.depth s.bank 0 = 2 ∧ (∀ k, 1 ≤ k → k ≤ 7 → 2 ≤ s.depth s.bank k) ∧ s.depth s.bank 2 ≤ s.depth s.bank 3 ∧ s.depth s.bank 3 < s.depth s.bank 4 ∧
      s.depth s.bank 4 ≤ s.depth s.bank 5 ∧ s.depth s.bank 5 < s.depth s.bank 6)) := by
  have hdepths := (depthsOk_iff (s.word 0 BND_DEPTH.blk BND_DEPTH.off)).not
  rw [Bool.not_eq_true] at hdepths
  rw [State.runRefused, Bool.or_eq_true, Bool.or_eq_true, beq_iff_eq, decide_eq_true_eq, Bool.not_eq_true', hdepths, or_assoc]
  exact Iff.rfl

/-- The fields that a refusal looks at are those before the write. -/
theorem State.runRefused_takeFive (s : State) (n : Nat) : (s.takeFive n).runRefused n = s.runRefused n := by
  have honly := s.onlyRegs_takeFive n
  have hsize : (s.takeFive n).rd 0 BND_BAND_SIZE_B = s.rd 0 BND_BAND_SIZE_B :=
    State.rd_of_onlyRegs honly (by decide) (by unfold Fld.ok; decide) fun h => absurd h.2.2 (by decide)
  have hdepth : (s.takeFive n).word 0 BND_DEPTH.blk BND_DEPTH.off = s.word 0 BND_DEPTH.blk BND_DEPTH.off :=
    honly.2 _ _ _ _ (by decide) (by decide) (by decide) fun h => absurd h.2.2 (by decide)
  rw [State.runRefused, State.runRefused, hsize, hdepth]

theorem State.runSet_refused {n : Nat} (hrun : ¬ s.is 0 BND_CTRL_RUN) (h : s.runRefused n = true) :
    s.runSet n = (s.takeFive n).setF 0 BND_ERR_CFG_INVALID := by
  rw [← s.runRefused_takeFive] at h
  rw [Bool.not_eq_true] at hrun
  simp only [State.runSet, hrun]
  exact if_pos h

theorem State.runSet_running {n : Nat} (hrun : s.is 0 BND_CTRL_RUN) (hflush : n.testBit 16 = false) :
    s.runSet n = s.setIf (s.fiveDiffer n) 0 BND_ERR_CFG_WHILE_RUN := by
  simp [State.runSet, hrun, hflush]

theorem State.runSet_starts {n : Nat} (hrun : ¬ s.is 0 BND_CTRL_RUN) (h : s.runRefused n = false) (hstop : s.clk.stopping = false) (hflush : n.testBit 16 = false) :
    s.runSet n = ((s.takeFive n).setF 0 BND_CTRL_RUN).runStart := by
  have hrefused : ¬ (s.setWord 0 BND_CTRL.blk BND_CTRL.off (bndFive n)).runRefused n = true :=
    Bool.eq_false_iff.1 ((s.runRefused_takeFive n).trans h)
  have hstopping : ¬ ((s.setWord 0 BND_CTRL.blk BND_CTRL.off (bndFive n)).setF 0 BND_CTRL_RUN).clk.stopping = true := Bool.eq_false_iff.1 hstop
  simp only [State.runSet, if_neg hrun, if_neg hrefused, if_neg hstopping, hflush]
  rfl

theorem BND_ERR_CFG_INVALID_ok : BND_ERR_CFG_INVALID.ok := by unfold Fld.ok; decide
theorem BND_ERR_CFG_WHILE_RUN_ok : BND_ERR_CFG_WHILE_RUN.ok := by unfold Fld.ok; decide

/-- What a refused write leaves: CFG_INVALID, and BND_CTRL with the five fields of the write and RUN 0. -/
theorem State.refused_spec (s : State) (n : Nat) :
    s.onlyRegs ((s.takeFive n).setF 0 BND_ERR_CFG_INVALID) ((BND_CTRL.wordAt 0).or (BND_ERR.wordAt 0)) ∧
    ∀ hi lo, lo ≤ hi → hi < 32 → ((s.takeFive n).setF 0 BND_ERR_CFG_INVALID).rd 0 ⟨2, 0, hi, lo⟩ = bitsOf (bndFive n) hi lo := by
  refine ⟨State.onlyRegs_trans (State.onlyRegs_mono (s.onlyRegs_takeFive n) fun _ _ _ => .inl)
    (State.onlyRegs_setF _ (by decide) BND_ERR_CFG_INVALID_ok (.inr ⟨rfl, rfl, rfl⟩)), fun hi lo hle hhi => ?_⟩
  rw [State.rd_setF_ne _ (by decide) (by decide) (bndFld_ok (by decide) hhi hle) BND_ERR_CFG_INVALID_ok
    (.inr (.inr (.inl (show 0 ≠ 0x4c by decide)))), s.rd_takeFive n hhi]

end Sys2Proof.Machine
end

section
/-! SUPPORT. The counters that the start of the clock sets to 0 (R53, R72). -/

namespace Sys2Proof.Machine

variable {s u v : State}

/-- The register words of BND from offset `a` up to `b`. -/
def bndWords (a b : Nat) : WordSet := fun tile blk off => tile = 0 ∧ blk = 2 ∧ a ≤ off ∧ off < b

theorem State.onlyRegs_clrF_bnd (s : State) {f : Fld} {a b : Nat} (hf : f.ok) (hblk : f.blk = 2) (hoff : a ≤ f.off ∧ f.off < b) :
    s.onlyRegs (s.clrF 0 f) (bndWords a b) := s.onlyRegs_clrF (by decide) hf ⟨rfl, hblk, hoff⟩

theorem State.onlyRegs_wr64_bnd (s : State) {f : Fld} {a b : Nat} (n : Nat) (hf : f.off + 4 < 2 ^ 30) (hblk : f.blk = 2) (hoff : a ≤ f.off ∧ f.off + 4 < b) :
    s.onlyRegs (s.wr64 0 f n) (bndWords a b) :=
  State.onlyRegs_mono (s.onlyRegs_wr64 n (by decide) ⟨by omega, hf⟩) fun _ _ _ ⟨ht, hb, ho⟩ => ⟨ht, hb.trans hblk, by omega⟩

/-- The totals of a group are cleared. -/
def State.clearGroup (s : State) (g : Nat) : State :=
  (((s.clrF 0 (BND_COV_REP g)).clrF 0 (BND_COV_LASTREP g)).wr64 0 (BND_COV_JOB_LO g) 0).wr64 0 (BND_COV_PREVJOB_LO g) 0

/-- The totals of a group are 0. -/
def State.groupZero (s : State) (g : Nat) : Prop := s.rd 0 (BND_COV_REP g) = 0 ∧ s.rd64 0 (BND_COV_JOB_LO g) = 0

theorem covRep_ok {g : Nat} (hg : g < 8) : (BND_COV_REP g).ok :=
  ⟨Nat.zero_le _, show 31 < 32 by decide, show 2 < 128 by decide, show 0x100 + 0x20 * g < 2 ^ 30 by omega⟩

theorem covLastrep_ok {g : Nat} (hg : g < 8) : (BND_COV_LASTREP g).ok :=
  ⟨Nat.zero_le _, show 31 < 32 by decide, show 2 < 128 by decide, show 0x104 + 0x20 * g < 2 ^ 30 by omega⟩

theorem covJob_pairOk {g : Nat} (hg : g < 8) : (BND_COV_JOB_LO g).pairOk := ⟨show 2 < 128 by decide, show 0x108 + 0x20 * g + 4 < 2 ^ 30 by omega⟩

/-- Totals that lie outside the words that change stay 0. -/
theorem State.groupZero_of_onlyRegs {g a b : Nat} (hg : g < 8) (h : s.onlyRegs u (bndWords a b)) (hab : b ≤ 0x100 + 0x20 * g ∨ 0x110 + 0x20 * g ≤ a)
    (hz : s.groupZero g) : u.groupZero g := by
  have hout : ∀ off, 0x100 + 0x20 * g ≤ off → off < 0x110 + 0x20 * g → ¬ bndWords a b 0 2 off := fun off h1 h2 ⟨_, _, h3, h4⟩ => by omega
  refine ⟨(State.rd_of_onlyRegs h (by decide) (covRep_ok hg) (hout (0x100 + 0x20 * g) (by omega) (by omega))).trans hz.1, ?_⟩
  have hlo : ¬ bndWords a b 0 2 (0x108 + 0x20 * g) := hout _ (by omega) (by omega)
  have hhi : ¬ bndWords a b 0 2 (0x108 + 0x20 * g + 4) := hout _ (by omega) (by omega)
  exact (State.rd64_of_onlyRegs h (by decide) (covJob_pairOk hg).1 (covJob_pairOk hg).2 hlo hhi).trans hz.2

theorem State.onlyRegs_clearGroup (s : State) {g : Nat} (hg : g < 8) : s.onlyRegs (s.clearGroup g) (bndWords (0x100 + 0x20 * g) (0x118 + 0x20 * g)) := by
  have hrep := s.onlyRegs_clrF_bnd (a := 0x100 + 0x20 * g) (b := 0x118 + 0x20 * g) (covRep_ok hg) rfl ⟨le_rfl, show 0x100 + 0x20 * g < _ by omega⟩
  have hlast := (s.clrF 0 (BND_COV_REP g)).onlyRegs_clrF_bnd (a := 0x100 + 0x20 * g) (b := 0x118 + 0x20 * g) (covLastrep_ok hg) rfl
    (show 0x100 + 0x20 * g ≤ 0x104 + 0x20 * g ∧ 0x104 + 0x20 * g < _ by omega)
  have hjob := State.onlyRegs_wr64_bnd (f := BND_COV_JOB_LO g) (a := 0x100 + 0x20 * g) (b := 0x118 + 0x20 * g) ((s.clrF 0 (BND_COV_REP g)).clrF 0 (BND_COV_LASTREP g)) 0
    (covJob_pairOk hg).2 rfl (show 0x100 + 0x20 * g ≤ 0x108 + 0x20 * g ∧ 0x108 + 0x20 * g + 4 < _ by omega)
  refine State.onlyRegs_trans (State.onlyRegs_trans (State.onlyRegs_trans hrep hlast) hjob) (State.onlyRegs_wr64_bnd _ 0 ?_ rfl ?_)
  · show 0x110 + 0x20 * g + 4 < 2 ^ 30
    omega
  · show 0x100 + 0x20 * g ≤ 0x110 + 0x20 * g ∧ 0x110 + 0x20 * g + 4 < _
    omega

theorem State.groupZero_clearGroup (s : State) {g : Nat} (hg : g < 8) : (s.clearGroup g).groupZero g := by
  have hrep := s.rd_clrF 0 _ (covRep_ok hg)
  unfold State.clearGroup
  generalize s.clrF 0 (BND_COV_REP g) = v at hrep ⊢
  have hlast := v.onlyRegs_clrF_bnd (a := 0x104 + 0x20 * g) (b := 0x110 + 0x20 * g) (covLastrep_ok hg) rfl ⟨le_rfl, show 0x104 + 0x20 * g < _ by omega⟩
  generalize v.clrF 0 (BND_COV_LASTREP g) = w at hlast ⊢
  have hjob := w.onlyRegs_wr64_bnd (f := BND_COV_JOB_LO g) (a := 0x104 + 0x20 * g) (b := 0x110 + 0x20 * g) 0
    (covJob_pairOk hg).2 rfl (show 0x104 + 0x20 * g ≤ 0x108 + 0x20 * g ∧ 0x108 + 0x20 * g + 4 < _ by omega)
  have hout : ¬ bndWords (0x104 + 0x20 * g) (0x110 + 0x20 * g) 0 2 (0x100 + 0x20 * g) := fun ⟨_, _, h, _⟩ => by omega
  have hzero : (w.wr64 0 (BND_COV_JOB_LO g) 0).groupZero g :=
    ⟨(State.rd_of_onlyRegs (State.onlyRegs_trans hlast hjob) (by decide) (covRep_ok hg) hout).trans hrep,
      (w.rd64_wr64 0 (by decide) (covJob_pairOk hg)).trans (Nat.zero_mod _)⟩
  refine State.groupZero_of_onlyRegs hg (State.onlyRegs_wr64_bnd (f := BND_COV_PREVJOB_LO g) (a := 0x110 + 0x20 * g) (b := 0x118 + 0x20 * g) _ 0 ?_ rfl ?_) (.inr le_rfl) hzero
  · show 0x110 + 0x20 * g + 4 < 2 ^ 30
    omega
  · show 0x110 + 0x20 * g ≤ 0x110 + 0x20 * g ∧ 0x110 + 0x20 * g + 4 < _
    omega

theorem State.groupZero_clearGroup_keeps {g x : Nat} (hg : g < 8) (hx : x < 8) (h : s.groupZero g) : (s.clearGroup x).groupZero g := by
  by_cases hgx : g = x
  · rw [hgx]
    exact s.groupZero_clearGroup hx
  · exact State.groupZero_of_onlyRegs hg (s.onlyRegs_clearGroup hx) (by omega) h

/-- Clearing groups in turn leaves the totals of each of them 0. -/
theorem State.groupZero_foldl {g : Nat} (l : List Nat) (hl : ∀ x ∈ l, x < 8) (hg : g < 8) (h : g ∈ l ∨ s.groupZero g) :
    (l.foldl State.clearGroup s).groupZero g := by
  induction l generalizing s with
  | nil => exact h.resolve_left List.not_mem_nil
  | cons x l ih =>
    refine ih (fun y hy => hl y (List.mem_cons_of_mem x hy)) ?_
    obtain hmem | hz := h
    · obtain rfl | hmem := List.mem_cons.1 hmem
      · exact .inr (s.groupZero_clearGroup hg)
      · exact .inl hmem
    · exact .inr (State.groupZero_clearGroup_keeps hg (hl x List.mem_cons_self) hz)

/-- All counters of the clock go to 0. -/
def State.zeroCounters (s : State) : State := (((s.wr64 0 BND_INDEX_LO 0).wr64 0 BND_LINE_LO 0).wr64 0 BND_BAND_LINE0_LO 0).clearTotals

/-- The totals are cleared group by group, then those of the job; the ledger's own record goes too. -/
theorem State.clearTotals_eq (s : State) : ∃ l : Ledger, s.clearTotals =
    { (((((List.range 8).foldl State.clearGroup s).wr64 0 BND_COV_JOB_LEN_LO 0).clrF 0 BND_COV_REPEAT).clrF 0 BND_BLIND_LOST) with led := l } := by
  have hgroup : (fun (s : State) g => (((s.clrF 0 (BND_COV_REP g)).clrF 0 (BND_COV_LASTREP g)).wr64 0 (BND_COV_JOB_LO g) 0).wr64 0
    (BND_COV_PREVJOB_LO g) 0) = State.clearGroup := rfl
  unfold State.clearTotals
  rw [hgroup]
  exact ⟨_, rfl⟩

theorem State.rd_withLed (s : State) (l : Ledger) (t : Nat) (f : Fld) : ({ s with led := l } : State).rd t f = s.rd t f := rfl
theorem State.rd64_withLed (s : State) (l : Ledger) (t : Nat) (f : Fld) : ({ s with led := l } : State).rd64 t f = s.rd64 t f := rfl

theorem State.groupZero_withLed (l : Ledger) {g : Nat} (h : s.groupZero g) : ({ s with led := l } : State).groupZero g :=
  ⟨(s.rd_withLed l 0 _).trans h.1, (s.rd64_withLed l 0 _).trans h.2⟩

theorem State.clearTotals_spec (s : State) : (∀ g < 8, s.clearTotals.groupZero g) ∧
    (∀ f : Fld, f.ok → f.off < 0x5c → s.clearTotals.rd 0 f = s.rd 0 f) ∧
    ∀ f : Fld, f.blk = 2 → f.off + 4 < 0x5c → s.clearTotals.rd64 0 f = s.rd64 0 f := by
  obtain ⟨l, heq⟩ := s.clearTotals_eq
  have hgroups : s.onlyRegs ((List.range 8).foldl State.clearGroup s) (bndWords 0x5c 0x20c) :=
    State.onlyRegs_foldl (fun s g hg => State.onlyRegs_mono (s.onlyRegs_clearGroup (List.mem_range.1 hg)) fun _ _ _ ⟨ht, hb, h1, h2⟩ =>
      ⟨ht, hb, by omega, by have := List.mem_range.1 hg; omega⟩) s
  have hzero : ∀ g < 8, ((List.range 8).foldl State.clearGroup s).groupZero g := fun g hg =>
    State.groupZero_foldl _ (fun x hx => List.mem_range.1 hx) hg (.inl (List.mem_range.2 hg))
  generalize (List.range 8).foldl State.clearGroup s = v at heq hgroups hzero
  have hlen := v.onlyRegs_wr64_bnd (f := BND_COV_JOB_LEN_LO) (a := 0x200) (b := 0x20c) 0 (by decide) rfl (by decide)
  have hrepeat := (v.wr64 0 BND_COV_JOB_LEN_LO 0).onlyRegs_clrF_bnd (f := BND_COV_REPEAT) (a := 0x200) (b := 0x20c) (by unfold Fld.ok; decide) rfl (by decide)
  have hjob := State.onlyRegs_trans hlen hrepeat
  generalize (v.wr64 0 BND_COV_JOB_LEN_LO 0).clrF 0 BND_COV_REPEAT = w at heq hjob
  have hlost := w.onlyRegs_clrF_bnd (f := BND_BLIND_LOST) (a := 0x5c) (b := 0x60) (by unfold Fld.ok; decide) rfl (by decide)
  generalize w.clrF 0 BND_BLIND_LOST = x at heq hlost
  have honly : s.onlyRegs x (bndWords 0x5c 0x20c) := State.onlyRegs_trans hgroups (State.onlyRegs_trans
    (State.onlyRegs_mono hjob fun _ _ _ ⟨ht, hb, h1, h2⟩ => ⟨ht, hb, by omega, h2⟩) (State.onlyRegs_mono hlost fun _ _ _ ⟨ht, hb, h1, h2⟩ => ⟨ht, hb, h1, by omega⟩))
  rw [heq]
  refine ⟨fun g hg => ?_, fun f hf hoff => ?_, fun f hblk hoff => ?_⟩
  · exact State.groupZero_withLed l (State.groupZero_of_onlyRegs hg hlost (.inl (by omega)) (State.groupZero_of_onlyRegs hg hjob (.inr (by omega)) (hzero g hg)))
  · rw [State.rd_withLed]
    exact State.rd_of_onlyRegs honly (by decide) hf fun ⟨_, _, h, _⟩ => by omega
  · rw [State.rd64_withLed]
    exact State.rd64_of_onlyRegs honly (by decide) (by omega) (by omega) (fun ⟨_, _, h, _⟩ => by omega) fun ⟨_, _, h, _⟩ => by omega

theorem State.zeroCounters_spec (s : State) : (∀ g < 8, s.zeroCounters.groupZero g) ∧ s.zeroCounters.rd64 0 BND_INDEX_LO = 0 ∧
    s.zeroCounters.rd64 0 BND_LINE_LO = 0 ∧ s.zeroCounters.rd64 0 BND_BAND_LINE0_LO = 0 ∧
    ∀ hi lo, lo ≤ hi → hi < 32 → s.zeroCounters.rd 0 ⟨2, 0, hi, lo⟩ = s.rd 0 ⟨2, 0, hi, lo⟩ := by
  have hindex := s.rd64_wr64 (f := BND_INDEX_LO) 0 (t := 0) (by decide) (by unfold Fld.pairOk; decide)
  have hpair1 := s.onlyRegs_wr64_bnd (f := BND_INDEX_LO) (a := 0x10) (b := 0x28) 0 (by decide) rfl (by decide)
  unfold State.zeroCounters
  generalize s.wr64 0 BND_INDEX_LO 0 = v at hindex hpair1 ⊢
  have hline := v.rd64_wr64 (f := BND_LINE_LO) 0 (t := 0) (by decide) (by unfold Fld.pairOk; decide)
  have hpair2 := v.onlyRegs_wr64_bnd (f := BND_LINE_LO) (a := 0x18) (b := 0x28) 0 (by decide) rfl (by decide)
  generalize v.wr64 0 BND_LINE_LO 0 = w at hline hpair2 ⊢
  have hline0 := w.rd64_wr64 (f := BND_BAND_LINE0_LO) 0 (t := 0) (by decide) (by unfold Fld.pairOk; decide)
  have hpair3 := w.onlyRegs_wr64_bnd (f := BND_BAND_LINE0_LO) (a := 0x20) (b := 0x28) 0 (by decide) rfl (by decide)
  generalize w.wr64 0 BND_BAND_LINE0_LO 0 = x at hline0 hpair3 ⊢
  have hpair23 : v.onlyRegs x (bndWords 0x18 0x28) := State.onlyRegs_trans hpair2 (State.onlyRegs_mono hpair3 fun _ _ _ ⟨ht, hb, h1, h2⟩ => ⟨ht, hb, by omega, h2⟩)
  have hpairs : s.onlyRegs x (bndWords 0x10 0x28) := State.onlyRegs_trans hpair1 (State.onlyRegs_mono hpair23 fun _ _ _ ⟨ht, hb, h1, h2⟩ => ⟨ht, hb, by omega, h2⟩)
  obtain ⟨hgroups, hrd, hrd64⟩ := x.clearTotals_spec
  have hout : ∀ {a off}, off < a → ¬ bndWords a 0x28 0 2 off := fun h ⟨_, _, h', _⟩ => by omega
  refine ⟨hgroups, ?_, ?_, ?_, fun hi lo hle hhi => ?_⟩
  · rw [hrd64 _ rfl (by decide), State.rd64_of_onlyRegs hpair23 (by decide) (by decide) (by decide) (hout (by decide)) (hout (by decide)), hindex]
    rfl
  · rw [hrd64 _ rfl (by decide), State.rd64_of_onlyRegs hpair3 (by decide) (by decide) (by decide) (hout (by decide)) (hout (by decide)), hline]
    rfl
  · rw [hrd64 _ rfl (by decide), hline0]
    rfl
  · have hok : Fld.ok ⟨2, 0, hi, lo⟩ := bndFld_ok (by decide) hhi hle
    rw [hrd _ hok (show 0 < 0x5c by decide), State.rd_of_onlyRegs hpairs (by decide) hok (hout (show 0 < 0x10 by decide))]

end Sys2Proof.Machine
end

section
/-! SUPPORT. The clock starts (R53, R72), and the four writes of RUN (R47). -/

namespace Sys2Proof.Machine

variable {s u v : State}

/-- The flags of a clock that has started and waits. -/
def State.waitFlags (s : State) : State :=
  (((s.setF 0 BND_STATUS_RUNNING).setF 0 BND_STATUS_WAITING).clrF 0 BND_STATUS_HOLDING).clrF 0 BND_STATUS_TICKING

theorem State.waitFlags_spec (s : State) : s.waitFlags.rd 0 BND_STATUS_RUNNING = 1 ∧ s.waitFlags.rd 0 BND_STATUS_WAITING = 1 ∧
    s.waitFlags.rd 0 BND_STATUS_HOLDING = 0 ∧ s.waitFlags.rd 0 BND_STATUS_TICKING = 0 := by
  simp [State.waitFlags, BND_STATUS_RUNNING, BND_STATUS_WAITING, BND_STATUS_HOLDING, BND_STATUS_TICKING, State.rd_setF_flag, State.rd_clrF_flag]

theorem State.onlyRegs_waitFlags (s : State) : s.onlyRegs s.waitFlags (bndWords 4 8) := by
  have hset : ∀ (u : State) (k : Nat), k < 32 → u.onlyRegs (u.setF 0 ⟨2, 4, k, k⟩) (bndWords 4 8) := fun u k hk =>
    u.onlyRegs_setF (by decide) (bndFld_ok (by decide) hk le_rfl) ⟨rfl, rfl, le_rfl, show 4 < 8 by decide⟩
  have hclr : ∀ (u : State) (k : Nat), k < 32 → u.onlyRegs (u.clrF 0 ⟨2, 4, k, k⟩) (bndWords 4 8) := fun u k hk =>
    u.onlyRegs_clrF (by decide) (bndFld_ok (by decide) hk le_rfl) ⟨rfl, rfl, le_rfl, show 4 < 8 by decide⟩
  exact State.onlyRegs_trans (State.onlyRegs_trans (State.onlyRegs_trans (hset _ 0 (by decide)) (hset _ 3 (by decide))) (hclr _ 4 (by decide))) (hclr _ 1 (by decide))

/-- The start in its parts: the counters, the clock's own record, the flags, the other blocks and READY. -/
theorem State.runStart_eq (s : State) : ∃ (v : State) (c : Clock), v.regs = s.regs ∧ v.bank = s.bank ∧ c.bands = [] ∧ c.nextRelease = 0 ∧
    s.runStart = ((v.zeroCounters.withClock c).waitFlags.hookRunStart).readyUpdate := by
  unfold State.runStart
  by_cases h : s.clk.ticked = true
  · rw [if_pos h]
    exact ⟨s.expRun (s.bandIndex + 1), _, rfl, rfl, rfl, rfl, rfl⟩
  · rw [if_neg h]
    exact ⟨s, _, rfl, rfl, rfl, rfl, rfl⟩

/-- The counters and BND_CTRL are what they were before the flags and the other blocks. -/
theorem State.runStart_frame {f : Fld} (hf : f.ok) (hblk : f.blk = 2) (hst : isStructured 2 f.off = false) (hoff : ¬ (4 ≤ f.off ∧ f.off < 8)) (s : State) :
    (s.waitFlags.hookRunStart).readyUpdate.rd 0 f = s.rd 0 f := by
  obtain ⟨blk, off, hi, lo⟩ := f
  obtain rfl : blk = 2 := hblk
  rw [State.rd_readyUpdate_bnd _ hf rfl, (State.sparesClock_hookRunStart _).rd_eq hf.2.2.2 hst]
  exact State.rd_of_onlyRegs s.onlyRegs_waitFlags (by decide) hf fun h => hoff h.2.2


theorem State.clk_start (s : State) : (s.waitFlags.hookRunStart).readyUpdate.clk = s.clk := by
  rw [State.readyUpdate, State.clk_wr, (State.sparesClock_hookRunStart _).1]
  simp [State.waitFlags]

/-- A pair of counters, like a field, is what it was before the flags and the other blocks. -/
theorem State.runStart_frame64 {f : Fld} (hblk : f.blk = 2) (hoff : 8 ≤ f.off) (ho : f.off + 4 < 2 ^ 30) (hst : isStructured 2 f.off = false)
    (hst' : isStructured 2 (f.off + 4) = false) (s : State) : (s.waitFlags.hookRunStart).readyUpdate.rd64 0 f = s.rd64 0 f := by
  obtain ⟨blk, off, hi, lo⟩ := f
  obtain rfl : blk = 2 := hblk
  have hready := (s.waitFlags.hookRunStart).onlyRegs_readyUpdate
  rw [State.rd64_of_onlyRegs hready (by decide) (show 2 < 128 by decide) ho (fun h => absurd h.2.1 (show 2 ≠ 0 by decide)) (fun h => absurd h.2.1 (show 2 ≠ 0 by decide)),
    (State.sparesClock_hookRunStart _).rd64_eq ho hst hst']
  exact State.rd64_of_onlyRegs s.onlyRegs_waitFlags (by decide) (show 2 < 128 by decide) ho (fun ⟨_, _, _, h⟩ => absurd h (Nat.not_lt.2 hoff))
    fun ⟨_, _, _, h⟩ => absurd h (Nat.not_lt.2 (le_trans hoff (Nat.le_add_right _ 4)))

/-- The flags of a clock that waits stay behind the other blocks. -/
theorem State.waitFlag_frame (s : State) {k : Nat} (hk : k < 32) : (s.waitFlags.hookRunStart).readyUpdate.rd 0 ⟨2, 4, k, k⟩ = s.waitFlags.rd 0 ⟨2, 4, k, k⟩ := by
  rw [State.rd_readyUpdate_bnd _ (bndFld_ok (by decide) hk le_rfl) rfl, (State.sparesClock_hookRunStart _).rd_eq (by decide) rfl]

/-- The registers of the coverage totals are no structure registers. -/
theorem isStructured_cov : ∀ g < 8, isStructured 2 (0x100 + 0x20 * g) = false ∧ isStructured 2 (0x108 + 0x20 * g) = false ∧
    isStructured 2 (0x108 + 0x20 * g + 4) = false := by decide

theorem State.groupZero_start {g : Nat} (hg : g < 8) (h : s.groupZero g) : (s.waitFlags.hookRunStart).readyUpdate.groupZero g := by
  obtain ⟨hrep, hlo, hhi⟩ := isStructured_cov g hg
  refine ⟨(State.runStart_frame (covRep_ok hg) rfl hrep ?_ s).trans h.1, (State.runStart_frame64 rfl ?_ (covJob_pairOk hg).2 hlo hhi s).trans h.2⟩
  · show ¬ (4 ≤ 0x100 + 0x20 * g ∧ 0x100 + 0x20 * g < 8)
    omega
  · show 8 ≤ 0x108 + 0x20 * g
    omega

theorem State.groupZero_withClock (c : Clock) {g : Nat} (h : s.groupZero g) : (s.withClock c).groupZero g :=
  ⟨(s.rd_withClock c 0 _).trans h.1, (s.rd64_withClock c 0 _).trans h.2⟩

/-- What the start of the clock leaves (R53, R72). -/
theorem State.runStart_spec (s : State) : (s.runStart.rd 0 BND_STATUS_RUNNING = 1 ∧ s.runStart.rd 0 BND_STATUS_WAITING = 1 ∧
      s.runStart.rd 0 BND_STATUS_HOLDING = 0 ∧ s.runStart.rd 0 BND_STATUS_TICKING = 0) ∧
    (s.runStart.rd64 0 BND_INDEX_LO = 0 ∧ s.runStart.rd64 0 BND_LINE_LO = 0 ∧ s.runStart.rd64 0 BND_BAND_LINE0_LO = 0) ∧
    (s.runStart.clk.bands = [] ∧ s.runStart.clk.nextRelease = 0) ∧ (∀ g < 8, s.runStart.groupZero g) ∧
    ∀ hi lo, lo ≤ hi → hi < 32 → s.runStart.rd 0 ⟨2, 0, hi, lo⟩ = s.rd 0 ⟨2, 0, hi, lo⟩ := by
  obtain ⟨v, c, hregs, hbank, hbands, hnext, heq⟩ := s.runStart_eq
  obtain ⟨hgroups, hindex, hline, hline0, hctrl⟩ := v.zeroCounters_spec
  rw [heq]
  generalize v.zeroCounters = w at hgroups hindex hline hline0 hctrl
  obtain ⟨hrunning, hwaiting, hholding, hticking⟩ := (w.withClock c).waitFlags_spec
  refine ⟨⟨?_, ?_, ?_, ?_⟩, ⟨?_, ?_, ?_⟩, ⟨?_, ?_⟩, fun g hg => State.groupZero_start hg (State.groupZero_withClock c (hgroups g hg)), fun hi lo hle hhi => ?_⟩
  · exact (State.waitFlag_frame _ (k := 0) (by decide)).trans hrunning
  · exact (State.waitFlag_frame _ (k := 3) (by decide)).trans hwaiting
  · exact (State.waitFlag_frame _ (k := 4) (by decide)).trans hholding
  · exact (State.waitFlag_frame _ (k := 1) (by decide)).trans hticking
  · exact (State.runStart_frame64 (f := BND_INDEX_LO) rfl (by decide) (by decide) rfl rfl _).trans ((w.rd64_withClock c 0 _).trans hindex)
  · exact (State.runStart_frame64 (f := BND_LINE_LO) rfl (by decide) (by decide) rfl rfl _).trans ((w.rd64_withClock c 0 _).trans hline)
  · exact (State.runStart_frame64 (f := BND_BAND_LINE0_LO) rfl (by decide) (by decide) rfl rfl _).trans ((w.rd64_withClock c 0 _).trans hline0)
  · rw [State.clk_start]
    exact hbands
  · rw [State.clk_start]
    exact hnext
  · have hv : v.rd 0 ⟨2, 0, hi, lo⟩ = s.rd 0 ⟨2, 0, hi, lo⟩ := by simp only [State.rd, State.rdB, State.wordB, hregs, hbank]
    rw [State.runStart_frame (bndFld_ok (by decide) hhi hle) rfl rfl (show ¬ (4 ≤ 0 ∧ 0 < 8) by decide), State.rd_withClock, hctrl hi lo hle hhi, hv]

/-- BND_CTRL as the clock starts: RUN set in the five fields of the write. -/
theorem State.rd_started (s : State) (n : Nat) : ((s.takeFive n).setF 0 BND_CTRL_RUN).rd 0 BND_CTRL_RUN = 1 ∧
    ((s.takeFive n).setF 0 BND_CTRL_RUN).rd 0 BND_CTRL_SRC = bitsOf n 2 1 := by
  have hsrc : BND_CTRL_SRC.ok := by unfold Fld.ok; decide
  refine ⟨State.rd_setF _ _ _ BND_CTRL_RUN_ok, ?_⟩
  rw [State.rd_setF_ne _ (by decide) (by decide) hsrc BND_CTRL_RUN_ok (.inr (.inr (.inr (.inr (by decide)))))]
  exact (s.rd_takeFive n (hi := 2) (lo := 1) (by decide)).trans (bitsOf_bndFive n (by decide))

/-- CFG_WHILE_RUN after a write while RUN is 1: set exactly where one of the five fields differs. -/
theorem State.setIf_whileRun_spec (s : State) (n : Nat) : s.onlyRegs (s.setIf (s.fiveDiffer n) 0 BND_ERR_CFG_WHILE_RUN) (BND_ERR.wordAt 0) ∧
    (fiveAgree n (s.word 0 2 0) → (s.setIf (s.fiveDiffer n) 0 BND_ERR_CFG_WHILE_RUN).rd 0 BND_ERR_CFG_WHILE_RUN = s.rd 0 BND_ERR_CFG_WHILE_RUN) ∧
    (¬ fiveAgree n (s.word 0 2 0) → (s.setIf (s.fiveDiffer n) 0 BND_ERR_CFG_WHILE_RUN).rd 0 BND_ERR_CFG_WHILE_RUN = 1) := by
  unfold State.setIf
  split
  case isTrue h =>
    have hdiffer : ¬ fiveAgree n (s.word 0 2 0) := fun hagree => by rw [(State.fiveDiffer_eq_false_iff n).2 hagree] at h; cases h
    exact ⟨s.onlyRegs_setF (by decide) BND_ERR_CFG_WHILE_RUN_ok ⟨rfl, rfl, rfl⟩, fun hagree => absurd hagree hdiffer,
      fun _ => s.rd_setF _ _ BND_ERR_CFG_WHILE_RUN_ok⟩
  case isFalse h =>
    exact ⟨s.onlyRegs_refl _, fun _ => rfl, fun hdiffer => absurd ((State.fiveDiffer_eq_false_iff n).1 (Bool.eq_false_iff.2 h)) hdiffer⟩

theorem State.exec_runSet (o : Origin) (v : BitVec 32) (hlive : s.live) : exec (.runSet o v) s = .next (s.after (s.runSet v.toNat)) := finish_live hlive

theorem State.exec_runClear (o : Origin) (v : BitVec 32) (hlive : s.live) : exec (.runClear o v) s = .next (s.after (s.runClear v.toNat)) := finish_live hlive

/-- Settles O15: a stop by the flags that it clears, a start by the counters, and a write of the five fields by the bits that `bndFive` keeps. -/
theorem runSetAndClear : Obligations.RunSetAndClear := by
  refine ⟨fun s o v hlive hrun _ hopen hdrain hrestart => ?clear, fun s o v hlive _ => ⟨fun hrun hrefuse => ?refused, fun hrun hsrc hsize hdepths hstop hflush => ?start,
    fun hrun hflush => ?running⟩⟩
  case clear =>
    have hopen' : (s.setIf (s.fiveDiffer v.toNat) 0 BND_ERR_CFG_WHILE_RUN).openBand = none := by rwa [State.openBand, State.clk_setIf]
    have hdrain' : ¬ (s.setIf (s.fiveDiffer v.toNat) 0 BND_ERR_CFG_WHILE_RUN).is 0 BND_STATUS_DRAINING := by
      rwa [State.is, State.rd_of_onlyRegs (s.setIf_whileRun_spec v.toNat).1 (by decide) (by unfold Fld.ok; decide) fun h => absurd h.2.2 (by decide)]
    obtain ⟨hctrl, hrunning, hwaiting, hholding, hready, hstopping, hmem⟩ := State.runStop_spec hopen' hdrain'
    rw [State.pending_setIf] at hholding
    rw [State.mem_setIf] at hmem
    refine ⟨_, State.exec_runClear o v hlive, ?_⟩
    rw [State.runClear_running _ hrun hrestart]
    generalize (s.setIf (s.fiveDiffer v.toNat) 0 BND_ERR_CFG_WHILE_RUN).runStop = u at hctrl hrunning hwaiting hholding hready hstopping hmem
    exact ⟨hctrl, hrunning, hwaiting, hholding, hready, hstopping, hmem⟩
  case refused =>
    obtain ⟨honly, hctrl⟩ := s.refused_spec v.toNat
    obtain ⟨h1, h2, h3, h4, h5⟩ := fiveAgree_bndFive v.toNat
    have hexec := State.exec_runSet o v hlive
    rw [State.runSet_refused hrun ((s.runRefused_iff v.toNat).2 hrefuse)] at hexec
    exact State.gives_of_onlyRegs hexec honly ⟨(hctrl 0 0 (by decide) (by decide)).trans (bitsOf_bndFive_run _), State.rd_setF _ _ _ BND_ERR_CFG_INVALID_ok,
      (hctrl 2 1 (by decide) (by decide)).trans h1, (hctrl 4 3 (by decide) (by decide)).trans h2, (hctrl 5 5 (by decide) (by decide)).trans h3,
      (hctrl 6 6 (by decide) (by decide)).trans h4, (hctrl 13 8 (by decide) (by decide)).trans h5, honly⟩
  case start =>
    have haccept : s.runRefused v.toNat = false := Bool.eq_false_iff.2 fun h =>
      ((s.runRefused_iff v.toNat).1 h).elim hsrc fun h => h.elim (Nat.not_le.2 hsize) fun h => h hdepths
    have hstarts := State.runSet_starts hrun haccept hstop (Bool.eq_false_iff.2 hflush)
    obtain ⟨hstarted, hsource⟩ := s.rd_started v.toNat
    obtain ⟨⟨hrunning, hwaiting, hholding, hticking⟩, ⟨hindex, hline, hline0⟩, ⟨hbands, hnext⟩, hgroups, hctrl⟩ :=
      State.runStart_spec ((s.takeFive v.toNat).setF 0 BND_CTRL_RUN)
    refine ⟨_, State.exec_runSet o v hlive, ?_⟩
    rw [hstarts]
    generalize ((s.takeFive v.toNat).setF 0 BND_CTRL_RUN).runStart = u at hrunning hwaiting hholding hticking hindex hline hline0 hbands hnext hgroups hctrl
    exact ⟨(hctrl 0 0 (by decide) (by decide)).trans hstarted, hrunning, hwaiting, hholding, hticking, hindex, hline, hline0,
      (hctrl 2 1 (by decide) (by decide)).trans hsource, hbands, hnext, hgroups⟩
  case running =>
    obtain ⟨honly, hsame, hset⟩ := s.setIf_whileRun_spec v.toNat
    have hexec := State.exec_runSet o v hlive
    rw [State.runSet_running hrun (Bool.eq_false_iff.2 hflush)] at hexec
    refine State.gives_of_onlyRegs hexec honly ⟨honly, ?_⟩
    split
    case isTrue h => exact hsame h
    case isFalse h => exact hset h

end Sys2Proof.Machine
end

section
/-! SUPPORT. Camera ports (R73 to R92): the fields of a port, the lanes of its bond, and what it leaves as it enters a state. -/

namespace Sys2Proof.Machine

variable {s u v : State} {K L : WordSet}

/-! Frames: what a command of a port changes beside its registers. -/

/-- `u` is `s` but for register words in the set `K`, what the cycle remembers of them, pips, notifications, checkers and calibration work. -/
def State.onlyNotes (s u : State) (K : WordSet) : Prop :=
  u = { s with regs := u.regs, cyc := u.cyc, fab := u.fab, net := u.net, prbs := u.prbs, cal := u.cal } ∧ s.sameWords u K

theorem State.onlyNotes_refl (s : State) (K : WordSet) : s.onlyNotes s K := ⟨rfl, s.sameWords_refl K⟩

theorem State.onlyNotes.trans (h : s.onlyNotes u K) (h' : u.onlyNotes v K) : s.onlyNotes v K := by
  refine ⟨?_, State.sameWords_trans h.2 h'.2⟩
  have e := h'.1
  rw [h.1] at e
  exact e

theorem State.onlyNotes.mono (h : s.onlyNotes u K) (hs : ∀ t k o, K t k o → L t k o) : s.onlyNotes u L := ⟨h.1, State.sameWords_mono h.2 hs⟩

theorem State.onlyNotes_of_onlyRegs (h : s.onlyRegs u K) : s.onlyNotes u K := ⟨by rw [h.1], h.2⟩

theorem State.onlyNotes.keeps (h : s.onlyNotes u K) : s.keeps u K := ⟨by rw [h.1], h.2⟩
theorem State.onlyNotes.ports (h : s.onlyNotes u K) : u.ports = s.ports := by rw [h.1]

theorem State.onlyNotes.wr (h : s.onlyNotes u K) {t v : Nat} {f : Fld} (ht : t < 8) (hf : f.ok) (hK : K t f.blk f.off) : s.onlyNotes (u.wr t f v) K :=
  h.trans (State.onlyNotes_of_onlyRegs (u.onlyRegs_wr v ht hf hK))

theorem State.onlyNotes.addSat (h : s.onlyNotes u K) {t n : Nat} {f : Fld} (ht : t < 8) (hf : f.ok) (hK : K t f.blk f.off) :
    s.onlyNotes (u.addSat t f n) K := h.wr ht hf hK

theorem State.onlyNotes.setF (h : s.onlyNotes u K) {t : Nat} {f : Fld} (ht : t < 8) (hf : f.ok) (hK : K t f.blk f.off) : s.onlyNotes (u.setF t f) K :=
  h.trans (State.onlyNotes_of_onlyRegs (u.onlyRegs_setF ht hf hK))

theorem State.onlyNotes.ite {c : Prop} [Decidable c] (h : s.onlyNotes u K) (h' : s.onlyNotes v K) : s.onlyNotes (if c then u else v) K := by
  split
  · exact h
  · exact h'

theorem State.onlyNotes.setIf (h : s.onlyNotes u K) {c : Bool} {t : Nat} {f : Fld} (ht : t < 8) (hf : f.ok) (hK : K t f.blk f.off) :
    s.onlyNotes (u.setIf c t f) K := (h.setF ht hf hK).ite h

theorem State.onlyNotes.pip (h : s.onlyNotes u K) {t src : Nat} : s.onlyNotes (u.pip t src) K :=
  h.trans ⟨by rw [u.pip_eq], State.sameWords_of_regs (u.regs_pip t src) K⟩

theorem State.onlyNotes.notify (h : s.onlyNotes u K) {code a b c d : Nat} (hK : K 0 CHN_NOTIFY_LOST.blk CHN_NOTIFY_LOST.off) :
    s.onlyNotes (u.notify code a b c d) K := by
  refine h.trans ⟨?_, State.sameWords_mono (u.keeps_notify code a b c d).2 ?_⟩
  · unfold State.notify
    split <;> rfl
  · rintro t k o ⟨rfl, rfl, rfl⟩
    exact hK

theorem State.onlyNotes.setPrbs (h : s.onlyNotes u K) {m : List (Nat × PrbsState)} : s.onlyNotes { u with prbs := m } K :=
  h.trans ⟨rfl, State.sameWords_of_regs rfl K⟩

/-- What the ports keep may have changed as well. -/
def State.onlyPort (s u : State) (K : WordSet) : Prop := State.onlyNotes { s with ports := u.ports } u K

theorem State.onlyPort_of_onlyNotes (h : s.onlyNotes u K) : s.onlyPort u K := by
  refine ⟨?_, h.2⟩
  rw [show { s with ports := u.ports } = s by rw [h.ports]]
  exact h.1

theorem State.onlyPort_refl (s : State) (K : WordSet) : s.onlyPort s K := State.onlyPort_of_onlyNotes (s.onlyNotes_refl K)

theorem State.onlyPort.trans (h : s.onlyPort u K) (h' : u.onlyPort v K) : s.onlyPort v K := by
  refine ⟨?_, State.sameWords_trans h.2 h'.2⟩
  have e := h'.1
  rw [h.1] at e
  exact e

theorem State.onlyPort.mono (h : s.onlyPort u K) (hs : ∀ t k o, K t k o → L t k o) : s.onlyPort u L := ⟨h.1, State.sameWords_mono h.2 hs⟩

theorem State.onlyPort.notes (h : s.onlyPort u K) (h' : u.onlyNotes v K) : s.onlyPort v K := h.trans (State.onlyPort_of_onlyNotes h')

theorem State.onlyPort.updPort (h : s.onlyPort u K) {t p : Nat} {f : PortState → PortState} : s.onlyPort (u.updPort t p f) K :=
  h.trans ⟨rfl, State.sameWords_of_regs rfl K⟩

theorem State.onlyPort.keeps (h : s.onlyPort u K) : s.keeps u K := ⟨by rw [h.1], h.2⟩
theorem State.onlyPort.mem (h : s.onlyPort u K) : u.mem = s.mem := by rw [h.1]

/-! What a port keeps. -/

theorem State.port_updPort (s : State) (t p t' p' : Nat) (f : PortState → PortState) :
    (s.updPort t p f).port t' p' = if t' * 2 + p' = t * 2 + p then f (s.port t' p') else s.port t' p' := by
  unfold State.port State.updPort smUpd
  rw [smGet_set]
  split
  · next h => rw [h]
  · rfl

@[simp] theorem State.port_updPort_same (s : State) (t p : Nat) (f : PortState → PortState) : (s.updPort t p f).port t p = f (s.port t p) := by
  rw [State.port_updPort, if_pos rfl]

theorem State.port_congr (h : u.ports = s.ports) (t p : Nat) : u.port t p = s.port t p := by rw [State.port, h]; rfl

/-! The fields of a port. -/

/-- The fields of a port that training, faults and power states turn on. -/
inductive PortFld where
  | enable | test | wanted | state | absent | failPhase | cal | pstate | backoff | fails | drops | cfgInvalid | refused | skew | losUp | frameErr

/-- The field of port `p` in the register tables (R108, R109). -/
def PortFld.fld (p : Nat) : PortFld → Fld
  | .enable => LNK_PORT_CTRL_ENABLE p
  | .test => LNK_PORT_CTRL_TEST p
  | .wanted => LNK_PORT_CTRL_PSTATE p
  | .state => LNK_PORT_STATUS_STATE p
  | .absent => LNK_PORT_STATUS_ABSENT p
  | .failPhase => LNK_PORT_STATUS_FAIL_PHASE p
  | .cal => LNK_PORT_STATUS_CAL p
  | .pstate => LNK_PORT_STATUS_PSTATE p
  | .backoff => LNK_PORT_STATUS_BACKOFF_MS p
  | .fails => LNK_PORT_FAILS p
  | .drops => LNK_PORT_DROPS p
  | .cfgInvalid => LNK_PORT_ERR_CFG_INVALID p
  | .refused => LNK_PORT_ERR_PSTATE_REFUSED p
  | .skew => LNK_PORT_ERR_SKEW p
  | .losUp => LNK_PORT_ERR_LOS_UP p
  | .frameErr => FXL_PORT_FRAME_ERR p

/-- The values a field can hold. -/
def PortFld.size (a : PortFld) : Nat := 2 ^ ((a.fld 0).hi + 1 - (a.fld 0).lo)

theorem PortFld.fld_ok (a : PortFld) (p : Port) : (a.fld p).ok := by
  revert p
  unfold Fld.ok
  cases a <;> decide

theorem PortFld.fld_apart {a b : PortFld} (h : a ≠ b) (p : Port) : (a.fld p).apart (b.fld p) := by
  cases a <;> cases b <;> simp [Fld.apart, PortFld.fld, LNK_PORT_CTRL_ENABLE, LNK_PORT_CTRL_TEST, LNK_PORT_CTRL_PSTATE, LNK_PORT_STATUS_STATE,
    LNK_PORT_STATUS_ABSENT, LNK_PORT_STATUS_FAIL_PHASE, LNK_PORT_STATUS_CAL, LNK_PORT_STATUS_PSTATE, LNK_PORT_STATUS_BACKOFF_MS, LNK_PORT_FAILS,
    LNK_PORT_DROPS, LNK_PORT_ERR_CFG_INVALID, LNK_PORT_ERR_PSTATE_REFUSED, LNK_PORT_ERR_SKEW, LNK_PORT_ERR_LOS_UP, FXL_PORT_FRAME_ERR] at h ⊢

/-- The fields lie behind those of the lanes, and the count of framing errors in FXL (R108, R109). -/
theorem PortFld.fld_place (a : PortFld) (p : Port) : (a.fld p).blk = 3 ∧ 0x200 ≤ (a.fld p).off ∨ (a.fld p).blk = 4 := by
  revert p
  cases a <;> decide

theorem PortFld.size_eq (a : PortFld) (p : Port) : 2 ^ ((a.fld p).hi + 1 - (a.fld p).lo) = a.size := by cases a <;> rfl

@[simp] theorem PortFld.sizes : PortFld.enable.size = 2 ∧ PortFld.test.size = 2 ∧ PortFld.wanted.size = 4 ∧ PortFld.state.size = 8 ∧
    PortFld.failPhase.size = 8 ∧ PortFld.pstate.size = 4 ∧ PortFld.backoff.size = 1024 ∧ PortFld.fails.size = 0x100000000 ∧
    PortFld.drops.size = 0x100000000 ∧ PortFld.cfgInvalid.size = 2 ∧ PortFld.refused.size = 2 ∧ PortFld.skew.size = 2 ∧ PortFld.losUp.size = 2 ∧
    PortFld.frameErr.size = 0x100000000 := ⟨rfl, rfl, rfl, rfl, rfl, rfl, rfl, rfl, rfl, rfl, rfl, rfl, rfl, rfl⟩

/-- The names of the fields in the register tables. -/
theorem portFlds (p : Nat) : LNK_PORT_CTRL_ENABLE p = PortFld.enable.fld p ∧ LNK_PORT_CTRL_TEST p = PortFld.test.fld p ∧
    LNK_PORT_CTRL_PSTATE p = PortFld.wanted.fld p ∧ LNK_PORT_STATUS_STATE p = PortFld.state.fld p ∧ LNK_PORT_STATUS_ABSENT p = PortFld.absent.fld p ∧
    LNK_PORT_STATUS_FAIL_PHASE p = PortFld.failPhase.fld p ∧ LNK_PORT_STATUS_CAL p = PortFld.cal.fld p ∧ LNK_PORT_STATUS_PSTATE p = PortFld.pstate.fld p ∧
    LNK_PORT_STATUS_BACKOFF_MS p = PortFld.backoff.fld p ∧ LNK_PORT_FAILS p = PortFld.fails.fld p ∧ LNK_PORT_DROPS p = PortFld.drops.fld p ∧
    LNK_PORT_ERR_CFG_INVALID p = PortFld.cfgInvalid.fld p ∧ LNK_PORT_ERR_PSTATE_REFUSED p = PortFld.refused.fld p ∧
    LNK_PORT_ERR_SKEW p = PortFld.skew.fld p ∧ LNK_PORT_ERR_LOS_UP p = PortFld.losUp.fld p ∧ FXL_PORT_FRAME_ERR p = PortFld.frameErr.fld p :=
  ⟨rfl, rfl, rfl, rfl, rfl, rfl, rfl, rfl, rfl, rfl, rfl, rfl, rfl, rfl, rfl, rfl⟩

theorem State.portSt_eq (s : State) (t p : Nat) : s.portSt t p = s.rd t (PortFld.state.fld p) := rfl

section Reads

variable (s : State) (t : Tile) (p : Port) {a b : PortFld}

@[simp] theorem State.rd_wr_port (a : PortFld) (n : Nat) : (s.wr t (a.fld p) n).rd t (a.fld p) = n % a.size := by
  rw [State.rd_wr _ _ _ _ (a.fld_ok p), a.size_eq]

@[simp] theorem State.rd_wr_port_ne (n : Nat) (h : a ≠ b) : (s.wr t (b.fld p) n).rd t (a.fld p) = s.rd t (a.fld p) :=
  s.rd_wr_ne n t.isLt t.isLt (a.fld_ok p) (b.fld_ok p) (.inr (PortFld.fld_apart h p))

@[simp] theorem State.rd_setF_port (a : PortFld) : (s.setF t (a.fld p)).rd t (a.fld p) = a.size - 1 := by
  rw [State.rd_setF _ _ _ (a.fld_ok p), a.size_eq]

@[simp] theorem State.rd_setF_port_ne (h : a ≠ b) : (s.setF t (b.fld p)).rd t (a.fld p) = s.rd t (a.fld p) := s.rd_wr_port_ne t p _ h

@[simp] theorem State.rd_clrF_port (a : PortFld) : (s.clrF t (a.fld p)).rd t (a.fld p) = 0 := s.rd_clrF t _ (a.fld_ok p)

@[simp] theorem State.rd_clrF_port_ne (h : a ≠ b) : (s.clrF t (b.fld p)).rd t (a.fld p) = s.rd t (a.fld p) := s.rd_wr_port_ne t p _ h

@[simp] theorem State.rd_addSat_port (a : PortFld) (n : Nat) : (s.addSat t (a.fld p) n).rd t (a.fld p) = min (s.rd t (a.fld p) + n) (a.size - 1) := by
  rw [State.rd_addSat _ _ _ _ (a.fld_ok p), a.size_eq]

@[simp] theorem State.rd_addSat_port_ne (n : Nat) (h : a ≠ b) : (s.addSat t (b.fld p) n).rd t (a.fld p) = s.rd t (a.fld p) := s.rd_wr_port_ne t p _ h

@[simp] theorem State.rd_notify_port (code x y z w : Nat) (a : PortFld) : (s.notify code x y z w).rd t (a.fld p) = s.rd t (a.fld p) :=
  State.rd_of_keeps (s.keeps_notify code x y z w) t.isLt (a.fld_ok p) fun ⟨_, hblk, _⟩ => by
    have hlost : CHN_NOTIFY_LOST.blk = 0x11 := rfl
    have := a.fld_place p
    omega

end Reads

/-! Writes of a port's fields stay within the words of its commands. -/

section Frames

variable {t : Tile} {p : Port} {a : PortFld} {n : Nat}

theorem State.onlyPort.wrPort (h : s.onlyPort u (linkWords t)) (hblk : (a.fld p).blk = 3 := by exact rfl) :
    s.onlyPort (u.wr t (a.fld p) n) (linkWords t) := h.notes ((u.onlyNotes_refl _).wr t.isLt (a.fld_ok p) (.inl ⟨rfl, hblk⟩))

theorem State.onlyPort.addPort (h : s.onlyPort u (linkWords t)) (hblk : (a.fld p).blk = 3 := by exact rfl) :
    s.onlyPort (u.addSat t (a.fld p) n) (linkWords t) := h.wrPort hblk

theorem State.onlyPort.setPort (h : s.onlyPort u (linkWords t)) (hblk : (a.fld p).blk = 3 := by exact rfl) :
    s.onlyPort (u.setF t (a.fld p)) (linkWords t) := h.notes ((u.onlyNotes_refl _).setF t.isLt (a.fld_ok p) (.inl ⟨rfl, hblk⟩))

end Frames

/-! The lanes of a port. -/

/-- The words of the lanes of a tile (R108). -/
def laneWords (t : Nat) : WordSet := fun tile blk off => tile = t ∧ blk = 3 ∧ off < 0x180

theorem laneFld_ok {n off hi lo : Nat} (hn : n < 6) (hoff : off < 0x40) (hlo : lo ≤ hi) (hhi : hi < 32) : Fld.ok ⟨3, off + 0x40 * n, hi, lo⟩ :=
  ⟨hlo, hhi, show 3 < 128 by decide, show off + 0x40 * n < 2 ^ 30 by omega⟩

theorem laneFld_mem (t : Nat) {n off : Nat} (hn : n < 6) (hoff : off < 0x40) : laneWords t t 3 (off + 0x40 * n) := ⟨rfl, rfl, by omega⟩

theorem laneWords_linkWords {t tile blk off : Nat} (h : laneWords t tile blk off) : linkWords t tile blk off := .inl ⟨h.1, h.2.1⟩

section Lanes

variable {t : Tile} {p : Port}

theorem State.rd_port_of_lanes (h : s.keeps u (laneWords t)) (a : PortFld) : u.rd t (a.fld p) = s.rd t (a.fld p) := by
  refine State.rd_of_keeps h t.isLt (a.fld_ok p) ?_
  rintro ⟨-, hblk, hoff⟩
  have := a.fld_place p
  omega

theorem State.onlyNotes.wrLane (h : s.onlyNotes u (laneWords t)) {n x off hi lo : Nat} (hn : n < 6) (hoff : off < 0x40 := by decide)
    (hlo : lo ≤ hi := by decide) (hhi : hi < 32 := by decide) : s.onlyNotes (u.wr t ⟨3, off + 0x40 * n, hi, lo⟩ x) (laneWords t) :=
  h.wr t.isLt (laneFld_ok hn hoff hlo hhi) (laneFld_mem t hn hoff)

theorem State.onlyNotes.clrLane (h : s.onlyNotes u (laneWords t)) {n off hi lo : Nat} (hn : n < 6) (hoff : off < 0x40 := by decide)
    (hlo : lo ≤ hi := by decide) (hhi : hi < 32 := by decide) : s.onlyNotes (u.clrF t ⟨3, off + 0x40 * n, hi, lo⟩) (laneWords t) :=
  h.wrLane hn hoff hlo hhi

theorem State.mem_bond {n : Nat} (h : n ∈ s.bond t p) : n < 6 ∧ n / 3 = p := by
  obtain ⟨k, hk, rfl⟩ := List.mem_map.1 h
  have hlanes := s.rd_lt t (LNK_PORT_CFG_LANES p)
  have hk3 : k < 3 := by
    have : k < s.rd t (LNK_PORT_CFG_LANES p) := List.mem_range.1 hk
    have : s.rd t (LNK_PORT_CFG_LANES p) < 4 := hlanes
    omega
  have := p.isLt
  omega

theorem State.nodup_bond (s : State) (t p : Nat) : (s.bond t p).Nodup :=
  List.nodup_range.map fun _ _ h => Nat.add_left_cancel h

/-- What holds and is kept at each lane holds after a change on every bond lane. -/
theorem State.eachLane_induct {P : State → Prop} {f : Nat → State → State} (h : P s) (hf : ∀ w, ∀ n < 6, P w → P (f n w)) : P (s.eachLane t p f) := by
  have hl : ∀ l : List Nat, (∀ n ∈ l, n < 6) → ∀ w, P w → P (l.foldl (fun s n => f n s) w) := by
    intro l
    induction l with
    | nil => exact fun _ _ hw => hw
    | cons n l ih => exact fun hl w hw => ih (fun m hm => hl m (by simp [hm])) _ (hf w n (hl n (by simp)) hw)
  exact hl _ (fun n hn => (State.mem_bond hn).1) s h

theorem State.onlyNotes.eachLane {f : Nat → State → State} (h : s.onlyNotes u K) (hf : ∀ w, ∀ n < 6, s.onlyNotes w K → s.onlyNotes (f n w) K) :
    s.onlyNotes (u.eachLane t p f) K := State.eachLane_induct (P := fun w => s.onlyNotes w K) h hf

theorem State.onlyNotes.manualStep (h : s.onlyNotes u (laneWords t)) {n : Nat} (hn : n < 6) : s.onlyNotes (u.manualStep t n) (laneWords t) :=
  (h.wrLane hn).ite h

theorem State.onlyNotes_checkerStop (s : State) {n : Nat} (hn : n < 6) : s.onlyNotes (s.checkerStop t n) (laneWords t) :=
  State.onlyNotes.clrLane (s.onlyNotes_refl _).setPrbs hn

theorem State.onlyNotes_prbsStop (s : State) : s.onlyNotes (s.prbsStop t p) (laneWords t) :=
  State.onlyNotes.eachLane (s.onlyNotes_refl _) fun w _ hn hw => hw.trans (w.onlyNotes_checkerStop hn)

theorem State.onlyNotes_lanesL2 (s : State) : s.onlyNotes (s.lanesL2 t p) (laneWords t) :=
  State.onlyNotes.eachLane (s.onlyNotes_refl _) fun _ _ hn hw => (hw.clrLane hn).clrLane hn

/-! The states of a port (R85). -/

/-- What a port keeps as it enters a state. -/
def PortState.entered (x : PortState) (c now : Nat) : PortState :=
  { x with since := some now, rx := .idle, relock := x.relock && decide (2 ≤ c) && decide (c ≤ 4) }

/-- The lanes as their port enters a state: manual steps, and the loss of what the phases from there on establish (R83, R85). -/
def State.lanesEnter (s : State) (t p c : Nat) : State :=
  let s := if s.lanesOn t p then s.eachLane t p fun n s => s.manualStep t n else s
  let s := if c = 5 then s else s.eachLane t p fun n s => s.clrF t (LNK_LANE_STATUS_MARKER n)
  if c ≤ 2 ∨ 6 ≤ c then s.eachLane t p fun n s => (s.clrF t (LNK_LANE_STATUS_CDR_LOCK n)).clrF t (LNK_LANE_STATUS_BLOCK_LOCK n) else s

theorem State.enterPort_eq (s : State) (t p c : Nat) : s.enterPort t p c =
    (((s.updPort t p fun x => x.entered c s.tim.tb0).wr t (PortFld.state.fld p) c).lanesEnter t p c).absentUpdate t p := rfl

theorem State.onlyNotes_lanesEnter (s : State) (c : Nat) : s.onlyNotes (s.lanesEnter t p c) (laneWords t) := by
  have hstep := ((s.onlyNotes_refl (laneWords t)).eachLane (t := t) (p := p) fun _ _ hn hw => hw.manualStep hn).ite (c := (s.lanesOn t p = true)) (s.onlyNotes_refl _)
  have hmark := hstep.ite (c := (c = 5)) (hstep.eachLane (t := t) (p := p) fun _ _ hn hw => hw.clrLane (off := 0x4) (hi := 3) (lo := 3) hn)
  exact (hmark.eachLane fun _ _ hn hw => (hw.clrLane hn).clrLane hn).ite hmark

theorem State.onlyNotes_absentUpdate (s : State) : s.onlyNotes (s.absentUpdate t p) (linkWords t) := by
  have hnote := ((s.onlyNotes_refl (linkWords t)).wr (v := bitN (s.absentNow t p)) t.isLt (PortFld.absent.fld_ok p) (.inl ⟨rfl, rfl⟩)).pip (t := t) (src := 10 + p)
  exact (s.onlyNotes_refl _).ite (hnote.notify (.inr ⟨rfl, rfl, rfl⟩))

@[simp] theorem State.rd_absentUpdate (s : State) {a : PortFld} (h : a ≠ .absent) : (s.absentUpdate t p).rd t (a.fld p) = s.rd t (a.fld p) := by
  unfold State.absentUpdate
  dsimp only
  split
  · rfl
  · rw [State.rd_notify_port, State.rd_pip]
    exact s.rd_wr_port_ne t p (b := .absent) _ h

@[simp] theorem State.rd_enterPort_state (s : State) (c : Nat) : (s.enterPort t p c).rd t (PortFld.state.fld p) = c % 8 := by
  rw [State.enterPort_eq, State.rd_absentUpdate _ (by simp), State.rd_port_of_lanes (State.onlyNotes_lanesEnter _ c).keeps, State.rd_wr_port]
  rfl

@[simp] theorem State.rd_enterPort (s : State) (c : Nat) {a : PortFld} (hs : a ≠ .state) (ha : a ≠ .absent) :
    (s.enterPort t p c).rd t (a.fld p) = s.rd t (a.fld p) := by
  rw [State.enterPort_eq, State.rd_absentUpdate _ ha, State.rd_port_of_lanes (State.onlyNotes_lanesEnter _ c).keeps, State.rd_wr_port_ne _ _ _ _ hs,
    State.rd_updPort]

@[simp] theorem State.port_enterPort (s : State) (c : Nat) : (s.enterPort t p c).port t p = (s.port t p).entered c s.tim.tb0 := by
  rw [State.enterPort_eq, State.port_congr (State.onlyNotes_absentUpdate _).ports, State.port_congr (State.onlyNotes_lanesEnter _ c).ports,
    State.port_congr (State.ports_wr _ _ _ _), State.port_updPort_same]

theorem State.onlyPort_enterPort (s : State) (c : Nat) : s.onlyPort (s.enterPort t p c) (linkWords t) := by
  have hstate := (State.onlyNotes_refl (s.updPort t p fun x => x.entered c s.tim.tb0) (linkWords t)).wr (v := c) t.isLt (PortFld.state.fld_ok p) (.inl ⟨rfl, rfl⟩)
  have hlanes := hstate.trans ((State.onlyNotes_lanesEnter (p := p) _ c).mono fun _ _ _ => laneWords_linkWords)
  exact (s.onlyPort_refl _).updPort.notes (hlanes.trans (State.onlyNotes_absentUpdate (p := p) _))

/-! A packet in progress that is cut off (R89). -/

@[simp] theorem State.port_addSat (s : State) (t t' p n : Nat) (f : Fld) : (s.addSat t' f n).port t p = s.port t p := rfl

@[simp] theorem State.rd_cutPacket (s : State) {a : PortFld} (h : a ≠ .frameErr) : (s.cutPacket t p).rd t (a.fld p) = s.rd t (a.fld p) := by
  unfold State.cutPacket
  split
  · exact s.rd_addSat_port_ne t p (b := .frameErr) 1 h
  · rfl

@[simp] theorem State.rd_cutPacket_frameErr (s : State) : (s.cutPacket t p).rd t (PortFld.frameErr.fld p) =
    if s.portSt t p = 5 ∧ (s.port t p).rx.asm.isOpen then min (s.rd t (PortFld.frameErr.fld p) + 1) 0xFFFFFFFF else s.rd t (PortFld.frameErr.fld p) := by
  unfold State.cutPacket
  split
  · exact s.rd_addSat_port t p .frameErr 1
  · rfl

theorem State.port_cutPacket (s : State) : (s.cutPacket t p).port t p =
    if s.portSt t p = 5 ∧ (s.port t p).rx.asm.isOpen then { s.port t p with dirty := 15 } else s.port t p := by
  unfold State.cutPacket
  split
  · exact State.port_updPort_same _ _ _ _
  · rfl

/-- The words of a port's commands, and its count of framing errors. -/
def cutWords (t p : Nat) : WordSet := (linkWords t).or ((FXL_PORT_FRAME_ERR p).wordAt t)

theorem State.onlyPort_cutPacket (s : State) : s.onlyPort (s.cutPacket t p) (cutWords t p) := by
  have hcount := (s.onlyNotes_refl (cutWords t p)).addSat (n := 1) t.isLt (PortFld.frameErr.fld_ok p) (.inr ⟨rfl, rfl, rfl⟩)
  unfold State.cutPacket
  split
  · exact (State.onlyPort_of_onlyNotes hcount).updPort
  · exact s.onlyPort_refl _

end Lanes

end Sys2Proof.Machine
end

section
/-! SUPPORT. Enabling and training of a camera port (R74, R80, R84, R85, R92): ENABLE = 1, and the phases up to UP. -/

namespace Sys2Proof.Machine

variable {s u : State} {t : Tile} {p : Port}

theorem State.gives_of_exec {i : Instr} {P : State → Prop} (hi : exec i s = .next (s.after u)) (hP : P (s.after u)) : s.gives i P := ⟨_, hi, hP⟩

theorem State.not_is {t : Nat} {f : Fld} : ¬ s.is t f ↔ s.rd t f = 0 := by simp [State.is]

theorem State.powerState_eq (s : State) (t p : Nat) :
    s.powerState t p = s.wr t (PortFld.pstate.fld p) (if s.rd t (PortFld.wanted.fld p) = 2 then 2 else 0) := rfl

/-- ENABLE = 1 on a port that is refused (R74). -/
theorem State.portEnable_refused (hen : ¬ s.is t (LNK_PORT_CTRL_ENABLE p)) (hbad : s.rd t (LNK_PORT_CFG_RATE p) = 3 ∨ s.rd t (LNK_PORT_CFG_LANES p) = 0) :
    s.portEnable t p = s.setF t (PortFld.cfgInvalid.fld p) := by
  rw [State.portEnable, if_neg hen, if_pos hbad]
  rfl

/-- ENABLE = 1 on a port with a lawful configuration (R85). -/
theorem State.portEnable_lawful (hen : ¬ s.is t (LNK_PORT_CTRL_ENABLE p)) (hrate : s.rd t (LNK_PORT_CFG_RATE p) ≠ 3)
    (hlanes : s.rd t (LNK_PORT_CFG_LANES p) ≠ 0) : s.portEnable t p =
      if s.portSt t p = 0 then ((s.setF t (PortFld.enable.fld p)).powerState t p).enterPort t p 1 else s.setF t (PortFld.enable.fld p) := by
  rw [State.portEnable, if_neg hen, if_neg (by simp [hrate, hlanes])]
  have hst : (s.setF t (PortFld.enable.fld p)).portSt t p = s.portSt t p := s.rd_setF_port_ne t p (a := .state) (by simp)
  rw [← hst]
  rfl

/-- The port as training starts (R85). -/
theorem State.portStarts_spec (s : State) :
    let x := ((s.setF t (PortFld.enable.fld p)).powerState t p).enterPort t p 1
    x.rd t (PortFld.enable.fld p) = 1 ∧ x.rd t (PortFld.state.fld p) = 1 ∧
      x.rd t (PortFld.pstate.fld p) = (if s.rd t (PortFld.wanted.fld p) = 2 then 2 else 0) ∧ s.onlyPort x (linkWords t) := by
  refine ⟨by simp [State.powerState_eq], by simp, ?_, ((s.onlyPort_refl _).setPort.wrPort (a := .pstate)).trans (State.onlyPort_enterPort _ 1)⟩
  simp only [State.powerState_eq, State.rd_enterPort, ne_eq, reduceCtorEq, not_false_eq_true, State.rd_wr_port, State.rd_setF_port_ne]
  split <;> rfl

theorem State.exec_portEnable (hlive : s.live) (hfit : s.fit t) : exec (.portEnable t p) s = .next (s.after (s.portEnable t p)) :=
  onTile_live (f := fun s => s.portEnable t p) hlive hfit

/-! The phases (R85, R92). -/

/-- A phase whose condition is met is one of the four. -/
theorem State.portSt_of_phaseMet {m : List LaneMeas} (h : s.phaseMet t p m) : s.portSt t p ∈ [1, 2, 3, 4] := by
  unfold State.phaseMet at h
  rw [Bool.and_eq_true] at h
  obtain ⟨-, h⟩ := h
  split at h
  case h_5 => cases h
  all_goals
    next hst => simp [hst]

theorem State.exec_phaseComplete {m : List LaneMeas} (hlive : s.live) (hfit : s.fit t) (hmet : s.phaseMet t p m) (hnew : ¬ s.justEntered t p)
    (hloss : ¬ s.lossWaits t p) : exec (.phaseComplete t p m) s = .next (s.after (s.phaseComplete t p m)) :=
  whenEv_live (c := s.fit t && s.phaseMet t p m && !s.justEntered t p && !s.lossWaits t p) (f := fun s => s.phaseComplete t p m) hlive
    (by simp [hfit, hmet, hnew, hloss])

/-- The state that a phase leads to (R85, R92). -/
theorem State.phaseComplete_state {m : List LaneMeas} (hst : s.portSt t p ∈ [1, 2, 3, 4]) :
    (s.phaseComplete t p m).portSt t p = if s.portSt t p = 2 ∧ (s.port t p).relock then 4 else s.portSt t p + 1 := by
  have henter : ∀ (w : State) (c : Nat), c < 8 → (w.enterPort t p c).portSt t p = c := fun w c hc => by
    rw [State.portSt_eq, State.rd_enterPort_state, Nat.mod_eq_of_lt hc]
  unfold State.phaseComplete
  simp only [List.mem_cons, List.not_mem_nil, or_false] at hst
  rcases hst with hst | hst | hst | hst <;> rw [hst]
  · exact henter _ 2 (by decide)
  · by_cases hk : (s.port t p).relock
    · simp only [hk, if_true]
      exact henter _ 4 (by decide)
    · simp only [hk]
      exact henter _ 3 (by decide)
  · exact henter _ 4 (by decide)
  · exact henter _ 5 (by decide)

/-- Settles O22: a write that is refused, one that starts training, and the state that each phase leads to. -/
theorem portEnableAndTraining : Obligations.PortEnableAndTraining := by
  refine fun s t p hlive hfit => ⟨fun hen hbad => ?refused, fun hen hrate hlanes => ?lawful, fun m hmet hnew hloss => ?phase⟩
  case refused =>
    have hexec := State.exec_portEnable (p := p) hlive hfit
    rw [State.portEnable_refused hen hbad] at hexec
    have honly : s.onlyRegs (s.setF t (PortFld.cfgInvalid.fld p)) ((LNK_PORT_ERR p).wordAt t) :=
      s.onlyRegs_setF t.isLt (PortFld.cfgInvalid.fld_ok p) ⟨rfl, rfl, rfl⟩
    exact State.gives_of_onlyRegs hexec honly ⟨(s.rd_setF_port_ne t p (a := .enable) (by simp)).trans (State.not_is.1 hen),
      s.rd_setF_port_ne t p (a := .state) (by simp), s.rd_setF_port t p .cfgInvalid, honly⟩
  case lawful =>
    have hexec := State.exec_portEnable (p := p) hlive hfit
    rw [State.portEnable_lawful hen hrate hlanes] at hexec
    refine State.gives_of_exec hexec ?_
    obtain ⟨hen1, hst1, hps, honly⟩ := s.portStarts_spec (t := t) (p := p)
    by_cases hst : s.portSt t p = 0
    · rw [if_pos hst, if_pos hst]
      exact ⟨hen1, hst1, fun _ => hps, honly.keeps.2, honly.mem⟩
    · rw [if_neg hst, if_neg hst]
      have hset : s.onlyPort (s.setF t (PortFld.enable.fld p)) (linkWords t) := (s.onlyPort_refl _).setPort
      exact ⟨s.rd_setF_port t p .enable, s.rd_setF_port_ne t p (a := .state) (by simp), fun h => absurd h hst, hset.keeps.2, hset.mem⟩
  case phase =>
    have hst := State.portSt_of_phaseMet hmet
    refine ⟨?_, ?_, State.gives_of_exec (State.exec_phaseComplete hlive hfit hmet hnew hloss) (State.phaseComplete_state hst)⟩
    all_goals
      simp only [List.mem_cons, List.not_mem_nil, or_false] at hst
      omega

end Sys2Proof.Machine
end

section
/-! SUPPORT. A camera port leaves UP (R89, R91, R92): faults, ENABLE = 0, RETRAIN and the power states. -/

namespace Sys2Proof.Machine

variable {s u : State} {t : Tile} {p : Port}

/-! A drop. -/

@[simp] theorem State.rd_dropPort_state (s : State) : (s.dropPort t p).rd t (PortFld.state.fld p) = 1 := State.rd_enterPort_state _ 1

@[simp] theorem State.rd_dropPort_drops (s : State) :
    (s.dropPort t p).rd t (PortFld.drops.fld p) = min (s.rd t (PortFld.drops.fld p) + 1) 0xFFFFFFFF := by
  simp [State.dropPort, portFlds]

@[simp] theorem State.rd_dropPort_frameErr (s : State) : (s.dropPort t p).rd t (PortFld.frameErr.fld p) =
    if s.portSt t p = 5 ∧ (s.port t p).rx.asm.isOpen then min (s.rd t (PortFld.frameErr.fld p) + 1) 0xFFFFFFFF else s.rd t (PortFld.frameErr.fld p) := by
  simp [State.dropPort, portFlds]

@[simp] theorem State.rd_dropPort (s : State) {a : PortFld} (hs : a ≠ .state) (ha : a ≠ .absent) (hd : a ≠ .drops) (hf : a ≠ .frameErr) :
    (s.dropPort t p).rd t (a.fld p) = s.rd t (a.fld p) := by
  simp [State.dropPort, portFlds, hs, ha, hd, hf]

theorem State.dirty_dropPort (hst : s.portSt t p = 5) (hcut : (s.port t p).rx.asm.isOpen) : ((s.dropPort t p).port t p).dirty = 15 := by
  simp [State.dropPort, State.port_cutPacket, hst, hcut, PortState.entered]

theorem State.onlyPort.cutWords (h : s.onlyPort u (linkWords t)) : s.onlyPort u (cutWords t p) := h.mono fun _ _ _ => .inl

theorem State.onlyPort_dropPort (s : State) : s.onlyPort (s.dropPort t p) (cutWords t p) := by
  have hdrop := ((State.onlyPort_refl (s.cutPacket t p) _).addPort (t := t) (a := .drops) (p := p) (n := 1)).trans (State.onlyPort_enterPort (p := p) _ 1)
  exact s.onlyPort_cutPacket.trans hdrop.cutWords

/-! ENABLE = 0 (R91). -/

@[simp] theorem State.rd_setHold (s : State) (h : Nat) {a : PortFld} (ha : a ≠ .cal) : (s.setHold t p h).rd t (a.fld p) = s.rd t (a.fld p) :=
  (State.rd_wr_port_ne _ t p (b := .cal) _ ha).trans (s.rd_updPort _ _ _ _ _)

theorem State.onlyPort_setHold (s : State) (h : Nat) : s.onlyPort (s.setHold t p h) (linkWords t) := (s.onlyPort_refl _).updPort.wrPort (a := .cal)

/-- The lanes of a port that is switched off keep nothing (R91, R92). -/
def State.lanesOff (s : State) (t p : Nat) : State := (s.lanesL2 t p).eachLane t p fun n s => s.clrF t (LNK_LANE_STATUS_SKEW n)

theorem State.onlyNotes_lanesOff (s : State) : s.onlyNotes (s.lanesOff t p) (laneWords t) :=
  s.onlyNotes_lanesL2.eachLane fun _ _ hn hw => hw.clrLane hn

/-- The count of a port that ENABLE = 0 takes out of UP (R91). -/
def State.countDrop (s : State) (t p : Nat) (up : Bool) : State := if up then s.addSat t (LNK_PORT_DROPS p) 1 else s

theorem State.portDisable_eq (hst : s.portSt t p ≠ 0) : s.portDisable t p =
    ((((((((s.clrF t (PortFld.enable.fld p)).prbsStop t p).cutPacket t p).countDrop t p (s.portSt t p == 5)).setHold t p 0).lanesOff t p).wr t
      (PortFld.pstate.fld p) 2).enterPort t p 0) := by
  have hclr : (s.clrF t (PortFld.enable.fld p)).portSt t p = s.portSt t p := s.rd_clrF_port_ne t p (a := .state) (by simp)
  rw [← hclr] at hst ⊢
  rw [State.portDisable]
  exact if_neg hst

@[simp] theorem State.rd_countDrop (s : State) (up : Bool) {a : PortFld} (h : a ≠ .drops) : (s.countDrop t p up).rd t (a.fld p) = s.rd t (a.fld p) := by
  unfold State.countDrop
  split
  · exact s.rd_addSat_port_ne t p (b := .drops) 1 h
  · rfl

@[simp] theorem State.rd_countDrop_drops (s : State) (up : Bool) : (s.countDrop t p up).rd t (PortFld.drops.fld p) =
    if up then min (s.rd t (PortFld.drops.fld p) + 1) 0xFFFFFFFF else s.rd t (PortFld.drops.fld p) := by
  unfold State.countDrop
  split
  · exact s.rd_addSat_port t p .drops 1
  · rfl

theorem State.onlyPort_countDrop (s : State) (up : Bool) : s.onlyPort (s.countDrop t p up) (linkWords t) := by
  unfold State.countDrop
  split
  · exact (s.onlyPort_refl _).addPort (a := .drops)
  · exact s.onlyPort_refl _

@[simp] theorem State.rd_prbsStop (s : State) (a : PortFld) : (s.prbsStop t p).rd t (a.fld p) = s.rd t (a.fld p) :=
  State.rd_port_of_lanes s.onlyNotes_prbsStop.keeps a

@[simp] theorem State.port_prbsStop (s : State) : (s.prbsStop t p).port t p = s.port t p := State.port_congr s.onlyNotes_prbsStop.ports t p

@[simp] theorem State.rd_lanesOff (s : State) (a : PortFld) : (s.lanesOff t p).rd t (a.fld p) = s.rd t (a.fld p) :=
  State.rd_port_of_lanes s.onlyNotes_lanesOff.keeps a

theorem State.onlyPort.lanes (h : s.onlyPort u (linkWords t)) {v : State} (h' : u.onlyNotes v (laneWords t)) : s.onlyPort v (linkWords t) :=
  h.notes (h'.mono fun _ _ _ => laneWords_linkWords)

/-- What ENABLE = 0 leaves of a port that is not DISABLED (R91). -/
theorem State.portDisable_spec (hst : s.portSt t p ≠ 0) :
    let u := s.portDisable t p
    u.rd t (PortFld.enable.fld p) = 0 ∧ u.rd t (PortFld.state.fld p) = 0 ∧ u.rd t (PortFld.pstate.fld p) = 2 ∧
      u.rd t (PortFld.drops.fld p) = (if s.portSt t p = 5 then min (s.rd t (PortFld.drops.fld p) + 1) 0xFFFFFFFF else s.rd t (PortFld.drops.fld p)) ∧
      u.rd t (PortFld.frameErr.fld p) = (if s.portSt t p = 5 ∧ (s.port t p).rx.asm.isOpen then min (s.rd t (PortFld.frameErr.fld p) + 1) 0xFFFFFFFF
        else s.rd t (PortFld.frameErr.fld p)) ∧
      s.onlyPort u (cutWords t p) := by
  rw [State.portDisable_eq hst]
  refine ⟨by simp, by simp, by simp, by simp, by simp [State.portSt_eq]; rfl, ?_⟩
  have hclr : s.onlyPort (s.clrF t (PortFld.enable.fld p)) (linkWords t) := (s.onlyPort_refl _).wrPort
  have hstop := hclr.lanes (State.onlyNotes_prbsStop (p := p) _)
  have hcut := hstop.cutWords.trans (State.onlyPort_cutPacket (p := p) _)
  refine hcut.trans (State.onlyPort.cutWords ?_)
  exact (((State.onlyPort_countDrop _ _).trans (State.onlyPort_setHold _ 0)).lanes (State.onlyNotes_lanesOff _)).wrPort.trans (State.onlyPort_enterPort _ 0)

theorem State.exec_portDisable (hlive : s.live) (hfit : s.fit t) : exec (.portDisable t p) s = .next (s.after ((s.settle t p).portDisable t p)) :=
  onTile_live (f := fun s => (s.settle t p).portDisable t p) hlive hfit

/-! RETRAIN (R91). -/

theorem State.exec_portRetrain (hlive : s.live) (hfit : s.fit t) : exec (.portRetrain t p) s = .next (s.after ((s.settle t p).portRetrain t p)) :=
  onTile_live (f := fun s => (s.settle t p).portRetrain t p) hlive hfit

/-- A port that is not UP receives nothing. -/
theorem State.settle_of_down (h : s.portSt t p ≠ 5) : s.settle t p = s := if_neg h

theorem State.portRetrain_up (h : s.portSt t p = 5) : s.portRetrain t p = s.dropPort t p := by
  simp only [State.portRetrain, h]

theorem State.portRetrain_training (h : s.portSt t p ∈ [1, 2, 3, 4, 6]) : s.portRetrain t p = if s.inL0 t p then s.enterPort t p 1 else s := by
  simp only [List.mem_cons, List.not_mem_nil, or_false] at h
  rcases h with h | h | h | h | h <;> simp only [State.portRetrain, h]

theorem State.portRetrain_ignored (h : s.portSt t p ∈ [0, 7]) : s.portRetrain t p = s := by
  simp only [List.mem_cons, List.not_mem_nil, or_false] at h
  rcases h with h | h <;> simp only [State.portRetrain, h]

/-- Settles O23: the parts of `portDisable` in turn, and RETRAIN by the state of the port. -/
theorem portDisableAndRetrain : Obligations.PortDisableAndRetrain := by
  refine fun s t p hlive hfit => ⟨fun hst => ?disable, fun hst => ?up, fun hst hl0 => ?training, fun hst hl0 => ?outside, fun hst => ?ignored⟩
  case disable =>
    obtain ⟨hen, hst', hps, hdrops, herr, honly⟩ := State.portDisable_spec hst
    exact State.gives_of_exec (State.exec_portDisable hlive hfit) ⟨hen, hst', hps, hdrops, herr, honly.keeps.2, honly.mem⟩
  case up =>
    have hexec := State.exec_portRetrain (p := p) hlive hfit
    rw [State.portRetrain_up hst] at hexec
    exact State.gives_of_exec hexec ⟨State.rd_dropPort_state _, State.rd_dropPort_drops _,
      State.rd_dropPort _ (a := .backoff) (by simp) (by simp) (by simp) (by simp), fun hcut => State.dirty_dropPort hst hcut⟩
  all_goals have hexec := State.exec_portRetrain (p := p) hlive hfit
  all_goals rw [State.settle_of_down (by intro h; simp [h] at hst)] at hexec
  case training =>
    rw [State.portRetrain_training hst, if_pos hl0] at hexec
    exact State.gives_of_exec hexec ⟨State.rd_enterPort_state _ 1, State.rd_enterPort _ 1 (a := .drops) (by simp) (by simp),
      State.rd_enterPort _ 1 (a := .fails) (by simp) (by simp), State.rd_enterPort _ 1 (a := .backoff) (by simp) (by simp)⟩
  case outside => rwa [State.portRetrain_training hst, if_neg hl0] at hexec
  case ignored => rwa [State.portRetrain_ignored hst] at hexec

end Sys2Proof.Machine
end

section
/-! SUPPORT. The power states of a camera port (R92). -/

namespace Sys2Proof.Machine

variable {s u : State} {t : Tile} {p : Port}

/-! Writes of PSTATE (R92). -/

/-- A power state is taken: CTRL and STATUS show it. -/
def State.powerTo (s : State) (t p v : Nat) : State := (s.wr t (LNK_PORT_CTRL_PSTATE p) v).wr t (LNK_PORT_STATUS_PSTATE p) v

@[simp] theorem State.rd_powerTo_pstate (s : State) (v : Nat) : (s.powerTo t p v).rd t (PortFld.pstate.fld p) = v % 4 := State.rd_wr_port _ t p .pstate v

@[simp] theorem State.rd_powerTo (s : State) (v : Nat) {a : PortFld} (hw : a ≠ .wanted) (hp : a ≠ .pstate) :
    (s.powerTo t p v).rd t (a.fld p) = s.rd t (a.fld p) := by
  rw [State.powerTo, portFlds p |>.2.2.1, portFlds p |>.2.2.2.2.2.2.2.1, State.rd_wr_port_ne _ _ _ _ hp, State.rd_wr_port_ne _ _ _ _ hw]

theorem State.setPstate_refused {v : Nat} (h : v = 3 ∨ v = 1 ∧ s.portSt t p ≠ 5) : s.setPstate t p v = s.setF t (PortFld.refused.fld p) := if_pos h

theorem State.setPstate_disabled {v : Nat} (hv : v ≠ 3) (hv1 : v ≠ 1) (h : s.portSt t p = 0) : s.setPstate t p v = s.wr t (PortFld.wanted.fld p) v := by
  unfold State.setPstate
  rw [if_neg (by simp [hv, hv1]), if_pos h]
  rfl

theorem State.setPstate_l1 (h : s.portSt t p = 5) : s.setPstate t p 1 = ((s.cutPacket t p).powerTo t p 1).enterPort t p 2 := by
  unfold State.setPstate
  rw [if_neg (by simp [h]), if_neg (by simp [h])]
  rfl

theorem State.setPstate_l2 (h : s.portSt t p = 5) :
    s.setPstate t p 2 = ((((s.cutPacket t p).powerTo t p 2).setHold t p 0).lanesL2 t p).enterPort t p 1 := by
  unfold State.setPstate
  rw [if_neg (by simp), if_neg (by simp [h])]
  exact if_neg (by simp [h])

theorem State.setPstate_l0_of_l1 (h : s.portSt t p ≠ 0) (hps : s.rd t (PortFld.pstate.fld p) = 1) :
    s.setPstate t p 0 = ((s.powerTo t p 0).updPort t p fun x => { x with relock := true }).enterPort t p 2 := by
  unfold State.setPstate
  rw [if_neg (by simp), if_neg h]
  simp only [portFlds, hps]
  rfl

theorem State.setPstate_l0_of_l2 (h0 : s.portSt t p ≠ 0) (h7 : s.portSt t p ≠ 7) (hps : s.rd t (PortFld.pstate.fld p) = 2) :
    s.setPstate t p 0 = (s.powerTo t p 0).enterPort t p 1 := by
  unfold State.setPstate
  rw [if_neg (by simp), if_neg h0]
  simp only [portFlds, hps]
  exact if_neg h7

@[simp] theorem State.rd_lanesL2 (s : State) (a : PortFld) : (s.lanesL2 t p).rd t (a.fld p) = s.rd t (a.fld p) :=
  State.rd_port_of_lanes s.onlyNotes_lanesL2.keeps a

theorem State.exec_pstate {v : Fin 4} (hlive : s.live) (hfit : s.fit t) {n : Nat} (hv : v.val = n) :
    exec (.pstate t p v) s = .next (s.after (s.pstateWrite t p n)) := by
  subst hv
  exact onTile_live (f := fun s => s.pstateWrite t p v) hlive hfit

/-- L1 and L2 take the port out of UP, behind what it receives in the cycle (R92). -/
theorem State.pstateWrite_low {v : Nat} (h : v = 1 ∨ v = 2) : s.pstateWrite t p v = (s.settle t p).setPstate t p v := by
  rw [State.pstateWrite, if_pos h]

theorem State.pstateWrite_other {v : Nat} (h : ¬ (v = 1 ∨ v = 2)) : s.pstateWrite t p v = s.setPstate t p v := by
  rw [State.pstateWrite, if_neg h]

/-- Settles O24: one case for each way that a write of PSTATE takes. -/
theorem powerStates : Obligations.PowerStates := by
  intro s t p v hlive hfit x
  have hexec : ∀ n : Nat, v.val = n → _ := fun n => State.exec_pstate (p := p) hlive hfit
  refine ⟨?three, ?one, ?l1, ?l2, ?l0from2, ?l0from1, ?disabled⟩
  case three =>
    rintro rfl
    have hexec := hexec 3 rfl
    rw [State.pstateWrite_other (by decide), State.setPstate_refused (.inl rfl)] at hexec
    have honly : s.onlyRegs (s.setF t (PortFld.refused.fld p)) ((LNK_PORT_ERR p).wordAt t) :=
      s.onlyRegs_setF t.isLt (PortFld.refused.fld_ok p) ⟨rfl, rfl, rfl⟩
    exact State.gives_of_onlyRegs hexec honly ⟨s.rd_setF_port t p .refused, honly⟩
  case one =>
    rintro rfl hst
    have hexec := hexec 1 rfl
    rw [State.pstateWrite_low (.inl rfl), State.setPstate_refused (.inr ⟨rfl, hst⟩)] at hexec
    exact State.gives_of_exec hexec ⟨x.rd_setF_port t p .refused, (x.onlyRegs_setF t.isLt (PortFld.refused.fld_ok p) ⟨rfl, rfl, rfl⟩).2⟩
  case l1 =>
    rintro rfl hst
    have hexec := hexec 1 rfl
    rw [State.pstateWrite_low (.inl rfl), State.setPstate_l1 hst] at hexec
    refine State.gives_of_exec hexec ⟨?_, ?_, ?_⟩ <;> simp [portFlds, State.portSt_eq, x]
  case l2 =>
    rintro rfl hst
    have hexec := hexec 2 rfl
    rw [State.pstateWrite_low (.inr rfl), State.setPstate_l2 hst] at hexec
    refine State.gives_of_exec hexec ⟨?_, ?_, ?_⟩ <;> simp [portFlds, State.portSt_eq, x]
  case l0from2 =>
    rintro rfl hst hps
    have hexec := hexec 0 rfl
    rw [State.pstateWrite_other (by decide),
      State.setPstate_l0_of_l2 (by rintro h; simp [h] at hst) (by rintro h; simp [h] at hst) hps] at hexec
    refine State.gives_of_exec hexec ⟨?_, ?_⟩ <;> simp [portFlds, State.portSt_eq]
  case l0from1 =>
    rintro rfl hst hps
    have hexec := hexec 0 rfl
    rw [State.pstateWrite_other (by decide), State.setPstate_l0_of_l1 hst hps] at hexec
    refine State.gives_of_exec hexec ⟨?_, ?_, ?_⟩
    · simp [portFlds]
    · simp [State.portSt_eq]
    · show (((_ : State).enterPort t p 2).port t p).relock = true
      rw [State.port_enterPort, State.port_updPort_same]
      rfl
  case disabled =>
    intro hv hst
    have hdown : s.settle t p = s := State.settle_of_down (by rw [hst]; decide)
    have hwrite : s.pstateWrite t p v = s.wr t (PortFld.wanted.fld p) v := by
      rw [State.pstateWrite, hdown, ite_self]
      exact State.setPstate_disabled (by rintro h; simp [Fin.ext_iff, h] at hv) (by rintro h; simp [Fin.ext_iff, h] at hv) hst
    have hexec := hexec v rfl
    rw [hwrite] at hexec
    refine State.gives_of_exec hexec ⟨?_, (s.onlyRegs_wr _ t.isLt (PortFld.wanted.fld_ok p) ⟨rfl, rfl, rfl⟩).2⟩
    exact (s.rd_wr_port t p .wanted v).trans (Nat.mod_eq_of_lt v.isLt)

end Sys2Proof.Machine
end

section
/-! SUPPORT. Training failures and backoff (R87). -/

namespace Sys2Proof.Machine

variable {s u : State} {t : Tile} {p : Port}

theorem State.onlyNotes_setSignals (s : State) (l : List LaneMeas) : s.onlyNotes (s.setSignals t l) (laneWords t) := by
  induction l generalizing s with
  | nil => exact s.onlyNotes_refl _
  | cons m l ih =>
    have hset : s.onlyNotes (if m.signal then s.setF t (LNK_LANE_STATUS_SIGNAL m.lane) else s) (laneWords t) :=
      State.onlyNotes.ite ((s.onlyNotes_refl _).setF t.isLt (laneFld_ok m.lane.isLt (by decide) (by decide) (by decide)) (laneFld_mem t m.lane.isLt (by decide)))
        (s.onlyNotes_refl _)
    exact hset.trans (ih _)

/-- DESKEW times out with a skew beyond R80. -/
def State.skewFails (s : State) (t p : Nat) (m : List LaneMeas) : Bool :=
  s.portSt t p == 4 && (s.bondMeas t p m).length == (s.bond t p).length && skewed (s.bondMeas t p m)

/-- What a failure counts and keeps (R87, R108). -/
def State.failCounts (s : State) (t p : Nat) (m : List LaneMeas) : State :=
  ((((s.setSignals t (s.bondMeas t p m)).setIf (s.skewFails t p m) t (PortFld.skew.fld p)).addSat t (PortFld.fails.fld p) 1).wr t (PortFld.failPhase.fld p)
    (s.portSt t p)).wr t (PortFld.backoff.fld p) (nextBackoff (s.rd t (PortFld.backoff.fld p)))

theorem State.trainingFailure_eq (s : State) (m : List LaneMeas) : s.trainingFailure t p m =
    (((((s.failCounts t p m).updPort t p fun x => { x with failed := x.hold == 1 || x.failed }).setHold t p 0).enterPort t p 6).notify 0x0001 (t * 2 + p)
      (s.portSt t p) (s.rd t (PortFld.backoff.fld p)) 0) := rfl

@[simp] theorem State.rd_setIf_port_ne (s : State) (c : Bool) {a b : PortFld} (h : a ≠ b) : (s.setIf c t (b.fld p)).rd t (a.fld p) = s.rd t (a.fld p) := by
  rw [State.setIf]
  split
  · exact s.rd_setF_port_ne t p h
  · rfl

@[simp] theorem State.rd_setSignals (s : State) (l : List LaneMeas) (a : PortFld) : (s.setSignals t l).rd t (a.fld p) = s.rd t (a.fld p) :=
  State.rd_port_of_lanes (s.onlyNotes_setSignals l).keeps a

theorem State.rd_failCounts_skew (s : State) (m : List LaneMeas) : (s.failCounts t p m).rd t (PortFld.skew.fld p) =
    if s.skewFails t p m then 1 else s.rd t (PortFld.skew.fld p) := by
  simp only [State.failCounts, ne_eq, reduceCtorEq, not_false_eq_true, State.rd_wr_port_ne, State.rd_addSat_port_ne]
  rw [State.setIf]
  split
  · exact State.rd_setF_port _ t p .skew
  · exact s.rd_setSignals _ .skew

theorem nextBackoff_lt (b : Nat) : nextBackoff b < 1024 := Nat.lt_of_le_of_lt (Nat.min_le_right _ _) (by decide)

theorem State.onlyPort_failCounts (s : State) (m : List LaneMeas) : s.onlyPort (s.failCounts t p m) (linkWords t) := by
  have hsig := (s.onlyPort_refl (linkWords t)).lanes (s.onlyNotes_setSignals (t := t) (s.bondMeas t p m))
  have hskew := hsig.notes ((State.onlyNotes_refl _ _).setIf (c := s.skewFails t p m) t.isLt (PortFld.skew.fld_ok p) (.inl ⟨rfl, rfl⟩))
  exact ((hskew.addPort (a := .fails) (n := 1)).wrPort (a := .failPhase)).wrPort (a := .backoff)

theorem State.onlyPort_trainingFailure (s : State) (m : List LaneMeas) : s.onlyPort (s.trainingFailure t p m) (linkWords t) := by
  have hfail := (s.onlyPort_failCounts (t := t) (p := p) m).updPort (t := t) (p := p) (f := fun x => { x with failed := x.hold == 1 || x.failed })
  have henter := (hfail.trans (State.onlyPort_setHold (p := p) _ 0)).trans (State.onlyPort_enterPort (p := p) _ 6)
  exact henter.notes ((State.onlyNotes_refl _ _).notify (.inr ⟨rfl, rfl, rfl⟩))

theorem State.exec_trainingFailure {m : List LaneMeas} (hlive : s.live) (hfit : s.fit t) (hout : s.canTimeOut t p) (hwaits : ¬ s.phaseWaits t p) :
    exec (.trainingFailure t p m) s = .next (s.after (s.trainingFailure t p m)) :=
  whenEv_live (c := s.fit t && s.canTimeOut t p && !s.phaseWaits t p) (f := fun s => s.trainingFailure t p m) hlive (by simp [hfit, hout, hwaits])

theorem whenEv_not {s : State} {c : Bool} (h : c = false) (f : State → State) : whenEv s c f = .next s := by
  rw [whenEv, if_neg (by simp [h]), finish, ite_self]
  rfl

/-- Settles O25: a failure field by field, and the two ends of a backoff. -/
theorem trainingFailureBacksOff : Obligations.TrainingFailureBacksOff := by
  refine fun s t p hlive hfit => ⟨fun m hout hwaits => ?fails, fun m hwaits => ?waits, fun hst => ?expiry, fun hst => ?reset⟩
  case fails =>
    refine State.gives_of_exec (State.exec_trainingFailure hlive hfit hout hwaits) ?_
    have honly := s.onlyPort_trainingFailure (t := t) (p := p) m
    rw [State.trainingFailure_eq] at honly ⊢
    refine ⟨?_, ?_, ?_, ?_, ?_, honly.keeps.2, honly.mem⟩
    · simp [State.portSt_eq]
    · simp [portFlds, State.failCounts]
    · have hlt : s.portSt t p < 8 := s.rd_lt t (LNK_PORT_STATUS_STATE p)
      simp [portFlds, State.failCounts, Nat.mod_eq_of_lt hlt]
    · simp only [portFlds, State.rd_after, State.rd_notify_port, State.rd_enterPort, State.rd_setHold, State.rd_updPort, State.failCounts, State.rd_wr_port, ne_eq,
        reduceCtorEq, not_false_eq_true]
      exact Nat.mod_eq_of_lt (nextBackoff_lt _)
    · simp only [portFlds, State.rd_after, State.rd_notify_port, State.rd_enterPort, State.rd_setHold, State.rd_updPort, State.rd_failCounts_skew, ne_eq,
        reduceCtorEq, not_false_eq_true]
      simp [State.skewFails, and_assoc]
  case waits => exact whenEv_not (c := s.fit t && s.canTimeOut t p && !s.phaseWaits t p) (by simp [hwaits]) fun s => s.trainingFailure t p m
  case expiry =>
    have hexec : exec (.backoffExpiry t p) s = .next (s.after (s.enterPort t p 1)) :=
      whenEv_live (c := s.fit t && s.portSt t p == 6) (f := fun s => s.enterPort t p 1) hlive (by simp [hfit, hst])
    exact State.gives_of_exec hexec ⟨s.rd_enterPort_state 1, s.rd_enterPort 1 (a := .backoff) (by simp) (by simp), (s.onlyPort_enterPort 1).keeps.2⟩
  case reset =>
    have hexec : exec (.backoffReset t p) s = .next (s.after (s.wr t (PortFld.backoff.fld p) 10)) :=
      whenEv_live (c := s.fit t && s.portSt t p == 5) (f := fun s => s.wr t (LNK_PORT_STATUS_BACKOFF_MS p) 10) hlive (by simp [hfit, hst])
    have honly : s.onlyRegs (s.wr t (PortFld.backoff.fld p) 10) ((LNK_PORT_STATUS p).wordAt t) :=
      s.onlyRegs_wr _ t.isLt (PortFld.backoff.fld_ok p) ⟨rfl, rfl, rfl⟩
    exact State.gives_of_onlyRegs hexec honly ⟨s.rd_wr_port t p .backoff 10, honly⟩

end Sys2Proof.Machine
end

section
/-! SUPPORT. The lanes of a camera port: loss of signal and of block lock (R86, R89), slips and block lock gained (R86). -/

namespace Sys2Proof.Machine

variable {s u : State} {t : Tile} {p : Port} {n k : Nat}

/-! A flag of a lane's status that is 0 stays so while its port leaves UP. -/

/-- Bit `k` of the status of lane `n`: SIGNAL, CDR_LOCK, BLOCK_LOCK, MARKER (R108). -/
def laneFlag (n k : Nat) : Fld := ⟨3, 4 + 0x40 * n, k, k⟩

theorem laneFlag_ok (hn : n < 6) (hk : k < 4) : (laneFlag n k).ok := laneFld_ok hn (by decide) (Nat.le_refl k) (by omega)

theorem State.rd_setF_laneFlag (hn : n < 6) (hk : k < 4) : (s.setF t (laneFlag n k)).rd t (laneFlag n k) = 1 := by
  rw [State.rd_setF _ _ _ (laneFlag_ok hn hk)]
  show 2 ^ (k + 1 - k) - 1 = 1
  rw [Nat.add_sub_cancel_left]
  rfl

theorem State.laneFlag_clr (hn : n < 6) (hk : k < 4) {m j : Nat} (hm : m < 6) (hj : j < 4) (h : s.rd t (laneFlag n k) = 0) :
    (s.clrF t (laneFlag m j)).rd t (laneFlag n k) = 0 := by
  by_cases he : laneFlag n k = laneFlag m j
  · rw [he]
    exact s.rd_clrF t _ (laneFlag_ok hm hj)
  · refine (s.rd_wr_ne 0 t.isLt t.isLt (laneFlag_ok hn hk) (laneFlag_ok hm hj) (.inr ?_)).trans h
    unfold laneFlag Fld.apart at *
    simp only [Fld.mk.injEq, true_and] at he
    dsimp only
    omega

theorem State.laneFlag_wrPort (hn : n < 6) (hk : k < 4) (a : PortFld) (v : Nat) : (s.wr t (a.fld p) v).rd t (laneFlag n k) = s.rd t (laneFlag n k) := by
  refine s.rd_wr_ne v t.isLt t.isLt (laneFlag_ok hn hk) (a.fld_ok p) (.inr ?_)
  have := a.fld_place p
  unfold laneFlag Fld.apart
  dsimp only
  omega

theorem State.laneFlag_lanesEnter (hn : n < 6) (hk : k < 4) (c : Nat) (h : s.rd t (laneFlag n k) = 0) : (s.lanesEnter t p c).rd t (laneFlag n k) = 0 := by
  have hstep : ∀ w : State, ∀ m < 6, w.rd t (laneFlag n k) = 0 → (w.manualStep t m).rd t (laneFlag n k) = 0 := fun w m hm hw => by
    unfold State.manualStep
    split
    · refine (w.rd_wr_ne _ t.isLt t.isLt (laneFlag_ok hn hk) (laneFld_ok hm (by decide) (by decide) (by decide)) (.inr (.inr (.inr (.inl ?_))))).trans hw
      show k < 4
      exact hk
    · exact hw
  unfold State.lanesEnter
  dsimp only
  have hmanual : (if s.lanesOn t p then s.eachLane t p fun n s => s.manualStep t n else s).rd t (laneFlag n k) = 0 := by
    split
    · exact State.eachLane_induct (P := fun w => w.rd t (laneFlag n k) = 0) h hstep
    · exact h
  generalize (if s.lanesOn t p then s.eachLane t p fun n s => s.manualStep t n else s) = w at hmanual
  have hmark : (if c = 5 then w else w.eachLane t p fun n s => s.clrF t (LNK_LANE_STATUS_MARKER n)).rd t (laneFlag n k) = 0 := by
    split
    · exact hmanual
    · exact State.eachLane_induct (P := fun w => w.rd t (laneFlag n k) = 0) hmanual fun w m hm hw => State.laneFlag_clr hn hk hm (j := 3) (by decide) hw
  split
  · exact State.eachLane_induct (P := fun w => w.rd t (laneFlag n k) = 0) hmark fun w m hm hw =>
      State.laneFlag_clr hn hk hm (j := 2) (by decide) (State.laneFlag_clr hn hk hm (j := 1) (by decide) hw)
  · exact hmark

theorem laneFlag_not_lost : ¬ CHN_NOTIFY_LOST.wordAt 0 t (laneFlag n k).blk (laneFlag n k).off := by
  rintro ⟨-, hblk, -⟩
  exact absurd hblk (show ¬ (3 : Nat) = 0x11 by decide)

theorem State.laneFlag_absentUpdate (hn : n < 6) (hk : k < 4) : (s.absentUpdate t p).rd t (laneFlag n k) = s.rd t (laneFlag n k) := by
  unfold State.absentUpdate
  dsimp only
  split
  · rfl
  · rw [State.rd_of_keeps (State.keeps_notify _ _ _ _ _ _) t.isLt (laneFlag_ok hn hk) laneFlag_not_lost, State.rd_pip]
    exact State.laneFlag_wrPort (p := p) hn hk .absent _

theorem State.laneFlag_enterPort (hn : n < 6) (hk : k < 4) (c : Nat) (h : s.rd t (laneFlag n k) = 0) : (s.enterPort t p c).rd t (laneFlag n k) = 0 := by
  rw [State.enterPort_eq, State.laneFlag_absentUpdate hn hk]
  refine State.laneFlag_lanesEnter hn hk c ?_
  rwa [State.laneFlag_wrPort hn hk, State.rd_updPort]

theorem State.laneFlag_addPort (hn : n < 6) (hk : k < 4) (a : PortFld) (v : Nat) : (s.addSat t (a.fld p) v).rd t (laneFlag n k) = s.rd t (laneFlag n k) :=
  State.laneFlag_wrPort hn hk a _

theorem State.laneFlag_setPort (hn : n < 6) (hk : k < 4) (a : PortFld) : (s.setF t (a.fld p)).rd t (laneFlag n k) = s.rd t (laneFlag n k) := by
  rw [State.rd_setF_eq, State.laneFlag_wrPort hn hk]

theorem State.cutPacket_eq (s : State) (t p : Nat) : s.cutPacket t p =
    if s.portSt t p = 5 ∧ (s.port t p).rx.asm.isOpen then (s.addSat t (PortFld.frameErr.fld p) 1).markDirty t p else s := rfl

theorem State.dropPort_eq (s : State) (t p : Nat) : s.dropPort t p = ((s.cutPacket t p).addSat t (PortFld.drops.fld p) 1).enterPort t p 1 := rfl

theorem State.laneFlag_dropPort (hn : n < 6) (hk : k < 4) (h : s.rd t (laneFlag n k) = 0) : (s.dropPort t p).rd t (laneFlag n k) = 0 := by
  rw [State.dropPort_eq]
  refine State.laneFlag_enterPort hn hk 1 ?_
  rw [State.laneFlag_addPort hn hk, State.cutPacket_eq]
  split
  · rwa [State.markDirty, State.rd_updPort, State.laneFlag_addPort hn hk]
  · exact h

/-! Blocks of a lane. -/

theorem PortRx.lane_updLane (x : PortRx) (k j : Nat) (f : LaneState → LaneState) : (x.updLane k f).lane j = if j = k then f (x.lane j) else x.lane j := by
  unfold PortRx.lane PortRx.updLane smUpd
  rw [smGet_set]
  split
  · next h => rw [h]
  · rfl

theorem State.asm_updLane (s : State) (t p k t' p' : Nat) (f : LaneState → LaneState) :
    ((s.updLane t p k f).port t' p').rx.asm = (s.port t' p').rx.asm := by
  rw [State.updLane, State.port_updPort]
  split <;> rfl

theorem State.onlyPort.addLane (h : s.onlyPort u (laneWords t)) {n off hi lo x : Nat} (hn : n < 6) (hoff : off < 0x40 := by decide)
    (hlo : lo ≤ hi := by decide) (hhi : hi < 32 := by decide) : s.onlyPort (u.addSat t ⟨3, off + 0x40 * n, hi, lo⟩ x) (laneWords t) :=
  h.notes ((u.onlyNotes_refl _).addSat t.isLt (laneFld_ok hn hoff hlo hhi) (laneFld_mem t hn hoff))

theorem State.onlyPort_laneHead (s : State) (hn : n < 6) (b : BitVec 66) : s.onlyPort (s.laneHead t n b) (laneWords t) := by
  have hupd : s.onlyPort (s.updLane t (n / 3) (n % 3) fun x => { x with heads := headPush x.heads (headOk (s.headOf t n b)) }) (laneWords t) :=
    (s.onlyPort_refl _).updPort
  unfold State.laneHead
  dsimp only
  split
  · exact hupd
  · exact hupd.addLane hn

theorem State.onlyPort_laneBlocks (s : State) (hn : n < 6) (l : List (BitVec 66)) : s.onlyPort (s.laneBlocks t n l) (laneWords t) := by
  induction l generalizing s with
  | nil => exact s.onlyPort_refl _
  | cons b l ih => exact (s.onlyPort_laneHead hn b).trans (ih _)

theorem State.asm_laneHead (s : State) (t n t' p' : Nat) (b : BitVec 66) : ((s.laneHead t n b).port t' p').rx.asm = (s.port t' p').rx.asm := by
  unfold State.laneHead
  dsimp only
  split
  · exact s.asm_updLane _ _ _ _ _ _
  · exact s.asm_updLane _ _ _ _ _ _

theorem State.asm_laneBlocks (s : State) (t n t' p' : Nat) (l : List (BitVec 66)) : ((s.laneBlocks t n l).port t' p').rx.asm = (s.port t' p').rx.asm := by
  induction l generalizing s with
  | nil => rfl
  | cons b l ih => exact (ih _).trans (s.asm_laneHead _ _ _ _ b)

/-! Faults of a port that is UP (R89). -/

/-- A port that is UP drops: what it counts, and the state it is in. -/
def State.leaves (x u : State) (t p : Nat) : Prop :=
  u.rd t (PortFld.state.fld p) = 1 ∧ u.rd t (PortFld.drops.fld p) = min (x.rd t (PortFld.drops.fld p) + 1) 0xFFFFFFFF ∧
    u.rd t (PortFld.frameErr.fld p) =
      (if (x.port t p).rx.asm.isOpen then min (x.rd t (PortFld.frameErr.fld p) + 1) 0xFFFFFFFF else x.rd t (PortFld.frameErr.fld p)) ∧
    u.rd t (PortFld.backoff.fld p) = x.rd t (PortFld.backoff.fld p) ∧ u.mem = x.mem

/-- A drop leaves UP, whatever has gone before that the port's own fields and its packet do not show. -/
theorem State.leaves_dropPort {x y : State} (hst : y.portSt t p = 5) (hfld : ∀ a : PortFld, a ≠ .losUp → y.rd t (a.fld p) = x.rd t (a.fld p))
    (hasm : (y.port t p).rx.asm = (x.port t p).rx.asm) (hmem : y.mem = x.mem) : x.leaves (y.dropPort t p) t p := by
  refine ⟨y.rd_dropPort_state, ?_, ?_, ?_, y.onlyPort_dropPort.mem.trans hmem⟩
  · rw [State.rd_dropPort_drops, hfld .drops (by simp)]
  · rw [State.rd_dropPort_frameErr, hfld .frameErr (by simp), hasm]
    simp [hst]
  · rw [State.rd_dropPort _ (by simp) (by simp) (by simp) (by simp), hfld .backoff (by simp)]

/-- The lane as it has lost block lock. -/
def State.unlocked (s : State) (t n : Nat) : State :=
  (s.clrF t (LNK_LANE_STATUS_BLOCK_LOCK n)).updLane t (n / 3) (n % 3) fun x => { x with heads := [] }

theorem State.onlyPort_unlocked (s : State) (hn : n < 6) : s.onlyPort (s.unlocked t n) (laneWords t) :=
  (State.onlyPort_of_onlyNotes ((s.onlyNotes_refl _).clrLane hn)).updPort

theorem State.lockLoss_up (hp : n / 3 = p) (hst : (s.unlocked t n).portSt t p = 5) : s.lockLoss t n = (s.unlocked t n).dropPort t p := by
  unfold State.lockLoss State.unlocked at *
  rw [hp] at hst ⊢
  exact if_pos hst

theorem State.signalLoss_up (hp : n / 3 = p) (hst : (s.clrF t (laneFlag n 0)).portSt t p = 5) :
    s.signalLoss t n = ((s.clrF t (laneFlag n 0)).setF t (PortFld.losUp.fld p)).dropPort t p := by
  change (s.clrF t (LNK_LANE_STATUS_SIGNAL n)).portSt t p = 5 at hst
  rw [State.signalLoss, hp]
  simp only [hst]
  rfl

theorem State.exec_lossOfSignal {n : Lane} (hlive : s.live) (hfit : s.fit t) (hbond : s.inBond t n) :
    exec (.lossOfSignal t n) s = .next (s.after ((s.settle t (n / 3)).signalLoss t n)) :=
  whenEv_live (c := s.fit t && s.inBond t n) (f := fun s => (s.settle t (n / 3)).signalLoss t n) hlive (by simp [hfit, hbond])

theorem State.exec_blockLockLoss {n : Lane} {bl : List (BitVec 66)} (hlive : s.live) (hfit : s.fit t) (hbond : s.inBond t n)
    (hgone : (s.laneBlocks t n bl).lockGone t n) : exec (.blockLockLoss t n bl) s = .next (s.after (s.blocksLoseLock t n bl)) :=
  whenEv_live (c := s.fit t && s.inBond t n && (s.laneBlocks t n bl).lockGone t n) (f := fun s => s.blocksLoseLock t n bl) hlive (by simp [hfit, hbond, hgone])

/-- Settles O26: each fault is a drop, behind what the lane loses. -/
theorem faultsLeaveUp : Obligations.FaultsLeaveUp := by
  intro s t p n hlive hfit hbond hp x left hst
  have hn : (n : Nat) < 6 := n.isLt
  refine ⟨?signal, fun bl hgone hgone' => ?lock, fun hst' => ?align⟩
  case signal =>
    have hclr := (State.onlyPort_of_onlyNotes ((x.onlyNotes_refl (laneWords t)).clrLane (t := t) (off := 0x4) (hi := 0) (lo := 0) hn))
    have hfld := fun a => State.rd_port_of_lanes (p := p) hclr.keeps a
    have hexec := State.exec_lossOfSignal hlive hfit hbond
    rw [hp, State.signalLoss_up hp ((hfld .state).trans hst)] at hexec
    refine State.gives_of_exec hexec ⟨?_, ?_, ?_⟩
    · exact State.leaves_dropPort ((State.rd_setF_port_ne _ t p (a := .state) (b := .losUp) (by simp)).trans ((hfld .state).trans hst))
        (fun a ha => (State.rd_setF_port_ne _ t p (b := .losUp) ha).trans (hfld a)) rfl rfl
    · refine (State.rd_dropPort _ (a := .losUp) (by simp) (by simp) (by simp) (by simp)).trans ?_
      exact State.rd_setF_port _ t p .losUp
    · refine State.laneFlag_dropPort (k := 0) hn (by decide) ((State.laneFlag_setPort hn (by decide) .losUp).trans ?_)
      exact x.rd_clrF t _ (laneFlag_ok hn (by decide))
  case lock =>
    have hblocks := (x.onlyPort_laneBlocks (t := t) hn bl).trans (State.onlyPort_unlocked _ hn)
    have hfld := fun a => State.rd_port_of_lanes (p := p) hblocks.keeps a
    have hexec := State.exec_blockLockLoss hlive hfit hbond hgone
    have hwork : s.blocksLoseLock t n bl = ((x.laneBlocks t n bl).unlocked t n).dropPort t p := by
      rw [State.blocksLoseLock, hp]
      exact (if_pos hgone').trans (State.lockLoss_up hp ((hfld .state).trans hst))
    rw [hwork] at hexec
    refine State.gives_of_exec hexec ⟨?_, ?_, ?_⟩
    · refine State.leaves_dropPort ((hfld .state).trans hst) (fun a _ => hfld a) ?_ hblocks.mem
      exact (State.asm_updLane _ _ _ _ _ _ _).trans (State.asm_laneBlocks _ _ _ _ _ _)
    · exact (State.rd_dropPort _ (a := .losUp) (by simp) (by simp) (by simp) (by simp)).trans (hfld .losUp)
    · refine State.laneFlag_dropPort (k := 2) hn (by decide) ?_
      exact (State.rd_updPort _ _ _ _ _ _).trans (State.rd_clrF _ t _ (laneFlag_ok hn (by decide)))
  case align =>
    have hexec : exec (.alignmentLoss t p) s = .next (s.after (x.dropPort t p)) :=
      whenEv_live (c := s.fit t && s.portSt t p == 5) (f := fun s => (s.settle t p).dropPort t p) hlive (by simp [hfit, hst'])
    refine State.gives_of_exec hexec ⟨State.leaves_dropPort hst (fun _ _ => rfl) rfl rfl, ?_⟩
    exact x.rd_dropPort (a := .losUp) (by simp) (by simp) (by simp) (by simp)

/-! Slips and block lock gained (R86). -/

/-- A lane as it has been slipped by one bit. -/
theorem State.slipLane_spec (s : State) (n : Lane) : let u := s.slipLane t n
    u.rd t (LNK_LANE_STATUS_SLIP_POS n) = (s.rd t (LNK_LANE_STATUS_SLIP_POS n) + 1) % 66 ∧
      s.sameWords u ((LNK_LANE_STATUS n).wordAt t) ∧ u.mem = s.mem ∧ u.laneHeads t n = [] := by
  have hok : (LNK_LANE_STATUS_SLIP_POS n).ok := laneFld_ok n.isLt (by decide) (by decide) (by decide)
  refine ⟨?_, ?_, rfl, ?_⟩
  · refine (State.rd_wr _ t _ _ hok).trans (Nat.mod_eq_of_lt ?_)
    exact Nat.lt_trans (Nat.mod_lt _ (by decide)) (show 66 < 2 ^ (14 + 1 - 8) by decide)
  · have hupd : s.sameWords (s.updLane t (n / 3) (n % 3) fun x => { x with heads := [] }) ((LNK_LANE_STATUS n).wordAt t) := State.sameWords_of_regs rfl _
    exact State.sameWords_trans hupd (State.onlyRegs_wr _ _ t.isLt hok ⟨rfl, rfl, rfl⟩).2
  · show (((s.updLane t (n / 3) (n % 3) fun x => { x with heads := [] }).port t (n / 3)).rx.lane (n % 3)).heads = []
    rw [State.updLane, State.port_updPort_same, PortRx.lane_updLane, if_pos rfl]

theorem State.exec_slip {n : Lane} (hlive : s.live) (hfit : s.fit t) : exec (.slip t n) s = .next (s.after (s.slipWrite t n)) :=
  onTile_live (f := fun s => s.slipWrite t n) hlive hfit

theorem State.exec_slipDwell {n : Lane} (hlive : s.live) (hfit : s.fit t) (halign : s.laneAligning t n) (hman : ¬ s.is t (LNK_LANE_CTRL_SLIP_MANUAL n))
    (hlock : ¬ s.is t (LNK_LANE_STATUS_BLOCK_LOCK n)) : exec (.slipDwell t n) s = .next (s.after (s.slipLane t n)) :=
  whenEv_live (c := s.fit t && s.laneAligning t n && !s.is t (LNK_LANE_CTRL_SLIP_MANUAL n) && !s.is t (LNK_LANE_STATUS_BLOCK_LOCK n))
    (f := fun s => s.slipLane t n) hlive (by simp [hfit, halign, hman, hlock])

theorem State.exec_blockLockGain {n : Lane} {bl : List (BitVec 66)} (hlive : s.live) (hfit : s.fit t) (h : s.lockSought t n) :
    exec (.blockLockGain t n bl) s = .next (s.after (s.lockGain t n bl)) :=
  whenEv_live (c := s.fit t && s.lockSought t n) (f := fun s => s.lockGain t n bl) hlive (by simp [hfit, h])

theorem State.exec_slipManual {n : Lane} {on : Bool} (hlive : s.live) (hfit : s.fit t) :
    exec (.slipManual t n on) s = .next (s.after (s.wr t (LNK_LANE_CTRL_SLIP_MANUAL n) (bitN on))) :=
  onTile_live (f := fun s => s.wr t (LNK_LANE_CTRL_SLIP_MANUAL n) (bitN on)) hlive hfit

/-- No header of a lane without block lock counts (R108; log 212). -/
theorem State.regs_laneBlocks (hlock : ¬ s.is t (LNK_LANE_STATUS_BLOCK_LOCK n)) (l : List (BitVec 66)) : (s.laneBlocks t n l).regs = s.regs := by
  induction l generalizing s with
  | nil => rfl
  | cons b l ih =>
    have hhead : s.laneHead t n b = s.updLane t (n / 3) (n % 3) fun x => { x with heads := headPush x.heads (headOk (s.headOf t n b)) } := by
      unfold State.laneHead
      exact if_pos (by simp [State.updLane, hlock])
    show ((s.laneHead t n b).laneBlocks t n l).regs = s.regs
    rw [hhead, ih (by rwa [State.updLane, State.is_updPort])]
    rfl

/-- Settles O27: one slip by either way, and the words that blocks of a lane without block lock leave as they are. -/
theorem laneSlips : Obligations.LaneSlips := by
  refine fun s t n hlive hfit => ⟨fun halign hman => ?slip, fun hnot => ?none, fun halign hman hlock => ?dwell, fun bl hsought hgain => ?gain, fun on => ?manual⟩
  case slip =>
    have hexec := State.exec_slip (n := n) hlive hfit
    rw [State.slipWrite, if_pos (by simp [halign, hman])] at hexec
    exact State.gives_of_exec hexec (s.slipLane_spec n)
  case none =>
    have hexec := State.exec_slip (n := n) hlive hfit
    rwa [State.slipWrite, if_neg (by simpa using hnot)] at hexec
  case dwell => exact State.gives_of_exec (State.exec_slipDwell hlive hfit halign hman hlock) (s.slipLane_spec n)
  case gain =>
    have hlock : ¬ s.is t (LNK_LANE_STATUS_BLOCK_LOCK n) := by
      simp only [State.lockSought, Bool.and_eq_true, Bool.not_eq_true'] at hsought
      simp [hsought.2]
    have hexec := State.exec_blockLockGain (bl := bl) hlive hfit hsought
    rw [State.lockGain, if_pos hgain] at hexec
    have hok : (LNK_LANE_STATUS_BLOCK_LOCK n).ok := laneFlag_ok n.isLt (by decide)
    refine State.gives_of_exec hexec ⟨State.rd_setF_laneFlag (s := s.laneBlocks t n bl) n.isLt (k := 2) (by decide), ?_, (s.onlyPort_laneBlocks n.isLt bl).mem⟩
    exact State.sameWords_trans (State.sameWords_of_regs (State.regs_laneBlocks hlock bl) _) ((s.laneBlocks t n bl).onlyRegs_setF t.isLt hok ⟨rfl, rfl, rfl⟩).2
  case manual =>
    have hok : (LNK_LANE_CTRL_SLIP_MANUAL n).ok := laneFld_ok (off := 0) n.isLt (by decide) (by decide) (by decide)
    have honly : s.onlyRegs (s.wr t (LNK_LANE_CTRL_SLIP_MANUAL n) (bitN on)) ((LNK_LANE_CTRL n).wordAt t) :=
      s.onlyRegs_wr _ t.isLt hok ⟨rfl, rfl, rfl⟩
    have hbit : bitN on < 2 := by cases on <;> decide
    refine State.gives_of_onlyRegs (State.exec_slipManual hlive hfit) honly ⟨(State.rd_wr _ t _ _ hok).trans (Nat.mod_eq_of_lt hbit), honly⟩

end Sys2Proof.Machine
end

section
/-! SUPPORT. TEST = 1 in a state that no run reaches (R107): what the port receives in the same cycle comes first, and the band tick that a master
packet gives sets every field that the record of the cycle's late writes names, TEST among them. -/

namespace Sys2Proof.Machine

/-- A line packet of sub-stream 0, one sample of 8 bits, whole (R94, R97). -/
def oneSampleLine : Bytes :=
  let body := leBytes 4 0x01000001 ++ leBytes 4 0 ++ leBytes 4 1 ++ leBytes 4 0 ++ leBytes 4 0
  body ++ leBytes 4 (crc32c body)

/-- A late write of TEST of port 0, which software makes none of; the port is UP with one lane, RUN is 1 with SRC = 2 and the port's sub-stream 0 as
master, and of its line packet the TERM block is still to come, in a command of the cycle that waits. -/
def lateTest : State :=
  { (((((lateWritten (LNK_PORT_CTRL_TEST 0)).wr 0 (LNK_PORT_STATUS_STATE 0) 5).wr 0 (LNK_PORT_CFG_LANES 0) 1).wr 0 (FXL_PORT_CTRL_SUB_EN 0) 1).wr 0
      BND_CTRL_RUN 1).wr 0 BND_CTRL_SRC 2 with
    ports := [(0, { PortState.idle with rx := { PortRx.idle with due := 1, asm := .opened oneSampleLine } })]
    pending := [.linePacket 0 0 [⟨[0x201], 0, 0⟩]] }

theorem lateTest_off : lateTest.live ∧ lateTest.fit 0 ∧ ¬ lateTest.is 0 (LNK_PORT_CTRL_TEST 0) := by decide +kernel

/-- The band tick has set TEST: the write finds it set, and the port stays UP. -/
theorem lateTest_up : (Answer.orElse (exec (.lnkTest 0 0 true) lateTest) lateTest).portSt 0 0 = 5 := by decide +kernel

/-- Refutes O28: where the cycle's late writes name TEST and a master packet ends in the same cycle, TEST = 1 leaves the port UP. -/
theorem not_prbsTesting : ¬ Obligations.PrbsTesting := by
  intro h
  obtain ⟨hlive, hfit, hoff⟩ := lateTest_off
  obtain ⟨htest, -⟩ := h lateTest 0 0 0 hlive hfit
  obtain ⟨u, hu, hst, -⟩ := htest hoff
  have hup := lateTest_up
  rw [hu, show Answer.orElse (.next u) lateTest = u from rfl] at hup
  rw [show u.portSt 0 0 = 7 from hst] at hup
  exact absurd hup (by decide)

end Sys2Proof.Machine
end

section
/-! SUPPORT. The back channel of a camera port (R100 to R106): CMD and its end, the order of messages, and the back channel switched off. -/

namespace Sys2Proof.Machine

variable {s u : State} {t : Tile} {p : Port}

/-! The fields of FXL (R109). -/

/-- Bits `hi` to `lo` of the register at `off` of port `p` in FXL. -/
def fxl (p off hi lo : Nat) : Fld := ⟨4, off + 0x100 * p, hi, lo⟩

/-- The fields of FXL that commands and packets write, by their place in the register table. -/
theorem fxlFlds (p : Nat) : FXL_PORT_CMD_ADDR p = fxl p 0x30 31 0 ∧ FXL_PORT_CMD_DATA p = fxl p 0x34 31 0 ∧ FXL_PORT_CMD_CTRL_TAG p = fxl p 0x38 7 0 ∧
    FXL_PORT_CMD_CTRL_OP p = fxl p 0x38 9 8 ∧ FXL_PORT_CMD_STATUS_STATE p = fxl p 0x3c 1 0 ∧ FXL_PORT_CMD_STATUS_ACK_STATUS p = fxl p 0x3c 15 8 ∧
    FXL_PORT_ACK_DATA p = fxl p 0x40 31 0 ∧ FXL_PORT_ERR_SEND_BUSY p = fxl p 0x48 0 0 ∧ FXL_PORT_ERR_BAD_OP p = fxl p 0x48 1 1 ∧
    FXL_PORT_ERR_UNSOLICITED_ACK p = fxl p 0x48 2 2 ∧ FXL_PORT_ERR_TRIG_SUPPRESSED p = fxl p 0x48 3 3 :=
  ⟨rfl, rfl, rfl, rfl, rfl, rfl, rfl, rfl, rfl, rfl, rfl⟩

section Fields

variable {off hi lo off' hi' lo' : Nat}

theorem fxl_ok (p : Port) (hoff : off < 0x100) (hlo : lo ≤ hi) (hhi : hi < 32) : (fxl p off hi lo).ok :=
  ⟨hlo, hhi, show 4 < 128 by decide, show off + 0x100 * p < 2 ^ 30 by have := p.isLt; omega⟩

@[simp] theorem State.rd_wr_fxl (s : State) (v : Nat) (hoff : off < 0x100) (hlo : lo ≤ hi) (hhi : hi < 32) :
    (s.wr t (fxl p off hi lo) v).rd t (fxl p off hi lo) = v % 2 ^ (hi + 1 - lo) := s.rd_wr t _ _ (fxl_ok p hoff hlo hhi)

@[simp] theorem State.rd_wr_fxl_ne (s : State) (v : Nat) (hoff : off < 0x100) (hlo : lo ≤ hi) (hhi : hi < 32) (hoff' : off' < 0x100) (hlo' : lo' ≤ hi')
    (hhi' : hi' < 32) (h : off ≠ off' ∨ hi < lo' ∨ hi' < lo) : (s.wr t (fxl p off' hi' lo') v).rd t (fxl p off hi lo) = s.rd t (fxl p off hi lo) := by
  refine s.rd_wr_ne v t.isLt t.isLt (fxl_ok p hoff hlo hhi) (fxl_ok p hoff' hlo' hhi') (.inr (.inr ?_))
  show off + 0x100 * p ≠ off' + 0x100 * p ∨ hi < lo' ∨ hi' < lo
  omega

theorem State.rd_setF_fxl (s : State) {k : Nat} (hoff : off < 0x100) (hk : k < 32) : (s.setF t (fxl p off k k)).rd t (fxl p off k k) = 1 := by
  rw [State.rd_setF _ _ _ (fxl_ok p hoff (Nat.le_refl k) hk)]
  show 2 ^ (k + 1 - k) - 1 = 1
  rw [Nat.add_sub_cancel_left]
  rfl

@[simp] theorem State.rd_setF_fxl_ne (s : State) (hoff : off < 0x100) (hlo : lo ≤ hi) (hhi : hi < 32) (hoff' : off' < 0x100) (hlo' : lo' ≤ hi')
    (hhi' : hi' < 32) (h : off ≠ off' ∨ hi < lo' ∨ hi' < lo) : (s.setF t (fxl p off' hi' lo')).rd t (fxl p off hi lo) = s.rd t (fxl p off hi lo) := by
  rw [State.rd_setF_eq, State.rd_wr_fxl_ne s _ hoff hlo hhi hoff' hlo' hhi' h]

end Fields

theorem State.port_after (s u : State) (t p : Nat) : (s.after u).port t p = u.port t p := rfl
theorem State.regs_after (s u : State) : (s.after u).regs = u.regs := rfl
theorem State.mem_after (s u : State) : (s.after u).mem = u.mem := rfl

/-! SEND (R105). -/

theorem State.exec_send {v : BitVec 32} (hlive : s.live) (hfit : s.fit t) : exec (.send t p v) s = .next (s.after (s.cmdCtrl t p v.toNat)) :=
  onTile_live (f := fun s => s.cmdCtrl t p v.toNat) hlive hfit

/-- CMD_CTRL as SEND leaves it. -/
def State.cmdStore (s : State) (t p v : Nat) : State := (s.wr t (FXL_PORT_CMD_CTRL_TAG p) (v % 256)).wr t (FXL_PORT_CMD_CTRL_OP p) (bitsOf v 9 8)

@[simp] theorem State.rd_cmdStore (s : State) (v : Nat) {off hi lo : Nat} (hoff : off < 0x100) (hlo : lo ≤ hi) (hhi : hi < 32) (h : off ≠ 0x38) :
    (s.cmdStore t p v).rd t (fxl p off hi lo) = s.rd t (fxl p off hi lo) := by
  simp [State.cmdStore, fxlFlds, hoff, hlo, hhi, h]

theorem State.cmdCtrl_busy {v : Nat} (hsend : v.testBit 16) (hst : s.rd t (FXL_PORT_CMD_STATUS_STATE p) = 1) :
    s.cmdCtrl t p v = s.setF t (FXL_PORT_ERR_SEND_BUSY p) := by
  rw [State.cmdCtrl, hsend]
  exact if_pos hst

theorem State.cmdCtrl_free {v : Nat} (hsend : v.testBit 16) (hst : s.rd t (FXL_PORT_CMD_STATUS_STATE p) ≠ 1) : s.cmdCtrl t p v =
    if bitsOf v 9 8 = 0 ∨ bitsOf v 9 8 = 3 then (s.cmdStore t p v).setF t (FXL_PORT_ERR_BAD_OP p)
    else (s.cmdStore t p v).queueCmd t p (cmdMsg (v % 256) (bitsOf v 9 8) ((s.cmdStore t p v).rd t (FXL_PORT_CMD_ADDR p))
      (if bitsOf v 9 8 = 1 then (s.cmdStore t p v).rd t (FXL_PORT_CMD_DATA p) else 0)) := by
  rw [State.cmdCtrl, hsend]
  exact if_neg hst

/-- The TAG of a CMD stands in its third byte (R105). -/
theorem byteAt_cmdMsg (tag op addr data : Nat) : byteAt (cmdMsg tag op addr data).body 2 = tag % 256 := rfl

theorem LNK_PORT_BC_CTRL_ENABLE_ok (p : Port) : (LNK_PORT_BC_CTRL_ENABLE p).ok := by
  revert p
  unfold Fld.ok
  decide

theorem LNK_PORT_BC_CTRL_PRBS_ok (p : Port) : (LNK_PORT_BC_CTRL_PRBS p).ok := by
  revert p
  unfold Fld.ok
  decide

/-- Whether the back channel sends messages is told by its own register. -/
theorem State.bcOn_of_keeps {K : WordSet} (h : s.keeps u K) (hK : ¬ K t 3 (LNK_PORT_BC_CTRL p).off) : u.bcOn t p = s.bcOn t p := by
  rw [State.bcOn, State.bcOn, State.is, State.is, State.rd_of_keeps h t.isLt (LNK_PORT_BC_CTRL_ENABLE_ok p) hK,
    State.rd_of_keeps h t.isLt (LNK_PORT_BC_CTRL_PRBS_ok p) hK]

theorem State.onlyRegs_wr_fxl (s : State) (v : Nat) {off hi lo : Nat} (hoff : off < 0x100) (hlo : lo ≤ hi) (hhi : hi < 32) :
    s.onlyRegs (s.wr t (fxl p off hi lo) v) (blockOn 4 t) := s.onlyRegs_wr v t.isLt (fxl_ok p hoff hlo hhi) ⟨rfl, rfl⟩

theorem State.onlyRegs_cmdStore (s : State) (v : Nat) : s.onlyRegs (s.cmdStore t p v) (blockOn 4 t) :=
  State.onlyRegs_trans (s.onlyRegs_wr_fxl (off := 0x38) (hi := 7) (lo := 0) _ (by decide) (by decide) (by decide))
    (State.onlyRegs_wr_fxl (off := 0x38) (hi := 9) (lo := 8) _ _ (by decide) (by decide) (by decide))

/-- A CMD that is made PENDING (R105). -/
theorem State.queueCmd_spec (s : State) (m : BcMsg) : let u := s.queueCmd t p m
    u.rd t (FXL_PORT_CMD_STATUS_STATE p) = 1 ∧ (u.port t p).cmdTag = byteAt m.body 2 ∧ (s.bcOn t p → (u.port t p).cmd = some m) := by
  have hwr := s.onlyRegs_wr_fxl (t := t) (p := p) (off := 0x3c) (hi := 1) (lo := 0) 1 (by decide) (by decide) (by decide)
  have hon : ((s.wr t (FXL_PORT_CMD_STATUS_STATE p) 1).updPort t p fun x => { x with cmdTag := byteAt m.body 2 }).bcOn t p = s.bcOn t p :=
    (State.bcOn_of_keeps (State.keeps_of_onlyRegs hwr) (by rintro ⟨-, h⟩; exact absurd h (by decide)) : (s.wr t (fxl p 0x3c 1 0) 1).bcOn t p = s.bcOn t p)
  have hst : (s.wr t (FXL_PORT_CMD_STATUS_STATE p) 1).rd t (FXL_PORT_CMD_STATUS_STATE p) = 1 := by simp [fxlFlds]
  unfold State.queueCmd
  dsimp only
  rw [hon]
  split
  · exact ⟨by simpa using hst, by simp, fun _ => by simp⟩
  · next hoff => exact ⟨by simpa using hst, by simp, fun h => absurd h hoff⟩

/-! The timeout of a CMD (R105, R106). -/

theorem State.exec_cmdTimeout (hlive : s.live) (hfit : s.fit t) (hst : s.rd t (FXL_PORT_CMD_STATUS_STATE p) = 1) :
    exec (.cmdTimeout t p) s = .next (s.after (s.cmdExpiry t p)) :=
  whenEv_live (c := s.fit t && s.rd t (FXL_PORT_CMD_STATUS_STATE p) == 1) (f := fun s => s.cmdExpiry t p) hlive (by simp [hfit, hst])

/-- The end of a CMD that is no far-end loopback's, with none that waits. -/
theorem State.cmdTimeout_eq (hfar : (s.port t p).far = false) (hwait : (s.port t p).farWait = false) :
    s.cmdTimeout t p = (s.wr t (FXL_PORT_CMD_STATUS_STATE p) 3).updPort t p fun x => { x with cmd := none } := by
  have hfar' : (((s.wr t (FXL_PORT_CMD_STATUS_STATE p) 3).updPort t p fun x => { x with cmd := none }).port t p).far = false := by
    rw [State.port_updPort_same]
    exact hfar
  have hwait' : (((s.wr t (FXL_PORT_CMD_STATUS_STATE p) 3).updPort t p fun x => { x with cmd := none }).port t p).farWait = false := by
    rw [State.port_updPort_same]
    exact hwait
  unfold State.cmdTimeout State.cmdEnded
  dsimp only
  rw [hfar', hwait']
  rfl

/-! Messages in order (R103, R106). -/

theorem State.startMessage_spec (s : State) (m : BcMsg) : let u := s.startMessage t p m
    (u.port t p).sending = some m ∧ (u.port t p).back.chars = messageChars m.body ∧ (u.port t p).expq = (s.port t p).expq ∧
      (u.port t p).cmd = (s.port t p).cmd := by
  simp [State.startMessage]

theorem State.exec_expsetMessage (hlive : s.live) (hfit : s.fit t) (hlock : s.locked t .aux) (hfree : s.bcFree t p) :
    exec (.expsetMessage t p) s = .next (s.after (s.startExpset t p)) :=
  whenEv_live (c := s.locked t .aux && s.fit t && s.bcFree t p) (f := fun s => s.startExpset t p) hlive (by simp [hfit, hlock, hfree])

theorem State.exec_cmdMessage (hlive : s.live) (hfit : s.fit t) (hlock : s.locked t .aux) (hfree : s.bcFree t p) (hnone : (s.port t p).expq = []) :
    exec (.cmdMessage t p) s = .next (s.after (s.startCmd t p)) :=
  whenEv_live (c := s.locked t .aux && s.fit t && s.bcFree t p && (s.port t p).expq.isEmpty) (f := fun s => s.startCmd t p) hlive
    (by simp [hfit, hlock, hfree, hnone])

/-! The back channel switched off (R105). -/

theorem State.exec_bcDisable {v : BitVec 32} (hlive : s.live) (hfit : s.fit t) : exec (.bcDisable t p v) s = .next (s.after (s.bcCtrl t p v.toNat)) :=
  onTile_live (f := fun s => s.bcCtrl t p v.toNat) hlive hfit

theorem EXP_PORT_ERR_NOT_SENT_ok (p : Port) : (EXP_PORT_ERR_NOT_SENT p).ok := by
  revert p
  unfold Fld.ok
  decide

/-- EXPSETs that are lost change the flag NOT_SENT alone among the registers. -/
theorem State.expsetsLost_spec (s : State) (l : List BcMsg) : let u := l.foldl (fun s m => s.expsetLost t p m) s
    s.keeps u ((EXP_PORT_ERR p).wordAt t) ∧ u.ports = s.ports ∧ (l ≠ [] → u.rd t (EXP_PORT_ERR_NOT_SENT p) = 1) := by
  induction l using List.reverseRecOn with
  | nil => exact ⟨State.keeps_of_regs rfl rfl _, rfl, fun h => absurd rfl h⟩
  | append_singleton l m ih =>
    obtain ⟨hkeeps, hports, -⟩ := ih
    simp only [List.foldl_append, List.foldl_cons, List.foldl_nil]
    generalize l.foldl (fun s m => s.expsetLost t p m) s = u at hkeeps hports
    have hset : u.keeps (u.setF t (EXP_PORT_ERR_NOT_SENT p)) ((EXP_PORT_ERR p).wordAt t) :=
      u.keeps_setF t.isLt (EXP_PORT_ERR_NOT_SENT_ok p) ⟨rfl, rfl, rfl⟩
    exact ⟨State.keeps_trans hkeeps hset, hports, fun _ => u.rd_setF t _ (EXP_PORT_ERR_NOT_SENT_ok p)⟩

/-- The port as its back channel goes off. -/
def PortState.bcOff (x : PortState) : PortState :=
  { x with expq := [], cmd := none, sending := none, back := { x.back with chars := [], trig := [], due := [], half := false } }

/-- The EXPSETs that are lost as the back channel goes off: the one being sent and those that wait. -/
def PortState.expsets (x : PortState) : List BcMsg := (if x.back.chars.isEmpty then none else x.sending.filter (·.expset)).toList ++ x.expq

theorem State.bcLose_eq (s : State) : s.bcLose t p = (s.port t p).expsets.foldl (fun s m => s.expsetLost t p m)
    ((s.setIf (!(s.port t p).back.due.isEmpty) t (fxl p 0x48 3 3)).updPort t p PortState.bcOff) := rfl

/-- What the back channel loses as it goes off. -/
theorem State.bcLose_spec (s : State) : let u := s.bcLose t p
    s.keeps u ((blockOn 4 t).or (blockOn 7 t)) ∧ u.port t p = (s.port t p).bcOff ∧ ((s.port t p).expq ≠ [] → u.rd t (EXP_PORT_ERR_NOT_SENT p) = 1) := by
  have hflag := (s.onlyNotes_refl (blockOn 4 t)).setIf (c := !(s.port t p).back.due.isEmpty) t.isLt
    (fxl_ok p (off := 0x48) (hi := 3) (lo := 3) (by decide) (by decide) (by decide)) ⟨rfl, rfl⟩
  have hupd := (State.onlyPort_of_onlyNotes hflag).updPort (t := t) (p := p) (f := PortState.bcOff)
  obtain ⟨hkeeps, hports, hlost⟩ := State.expsetsLost_spec (t := t) (p := p)
    ((s.setIf (!(s.port t p).back.due.isEmpty) t (fxl p 0x48 3 3)).updPort t p PortState.bcOff) (s.port t p).expsets
  rw [State.bcLose_eq]
  refine ⟨?_, ?_, fun h => hlost (by simp [PortState.expsets, h])⟩
  · exact State.keeps_trans (State.keeps_mono hupd.keeps fun _ _ _ => .inl) (State.keeps_mono hkeeps fun _ _ _ ⟨ht, hblk, _⟩ => .inr ⟨ht, hblk⟩)
  · rw [State.port_congr hports, State.port_updPort_same, State.port_congr hflag.ports]

/-- BC_CTRL as a write with ENABLE = 0 leaves it. -/
def State.bcStore (s : State) (t p v : Nat) : State := s.setWord t (LNK_PORT_BC_CTRL p).blk (LNK_PORT_BC_CTRL p).off (v &&& 0x5F)

theorem State.not_enable_bcStore (s : State) {v : Nat} (hv : v.testBit 0 = false) : (s.bcStore t p v).is t (LNK_PORT_BC_CTRL_ENABLE p) = false := by
  have hword : (s.bcStore t p v).rd t (LNK_PORT_BC_CTRL p) = (v &&& 0x5F) % 2 ^ 32 := by
    rw [State.rd, State.rdB, State.bcStore, State.setWord, State.bank_setWordB, State.wordB_setWordB]
    show ((v &&& 0x5F) % 2 ^ 32) >>> 0 % 2 ^ 32 = _
    rw [Nat.shiftRight_zero, Nat.mod_mod]
  refine ((s.bcStore t p v).is_bit t (LNK_PORT_BC_CTRL p).blk (LNK_PORT_BC_CTRL p).off 0 (by decide)).trans ?_
  refine (congrArg (·.testBit 0) hword).trans ?_
  show ((v &&& 0x5F) % 2 ^ 32).testBit 0 = false
  rw [Nat.testBit_mod_two_pow, Nat.testBit_and, hv, Bool.false_and, Bool.and_false]

theorem State.bcOn_of_enable (h : s.is t (LNK_PORT_BC_CTRL_ENABLE p) = false) : s.bcOn t p = false := by simp [State.bcOn, h]

/-- A write of BC_CTRL with ENABLE = 0 on a back channel that sends messages. -/
theorem State.bcCtrl_off {v : Nat} (hon : s.bcOn t p) (hv : v.testBit 0 = false) : s.bcCtrl t p v =
    ((s.bcStore t p v).bcLose t p).updBack t p fun x => { x with out := none, rd := false, gen := 0 } := by
  have hstore := s.not_enable_bcStore (t := t) (p := p) hv
  have hlose : ((s.bcStore t p v).bcLose t p).is t (LNK_PORT_BC_CTRL_ENABLE p) = false := by
    rw [State.is, State.rd_of_keeps (State.bcLose_spec _).1 t.isLt (LNK_PORT_BC_CTRL_ENABLE_ok p)]
    · exact hstore
    · rintro (⟨-, h⟩ | ⟨-, h⟩)
      · exact absurd h (show ¬ 3 = 4 by decide)
      · exact absurd h (show ¬ 3 = 7 by decide)
  unfold State.bcCtrl
  dsimp only
  rw [show (s.setWord t (LNK_PORT_BC_CTRL p).blk (LNK_PORT_BC_CTRL p).off (v &&& 0x5F)) = s.bcStore t p v from rfl, hon, State.bcOn_of_enable hstore]
  simp only [Bool.not_false, Bool.and_self, if_true, hlose, Bool.false_and, Bool.false_eq_true, if_false]
  have hinject : ∀ w : State, w.is t (LNK_PORT_BC_CTRL_ENABLE p) = false → w.inject t p = w := fun w hw => if_neg (by simp [hw])
  rw [hinject _ (by rwa [State.updBack, State.is_updPort]), ite_self]

/-! The answers to commands that no packet takes part in. -/

theorem State.gives_send_busy {v : BitVec 32} (hlive : s.live) (hfit : s.fit t) (hsend : v.getLsbD 16) (hst : s.rd t (FXL_PORT_CMD_STATUS_STATE p) = 1) :
    s.gives (.send t p v) fun u => u.rd t (FXL_PORT_ERR_SEND_BUSY p) = 1 ∧ s.onlyRegs u ((FXL_PORT_ERR p).wordAt t) := by
  have hexec := State.exec_send (p := p) (v := v) hlive hfit
  rw [State.cmdCtrl_busy hsend hst] at hexec
  have honly : s.onlyRegs (s.setF t (fxl p 0x48 0 0)) ((FXL_PORT_ERR p).wordAt t) :=
    s.onlyRegs_setF t.isLt (fxl_ok p (by decide) (by decide) (by decide)) ⟨rfl, rfl, rfl⟩
  exact State.gives_of_onlyRegs hexec honly ⟨s.rd_setF_fxl (by decide) (by decide), honly⟩

theorem State.gives_send_badOp {v : BitVec 32} (hlive : s.live) (hfit : s.fit t) (hsend : v.getLsbD 16) (hst : s.rd t (FXL_PORT_CMD_STATUS_STATE p) ≠ 1)
    (hop : bitsOf v.toNat 9 8 ∈ [0, 3]) : s.gives (.send t p v) fun u => u.rd t (FXL_PORT_ERR_BAD_OP p) = 1 ∧
      u.rd t (FXL_PORT_CMD_STATUS_STATE p) = s.rd t (FXL_PORT_CMD_STATUS_STATE p) ∧ u.ports = s.ports := by
  have hexec := State.exec_send (p := p) (v := v) hlive hfit
  rw [State.cmdCtrl_free hsend hst, if_pos (by simpa using hop)] at hexec
  have hflag := (s.cmdStore t p v.toNat).rd_setF_fxl (t := t) (p := p) (off := 0x48) (k := 1) (by decide) (by decide)
  refine State.gives_of_exec hexec ⟨hflag, ?_, rfl⟩
  simp [fxlFlds]

theorem State.gives_send {v : BitVec 32} (hlive : s.live) (hfit : s.fit t) (hsend : v.getLsbD 16) (hst : s.rd t (FXL_PORT_CMD_STATUS_STATE p) ≠ 1)
    (hop : bitsOf v.toNat 9 8 ∈ [1, 2]) : s.gives (.send t p v) fun u =>
      u.rd t (FXL_PORT_CMD_STATUS_STATE p) = 1 ∧ (u.port t p).cmdTag = v.toNat % 256 ∧
      (s.bcOn t p → (u.port t p).cmd = some (cmdMsg (v.toNat % 256) (bitsOf v.toNat 9 8) (s.rd t (FXL_PORT_CMD_ADDR p))
        (if bitsOf v.toNat 9 8 = 1 then s.rd t (FXL_PORT_CMD_DATA p) else 0))) := by
  have hexec := State.exec_send (p := p) (v := v) hlive hfit
  have hop' : ¬ (bitsOf v.toNat 9 8 = 0 ∨ bitsOf v.toNat 9 8 = 3) := by
    simp only [List.mem_cons, List.not_mem_nil, or_false] at hop
    omega
  have haddr : (s.cmdStore t p v.toNat).rd t (FXL_PORT_CMD_ADDR p) = s.rd t (FXL_PORT_CMD_ADDR p) := by simp [fxlFlds]
  have hdata : (s.cmdStore t p v.toNat).rd t (FXL_PORT_CMD_DATA p) = s.rd t (FXL_PORT_CMD_DATA p) := by simp [fxlFlds]
  rw [State.cmdCtrl_free hsend hst, if_neg hop', haddr, hdata] at hexec
  obtain ⟨hstate, htag, hcmd⟩ := State.queueCmd_spec (t := t) (p := p) (s.cmdStore t p v.toNat) (cmdMsg (v.toNat % 256) (bitsOf v.toNat 9 8)
    (s.rd t (FXL_PORT_CMD_ADDR p)) (if bitsOf v.toNat 9 8 = 1 then s.rd t (FXL_PORT_CMD_DATA p) else 0))
  have hon : (s.cmdStore t p v.toNat).bcOn t p = s.bcOn t p :=
    State.bcOn_of_keeps (State.keeps_of_onlyRegs (s.onlyRegs_cmdStore _)) (by rintro ⟨-, h⟩; exact absurd h (by decide))
  refine State.gives_of_exec hexec ⟨hstate, htag.trans ?_, fun h => hcmd (hon.trans h)⟩
  rw [byteAt_cmdMsg, Nat.mod_mod]

theorem State.gives_cmdTimeout (hlive : s.live) (hfit : s.fit t) (hst : s.rd t (FXL_PORT_CMD_STATUS_STATE p) = 1) : let x := s.settle t p
    (x.rd t (FXL_PORT_CMD_STATUS_STATE p) = 1 → (x.port t p).far = false → (x.port t p).farWait = false → s.gives (.cmdTimeout t p) fun u =>
      u.rd t (FXL_PORT_CMD_STATUS_STATE p) = 3 ∧ (u.port t p).cmd = none ∧ x.sameWords u ((FXL_PORT_CMD_STATUS p).wordAt t)) ∧
    (x.rd t (FXL_PORT_CMD_STATUS_STATE p) ≠ 1 → s.gives (.cmdTimeout t p) fun u => u.regs = x.regs ∧ u.ports = x.ports) := by
  have hexec := State.exec_cmdTimeout hlive hfit hst
  rw [State.cmdExpiry] at hexec
  refine ⟨fun hx hfar hwait => ?_, fun hx => ?_⟩
  · rw [if_pos hx, State.cmdTimeout_eq hfar hwait] at hexec
    refine State.gives_of_exec hexec ⟨?_, ?_, ?_⟩
    · simp [fxlFlds]
    · rw [State.port_after, State.port_updPort_same]
    · exact ((s.settle t p).onlyRegs_wr 3 t.isLt (fxl_ok p (off := 0x3c) (hi := 1) (lo := 0) (by decide) (by decide) (by decide)) ⟨rfl, rfl, rfl⟩).2
  · rw [if_neg hx] at hexec
    exact State.gives_of_exec hexec ⟨rfl, rfl⟩

theorem State.gives_messages (hlive : s.live) (hfit : s.fit t) (hlock : s.locked t .aux) (hfree : s.bcFree t p) :
    let starts (u : State) (m : BcMsg) : Prop := (u.port t p).sending = some m ∧ (u.port t p).back.chars = messageChars m.body ∧
      u.regs = s.regs ∧ u.mem = s.mem
    (∀ m l, (s.port t p).expq = m :: l → s.gives (.expsetMessage t p) fun u => starts u m ∧ (u.port t p).expq = l) ∧
    (∀ m, (s.port t p).expq = [] → (s.port t p).cmd = some m → s.gives (.cmdMessage t p) fun u => starts u m ∧ (u.port t p).cmd = none) ∧
    (∀ m l, (s.port t p).expq = m :: l → exec (.cmdMessage t p) s = .next s) := by
  refine ⟨fun m l hq => ?_, fun m hq hcmd => ?_, fun m l hq => ?_⟩
  · have hexec := State.exec_expsetMessage hlive hfit hlock hfree
    have hstart : s.startExpset t p = (s.updPort t p fun x => { x with expq := l }).startMessage t p m := by rw [State.startExpset, hq]
    rw [hstart] at hexec
    obtain ⟨hsend, hchars, hexpq, -⟩ := State.startMessage_spec (t := t) (p := p) (s.updPort t p fun x => { x with expq := l }) m
    rw [State.port_updPort_same (s := s)] at hexpq
    exact State.gives_of_exec hexec ⟨⟨hsend, hchars, by simp [State.startMessage, State.regs_after], by simp [State.startMessage, State.mem_after]⟩, hexpq⟩
  · have hexec := State.exec_cmdMessage hlive hfit hlock hfree hq
    have hstart : s.startCmd t p = (s.updPort t p fun x => { x with cmd := none }).startMessage t p m := by rw [State.startCmd, hcmd]
    rw [hstart] at hexec
    obtain ⟨hsend, hchars, -, hnone⟩ := State.startMessage_spec (t := t) (p := p) (s.updPort t p fun x => { x with cmd := none }) m
    rw [State.port_updPort_same (s := s)] at hnone
    exact State.gives_of_exec hexec ⟨⟨hsend, hchars, by simp [State.startMessage, State.regs_after], by simp [State.startMessage, State.mem_after]⟩, hnone⟩
  · exact whenEv_not (c := s.locked t .aux && s.fit t && s.bcFree t p && (s.port t p).expq.isEmpty) (by simp [hq]) fun s => s.startCmd t p

theorem State.gives_bcDisable {v : BitVec 32} (hlive : s.live) (hfit : s.fit t) (hon : s.bcOn t p) (hv : ¬ v.getLsbD 0) :
    s.gives (.bcDisable t p v) fun u => ¬ u.bcOn t p ∧ (u.port t p).cmd = none ∧ (u.port t p).expq = [] ∧
      ((s.port t p).expq ≠ [] → u.rd t (EXP_PORT_ERR_NOT_SENT p) = 1) := by
  have hv0 : v.toNat.testBit 0 = false := Bool.eq_false_iff.2 hv
  have hexec := State.exec_bcDisable (p := p) (v := v) hlive hfit
  rw [State.bcCtrl_off hon hv0] at hexec
  obtain ⟨hkeeps, hport, hlost⟩ := State.bcLose_spec (t := t) (p := p) (s.bcStore t p v.toNat)
  refine State.gives_of_exec hexec ⟨?_, ?_, ?_, fun h => ?_⟩
  · have hoff : ((s.bcStore t p v.toNat).bcLose t p).bcOn t p = false := by
      rw [State.bcOn_of_keeps hkeeps (by rintro (⟨-, h⟩ | ⟨-, h⟩) <;> exact absurd h (by decide))]
      exact State.bcOn_of_enable (s.not_enable_bcStore hv0)
    exact fun h => absurd (hoff.symm.trans h) (by decide)
  · rw [State.port_after, State.updBack, State.port_updPort_same, hport]
    rfl
  · rw [State.port_after, State.updBack, State.port_updPort_same, hport]
    rfl
  · exact hlost h

end Sys2Proof.Machine
end

section
/-! SUPPORT. What a camera port that is UP receives (R76 to R80, R97): one round of blocks, as far as the packet it brings. -/

namespace Sys2Proof.Machine

variable {s u v : State} {t : Tile} {p : Port}

/-! What the receiver of a port keeps. -/

/-- `u` is `s` but for the receiver of port `p` of tile `t`, and LNK_LANE_PPM. -/
def State.takesIn (s u : State) (t p : Nat) : Prop :=
  u = { s with regs := u.regs, cyc := u.cyc, ports := u.ports } ∧ s.sameWords u (ppmWords t) ∧ ∃ rx, u.port t p = { s.port t p with rx := rx }

theorem State.takesIn_refl (s : State) (t p : Nat) : s.takesIn s t p := ⟨rfl, s.sameWords_refl _, (s.port t p).rx, rfl⟩

theorem State.takesIn.trans (h : s.takesIn u t p) (h' : u.takesIn v t p) : s.takesIn v t p := by
  obtain ⟨hu, hwords, rx, hport⟩ := h
  obtain ⟨hv, hwords', rx', hport'⟩ := h'
  refine ⟨?_, State.sameWords_trans hwords hwords', rx', by rw [hport', hport]⟩
  rw [hu] at hv
  exact hv

theorem State.takesIn_updRx (s : State) (t p : Nat) (f : PortRx → PortRx) : s.takesIn (s.updRx t p f) t p :=
  ⟨rfl, State.sameWords_of_regs rfl _, f (s.port t p).rx, s.port_updPort_same t p _⟩

theorem State.takesIn_of_onlyRegs (h : s.onlyRegs u (ppmWords t)) : s.takesIn u t p :=
  ⟨by rw [h.1], h.2, (s.port t p).rx, by rw [State.port_congr (s := s) (u := u) (by rw [h.1])]⟩

theorem State.takesIn.keeps (h : s.takesIn u t p) : s.keeps u (ppmWords t) := ⟨by rw [h.1], h.2.1⟩

theorem not_ppmWords {blk off : Nat} (h : blk ≠ 3 ∨ off % 0x40 ≠ 8) : ¬ ppmWords t t blk off := by
  rintro ⟨n, -, -, hblk, hoff⟩
  have hb : blk = 3 := hblk
  have ho : off = 0x8 + 0x40 * n := hoff
  omega

/-- A field outside LNK_LANE_PPM. -/
theorem State.takesIn.rd (h : s.takesIn u t p) {f : Fld} (hf : f.ok) (hK : f.blk ≠ 3 ∨ f.off % 0x40 ≠ 8) : u.rd t f = s.rd t f :=
  State.rd_of_keeps h.keeps t.isLt hf (not_ppmWords hK)

theorem State.takesIn.rd_port (h : s.takesIn u t p) (a : PortFld) : u.rd t (a.fld p) = s.rd t (a.fld p) := by
  refine State.rd_of_keeps h.keeps t.isLt (a.fld_ok p) ?_
  rintro ⟨n, hn, -, hblk, hoff⟩
  have ho : (a.fld p).off = 0x8 + 0x40 * n := hoff
  have hb : (a.fld p).blk = 3 := hblk
  have := a.fld_place p
  omega

theorem State.takesIn.portSt (h : s.takesIn u t p) : u.portSt t p = s.portSt t p := h.rd_port .state

theorem LNK_PORT_CFG_LANES_ok (p : Port) : (LNK_PORT_CFG_LANES p).ok := by
  revert p
  unfold Fld.ok
  decide

theorem State.takesIn.bond (h : s.takesIn u t p) : u.bond t p = s.bond t p := by
  have hoff : (LNK_PORT_CFG_LANES p).off % 0x40 ≠ 8 := by
    show (0x200 + 0x40 * (p : Nat)) % 0x40 ≠ 8
    omega
  rw [State.bond, State.bond, h.rd (LNK_PORT_CFG_LANES_ok p) (.inr hoff)]

theorem State.takesIn.polarity (h : s.takesIn u t p) {n : Nat} (hn : n < 6) : u.is t (LNK_LANE_CTRL_POLARITY n) = s.is t (LNK_LANE_CTRL_POLARITY n) := by
  have hoff : (LNK_LANE_CTRL_POLARITY n).off % 0x40 ≠ 8 := by
    show (0 + 0x40 * n) % 0x40 ≠ 8
    omega
  rw [State.is, State.is, h.rd (f := LNK_LANE_CTRL_POLARITY n) (laneFld_ok hn (by decide) (by decide) (by decide)) (.inr hoff)]

/-! One round of blocks. -/

/-- `u` is `s` but for what its receiver keeps of the lanes. -/
def State.rxHolds (s u : State) (t p : Nat) : Prop :=
  s.takesIn u t p ∧ (u.port t p).rx.asm = (s.port t p).rx.asm ∧ (u.port t p).rx.due = (s.port t p).rx.due

/-- The scramblers of the lanes are at one point as well. -/
def State.rxAlike (s u : State) (t p : Nat) : Prop := s.rxHolds u t p ∧ ∀ k, ((u.port t p).rx.lane k).scr = ((s.port t p).rx.lane k).scr

theorem State.rxHolds_refl (s : State) (t p : Nat) : s.rxHolds s t p := ⟨s.takesIn_refl t p, rfl, rfl⟩

theorem State.rxHolds.trans (h : s.rxHolds u t p) (h' : u.rxHolds v t p) : s.rxHolds v t p :=
  ⟨h.1.trans h'.1, h'.2.1.trans h.2.1, h'.2.2.trans h.2.2⟩

theorem State.rxAlike_refl (s : State) (t p : Nat) : s.rxAlike s t p := ⟨s.rxHolds_refl t p, fun _ => rfl⟩

theorem State.rxAlike.trans (h : s.rxAlike u t p) (h' : u.rxAlike v t p) : s.rxAlike v t p := ⟨h.1.trans h'.1, fun k => (h'.2 k).trans (h.2 k)⟩

theorem State.port_updLane (s : State) (t p k : Nat) (f : LaneState → LaneState) :
    (s.updLane t p k f).port t p = { s.port t p with rx := (s.port t p).rx.updLane k f } := s.port_updPort_same t p _

theorem State.lane_updLane (s : State) (t p k j : Nat) (f : LaneState → LaneState) :
    ((s.updLane t p k f).port t p).rx.lane j = if j = k then f ((s.port t p).rx.lane j) else (s.port t p).rx.lane j := by
  rw [State.port_updLane, PortRx.lane_updLane]

theorem State.takesIn_updLane (s : State) (t p k : Nat) (f : LaneState → LaneState) : s.takesIn (s.updLane t p k f) t p :=
  s.takesIn_updRx t p fun x => x.updLane k f

theorem State.rxHolds_updLane (s : State) (t p k : Nat) (f : LaneState → LaneState) : s.rxHolds (s.updLane t p k f) t p :=
  ⟨s.takesIn_updLane t p k f, by rw [State.port_updLane]; rfl, by rw [State.port_updLane]; rfl⟩

theorem State.rxAlike_updLane (s : State) (t p k : Nat) {f : LaneState → LaneState} (hf : ∀ x, (f x).scr = x.scr) : s.rxAlike (s.updLane t p k f) t p := by
  refine ⟨s.rxHolds_updLane t p k f, fun j => ?_⟩
  rw [State.lane_updLane]
  split
  · exact hf _
  · rfl

/-- A header that is valid goes into the lane's last ones and counts nowhere (R86). -/
theorem State.laneHead_ok {n : Nat} {b : BitVec 66} (h : headOk (s.headOf t n b)) :
    s.laneHead t n b = s.updLane t (n / 3) (n % 3) fun x => { x with heads := headPush x.heads true } := by
  unfold State.laneHead
  dsimp only
  rw [h]
  rfl

theorem State.headOf_congr (h : s.takesIn u t p) {n : Nat} (hn : n < 6) (b : BitVec 66) : u.headOf t n b = s.headOf t n b := by
  rw [State.headOf, State.headOf, h.polarity hn]

/-- The valid headers of a round: receivers alike, and each lane of it has one more. -/
theorem State.laneHeads_round (s : State) (l : List (Nat × BitVec 66)) (hl : ∀ x ∈ l, x.1 < 6 ∧ x.1 / 3 = p) (hnd : (l.map Prod.fst).Nodup)
    (hok : ∀ x ∈ l, headOk (s.headOf t x.1 x.2)) :
    let u := l.foldl (fun s (n, b) => s.laneHead t n b) s
    s.rxAlike u t p ∧ ∀ n : Nat, n / 3 = p → u.laneHeads t n = if n ∈ l.map Prod.fst then headPush (s.laneHeads t n) true else s.laneHeads t n := by
  induction l generalizing s with
  | nil => exact ⟨s.rxAlike_refl t p, fun n _ => by simp⟩
  | cons x l ih =>
    obtain ⟨n, b⟩ := x
    obtain ⟨hn6, hnp⟩ := hl (n, b) (by simp)
    have hhead : s.laneHead t n b = s.updLane t p (n % 3) fun x => { x with heads := headPush x.heads true } := by
      rw [State.laneHead_ok (hok (n, b) (by simp)), ← hnp]
    have halike : s.rxAlike (s.laneHead t n b) t p := by
      rw [hhead]
      exact s.rxAlike_updLane t p _ fun _ => rfl
    have hheads : ∀ m : Nat, m / 3 = p → (s.laneHead t n b).laneHeads t m = if m = n then headPush (s.laneHeads t m) true else s.laneHeads t m := fun m hm => by
      rw [hhead, State.laneHeads, State.laneHeads, hm, State.lane_updLane]
      have : (m % 3 = n % 3) = (m = n) := by
        refine propext ⟨fun h => ?_, fun h => by rw [h]⟩
        dsimp only at hnp
        omega
      simp only [this]
      split <;> rfl
    rw [List.map_cons, List.nodup_cons] at hnd
    obtain ⟨hi, hrest⟩ := ih (s.laneHead t n b) (fun x hx => hl x (by simp [hx])) hnd.2
      (fun x hx => by rw [State.headOf_congr halike.1.1 (hl x (by simp [hx])).1]; exact hok x (by simp [hx]))
    refine ⟨halike.trans hi, fun m hm => (hrest m hm).trans ?_⟩
    rw [hheads m hm]
    by_cases hmn : m = n
    · subst hmn
      simp [hnd.1]
    · simp [hmn]

/-- What the lanes of a port descramble their blocks by. -/
def State.scrAlike (s u : State) (t p : Nat) : Prop :=
  (∀ n < 6, u.is t (LNK_LANE_CTRL_POLARITY n) = s.is t (LNK_LANE_CTRL_POLARITY n)) ∧ ∀ k, ((u.port t p).rx.lane k).scr = ((s.port t p).rx.lane k).scr

/-- The blocks of a round are what the scramblers of its lanes make of them. -/
theorem State.roundKinds_congr (h : s.scrAlike u t p) (l : List (Nat × BitVec 66)) (hl : ∀ x ∈ l, x.1 < 6 ∧ x.1 / 3 = p) :
    (u.roundKinds t l).1 = (s.roundKinds t l).1 := by
  induction l generalizing s u with
  | nil => rfl
  | cons x l ih =>
    obtain ⟨n, b⟩ := x
    obtain ⟨hn6, hnp⟩ := hl (n, b) (by simp)
    dsimp only at hn6 hnp
    have hhead : u.headOf t n b = s.headOf t n b := by rw [State.headOf, State.headOf, h.1 n hn6]
    have hcont : u.contentOf t n b = s.contentOf t n b := by rw [State.contentOf, State.contentOf, h.1 n hn6]
    have hblock : (u.laneBlock t n b).1 = (s.laneBlock t n b).1 := by simp only [State.laneBlock, hnp, h.2, hhead, hcont]
    have hnext : (s.laneBlock t n b).2.scrAlike (u.laneBlock t n b).2 t p := by
      refine ⟨fun m hm => ?_, fun k => ?_⟩
      · show (u.updLane _ _ _ _).is t _ = (s.updLane _ _ _ _).is t _
        rw [State.updLane, State.updLane, State.is_updPort, State.is_updPort, h.1 m hm]
      · simp only [State.laneBlock, hnp, h.2, hcont, State.lane_updLane]
        split
        · rfl
        · exact h.2 k
    show (u.laneBlock t n b).1 :: ((u.laneBlock t n b).2.roundKinds t l).1 = (s.laneBlock t n b).1 :: ((s.laneBlock t n b).2.roundKinds t l).1
    rw [hblock, ih hnext fun x hx => hl x (by simp [hx])]

theorem State.rxHolds_roundKinds (s : State) (l : List (Nat × BitVec 66)) (hl : ∀ x ∈ l, x.1 / 3 = p) : s.rxHolds (s.roundKinds t l).2 t p := by
  induction l generalizing s with
  | nil => exact s.rxHolds_refl t p
  | cons x l ih =>
    obtain ⟨n, b⟩ := x
    have hblock : s.rxHolds (s.laneBlock t n b).2 t p := by
      rw [State.laneBlock, hl (n, b) (by simp)]
      exact s.rxHolds_updLane t p _ _
    exact hblock.trans (ih _ fun x hx => hl x (by simp [hx]))

/-! The stream (R78, R97). -/

/-- What the step of the packet under assembly brings, beside the assembly. -/
def State.rxEnds (s : State) (t p : Nat) (r : AsmStep) : State :=
  let s := if r.error then s.frameErr t p else s
  match r.packet with
  | some bs => s.rxPacket t p bs
  | none => s

theorem State.rxBlock_up (hst : s.portSt t p = 5) (k : BlockKind) : s.rxBlock t p k =
    (s.updRx t p fun x => { x with asm := ((s.port t p).rx.asm.step k).asm }).rxEnds t p ((s.port t p).rx.asm.step k) := by
  rw [State.rxBlock, if_neg (by simp [hst])]
  rfl

theorem State.rxBlock_down (hst : s.portSt t p ≠ 5) (k : BlockKind) : s.rxBlock t p k = s := if_pos hst

theorem State.rxStream_down (hst : s.portSt t p ≠ 5) (l : List BlockKind) : s.rxStream t p l = s := by
  induction l with
  | nil => rfl
  | cons k l ih => rwa [State.rxStream, List.foldl_cons, State.rxBlock_down hst]

theorem State.rxStream_append (s : State) (t p : Nat) (l m : List BlockKind) : s.rxStream t p (l ++ m) = (s.rxStream t p l).rxStream t p m :=
  List.foldl_append

/-- Blocks that bring neither a framing error nor the end of a packet. -/
theorem State.rxStream_quiet_up {b : PacketAsm} (l : List BlockKind) (hst : s.portSt t p = 5) (hq : (s.port t p).rx.asm.quiet l = some b) :
    s.takesIn (s.rxStream t p l) t p ∧ ((s.rxStream t p l).port t p).rx.asm = b := by
  induction l generalizing s with
  | nil => exact ⟨s.takesIn_refl t p, Option.some.inj hq⟩
  | cons k l ih =>
    rw [PacketAsm.quiet] at hq
    split at hq
    · cases hq
    next hnone =>
      simp only [Bool.or_eq_true, not_or, Bool.not_eq_true, Option.isSome_eq_false_iff, Option.isNone_iff_eq_none] at hnone
      have hblock : s.rxBlock t p k = s.updRx t p fun x => { x with asm := ((s.port t p).rx.asm.step k).asm } := by
        rw [State.rxBlock_up hst, State.rxEnds, hnone.1, hnone.2]
        rfl
      have htakes := s.takesIn_updRx t p fun x => { x with asm := ((s.port t p).rx.asm.step k).asm }
      obtain ⟨hi, hasm⟩ := ih (htakes.portSt.trans hst) (by rw [State.updRx, State.port_updPort_same]; exact hq)
      rw [State.rxStream, List.foldl_cons, hblock]
      exact ⟨htakes.trans hi, hasm⟩

/-- The rest of a round behind the block that counts, whatever that one does to the port. -/
theorem State.takesIn_rxStream {a : PacketAsm} (l : List BlockKind) (hasm : (s.port t p).rx.asm = a) (hq : (a.quiet l).isSome) :
    s.takesIn (s.rxStream t p l) t p := by
  obtain ⟨b, hb⟩ := Option.isSome_iff_exists.1 hq
  by_cases hst : s.portSt t p = 5
  · exact (State.rxStream_quiet_up l hst (hasm ▸ hb)).1
  · rw [State.rxStream_down hst]
    exact s.takesIn_refl t p

/-! Rounds (R79). -/

/-- One round in which a block does `r` to the packet under assembly, where no lane loses block lock and no alignment round is due. -/
theorem State.rxRound_brings {r : AsmStep} {delays : List Nat} {bl : List (BitVec 66)} {pre post : List BlockKind} {k : BlockKind} {a : PacketAsm}
    (hst : s.portSt t p = 5) (hdue : (s.port t p).rx.due ≠ 0) (hok : ∀ x ∈ (s.bond t p).zip bl, headOk (s.headOf t x.1 x.2))
    (hlen : bl.length = (s.bond t p).length) (hlose : ∀ n ∈ s.bond t p, ¬ headsLose (headPush (s.laneHeads t n) true))
    (hkinds : (s.roundKinds t ((s.bond t p).zip bl)).1 = pre ++ k :: post) (hk : k.isAlign = false) (hpre : (s.port t p).rx.asm.quiet pre = some a)
    (hr : r = a.step k) : ∃ z, s.takesIn z t p ∧ (z.port t p).rx.asm = r.asm ∧ s.rxRound t p delays bl = (z.rxEnds t p r).rxStream t p post := by
  have hbond : ∀ x ∈ (s.bond t p).zip bl, x.1 < 6 ∧ x.1 / 3 = p := fun x hx => State.mem_bond (List.of_mem_zip hx).1
  have hfst : ((s.bond t p).zip bl).map Prod.fst = s.bond t p := List.map_fst_zip (by omega)
  obtain ⟨hheads, hpush⟩ := s.laneHeads_round ((s.bond t p).zip bl) hbond (by rw [hfst]; exact s.nodup_bond t p) hok
  obtain ⟨w, hw⟩ : ∃ w, w = ((s.bond t p).zip bl).foldl (fun s (n, b) => s.laneHead t n b) s := ⟨_, rfl⟩
  rw [← hw] at hheads hpush
  have hgone : (w.bond t p).filter (fun n => w.lockGone t n) = [] := by
    rw [hheads.1.1.bond]
    refine List.filter_eq_nil_iff.2 fun n hn => ?_
    rw [State.lockGone, hpush n (State.mem_bond hn).2, hfst, if_pos hn, Bool.and_eq_true, not_and]
    exact fun _ => hlose n hn
  have hsame : (w.roundKinds t ((s.bond t p).zip bl)).1 = pre ++ k :: post :=
    (State.roundKinds_congr ⟨fun n hn => hheads.1.1.polarity hn, hheads.2⟩ _ hbond).trans hkinds
  have hholds := hheads.1.trans (w.rxHolds_roundKinds ((s.bond t p).zip bl) fun x hx => (hbond x hx).2)
  obtain ⟨y, hy⟩ : ∃ y, y = (w.roundKinds t ((s.bond t p).zip bl)).2 := ⟨_, rfl⟩
  rw [← hy] at hholds
  have hround : s.rxRound t p delays bl = (y.updRx t p fun x => { x with due := x.due - 1 }).rxStream t p (pre ++ k :: post) := by
    unfold State.rxRound
    dsimp only
    rw [if_neg (by simp [hst]), ← hw, hgone]
    simp only [List.isEmpty_nil, Bool.not_true, Bool.false_eq_true, if_false, hsame, ← hy]
    rw [if_neg (by rw [hholds.2.2]; exact hdue), if_neg (by simp [hk])]
  have hdown := y.takesIn_updRx t p fun x => { x with due := x.due - 1 }
  obtain ⟨x, hx⟩ : ∃ x, x = y.updRx t p fun x => { x with due := x.due - 1 } := ⟨_, rfl⟩
  have hxasm : (x.port t p).rx.asm = (s.port t p).rx.asm := by
    rw [hx, State.updRx, State.port_updPort_same]
    exact hholds.2.1
  rw [← hx] at hround hdown
  have hsx := hholds.1.trans hdown
  obtain ⟨hquiet, hasm⟩ := State.rxStream_quiet_up pre (hsx.portSt.trans hst) (hxasm ▸ hpre)
  have hsq := hsx.trans hquiet
  refine ⟨(x.rxStream t p pre).updRx t p fun x => { x with asm := r.asm }, hsq.trans (State.takesIn_updRx _ t p _), ?_, ?_⟩
  · rw [State.updRx, State.port_updPort_same]
  · have hup : (x.rxStream t p pre).portSt t p = 5 := hsq.portSt.trans hst
    rw [hround, State.rxStream_append]
    show ((x.rxStream t p pre).rxBlock t p k).rxStream t p post = _
    rw [State.rxBlock_up hup, hasm, hr]

/-- Blocks of one block time make one round. -/
theorem takeRounds_one {l : List (List (BitVec 66))} (hne : l ≠ []) (hl : ∀ x ∈ l, x.length = 1) :
    takeRounds ((l.map List.length).foldl Nat.max 0) l = ([l.map (·.headD 0)], l.map List.tail) := by
  have hmax : ∀ m : List (List (BitVec 66)), (∀ x ∈ m, x.length = 1) → (m.map List.length).foldl Nat.max 1 = 1 := by
    intro m hm
    induction m with
    | nil => rfl
    | cons x m ih =>
      rw [List.map_cons, List.foldl_cons, hm x (by simp)]
      exact ih fun y hy => hm y (by simp [hy])
  have hone : (l.map List.length).foldl Nat.max 0 = 1 := by
    cases l with
    | nil => exact absurd rfl hne
    | cons x m =>
      rw [List.map_cons, List.foldl_cons, hl x (by simp)]
      exact hmax m fun y hy => hl y (by simp [hy])
  rw [hone, takeRounds, if_neg]
  · rfl
  · simp only [Bool.or_eq_true, List.isEmpty_iff, List.any_eq_true, not_or, not_exists, not_and]
    refine ⟨hne, fun x hx hempty => ?_⟩
    have := hl x hx
    simp [hempty] at this

/-- Receivers alike whose lanes have had the same headers as well. -/
def State.rxWaits (s u : State) (t p : Nat) : Prop := s.rxAlike u t p ∧ ∀ k, ((u.port t p).rx.lane k).heads = ((s.port t p).rx.lane k).heads

theorem State.rxWaits.trans (h : s.rxWaits u t p) (h' : u.rxWaits v t p) : s.rxWaits v t p := ⟨h.1.trans h'.1, fun k => (h'.2 k).trans (h.2 k)⟩

theorem State.rxWaits_of_onlyRegs (h : s.onlyRegs u (ppmWords t)) : s.rxWaits u t p := by
  have hport : u.port t p = s.port t p := State.port_congr (by rw [h.1]) t p
  exact ⟨⟨⟨State.takesIn_of_onlyRegs h, by rw [hport], by rw [hport]⟩, fun k => by rw [hport]⟩, fun k => by rw [hport]⟩

theorem State.rxWaits_queue (s : State) (t p k : Nat) (q : List (BitVec 66)) : s.rxWaits (s.updLane t p k fun x => { x with queue := q }) t p := by
  refine ⟨s.rxAlike_updLane t p k fun _ => rfl, fun j => ?_⟩
  rw [State.lane_updLane]
  split <;> rfl

/-- The frequency offsets that the lanes of a bond show (R84). -/
theorem State.onlyRegs_setPpms (s : State) (rx : List LaneRx) :
    s.onlyRegs (((s.bond t p).zip rx).foldl (fun s (n, x) => s.setPpm t n x.ppm) s) (ppmWords t) := by
  refine List.foldlRecOn (motive := fun w => s.onlyRegs w (ppmWords t)) _ _ (s.onlyRegs_refl _) fun w hw x hx => State.onlyRegs_trans hw ?_
  have hn : x.1 < 6 := (State.mem_bond (List.of_mem_zip hx).1).1
  exact w.onlyRegs_wr _ t.isLt (laneFld_ok hn (by decide) (by decide) (by decide)) ⟨x.1, hn, rfl, rfl, rfl⟩

/-- What a round brings a port, with what every lane of it has had to wait for taken away. -/
theorem State.rxBlocks_eq {rx : List LaneRx} (hlen : rx.length = (s.bond t p).length) (hne : rx ≠ [])
    (hqueue : ∀ k < rx.length, ((s.port t p).rx.lane k).queue = []) (hone : ∀ x ∈ rx, x.blocks.length = 1) :
    ∃ w, s.rxWaits w t p ∧ s.rxBlocks t p rx = w.rxRound t p (rx.map (·.delay)) (rx.map fun x => x.blocks.headD 0) := by
  have hppm := s.onlyRegs_setPpms (t := t) (p := p) rx
  obtain ⟨y, hy⟩ : ∃ y, y = ((s.bond t p).zip rx).foldl (fun s (n, x) => s.setPpm t n x.ppm) s := ⟨_, rfl⟩
  rw [← hy] at hppm
  have hyport : y.port t p = s.port t p := State.port_congr (by rw [hppm.1]) t p
  have hq : ((s.bond t p).zipIdx.map fun (_, k) => ((y.port t p).rx.lane k).queue ++ ((rx[k]?).map (·.blocks)).getD []) = rx.map (·.blocks) := by
    refine List.ext_getElem (by simp [hlen]) fun k hk hk' => ?_
    have hkrx : k < rx.length := by simpa using hk'
    simp [hyport, hqueue k hkrx, hkrx]
  have hrounds := takeRounds_one (l := rx.map (·.blocks)) (by simpa using hne) (by simpa using hone)
  refine ⟨((rx.map (·.blocks)).map List.tail).zipIdx.foldl (fun s (l, k) => s.updLane t p k fun x => { x with queue := l }) y, ?_, ?_⟩
  · refine (State.rxWaits_of_onlyRegs hppm).trans ?_
    exact List.foldlRecOn (motive := fun w => y.rxWaits w t p) _ _ (State.rxWaits_of_onlyRegs (y.onlyRegs_refl _)) fun w hw x _ =>
      hw.trans (w.rxWaits_queue t p x.2 x.1)
  · unfold State.rxBlocks
    dsimp only
    rw [← hy, hq, hrounds]
    simp only [List.foldl_cons, List.foldl_nil, List.map_map, Function.comp_def]

/-- What a command brings: the state in which a block does `r` to the packet under assembly, what that does, and the rest of the round. -/
theorem State.rxTurn_brings {rx : List LaneRx} {r : AsmStep} (h : s.roundBrings t p rx r) :
    ∃ z post, s.takesIn z t p ∧ (z.port t p).rx.asm = r.asm ∧ (r.asm.quiet post).isSome ∧ s.rxTurn t p rx = (z.rxEnds t p r).rxStream t p post := by
  obtain ⟨hst, hahead, hdue, hlen, hqueue, hone, hok, hlose, pre, k, post, a, hkinds, hk, hpre, hr, hpost⟩ := h
  have hne : rx ≠ [] := by
    rintro rfl
    simp [State.roundKinds] at hkinds
  obtain ⟨w, ⟨⟨⟨htakes, hasm, hdue'⟩, hscr⟩, hheads⟩, hblocks⟩ := State.rxBlocks_eq hlen hne hqueue hone
  have hbond : ∀ x ∈ (s.bond t p).zip (rx.map fun x => x.blocks.headD 0), x.1 < 6 ∧ x.1 / 3 = p := fun x hx => State.mem_bond (List.of_mem_zip hx).1
  obtain ⟨z, hz, hzasm, hround⟩ := State.rxRound_brings (s := w) (delays := rx.map (·.delay)) (bl := rx.map fun x => x.blocks.headD 0) (r := r) (pre := pre)
    (post := post) (k := k) (a := a) (htakes.portSt.trans hst) (by rwa [hdue'])
    (by rw [htakes.bond]; exact fun x hx => by rw [State.headOf_congr htakes (hbond x hx).1]; exact hok x hx) (by rw [htakes.bond, List.length_map, hlen])
    (fun n hn => by
      rw [htakes.bond] at hn
      have hheads' : w.laneHeads t n = s.laneHeads t n := by
        rw [State.laneHeads, State.laneHeads, (State.mem_bond hn).2]
        exact hheads _
      rw [hheads']
      exact hlose n hn)
    (by rw [htakes.bond]; exact (State.roundKinds_congr ⟨fun n hn => htakes.polarity hn, hscr⟩ _ hbond).trans hkinds) hk (hasm ▸ hpre) hr
  refine ⟨z, post, htakes.trans hz, hzasm, hpost, ?_⟩
  rw [State.rxTurn, if_neg (by omega), if_pos hst, hblocks, hround]

end Sys2Proof.Machine
end

section
/-! SUPPORT. What ends in a round of a camera port (R97, R105): the packet that is received, and an ACK. -/

namespace Sys2Proof.Machine

variable {s u v z : State} {t : Tile} {p : Port} {rx : List LaneRx} {r : AsmStep} {k : Bytes}

/-- A block that brings a framing error ends no packet. -/
theorem PacketAsm.packet_of_error (a : PacketAsm) (b : BlockKind) (h : (a.step b).error) : (a.step b).packet = none := by
  revert h
  cases a <;> cases b <;> simp [PacketAsm.step, PacketAsm.grow]
  all_goals
    split <;> simp

theorem State.roundBrings.packet_of_error (h : s.roundBrings t p rx r) (herr : r.error) : r.packet = none := by
  obtain ⟨-, -, -, -, -, -, -, -, pre, b, post, a, -, -, -, rfl, -⟩ := h
  exact a.packet_of_error b herr

theorem State.roundBrings.error_of_packet (h : s.roundBrings t p rx r) (hk : r.packet = some k) : r.error = false := by
  refine Bool.eq_false_iff.2 fun herr => ?_
  rw [h.packet_of_error herr] at hk
  cases hk

theorem State.exec_ackPacket (hlive : s.live) (hfit : s.fit t) : exec (.ackPacket t p rx) s = .next (s.after (s.rxTurn t p rx)) :=
  onTile_live (f := fun s => s.rxTurn t p rx) hlive hfit

theorem State.exec_linePacket (hlive : s.live) (hfit : s.fit t) : exec (.linePacket t p rx) s = .next (s.after (s.rxTurn t p rx)) :=
  onTile_live (f := fun s => s.rxTurn t p rx) hlive hfit

theorem State.rxEnds_error (z : State) (t p : Nat) (herr : r.error) (hnone : r.packet = none) : z.rxEnds t p r = z.frameErr t p := by
  simp [State.rxEnds, herr, hnone]

theorem State.rxEnds_packet (z : State) (t p : Nat) (herr : r.error = false) (hk : r.packet = some k) : z.rxEnds t p r = z.rxPacket t p k := by
  simp [State.rxEnds, herr, hk]

/-- A packet ends in a round: the state it is received in, and what is left of the round behind it. -/
theorem State.rxTurn_packet (h : s.roundBrings t p rx r) (hk : r.packet = some k) :
    ∃ z, s.takesIn z t p ∧ (((z.rxPacket t p k).port t p).rx.asm = (z.port t p).rx.asm → (z.rxPacket t p k).takesIn (s.rxTurn t p rx) t p) := by
  obtain ⟨z, post, hz, hasm, hpost, hturn⟩ := State.rxTurn_brings h
  rw [State.rxEnds_packet z t p (h.error_of_packet hk) hk] at hturn
  exact ⟨z, hz, fun hkeep => hturn ▸ State.takesIn_rxStream post (hkeep.trans hasm) hpost⟩

/-- A whole ACK packet (R99). -/
theorem State.rxPacket_ack (z : State) (hlen : k.length = 16) (hty : byteAt k 0 = 2) (hcrc : crcGood k) : z.rxPacket t p k = z.ack t p k := by
  simp [State.rxPacket, hcrc, hty, packetLen, hlen]

/-- The CMD that an ACK ends. -/
def State.acked (s : State) (t p : Nat) (k : Bytes) : State :=
  ((s.wr t (FXL_PORT_CMD_STATUS_STATE p) 2).wr t (FXL_PORT_CMD_STATUS_ACK_STATUS p) (byteAt k 3)).wr t (FXL_PORT_ACK_DATA p) (leAt k 8 4)

/-- An ACK while no far-end loopback has made the CMD and none waits (R105). -/
theorem State.ack_eq (hfar : (z.port t p).far = false) (hwait : (z.port t p).farWait = false) : z.ack t p k =
    if z.rd t (FXL_PORT_CMD_STATUS_STATE p) = 1 ∧ byteAt k 2 = (z.port t p).cmdTag then z.acked t p k else z.setF t (FXL_PORT_ERR_UNSOLICITED_ACK p) := by
  have hfar' : ((z.acked t p k).port t p).far = false := hfar
  have hwait' : ((z.acked t p k).port t p).farWait = false := hwait
  have hended : (if ((z.acked t p k).port t p).far then
      if byteAt k 3 = 0 then ((z.acked t p k).updPort t p fun x => { x with far := false }).enterTest t p else (z.acked t p k).farFail t p
    else (z.acked t p k).cmdEnded t p) = z.acked t p k := by
    rw [hfar', State.cmdEnded, hwait']
    rfl
  unfold State.ack
  split
  · exact hended
  · rfl

theorem byteAt_lt (k : Bytes) (i : Nat) : byteAt k i < 256 := (k.getD i 0).isLt

theorem leNat_lt (l : Bytes) : leNat l < 256 ^ l.length := by
  induction l with
  | nil => exact Nat.one_pos
  | cons b l ih =>
    have hb : b.toNat < 256 := b.isLt
    rw [leNat, List.length_cons, Nat.pow_succ]
    omega

theorem leAt_lt (k : Bytes) (o : Nat) : leAt k o 4 < 2 ^ 32 := by
  refine Nat.lt_of_lt_of_le (leNat_lt _) ?_
  rw [show (2 : Nat) ^ 32 = 256 ^ 4 by decide]
  exact Nat.pow_le_pow_right (by decide) (List.length_take_le _ _)

/-- What an ACK leaves (R105). -/
theorem State.gives_ackPacket (hlive : s.live) (hfit : s.fit t) (hfar : (s.port t p).far = false) (hwait : (s.port t p).farWait = false)
    (h : s.roundBrings t p rx r) (hk : r.packet = some k) (hlen : k.length = 16) (hty : byteAt k 0 = 2) (hcrc : crcGood k) :
    s.gives (.ackPacket t p rx) fun u =>
      if s.rd t (FXL_PORT_CMD_STATUS_STATE p) = 1 ∧ byteAt k 2 = (s.port t p).cmdTag then
        u.rd t (FXL_PORT_CMD_STATUS_STATE p) = 2 ∧ u.rd t (FXL_PORT_CMD_STATUS_ACK_STATUS p) = byteAt k 3 ∧ u.rd t (FXL_PORT_ACK_DATA p) = leAt k 8 4
      else u.rd t (FXL_PORT_ERR_UNSOLICITED_ACK p) = 1 ∧ s.sameWords u (((FXL_PORT_ERR p).wordAt t).or (ppmWords t)) := by
  obtain ⟨z, hz, hrest⟩ := State.rxTurn_packet h hk
  obtain ⟨rx', hport⟩ := hz.2.2
  have hack : z.rxPacket t p k = _ := (z.rxPacket_ack hlen hty hcrc).trans (State.ack_eq (k := k) (by rw [hport]; exact hfar) (by rw [hport]; exact hwait))
  have hblk : ∀ off hi lo, (fxl p off hi lo).blk ≠ 3 := fun _ _ _ => show 4 ≠ 3 by decide
  have hfxl : ∀ {w : State} {off hi lo : Nat}, w.takesIn (s.rxTurn t p rx) t p → off < 0x100 → lo ≤ hi → hi < 32 →
      (s.rxTurn t p rx).rd t (fxl p off hi lo) = w.rd t (fxl p off hi lo) := fun hw hoff hlo hhi => hw.rd (fxl_ok p hoff hlo hhi) (.inl (hblk _ _ _))
  have hst : z.rd t (FXL_PORT_CMD_STATUS_STATE p) = s.rd t (FXL_PORT_CMD_STATUS_STATE p) :=
    hz.rd (fxl_ok p (off := 0x3c) (hi := 1) (lo := 0) (by decide) (by decide) (by decide)) (.inl (hblk _ _ _))
  rw [hack, hst, show (z.port t p).cmdTag = (s.port t p).cmdTag by rw [hport]] at hrest
  refine State.gives_of_exec (State.exec_ackPacket hlive hfit) ?_
  split
  next hmatch =>
    rw [if_pos hmatch] at hrest
    have hturn := hrest rfl
    refine ⟨?_, ?_, ?_⟩
    · refine (hfxl (off := 0x3c) (hi := 1) (lo := 0) hturn (by decide) (by decide) (by decide)).trans ?_
      simp [State.acked, fxlFlds]
    · refine (hfxl (off := 0x3c) (hi := 15) (lo := 8) hturn (by decide) (by decide) (by decide)).trans ?_
      simpa [State.acked, fxlFlds] using Nat.mod_eq_of_lt (byteAt_lt k 3)
    · refine (hfxl (off := 0x40) (hi := 31) (lo := 0) hturn (by decide) (by decide) (by decide)).trans ?_
      simpa [State.acked, fxlFlds] using Nat.mod_eq_of_lt (leAt_lt k 8)
  next hother =>
    rw [if_neg hother] at hrest
    have hturn := hrest rfl
    refine ⟨(hfxl (off := 0x48) (hi := 2) (lo := 2) hturn (by decide) (by decide) (by decide)).trans (State.rd_setF_fxl _ (by decide) (by decide)), ?_⟩
    have hset := (z.onlyRegs_setF t.isLt (fxl_ok p (off := 0x48) (hi := 2) (lo := 2) (by decide) (by decide) (by decide)) ⟨rfl, rfl, rfl⟩ :
      z.onlyRegs _ ((FXL_PORT_ERR p).wordAt t)).2
    exact State.sameWords_trans (State.sameWords_mono hz.2.1 fun _ _ _ => .inr)
      (State.sameWords_trans (State.sameWords_mono hset fun _ _ _ => .inl) (State.sameWords_mono hturn.2.1 fun _ _ _ => .inr))

/-- Settles O29: SEND by the state of the CMD, what an ACK leaves behind the round that brings it, the timeout, and the messages of the back channel. -/
theorem cameraCommandsAndMessages : Obligations.CameraCommandsAndMessages := fun _ _ _ _ hlive hfit hfar hwait =>
  ⟨fun hsend hst => State.gives_send_busy hlive hfit hsend hst, fun hsend hst hop => State.gives_send_badOp hlive hfit hsend hst hop,
    fun hsend hst hop => State.gives_send hlive hfit hsend hst hop,
    fun _ _ _ h hk hlen hty hcrc => State.gives_ackPacket hlive hfit hfar hwait h hk hlen hty hcrc, fun hst => State.gives_cmdTimeout hlive hfit hst,
    fun hlock hfree => State.gives_messages hlive hfit hlock hfree, fun hon hv => State.gives_bcDisable hlive hfit hon hv⟩

end Sys2Proof.Machine
end

section
/-! SUPPORT. What follows from a line that is taken in or found missing (R110 to R118, R123, R350, R410) spares the links, their packets, and E of every sub-stream. -/

namespace Sys2Proof.Machine

variable {s u v : State} {t : Tile} {p : Port} {k : Sub}

/-- The words of LNK and FXL, and ING_EXPECT of every sub-stream. -/
def linkLineWords : WordSet := fun _ blk off => blk = 3 ∨ blk = 4 ∨ blk = 5 ∧ 0x40 ≤ off % 0x200 ∧ (off % 0x40 = 8 ∨ off % 0x40 = 0xC)

/-- The links' words and E stay, and so do the receivers of the ports. -/
def State.sparesLine (s u : State) : Prop :=
  s.keeps u (fun tile blk off => ¬ linkLineWords tile blk off) ∧ ∀ t p, (u.port t p).rx = (s.port t p).rx

theorem State.sparesLine_refl (s : State) : s.sparesLine s := ⟨⟨rfl, s.sameWords_refl _⟩, fun _ _ => rfl⟩

theorem State.sparesLine.trans (h : s.sparesLine u) (h' : u.sparesLine v) : s.sparesLine v :=
  ⟨State.keeps_trans h.1 h'.1, fun t p => (h'.2 t p).trans (h.2 t p)⟩

theorem State.sparesLine.of_regs (h : s.sparesLine u) (hr : v.regs = u.regs) (hb : v.bank = u.bank) (hp : v.ports = u.ports) : s.sparesLine v :=
  h.trans ⟨State.keeps_of_regs hr hb _, fun t p => by rw [State.port_congr hp]⟩

/-- A field that lies outside them. -/
def Fld.spare (f : Fld) : Prop := f.lo ≤ f.hi ∧ f.hi < 32 ∧ f.blk < 128 ∧ f.off < 2 ^ 30 ∧
  f.blk ≠ 3 ∧ f.blk ≠ 4 ∧ (f.blk ≠ 5 ∨ f.off % 0x200 < 0x40 ∨ f.off % 0x40 ≠ 8 ∧ f.off % 0x40 ≠ 0xC)

theorem Fld.spare_of {f : Fld} (h : f.spare) (tile : Nat) : f.ok ∧ ¬ linkLineWords tile f.blk f.off := by
  obtain ⟨hlo, hhi, hblk, hoff, h3, h4, h5⟩ := h
  refine ⟨⟨hlo, hhi, hblk, hoff⟩, ?_⟩
  unfold linkLineWords
  omega

/-- The fields of ING that are no sub-stream's. -/
theorem ing_spare (p : Port) {off hi lo : Nat} (hoff : off < 0x40 := by decide) (hlo : lo ≤ hi := by decide) (hhi : hi < 32 := by decide) :
    Fld.spare ⟨5, off + 0x200 * p, hi, lo⟩ := by
  unfold Fld.spare
  dsimp only
  omega

/-- The counters of a sub-stream in ING. -/
theorem ingSub_spare (p : Port) (k : Sub) {off hi lo : Nat} (hoff : 0x50 ≤ off ∧ off < 0x78 := by decide) (hlo : lo ≤ hi := by decide)
    (hhi : hi < 32 := by decide) : Fld.spare ⟨5, off + 0x200 * p + 0x40 * k, hi, lo⟩ := by
  unfold Fld.spare
  dsimp only
  omega

/-- The fields of a sub-stream in COR. -/
theorem corSub_spare (p : Port) (k : Sub) {off hi lo : Nat} (hoff : off < 0x100 := by decide) (hlo : lo ≤ hi := by decide) (hhi : hi < 32 := by decide) :
    Fld.spare ⟨6, off + 0x400 * p + 0x100 * k, hi, lo⟩ := by
  unfold Fld.spare
  dsimp only
  omega

/-! Each operation of the state, behind others that spare them. -/

theorem State.sparesLine.wr (h : s.sparesLine u) {f : Fld} {w : Nat} (hf : f.spare := by unfold Fld.spare; decide) : s.sparesLine (u.wr t f w) :=
  h.trans ⟨u.keeps_wr w t.isLt (Fld.spare_of hf t).1 (Fld.spare_of hf t).2, fun _ _ => rfl⟩

theorem State.sparesLine.clrF (h : s.sparesLine u) {f : Fld} (hf : f.spare := by unfold Fld.spare; decide) : s.sparesLine (u.clrF t f) := h.wr hf

theorem State.sparesLine.addSat (h : s.sparesLine u) {f : Fld} {n : Nat} (hf : f.spare := by unfold Fld.spare; decide) : s.sparesLine (u.addSat t f n) :=
  h.wr hf

theorem State.sparesLine.addWrap (h : s.sparesLine u) {f : Fld} {n : Nat} (hf : f.spare := by unfold Fld.spare; decide) : s.sparesLine (u.addWrap t f n) :=
  h.wr hf

theorem State.sparesLine.setF (h : s.sparesLine u) {f : Fld} (hf : f.spare := by unfold Fld.spare; decide) : s.sparesLine (u.setF t f) :=
  h.trans ⟨u.keeps_setF t.isLt (Fld.spare_of hf t).1 (Fld.spare_of hf t).2, fun _ _ => rfl⟩

theorem State.sparesLine.ite {c : Prop} [Decidable c] (h : s.sparesLine u) (h' : s.sparesLine v) : s.sparesLine (if c then u else v) := by
  split
  · exact h
  · exact h'

theorem State.sparesLine.setIf (h : s.sparesLine u) {c : Bool} {f : Fld} (hf : f.spare := by unfold Fld.spare; decide) : s.sparesLine (u.setIf c t f) :=
  (h.setF hf).ite h

theorem State.sparesLine.foldl {α : Type} {f : State → α → State} (h : s.sparesLine u) (l : List α)
    (hf : ∀ w, ∀ x ∈ l, s.sparesLine w → s.sparesLine (f w x)) : s.sparesLine (l.foldl f u) :=
  List.foldlRecOn (motive := s.sparesLine) l f h fun w hw x hx => hf w x hx hw

theorem State.sparesLine.updSub (h : s.sparesLine u) {sub : Nat} {f : SubState → SubState} : s.sparesLine (u.updSub sub f) := h.of_regs rfl rfl rfl
theorem State.sparesLine.setPath (h : s.sparesLine u) {x : Path} : s.sparesLine { u with path := x } := h.of_regs rfl rfl rfl
theorem State.sparesLine.setNet (h : s.sparesLine u) {x : Net} : s.sparesLine { u with net := x } := h.of_regs rfl rfl rfl
theorem State.sparesLine.srcPush (h : s.sparesLine u) {sub : Nat} {l : SrcLine} : s.sparesLine (u.srcPush sub l) := h.of_regs rfl rfl rfl
theorem State.sparesLine.updFir (h : s.sparesLine u) {t f : Nat} {g : FirChan → FirChan} : s.sparesLine (u.updFir t f g) := h.of_regs rfl rfl rfl
theorem State.sparesLine.txPut (h : s.sparesLine u) {p q : Nat} {f : TxFrame} : s.sparesLine (u.txPut p q f) := h.of_regs rfl rfl rfl

theorem State.sparesLine.pip (h : s.sparesLine u) {src : Nat} : s.sparesLine (u.pip t src) :=
  h.of_regs (u.regs_pip t src) (u.bank_pip t src) (by rw [u.pip_eq])

/-! The streams of corrected lines (R350 to R353). -/

theorem OUT_STR_spare {st : Nat} (h : st < 8) : (OUT_STR_DROPPED st).spare ∧ (OUT_STR_LINES st).spare := by
  unfold Fld.spare
  simp only [OUT_STR_DROPPED, OUT_STR_LINES]
  omega

theorem State.sparesLine.dstPut (h : s.sparesLine u) {d q : Nat} {pay : Bytes} : s.sparesLine (u.dstPut d q pay) := h.foldl _ fun _ _ _ hw => hw.txPut

theorem State.sparesLine.strSend (h : s.sparesLine u) {c : StrSet} {a : Nat} {mk : Bool → Bytes} (hc : c.st < 8) : s.sparesLine (u.strSend c a mk) := by
  have hdrop : s.sparesLine ((u.addSat (0 : Tile) (OUT_STR_DROPPED c.st) 1).setF (0 : Tile) OUT_ERR_DROP) := (h.addSat (OUT_STR_spare hc).1).setF
  exact h.ite (State.sparesLine.ite h.setNet.dstPut hdrop.setNet)

theorem State.sparesLine.strEmit (h : s.sparesLine u) {c : StrSet} {t : Nat} {x : StreamAcc} {b : Band} (hc : c.st < 8) : s.sparesLine (u.strEmit c t x b) := by
  unfold State.strEmit
  dsimp only
  refine State.sparesLine.ite ?_ (State.sparesLine.addWrap (t := 0) ?_ (OUT_STR_spare hc).2) <;>
    exact h.foldl _ fun _ _ _ hw => hw.strSend hc

theorem State.sparesLine.strLine1 (h : s.sparesLine u) {kind idx t a st : Nat} {b : Band} {row : List (List Nat)} (hst : st < 8) :
    s.sparesLine (u.strLine1 kind idx t b a row st) := by
  have hbad : s.sparesLine (u.setF (0 : Tile) OUT_ERR_CFG_INVALID) := h.setF
  exact h.ite (hbad.ite (State.sparesLine.setNet ((h.strEmit hst).ite h)))

theorem State.sparesLine.strMissing (h : s.sparesLine u) {sub a : Nat} : s.sparesLine (u.strMissing sub a) := by
  unfold State.strMissing State.strLine
  split
  · exact h.foldl _ fun _ _ hst hw => hw.strLine1 (List.mem_range.1 hst)
  · exact h

/-! Hold samples of the profile filters (R410). -/

theorem FIR_CH_spare {f : Nat} (h : f < 16) : (FIR_CH_IN_LOST f).spare ∧ (FIR_CH_HOLDS f).spare := by
  unfold Fld.spare
  simp only [FIR_CH_IN_LOST, FIR_CH_HOLDS]
  omega

theorem State.sparesLine.firPush (h : s.sparesLine u) {f : Nat} {x : Int} (hf : f < 16) : s.sparesLine (u.firPush t f x) :=
  State.sparesLine.ite ((h.updFir.addSat (FIR_CH_spare hf).1).setF) h.updFir.updFir

theorem State.sparesLine.firHold (h : s.sparesLine u) {f : Nat} (hf : f < 16) : s.sparesLine (u.firHold t f) :=
  (h.addSat (FIR_CH_spare hf).2).firPush hf

theorem State.sparesLine.firHoldLine (h : s.sparesLine u) {sub : Nat} : s.sparesLine (u.firHoldLine t sub) :=
  h.foldl _ fun _ _ hf hw => (hw.firHold (List.mem_range.1 hf)).ite hw

/-! Gain fades, missing lines and the staging buffers (R114 to R118, R123). -/

theorem State.sparesLine.fadeEnd (h : s.sparesLine u) {next : Option Nat} : s.sparesLine (u.fadeEnd t p k next) := by
  have hended : ∀ f, s.sparesLine ((((u.updSub (t * 8 + p * 4 + k) f).wr t (COR_PORT_SUB_GAIN_CTRL_ACTIVE p k)
      (1 - u.rd t (COR_PORT_SUB_GAIN_CTRL_ACTIVE p k))).clrF t (COR_PORT_SUB_GAIN_CTRL_FADING p k)).clrF t (COR_PORT_SUB_GAIN_CTRL_FADE_POS p k)) :=
    fun f => ((h.updSub.wr (corSub_spare p k)).clrF (corSub_spare p k)).clrF (corSub_spare p k)
  cases next with
  | none => exact hended _
  | some l => exact (hended _).updSub.ite (hended _)

theorem State.sparesLine.fadeLine (h : s.sparesLine u) {a : Nat} : s.sparesLine (u.fadeLine t p k a) := by
  unfold State.fadeLine
  split
  · exact h
  · exact h.ite (h.fadeEnd.ite (h.wr (corSub_spare p k)))

theorem State.sparesLine.missLine (h : s.sparesLine u) {a reason stage : Nat} : s.sparesLine (u.missLine t p k a reason stage) := by
  have hflags : s.sparesLine (u.cfgFlags (u.lineCfg a) t p k) := (h.setIf (ing_spare p)).setIf (corSub_spare p k)
  exact (((hflags.addSat (ingSub_spare p k)).srcPush.strMissing (sub := t * 8 + p * 4 + k)).updSub.fadeLine).firHoldLine

theorem State.sparesLine.missMapped (h : s.sparesLine u) {a : Nat} : s.sparesLine (u.missMapped t p k a) := h.missLine.ite h

theorem State.sparesLine.deadlineDrop (h : s.sparesLine u) {a : Nat} : s.sparesLine (u.deadlineDrop t p k a) := by
  have hmiss : s.sparesLine (((u.addSat t (ING_PORT_SUB_DEADLINE p k) 1).setF t (ING_PORT_ERR_DEADLINE p)).missLine t p k a 0x04 0) :=
    ((h.addSat (ingSub_spare p k)).setF (ing_spare p)).missLine
  unfold State.deadlineDrop
  dsimp only
  generalize ((u.addSat t (ING_PORT_SUB_DEADLINE p k) 1).setF t (ING_PORT_ERR_DEADLINE p)).missLine t p k a 0x04 0 = w at hmiss
  exact State.sparesLine.ite (hmiss.setPath.addSat.pip) hmiss

theorem State.sparesLine.setPipe (h : s.sparesLine u) {l : List PipeLine} : s.sparesLine (u.setPipe t p l) := by
  unfold State.setPipe
  dsimp only
  split
  · exact (h.setPath.setF (ing_spare p)).wr (ing_spare p)
  · exact h.setPath.clrF (ing_spare p)

theorem stagedFld_spare (p : Port) {j : Nat} (h : j < 4) : (stagedFld p j).spare := ing_spare p (by decide) (by omega) (by omega)

theorem State.sparesLine.setStaged (h : s.sparesLine u) {j : Nat} {l : List RawLine} (hj : j < 4) : s.sparesLine (u.setStaged t p j l) :=
  h.updSub.wr (stagedFld_spare p hj)

theorem State.sparesLine.leaveInput (h : s.sparesLine u) : s.sparesLine (u.leaveInput t p) := by
  unfold State.leaveInput
  dsimp only
  split
  · exact h
  · exact h.setPipe.setStaged (Nat.mod_lt _ (by decide))

theorem State.sparesLine.stage (h : s.sparesLine u) {l : RawLine} : s.sparesLine (u.stage t p k l) := by
  unfold State.stage
  dsimp only
  have hleft : s.sparesLine (if 4 ≤ (u.sub (t * 8 + p * 4 + k)).staged.length ∧ u.takeWaits t p then u.leaveInput t p else u) := h.leaveInput.ite h
  exact hleft.deadlineDrop.ite (State.sparesLine.ite ((hleft.addSat (ingSub_spare p k)).setF (ing_spare p)).missLine
    ((hleft.setStaged k.isLt).addWrap (ingSub_spare p k)))

end Sys2Proof.Machine
end

section
/-! SUPPORT. Ingest of a line that is neither late nor ahead of the next tick (R110 to R113): E moves on behind it. -/

namespace Sys2Proof.Machine

variable {s u v : State} {t : Tile} {p : Port} {k : Sub} {bs : Bytes} {a : Nat}

/-! A line that is accepted. -/

theorem State.rd64_of_keeps {K : WordSet} (h : s.keeps u K) {f : Fld} (hf : f.pairOk) (hK : ¬ K t f.blk f.off) (hK' : ¬ K t f.blk (f.off + 4)) :
    u.rd64 t f = s.rd64 t f := by
  obtain ⟨hbank, hwords⟩ := h
  obtain ⟨hblk, hoff⟩ := hf
  rw [State.rd64, State.rd64, State.word, State.word, State.word, State.word, hbank, hwords _ t _ _ t.isLt hblk (by omega) hK, hwords _ t _ _ t.isLt hblk hoff hK']

theorem ING_EXPECT_pairOk (p : Port) (k : Sub) : (ING_PORT_SUB_EXPECT_LO p k).pairOk := by
  unfold Fld.pairOk
  revert p k
  decide

theorem ING_EXPECT_linkLine (t : Nat) (p : Port) (k : Sub) : linkLineWords t (ING_PORT_SUB_EXPECT_LO p k).blk (ING_PORT_SUB_EXPECT_LO p k).off ∧
    linkLineWords t (ING_PORT_SUB_EXPECT_LO p k).blk ((ING_PORT_SUB_EXPECT_LO p k).off + 4) := by
  unfold linkLineWords
  revert p k
  decide

theorem State.sparesLine.expect (h : s.sparesLine u) : u.expect t p k = s.expect t p k :=
  State.rd64_of_keeps h.1 (ING_EXPECT_pairOk p k) (not_not.2 (ING_EXPECT_linkLine t p k).1) (not_not.2 (ING_EXPECT_linkLine t p k).2)

/-- A line is accepted: the lines before it are missing, and E is behind it. -/
def State.expectNext (s : State) (t p u a : Nat) : State :=
  ((s.missUpTo t p u a).wr64 t (ING_PORT_SUB_EXPECT_LO p u) (a + 1)).updPort t p fun x => { x with dirty := withBits x.dirty u u 0 }

theorem State.expect_expectNext (s : State) : (s.expectNext t p k a).expect t p k = (a + 1) % 2 ^ 64 := by
  have hupd : ∀ (w : State) (f : PortState → PortState), (w.updPort t p f).expect t p k = w.expect t p k := fun _ _ => rfl
  rw [State.expectNext, hupd, State.expect, State.rd64_wr64 _ _ t.isLt (ING_EXPECT_pairOk p k)]

/-- What becomes of a line that is accepted spares E. -/
theorem State.acceptLine_spares (hmap : s.lineMapped t p k a) : (s.expectNext t p k a).sparesLine (s.acceptLine t p k a bs) := by
  unfold State.acceptLine
  dsimp only
  rw [if_neg (by simp [hmap]), ← State.expectNext]
  generalize s.expectNext t p k a = w
  have h := w.sparesLine_refl
  refine h.missMapped.ite (h.missLine.ite (State.sparesLine.ite ((h.addSat (ingSub_spare p k)).setF (ing_spare p)).missMapped
    (State.sparesLine.ite (h.addSat (ingSub_spare p k)).missMapped ?_)))
  have hlost : w.sparesLine (if (leAt bs 10 2).testBit 0 then w.addSat t (ING_PORT_SUB_CAMLOST p k) 1 else w) := (h.addSat (ingSub_spare p k)).ite h
  exact ((hlost.addSat (ingSub_spare p k)).ite hlost).stage

/-! What ingest reads is told by no word of LNK or FXL. -/

/-- `u` is `s` but for words of LNK and FXL and what the ports keep. -/
def State.onlyLink (s u : State) : Prop := u = { s with regs := u.regs, cyc := u.cyc, ports := u.ports } ∧ s.sameWords u fun _ blk _ => blk = 3 ∨ blk = 4

theorem State.onlyLink.trans (h : s.onlyLink u) (h' : u.onlyLink v) : s.onlyLink v := by
  obtain ⟨hu, hwords⟩ := h
  obtain ⟨hv, hwords'⟩ := h'
  rw [hu] at hv
  exact ⟨hv, State.sameWords_trans hwords hwords'⟩

theorem State.takesIn.onlyLink (h : s.takesIn u t p) : s.onlyLink u :=
  ⟨h.1, State.sameWords_mono h.2.1 fun _ _ _ ⟨_, _, _, hblk, _⟩ => .inl hblk⟩

theorem State.onlyLink_wr (s : State) {f : Fld} (x : Nat) (hf : f.ok) (hblk : f.blk = 4) : s.onlyLink (s.wr t f x) :=
  ⟨rfl, (s.keeps_wr x t.isLt hf (.inr hblk)).2⟩

section Reads

theorem State.onlyLink.rdB (h : s.onlyLink u) (b : Nat) {t : Nat} (ht : t < 8) {f : Fld} (hf : f.ok) (hblk : f.blk ≠ 3 ∧ f.blk ≠ 4) :
    u.rdB b t f = s.rdB b t f :=
  congrArg (bitsOf · f.hi f.lo) (h.2 b t f.blk f.off ht hf.2.2.1 hf.2.2.2 (not_or.2 hblk))

theorem State.onlyLink.bank (h : s.onlyLink u) : u.bank = s.bank := by rw [h.1]
theorem State.onlyLink.clk (h : s.onlyLink u) : u.clk = s.clk := by rw [h.1]

theorem State.onlyLink.rd (h : s.onlyLink u) {t : Nat} (ht : t < 8) {f : Fld} (hf : f.ok) (hblk : f.blk ≠ 3 ∧ f.blk ≠ 4) : u.rd t f = s.rd t f := by
  rw [State.rd, State.rd, h.bank, h.rdB _ ht hf hblk]

theorem State.onlyLink.rd_bnd (h : s.onlyLink u) {off hi lo : Nat} (hoff : off < 2 ^ 30) (hlo : lo ≤ hi) (hhi : hi < 32) :
    u.rd 0 ⟨2, off, hi, lo⟩ = s.rd 0 ⟨2, off, hi, lo⟩ := h.rd (by decide) (bndFld_ok hoff hhi hlo) ⟨show 2 ≠ 3 by decide, show 2 ≠ 4 by decide⟩

theorem State.onlyLink.rd64_bnd (h : s.onlyLink u) {off hi lo : Nat} (hoff : off + 4 < 2 ^ 30) : u.rd64 0 ⟨2, off, hi, lo⟩ = s.rd64 0 ⟨2, off, hi, lo⟩ := by
  have hnot : ¬ ((2 : Nat) = 3 ∨ (2 : Nat) = 4) := by decide
  exact State.rd64_of_keeps (t := (0 : Tile)) ⟨h.bank, h.2⟩ ⟨show 2 < 128 by decide, hoff⟩ hnot hnot

theorem State.onlyLink.lineC (h : s.onlyLink u) : u.lineC = s.lineC := by
  rw [State.lineC, State.lineC, h.clk, BND_LINE_LO, h.rd64_bnd (by decide)]

theorem State.onlyLink.isMaster (h : s.onlyLink u) (sub : Nat) : u.isMaster sub = s.isMaster sub := by
  rw [State.isMaster, State.isMaster, BND_CTRL_SRC, BND_CTRL_MASTER_SUB, h.rd_bnd (by decide) (by decide) (by decide),
    h.rd_bnd (by decide) (by decide) (by decide)]

theorem State.onlyLink.run (h : s.onlyLink u) : u.is 0 BND_CTRL_RUN = s.is 0 BND_CTRL_RUN := by
  rw [State.is, State.is, BND_CTRL_RUN, h.rd_bnd (by decide) (by decide) (by decide)]

theorem State.onlyLink.locked (h : s.onlyLink u) (x : Pll) : u.locked t x = s.locked t x := by
  rw [State.locked, State.locked, h.rd t.isLt (f := CLK_LOCK) (by unfold Fld.ok; decide) (by decide)]

theorem ING_STAMP_OFS_ok (p : Port) (k : Sub) : (ING_PORT_SUB_STAMP_OFS p k).ok := by
  unfold Fld.ok
  revert p k
  decide

theorem ING_CFG_EN_ok (p : Port) (k : Sub) : (ING_PORT_SUB_CFG_EN p k).ok := by
  unfold Fld.ok
  revert p k
  decide

theorem State.onlyLink.assocLine (h : s.onlyLink u) (stamp : Nat) : u.assocLine t p k stamp = s.assocLine t p k stamp := by
  have hsrc : u.rd 0 BND_CTRL_SRC = s.rd 0 BND_CTRL_SRC := h.rd_bnd (by decide) (by decide) (by decide)
  have hpath : u.path = s.path := by rw [h.1]
  rw [State.assocLine, State.assocLine, h.lineC, hsrc, h.isMaster, hpath,
    h.rd t.isLt (ING_STAMP_OFS_ok p k) ⟨show 5 ≠ 3 by decide, show 5 ≠ 4 by decide⟩]

theorem State.onlyLink.expect (h : s.onlyLink u) : u.expect t p k = s.expect t p k := by
  have hnot : ¬ ((5 : Nat) = 3 ∨ (5 : Nat) = 4) := by decide
  exact State.rd64_of_keeps ⟨h.bank, h.2⟩ (ING_EXPECT_pairOk p k) hnot hnot

theorem State.onlyLink.lineMapped (h : s.onlyLink u) : u.lineMapped t p k a = s.lineMapped t p k a := by
  have hcfg : u.lineCfg a = s.lineCfg a := by
    rw [State.lineCfg, State.lineCfg, State.lineBand, State.lineBand, h.clk, State.bandIndex, State.bandIndex, BND_INDEX_LO, h.rd64_bnd (by decide)]
  have hbank : u.bankOf (s.lineCfg a) = s.bankOf (s.lineCfg a) := by rw [h.1]; rfl
  rw [State.lineMapped, State.lineMapped, hcfg, State.rdN, State.rdN, hbank,
    h.rdB _ t.isLt (ING_CFG_EN_ok p k) ⟨show 5 ≠ 3 by decide, show 5 ≠ 4 by decide⟩]

end Reads

/-! The packet of a line (R97, R110). -/

theorem State.ingest_stopped (h : ¬ s.is 0 BND_CTRL_RUN) : s.ingest t p bs = s := by
  unfold State.ingest
  exact if_pos (by simpa using h)

/-- A line that is neither late nor ahead of the next tick. -/
theorem State.ingest_line (hrun : s.is 0 BND_CTRL_RUN) (hmark : ¬ (leAt bs 10 2).testBit 1) (ha : s.assocLine t p (byteAt bs 1) (leAt bs 4 4) = a)
    (hlate : s.expect t p (byteAt bs 1) ≤ a) (hnext : (a : Int) ≤ s.lineC + 1) : s.ingest t p bs = s.acceptLine t p (byteAt bs 1) a bs := by
  unfold State.ingest
  dsimp only
  rw [if_neg (by simp [hrun]), if_neg (by simp [hmark]), ha, if_neg (by omega), if_neg (by omega), Int.toNat_natCast]

end Sys2Proof.Machine
end

section
/-! SUPPORT. The checks of a packet in the order of R97, and the count that each of them keeps. -/

namespace Sys2Proof.Machine

variable {s u v w z : State} {t : Tile} {p : Port} {rx : List LaneRx} {r : AsmStep} {bs : Bytes} {off : Nat}

/-! A count behind a round of blocks. -/

/-- The count at `off` of port `p` in FXL goes on to `x`, and beside it no more than LNK_LANE_PPM and what ports keep has changed. -/
def State.countsTo (s u : State) (t p off x : Nat) : Prop :=
  u.rd t (fxl p off 31 0) = x % 2 ^ 32 ∧ s.sameWords u (((fxl p off 31 0).wordAt t).or (ppmWords t)) ∧ u.mem = s.mem ∧ u.path = s.path

theorem State.takesIn.rd_fxl (h : s.takesIn u t p) (hoff : off < 0x100) : u.rd t (fxl p off 31 0) = s.rd t (fxl p off 31 0) :=
  h.rd (fxl_ok p hoff (by decide) (by decide)) (.inl (show 4 ≠ 3 by decide))

theorem State.takesIn.countsTo (hz : s.takesIn z t p) {x : Nat} (hoff : off < 0x100) (hw : w = { z.wr t (fxl p off 31 0) x with ports := w.ports })
    (hv : w.takesIn v t p) : s.countsTo v t p off x := by
  have hwr := z.keeps_wr x (K := (fxl p off 31 0).wordAt t) t.isLt (fxl_ok p hoff (by decide) (by decide)) ⟨rfl, rfl, rfl⟩
  have hwords : z.sameWords w ((fxl p off 31 0).wordAt t) := by rw [hw]; exact hwr.2
  refine ⟨?_, ?_, ?_, ?_⟩
  · rw [hv.rd_fxl hoff, hw]
    exact State.rd_wr_fxl z x hoff (by decide) (by decide)
  · exact State.sameWords_trans (State.sameWords_mono hz.2.1 fun _ _ _ => .inr)
      (State.sameWords_trans (State.sameWords_mono hwords fun _ _ _ => .inl) (State.sameWords_mono hv.2.1 fun _ _ _ => .inr))
  · rw [hv.1, hw, hz.1]
    rfl
  · rw [hv.1, hw, hz.1]
    rfl

/-- One more in a count that holds at its greatest value. -/
theorem State.countsTo.saturates {x : Nat} (h : s.countsTo u t p off x) (hx : x = min (s.rd t (fxl p off 31 0) + 1) 0xFFFFFFFF) :
    u.rd t (fxl p off 31 0) = min (s.rd t (fxl p off 31 0) + 1) 0xFFFFFFFF ∧ s.sameWords u (((fxl p off 31 0).wordAt t).or (ppmWords t)) ∧ u.mem = s.mem ∧
      u.path = s.path := by
  obtain ⟨hcount, hrest⟩ := h
  refine ⟨hcount.trans ?_, hrest⟩
  rw [hx]
  exact Nat.mod_eq_of_lt (Nat.lt_of_le_of_lt (Nat.min_le_right _ _) (by decide))

/-- A count of one, behind a round. -/
theorem State.takesIn.counted (hz : s.takesIn z t p) (hoff : off < 0x100) (hw : w = { z.addSat t (fxl p off 31 0) 1 with ports := w.ports })
    (hv : w.takesIn v t p) : v.rd t (fxl p off 31 0) = min (s.rd t (fxl p off 31 0) + 1) 0xFFFFFFFF ∧
      s.sameWords v (((fxl p off 31 0).wordAt t).or (ppmWords t)) ∧ v.mem = s.mem ∧ v.path = s.path :=
  (hz.countsTo (x := min (z.rd t (fxl p off 31 0) + 1) 0xFFFFFFFF) hoff hw hv).saturates (by rw [hz.rd_fxl hoff])

theorem State.takesIn.dirty (h : s.takesIn u t p) : (u.port t p).dirty = (s.port t p).dirty := by
  obtain ⟨rx, hport⟩ := h.2.2
  rw [hport]

theorem State.dirty_markDirty (s : State) (t p : Nat) : ((s.markDirty t p).port t p).dirty = 15 := by
  rw [State.markDirty, State.port_updPort_same]

theorem State.rx_markDirty (s : State) (t p : Nat) : ((s.markDirty t p).port t p).rx = (s.port t p).rx := by
  rw [State.markDirty, State.port_updPort_same]

/-! The checks (R97). -/

theorem State.rxPacket_crc (hcrc : ¬ crcGood bs) : s.rxPacket t p bs = s.crcErr t p := by simp [State.rxPacket, hcrc]

theorem State.rxPacket_type (hcrc : crcGood bs) (h : byteAt bs 0 ≠ 1 ∧ byteAt bs 0 ≠ 2 ∨ byteAt bs 0 = 1 ∧ ¬ lineFieldsOk bs) :
    s.rxPacket t p bs = s.addSat t (FXL_PORT_DISCARD p) 1 := by
  obtain ⟨h1, h2⟩ | ⟨h1, hfields⟩ := h
  · simp [State.rxPacket, hcrc, h1, h2]
  · simp [State.rxPacket, hcrc, h1, hfields]

section Line

variable (hcrc : crcGood bs) (hty : byteAt bs 0 = 1) (hfields : lineFieldsOk bs)

include hcrc hty hfields

theorem State.rxPacket_length (hlen : bs.length ≠ packetLen bs) : s.rxPacket t p bs = s.frameErr t p := by
  simp [State.rxPacket, hcrc, hty, hfields, hlen]

theorem State.rxPacket_subOff (hlen : bs.length = packetLen bs) (hsub : ¬ (s.rd t (FXL_PORT_CTRL_SUB_EN p)).testBit (byteAt bs 1)) :
    s.rxPacket t p bs = s.addSat t (FXL_PORT_DISCARD p) 1 := by
  simp [State.rxPacket, hcrc, hty, hfields, hlen, hsub]

theorem State.rxPacket_line (hlen : bs.length = packetLen bs) (hsub : (s.rd t (FXL_PORT_CTRL_SUB_EN p)).testBit (byteAt bs 1))
    (hmaster : ¬ (s.addWrap t (FXL_PORT_LINES p (byteAt bs 1)) 1).isMaster (t * 8 + p * 4 + byteAt bs 1)) : s.rxPacket t p bs =
      if (s.addWrap t (FXL_PORT_LINES p (byteAt bs 1)) 1).locked t .sys then (s.addWrap t (FXL_PORT_LINES p (byteAt bs 1)) 1).ingest t p bs
      else s.addWrap t (FXL_PORT_LINES p (byteAt bs 1)) 1 := by
  simp [State.rxPacket, hcrc, hty, hfields, hlen, hsub, hmaster]

end Line

/-- A line packet names one of four sub-streams (R94). -/
theorem byteAt_sub_lt (hfields : lineFieldsOk bs) : byteAt bs 1 < 4 := by
  simp only [lineFieldsOk, Bool.and_eq_true, decide_eq_true_eq] at hfields
  omega

theorem FXL_PORT_LINES_eq (p n : Nat) : FXL_PORT_LINES p n = fxl p (0x10 + 4 * n) 31 0 := by
  unfold FXL_PORT_LINES fxl
  rw [Nat.add_right_comm]

/-! What a port is brought, by the check that it fails. -/

section Brings

variable (hlive : s.live) (hfit : s.fit t) (h : s.roundBrings t p rx r)

include hlive hfit h

/-- A framing error. -/
theorem State.gives_frameErr (herr : r.error) : s.gives (.linePacket t p rx) fun u =>
    (u.rd t (fxl p 0x24 31 0) = min (s.rd t (fxl p 0x24 31 0) + 1) 0xFFFFFFFF ∧ s.sameWords u (((fxl p 0x24 31 0).wordAt t).or (ppmWords t)) ∧ u.mem = s.mem ∧
      u.path = s.path) ∧ (u.port t p).dirty = 15 := by
  obtain ⟨z, post, hz, hasm, hpost, hturn⟩ := State.rxTurn_brings h
  rw [State.rxEnds_error z t p herr (h.packet_of_error herr)] at hturn
  have hrest := State.takesIn_rxStream post ((congrArg PortRx.asm (State.rx_markDirty _ t p)).trans hasm) hpost (s := z.frameErr t p)
  refine State.gives_of_exec (State.exec_linePacket hlive hfit) ?_
  rw [hturn]
  have hcount := hz.counted (off := 0x24) (by decide) rfl hrest
  exact ⟨hcount, hrest.dirty.trans (State.dirty_markDirty _ t p)⟩

variable (hk : r.packet = some bs)

include hk

/-- A packet that counts at `off` and marks the port. -/
theorem State.gives_marked (hoff : off < 0x100) (hpacket : ∀ z, s.takesIn z t p → z.rxPacket t p bs = (z.addSat t (fxl p off 31 0) 1).markDirty t p) :
    s.gives (.linePacket t p rx) fun u =>
      (u.rd t (fxl p off 31 0) = min (s.rd t (fxl p off 31 0) + 1) 0xFFFFFFFF ∧ s.sameWords u (((fxl p off 31 0).wordAt t).or (ppmWords t)) ∧ u.mem = s.mem ∧
        u.path = s.path) ∧ (u.port t p).dirty = 15 := by
  obtain ⟨z, hz, hrest⟩ := State.rxTurn_packet h hk
  rw [hpacket z hz] at hrest
  have hv := hrest (congrArg PortRx.asm (State.rx_markDirty _ t p))
  have hcount := hz.counted hoff rfl hv
  exact State.gives_of_exec (State.exec_linePacket hlive hfit) ⟨hcount, hv.dirty.trans (State.dirty_markDirty _ t p)⟩

/-- A packet that counts at `off` and does nothing else. -/
theorem State.gives_counted (hoff : off < 0x100) (hpacket : ∀ z, s.takesIn z t p → z.rxPacket t p bs = z.addSat t (fxl p off 31 0) 1) :
    s.gives (.linePacket t p rx) fun u =>
      (u.rd t (fxl p off 31 0) = min (s.rd t (fxl p off 31 0) + 1) 0xFFFFFFFF ∧ s.sameWords u (((fxl p off 31 0).wordAt t).or (ppmWords t)) ∧ u.mem = s.mem ∧
        u.path = s.path) ∧ (u.port t p).dirty = (s.port t p).dirty := by
  obtain ⟨z, hz, hrest⟩ := State.rxTurn_packet h hk
  rw [hpacket z hz] at hrest
  have hv := hrest rfl
  have hcount := hz.counted hoff rfl hv
  exact State.gives_of_exec (State.exec_linePacket hlive hfit) ⟨hcount, hv.dirty.trans hz.dirty⟩

end Brings

theorem FXL_PORT_CTRL_SUB_EN_ok (p : Port) : (FXL_PORT_CTRL_SUB_EN p).ok := fxl_ok p (off := 0) (by decide) (by decide) (by decide)

theorem State.takesIn.rd_subEn (h : s.takesIn u t p) : u.rd t (FXL_PORT_CTRL_SUB_EN p) = s.rd t (FXL_PORT_CTRL_SUB_EN p) :=
  h.rd (FXL_PORT_CTRL_SUB_EN_ok p) (.inl (show 4 ≠ 3 by decide))

/-- The state in which a line packet that has passed every check is counted. -/
theorem State.takesIn.onlyLink_lines (h : s.takesIn z t p) (k : Sub) : s.onlyLink (z.addWrap t (FXL_PORT_LINES p k) 1) := by
  refine h.onlyLink.trans (State.onlyLink_wr z (t := t) _ ?_ rfl)
  rw [FXL_PORT_LINES_eq]
  exact fxl_ok p (by omega) (by decide) (by decide)

/-! A line packet that passes (R110). -/

/-- The words of LNK and FXL stay, and the receivers of the ports. -/
def State.sparesLink (s u : State) : Prop := s.keeps u (fun _ blk _ => ¬ (blk = 3 ∨ blk = 4)) ∧ ∀ t p, (u.port t p).rx = (s.port t p).rx

theorem State.sparesLine.link (h : s.sparesLine u) : s.sparesLink u := by
  refine ⟨State.keeps_mono h.1 fun _ _ _ hnot hblk => hnot ?_, h.2⟩
  unfold linkLineWords
  omega

theorem State.sparesLink.trans (h : s.sparesLink u) (h' : u.sparesLink v) : s.sparesLink v :=
  ⟨State.keeps_trans h.1 h'.1, fun t p => (h'.2 t p).trans (h.2 t p)⟩

theorem State.sparesLink.wr64_expect (h : s.sparesLink u) (k : Sub) (x : Nat) : s.sparesLink (u.wr64 t (ING_PORT_SUB_EXPECT_LO p k) x) := by
  refine h.trans ⟨?_, fun _ _ => rfl⟩
  refine State.keeps_mono (State.keeps_of_onlyRegs (u.onlyRegs_wr64 x t.isLt (ING_EXPECT_pairOk p k))) ?_
  rintro _ _ _ ⟨-, rfl, -⟩
  show ¬ ((5 : Nat) = 3 ∨ (5 : Nat) = 4)
  decide

theorem State.sparesLink.updPort (h : s.sparesLink u) {f : PortState → PortState} (hf : ∀ x, (f x).rx = x.rx) : s.sparesLink (u.updPort t p f) := by
  refine h.trans ⟨State.keeps_of_regs rfl rfl _, fun t' p' => ?_⟩
  rw [State.port_updPort]
  split
  · exact hf _
  · rfl

theorem State.sparesLink_expectNext (s : State) (k : Sub) (a : Nat) : s.sparesLink (s.expectNext t p k a) := by
  have hmiss : s.sparesLine ((List.range (a - s.expect t p k)).foldl (fun s' i => s'.missMapped t p k (s.expect t p k + i)) s) :=
    s.sparesLine_refl.foldl _ fun _ _ _ hw => hw.missMapped
  unfold State.expectNext State.missUpTo
  dsimp only
  generalize (List.range (a - s.expect t p k)).foldl (fun s' i => s'.missMapped t p k (s.expect t p k + i)) s = y at hmiss ⊢
  exact ((hmiss.link.wr64_expect k _).wr64_expect k (a + 1)).updPort fun _ => rfl

theorem State.sparesLink_ingest (s : State) (k : Sub) (hk : byteAt bs 1 = k) : s.sparesLink (s.ingest t p bs) := by
  have hrefl : s.sparesLink s := s.sparesLine_refl.link
  have hstamp : s.sparesLink (s.stampErr t p k) := State.sparesLine.link ((s.sparesLine_refl.addSat (ingSub_spare p k)).setF (ing_spare p))
  have hlate : s.sparesLink (s.addSat t (ING_PORT_SUB_LATE p k) 1) := (s.sparesLine_refl.addSat (ingSub_spare p k)).link
  have haccept : ∀ a, s.sparesLink (s.acceptLine t p k a bs) := fun a => by
    by_cases hmap : s.lineMapped t p k a
    · exact (s.sparesLink_expectNext k a).trans (State.acceptLine_spares hmap).link
    · have : s.acceptLine t p k a bs = s := by
        unfold State.acceptLine
        exact if_pos (by simp [hmap])
      rwa [this]
  unfold State.ingest
  dsimp only
  rw [hk]
  split
  · exact hrefl
  split
  · exact hstamp
  split
  · exact hlate
  split
  · exact hstamp
  · exact haccept _

theorem State.sparesLink.rd_fxl (h : s.sparesLink u) (hoff : off < 0x100) : u.rd t (fxl p off 31 0) = s.rd t (fxl p off 31 0) :=
  State.rd_of_keeps h.1 t.isLt (fxl_ok p hoff (by decide) (by decide)) (not_not.2 (.inr rfl))

/-- A line of a sub-stream that is no master's has been counted, and ingest has it where SYS_CLK runs. -/
theorem State.rxTurn_line (k : Sub) (h : s.roundBrings t p rx r) (hpacket : r.packet = some bs) (hcrc : crcGood bs)
    (hty : byteAt bs 0 = 1) (hfields : lineFieldsOk bs) (hk : byteAt bs 1 = k) (hlen : bs.length = packetLen bs)
    (hsub : (s.rd t (FXL_PORT_CTRL_SUB_EN p)).testBit (byteAt bs 1)) (hmaster : ¬ s.isMaster (t * 8 + p * 4 + k)) :
    ∃ z w, s.takesIn z t p ∧ w = z.addWrap t (FXL_PORT_LINES p k) 1 ∧
      (if w.locked t .sys then w.ingest t p bs else w).takesIn (s.rxTurn t p rx) t p := by
  obtain ⟨z, hz, hrest⟩ := State.rxTurn_packet h hpacket
  have hlink := hz.onlyLink_lines k
  have hsub' : (z.rd t (FXL_PORT_CTRL_SUB_EN p)).testBit (byteAt bs 1) := by rwa [hz.rd_subEn]
  rw [State.rxPacket_line hcrc hty hfields hlen hsub' (by rw [hk, hlink.isMaster]; exact hmaster), hk] at hrest
  refine ⟨z, _, hz, rfl, hrest ?_⟩
  have hspares : (z.addWrap t (FXL_PORT_LINES p k) 1).sparesLink
      (if (z.addWrap t (FXL_PORT_LINES p k) 1).locked t .sys then (z.addWrap t (FXL_PORT_LINES p k) 1).ingest t p bs else z.addWrap t (FXL_PORT_LINES p k) 1) := by
    split
    · exact State.sparesLink_ingest _ k hk
    · exact (State.sparesLine_refl _).link
  exact congrArg PortRx.asm (hspares.2 t p)

section Passes

variable {k : Sub} (hz : s.takesIn z t p) (hw : w = z.addWrap t (FXL_PORT_LINES p k) 1) (hv : (if w.locked t .sys then w.ingest t p bs else w).takesIn v t p)

include hz hw hv

/-- LINES counts the packet, whatever ingest does with it. -/
theorem State.lines_counted (hk : byteAt bs 1 = k) : v.rd t (FXL_PORT_LINES p k) = (s.rd t (FXL_PORT_LINES p k) + 1) % 2 ^ 32 := by
  have hspares : w.sparesLink (if w.locked t .sys then w.ingest t p bs else w) := by
    split
    · exact w.sparesLink_ingest k hk
    · exact w.sparesLine_refl.link
  have hoff : 0x10 + 4 * (k : Nat) < 0x100 := by omega
  rw [FXL_PORT_LINES_eq] at hw ⊢
  rw [hv.rd_fxl hoff, hspares.rd_fxl hoff, hw, State.addWrap, State.rd_wr_fxl _ _ hoff (by decide) (by decide), hz.rd_fxl hoff]

/-- While RUN is 0 a line packet does nothing else. -/
theorem State.lines_stopped (hrun : ¬ s.is 0 BND_CTRL_RUN) :
    s.sameWords v (((FXL_PORT_LINES p k).wordAt t).or (ppmWords t)) ∧ v.path = s.path ∧ v.mem = s.mem := by
  have hlink : s.onlyLink w := hw ▸ hz.onlyLink_lines k
  rw [State.ingest_stopped (by rwa [hlink.run]), ite_self] at hv
  rw [FXL_PORT_LINES_eq] at hw ⊢
  have hoff : 0x10 + 4 * (k : Nat) < 0x100 := by omega
  have hports : w = { z.wr t (fxl p (0x10 + 4 * k) 31 0) (z.rd t (fxl p (0x10 + 4 * k) 31 0) + 1) with ports := w.ports } := by
    rw [hw]
    rfl
  obtain ⟨-, hwords, hmem, hpath⟩ := hz.countsTo hoff hports hv
  exact ⟨hwords, hpath, hmem⟩

/-- While RUN is 1 and SYS_CLK runs, E moves on behind a line that is neither late nor ahead of the next tick. -/
theorem State.lines_expect (hk : byteAt bs 1 = k) (hrun : s.is 0 BND_CTRL_RUN) (hlock : s.locked t .sys) (hmark : ¬ (leAt bs 10 2).testBit 1) (a : Nat)
    (ha : s.assocLine t p k (leAt bs 4 4) = a) (hlate : s.expect t p k ≤ a) (hnext : (a : Int) ≤ s.lineC + 1) (hmap : s.lineMapped t p k a) :
    v.expect t p k = (a + 1) % 2 ^ 64 := by
  have hlink : s.onlyLink w := hw ▸ hz.onlyLink_lines k
  have hmap' : w.lineMapped t p k a := by rwa [hlink.lineMapped]
  have hline : w.ingest t p bs = w.acceptLine t p k a bs := by
    rw [State.ingest_line (a := a) (by rwa [hlink.run]) hmark (by rw [hk, hlink.assocLine, ha]) (by rwa [hk, hlink.expect]) (by rwa [hlink.lineC]), hk]
  rw [if_pos (by rwa [hlink.locked]), hline] at hv
  rw [hv.onlyLink.expect, (State.acceptLine_spares hmap').expect, State.expect_expectNext]

end Passes

/-- Settles O31: the checks in order, each for the first condition that fails, and the line that passes them all. -/
theorem linePacketChecked : Obligations.LinePacketChecked := by
  intro s t p rx hlive hfit counted
  refine ⟨fun hst hahead => ?down, fun r h => ⟨fun herr => ?framing, fun bs herr hpacket => ?packet⟩⟩
  case down =>
    have hturn : s.rxTurn t p rx = s := by rw [State.rxTurn, if_neg (by omega), if_neg hst]
    have hline := State.exec_linePacket (p := p) (rx := rx) hlive hfit
    have hack := State.exec_ackPacket (p := p) (rx := rx) hlive hfit
    rw [hturn] at hline hack
    exact ⟨hline, hack⟩
  case framing => exact State.gives_frameErr hlive hfit h herr
  case packet =>
    refine ⟨fun hcrc => ?crc, fun hcrc hbad => ?type, fun hcrc hty hfields => ⟨fun hlen => ?length, fun hlen hsub => ?subOff, fun hlen hsub hmaster => ?line⟩⟩
    case crc => exact State.gives_marked (off := 0x20) hlive hfit h hpacket (by decide) fun _ _ => State.rxPacket_crc hcrc
    case type => exact State.gives_counted (off := 0x28) hlive hfit h hpacket (by decide) fun _ _ => State.rxPacket_type hcrc hbad
    case length => exact State.gives_marked (off := 0x24) hlive hfit h hpacket (by decide) fun _ _ => State.rxPacket_length hcrc hty hfields hlen
    case subOff =>
      exact State.gives_counted (off := 0x28) hlive hfit h hpacket (by decide) fun z hz => State.rxPacket_subOff hcrc hty hfields hlen (by rwa [hz.rd_subEn])
    case line =>
      obtain ⟨k, hk⟩ : ∃ k : Sub, byteAt bs 1 = k := ⟨⟨byteAt bs 1, byteAt_sub_lt hfields⟩, rfl⟩
      obtain ⟨z, w, hz, hw, hv⟩ := State.rxTurn_line k h hpacket hcrc hty hfields hk hlen hsub (by rwa [← hk])
      have hcount := State.lines_counted hz hw hv hk
      have hstopped := State.lines_stopped hz hw hv
      have hexpect := State.lines_expect hz hw hv hk
      rw [hk]
      exact State.gives_of_exec (State.exec_linePacket hlive hfit) ⟨hcount, hstopped, hexpect⟩

end Sys2Proof.Machine
end

section
/-! SUPPORT. Gain fades (R123, R124): a request and its late flag, the start of a fade, and the gain between two banks. -/

namespace Sys2Proof.Machine

variable {s u : State} {t : Tile} {p : Port} {k : Sub}

/-! Fields of a sub-stream in COR. -/

/-- A field of sub-stream `k` of port `p` in COR. -/
def cor (p k off hi lo : Nat) : Fld := ⟨6, off + 0x400 * p + 0x100 * k, hi, lo⟩

theorem cor_ok (p : Port) (k : Sub) {off hi lo : Nat} (h : off < 0x100 ∧ lo ≤ hi ∧ hi < 32) : (cor p k off hi lo).ok :=
  ⟨h.2.1, h.2.2, show 6 < 128 by decide, show off + 0x400 * p + 0x100 * k < 2 ^ 30 by omega⟩

/-- Fields of different words of a sub-stream, or of different bits, share none. -/
theorem cor_apart (p k : Nat) {off hi lo off' hi' lo' : Nat} (h : off ≠ off' ∨ hi < lo' ∨ hi' < lo) :
    (cor p k off hi lo).apart (cor p k off' hi' lo') := by
  simp only [cor, Fld.apart]
  omega

theorem State.rd_setF_oneBit (s : State) (t : Nat) {f : Fld} (hf : f.ok) (hbit : f.hi = f.lo) : (s.setF t f).rd t f = 1 := by
  rw [State.rd_setF _ _ _ hf, hbit, Nat.add_sub_cancel_left]
  rfl

/-! A write that meets the band tick of its cycle (R129). -/

/-- `u` comes from `s` by a write whose late flag is `f`: the flag tells whether it met the tick, or is kept for a tick to come in the cycle. -/
def State.lateMarked (s u : State) (t : Nat) (f : Fld) : Prop :=
  u.rd t f = (if s.inTickCycle then 1 else s.rd t f) ∧ (¬ s.inTickCycle → (t, f) ∈ u.cyc.late)

theorem State.lateMarked_lateWrite (s : State) (t : Nat) {f : Fld} (hf : f.ok) (hbit : f.hi = f.lo) : s.lateMarked (s.lateWrite t f) t f := by
  unfold State.lateMarked State.lateWrite
  split
  · exact ⟨State.rd_setF_oneBit _ _ hf hbit, fun h => absurd ‹_› h⟩
  · exact ⟨rfl, fun _ => List.mem_cons_self⟩

/-- The late flag and what is kept of it stay where another flag is set. -/
theorem State.lateMarked.setF {f g : Fld} (h : s.lateMarked u t f) (hf : f.ok) (hg : g.ok) (hfg : f.apart g) : s.lateMarked (u.setF t g) t f :=
  ⟨(State.rd_setF_ne _ t.isLt t.isLt hf hg (.inr hfg)).trans h.1, h.2⟩

theorem State.rd_lateWrite_ne (s : State) {f g : Fld} (hf : f.ok) (hg : g.ok) (hgf : g.apart f) : (s.lateWrite t f).rd t g = s.rd t g := by
  unfold State.lateWrite
  split
  · exact State.rd_setF_ne _ t.isLt t.isLt hg hf (.inr hgf)
  · rfl

theorem State.onlyRegs_lateWrite (s : State) {f : Fld} {K : WordSet} (hf : f.ok) (hK : K t f.blk f.off) : s.onlyRegs (s.lateWrite t f) K := by
  unfold State.lateWrite
  split
  · exact s.onlyRegs_setF t.isLt hf hK
  · exact ⟨rfl, s.sameWords_refl _⟩

@[simp] theorem State.path_lateWrite (s : State) (t : Nat) (f : Fld) : (s.lateWrite t f).path = s.path := by
  unfold State.lateWrite
  split <;> rfl

/-! A request (R124). -/

theorem lateWriteFld_ok (p : Port) (k : Sub) : (COR_PORT_SUB_ERR_LATE_WRITE p k).ok := cor_ok p k (by decide)
theorem queuedFld_ok (p : Port) (k : Sub) : (COR_PORT_SUB_GAIN_CTRL_QUEUED p k).ok := cor_ok p k (by decide)
theorem pendingFld_ok (p : Port) (k : Sub) : (COR_PORT_SUB_GAIN_CTRL_PENDING p k).ok := cor_ok p k (by decide)

/-- The words that a request shows in. -/
def swapWords (t p k : Nat) : WordSet := ((COR_PORT_SUB_GAIN_CTRL p k).wordAt t).or ((COR_PORT_SUB_ERR p k).wordAt t)

/-- What SWAP does beside the flag it sets: the late flag, and no other word. -/
theorem State.gainSwap_frame (s : State) {g : Fld} (hg : g.ok) (hapart : (COR_PORT_SUB_ERR_LATE_WRITE p k).apart g)
    (hword : swapWords t p k t g.blk g.off) : let u := (s.lateWrite t (COR_PORT_SUB_ERR_LATE_WRITE p k)).setF t g
    s.lateMarked u t (COR_PORT_SUB_ERR_LATE_WRITE p k) ∧ s.onlyRegs u (swapWords t p k) := by
  have hlate := lateWriteFld_ok p k
  exact ⟨(s.lateMarked_lateWrite t hlate rfl).setF hlate hg hapart,
    State.onlyRegs_trans (s.onlyRegs_lateWrite hlate (.inr ⟨rfl, rfl, rfl⟩)) (State.onlyRegs_setF _ t.isLt hg hword)⟩

/-- A field of GAIN_CTRL or SWAP_BUSY after a request has set the flag `g`. -/
theorem State.rd_gainSwap_ne (s : State) {f g : Fld} (hf : f.ok) (hg : g.ok) (hlate : f.apart (COR_PORT_SUB_ERR_LATE_WRITE p k)) (hfg : f.apart g) :
    ((s.lateWrite t (COR_PORT_SUB_ERR_LATE_WRITE p k)).setF t g).rd t f = s.rd t f := by
  rw [State.rd_setF_ne _ t.isLt t.isLt hf hg (.inr hfg), State.rd_lateWrite_ne _ (lateWriteFld_ok p k) hf hlate]

/-- A fade or a request stands before a new one. -/
def State.fadeStands (s : State) (t p k : Nat) : Prop :=
  (s.sub (t * 8 + p * 4 + k)).fade ≠ none ∨ (s.sub (t * 8 + p * 4 + k)).fadeDue ≠ none ∨ s.is t (COR_PORT_SUB_GAIN_CTRL_QUEUED p k)

/-- The flag that a request sets. -/
theorem State.gainSwap_eq (s : State) (t : Tile) (p : Port) (k : Sub) : let u := s.lateWrite t (COR_PORT_SUB_ERR_LATE_WRITE p k)
    (¬ s.fadeStands t p k → s.gainSwap t p k = u.setF t (COR_PORT_SUB_GAIN_CTRL_QUEUED p k)) ∧
    (s.fadeStands t p k → ¬ s.is t (COR_PORT_SUB_GAIN_CTRL_PENDING p k) → s.gainSwap t p k = u.setF t (COR_PORT_SUB_GAIN_CTRL_PENDING p k)) ∧
    (s.fadeStands t p k → s.is t (COR_PORT_SUB_GAIN_CTRL_PENDING p k) → s.gainSwap t p k = u.setF t (COR_PORT_SUB_ERR_SWAP_BUSY p k)) := by
  intro u
  have hsub : ∀ j, u.sub j = s.sub j := fun j => by rw [State.sub, State.path_lateWrite]; rfl
  have hqueued : u.is t (COR_PORT_SUB_GAIN_CTRL_QUEUED p k) = s.is t (COR_PORT_SUB_GAIN_CTRL_QUEUED p k) := by
    rw [State.is, State.is, State.rd_lateWrite_ne _ (lateWriteFld_ok p k) (queuedFld_ok p k) (cor_apart p k (by decide))]
  have hpending : u.is t (COR_PORT_SUB_GAIN_CTRL_PENDING p k) = s.is t (COR_PORT_SUB_GAIN_CTRL_PENDING p k) := by
    rw [State.is, State.is, State.rd_lateWrite_ne _ (lateWriteFld_ok p k) (pendingFld_ok p k) (cor_apart p k (by decide))]
  have hstands : ((s.sub (t * 8 + p * 4 + k)).fade.isNone && (s.sub (t * 8 + p * 4 + k)).fadeDue.isNone &&
      !s.is t (COR_PORT_SUB_GAIN_CTRL_QUEUED p k)) = true ↔ ¬ s.fadeStands t p k := by
    simp [State.fadeStands, and_assoc]
  unfold State.gainSwap State.gainRequest
  dsimp only
  rw [hsub, hqueued, hpending]
  refine ⟨fun h => ?_, fun h hw => ?_, fun h hw => ?_⟩
  · rw [if_pos (hstands.2 h)]
  · rw [if_neg (fun hc => hstands.1 hc h), if_neg hw]
  · rw [if_neg (fun hc => hstands.1 hc h), if_pos hw]

theorem State.exec_gainSwap (hlive : s.live) (hfit : s.fit t) : exec (.gainSwap t p k) s = .next (s.after (s.gainSwap t p k)) :=
  onTile_live (f := fun s => s.gainSwap t p k) hlive hfit

/-! The start of a fade (R123). -/

theorem State.exec_fadeStart (hlive : s.live) (hfit : s.fit t) : exec (.fadeStart t p k) s = .next (s.after (s.fadeStart t p k)) :=
  onTile_live (f := fun s => s.fadeStart t p k) hlive hfit

/-- The request whose fade starts is taken away. -/
def State.fadeTaken (s : State) (t p k : Nat) : State :=
  if s.is t (COR_PORT_SUB_GAIN_CTRL_QUEUED p k) then s.clrF t (COR_PORT_SUB_GAIN_CTRL_QUEUED p k) else s.clrF t (COR_PORT_SUB_GAIN_CTRL_PENDING p k)

/-- FADING is set and FADE_POS is 0. -/
def State.fadeShown (s : State) (t p k : Nat) : State :=
  (s.setF t (COR_PORT_SUB_GAIN_CTRL_FADING p k)).clrF t (COR_PORT_SUB_GAIN_CTRL_FADE_POS p k)

/-- The fade that waits begins at line `a`, `n` being FADE_LEN. -/
def SubState.fadeFrom (a n : Nat) (x : SubState) : SubState := { x with fadeDue := none, fade := some ⟨a, Nat.max 1 n, n == 0⟩ }

theorem State.fadeStart_eq (s : State) {a n : Nat} (hdue : (s.sub (t * 8 + p * 4 + k)).fadeDue = some (a, n)) : s.fadeStart t p k =
    ((s.fadeTaken t p k).updSub (t * 8 + p * 4 + k) (.fadeFrom a n)).fadeShown t p k := by
  unfold State.fadeStart
  rw [hdue]
  rfl

theorem State.sub_updSub_same (s : State) (j : Nat) (f : SubState → SubState) : (s.updSub j f).sub j = f (s.sub j) := smGet_set_same ..

theorem State.fadeTaken_spec (s : State) : (s.fadeTaken t p k).rd t (COR_PORT_SUB_GAIN_CTRL_QUEUED p k) = 0 ∧
    (s.fadeTaken t p k).rd t (COR_PORT_SUB_GAIN_CTRL_PENDING p k) =
      (if s.is t (COR_PORT_SUB_GAIN_CTRL_QUEUED p k) then s.rd t (COR_PORT_SUB_GAIN_CTRL_PENDING p k) else 0) ∧
    s.onlyRegs (s.fadeTaken t p k) ((COR_PORT_SUB_GAIN_CTRL p k).wordAt t) := by
  have hq := queuedFld_ok p k
  have hw := pendingFld_ok p k
  unfold State.fadeTaken
  split
  · exact ⟨State.rd_clrF _ _ _ hq, State.rd_clrF_ne _ t.isLt t.isLt hw hq (.inr (cor_apart p k (by decide))), s.onlyRegs_clrF t.isLt hq ⟨rfl, rfl, rfl⟩⟩
  · rename_i hnot
    refine ⟨?_, State.rd_clrF _ _ _ hw, s.onlyRegs_clrF t.isLt hw ⟨rfl, rfl, rfl⟩⟩
    rw [State.rd_clrF_ne _ t.isLt t.isLt hq hw (.inr (cor_apart p k (by decide)))]
    simpa [State.is] using hnot

theorem State.fadeShown_spec (s : State) : (s.fadeShown t p k).rd t (COR_PORT_SUB_GAIN_CTRL_FADING p k) = 1 ∧
    (s.fadeShown t p k).rd t (COR_PORT_SUB_GAIN_CTRL_FADE_POS p k) = 0 ∧
    (∀ j, 2 < j ∧ j < 16 → (s.fadeShown t p k).rd t (cor p k 0x1c j j) = s.rd t (cor p k 0x1c j j)) ∧
    s.onlyRegs (s.fadeShown t p k) ((COR_PORT_SUB_GAIN_CTRL p k).wordAt t) := by
  have hfading : (COR_PORT_SUB_GAIN_CTRL_FADING p k).ok := cor_ok p k (by decide)
  have hpos : (COR_PORT_SUB_GAIN_CTRL_FADE_POS p k).ok := cor_ok p k (by decide)
  unfold State.fadeShown
  refine ⟨?_, State.rd_clrF _ _ _ hpos, fun j ⟨h2, h16⟩ => ?_,
    State.onlyRegs_trans (s.onlyRegs_setF t.isLt hfading ⟨rfl, rfl, rfl⟩) (State.onlyRegs_clrF _ t.isLt hpos ⟨rfl, rfl, rfl⟩)⟩
  · rw [State.rd_clrF_ne _ t.isLt t.isLt hfading hpos (.inr (cor_apart p k (by decide))), State.rd_setF_oneBit _ _ hfading rfl]
  · have hj : (cor p k 0x1c j j).ok := cor_ok p k ⟨by decide, le_rfl, by omega⟩
    rw [State.rd_clrF_ne _ t.isLt t.isLt hj hpos (.inr (cor_apart p k (by omega))), State.rd_setF_ne _ t.isLt t.isLt hj hfading (.inr (cor_apart p k (by omega)))]

/-! The gain between two banks (R123). -/

/-- The weight of line `j` of a fade of `len` lines. -/
theorem fadeWeight_le {j len : Nat} (hlen : 0 < len) (hj : j ≤ len) : (j * 4096 + len / 2) / len ≤ 4096 := by
  rw [← Nat.lt_succ_iff, Nat.div_lt_iff_lt_mul hlen]
  omega

theorem fadeWeight_last {len : Nat} (hlen : 0 < len) : (len * 4096 + len / 2) / len = 4096 := by
  rw [Nat.mul_add_div hlen, Nat.div_eq_of_lt (by omega)]

/-- A rounded mean of two gains lies between them. -/
theorem mean_between {w a b : Nat} (hw : w ≤ 4096) :
    min a b ≤ (a * (4096 - w) + b * w + 2048) / 4096 ∧ (a * (4096 - w) + b * w + 2048) / 4096 ≤ max a b := by
  have hsplit : ∀ x, x * (4096 - w) + x * w = x * 4096 := fun x => by rw [← Nat.mul_add, Nat.sub_add_cancel hw]
  have hmin := Nat.add_le_add (Nat.mul_le_mul_right (4096 - w) (min_le_left a b)) (Nat.mul_le_mul_right w (min_le_right a b))
  have hmax := Nat.add_le_add (Nat.mul_le_mul_right (4096 - w) (le_max_left a b)) (Nat.mul_le_mul_right w (le_max_right a b))
  rw [hsplit] at hmin hmax
  omega

theorem fadeWeight_first (len : Nat) : (0 * 4096 + len / 2) / len = 0 := by
  rw [Nat.zero_mul, Nat.zero_add]
  rcases Nat.eq_zero_or_pos len with rfl | h
  · rfl
  · exact Nat.div_eq_of_lt (Nat.div_lt_self h (by decide))

theorem fadeGain_first (len a b : Nat) : fadeGain 0 len a b = a := by
  unfold fadeGain
  dsimp only
  rw [fadeWeight_first]
  omega

theorem fadeGain_last {len : Nat} (hlen : 0 < len) (a b : Nat) : fadeGain len len a b = b := by
  unfold fadeGain
  dsimp only
  rw [fadeWeight_last hlen]
  omega

theorem fadeGain_between {j len : Nat} (hlen : 0 < len) (hj : j ≤ len) (a b : Nat) :
    min a b ≤ fadeGain j len a b ∧ fadeGain j len a b ≤ max a b := mean_between (fadeWeight_le hlen hj)

/-- Settles O32: a request sets one flag beside the late flag; the start of a fade takes the request away; the gain is a rounded mean. -/
theorem gainFade : Obligations.GainFade := by
  refine ⟨fun s t p k hlive hfit => ?_, fun j len a b hlen hj => ⟨fadeGain_first len a b, fadeGain_last hlen a b, fadeGain_between hlen hj a b⟩⟩
  have hq := queuedFld_ok p k
  have hw := pendingFld_ok p k
  have hbusy : (COR_PORT_SUB_ERR_SWAP_BUSY p k).ok := cor_ok p k (by decide)
  obtain ⟨hfree, hlatched, hrefused⟩ := s.gainSwap_eq t p k
  have hexec := State.exec_gainSwap (p := p) (k := k) hlive hfit
  refine ⟨fun hfade hdue hqueued => ?queued, fun hstands hpending => ?pending, fun hstands hpending => ?refused, fun a n hdue => ?start⟩
  case queued =>
    rw [hfree (not_or.2 ⟨not_not.2 hfade, not_or.2 ⟨not_not.2 hdue, hqueued⟩⟩)] at hexec
    obtain ⟨hlate, honly⟩ := s.gainSwap_frame hq (cor_apart p k (by decide)) (.inl ⟨rfl, rfl, rfl⟩ : swapWords t p k t _ _)
    exact State.gives_of_exec hexec ⟨State.rd_setF_oneBit (s.lateWrite _ _) t hq rfl, State.rd_gainSwap_ne s hw hq (cor_apart p k (by decide)) (cor_apart p k (by decide)), hlate.1, hlate.2,
      State.onlyRegs_after honly⟩
  case pending =>
    rw [hlatched hstands hpending] at hexec
    obtain ⟨hlate, honly⟩ := s.gainSwap_frame hw (cor_apart p k (by decide)) (.inl ⟨rfl, rfl, rfl⟩ : swapWords t p k t _ _)
    exact State.gives_of_exec hexec ⟨State.rd_setF_oneBit (s.lateWrite _ _) t hw rfl, State.rd_gainSwap_ne s hq hw (cor_apart p k (by decide)) (cor_apart p k (by decide)), hlate.1, hlate.2,
      State.onlyRegs_after honly⟩
  case refused =>
    rw [hrefused hstands hpending] at hexec
    obtain ⟨hlate, honly⟩ := s.gainSwap_frame hbusy (cor_apart p k (by decide)) (.inr ⟨rfl, rfl, rfl⟩ : swapWords t p k t _ _)
    exact State.gives_of_exec hexec ⟨State.rd_setF_oneBit (s.lateWrite _ _) t hbusy rfl, State.rd_gainSwap_ne s hw hbusy (cor_apart p k (by decide)) (cor_apart p k (by decide)),
      State.rd_gainSwap_ne s hq hbusy (cor_apart p k (by decide)) (cor_apart p k (by decide)), hlate.1, hlate.2, State.onlyRegs_after honly⟩
  case start =>
    have hexec := State.exec_fadeStart (p := p) (k := k) hlive hfit
    rw [s.fadeStart_eq hdue] at hexec
    obtain ⟨hqtaken, hwtaken, htaken⟩ := s.fadeTaken_spec (t := t) (p := p) (k := k)
    have hmem : (s.fadeTaken t p k).mem = s.mem := by rw [htaken.1]
    have hsub := (s.fadeTaken t p k).sub_updSub_same (t * 8 + p * 4 + k) (.fadeFrom a n)
    generalize s.fadeTaken t p k = y at hexec hqtaken hwtaken htaken hmem hsub
    have hwords := State.sameWords_trans htaken.2 (State.sameWords_of_regs (u := y.updSub (t * 8 + p * 4 + k) (.fadeFrom a n)) rfl _)
    obtain ⟨hfading, hpos, hstay, hshown⟩ := State.fadeShown_spec (t := t) (p := p) (k := k)
      (y.updSub (t * 8 + p * 4 + k) (.fadeFrom a n))
    exact State.gives_of_exec hexec ⟨hfading, hpos, (hstay 4 (by decide)).trans hqtaken, (hstay 3 (by decide)).trans hwtaken,
      congrArg SubState.fadeDue hsub, congrArg (fun x => x.fade.isSome) hsub, State.sameWords_trans hwords hshown.2, hmem⟩

end Sys2Proof.Machine
end

section
/-! SUPPORT. What becomes of a line that is missing or has been corrected (R114, R119, R123, R126, R246, R350, R409, R410) leaves the staging buffers, the
pipeline, and the words that tell which lines have come. -/

namespace Sys2Proof.Machine

variable {s u v : State} {t : Tile} {p : Port} {k : Sub}

/-- The words that change on the way of a line: none of BND, in ING the ports' own, in COR GAIN_CTRL and ERR of the sub-streams. -/
def feedWords : WordSet := fun _ blk off => blk ≠ 2 ∧ (blk = 5 → off % 0x200 < 0x40) ∧ (blk = 6 → off % 0x100 = 0x1c ∨ off % 0x100 = 0x5c)

/-- The bands stay, and every word but those of `feedWords`. -/
def State.sparesCounts (s u : State) : Prop :=
  u = { s with regs := u.regs, cyc := u.cyc, mem := u.mem, net := u.net, path := u.path, sti := u.sti, fir := u.fir, eng := u.eng } ∧ s.sameWords u feedWords

/-- The lines in the pipeline stay, and those in the staging buffers. -/
structure State.sparesLines (s u : State) : Prop where
  pipe : u.path.pipe = s.path.pipe
  staged : ∀ j, (u.sub j).staged = (s.sub j).staged

/-- What a line is fed to spares the counts and the other lines. -/
structure State.feeds (s u : State) : Prop where
  counts : s.sparesCounts u
  lines : s.sparesLines u

theorem State.sparesCounts.trans (h : s.sparesCounts u) (h' : u.sparesCounts v) : s.sparesCounts v := by
  obtain ⟨hu, hwords⟩ := h
  obtain ⟨hv, hwords'⟩ := h'
  rw [hu] at hv
  exact ⟨hv, State.sameWords_trans hwords hwords'⟩

theorem State.sparesLines.trans (h : s.sparesLines u) (h' : u.sparesLines v) : s.sparesLines v := ⟨h'.pipe.trans h.pipe, fun j => (h'.staged j).trans (h.staged j)⟩

theorem State.feeds.trans (h : s.feeds u) (h' : u.feeds v) : s.feeds v := ⟨h.counts.trans h'.counts, h.lines.trans h'.lines⟩

theorem State.sparesLines_refl (s : State) : s.sparesLines s := ⟨rfl, fun _ => rfl⟩

theorem State.feeds_refl (s : State) : s.feeds s := ⟨⟨rfl, s.sameWords_refl _⟩, s.sparesLines_refl⟩

theorem State.sparesLines.of_path (h : s.sparesLines u) (hv : v.path = u.path) : s.sparesLines v :=
  h.trans ⟨by rw [hv], fun j => by rw [State.sub, hv]; rfl⟩

/-! What is left of the state. -/

theorem State.sparesCounts.clk (h : s.sparesCounts u) : u.clk = s.clk := by rw [h.1]
theorem State.sparesCounts.bank (h : s.sparesCounts u) : u.bank = s.bank := by rw [h.1]

theorem State.sparesCounts.bankOf (h : s.sparesCounts u) (n : Nat) : u.bankOf n = s.bankOf n := by
  rw [h.1]
  rfl

theorem State.sparesCounts.rdB (h : s.sparesCounts u) (b : Nat) {f : Fld} (hf : f.ok) (hnot : ¬ feedWords t f.blk f.off) : u.rdB b t f = s.rdB b t f :=
  congrArg (bitsOf · f.hi f.lo) (h.2 b t f.blk f.off t.isLt hf.2.2.1 hf.2.2.2 hnot)

theorem State.sparesCounts.rd (h : s.sparesCounts u) {f : Fld} (hf : f.ok) (hnot : ¬ feedWords t f.blk f.off) : u.rd t f = s.rd t f := by
  rw [State.rd, State.rd, h.bank, h.rdB _ hf hnot]

theorem State.sparesCounts.rdN (h : s.sparesCounts u) (n : Nat) {f : Fld} (hf : f.ok) (hnot : ¬ feedWords t f.blk f.off) : u.rdN n t f = s.rdN n t f := by
  rw [State.rdN, State.rdN, h.bankOf, h.rdB _ hf hnot]

theorem State.sparesCounts.rd64 (h : s.sparesCounts u) {f : Fld} (hf : f.pairOk) (hlo : ¬ feedWords t f.blk f.off) (hhi : ¬ feedWords t f.blk (f.off + 4)) :
    u.rd64 t f = s.rd64 t f :=
  State.rd64_of_keeps ⟨h.bank, h.2⟩ hf hlo hhi

theorem State.sparesCounts.bandIndex (h : s.sparesCounts u) : u.bandIndex = s.bandIndex := by
  have hnot : ∀ off, ¬ feedWords 0 2 off := fun _ hword => hword.1 rfl
  exact congrArg (· % 2 ^ 48) (h.rd64 (t := 0) (f := BND_INDEX_LO) ⟨by decide, by decide⟩ (hnot _) (hnot _))

theorem State.sparesCounts.lineBand (h : s.sparesCounts u) (a : Nat) : u.lineBand a = s.lineBand a := by rw [State.lineBand, State.lineBand, h.clk]

theorem State.sparesCounts.lineCfg (h : s.sparesCounts u) (a : Nat) : u.lineCfg a = s.lineCfg a := by
  rw [State.lineCfg, State.lineCfg, h.lineBand, h.bandIndex]

theorem State.sparesCounts.linePast (h : s.sparesCounts u) (a : Nat) : u.linePast a = s.linePast a := by
  have hhome : u.lineHome a = s.lineHome a := by
    rw [State.lineHome, State.lineHome, h.lineBand, h.bandIndex, State.openBand, State.openBand, h.clk]
  rw [State.linePast, State.linePast, hhome, h.bandIndex, h.clk]

/-! Fields of `feedWords`. -/

/-- A field that lies in one of them. -/
def Fld.fed (f : Fld) : Prop := f.ok ∧ f.blk ≠ 2 ∧ (f.blk = 5 → f.off % 0x200 < 0x40) ∧ (f.blk = 6 → f.off % 0x100 = 0x1c ∨ f.off % 0x100 = 0x5c)

/-- The fields of other blocks. -/
theorem other_fed {blk off hi lo : Nat} (h : blk ≠ 2 ∧ blk ≠ 5 ∧ blk ≠ 6 ∧ blk < 128 ∧ lo ≤ hi ∧ hi < 32) (hoff : off < 2 ^ 30) : Fld.fed ⟨blk, off, hi, lo⟩ := by
  obtain ⟨h2, h5, h6, hblk, hlo, hhi⟩ := h
  exact ⟨⟨hlo, hhi, hblk, hoff⟩, h2, fun h => absurd h h5, fun h => absurd h h6⟩

/-- The fields of ING that are no sub-stream's. -/
theorem ing_fed (p : Port) {off hi lo : Nat} (h : off < 0x40 ∧ lo ≤ hi ∧ hi < 32) : Fld.fed ⟨5, off + 0x200 * p, hi, lo⟩ :=
  ⟨⟨h.2.1, h.2.2, show 5 < 128 by decide, show off + 0x200 * p < 2 ^ 30 by omega⟩, show 5 ≠ 2 by decide, fun _ => show (off + 0x200 * p) % 0x200 < 0x40 by omega,
    fun h => absurd h (show 5 ≠ 6 by decide)⟩

/-- GAIN_CTRL and ERR of a sub-stream. -/
theorem cor_fed (p : Port) (k : Sub) {off hi lo : Nat} (h : (off = 0x1c ∨ off = 0x5c) ∧ lo ≤ hi ∧ hi < 32) : (cor p k off hi lo).fed :=
  ⟨cor_ok p k ⟨by omega, h.2⟩, show 6 ≠ 2 by decide, fun h => absurd h (show 6 ≠ 5 by decide),
    fun _ => show (off + 0x400 * p + 0x100 * k) % 0x100 = 0x1c ∨ (off + 0x400 * p + 0x100 * k) % 0x100 = 0x5c by omega⟩

/-! Each operation of the state, behind others. -/

theorem State.sparesCounts.wr (h : s.sparesCounts u) {f : Fld} {w : Nat} (hf : f.fed) : s.sparesCounts (u.wr t f w) :=
  h.trans ⟨rfl, (u.onlyRegs_wr w t.isLt hf.1 hf.2).2⟩

theorem State.sparesCounts.setF (h : s.sparesCounts u) {f : Fld} (hf : f.fed) : s.sparesCounts (u.setF t f) :=
  h.trans ⟨rfl, (u.onlyRegs_setF t.isLt hf.1 hf.2).2⟩

theorem State.sparesCounts.setPath (h : s.sparesCounts u) {x : Path} : s.sparesCounts { u with path := x } :=
  h.trans ⟨rfl, State.sameWords_of_regs (by rfl) _⟩

theorem State.feeds.wr (h : s.feeds u) {f : Fld} {w : Nat} (hf : f.fed) : s.feeds (u.wr t f w) := ⟨h.counts.wr hf, h.lines.of_path rfl⟩
theorem State.feeds.clrF (h : s.feeds u) {f : Fld} (hf : f.fed) : s.feeds (u.clrF t f) := h.wr hf
theorem State.feeds.addSat (h : s.feeds u) {f : Fld} {n : Nat} (hf : f.fed) : s.feeds (u.addSat t f n) := h.wr hf
theorem State.feeds.addWrap (h : s.feeds u) {f : Fld} {n : Nat} (hf : f.fed) : s.feeds (u.addWrap t f n) := h.wr hf
theorem State.feeds.setF (h : s.feeds u) {f : Fld} (hf : f.fed) : s.feeds (u.setF t f) := ⟨h.counts.setF hf, h.lines.of_path rfl⟩

theorem State.feeds.ite {c : Prop} [Decidable c] (h : s.feeds u) (h' : s.feeds v) : s.feeds (if c then u else v) := by
  split
  · exact h
  · exact h'

theorem State.feeds.setIf (h : s.feeds u) {c : Bool} {f : Fld} (hf : f.fed) : s.feeds (u.setIf c t f) := (h.setF hf).ite h

theorem State.feeds.foldl {α : Type} {f : State → α → State} (h : s.feeds u) (l : List α) (hf : ∀ w, ∀ x ∈ l, s.feeds w → s.feeds (f w x)) :
    s.feeds (l.foldl f u) :=
  List.foldlRecOn (motive := s.feeds) l f h fun w hw x hx => hf w x hx hw

/-- What neither registers nor the line path keep may change. -/
theorem State.feeds.setRest (h : s.feeds u) (hv : v = { u with mem := v.mem, net := v.net, sti := v.sti, fir := v.fir, eng := v.eng }) : s.feeds v := by
  refine h.trans ⟨⟨?_, State.sameWords_of_regs (by rw [hv]) _⟩, u.sparesLines_refl.of_path (by rw [hv])⟩
  rw [hv]

theorem State.staged_updSub (s : State) (j i : Nat) {f : SubState → SubState} (hf : ∀ x, (f x).staged = x.staged) :
    ((s.updSub j f).sub i).staged = (s.sub i).staged := by
  simp only [State.sub, State.updSub, smUpd]
  rw [smGet_set]
  split
  · next h => rw [hf, h]
  · rfl

theorem State.sparesLines.updSub (h : s.sparesLines u) {j : Nat} {f : SubState → SubState} (hf : ∀ x, (f x).staged = x.staged) : s.sparesLines (u.updSub j f) :=
  h.trans ⟨rfl, fun i => u.staged_updSub j i hf⟩

theorem State.feeds.updSub (h : s.feeds u) {j : Nat} {f : SubState → SubState} (hf : ∀ x, (f x).staged = x.staged) : s.feeds (u.updSub j f) :=
  ⟨h.counts.setPath, h.lines.updSub hf⟩

theorem State.feeds.updFir (h : s.feeds u) {t f : Nat} {g : FirChan → FirChan} : s.feeds (u.updFir t f g) := h.setRest rfl
theorem State.feeds.setNet (h : s.feeds u) {x : Net} : s.feeds { u with net := x } := h.setRest rfl
theorem State.feeds.srcPush (h : s.feeds u) {j : Nat} {l : SrcLine} : s.feeds (u.srcPush j l) := h.setRest rfl
theorem State.feeds.setBytes (h : s.feeds u) {a : Nat} {bs : Bytes} : s.feeds (u.setBytes a bs) := h.setRest (by rw [State.setBytes_eq])

/-! Streams of lines (R350 to R354). -/

theorem OUT_STR_fed {st : Nat} (h : st < 8) : (OUT_STR_DROPPED st).fed ∧ (OUT_STR_LINES st).fed :=
  ⟨other_fed (by decide) (by omega), other_fed (by decide) (by omega)⟩

theorem OUT_ERR_fed : OUT_ERR_DROP.fed ∧ OUT_ERR_CFG_INVALID.fed :=
  ⟨other_fed (by decide) (by decide), other_fed (by decide) (by decide)⟩

theorem State.feeds.dstPut (h : s.feeds u) {d q : Nat} {pay : Bytes} : s.feeds (u.dstPut d q pay) := h.foldl _ fun _ _ _ hw => hw.setRest rfl

theorem State.feeds.strSend (h : s.feeds u) {c : StrSet} {a : Nat} {mk : Bool → Bytes} (hc : c.st < 8) : s.feeds (u.strSend c a mk) :=
  h.ite (State.feeds.ite h.setNet.dstPut ((h.addSat (t := 0) (OUT_STR_fed hc).1).setF (t := 0) OUT_ERR_fed.1).setNet)

theorem State.feeds.strEmit (h : s.feeds u) {c : StrSet} {t : Nat} {x : StreamAcc} {b : Band} (hc : c.st < 8) : s.feeds (u.strEmit c t x b) := by
  unfold State.strEmit
  dsimp only
  refine State.feeds.ite ?_ (State.feeds.addWrap (t := 0) ?_ (OUT_STR_fed hc).2) <;>
    exact h.foldl _ fun _ _ _ hw => hw.strSend hc

theorem State.feeds.strLine (h : s.feeds u) {kind idx t a : Nat} {row : List (List Nat)} : s.feeds (u.strLine kind idx t a row) := by
  unfold State.strLine
  split
  · refine h.foldl _ fun w st hst hw => ?_
    exact hw.ite ((hw.setF (t := 0) OUT_ERR_fed.2).ite (State.feeds.setNet ((hw.strEmit (List.mem_range.1 hst)).ite hw)))
  · exact h

/-! Samples of the profile filters (R409 to R411). -/

theorem FIR_CH_fed {f : Nat} (h : f < 16) : (FIR_CH_IN_LOST f).fed ∧ (FIR_CH_HOLDS f).fed :=
  ⟨other_fed (by decide) (by omega), other_fed (by decide) (by omega)⟩

theorem FIR_ERR_IN_LOST_fed : FIR_ERR_IN_LOST.fed := other_fed (by decide) (by decide)

theorem State.feeds.firPush (h : s.feeds u) {f : Nat} {x : Int} (hf : f < 16) : s.feeds (u.firPush t f x) :=
  State.feeds.ite ((h.updFir.addSat (FIR_CH_fed hf).1).setF FIR_ERR_IN_LOST_fed) h.updFir.updFir

theorem State.feeds.firHold (h : s.feeds u) {f : Nat} (hf : f < 16) : s.feeds (u.firHold t f) := (h.addSat (FIR_CH_fed hf).2).firPush hf

theorem State.feeds.firHoldLine (h : s.feeds u) {j : Nat} : s.feeds (u.firHoldLine t j) :=
  h.foldl _ fun _ _ hf hw => (hw.firHold (List.mem_range.1 hf)).ite hw

theorem State.feeds.firLine (h : s.feeds u) {n j : Nat} {planes : List (List Nat)} : s.feeds (u.firLine n t j planes) :=
  h.foldl _ fun _ _ hf hw => State.feeds.ite ((hw.firHold (List.mem_range.1 hf)).ite (hw.firPush (List.mem_range.1 hf))) hw

/-! Taps of the engines (R246, R247). -/

theorem State.feeds.sendTap (h : s.feeds u) {b t src : Nat} {l : List FifoEntry} : s.feeds (u.sendTap b t src l) := h.foldl _ fun _ _ _ hw => hw.setRest rfl

theorem State.feeds.markTile (h : s.feeds u) {t : Nat} : s.feeds (u.markTile t) :=
  h.foldl _ fun _ _ _ hw => hw.foldl _ fun _ _ _ hz => hz.sendTap.setRest rfl

/-! A line that is missing (R114, R123). -/

/-- The fade that runs is over, `act` being the bank faded from. -/
def SubState.fadeOver (act : Nat) (x : SubState) : SubState := { x with fade := none, faded := x.fade.map (·, act) }

theorem State.feeds.fadeEnd (h : s.feeds u) {next : Option Nat} : s.feeds (u.fadeEnd t p k next) := by
  have hended : s.feeds ((((u.updSub (t * 8 + p * 4 + k) (.fadeOver (u.rd t (COR_PORT_SUB_GAIN_CTRL_ACTIVE p k)))).wr t (COR_PORT_SUB_GAIN_CTRL_ACTIVE p k)
      (1 - u.rd t (COR_PORT_SUB_GAIN_CTRL_ACTIVE p k))).clrF t (COR_PORT_SUB_GAIN_CTRL_FADING p k)).clrF t (COR_PORT_SUB_GAIN_CTRL_FADE_POS p k)) :=
    (((h.updSub (f := .fadeOver _) fun _ => rfl).wr (cor_fed p k (by decide))).clrF (cor_fed p k (by decide))).clrF (cor_fed p k (by decide))
  cases next with
  | none => exact hended
  | some l => exact State.feeds.ite (hended.updSub fun _ => rfl) hended

theorem State.feeds.fadeLine (h : s.feeds u) {a : Nat} : s.feeds (u.fadeLine t p k a) := by
  unfold State.fadeLine
  split
  · exact h
  · exact h.ite (h.fadeEnd.ite (h.wr (cor_fed p k (by decide))))

theorem State.feeds.blindLine (h : s.feeds u) {reason stage j a : Nat} : s.feeds (u.blindLine reason stage j a) := h.srcPush.strLine

theorem State.feeds.pushHist (h : s.feeds u) {j : Nat} {l : HistLine} : s.feeds (u.pushHist j l) := h.updSub fun _ => rfl

theorem State.feeds.cfgFlags (h : s.feeds u) {n : Nat} : s.feeds (u.cfgFlags n t p k) := (h.setIf (ing_fed p (by decide))).setIf (cor_fed p k (by decide))

/-- A line that is missing is counted; what goes before and what follows spares the counts. -/
theorem State.missLine_counts (s : State) (a reason stage : Nat) :
    ∃ z, s.feeds z ∧ (z.addSat t (ING_PORT_SUB_MISSING p k) 1).feeds (s.missLine t p k a reason stage) :=
  ⟨_, s.feeds_refl.cfgFlags, (((State.feeds_refl _).blindLine.pushHist).fadeLine).firHoldLine⟩

/-! Fields that no line on its way changes. -/

theorem ingSub_ok (p : Port) (k : Sub) {off hi lo : Nat} (h : off < 0x80 ∧ lo ≤ hi ∧ hi < 32) : Fld.ok ⟨5, off + 0x200 * p + 0x40 * k, hi, lo⟩ :=
  ⟨h.2.1, h.2.2, show 5 < 128 by decide, show off + 0x200 * p + 0x40 * k < 2 ^ 30 by omega⟩

theorem not_feedWords_ingSub (t : Nat) (p : Port) (k : Sub) {off : Nat} (hoff : 0x40 ≤ off ∧ off < 0x80) :
    ¬ feedWords t 5 (off + 0x200 * p + 0x40 * k) := by
  rintro ⟨-, hport, -⟩
  have := hport rfl
  omega

theorem not_feedWords_cor (t : Nat) (p : Port) (k : Sub) {off : Nat} (hoff : off < 0x100 ∧ off ≠ 0x1c ∧ off ≠ 0x5c) :
    ¬ feedWords t 6 (off + 0x400 * p + 0x100 * k) := by
  rintro ⟨-, -, hsub⟩
  have := hsub rfl
  omega

theorem ING_MISSING_ok (p : Port) (k : Sub) : (ING_PORT_SUB_MISSING p k).ok := ingSub_ok p k (by decide)

theorem ING_MISSING_not_feedWords (t : Nat) (p : Port) (k : Sub) : ¬ feedWords t (ING_PORT_SUB_MISSING p k).blk (ING_PORT_SUB_MISSING p k).off :=
  not_feedWords_ingSub t p k (by decide)

theorem State.rd_missLine (s : State) (a reason stage : Nat) : (s.missLine t p k a reason stage).rd t (ING_PORT_SUB_MISSING p k) =
    min (s.rd t (ING_PORT_SUB_MISSING p k) + 1) 0xFFFFFFFF := by
  have hf := ING_MISSING_ok p k
  have hnot := ING_MISSING_not_feedWords t p k
  obtain ⟨z, hz, hmiss⟩ := s.missLine_counts (t := t) (p := p) (k := k) a reason stage
  rw [hmiss.counts.rd hf hnot, State.rd_addSat _ _ _ _ hf, hz.counts.rd hf hnot]
  rfl

end Sys2Proof.Machine
end

section
/-! SUPPORT. The wait of a sub-stream expires (R113), and the pipeline takes a line (R115, R116). -/

namespace Sys2Proof.Machine

variable {s u v : State} {t : Tile} {p : Port} {k : Sub}

/-! The wait of a sub-stream (R113). -/

theorem State.exec_lineWaitExpiry (hlive : s.live) (hfit : s.fit t) (hrun : s.is 0 BND_CTRL_RUN) :
    exec (.lineWaitExpiry t p k) s = .next (s.after (((s.settle t p).waitExpiry t p k).markTile t)) :=
  whenEv_live (c := s.fit t && s.is 0 BND_CTRL_RUN) (f := fun s => ((s.settle t p).waitExpiry t p k).markTile t) hlive (by simp [hfit, hrun])

theorem ING_EXPECT_not_feedWords (t : Nat) (p : Port) (k : Sub) : ¬ feedWords t (ING_PORT_SUB_EXPECT_LO p k).blk (ING_PORT_SUB_EXPECT_LO p k).off ∧
    ¬ feedWords t (ING_PORT_SUB_EXPECT_LO p k).blk ((ING_PORT_SUB_EXPECT_LO p k).off + 4) := by
  refine ⟨not_feedWords_ingSub t p k (off := 0x48) (by decide), ?_⟩
  rintro ⟨-, hport, -⟩
  have : (0x48 + 0x200 * (p : Nat) + 0x40 * k + 4) % 0x200 < 0x40 := hport rfl
  omega

theorem State.sparesCounts.expect (h : s.sparesCounts u) : u.expect t p k = s.expect t p k :=
  h.rd64 (ING_EXPECT_pairOk p k) (ING_EXPECT_not_feedWords t p k).1 (ING_EXPECT_not_feedWords t p k).2

theorem State.expect_missUpTo (s : State) (a : Nat) : (s.missUpTo t p k a).expect t p k = max (s.expect t p k) a % 2 ^ 64 :=
  State.rd64_wr64 _ _ t.isLt (ING_EXPECT_pairOk p k)

/-- E alone is due: it is missing. -/
theorem State.missing_missUpTo (s : State) (hmap : s.lineMapped t p k (s.expect t p k)) : (s.missUpTo t p k (s.expect t p k + 1)).rd t (ING_PORT_SUB_MISSING p k) =
    min (s.rd t (ING_PORT_SUB_MISSING p k) + 1) 0xFFFFFFFF := by
  have hone : s.missUpTo t p k (s.expect t p k + 1) = (s.missLine t p k (s.expect t p k) (s.missReason t p k (s.expect t p k)) 15).wr64 t (ING_PORT_SUB_EXPECT_LO p k)
      (Nat.max (s.expect t p k) (s.expect t p k + 1)) := by
    unfold State.missUpTo
    dsimp only
    rw [Nat.add_sub_cancel_left]
    show ((s.missMapped t p k (s.expect t p k + 0)).wr64 _ _ _) = _
    rw [Nat.add_zero, State.missMapped, if_pos hmap]
  have hnot : ¬ (ING_PORT_SUB_EXPECT_LO p k).pairAt t t (ING_PORT_SUB_MISSING p k).blk (ING_PORT_SUB_MISSING p k).off := by
    rintro ⟨-, -, h⟩
    simp only [ING_PORT_SUB_EXPECT_LO, ING_PORT_SUB_MISSING] at h
    omega
  rw [hone, State.rd_of_onlyRegs (State.onlyRegs_wr64 _ _ t.isLt (ING_EXPECT_pairOk p k)) t.isLt (ING_MISSING_ok p k) hnot, State.rd_missLine]

theorem State.expect_waitExpiry (s : State) : (s.waitExpiry t p k).expect t p k =
    (if 0 ≤ s.lineC - s.rd t (ING_PORT_CTRL_WAIT p) then max (s.expect t p k) ((s.lineC - s.rd t (ING_PORT_CTRL_WAIT p)).toNat + 1) % 2 ^ 64
     else s.expect t p k) := by
  unfold State.waitExpiry
  dsimp only
  split
  · exact s.expect_missUpTo _
  · rfl

theorem State.waitExpiry_one (h : s.lineC - s.rd t (ING_PORT_CTRL_WAIT p) = s.expect t p k) : s.waitExpiry t p k = s.missUpTo t p k (s.expect t p k + 1) := by
  rw [State.waitExpiry, h, if_pos (Int.natCast_nonneg _), Int.toNat_natCast]

theorem State.waitExpired_spec (s : State) : (((s.waitExpiry t p k).markTile t).expect t p k =
      if 0 ≤ s.lineC - s.rd t (ING_PORT_CTRL_WAIT p) then max (s.expect t p k) ((s.lineC - s.rd t (ING_PORT_CTRL_WAIT p)).toNat + 1) % 2 ^ 64
      else s.expect t p k) ∧
    (s.lineC - s.rd t (ING_PORT_CTRL_WAIT p) = s.expect t p k → s.lineMapped t p k (s.expect t p k) →
      ((s.waitExpiry t p k).markTile t).rd t (ING_PORT_SUB_MISSING p k) = min (s.rd t (ING_PORT_SUB_MISSING p k) + 1) 0xFFFFFFFF) := by
  obtain ⟨hmark, -⟩ := (State.feeds_refl (s.waitExpiry t p k)).markTile (t := t)
  refine ⟨hmark.expect.trans s.expect_waitExpiry, fun hc hmap => ?_⟩
  rw [hmark.rd (ING_MISSING_ok p k) (ING_MISSING_not_feedWords t p k), State.waitExpiry_one hc, s.missing_missUpTo hmap]

/-! The lines of a port (R115, R131). -/

theorem State.path_setPipe (s : State) (t p : Nat) (l : List PipeLine) :
    (s.setPipe t p l).path = { s.path with pipe := smSet [] (t * 2 + p) l s.path.pipe } := by
  unfold State.setPipe
  dsimp only
  split <;> rfl

theorem State.pipe_setPipe (s : State) (t p : Nat) (l : List PipeLine) : smGet [] (t * 2 + p) (s.setPipe t p l).path.pipe = l := by
  rw [State.path_setPipe]
  exact smGet_set_same _ _ _ _

theorem State.sub_setPipe (s : State) (t p : Nat) (l : List PipeLine) (j : Nat) : (s.setPipe t p l).sub j = s.sub j := by
  rw [State.sub, State.path_setPipe]
  rfl

theorem State.sparesCounts.setPipe (h : s.sparesCounts u) {l : List PipeLine} : s.sparesCounts (u.setPipe t p l) := by
  unfold State.setPipe
  dsimp only
  split
  · exact (h.setPath.setF (ing_fed p (by decide))).wr (ing_fed p (by decide))
  · exact h.setPath.wr (ing_fed p (by decide))

/-- BUSY and CURRENT show the line in the input stage. -/
theorem State.rd_setPipe (s : State) {l : List PipeLine} {x : PipeLine} (hx : l.find? (·.input.isSome) = some x) :
    (s.setPipe t p l).rd t (ING_PORT_STATUS_BUSY p) = 1 ∧ (s.setPipe t p l).rd t (ING_PORT_STATUS_CURRENT p) = x.sub % 4 := by
  have hbusy : (ING_PORT_STATUS_BUSY p).ok := (ing_fed p (by decide)).1
  have hcurrent : (ING_PORT_STATUS_CURRENT p).ok := (ing_fed p (by decide)).1
  have happart : (ING_PORT_STATUS_BUSY p).apart (ING_PORT_STATUS_CURRENT p) := .inr (.inr (.inl (show 16 < 17 by decide)))
  unfold State.setPipe
  dsimp only
  rw [hx]
  dsimp only
  refine ⟨?_, ?_⟩
  · rw [State.rd_wr_ne _ _ t.isLt t.isLt hbusy hcurrent (.inr happart)]
    exact State.rd_setF_oneBit _ t hbusy rfl
  · rw [State.rd_wr _ _ _ _ hcurrent]
    exact Nat.mod_eq_of_lt (Nat.mod_lt _ (by decide))

theorem stagedFld_fed (p : Port) {j : Nat} (hj : j < 4) : (stagedFld p j).fed := ing_fed p (by omega)

theorem State.sparesCounts.setStaged (h : s.sparesCounts u) {j : Nat} (hj : j < 4) {l : List RawLine} : s.sparesCounts (u.setStaged t p j l) :=
  h.setPath.wr (stagedFld_fed p hj)

theorem State.sparesCounts.leaveInput (h : s.sparesCounts u) : s.sparesCounts (u.leaveInput t p) := by
  unfold State.leaveInput
  dsimp only
  split
  · exact h
  · exact h.setPipe.setStaged (Nat.mod_lt _ (by decide))

/-- The input stage is free. -/
def State.inputFree (s : State) (t p : Nat) : Prop := ∀ y ∈ smGet [] (t * 2 + p) s.path.pipe, y.input = none

theorem State.find?_input (h : s.inputFree t p) : (smGet [] (t * 2 + p) s.path.pipe).find? (·.input.isSome) = none :=
  List.find?_eq_none.2 fun y hy => by simp [h y hy]

theorem State.leaveInput_free (h : s.inputFree t p) : s.leaveInput t p = s := by
  unfold State.leaveInput
  dsimp only
  rw [State.find?_input h]

theorem State.inputFree_leaveInput (s : State) : (s.leaveInput t p).inputFree t p := by
  unfold State.leaveInput
  dsimp only
  split
  · next hnone => exact fun y hy => by simpa using List.find?_eq_none.1 hnone y hy
  · intro y hy
    have hpipe : ∀ (z : State) (j : Nat) (l : List RawLine), (z.setStaged t p j l).path.pipe = z.path.pipe := fun _ _ _ => rfl
    rw [hpipe, State.pipe_setPipe] at hy
    obtain ⟨x, -, rfl⟩ := List.mem_map.1 hy
    rfl

/-! The line that the pipeline takes (R116). -/

theorem State.exec_onClock {i : Instr} {f : State → State} (hlive : s.live) (hfit : s.fit t) (hi : exec i s = onClock s t .sys f) (hlock : s.locked t .sys) :
    exec i s = .next (s.after (f s)) := by
  rw [hi, onClock, finish_live hlive, hfit, hlock]
  rfl

theorem State.exec_onClock_self {i : Instr} {f : State → State} (hlive : s.live) (hi : exec i s = onClock s t .sys f) (hf : f s = s) : exec i s = .next s := by
  rw [hi, onClock, finish_live hlive, hf, ite_self]
  rfl

theorem State.nextStaged_lt {j : Nat} {l : RawLine} (h : s.nextStaged t p = some (j, l)) : j < 4 := by
  have hpick : ∀ x : Nat × RawLine, s.nextStaged t p = some x → x.1 < 4 := by
    unfold State.nextStaged
    dsimp only
    refine List.foldlRecOn (motive := fun m => ∀ x : Nat × RawLine, m = some x → x.1 < 4) _ _ (fun _ hx => by simp at hx) fun m hm y hy => ?_
    have hlt : y.1 < 4 := by
      obtain ⟨i, hi, hhead⟩ := List.mem_filterMap.1 (List.mem_of_mem_filter hy)
      obtain ⟨_, -, rfl⟩ := Option.map_eq_some_iff.1 hhead
      exact (by decide : ∀ i ∈ [0, 1, 2, 3], i < 4) i hi
    intro x hx
    split at hx
    · next z =>
      split at hx
      · exact Option.some.inj hx ▸ hlt
      · exact hm x hx
    · exact Option.some.inj hx ▸ hlt
  exact hpick _ h

theorem State.sparesLines.dprCount (h : s.sparesLines u) {t p k : Nat} {list : List Nat} {skipped : Nat} : s.sparesLines (u.dprCount t p k list skipped) := by
  unfold State.dprCount
  dsimp only
  have hseen := h.updSub (j := t * 8 + p * 4 + k) (f := fun x => { x with dprSeen := list }) fun _ => rfl
  split
  · exact h
  · split
    · exact hseen
    · exact hseen.of_path rfl

theorem State.enterLine_spec (s : State) (t p k : Nat) (l : RawLine) : (s.enterLine t p k l).1.sub = t * 8 + p * 4 + k ∧ (s.enterLine t p k l).1.line = l ∧
    (s.enterLine t p k l).1.input.isSome ∧ s.sparesLines (s.enterLine t p k l).2 := by
  unfold State.enterLine
  dsimp only
  exact ⟨rfl, rfl, rfl, s.sparesLines_refl.dprCount.updSub fun _ => rfl⟩

theorem State.pipeTake_none (h : s.inputFree t p) (hnone : s.nextStaged t p = none) : s.pipeTake t p = s := by
  unfold State.pipeTake
  dsimp only
  rw [State.leaveInput_free h, hnone]

theorem State.gives_pipelineTake (hlive : s.live) (hfit : s.fit t) (hlock : s.locked t .sys) {j : Nat} {l : RawLine}
    (hnext : (s.leaveInput t p).nextStaged t p = some (j, l)) : let y := s.leaveInput t p
    s.gives (.pipelineTake t p) fun x =>
      (∃ g : PipeLine, smGet [] (t * 2 + p) x.path.pipe = smGet [] (t * 2 + p) y.path.pipe ++ [g] ∧ g.sub = t * 8 + p * 4 + j ∧ g.line = l ∧ g.input.isSome) ∧
      x.rd t (ING_PORT_STATUS_BUSY p) = 1 ∧ x.rd t (ING_PORT_STATUS_CURRENT p) = j ∧
      (x.sub (t * 8 + p * 4 + j)).staged = (y.sub (t * 8 + p * 4 + j)).staged := by
  intro y
  have hexec := State.exec_onClock (i := .pipelineTake t p) (f := fun s => s.pipeTake t p) hlive hfit rfl hlock
  have htake : s.pipeTake t p = (y.enterLine t p j l).2.setPipe t p
      (smGet [] (t * 2 + p) (y.enterLine t p j l).2.path.pipe ++ [(y.enterLine t p j l).1]) := by
    unfold State.pipeTake
    dsimp only
    rw [hnext]
  obtain ⟨hsub, hline, hinput, hpipe, hstaged⟩ := y.enterLine_spec t p j l
  have hfind : (smGet [] (t * 2 + p) (y.enterLine t p j l).2.path.pipe ++ [(y.enterLine t p j l).1]).find? (·.input.isSome) = some (y.enterLine t p j l).1 := by
    rw [hpipe, List.find?_append, State.find?_input s.inputFree_leaveInput]
    simp [hinput]
  obtain ⟨hbusy, hcurrent⟩ := (y.enterLine t p j l).2.rd_setPipe hfind (t := t)
  have hj := State.nextStaged_lt hnext
  rw [htake] at hexec
  refine State.gives_of_exec hexec ⟨⟨(y.enterLine t p j l).1, ?_, hsub, hline, hinput⟩, hbusy, ?_, ?_⟩
  · rw [← hpipe]
    exact State.pipe_setPipe _ _ _ _
  · refine hcurrent.trans ?_
    rw [hsub]
    omega
  · exact (congrArg SubState.staged (State.sub_setPipe _ _ _ _ _)).trans (hstaged _)

end Sys2Proof.Machine
end

section
/-! SUPPORT. A line leaves the correction pipeline (R119, R126), and lines past their deadline leave the line path (R118). -/

namespace Sys2Proof.Machine

variable {s u v w : State} {t : Tile} {p : Port} {k : Sub}

/-! The consumers of a corrected line (R119). -/

theorem State.feeds.setStats (h : s.feeds u) {l : List StatBand} : s.feeds { u with path := { u.path with stats := l } } :=
  ⟨h.counts.setPath, h.lines.trans ⟨rfl, fun _ => rfl⟩⟩

theorem EXP_ERR_CFG_fed (j : Nat) (hj : j < 2) : (EXP_PORT_ERR_CFG_INVALID j).fed := other_fed (by decide) (by omega)

theorem State.feeds.statLine (h : s.feeds u) {n : Nat} {l : CorLine} (ht : l.sub / 8 = t) : s.feeds (u.statLine n l) := by
  unfold State.statLine
  dsimp only
  rw [ht]
  exact h.ite ((h.setF (EXP_ERR_CFG_fed _ (Nat.mod_lt _ (by decide)))).ite h.setStats)

theorem State.feeds.histStore (h : s.feeds u) {b j a : Nat} {ps : List (List Nat)} : s.feeds (u.histStore b j a ps) := h.ite h.setBytes

theorem State.feeds.tapCorrected (h : s.feeds u) {n : Nat} {l : CorLine} : s.feeds (u.tapCorrected n l) := h.sendTap

theorem State.feeds.correctedOut (h : s.feeds u) {j : Nat} {l : CorLine} (ht : l.sub / 8 = t) : s.feeds (u.correctedOut t p j l) := by
  unfold State.correctedOut
  exact State.feeds.firLine (State.feeds.strLine (State.feeds.tapCorrected (State.feeds.histStore (State.feeds.srcPush (h.statLine ht)))))

/-! A line leaves the pipeline (R126). -/

theorem State.feeds.lbufLine (h : s.feeds u) {n t p k a : Nat} {ps : List (List Nat)} : s.feeds (u.lbufLine n t p k a ps) :=
  List.foldlRecOn (motive := fun acc : State × Nat => s.feeds acc.1) _ _ h fun _ hacc _ _ => by
    dsimp only
    split
    · exact hacc
    · exact hacc.setBytes

theorem COR_LINES_ok (p : Port) (k : Sub) : (COR_PORT_SUB_LINES p k).ok := cor_ok p k (by decide)

theorem COR_LINES_not_feedWords (t : Nat) (p : Port) (k : Sub) : ¬ feedWords t (COR_PORT_SUB_LINES p k).blk (COR_PORT_SUB_LINES p k).off :=
  not_feedWords_cor t p k (by decide)

theorem COR_ALIGN_EN_ok (p : Port) (k : Sub) : (COR_PORT_SUB_CTRL_ALIGN_EN p k).ok := cor_ok p k (by decide)

theorem COR_ALIGN_EN_not_feedWords (t : Nat) (p : Port) (k : Sub) :
    ¬ feedWords t (COR_PORT_SUB_CTRL_ALIGN_EN p k).blk (COR_PORT_SUB_CTRL_ALIGN_EN p k).off := not_feedWords_cor t p k (by decide)

theorem ING_CFG_FMT_ok (p : Port) (k : Sub) : (ING_PORT_SUB_CFG_FMT p k).ok := ingSub_ok p k (by decide)

theorem ING_CFG_FMT_not_feedWords (t : Nat) (p : Port) (k : Sub) : ¬ feedWords t (ING_PORT_SUB_CFG_FMT p k).blk (ING_PORT_SUB_CFG_FMT p k).off :=
  not_feedWords_ingSub t p k (by decide)

theorem State.sparesCounts.alignOn (h : s.sparesCounts u) (n : Nat) : u.alignOn n t p k = s.alignOn n t p k := by
  rw [State.alignOn, State.alignOn, State.subPlanes, State.subPlanes, h.rdN n (COR_ALIGN_EN_ok p k) (COR_ALIGN_EN_not_feedWords t p k),
    h.rdN n (ING_CFG_FMT_ok p k) (ING_CFG_FMT_not_feedWords t p k)]

/-- The line has entered the alignment history and taken its number in a fade. -/
def State.aligned (s : State) (t p k : Nat) (x : PipeLine) : State :=
  (s.pushHist (t * 8 + p * 4 + k) ⟨x.line.a, none, x.line.expset, x.gain⟩).fadeLine t p k x.line.a

theorem State.feeds_aligned (s : State) (x : PipeLine) : s.feeds (s.aligned t p k x) := s.feeds_refl.pushHist.fadeLine

/-- A line that is not aligned leaves the pipeline corrected, and is counted. -/
theorem State.correctLine_plain (s : State) {x : PipeLine} (hoff : ¬ s.alignOn (s.lineCfg x.line.a) t p k) :
    (s.correctLine t p k x).2 = (s.aligned t p k x).addWrap t (COR_PORT_SUB_LINES p k) 1 := by
  have hoff' : ¬ (s.aligned t p k x).alignOn (s.lineCfg x.line.a) t p k := by rwa [(s.feeds_aligned x).counts.alignOn]
  unfold State.correctLine
  dsimp only
  rw [← State.aligned, if_neg hoff']

theorem State.correctLine_spec (s : State) (x : PipeLine) : s.sparesLines (s.correctLine t p k x).2 ∧ ∀ c ∈ (s.correctLine t p k x).1, c.sub / 8 = t := by
  have hsub : (t * 8 + p * 4 + k : Nat) / 8 = t := by omega
  unfold State.correctLine
  dsimp only
  rw [← State.aligned]
  have haligned := s.feeds_aligned (t := t) (p := p) (k := k) x
  split
  · split
    · exact ⟨haligned.lbufLine.blindLine.lines, fun _ hc => by cases hc⟩
    · refine ⟨haligned.lbufLine.lines.of_path rfl, fun c hc => ?_⟩
      cases hc
      exact hsub
  · refine ⟨haligned.lines.of_path rfl, fun c hc => ?_⟩
    cases hc
    exact hsub

/-- The line at the head of the pipeline leaves it; where it is still in the input stage it leaves that too. -/
def State.popPipe (s : State) (t p : Nat) (l : PipeLine) (rest : List PipeLine) : State :=
  (if l.input.isSome then s.leaveInput t p else s).setPipe t p rest

theorem State.sparesCounts_popPipe (s : State) (l : PipeLine) (rest : List PipeLine) : s.sparesCounts (s.popPipe t p l rest) := by
  unfold State.popPipe
  split
  · exact s.feeds_refl.counts.leaveInput.setPipe
  · exact s.feeds_refl.counts.setPipe

/-- What follows a line that has been corrected spares the counts and the other lines. -/
theorem State.correctedLine_spec (s : State) {l : PipeLine} {rest : List PipeLine} (hpipe : smGet [] (t * 2 + p) s.path.pipe = l :: rest)
    (hk : l.sub % 4 = k) : (((s.popPipe t p l rest).correctLine t p k l).2).feeds (s.correctedLine t p) := by
  unfold State.correctedLine
  rw [hpipe]
  dsimp only
  rw [← State.popPipe, hk]
  have hsub := ((s.popPipe t p l rest).correctLine_spec (t := t) (p := p) (k := k) l).2
  split
  · next c hc => exact ((State.feeds_refl _).correctedOut (hsub c hc)).markTile
  · exact (State.feeds_refl _).markTile

theorem State.gives_correctedLine (hlive : s.live) (hfit : s.fit t) (hlock : s.locked t .sys) {l : PipeLine} {rest : List PipeLine}
    (hpipe : smGet [] (t * 2 + p) s.path.pipe = l :: rest) (hk : l.sub % 4 = k) : s.gives (.correctedLine t p) fun x =>
      smGet [] (t * 2 + p) x.path.pipe = rest ∧
      (¬ s.alignOn (s.lineCfg l.line.a) t p k → x.rd t (COR_PORT_SUB_LINES p k) = (s.rd t (COR_PORT_SUB_LINES p k) + 1) % 2 ^ 32) := by
  have hexec := State.exec_onClock (i := .correctedLine t p) (f := fun s => s.correctedLine t p) hlive hfit rfl hlock
  have hout := s.correctedLine_spec hpipe hk
  have hpop := s.sparesCounts_popPipe (t := t) (p := p) l rest
  have hrest : smGet [] (t * 2 + p) (s.popPipe t p l rest).path.pipe = rest := State.pipe_setPipe _ _ _ _
  generalize s.popPipe t p l rest = z at hout hpop hrest
  obtain ⟨⟨hleft, -⟩, -⟩ := z.correctLine_spec (t := t) (p := p) (k := k) l
  refine State.gives_of_exec hexec ⟨?_, fun hoff => ?_⟩
  · refine Eq.trans ?_ hrest
    rw [← hleft, ← hout.lines.pipe]
    rfl
  · have hplain := z.correctLine_plain (x := l) (t := t) (p := p) (k := k) (by rwa [hpop.lineCfg, hpop.alignOn])
    refine (hout.counts.rd (COR_LINES_ok p k) (COR_LINES_not_feedWords t p k)).trans ?_
    rw [hplain, State.addWrap, State.rd_wr _ _ _ _ (COR_LINES_ok p k), (z.feeds_aligned l).counts.rd (COR_LINES_ok p k) (COR_LINES_not_feedWords t p k),
      hpop.rd (COR_LINES_ok p k) (COR_LINES_not_feedWords t p k)]
    rfl

end Sys2Proof.Machine
end

section
/-! SUPPORT. Lines past their deadline leave the line path (R118). -/

namespace Sys2Proof.Machine

variable {s u v w : State} {t : Tile} {p : Port} {k : Sub}

/-! A line that is dropped. -/

theorem State.sparesLines.missLine (h : s.sparesLines u) {a reason stage : Nat} : s.sparesLines (u.missLine t p k a reason stage) := by
  obtain ⟨z, hz, hmiss⟩ := u.missLine_counts (t := t) (p := p) (k := k) a reason stage
  exact h.trans ((hz.lines.of_path (v := z.addSat t _ 1) rfl).trans hmiss.lines)

theorem State.sparesLines.pip (h : s.sparesLines u) {t src : Nat} : s.sparesLines (u.pip t src) := h.of_path (u.path_pip t src)

theorem State.sparesLines.deadlineDrop (h : s.sparesLines u) {a : Nat} : s.sparesLines (u.deadlineDrop t p k a) := by
  have hmiss : s.sparesLines (((u.addSat t (ING_PORT_SUB_DEADLINE p k) 1).setF t (ING_PORT_ERR_DEADLINE p)).missLine t p k a 0x04 0) := by
    refine State.sparesLines.missLine (h.of_path ?_)
    rfl
  unfold State.deadlineDrop
  dsimp only
  generalize ((u.addSat t (ING_PORT_SUB_DEADLINE p k) 1).setF t (ING_PORT_ERR_DEADLINE p)).missLine t p k a 0x04 0 = z at hmiss
  split
  · refine State.sparesLines.pip ?_
    exact hmiss.trans ⟨rfl, fun _ => rfl⟩
  · exact hmiss

/-! The stages of a deadline. -/

/-- The lines of the pipeline that are past their deadline leave it. -/
def State.abandonPast (s : State) (t p : Nat) : State :=
  let pipe := smGet [] (t * 2 + p) s.path.pipe
  let late := pipe.filter fun x => s.linePast x.line.a
  if late.isEmpty then s else (late.foldl State.abandonLine s).setPipe t p (pipe.filter fun x => !s.linePast x.line.a)

/-- The lines that are staged past their deadline leave the buffer. -/
def State.dropPast (s : State) (t p k : Nat) : State :=
  let l := (s.sub (t * 8 + p * 4 + k)).staged
  if l.any fun x => s.linePast x.a then s.setStaged t p k (l.filter fun x => !s.linePast x.a) else s

/-- Where no line leaves the pipeline in the cycle, what is past its deadline is abandoned or dropped, and each line is missing. -/
theorem State.lineDeadline_eq (h : s.leavingNow t p = 0) : ∃ gone : List (Nat × RawLine), s.lineDeadline t p =
    gone.foldl (fun s x => s.deadlineDrop t p (x.1 % 4) x.2.a) ([0, 1, 2, 3].foldl (fun s k => s.dropPast t p k) (s.abandonPast t p)) := by
  unfold State.lineDeadline
  dsimp only
  rw [h, List.take_zero, List.drop_zero, List.partition_eq_filter_filter, List.nil_append]
  simp only [List.any_nil, Bool.not_false, Bool.and_true]
  exact ⟨_, rfl⟩

theorem State.feeds.abandonLine (h : s.feeds u) {l : PipeLine} : s.feeds (u.abandonLine l) := h.updSub fun _ => rfl

theorem State.sparesCounts_abandonPast (s : State) : s.sparesCounts (s.abandonPast t p) := by
  unfold State.abandonPast
  dsimp only
  split
  · exact s.feeds_refl.counts
  · exact (s.feeds_refl.foldl _ fun _ _ _ hw => hw.abandonLine).counts.setPipe

theorem State.pipe_abandonPast (s : State) : ∀ y ∈ smGet [] (t * 2 + p) (s.abandonPast t p).path.pipe, ¬ s.linePast y.line.a := by
  unfold State.abandonPast
  dsimp only
  split
  · next hnone =>
    intro y hy hpast
    exact List.ne_nil_of_mem (List.mem_filter.2 ⟨hy, hpast⟩) (List.isEmpty_iff.1 hnone)
  · intro y hy
    rw [State.pipe_setPipe] at hy
    simpa using (List.mem_filter.1 hy).2

theorem State.sparesCounts_dropPast (s : State) {j : Nat} (hj : j < 4) : s.sparesCounts (s.dropPast t p j) := by
  unfold State.dropPast
  dsimp only
  split
  · exact s.feeds_refl.counts.setStaged hj
  · exact s.feeds_refl.counts

theorem State.pipe_dropPast (s : State) (t p j : Nat) : (s.dropPast t p j).path.pipe = s.path.pipe := by
  unfold State.dropPast
  dsimp only
  split <;> rfl

theorem State.staged_setStaged (s : State) (t p j i : Nat) (l : List RawLine) : ((s.setStaged t p j l).sub (t * 8 + p * 4 + i)).staged =
    if i = j then l else (s.sub (t * 8 + p * 4 + i)).staged := by
  have hsub : ∀ n, (s.setStaged t p j l).sub n = (s.updSub (t * 8 + p * 4 + j) fun x => { x with staged := l }).sub n := fun _ => rfl
  rw [hsub, State.sub, State.updSub]
  simp only [smUpd]
  rw [smGet_set]
  by_cases h : i = j
  · rw [if_pos (by omega), if_pos h]
  · rw [if_neg (by omega), if_neg h]
    rfl

theorem State.mem_staged_dropPast (s : State) (j i : Nat) {l : RawLine} (hl : l ∈ ((s.dropPast t p j).sub (t * 8 + p * 4 + i)).staged) :
    l ∈ (s.sub (t * 8 + p * 4 + i)).staged ∧ (i = j → ¬ s.linePast l.a) := by
  unfold State.dropPast at hl
  dsimp only at hl
  split at hl
  · rw [State.staged_setStaged] at hl
    split at hl
    · next h =>
      obtain ⟨hmem, hkept⟩ := List.mem_filter.1 hl
      exact ⟨h ▸ hmem, fun _ => by simpa using hkept⟩
    · next h => exact ⟨hl, fun hij => absurd hij h⟩
  · next hnone =>
    refine ⟨hl, fun hij hpast => hnone ?_⟩
    exact List.any_eq_true.2 ⟨l, hij ▸ hl, hpast⟩

/-- The buffers of some sub-streams, one after the other. -/
theorem State.dropPasts_spec (js : List Nat) (hjs : ∀ j ∈ js, j < 4) (s : State) : let w := js.foldl (fun s j => s.dropPast t p j) s
    w.path.pipe = s.path.pipe ∧ ∀ i, ∀ l ∈ (w.sub (t * 8 + p * 4 + i)).staged, l ∈ (s.sub (t * 8 + p * 4 + i)).staged ∧ (i ∈ js → ¬ s.linePast l.a) := by
  induction js generalizing s with
  | nil => exact ⟨rfl, fun i l hl => ⟨hl, fun h => absurd h List.not_mem_nil⟩⟩
  | cons j js ih =>
    obtain ⟨hpipe, hstaged⟩ := ih (fun i hi => hjs i (List.mem_cons_of_mem _ hi)) (s.dropPast t p j)
    refine ⟨hpipe.trans (s.pipe_dropPast t p j), fun i l hl => ?_⟩
    obtain ⟨hmem, hlater⟩ := hstaged i l hl
    obtain ⟨hfirst, hnow⟩ := s.mem_staged_dropPast j i hmem
    refine ⟨hfirst, fun hi => ?_⟩
    rcases List.mem_cons.1 hi with h | h
    · exact hnow h
    · rw [← (s.sparesCounts_dropPast (hjs j List.mem_cons_self)).linePast]
      exact hlater h

theorem State.exec_linePathDeadline (hlive : s.live) (hfit : s.fit t) :
    exec (.linePathDeadline t p) s = .next (s.after ((s.lineDeadline t p).markTile t)) :=
  onTile_live (f := fun s => (s.lineDeadline t p).markTile t) hlive hfit

/-- After a deadline no line of a band past it is left. -/
theorem State.lineDeadline_spec (h : s.leavingNow t p = 0) : (∀ y ∈ smGet [] (t * 2 + p) (s.lineDeadline t p).path.pipe, ¬ s.linePast y.line.a) ∧
    ∀ j < 4, ∀ l ∈ ((s.lineDeadline t p).sub (t * 8 + p * 4 + j)).staged, ¬ s.linePast l.a := by
  obtain ⟨gone, heq⟩ := State.lineDeadline_eq h
  rw [heq]
  obtain ⟨hpipe, hstaged⟩ := State.dropPasts_spec (t := t) (p := p) [0, 1, 2, 3] (by decide) (s.abandonPast t p)
  have habandon := s.pipe_abandonPast (t := t) (p := p)
  have hcounts := s.sparesCounts_abandonPast (t := t) (p := p)
  generalize [0, 1, 2, 3].foldl (fun s j => s.dropPast t p j) (s.abandonPast t p) = z at hpipe hstaged
  have hgone : z.sparesLines (gone.foldl (fun s x => s.deadlineDrop t p (x.1 % 4) x.2.a) z) :=
    List.foldlRecOn (motive := z.sparesLines) gone _ z.sparesLines_refl fun w hw x _ => hw.deadlineDrop (k := ⟨x.1 % 4, Nat.mod_lt _ (by decide)⟩)
  refine ⟨fun y hy => ?_, fun j hj l hl => ?_⟩
  · rw [hgone.pipe, hpipe] at hy
    exact habandon y hy
  · rw [hgone.staged] at hl
    rw [← hcounts.linePast]
    exact (hstaged j l hl).2 (by simp only [List.mem_cons]; omega)

theorem State.gives_linePathDeadline (hlive : s.live) (hfit : s.fit t) (h : s.leavingNow t p = 0) : s.gives (.linePathDeadline t p) fun x =>
    (∀ y ∈ smGet [] (t * 2 + p) x.path.pipe, ¬ s.linePast y.line.a) ∧
      ∀ j < 4, ∀ l ∈ (x.sub (t * 8 + p * 4 + j)).staged, ¬ s.linePast l.a := by
  obtain ⟨hpipe, hstaged⟩ := State.lineDeadline_spec h
  obtain ⟨-, hmark⟩ := (State.feeds_refl (s.lineDeadline t p)).markTile (t := t)
  have hexec := State.exec_linePathDeadline (p := p) hlive hfit
  generalize (s.lineDeadline t p).markTile t = z at hexec hmark
  rw [← hmark.pipe] at hpipe
  exact State.gives_of_exec hexec ⟨hpipe, fun j hj l hl => hstaged j hj l (hmark.staged _ ▸ hl)⟩

end Sys2Proof.Machine
end

section
/-! SUPPORT. The end of a band's statistics (R141, R143, R145 to R149), and what the line path's stages come to. -/

namespace Sys2Proof.Machine

variable {s u v : State} {t : Tile} {p : Port} {k : Sub}

/-! What a release does beside the statistics it takes. -/

/-- The statistics that are kept stay, and the band that is due next. -/
structure State.sparesStats (s u : State) : Prop where
  stats : u.path.stats = s.path.stats
  next : u.path.statNext = s.path.statNext

theorem State.sparesStats_refl (s : State) : s.sparesStats s := ⟨rfl, rfl⟩

theorem State.sparesStats.trans (h : s.sparesStats u) (h' : u.sparesStats v) : s.sparesStats v := ⟨h'.stats.trans h.stats, h'.next.trans h.next⟩

theorem State.sparesStats.of_path (h : s.sparesStats u) (hv : v.path = u.path) : s.sparesStats v := h.trans ⟨by rw [hv], by rw [hv]⟩

theorem State.sparesStats.ite {c : Prop} [Decidable c] (h : s.sparesStats u) (h' : s.sparesStats v) : s.sparesStats (if c then u else v) := by
  split
  · exact h
  · exact h'

theorem State.sparesStats.foldl {α : Type} {f : State → α → State} (h : s.sparesStats u) (l : List α) (hf : ∀ w x, s.sparesStats w → s.sparesStats (f w x)) :
    s.sparesStats (l.foldl f u) :=
  List.foldlRecOn (motive := s.sparesStats) l f h fun w hw x _ => hf w x hw

theorem State.sparesStats.wr (h : s.sparesStats u) {t : Nat} {f : Fld} {n : Nat} : s.sparesStats (u.wr t f n) := h.of_path rfl
theorem State.sparesStats.addSat (h : s.sparesStats u) {t : Nat} {f : Fld} {n : Nat} : s.sparesStats (u.addSat t f n) := h.of_path rfl
theorem State.sparesStats.setF (h : s.sparesStats u) {t : Nat} {f : Fld} : s.sparesStats (u.setF t f) := h.of_path rfl
theorem State.sparesStats.setIf (h : s.sparesStats u) {c : Bool} {t : Nat} {f : Fld} : s.sparesStats (u.setIf c t f) := h.setF.ite h
theorem State.sparesStats.pip (h : s.sparesStats u) {t src : Nat} : s.sparesStats (u.pip t src) := h.of_path (u.path_pip t src)
theorem State.sparesStats.updFir (h : s.sparesStats u) {t f : Nat} {g : FirChan → FirChan} : s.sparesStats (u.updFir t f g) := h.of_path rfl

/-! Queues and records (R145, R389). -/

theorem State.path_levelCheck (s : State) (t q n : Nat) : (s.levelCheck t q n).path = s.path := by
  unfold State.levelCheck
  dsimp only
  split
  · rw [State.path_pip, State.path_setBits]
  · rfl

theorem State.path_commit (s : State) (t q p : Nat) (i : QItem) : (s.commit t q p i).2.path = s.path := by
  unfold State.commit
  dsimp only
  split
  · rfl
  · split
    · rfl
    · split
      · rfl
      · rw [State.path_levelCheck]
        rfl

theorem State.sparesStats.statEmit (h : s.sparesStats u) {t p k : Nat} {rel : Option (Nat × Nat)} {mk : Nat → Bytes} : s.sparesStats (u.statEmit t p k rel mk) := by
  unfold State.statEmit
  dsimp only
  have halive : s.sparesStats { u with path := { u.path with statAlive := smSet 0 t ((smGet 0 t u.path.statAlive + 1) % 256) u.path.statAlive } } :=
    h.trans ⟨rfl, rfl⟩
  generalize { u with path := { u.path with statAlive := smSet 0 t ((smGet 0 t u.path.statAlive + 1) % 256) u.path.statAlive } } = z at halive
  have hcommit : s.sparesStats (z.commit t (z.rd t EXP_CTRL_QUEUE) 5 (itemOf (mk (smGet 0 t u.path.statAlive)) rel)).2 := halive.of_path (z.path_commit _ _ _ _)
  exact hcommit.ite hcommit.addSat

theorem State.sparesStats.statRelease1 (h : s.sparesStats u) {b : StatBand} {x : Band} {rel : Option (Nat × Nat)} : s.sparesStats (u.statRelease1 b x rel) := by
  unfold State.statRelease1
  extract_lets t p k mixed tagged hists
  rcases u.statWin b.n t p k with ⟨x0, w, z⟩
  dsimp -zeta only
  extract_lets plane
  have hmixed : s.sparesStats mixed := h.addSat.ite h
  have htagged : s.sparesStats tagged := hmixed.wr.wr
  have hhists : s.sparesStats hists := htagged.ite (htagged.foldl _ fun _ _ hw => hw.statEmit)
  exact hhists.ite hhists.statEmit

theorem State.sparesStats.statDrop (h : s.sparesStats u) {b : StatBand} : s.sparesStats (u.statDrop b) := (h.addSat.addSat).pip

/-! The automatic loop and the filters (R146 to R149, R409). -/

theorem State.sparesStats.zoneMean (h : s.sparesStats u) {t p m : Nat} {f : StatBand → Nat} {bs : List StatBand} :
    s.sparesStats (u.zoneMean t p m f bs).2 := by
  unfold State.zoneMean
  dsimp only
  split
  · exact h.of_path rfl
  · exact h

theorem State.sparesStats.updExp (h : s.sparesStats u) {t p : Nat} {f : ExpPort → ExpPort} : s.sparesStats (u.updExp t p f) := h.trans ⟨rfl, rfl⟩

/-- Gains and a state, of either branch. -/
theorem State.sparesStats.ite_gains (h : s.sparesStats u) (h' : s.sparesStats v) {c : Prop} [Decidable c] {r b r' b' : Nat} :
    s.sparesStats (if c then (r, b, u) else (r', b', v)).2.2 := by
  split
  · exact h
  · exact h'

theorem State.sparesStats.aeAct (h : s.sparesStats u) {t p n : Nat} {x : ExpSet} {bs : List StatBand} : s.sparesStats (u.aeAct t p n x bs) := by
  unfold State.aeAct
  extract_lets rgb top all
  have hmean : s.sparesStats (u.zoneMean t p (u.rd64 t (EXP_PORT_AE_ZONES_LO p)) (·.green) bs).2 := h.zoneMean
  generalize u.zoneMean t p (u.rd64 t (EXP_PORT_AE_ZONES_LO p)) (·.green) bs = r at hmean
  obtain ⟨m, z⟩ := r
  dsimp -zeta only at hmean ⊢
  extract_lets measured step tol hot shown ratio limited wz lo hi early id new
  have hlimited : s.sparesStats limited := hmean.wr.setIf.setIf
  refine State.sparesStats.ite ?_ (State.sparesStats.updExp ?_) <;>
    exact hlimited.zoneMean.zoneMean.zoneMean.setIf.ite_gains hlimited

theorem State.sparesStats.aeEval (h : s.sparesStats u) {t p n : Nat} {x : Band} {bs : List StatBand} : s.sparesStats (u.aeEval t p n x bs) := by
  unfold State.aeEval
  dsimp only
  split
  · exact h
  · split
    · exact h.wr.aeAct
    · exact h.wr

theorem State.sparesStats.firPush (h : s.sparesStats u) {t f : Nat} {x : Int} : s.sparesStats (u.firPush t f x) :=
  State.sparesStats.ite (h.updFir.addSat.setF) h.updFir.updFir

theorem State.sparesStats.firHold (h : s.sparesStats u) {t f : Nat} : s.sparesStats (u.firHold t f) := h.addSat.firPush

theorem State.sparesStats.firZones (h : s.sparesStats u) {n t : Nat} {done : List StatBand} : s.sparesStats (u.firZones n t done) := by
  refine h.foldl _ fun w f hw => ?_
  split
  · exact hw
  · dsimp only
    split
    · exact hw.firPush
    · exact hw.firHold

end Sys2Proof.Machine
end

section
/-! SUPPORT. Statistics are complete, and are released (R141); the stages of the line path (O33). -/

namespace Sys2Proof.Machine

variable {s : State} {t : Tile} {p : Port} {k : Sub}

/-! Statistics of a band (R141). -/

theorem State.exec_statisticsComplete (hlive : s.live) (hfit : s.fit t) (hlock : s.locked t .sys) (hlast : s.statLast (t * 8 + p * 4 + k)) :
    exec (.statisticsComplete t p k) s = .next (s.after (s.statComplete (t * 8 + p * 4 + k))) :=
  whenEv_live (c := s.fit t && s.locked t .sys && s.statLast (t * 8 + p * 4 + k)) (f := fun s => s.statComplete (t * 8 + p * 4 + k)) hlive
    (by simp [hfit, hlock, hlast])

theorem State.statComplete_spec {j : Nat} {b : StatBand} (hfind : (s.path.stats.find? fun b => b.sub == j && !b.complete) = some b) :
    (s.statComplete j).path.stats = (s.path.stats.map fun y => if y.sub == j && y.n == b.n then { y with complete := true } else y) ∧
    (s.statComplete j).regs = s.regs ∧ (s.statComplete j).mem = s.mem := by
  unfold State.statComplete
  rw [hfind]
  exact ⟨rfl, rfl, rfl⟩

theorem State.exec_statisticsRelease (hlive : s.live) (hfit : s.fit t) (hlock : s.locked t .sys) (hdue : s.statDue t) :
    exec (.statisticsRelease t) s = .next (s.after (s.statRelease t)) :=
  whenEv_live (c := s.fit t && s.locked t .sys && s.statDue t) (f := fun s => s.statRelease t) hlive (by simp [hfit, hlock, hdue])

/-- The statistics of the band that is due on a tile are taken. -/
def State.statTaken (s : State) (t : Nat) : State :=
  { s with path := { s.path with
      statNext := smSet 0 t (smGet 0 t s.path.statNext + 1) s.path.statNext
      stats := s.path.stats.filter fun b => !(b.sub / 8 == t && b.n == smGet 0 t s.path.statNext) } }

/-- What the release of a band does with the statistics it takes leaves those that stay. -/
theorem State.sparesStats_statRelease (s : State) (t : Nat) : (s.statTaken t).sparesStats (s.statRelease t) := by
  unfold State.statRelease
  dsimp only
  rw [List.partition_eq_filter_filter]
  have htaken := (s.statTaken t).sparesStats_refl
  split
  · exact htaken
  · refine State.sparesStats.firZones (State.sparesStats.aeEval (State.sparesStats.aeEval (htaken.foldl _ fun w b hw => ?_)))
    split
    · exact hw.statRelease1
    · exact hw.statDrop

theorem State.statRelease_spec (s : State) (t : Nat) : smGet 0 t (s.statRelease t).path.statNext = smGet 0 t s.path.statNext + 1 ∧
    ∀ y ∈ (s.statRelease t).path.stats, ¬ (y.sub / 8 = t ∧ y.n = smGet 0 t s.path.statNext) := by
  obtain ⟨hstats, hnext⟩ := s.sparesStats_statRelease t
  rw [hstats, hnext]
  refine ⟨smGet_set_same 0 t (smGet 0 t s.path.statNext + 1) s.path.statNext, fun y hy hmine => ?_⟩
  simpa [hmine] using (List.mem_filter.1 hy).2

/-! The stages, each at its event (R113, R116, R119). -/

theorem State.gives_lineWaitExpiry (hlive : s.live) (hfit : s.fit t) (hrun : s.is 0 BND_CTRL_RUN) : let x := s.settle t p
    let c := x.lineC - x.rd t (ING_PORT_CTRL_WAIT p)
    s.gives (.lineWaitExpiry t p k) fun v =>
      v.expect t p k = (if 0 ≤ c then max (x.expect t p k) (c.toNat + 1) % 2 ^ 64 else x.expect t p k) ∧
      (c = x.expect t p k → x.lineMapped t p k (x.expect t p k) →
        v.rd t (ING_PORT_SUB_MISSING p k) = min (x.rd t (ING_PORT_SUB_MISSING p k) + 1) 0xFFFFFFFF) := by
  have hexec := State.exec_lineWaitExpiry (p := p) (k := k) hlive hfit hrun
  have hspec := (s.settle t p).waitExpired_spec (t := t) (p := p) (k := k)
  generalize ((s.settle t p).waitExpiry t p k).markTile t = z at hexec hspec
  exact State.gives_of_exec hexec hspec

theorem State.exec_pipelineTake_none (hlive : s.live) (hfree : s.inputFree t p) (hnone : s.nextStaged t p = none) : exec (.pipelineTake t p) s = .next s :=
  State.exec_onClock_self (f := fun s => s.pipeTake t p) hlive rfl (State.pipeTake_none hfree hnone)

theorem State.exec_correctedLine_nil (hlive : s.live) (hempty : smGet [] (t * 2 + p) s.path.pipe = []) : exec (.correctedLine t p) s = .next s := by
  refine State.exec_onClock_self (f := fun s => s.correctedLine t p) hlive rfl ?_
  rw [State.correctedLine, hempty]

/-- Settles O33: each stage's answer is stated of its own operation, and what a stage does beside spares the words and lines that tell it. -/
theorem linePathStages : Obligations.LinePathStages := by
  intro s t p u hlive hfit key sub
  refine ⟨State.gives_lineWaitExpiry hlive hfit, State.exec_pipelineTake_none hlive, ?_, State.exec_correctedLine_nil hlive, ?_,
    State.gives_linePathDeadline hlive hfit, ?_, ?_⟩
  · intro hlock y j l hnext
    exact State.gives_pipelineTake hlive hfit hlock hnext
  · intro l rest hlock hpipe
    exact State.gives_correctedLine (k := ⟨l.sub % 4, Nat.mod_lt _ (by decide)⟩) hlive hfit hlock hpipe rfl
  · intro b hlock hlast hfind
    have hexec := State.exec_statisticsComplete (k := u) hlive hfit hlock hlast
    have hspec := State.statComplete_spec hfind
    generalize s.statComplete (t * 8 + p * 4 + u) = z at hexec hspec
    exact State.gives_of_exec hexec hspec
  · intro hlock hdue
    have hexec := State.exec_statisticsRelease hlive hfit hlock hdue
    have hspec := s.statRelease_spec t
    generalize s.statRelease t = z at hexec hspec
    exact State.gives_of_exec hexec hspec

end Sys2Proof.Machine
end
